-- ==== Sys2Proof/Word.lean ====
section
/-! DEFINITION. The plainest words and sparse tables of the CX960 model. -/

namespace Sys2Proof

/-- One byte of host or buffer memory (R11). -/
abbrev Byte := BitVec 8

/-- One Sehar word: every Sehar space is addressed in 16-bit words (R12, R434). -/
abbrev Word := BitVec 16

/-- A 64-bit field-book word (R507). -/
abbrev Quad := BitVec 64

/-- A sparse table keyed by a number: keys rise, an absent key stands for the record a reader names. -/
abbrev Tab (α : Type) := List (Nat × α)

/-- The entry at `k`, if the table lists one. -/
def Tab.find {α : Type} : Tab α → Nat → Option α
  | [], _ => none
  | (j, a) :: t, k => if j = k then some a else Tab.find t k

/-- The entry at `k`, or `d` for an unlisted key. -/
def Tab.get {α : Type} (t : Tab α) (k : Nat) (d : α) : α := (t.find k).getD d

/-- The table with `a` at `k`; keys stay in rising order. -/
def Tab.set {α : Type} : Tab α → Nat → α → Tab α
  | [], k, a => [(k, a)]
  | (j, b) :: t, k, a =>
    if k < j then (k, a) :: (j, b) :: t
    else if k = j then (k, a) :: t
    else (j, b) :: Tab.set t k a

/-- The table without the key `k`. -/
def Tab.erase {α : Type} : Tab α → Nat → Tab α
  | [], _ => []
  | (j, b) :: t, k => if j = k then Tab.erase t k else (j, b) :: Tab.erase t k

/-- The keys a table lists, in rising order. -/
def Tab.keys {α : Type} (t : Tab α) : List Nat := t.map (·.1)

end Sys2Proof
end

