-- ==== Sys2Proof/Syntax.lean ====
section
/-! DEFINITION. The commands of the CX960: one constructor per row of the opcode table, with the operands
each command brings from outside (a host, a drive, a clock, a pin, the firmware's own schedule). -/

namespace Sys2Proof

/-- Who makes a register access: a host port through BAR0, or context `c` of Sehar core `k`
(0-47 channel engines, 48 the system controller, 49 the Monument; R433). -/
inductive Sender where
  | port (p : Nat)
  | core (k c : Nat)
  deriving DecidableEq, Repr

/-- How a host answers a read: data with the byte offsets of poisoned beats, Unsupported Request or
Completer Abort (R137, R183). -/
inductive HostResp where
  | data (bytes : List Byte) (poisoned : Bool)
  | unsupported
  | abort
  deriving DecidableEq, Repr

/-- What a BIND command binds: a ready traverse, or the head of the ready list of an engine whose
subchannel is free (R131). -/
inductive BindWho where
  | traverse (p tag : Nat)
  | engine (e : Nat)
  deriving DecidableEq, Repr

/-- Management paths of R72: SMBus with the 7-bit address the message is sent to (the BMC), PCIe VDM of a port, the
secure mailbox. -/
inductive MctpPath where
  | smbus (addr : BitVec 7)
  | vdm (p : Nat)
  | secure
  deriving DecidableEq, Repr

/-- A request over SMBus. -/
def MctpPath.isSmbus : MctpPath → Bool
  | .smbus _ => true
  | _ => false

/-- Where a Kilvor command comes from (R72, R600, R501): an MCTP body after the vendor ID whose byte 0 is
the command code, or the request at the front of the system controller's service queue. -/
inductive KilvorSrc where
  | mctp (path : MctpPath) (body : List Byte)
  | service
  deriving DecidableEq, Repr

/-- PLDM type 5 requests (R552): data for the inactive slot, activation, and raising the minimum SVN. -/
inductive PldmReq where
  | write (offset : Nat) (bytes : List Byte)
  | activate
  | raiseSvn
  deriving DecidableEq, Repr

/-- What a PLDM request of type 5 asks, as bytes that stand for it. -/
def PldmReq.tag : PldmReq → List Byte
  | .write _ bs => 0 :: bs
  | .activate => [1]
  | .raiseSvn => [2]

/-- What PHY CONTROL (HARD RESET) of recovery step 4 met with (R267). -/
inductive ResetAnswer where
  | accepted | noAnswer | refused
  deriving DecidableEq, Repr

/-- What an SMP answer, an INQUIRY or a SES page read during discovery reports (R253 to R258). -/
inductive SmpReport where
  /-- REPORT GENERAL or DISCOVER LIST met an expander with this SAS address. -/
  | expander (sasAddr : BitVec 64)
  /-- DISCOVER LIST has reached the last phy of this expander (R253). -/
  | listed (sasAddr : BitVec 64)
  /-- INQUIRY of a target was answered with this peripheral device type (R253). -/
  | inquiry (sasAddr : BitVec 64) (deviceType : BitVec 5)
  /-- Page 0x01 of an enclosure services process gave its logical identifier and the type descriptors of its elements
  (type code, number of elements). -/
  | enclosure (sasAddr logicalId : BitVec 64) (types : List (Nat × Nat))
  /-- SES page 0x0A of the enclosure at position `pos` describes slot `slot` with these SAS addresses;
  `installed` is the element status of page 0x02. -/
  | slot (pos slot : Nat) (sasAddrs : List (BitVec 64)) (installed : Bool)
  /-- SES page 0x0A of the enclosure at position `pos` describes slot `slot` no longer (R251). -/
  | noSlot (pos slot : Nat)
  /-- An SSP target with this SAS address was found on the chain. -/
  | target (sasAddr : BitVec 64)
  /-- A phy without STP or SSP use: a SATA or STP attachment. -/
  | notSsp (sasAddr : BitVec 64)
  /-- Rediscovery found the target of handle `h` gone. -/
  | gone (h : Nat)
  /-- Every reachable expander and page has been read. -/
  | finished
  /-- PHY CONTROL (HARD RESET) of recovery step 4 for handle `h` was answered. -/
  | hardReset (h : Nat) (answer : ResetAnswer)
  /-- A page 0x02 read of the enclosure at position `pos` was answered: byte 1 and the generation code (R273). -/
  | status (pos : Nat) (summary : BitVec 8) (generation : BitVec 32)
  deriving DecidableEq, Repr

/-- OPEN_REJECT reasons (R262). -/
inductive RejectReason where
  | retry | pathwayBlocked | rateNotSupported | noDestination | badDestination
  | wrongDestination | protocolNotSupported | reserved
  deriving DecidableEq, Repr

/-- The row error-correcting code's finding (R312). -/
inductive RowEcc where
  | clean | corrected | uncorrectable
  deriving DecidableEq, Repr

/-- What a stack read finds (R410, R414): nothing amiss, an error the on-die ECC corrected, another check word than the
one stored, an uncorrectable error of the beat or of the check-region beat that holds its word. -/
inductive Finding where
  | sound | corrected
  | checkWord (w : BitVec 16)
  | eccUncorrectable | checkRegion
  deriving DecidableEq, Repr

/-- A lane of a chain's wide port, over which a DATA frame travels (R260). -/
structure SasLane where
  chain : Nat
  lane : Nat
  deriving DecidableEq, Repr

/-- A beat on the move: where it goes and what happens there (R285, R290). -/
inductive BeatDest where
  /-- Written to the byte address `addr` of the stacks. -/
  | write (addr : Nat)
  /-- A part of a beat, written from the byte address `addr` on (R411). -/
  | part (addr : Nat) (bytes : List Byte)
  /-- Accumulated at `addr` with a coefficient; `last` marks END (R329). -/
  | accum (addr : Nat) (coef : Byte) (last : Bool)
  /-- Delivered to the port with resource ID `id` (R282). -/
  | port (id : Nat)
  deriving DecidableEq, Repr

/-- A 64-byte beat with the CRC-16 that travels with it (R409) and its destination; `quarter` is the destination
quarter. READ data for a remote port carries the address it was read at (R285). -/
structure Beat where
  quarter : Nat
  dest : BeatDest
  data : BitVec 512
  check : BitVec 16
  addr : Option Nat := none
  deriving DecidableEq, Repr

/-- What the owner of a cell does with it in a row (R285, R286). -/
inductive CellUse where
  | read (addr : Nat) (f : Finding)
  /-- `checkBad`: the check-region beat that takes the check word has an uncorrectable on-die ECC error (R411). -/
  | write (addr : Nat) (data : BitVec 512) (check : BitVec 16) (checkBad : Bool)
  | launch (b : Beat)
  deriving DecidableEq, Repr

/-- The use of one lane's cell in a row by a host port, DMA, SYS or BLK owner; of a read by a SAS port, which chooses its
beats itself (R265), only the finding. -/
structure LaneUse where
  lane : Nat
  use : CellUse
  deriving DecidableEq, Repr

/-- A request to the open arbiter in a row (R313 to R318). Requesters 13 to 15 ask with what they hold or need; of a read of
requester 15 `use` says the finding alone. -/
structure OpenAsk where
  req : Nat
  use : CellUse
  /-- The requester's reset or power-gate sideband asserts in this row (R317, R318). -/
  masked : Bool
  /-- The granted requester withdraws, in START, TEST and RECOVERY modes or as its mask asserts (R318). -/
  withdraws : Bool
  deriving DecidableEq, Repr

/-- Targets of the LB branches (R445): absolute, through W[n], or through LR. -/
inductive BranchTarget where
  | absolute (t : BitVec 16)
  | reg (n : BitVec 6)
  | lr
  deriving DecidableEq, Repr

/-- The value of a SET command line of the verification port (R534). -/
inductive ParamValue where
  | text (chars : List Byte)
  | number (n : Nat)
  deriving DecidableEq, Repr

/-- What a SET command meets outside the port (R533, R535): the level of the parameter enable jumper as its line ends,
asserted or not, and whether the flash takes the record and reads it back. -/
structure SetPins where
  paramEn : Bool
  flashOk : Bool
  deriving DecidableEq, Repr

/-- What the boot ROM finds in an image slot (R551, R552). -/
structure ImageReport where
  /-- The 512 bytes of its header (R551), as far as PLDM has not written them since. -/
  header : List Byte
  /-- The image bytes after the header, as far as PLDM has not written them since; bytes that are missing are blank. -/
  body : List Byte
  deriving DecidableEq, Repr

/-- What the device meets at a stage of the boot timeline (R552 to R554). -/
structure BootReport where
  /-- What the boot ROM finds in the first 16 bytes of the directory, if the device has never written it (stage 2). -/
  directory : List Byte
  /-- Training of a stack succeeded (stage 3). -/
  trained : Bool
  /-- What the boot ROM finds in the two image slots (stage 5). -/
  slotA : ImageReport
  slotB : ImageReport
  /-- The sealed key store authenticated (stage 6). -/
  keysOk : Bool
  /-- The port configuration record, 16 bytes for each port from port 0 (R553, stage 9); bytes that are missing are
  blank. -/
  portRecord : List Byte
  deriving DecidableEq, Repr

/-- The islands that may be gated by R38. -/
inductive GateIsland where
  | engines (party : Nat)
  | sasPort (chain : Nat)
  deriving DecidableEq, Repr

/-- The commands: one constructor per row of the opcode table. -/
inductive Instr where
  /-- REGISTER_WRITE (R15). A write to a register field that has no behaviour of its own stores, clears or sets bits by its access code, or is refused with FIELD_REFUSED. -/
  | registerWrite (by_ : Sender) (addr : Nat) (width : Nat) (v : BitVec 64)
  /-- RESERVED_OFFSET_ACCESS (R17). An access to a reserved offset reads 0, ignores writes and increments FN_UNCLAIMED. -/
  | reservedOffsetAccess (p : Nat) (bar : Nat) (offset : Nat) (width : Nat) (write : Bool)
  /-- CONFIG_REQUEST (R52). A PCI configuration request is answered with Configuration Request Retry Status until firmware has loaded the port's configuration, then normally. -/
  | configRequest (p : Nat) (write : Bool) (dword : Nat) (v : BitVec 32)
  /-- PERST_N_DEASSERT (R46). Deassertion of a slot's PERST_N ends the port's fundamental reset and, after power-on, samples the bifurcation straps. -/
  | perstNDeassert (slot : Nat) (strap : BitVec 2)
  /-- PERST_N_ASSERT (R557). Assertion of a port's PERST_N resets the port and starts a host-scope containment as for DL_Down. -/
  | perstNAssert (slot : Nat)
  /-- FLR (R54). A function-level reset starts a host-scope containment that resets the port's queue control blocks. -/
  | flr (p : Nat)
  /-- D3HOT_ENTRY (R59). The port enters D3hot; it fetches nothing and completion posting stalls. -/
  | d3hotEntry (p : Nat)
  /-- D3HOT_TO_D0 (R54). A D3hot to D0 transition starts a host-scope containment that resets the queue control blocks. -/
  | d3hotToD0 (p : Nat)
  /-- DL_DOWN (R54). Link-down, surprise link-down included, starts a host-scope containment that resets the queue control blocks. -/
  | dlDown (p : Nat)
  /-- PCIE_LINK_UP (R599). The port's link comes up in D0; held host writes are made and held MSI-X messages become sendable. -/
  | pcieLinkUp (p : Nat)
  /-- UNCORRECTABLE_FATAL_ERROR (R54). A fatal error received on a port starts a host-scope containment that keeps the queue control blocks. -/
  | uncorrectableFatalError (p : Nat)
  /-- HOST_READ_COMPLETION (R137). The completion of a device read of host memory arrives, delivering data, poison, Unsupported Request or Completer Abort to the fetch, stage-in, read-back or DMA that issued it. -/
  | hostReadCompletion (p id : Nat) (r : HostResp)
  /-- HOST_READ_TIMEOUT (R137). A host read gets no completion within the completion timeout and its requester ends with FETCH-FAULT or its own failure status. -/
  | hostReadTimeout (p id : Nat)
  /-- BAR4_ACCESS (R64). A BAR4 access reads or writes a byte of the port's extents through the open arbiter, or counts as unclaimed. -/
  | bar4Access (p : Nat) (write : Bool) (offset : Nat) (bytes : List Byte)
  /-- SQ_DOORBELL (R94). A write to a submission queue's doorbell starts a scan, or marks a rescan if one is in progress. -/
  | sqDoorbell (p q : Nat)
  /-- CQ_HEAD_DOORBELL (R107). A write to a completion queue's head doorbell returns ring slots or is ignored with BAD_HEAD. -/
  | cqHeadDoorbell (p q : Nat) (h : BitVec 16)
  /-- SQ_ENABLE (R113). Setting SQ_CFG.EN resets HEAD, expected phase and cache, or is refused unless the queue is idle and its CQ enabled. -/
  | sqEnable (p q : Nat) (v : BitVec 32)
  /-- SQ_DISABLE (R114). Clearing SQ_CFG.EN stops the scan at the next hand-over point and drops the cache. -/
  | sqDisable (p q : Nat) (v : BitVec 32)
  /-- CQ_ENABLE (R113). Setting CQ_CFG.EN resets TAIL, head, unreturned count and expected phase. -/
  | cqEnable (p q : Nat) (v : BitVec 32)
  /-- CQ_DISABLE (R87). Clearing CQ_CFG.EN disables posting, refused unless CQ_STAT.IDLE is 1. -/
  | cqDisable (p q : Nat) (v : BitVec 32)
  /-- SQ_INV_WRITE (R96). Writing SQ_INV.GO sets INV_BUSY and requests an invalidation of the queue's entry cache. -/
  | sqInvWrite (p q : Nat) (v : BitVec 32)
  /-- SQ_INVALIDATION (R96). At the next point between hand-overs the cache is dropped, HEAD copied to SQ_INV_HEAD and INV_BUSY cleared. -/
  | sqInvalidation (p q : Nat)
  /-- CQ_VEC_COAL_WRITE (R112). A write to CQ_VEC_COAL selects the basic or expert coalescing level or sets expert values, applied at the vector's next message. -/
  | cqVecCoalWrite (p q : Nat) (v : BitVec 32)
  /-- SCAN_TURN (R95). The port serves one turn of a scanning queue, filling its cache from the ring and handing on device-owned entries in slot order. -/
  | scanTurn (p : Nat)
  /-- START_ENTRY (R100). A START entry handed on is checked and passed to admission, or completed at once with its failure. -/
  | startEntry (p : Nat)
  /-- RESUME_ENTRY (R101). A RESUME entry releases the traverse held at the named station or completes ENTRY-INVALID. -/
  | resumeEntry (p : Nat)
  /-- NOP_ENTRY (R101). A NOP entry completes at once with OK. -/
  | nopEntry (p : Nat)
  /-- NOTE_REQUEST (R101). A NOTE-REQUEST entry makes the target traverse write a REQUESTED progress record and then completes. -/
  | noteRequest (p : Nat)
  /-- ADMISSION (R126). Admission checks the header, run list and ownership, then reserves all declared extents at once or leaves the traverse pending. -/
  | admission
  /-- BIND (R131). A ready traverse is bound to a free subchannel, or an engine whose subchannel frees takes the head of its party's ready list. -/
  | bind (w : BindWho)
  /-- STATION_START (R167). At each station the engine checks deadline, fetch, hold, budget, encoding, ownership and outing, then performs the leg. -/
  | stationStart (p tag : Nat)
  /-- ISSUE (R171). The ISSUE leg sends one SCSI command with its 16-byte CDB through an SSP COMMAND frame. -/
  | legIssue (p tag : Nat)
  /-- ISSUE_EXT (R174). The ISSUE-EXT leg reads a 20- to 32-byte CDB from memory and sends it as ISSUE does. -/
  | legIssueExt (p tag : Nat)
  /-- TASK (R175). The TASK leg sends one SSP TASK information unit to a drive, or ends NOT-SENT. -/
  | legTask (p tag : Nat)
  /-- ENCLOSURE (R178). The ENCLOSURE leg reads or writes one SES-4 diagnostic page of a shelf's enclosure. -/
  | legEnclosure (p tag : Nat)
  /-- STAGE_IN (R181). The STAGE-IN leg copies bytes from host memory into buffer memory through the port's fill slots. -/
  | legStageIn (p tag : Nat)
  /-- STAGE_OUT (R181). The STAGE-OUT leg copies bytes from buffer memory to host memory, with optional read-back. -/
  | legStageOut (p tag : Nat)
  /-- COPY (R185). The COPY leg moves bytes within buffer memory through the DMA engine and open arbiter. -/
  | legCopy (p tag : Nat)
  /-- RECIPE (R186). The RECIPE leg places a recipe in its party's hamper engine launch queue. -/
  | legRecipe (p tag : Nat)
  /-- FLUSH_SPAN (R190). The FLUSH-SPAN leg writes one span accumulator to its parity drive. -/
  | legFlushSpan (p tag : Nat)
  /-- VERIFY (R192). The VERIFY leg checks a range against a shard tag or a second range on the hamper engine. -/
  | legVerify (p tag : Nat)
  /-- GATHER (R196). The GATHER leg issues N data-in commands and ends when K have arrived. -/
  | legGather (p tag : Nat)
  /-- BOOK (R204). The BOOK leg takes a booking on an open shelf or parks the traverse in the shelf's basket. -/
  | legBook (p tag : Nat)
  /-- RELEASE (R205). The RELEASE leg gives up the traverse's booking on a shelf. -/
  | legRelease (p tag : Nat)
  /-- SPIN (R206). The SPIN leg starts or stops selected drives of a shelf during an open outing. -/
  | legSpin (p tag : Nat)
  /-- GOTO (R208). The GOTO leg continues the traverse at another station. -/
  | legGoto (p tag : Nat)
  /-- TEST (R209). The TEST leg evaluates a condition on the last status, LEG_INFO or a memory operand and skips the next leg when it holds. -/
  | legTest (p tag : Nat)
  /-- WAIT (R211). The WAIT leg waits until another traverse starts a station or ends, or is refused as circular. -/
  | legWait (p tag : Nat)
  /-- NOTE (R212). The NOTE leg writes a NOTE-LEG progress record carrying a code. -/
  | legNote (p tag : Nat)
  /-- PAUSE (R213). The PAUSE leg parks the traverse in the pausing state for a number of milliseconds. -/
  | legPause (p tag : Nat)
  /-- EXEC (R214). The EXEC leg loads a customer Sehar routine and runs it in user mode on the engine. -/
  | legExec (p tag : Nat)
  /-- END (R217). The END leg ends the traverse with OK. -/
  | legEnd (p tag : Nat)
  /-- RESPONSE_PARK_EXPIRY (R134). After 1 ms waiting for responses, or for a recipe, the traverse parks if its party's ready list is not empty. -/
  | responseParkExpiry (p tag : Nat)
  /-- DEADLINE_EXPIRY (R151). A traverse's deadline passes and it ends ADMISSION-REFUSED or WAIT-TIMEOUT according to its state. -/
  | deadlineExpiry (p tag : Nat)
  /-- WAIT_DEADLINE_EXPIRY (R154). A WAIT's own deadline passes before satisfaction and the traverse ends WAIT-TIMEOUT. -/
  | waitDeadlineExpiry (p tag : Nat)
  /-- PAUSE_EXPIRY (R213). A pause time passes and the traverse becomes ready with the PAUSE leg ending OK. -/
  | pauseExpiry (p tag : Nat)
  /-- COMPLETION_READBACK (R161). The read-back of the last host address a traverse wrote ends, and the completion is formed, as DELIVERY-UNCONFIRMED if it failed. -/
  | completionReadback (p tag : Nat) (ok : Bool)
  /-- COLLECTOR_RELEASE (R37). Once every quarter's collector records of a frame have arrived, the collector releases that frame's records for posting in order. -/
  | collectorRelease (frame : Nat)
  /-- COMPLETION_POST (R108). A released completion is written to its completion ring when space allows, or waits with STALLED set. -/
  | completionPost (p : Nat)
  /-- COALESCE_TIMER_EXPIRY (R111). A vector's coalescing timer reaches TIMER_US and the vector sends its message. -/
  | coalesceTimerExpiry (p v : Nat)
  /-- MSIX_PENDING_SEND (R69). A held MSI-X message is sent once the port is in D0 with link up, MSI-X enabled and unmasked. -/
  | msixPendingSend (p v : Nat)
  /-- MCTP_CONTROL (R72). An MCTP control message is answered. -/
  | mctpControl (path : MctpPath) (body : List Byte)
  /-- PLDM_MONITORING (R72). A PLDM type 0 or type 2 request is answered, including temperature sensors. -/
  | pldmMonitoring (path : MctpPath) (pldmType : Nat) (sensor : Nat)
  /-- PLDM_FIRMWARE_UPDATE (R552). A PLDM type 5 request from the principal writes the inactive image slot or activates it. -/
  | pldmFirmwareUpdate (path : MctpPath) (r : PldmReq)
  /-- GET_APPORTIONMENT (R600). Returns the committed apportionment view block of one port. -/
  | getApportionment (src : KilvorSrc)
  /-- STAGE_GRANT (R600). Stages one grant of a resource class to a port without applying it. -/
  | stageGrant (src : KilvorSrc)
  /-- COMMIT (R77). Checks all staged grants against totals and withdrawal conditions and applies all of them or none. -/
  | commit (src : KilvorSrc)
  /-- DISCARD (R73). Drops all staged grants. -/
  | discard (src : KilvorSrc)
  /-- SET_ADMIN (R71). The BMC hands the administrative role to a host port or takes it back. -/
  | setAdmin (src : KilvorSrc)
  /-- KILVOR_UNKNOWN_COMMAND (R73). A Kilvor command with an unlisted code is answered INVALID. -/
  | kilvorUnknownCommand (src : KilvorSrc)
  /-- SET_LEVEL_OUTING_CHOICE (R243). SET-LEVEL function 0x10 sets the outing choice level and its parameters. -/
  | setLevelOutingChoice (src : KilvorSrc)
  /-- SET_LEVEL_SHELVES_PER_CHAIN (R243). SET-LEVEL function 0x11 sets one or two shelves per chain. -/
  | setLevelShelvesPerChain (src : KilvorSrc)
  /-- SET_LEVEL_SPIN_UP (R243). SET-LEVEL function 0x12 sets the spin-up group and interval. -/
  | setLevelSpinUp (src : KilvorSrc)
  /-- SET_LEVEL_LINK (R274). SET-LEVEL function 0x20 sets lane enables and maximum rates per chain. -/
  | setLevelLink (src : KilvorSrc)
  /-- SET_LEVEL_RECOVERY (R274). SET-LEVEL function 0x21 sets SAS command and recovery timeouts and limits. -/
  | setLevelRecovery (src : KilvorSrc)
  /-- SET_LEVEL_TIMETABLE (R308). SET-LEVEL function 0x30 selects the generated or loaded timetable. -/
  | setLevelTimetable (src : KilvorSrc)
  /-- SET_LEVEL_RECIPES (R360). SET-LEVEL function 0x50 selects the ROM library alone or customer store recipes. -/
  | setLevelRecipes (src : KilvorSrc)
  /-- SET_LEVEL_STACK_POWER (R419). SET-LEVEL function 0x60 enables stack self-refresh and its entry time. -/
  | setLevelStackPower (src : KilvorSrc)
  /-- SET_LEVEL_COPY (R431). SET-LEVEL function 0x61 sets per-port limits on COPY channels. -/
  | setLevelCopy (src : KilvorSrc)
  /-- TIMETABLE_BEGIN (R309). LOAD-TIMETABLE BEGIN copies every active bank to its shadow and opens staging. -/
  | timetableBegin (src : KilvorSrc)
  /-- TIMETABLE_ROWS (R309). LOAD-TIMETABLE ROWS overwrites shadow rows of one quarter. -/
  | timetableRows (src : KilvorSrc)
  /-- TIMETABLE_COMMIT (R310). LOAD-TIMETABLE COMMIT checks the staged banks and arms a swap four superframes ahead. -/
  | timetableCommit (src : KilvorSrc)
  /-- TIMETABLE_ABORT (R309). LOAD-TIMETABLE ABORT closes staging without using the shadow contents. -/
  | timetableAbort (src : KilvorSrc)
  /-- RECIPE_WRITE (R358). LOAD-RECIPE WRITE stores bytes of a staged recipe image for one engine and slot. -/
  | recipeWrite (src : KilvorSrc)
  /-- RECIPE_COMMIT (R359). LOAD-RECIPE COMMIT checks the staged image and replaces the slot's content. -/
  | recipeCommit (src : KilvorSrc)
  /-- RECIPE_ERASE (R358). LOAD-RECIPE ERASE empties a recipe store slot. -/
  | recipeErase (src : KilvorSrc)
  /-- KEY_LOAD (R391). KEY-OP LOAD places a 32-byte key in an empty key store entry. -/
  | keyLoad (src : KilvorSrc)
  /-- KEY_GENERATE (R391). KEY-OP GENERATE draws a key from the random bit generator into an empty entry. -/
  | keyGenerate (src : KilvorSrc)
  /-- KEY_ERASE (R391). KEY-OP ERASE overwrites a key store entry. -/
  | keyErase (src : KilvorSrc)
  /-- KEY_CHECK (R391). KEY-OP CHECK returns whether an entry holds a key and its check value. -/
  | keyCheck (src : KilvorSrc)
  /-- KEYSTORE_SEAL_DONE (R392). The sealed copy of the key store is written to boot flash and the pending KEY-OP reply is sent. -/
  | keystoreSealDone
  /-- MB_REQ_POST (R493). A host writes MB_REQ_POST, marking its request FULL and ringing the system controller's doorbell, or setting COLLISION. -/
  | mbReqPost (p m : Nat) (v : BitVec 32)
  /-- MB_RPL_REL (R493). A host releases a mailbox reply. -/
  | mbRplRel (p m : Nat) (v : BitVec 32)
  /-- MB_WAKE_WORD0_WRITE (R494). A write including word 0 to an instance in WAKE mode posts it with LEN 32 and ungates the receiver. -/
  | mbWakeWord0Write (by_ : Sender) (inst : Nat) (v : BitVec 32)
  /-- MB_POST (R493). A Sehar sender writes MB_POST, posting the message and setting the receiver's doorbell, or COLLISION. -/
  | mbPost (k inst : Nat) (v : Word)
  /-- MB_REL (R493). A Sehar receiver writes MB_REL, releasing the instance. -/
  | mbRel (k inst : Nat) (v : Word)
  /-- MAILBOX_REQUEST_TAKE (R500). Firmware takes a posted request from a mailbox whose reply is empty, releases it and dispatches it, answering unknown codes INVALID. -/
  | mailboxRequestTake (inst : Nat)
  /-- SHELF_PARAM (R245). The SHELF-PARAM message sets a shelf's opening window and spin-up steps from a parameter block. -/
  | shelfParam
  /-- SHELF_QUERY (R245). The SHELF-QUERY message returns a shelf's state, basket, bookings, fault count and time in state. -/
  | shelfQuery
  /-- SHELF_RESTORE (R245). The SHELF-RESTORE message returns a RETIRED shelf to DARK. -/
  | shelfRestore
  /-- CHAIN_QUERY (R276). The CHAIN-QUERY message returns a chain's link rate, lanes, commands, recoveries and error counts. -/
  | chainQuery
  /-- ACCUM_ARM (R377). The ACCUM-ARM message zeroes and arms span accumulators and enters them in the accumulator table. -/
  | accumArm
  /-- ACCUM_DISARM (R376). The ACCUM-DISARM message removes accumulators from the table and writes STATE 0. -/
  | accumDisarm
  /-- EXT_ALLOC (R404). The EXT-ALLOC message allocates extents of a quarter as up to 10 runs, zeroing them when required. -/
  | extAlloc
  /-- EXT_FREE (R405). The EXT-FREE message returns a run of extents to no ownership. -/
  | extFree
  /-- EXT_QUERY (R406). The EXT-QUERY message returns the port's allocation, quota and the longest free run in a quarter. -/
  | extQuery
  /-- SSP_RESPONSE_FRAME (R173). A RESPONSE frame for a command arrives and ends its leg, a GATHER arrival, a spin-up poll or a closing step. -/
  | sspResponseFrame (c tag : Nat) (status : BitVec 8) (info : List Byte)
  /-- TASK_RESPONSE (R176). The response to a task management function arrives, ending the TASK leg or a recovery step and the commands it aborts. -/
  | taskResponse (c tag : Nat) (code : BitVec 8)
  /-- XFER_RDY (R265). An XFER_RDY frame arrives and the port reads the requested data ahead into its transmit buffer. -/
  | xferRdy (c tag offset len : Nat)
  /-- DATA_FRAME_RECEIVE (R264). A received DATA frame lands in the elastic buffer and drains to buffer memory in fill slots. -/
  | dataFrameReceive (l : SasLane) (tag offset : Nat) (bytes : List Byte)
  /-- DATA_FRAME_SEND (R265). A DATA frame is sent as its data arrives, or the transfer stops on a poisoned beat. -/
  | dataFrameSend (l : SasLane) (tag : Nat)
  /-- COMMAND_FRAME_SEND (R260). A waiting command gets a tag and a HANDLE_DEPTH place and its COMMAND frame is sent. -/
  | commandFrameSend (h : Nat)
  /-- TASK_SEND (R177). A held task management function is sent once earlier foreign commands have ended and a task tag is free. -/
  | taskSend (h : Nat)
  /-- SMP_RESPONSE (R253). An SMP response arrives and discovery proceeds depth-first. -/
  | smpResponse (c : Nat) (r : SmpReport)
  /-- OPEN_REJECT (R262). An OPEN_REJECT arrives and the port backs off, lowers the rate, rediscovers or ends the command LINK-LOST. -/
  | openReject (h tag : Nat) (r : RejectReason)
  /-- OPEN_BACKOFF_EXPIRY (R262). The back-off after OPEN_REJECT (RETRY) expires and the port opens again. -/
  | openBackoffExpiry (h tag : Nat)
  /-- CONNECTION_BREAK (R270). A connection carrying frames of a command breaks and its commands are aborted or end LINK-LOST. -/
  | connectionBreak (c : Nat) (tags : List Nat)
  /-- COMMAND_TIMEOUT (R267). A command's timeout expires and recovery of its handle starts or is joined. -/
  | commandTimeout (c tag : Nat)
  /-- TMF_TIMEOUT (R267). A task management function gets no answer within TMF_TIMEOUT_S and recovery moves to its next step or the TASK leg ends DEVICE-TIMEOUT. -/
  | tmfTimeout (c tag : Nat)
  /-- BUSY_RETRY_DELAY_EXPIRY (R263). RETRY_DELAY_MS after BUSY or TASK SET FULL passes and the command is sent again with a new tag. -/
  | busyRetryDelayExpiry (c id : Nat)
  /-- NEXUS_LOSS_EXPIRY (R258). NEXUS_LOSS_MS passes without the target returning; the handle is detached and its commands end LINK-LOST. -/
  | nexusLossExpiry (h : Nat)
  /-- BROADCAST (R273). A BROADCAST primitive is received and counted, causing rediscovery, an enclosure read or a record. -/
  | broadcast (c lane : Nat) (prim : BitVec 8)
  /-- REDISCOVERY_START (R273). A coalesced rediscovery of a chain's expanders starts, at most once per 100 ms. -/
  | rediscoveryStart (c : Nat)
  /-- LANE_UP (R253). A SAS lane completes speed negotiation and comes up, starting start-up discovery with the first lane. -/
  | laneUp (c lane : Nat) (rate : BitVec 2)
  /-- DWORD_SYNC_LOSS (R271). A lane loses dword synchronisation and is link-reset, or disabled on its fourth reset in 10 s. -/
  | dwordSyncLoss (c lane : Nat)
  /-- FEC_THRESHOLD (R271). Uncorrectable FEC codewords on a lane exceed 16 within 1 s and the lane is link-reset. -/
  | fecThreshold (c lane : Nat)
  /-- PORT_RESET_ATTEMPT (R272). With every lane of a wide port down, a port-level reset is attempted every 2 s. -/
  | portResetAttempt (c : Nat) (ok : Bool)
  /-- DISCOVERY_TIMEOUT (R255). 20 s after the first lane came up, start-up discovery of a chain ends. -/
  | discoveryTimeout (c : Nat)
  /-- SLOT_DISCOVERY_COMPLETE (R256). Every described slot of a spinning shelf has an attached target and spin-up starts. -/
  | slotDiscoveryComplete (s : Nat)
  /-- CHAIN_LINK_RESET_APPLY (R275). A changed link function is applied by a port-level reset once no shelf of the chain holds an outing. -/
  | chainLinkResetApply (c : Nat)
  /-- PLANNER_CHOICE (R233). A chain with room for an outing and no shelf spinning up chooses an eligible shelf and moves it to POWERING. -/
  | plannerChoice (c : Nat)
  /-- SHELF_PG_FILTERED_EDGE (R225). A filtered transition of SHELF_PG is counted, raising POWER-UNSTABLE beyond 4 per second. -/
  | shelfPgFilteredEdge (s : Nat) (level : Bool)
  /-- SHELF_PG_DEBOUNCE_EXPIRY (R224). The filtered SHELF_PG has held a new level for 10 ms and the debounced power-good changes. -/
  | shelfPgDebounceExpiry (s : Nat)
  /-- POWER_GOOD_TIMEOUT (R229). 60 s pass in POWERING without power-good; the shelf goes to HOLDOFF and its basket ends SPINUP-TIMEOUT. -/
  | powerGoodTimeout (s : Nat)
  /-- SPIN_UP_START_TIMEOUT (R238). 10 s after power-good without slot discovery complete, spin-up starts with the slots found. -/
  | spinUpStartTimeout (s : Nat)
  /-- SPIN_UP_STEP (R238). A spin-up step's offset is reached and its slots are started by START or SES. -/
  | spinUpStep (s : Nat)
  /-- TEST_UNIT_READY_POLL (R239). Every 500 ms a started drive not yet ready is sent TEST UNIT READY. -/
  | testUnitReadyPoll (s slot : Nat)
  /-- SPIN_UP_TIMEOUT (R239). 60 s after the last step's offset spin-up completes, recording DRIVE-NOT-READY for slots not ready. -/
  | spinUpTimeout (s : Nat)
  /-- LINGER_EXPIRY (R230). An OPEN outing's work has been 0 for the linger time and it enters CLOSING. -/
  | lingerExpiry (s : Nat)
  /-- MAX_OPEN_EXPIRY (R231). The maximum open time passes and the outing drains if another shelf of the chain is eligible and waiting. -/
  | maxOpenExpiry (s : Nat)
  /-- AGE_LIMIT_PASSED (R231). A basket entry passes the age limit, driving the longest-open outing of its chain to DRAINING. -/
  | ageLimitPassed (s : Nat)
  /-- OPENING_WINDOW_END (R237). A shelf's expert opening window ends and its OPEN outing enters DRAINING. -/
  | openingWindowEnd (s : Nat)
  /-- DRAIN_LIMIT_EXPIRY (R229). The drain limit passes; remaining bookings lapse and the outing enters CLOSING. -/
  | drainLimitExpiry (s : Nat)
  /-- CLOSING_SEQUENCE_DONE (R232). Every drive has answered the stop, or 30 s have passed; SHELF_PWR_EN is deasserted and the shelf enters SETTLING. -/
  | closingSequenceDone (s : Nat)
  /-- SETTLING_TIMEOUT (R229). 10 s pass in SETTLING with power-good high; PG-STUCK and the shelf is RETIRED. -/
  | settlingTimeout (s : Nat)
  /-- HOLDOFF_EXPIRY (R242). The fault hold time passes and the shelf goes DARK, or RETIRED at the retire count. -/
  | holdoffExpiry (s : Nat)
  /-- TIMETABLE_ROW (R285). A quarter executes one timetable row, performing each cell's read, write, accumulate, launch or collector transfer. -/
  | timetableRow (q : Nat) (ecc : RowEcc) (uses : List LaneUse) (asks : List OpenAsk)
  /-- SUPERFRAME_BOUNDARY (R304). At a superframe boundary the count increments and an armed swap at TT_SWAP_AT exchanges the banks. -/
  | superframeBoundary (q : Nat)
  /-- SEAM_END (R306). 1,024 rows after a swap the seam ends and the new bank governs every cell. -/
  | seamEnd (q : Nat)
  /-- FRAME_BEACON (R27). A quarter receives the frame beacon and checks its count, failing the device on a mismatch. -/
  | frameBeacon (q : Nat) (count : BitVec 32)
  /-- BEACON_MISSING (R27). No beacon arrives within 16 quarter cycles of the expected moment and the device restarts. -/
  | beaconMissing (q : Nat)
  /-- BEACON_ALIGNMENT (R28). During start-up bridges are calibrated and each quarter aligns its frame counter to the first beacon. -/
  | beaconAlignment (q : Nat) (count : BitVec 32) (delay : Nat) (roundTrips : List Nat)
  /-- TT_SHADOW_DATA_WRITE (R307). A write of TT_SHADOW_DATA stores a shadow word and increments the shadow address, or is ignored while armed. -/
  | ttShadowDataWrite (q : Nat) (v : Word)
  /-- PREPARATION_DONE (R351). Preparation of the next launch-queue entry completes its checks and state, or faults it before start. -/
  | preparationDone (e : Nat)
  /-- RECIPE_START (R342). At the first frame boundary after an entry reaches the head, its recipe or VERIFY routine starts at cycle 0. -/
  | recipeStart (e : Nat)
  /-- LD (R328). The LD op reads a beat through an address generator into a V register. -/
  | hLd (e : Nat) (stop : Bool) (vd : BitVec 5) (ag : BitVec 3)
  /-- HAMPER_LOAD_LANDS (R336). A loaded beat lands in its V register 64 cycles after the LD. -/
  | hamperLoadLands (e : Nat)
  /-- ST (R329). The ST op writes a V or P beat through an address generator. -/
  | hSt (e : Nat) (stop : Bool) (srcP : Bool) (reg : BitVec 5) (ag : BitVec 3)
  /-- STA (R329). The STA op sends an ACCUMULATE beat with a coefficient into the engine's path queue. -/
  | hSta (e : Nat) (stop : Bool) (srcP : Bool) (reg : BitVec 5) (ag : BitVec 3) (last : Bool) (row : BitVec 4) (col : BitVec 7)
  /-- MAC (R330). The GF MAC op multiplies a V register by coefficients into parity accumulators. -/
  | hMac (e : Nat) (stop : Bool) (pbase np1 : BitVec 4) (vs : BitVec 5) (col : BitVec 7) (lcc clr : Bool)
  /-- GF_OUT (R330). The GF OUT op copies a parity accumulator into a V register. -/
  | hGfOut (e : Nat) (stop : Bool) (ps : BitVec 4) (vd : BitVec 5)
  /-- CLD (R330). The GF CLD op loads a coefficient row from a V register. -/
  | hCld (e : Nat) (stop : Bool) (row : BitVec 4) (vs : BitVec 5) (half : Bool)
  /-- HS_INIT (R331). The HS INIT op initialises a hash lane. -/
  | hHsInit (e : Nat) (stop : Bool) (h : BitVec 2)
  /-- UPD (R331). The HS UPD op absorbs 64 bytes into a lane's selected functions. -/
  | hUpd (e : Nat) (stop : Bool) (h : BitVec 2) (vs : BitVec 5) (sel : BitVec 2)
  /-- UPDN (R331). The HS UPDN op absorbs the first N bytes of a V register. -/
  | hUpdn (e : Nat) (stop : Bool) (h : BitVec 2) (vs : BitVec 5) (sel : BitVec 2) (n1 : BitVec 6)
  /-- FIN (R331). The HS FIN op writes a finalised SHA-256 or CRC-64 digest into a V register. -/
  | hFin (e : Nat) (stop : Bool) (h : BitVec 2) (vd : BitVec 5) (crc : Bool) (off : BitVec 3)
  /-- HS_SAVE (R331). The HS SAVE op writes a lane's state into a V register. -/
  | hHsSave (e : Nat) (stop : Bool) (h : BitVec 2) (vd : BitVec 5)
  /-- HS_REST (R331). The HS REST op restores a lane's state from a V register. -/
  | hHsRest (e : Nat) (stop : Bool) (h : BitVec 2) (vs : BitVec 5)
  /-- CR_INIT (R332). The CR INIT op starts a GCM operation with an IV from object ID and shard index. -/
  | hCrInit (e : Nat) (stop : Bool) (k : BitVec 2) (vs : BitVec 5)
  /-- ENC (R332). The CR ENC op encrypts a beat continuing the context's keystream. -/
  | hEnc (e : Nat) (stop : Bool) (k : BitVec 2) (vd vs : BitVec 5)
  /-- DEC (R332). The CR DEC op decrypts a beat. -/
  | hDec (e : Nat) (stop : Bool) (k : BitVec 2) (vd vs : BitVec 5)
  /-- CR_TAG (R332). The CR TAG op writes the GCM tag of the context into a V register. -/
  | hCrTag (e : Nat) (stop : Bool) (k : BitVec 2) (vd : BitVec 5) (off : BitVec 3)
  /-- CR_SAVE (R332). The CR SAVE op writes a context's state into a V register and seals it. -/
  | hCrSave (e : Nat) (stop : Bool) (k : BitVec 2) (vd : BitVec 5)
  /-- CR_REST (R333). The CR REST op restores a context from a sealed register, or faults KEY-INVALID. -/
  | hCrRest (e : Nat) (stop : Bool) (k : BitVec 2) (vs : BitVec 5)
  /-- AL_XOR (R334). The AL XOR op forms the bytewise XOR of two V registers. -/
  | hAlXor (e : Nat) (stop : Bool) (vd va vb : BitVec 5)
  /-- AL_AND (R334). The AL AND op forms the bytewise AND of two V registers. -/
  | hAlAnd (e : Nat) (stop : Bool) (vd va vb : BitVec 5)
  /-- AL_OR (R334). The AL OR op forms the bytewise OR of two V registers. -/
  | hAlOr (e : Nat) (stop : Bool) (vd va vb : BitVec 5)
  /-- AL_MOV (R334). The AL MOV op copies a V register. -/
  | hAlMov (e : Nat) (stop : Bool) (vd va : BitVec 5)
  /-- ZERO (R334). The AL ZERO op clears a V register and its poison. -/
  | hZero (e : Nat) (stop : Bool) (vd : BitVec 5)
  /-- INSLC (R334). The AL INSLC op inserts a loop counter into two bytes of a V register. -/
  | hInslc (e : Nat) (stop : Bool) (vd : BitVec 5) (off : BitVec 5) (l : Bool)
  /-- NEQ (R334). The AL NEQ op sets a RES bit when two V registers differ. -/
  | hNeq (e : Nat) (stop : Bool) (bit : BitVec 6) (va vb : BitVec 5)
  /-- PTEST (R334). The AL PTEST op sets a RES bit when a V register is poisoned. -/
  | hPtest (e : Nat) (stop : Bool) (bit : BitVec 6) (va : BitVec 5)
  /-- CT_NOP (R334). The CT NOP op does nothing. -/
  | hCtNop (e : Nat) (stop : Bool)
  /-- LOOP (R339). The CT LOOP op starts a hardware loop at a level with a count from the table. -/
  | hLoop (e : Nat) (stop : Bool) (level : Bool) (csel : BitVec 3) (endAddr : BitVec 12)
  /-- CT_IDLE (R334). The CT IDLE op issues no bundle for N cycles. -/
  | hCtIdle (e : Nat) (stop : Bool) (n1 : BitVec 12)
  /-- AGRST (R334). The CT AGRST op restores an address generator to its starting values. -/
  | hAgrst (e : Nat) (stop : Bool) (ag : BitVec 3)
  /-- CT_END (R334). The CT END op stops bundle issue so the recipe can end. -/
  | hCtEnd (e : Nat) (stop : Bool)
  /-- RECIPE_END (R343). After END every issued op has taken effect; the leg ends OK with RES and the engine goes to the next launch. -/
  | recipeEnd (e : Nat)
  /-- RUN_LIMIT (R343). A recipe still running 2^30 quarter cycles after its start faults RUN-LIMIT. -/
  | runLimit (e : Nat)
  /-- STACK_SR_ENTRY_TIMER (R417). A quarter's stack has been unused for ENTRY_MS and enters ENTERING, with tables of open cells armed. -/
  | stackSrEntryTimer (q : Nat)
  /-- SR_EXIT_COMPLETE (R418). Self-refresh exit completes after 2 superframes and full tables are armed. -/
  | srExitComplete (q : Nat)
  /-- DMA_GO_WRITE (R424). Writing DMA_GO is one trigger that starts a run or becomes pending. -/
  | dmaGoWrite (ch : Nat) (v : Word)
  /-- DMA_CTL_WRITE (R422). A write to DMA_CTL sets trigger source, interrupt and arming; clearing EN discards pending triggers. -/
  | dmaCtlWrite (ch : Nat) (v : Word)
  /-- DMA_TIMER_CTL_WRITE (R429). A write to a DMA timer's control starts its period or is refused with PERIOD 0. -/
  | dmaTimerCtlWrite (n : Nat) (v : Word)
  /-- DMA_TIMER_FIRE (R429). A DMA timer's period passes and every channel selecting it is triggered. -/
  | dmaTimerFire (n : Nat)
  /-- DMA_RUN_START (R425). A run's hand-over cycle takes an armed shadow set and executes the active descriptor chain. -/
  | dmaRunStart (ch : Nat)
  /-- DMA_RUN_END (R428). A run ends with its status and residual, sets DONE, and triggers following channels or the next pending run. -/
  | dmaRunEnd (ch : Nat)
  /-- BLOCK_MOVE_DONE (R474). A posted block move ends, setting its DONE bit and POISON or ERR as found. -/
  | blockMoveDone (k c : Nat) (parity : Bool)
  /-- STAKE_ACQUIRE_READ (R502). A read of STK_ACQ suspends the context and requests the selected stake. -/
  | stakeAcquireRead (k : Nat)
  /-- STAKE_PEEK_READ (R502). A read of STK_PEEK suspends the context and returns the stake's owner and STALE. -/
  | stakePeekRead (k : Nat)
  /-- STAKE_RELEASE_WRITE (R505). A write of STK_REL releases a stake the writer owns once its earlier block moves and I/O writes have taken effect. -/
  | stakeReleaseWrite (k : Nat)
  /-- STAKE_BANK_CYCLE (R503). A stake bank applies releases then acquisitions in ascending requester ID and answers suspended readers. -/
  | stakeBankCycle (bank : Nat)
  /-- FB_READ (R509). A 64-bit read of FB_READ returns the next field-book word, discarding unframed words and reporting torn or poisoned packets. -/
  | fbRead (p : Nat) (parityBad : Bool)
  /-- FB_RD0_READ (R510). A system-controller read of FB_RD0 proceeds as a field-book read and latches the upper bits. -/
  | fbRd0Read (parityBad : Bool)
  /-- FB_CLEAR (R510). A write of FB_CLEAR empties the book and returns the reader to a packet start. -/
  | fbClear (by_ : Sender) (v : BitVec 32)
  /-- COUNTER_LOW_HALF_READ (R601). A 32-bit read of the low half of DEV_MS or DEV_ECC_CORRq latches the high half of the same moment. -/
  | counterLowHalfRead (p : Nat) (ecc : Option Nat)
  /-- SYS_CYCLE_LO_READ (R471). A read of SYS_CYCLE_LO or SYS_MISPRED_LO captures the upper bits for its HI register. -/
  | sysCycleLoRead (k : Nat) (mispred : Bool)
  /-- SYS_IDATA_ACCESS (R471). An access to SYS_IDATA reads or writes the addressed I-space word and increments SYS_IADDR. -/
  | sysIdataAccess (k : Nat) (write : Option Word)
  /-- SYS_WAKE_WRITE (R491). A write of SYS_WAKE ends the IDLE suspension of the named context. -/
  | sysWakeWrite (k : Nat) (v : Word)
  /-- INTERRUPT (R491). An enabled interrupt source is taken by SYS_IRQ_CTX at an instruction boundary with exception entry. -/
  | interrupt (k : Nat)
  /-- WATCHDOG (R491). A context's watchdog reaches 0 and WATCHDOG is raised at its next user-mode instruction. -/
  | watchdog (k : Nat)
  /-- IOWAIT_RESUME (R475). The port condition of a suspended IOWAIT holds and the context resumes. -/
  | iowaitResume (k c : Nat)
  /-- SA_MOV (R443). Short MOV copies one workspace register to another. -/
  | sSaMov (k : Nat) (d s : BitVec 6)
  /-- SA_ADD (R443). Short ADD adds two workspace registers. -/
  | sSaAdd (k : Nat) (d s : BitVec 6)
  /-- SA_SUB (R443). Short SUB subtracts two workspace registers. -/
  | sSaSub (k : Nat) (d s : BitVec 6)
  /-- SA_AND (R443). Short AND combines two workspace registers. -/
  | sSaAnd (k : Nat) (d s : BitVec 6)
  /-- SA_OR (R443). Short OR combines two workspace registers. -/
  | sSaOr (k : Nat) (d s : BitVec 6)
  /-- SA_XOR (R443). Short XOR combines two workspace registers. -/
  | sSaXor (k : Nat) (d s : BitVec 6)
  /-- SA_CMP (R443). Short CMP sets flags from the difference of two workspace registers. -/
  | sSaCmp (k : Nat) (d s : BitVec 6)
  /-- SB (R444). The short conditional branch jumps by a signed displacement, with one delay slot. -/
  | sSb (k : Nat) (cond : BitVec 4) (annul : Bool) (disp : BitVec 7)
  /-- ADD (R450). ADD writes a plus b. -/
  | sAdd (k : Nat) (d a b : BitVec 8)
  /-- ADC (R450). ADC writes a plus b plus carry with sticky Z. -/
  | sAdc (k : Nat) (d a b : BitVec 8)
  /-- SUB (R450). SUB writes a minus b. -/
  | sSub (k : Nat) (d a b : BitVec 8)
  /-- SBC (R450). SBC writes a minus b with borrow and sticky Z. -/
  | sSbc (k : Nat) (d a b : BitVec 8)
  /-- AND (R450). AND writes a AND b. -/
  | sAnd (k : Nat) (d a b : BitVec 8)
  /-- OR (R450). OR writes a OR b. -/
  | sOr (k : Nat) (d a b : BitVec 8)
  /-- XOR (R450). XOR writes a XOR b. -/
  | sXor (k : Nat) (d a b : BitVec 8)
  /-- BIC (R450). BIC writes a AND NOT b. -/
  | sBic (k : Nat) (d a b : BitVec 8)
  /-- SHL (R450). SHL shifts left by b[3:0]. -/
  | sShl (k : Nat) (d a b : BitVec 8)
  /-- SHR (R450). SHR shifts right logically by b[3:0]. -/
  | sShr (k : Nat) (d a b : BitVec 8)
  /-- SAR (R450). SAR shifts right arithmetically by b[3:0]. -/
  | sSar (k : Nat) (d a b : BitVec 8)
  /-- MOV (R450). Long MOV copies a source operand to a destination. -/
  | sMov (k : Nat) (d a : BitVec 8)
  /-- MUL (R450). MUL writes the low 16 bits of an unsigned product. -/
  | sMul (k : Nat) (d a b : BitVec 8)
  /-- MULH (R450). MULH writes the high 16 bits of an unsigned product. -/
  | sMulh (k : Nat) (d a b : BitVec 8)
  /-- CMP (R450). CMP sets flags of a minus b. -/
  | sCmp (k : Nat) (a b : BitVec 8)
  /-- TST (R450). TST sets flags of a AND b. -/
  | sTst (k : Nat) (a b : BitVec 8)
  /-- DADD (R466). DADD adds two packed-decimal words. -/
  | sDadd (k : Nat) (d a b : BitVec 8)
  /-- DADC (R466). DADC adds two packed-decimal words with carry. -/
  | sDadc (k : Nat) (d a b : BitVec 8)
  /-- DSUB (R466). DSUB subtracts two packed-decimal words. -/
  | sDsub (k : Nat) (d a b : BitVec 8)
  /-- DSBC (R466). DSBC subtracts two packed-decimal words with borrow. -/
  | sDsbc (k : Nat) (d a b : BitVec 8)
  /-- DADJ (R467). DADJ normalises a word of nibbles into packed decimal. -/
  | sDadj (k : Nat) (d a : BitVec 8)
  /-- DCMP (R466). DCMP sets flags of a decimal subtraction. -/
  | sDcmp (k : Nat) (a b : BitVec 8)
  /-- DSHL (R468). DSHL shifts a packed-decimal word one digit left, funnelling in a digit. -/
  | sDshl (k : Nat) (d a b : BitVec 8)
  /-- DMD (R469). DMD multiplies by a digit and accumulates with a carry digit. -/
  | sDmd (k : Nat) (d a : BitVec 8) (n : BitVec 6)
  /-- CVBD (R470). CVBD converts binary to packed decimal with a high digit. -/
  | sCvbd (k : Nat) (d a : BitVec 8) (n : BitVec 6)
  /-- CVDB (R470). CVDB converts packed decimal to binary. -/
  | sCvdb (k : Nat) (d a : BitVec 8)
  /-- MOVI (R450). MOVI writes an immediate. -/
  | sMovi (k : Nat) (d : BitVec 8) (imm : Word)
  /-- ADDI (R450). ADDI adds an immediate. -/
  | sAddi (k : Nat) (d : BitVec 8) (imm : Word)
  /-- SUBI (R450). SUBI subtracts an immediate. -/
  | sSubi (k : Nat) (d : BitVec 8) (imm : Word)
  /-- ANDI (R450). ANDI ANDs an immediate. -/
  | sAndi (k : Nat) (d : BitVec 8) (imm : Word)
  /-- ORI (R450). ORI ORs an immediate. -/
  | sOri (k : Nat) (d : BitVec 8) (imm : Word)
  /-- XORI (R450). XORI XORs an immediate. -/
  | sXori (k : Nat) (d : BitVec 8) (imm : Word)
  /-- CMPI (R450). CMPI sets flags of an operand minus an immediate. -/
  | sCmpi (k : Nat) (d : BitVec 8) (imm : Word)
  /-- TSTI (R450). TSTI sets flags of an operand AND an immediate. -/
  | sTsti (k : Nat) (d : BitVec 8) (imm : Word)
  /-- B (R455). B branches to an absolute or register target, with one delay slot. -/
  | sB (k : Nat) (cond : BitVec 4) (annul : Bool) (t : BranchTarget)
  /-- CALL (R456). CALL branches and links LR to the instruction after the delay slot. -/
  | sCall (k : Nat) (cond : BitVec 4) (annul : Bool) (t : BranchTarget)
  /-- RET (R456). RET branches to LR. -/
  | sRet (k : Nat)
  /-- BR (R450). BR branches by a displacement, with one delay slot. -/
  | sBr (k : Nat) (cond : BitVec 4) (annul : Bool) (disp : Word)
  /-- CALLR (R450). CALLR branches by a displacement and links. -/
  | sCallr (k : Nat) (cond : BitVec 4) (annul : Bool) (disp : Word)
  /-- RPT (R461). RPT captures a count and repeats the next instruction that many times. -/
  | sRpt (k : Nat) (d : BitVec 8) (imm : Word)
  /-- IN (R450). IN reads an I/O port. -/
  | sIn (k : Nat) (d : BitVec 8) (port : BitVec 12)
  /-- OUT (R450). OUT writes an I/O port. -/
  | sOut (k : Nat) (s : BitVec 8) (port : BitVec 12)
  /-- INX (R450). INX reads the I/O port addressed by a register. -/
  | sInx (k : Nat) (d : BitVec 8) (n : BitVec 6)
  /-- OUTX (R450). OUTX writes the I/O port addressed by a register. -/
  | sOutx (k : Nat) (s : BitVec 8) (n : BitVec 6)
  /-- IOWAIT (R475). IOWAIT suspends the context until masked bits of a port are nonzero. -/
  | sIowait (k : Nat) (s : BitVec 8) (port : BitVec 12)
  /-- BMOV (R473). BMOV posts a block move between a staging window and buffer memory, or is refused. -/
  | sBmov (k : Nat) (n : BitVec 6)
  /-- GATE (R483). GATE checks and records the caller and enters a supervisor gate with copied arguments. -/
  | sGate (k : Nat) (n : BitVec 6)
  /-- GRET (R484). GRET returns from a gate, restoring the recorded workspace, IE and privilege. -/
  | sGret (k : Nat)
  /-- TRAP (R450). TRAP raises a TRAP exception with a code. -/
  | sTrap (k : Nat) (code : BitVec 8)
  /-- RFE (R487). RFE returns from an exception, restoring state at no higher privilege. -/
  | sRfe (k : Nat)
  /-- MFSW (R450). MFSW reads the status word. -/
  | sMfsw (k : Nat) (d : BitVec 8)
  /-- MTSW (R460). MTSW writes the status word, effective two cycles later. -/
  | sMtsw (k : Nat) (d : BitVec 8)
  /-- MFLR (R450). MFLR reads LR. -/
  | sMflr (k : Nat) (d : BitVec 8)
  /-- MTLR (R450). MTLR writes LR. -/
  | sMtlr (k : Nat) (d : BitVec 8)
  /-- SWAP (R479). SWAP yields the core to the next runnable context. -/
  | sSwap (k : Nat)
  /-- IDLE (R450). IDLE suspends the context until an interrupt or SYS_WAKE. -/
  | sIdle (k : Nat)
  /-- SYNC (R450). SYNC makes every earlier write take effect before the next issue. -/
  | sSync (k : Nat)
  /-- MFWP (R450). MFWP reads WP. -/
  | sMfwp (k : Nat) (d : BitVec 8)
  /-- MTWP (R450). MTWP writes WP with its low bits cleared. -/
  | sMtwp (k : Nat) (d : BitVec 8)
  /-- RESERVED_ENCODING (R451). A reserved encoding traps RESERVED-OPCODE for emulation by the handler. -/
  | reservedEncoding (k : Nat) (w1 w2 : Word)
  /-- TAP_SAMPLE (R519). Every Monument cycle the payload taps are sampled and 64 bytes per step added to the meters. -/
  | tapSample (cycles : Nat)
  /-- MAIN_DOMAIN_VALID_RISE (R520). The main-domain valid tap rises and the payload taps are rebaselined. -/
  | mainDomainValidRise (cycles : Nat)
  /-- SHELF_TIME_SAMPLE (R521). Every 1 ms the Monument samples shelf enables and power-good and counts power-on time. -/
  | shelfTimeSample (pg : BitVec 48)
  /-- S0_SAMPLE (R522). Every 1 ms each energy input is sampled and a qualified pulse counted, or OVERRATE or STUCK recorded. -/
  | s0Sample (c : Nat) (high : Bool)
  /-- TEST_PULSE_EMIT (R539). A queued test pulse is emitted, at least 2 ms after the previous one. -/
  | testPulseEmit
  /-- READ_REQUEST (R515). A READ-REQUEST through MON-IN takes a reading, at most one per second. -/
  | readRequest
  /-- PERIODIC_READING (R525). Every PERIOD seconds the Monument freezes all counters into a signed reading. -/
  | periodicReading
  /-- MON_OUT_SEGMENT (R528). The Monument posts the next reading segment once MON-OUT is empty; after segment 15 firmware writes the view. -/
  | monOutSegment
  /-- MON_DOWN (R529). No reading has arrived for 3 times PERIOD and MON_DOWN sets. -/
  | monDown
  /-- CHECKPOINT_TIMER (R531). Every 10 minutes a checkpoint reading is written to the flash ring. -/
  | checkpointTimer
  /-- POWER_FAIL_SIGNAL (R531). MON_VDD33 falls below the threshold and a power-fail checkpoint is written. -/
  | powerFailSignal
  /-- MONUMENT_POWER_ON (R531). At Monument power-on counters load from the newest valid checkpoint and POWER-UP is logged. -/
  | monumentPowerOn
  /-- MON_RST_N (R518). MON_RST_N resets the Monument core, UART, SPI and samplers, keeping counters. -/
  | monRstN
  /-- MONUMENT_CORE_RESTART (R533). A DOUBLE or watchdog restarts the Monument core from mask ROM and CORE-RESTART is logged. -/
  | monumentCoreRestart (double : Bool)
  /-- MON_TAMPER_N (R541). The first assertion of MON_TAMPER_N latches TAMPER and logs it. -/
  | monTamperN
  /-- MONUMENT_CRYSTAL_STOP (R588). The Monument crystal stops and counting and reading cease until it runs again. -/
  | monumentCrystalStop
  /-- MON_ID (R538). The verification command ID prints identity, stepping, seal state and fingerprint. -/
  | monId
  /-- MON_READ (R538). The verification command READ takes a reading and prints it. -/
  | monRead
  /-- MON_LAST (R538). The verification command LAST prints the latest reading. -/
  | monLast
  /-- MON_PARAM (R538). The verification command PARAM prints every parameter. -/
  | monParam
  /-- MON_SET (R535). The verification command SET changes a parameter, logged and enabled by jumper after sealing. -/
  | monSet (n : Nat) (v : ParamValue) (pins : SetPins)
  /-- MON_LOG (R538). The verification command LOG prints a log record and whether its chain verifies. -/
  | monLog (i : Nat)
  /-- MON_KEY (R538). The verification command KEY prints the public key. -/
  | monKey
  /-- MON_SEAL (R536). The verification command SEAL generates the key, zeroes counters, writes the seal header and blows the sealing fuse. -/
  | monSeal (dsn : BitVec 64) (paramEn : Bool) (flashOk : Bool)
  /-- MON_TEST (R538). The verification command TEST selects a counter for the test pulse, or OFF stops it. -/
  | monTest (m : Option Nat)
  /-- MON_TAMPER_CLEAR (R541). The verification command TAMPER CLEAR clears the tamper latch and logs it. -/
  | monTamperClear (paramEn : Bool)
  /-- MON_SYNTAX_ERROR (R538). A malformed or unknown verification command line is answered ERR SYNTAX. -/
  | monSyntaxError
  /-- CX_RST_N_ASSERT (R548). Assertion of CX_RST_N cold-resets the main domain. -/
  | cxRstNAssert
  /-- CX_RST_N_DEASSERT (R554). Deassertion of CX_RST_N samples straps and starts the boot timeline. -/
  | cxRstNDeassert (adminSel : BitVec 4) (smbAddr : BitVec 2) (bootRcvy : Bool)
  /-- BOOT_STAGE (R554). A stage of the boot timeline completes, from PLL lock through HBM training, image check and table swap to READY. -/
  | bootStage (r : BootReport)
  /-- CONTAINMENT_DISCARD (R559). Once every engine has acknowledged, each live traverse in scope is discarded and its commands orphaned. -/
  | containmentDiscard (sc : Option Nat)
  /-- CONTAINMENT_RESET (R548). When discarding is done, port resets and engine island resets are applied. -/
  | containmentReset (sc : Option Nat) (rebuilt : Bool)
  /-- CONTAINMENT_END (R558). Accumulators are tainted, the epoch advances, CONTAIN clears and FAULT NOTICEs are queued. -/
  | containmentEnd (sc : Option Nat)
  /-- ENGINE_SILENT (R557). A channel engine sends no heartbeat for 10 ms and a device-scope containment starts. -/
  | engineSilent (e : Nat)
  /-- CONTROL_SRAM_ERROR (R557). An uncorrectable error in a control SRAM starts a device-scope containment. -/
  | controlSramError
  /-- LOCKSTEP_MISMATCH (R557). The system controller's lockstepped cores disagree, or it suffers a DOUBLE, and the device restarts. -/
  | lockstepMismatch
  /-- MAIN_RAILS_VALID (R584). Every main rail has been in tolerance for 1 ms and the main-domain valid tap rises. -/
  | mainRailsValid
  /-- MAIN_RAIL_FAULT (R584). A main rail is out of tolerance for 2 µs; the valid tap falls and main-domain state is lost. -/
  | mainRailFault
  /-- DEV_REFCLK_LOSS (R588). DEV_REFCLK is absent for more than 10 µs or a quarter PLL unlocks and the device restarts. -/
  | devRefclkLoss
  /-- SAS_REFCLK_LOSS (R588). SAS_REFCLK is absent for more than 10 µs and every wide port goes down. -/
  | sasRefclkLoss
  /-- PCIE_REFCLK_LOSS (R588). A port's PCIe reference clock fails, and its link goes down. -/
  | pcieRefclkLoss (p : Nat)
  /-- SENSOR_UPDATE (R595). Every 100 ms the temperature sensors are updated against their thresholds. -/
  | sensorUpdate (temps : List Int)
  /-- ISLAND_GATING (R38). A party engine group with no bound subchannel and no open outing on its chain, or a SAS port whose chain is dark with no SMP work, is power-gated. -/
  | islandGating (i : GateIsland)
  /-- SPIN_START_TIMEOUT (R207). A drive selected by a SPIN START leg has not been ready within 60 s of its START, giving it its outcome so the leg can end SPINUP-TIMEOUT. -/
  | spinStartTimeout (p tag slot : Nat)
  /-- DEV_REFCLK_RETURN (R588). DEV_REFCLK returns after a loss and, once present for 1 ms, the waiting device restart proceeds past its first boot row. -/
  | devRefclkReturn
  /-- SAS_REFCLK_RETURN (R588). SAS_REFCLK returns after a loss and the wide ports train again. -/
  | sasRefclkReturn
  /-- MONUMENT_CRYSTAL_RESTART (R588). The Monument crystal runs again after stopping and counting and readings resume. -/
  | monumentCrystalRestart
  deriving DecidableEq, Repr

end Sys2Proof
end

