-- ==== Sys2Proof/WellFormed.lean ====
section
/-! DEFINITION. Which commands are well formed: every number a command names lies in the range the manual gives it
(R21 to R23, R61, R81, R248, R420, R433, R493). -/

namespace Sys2Proof

/-- A register sender exists: eight host ports, 50 cores of 32 contexts (R23, R433). -/
def Sender.wf : Sender → Bool
  | .port p => decide (p < 8)
  | .core k c => decide (k < 50) && decide (c < 32)

/-- A BIND names a live tag's port or a channel engine (R21). -/
def BindWho.wf : BindWho → Bool
  | .traverse p tag => decide (p < 8) && decide (tag < 65536)
  | .engine e => decide (e < 48)

/-- A management path exists (R72). -/
def MctpPath.wf : MctpPath → Bool
  | .smbus _ => true
  | .vdm p => decide (p < 8)
  | .secure => true

/-- A Kilvor command's path exists (R72). -/
def KilvorSrc.wf : KilvorSrc → Bool
  | .mctp path _ => path.wf
  | .service => true

/-- A gated island exists (R24, R38). -/
def GateIsland.wf : GateIsland → Bool
  | .engines party => decide (party < 12)
  | .sasPort c => decide (c < 12)

/-- The numbers of a command are in range. -/
def Instr.wf : Instr → Bool
  | .registerWrite by_ _ width _ => Sender.wf by_ && (width == 2 || width == 4 || width == 8)
  | .reservedOffsetAccess p bar _ _ _ => decide (p < 8) && (bar == 0 || bar == 2)
  | .configRequest p _ dword _ => decide (p < 8) && decide (dword < 1024)
  | .perstNDeassert slot _ => decide (slot < 8)
  | .perstNAssert slot => decide (slot < 8)
  | .flr p => decide (p < 8)
  | .d3hotEntry p => decide (p < 8)
  | .d3hotToD0 p => decide (p < 8)
  | .dlDown p => decide (p < 8)
  | .pcieLinkUp p => decide (p < 8)
  | .uncorrectableFatalError p => decide (p < 8)
  | .hostReadCompletion p _ _ => decide (p < 8)
  | .hostReadTimeout p _ => decide (p < 8)
  | .bar4Access p _ _ _ => decide (p < 8)
  | .sqDoorbell p q => decide (p < 8) && decide (q < 256)
  | .cqHeadDoorbell p q _ => decide (p < 8) && decide (q < 256)
  | .sqEnable p q _ => decide (p < 8) && decide (q < 256)
  | .sqDisable p q _ => decide (p < 8) && decide (q < 256)
  | .cqEnable p q _ => decide (p < 8) && decide (q < 256)
  | .cqDisable p q _ => decide (p < 8) && decide (q < 256)
  | .sqInvWrite p q _ => decide (p < 8) && decide (q < 256)
  | .sqInvalidation p q => decide (p < 8) && decide (q < 256)
  | .cqVecCoalWrite p q _ => decide (p < 8) && decide (q < 256)
  | .scanTurn p => decide (p < 8)
  | .startEntry p => decide (p < 8)
  | .resumeEntry p => decide (p < 8)
  | .nopEntry p => decide (p < 8)
  | .noteRequest p => decide (p < 8)
  | .admission => true
  | .bind w => BindWho.wf w
  | .stationStart p tag => decide (p < 8) && decide (tag < 65536)
  | .legIssue p tag => decide (p < 8) && decide (tag < 65536)
  | .legIssueExt p tag => decide (p < 8) && decide (tag < 65536)
  | .legTask p tag => decide (p < 8) && decide (tag < 65536)
  | .legEnclosure p tag => decide (p < 8) && decide (tag < 65536)
  | .legStageIn p tag => decide (p < 8) && decide (tag < 65536)
  | .legStageOut p tag => decide (p < 8) && decide (tag < 65536)
  | .legCopy p tag => decide (p < 8) && decide (tag < 65536)
  | .legRecipe p tag => decide (p < 8) && decide (tag < 65536)
  | .legFlushSpan p tag => decide (p < 8) && decide (tag < 65536)
  | .legVerify p tag => decide (p < 8) && decide (tag < 65536)
  | .legGather p tag => decide (p < 8) && decide (tag < 65536)
  | .legBook p tag => decide (p < 8) && decide (tag < 65536)
  | .legRelease p tag => decide (p < 8) && decide (tag < 65536)
  | .legSpin p tag => decide (p < 8) && decide (tag < 65536)
  | .legGoto p tag => decide (p < 8) && decide (tag < 65536)
  | .legTest p tag => decide (p < 8) && decide (tag < 65536)
  | .legWait p tag => decide (p < 8) && decide (tag < 65536)
  | .legNote p tag => decide (p < 8) && decide (tag < 65536)
  | .legPause p tag => decide (p < 8) && decide (tag < 65536)
  | .legExec p tag => decide (p < 8) && decide (tag < 65536)
  | .legEnd p tag => decide (p < 8) && decide (tag < 65536)
  | .responseParkExpiry p tag => decide (p < 8) && decide (tag < 65536)
  | .deadlineExpiry p tag => decide (p < 8) && decide (tag < 65536)
  | .waitDeadlineExpiry p tag => decide (p < 8) && decide (tag < 65536)
  | .pauseExpiry p tag => decide (p < 8) && decide (tag < 65536)
  | .completionReadback p tag _ => decide (p < 8) && decide (tag < 65536)
  | .collectorRelease _ => true
  | .completionPost p => decide (p < 8)
  | .coalesceTimerExpiry p v => decide (p < 8) && decide (v < 256)
  | .msixPendingSend p v => decide (p < 8) && decide (v < 257)
  | .mctpControl path _ => MctpPath.wf path
  | .pldmMonitoring path _ _ => MctpPath.wf path
  | .pldmFirmwareUpdate path _ => MctpPath.wf path
  | .getApportionment src => KilvorSrc.wf src
  | .stageGrant src => KilvorSrc.wf src
  | .commit src => KilvorSrc.wf src
  | .discard src => KilvorSrc.wf src
  | .setAdmin src => KilvorSrc.wf src
  | .kilvorUnknownCommand src => KilvorSrc.wf src
  | .setLevelOutingChoice src => KilvorSrc.wf src
  | .setLevelShelvesPerChain src => KilvorSrc.wf src
  | .setLevelSpinUp src => KilvorSrc.wf src
  | .setLevelLink src => KilvorSrc.wf src
  | .setLevelRecovery src => KilvorSrc.wf src
  | .setLevelTimetable src => KilvorSrc.wf src
  | .setLevelRecipes src => KilvorSrc.wf src
  | .setLevelStackPower src => KilvorSrc.wf src
  | .setLevelCopy src => KilvorSrc.wf src
  | .timetableBegin src => KilvorSrc.wf src
  | .timetableRows src => KilvorSrc.wf src
  | .timetableCommit src => KilvorSrc.wf src
  | .timetableAbort src => KilvorSrc.wf src
  | .recipeWrite src => KilvorSrc.wf src
  | .recipeCommit src => KilvorSrc.wf src
  | .recipeErase src => KilvorSrc.wf src
  | .keyLoad src => KilvorSrc.wf src
  | .keyGenerate src => KilvorSrc.wf src
  | .keyErase src => KilvorSrc.wf src
  | .keyCheck src => KilvorSrc.wf src
  | .keystoreSealDone => true
  | .mbReqPost p m _ => decide (p < 8) && decide (m < 5)
  | .mbRplRel p m _ => decide (p < 8) && decide (m < 5)
  | .mbWakeWord0Write by_ inst _ => Sender.wf by_ && decide (inst < 356)
  | .mbPost k inst _ => decide (k < 50) && decide (inst < 356)
  | .mbRel k inst _ => decide (k < 50) && decide (inst < 356)
  | .mailboxRequestTake inst => decide (inst < 164)
  | .shelfParam => true
  | .shelfQuery => true
  | .shelfRestore => true
  | .chainQuery => true
  | .accumArm => true
  | .accumDisarm => true
  | .extAlloc => true
  | .extFree => true
  | .extQuery => true
  | .sspResponseFrame c tag _ _ => decide (c < 12) && decide (tag < 65536)
  | .taskResponse c tag _ => decide (c < 12) && decide (tag < 65536)
  | .xferRdy c tag _ _ => decide (c < 12) && decide (tag < 65536)
  | .dataFrameReceive l tag _ _ => decide (l.chain < 12) && decide (l.lane < 4) && decide (tag < 65536)
  | .dataFrameSend l tag => decide (l.chain < 12) && decide (l.lane < 4) && decide (tag < 65536)
  | .commandFrameSend h => decide (h < 6144)
  | .taskSend h => decide (h < 6144)
  | .smpResponse c _ => decide (c < 12)
  | .openReject h tag _ => decide (h < 6144) && decide (tag < 65536)
  | .openBackoffExpiry h tag => decide (h < 6144) && decide (tag < 65536)
  | .connectionBreak c _ => decide (c < 12)
  | .commandTimeout c tag => decide (c < 12) && decide (tag < 65536)
  | .tmfTimeout c tag => decide (c < 12) && decide (tag < 65536)
  | .busyRetryDelayExpiry c _ => decide (c < 12)
  | .nexusLossExpiry h => decide (h < 6144)
  | .broadcast c lane _ => decide (c < 12) && decide (lane < 4)
  | .rediscoveryStart c => decide (c < 12)
  | .laneUp c lane _ => decide (c < 12) && decide (lane < 4)
  | .dwordSyncLoss c lane => decide (c < 12) && decide (lane < 4)
  | .fecThreshold c lane => decide (c < 12) && decide (lane < 4)
  | .portResetAttempt c _ => decide (c < 12)
  | .discoveryTimeout c => decide (c < 12)
  | .slotDiscoveryComplete s => decide (s < 48)
  | .chainLinkResetApply c => decide (c < 12)
  | .plannerChoice c => decide (c < 12)
  | .shelfPgFilteredEdge s _ => decide (s < 48)
  | .shelfPgDebounceExpiry s => decide (s < 48)
  | .powerGoodTimeout s => decide (s < 48)
  | .spinUpStartTimeout s => decide (s < 48)
  | .spinUpStep s => decide (s < 48)
  | .testUnitReadyPoll s slot => decide (s < 48) && decide (slot < 96)
  | .spinUpTimeout s => decide (s < 48)
  | .lingerExpiry s => decide (s < 48)
  | .maxOpenExpiry s => decide (s < 48)
  | .ageLimitPassed s => decide (s < 48)
  | .openingWindowEnd s => decide (s < 48)
  | .drainLimitExpiry s => decide (s < 48)
  | .closingSequenceDone s => decide (s < 48)
  | .settlingTimeout s => decide (s < 48)
  | .holdoffExpiry s => decide (s < 48)
  | .timetableRow q _ _ _ => decide (q < 4)
  | .superframeBoundary q => decide (q < 4)
  | .seamEnd q => decide (q < 4)
  | .frameBeacon q _ => decide (q < 4)
  | .beaconMissing q => decide (q < 4)
  | .beaconAlignment q _ _ _ => decide (q < 4)
  | .ttShadowDataWrite q _ => decide (q < 4)
  | .preparationDone e => decide (e < 12)
  | .recipeStart e => decide (e < 12)
  | .hLd e _ _ _ => decide (e < 12)
  | .hamperLoadLands e => decide (e < 12)
  | .hSt e _ _ _ _ => decide (e < 12)
  | .hSta e _ _ _ _ _ _ _ => decide (e < 12)
  | .hMac e _ _ _ _ _ _ _ => decide (e < 12)
  | .hGfOut e _ _ _ => decide (e < 12)
  | .hCld e _ _ _ _ => decide (e < 12)
  | .hHsInit e _ _ => decide (e < 12)
  | .hUpd e _ _ _ _ => decide (e < 12)
  | .hUpdn e _ _ _ _ _ => decide (e < 12)
  | .hFin e _ _ _ _ _ => decide (e < 12)
  | .hHsSave e _ _ _ => decide (e < 12)
  | .hHsRest e _ _ _ => decide (e < 12)
  | .hCrInit e _ _ _ => decide (e < 12)
  | .hEnc e _ _ _ _ => decide (e < 12)
  | .hDec e _ _ _ _ => decide (e < 12)
  | .hCrTag e _ _ _ _ => decide (e < 12)
  | .hCrSave e _ _ _ => decide (e < 12)
  | .hCrRest e _ _ _ => decide (e < 12)
  | .hAlXor e _ _ _ _ => decide (e < 12)
  | .hAlAnd e _ _ _ _ => decide (e < 12)
  | .hAlOr e _ _ _ _ => decide (e < 12)
  | .hAlMov e _ _ _ => decide (e < 12)
  | .hZero e _ _ => decide (e < 12)
  | .hInslc e _ _ _ _ => decide (e < 12)
  | .hNeq e _ _ _ _ => decide (e < 12)
  | .hPtest e _ _ _ => decide (e < 12)
  | .hCtNop e _ => decide (e < 12)
  | .hLoop e _ _ _ _ => decide (e < 12)
  | .hCtIdle e _ _ => decide (e < 12)
  | .hAgrst e _ _ => decide (e < 12)
  | .hCtEnd e _ => decide (e < 12)
  | .recipeEnd e => decide (e < 12)
  | .runLimit e => decide (e < 12)
  | .stackSrEntryTimer q => decide (q < 4)
  | .srExitComplete q => decide (q < 4)
  | .dmaGoWrite ch _ => decide (ch < 32)
  | .dmaCtlWrite ch _ => decide (ch < 32)
  | .dmaTimerCtlWrite n _ => decide (n < 16)
  | .dmaTimerFire n => decide (n < 16)
  | .dmaRunStart ch => decide (ch < 32)
  | .dmaRunEnd ch => decide (ch < 32)
  | .blockMoveDone k c _ => decide (k < 50) && decide (c < 32)
  | .stakeAcquireRead k => decide (k < 50)
  | .stakePeekRead k => decide (k < 50)
  | .stakeReleaseWrite k => decide (k < 50)
  | .stakeBankCycle bank => decide (bank < 5)
  | .fbRead p _ => decide (p < 8)
  | .fbRd0Read _ => true
  | .fbClear by_ _ => Sender.wf by_
  | .counterLowHalfRead p ecc => decide (p < 8) && ecc.all (fun x => decide (x < 4))
  | .sysCycleLoRead k _ => decide (k < 50)
  | .sysIdataAccess k _ => decide (k < 50)
  | .sysWakeWrite k _ => decide (k < 50)
  | .interrupt k => decide (k < 50)
  | .watchdog k => decide (k < 50)
  | .iowaitResume k c => decide (k < 50) && decide (c < 32)
  | .sSaMov k _ _ => decide (k < 50)
  | .sSaAdd k _ _ => decide (k < 50)
  | .sSaSub k _ _ => decide (k < 50)
  | .sSaAnd k _ _ => decide (k < 50)
  | .sSaOr k _ _ => decide (k < 50)
  | .sSaXor k _ _ => decide (k < 50)
  | .sSaCmp k _ _ => decide (k < 50)
  | .sSb k _ _ _ => decide (k < 50)
  | .sAdd k _ _ _ => decide (k < 50)
  | .sAdc k _ _ _ => decide (k < 50)
  | .sSub k _ _ _ => decide (k < 50)
  | .sSbc k _ _ _ => decide (k < 50)
  | .sAnd k _ _ _ => decide (k < 50)
  | .sOr k _ _ _ => decide (k < 50)
  | .sXor k _ _ _ => decide (k < 50)
  | .sBic k _ _ _ => decide (k < 50)
  | .sShl k _ _ _ => decide (k < 50)
  | .sShr k _ _ _ => decide (k < 50)
  | .sSar k _ _ _ => decide (k < 50)
  | .sMov k _ _ => decide (k < 50)
  | .sMul k _ _ _ => decide (k < 50)
  | .sMulh k _ _ _ => decide (k < 50)
  | .sCmp k _ _ => decide (k < 50)
  | .sTst k _ _ => decide (k < 50)
  | .sDadd k _ _ _ => decide (k < 50)
  | .sDadc k _ _ _ => decide (k < 50)
  | .sDsub k _ _ _ => decide (k < 50)
  | .sDsbc k _ _ _ => decide (k < 50)
  | .sDadj k _ _ => decide (k < 50)
  | .sDcmp k _ _ => decide (k < 50)
  | .sDshl k _ _ _ => decide (k < 50)
  | .sDmd k _ _ _ => decide (k < 50)
  | .sCvbd k _ _ _ => decide (k < 50)
  | .sCvdb k _ _ => decide (k < 50)
  | .sMovi k _ _ => decide (k < 50)
  | .sAddi k _ _ => decide (k < 50)
  | .sSubi k _ _ => decide (k < 50)
  | .sAndi k _ _ => decide (k < 50)
  | .sOri k _ _ => decide (k < 50)
  | .sXori k _ _ => decide (k < 50)
  | .sCmpi k _ _ => decide (k < 50)
  | .sTsti k _ _ => decide (k < 50)
  | .sB k _ _ _ => decide (k < 50)
  | .sCall k _ _ _ => decide (k < 50)
  | .sRet k => decide (k < 50)
  | .sBr k _ _ _ => decide (k < 50)
  | .sCallr k _ _ _ => decide (k < 50)
  | .sRpt k _ _ => decide (k < 50)
  | .sIn k _ _ => decide (k < 50)
  | .sOut k _ _ => decide (k < 50)
  | .sInx k _ _ => decide (k < 50)
  | .sOutx k _ _ => decide (k < 50)
  | .sIowait k _ _ => decide (k < 50)
  | .sBmov k _ => decide (k < 50)
  | .sGate k _ => decide (k < 50)
  | .sGret k => decide (k < 50)
  | .sTrap k _ => decide (k < 50)
  | .sRfe k => decide (k < 50)
  | .sMfsw k _ => decide (k < 50)
  | .sMtsw k _ => decide (k < 50)
  | .sMflr k _ => decide (k < 50)
  | .sMtlr k _ => decide (k < 50)
  | .sSwap k => decide (k < 50)
  | .sIdle k => decide (k < 50)
  | .sSync k => decide (k < 50)
  | .sMfwp k _ => decide (k < 50)
  | .sMtwp k _ => decide (k < 50)
  | .reservedEncoding k _ _ => decide (k < 50)
  | .tapSample _ => true
  | .mainDomainValidRise _ => true
  | .shelfTimeSample _ => true
  | .s0Sample c _ => decide (c < 12)
  | .testPulseEmit => true
  | .readRequest => true
  | .periodicReading => true
  | .monOutSegment => true
  | .monDown => true
  | .checkpointTimer => true
  | .powerFailSignal => true
  | .monumentPowerOn => true
  | .monRstN => true
  | .monumentCoreRestart _ => true
  | .monTamperN => true
  | .monumentCrystalStop => true
  | .monId => true
  | .monRead => true
  | .monLast => true
  | .monParam => true
  | .monSet _ _ _ => true
  | .monLog _ => true
  | .monKey => true
  | .monSeal _ _ _ => true
  | .monTest m => m.all (fun x => decide (x < 112))
  | .monTamperClear _ => true
  | .monSyntaxError => true
  | .cxRstNAssert => true
  | .cxRstNDeassert _ _ _ => true
  | .bootStage _ => true
  | .containmentDiscard sc => sc.all (fun x => decide (x < 8))
  | .containmentReset sc _ => sc.all (fun x => decide (x < 8))
  | .containmentEnd sc => sc.all (fun x => decide (x < 8))
  | .engineSilent e => decide (e < 48)
  | .controlSramError => true
  | .lockstepMismatch => true
  | .mainRailsValid => true
  | .mainRailFault => true
  | .devRefclkLoss => true
  | .sasRefclkLoss => true
  | .pcieRefclkLoss p => decide (p < 8)
  | .sensorUpdate _ => true
  | .islandGating i => GateIsland.wf i
  | .spinStartTimeout p tag slot => decide (p < 8) && decide (tag < 65536) && decide (slot < 96)
  | .devRefclkReturn => true
  | .sasRefclkReturn => true
  | .monumentCrystalRestart => true

end Sys2Proof
end

