-- ==== Sys2Proof/Decode.lean ====
section
/-! DEFINITION. The decoder of the command table: no row of the table gives bits (the CX960 takes commands, not words),
so no word spells a command. Beside it the words of the Sehar instructions (R442 to R451), which are rows of the table. -/

namespace Sys2Proof

/-- The command a word spells by the table's bits: none, since no row gives any. -/
def decodeTableWord (_nbits _w : Nat) : Option Instr := none

/-! ### Sehar instruction words (R442 to R451) -/

/-- What an instruction's words say, by its form (R443, R445): SA with OP, SB, LA and LI with the major opcode, LB of
majors 0x30 and 0x31, LP with a port or a register number. -/
inductive SeharWord where
  | sa (op : BitVec 3) (d s : BitVec 6)
  | sb (cond : BitVec 4) (annul : Bool) (disp : BitVec 7)
  | la (major : BitVec 7) (d a b : BitVec 8)
  | li (major : BitVec 7) (d : BitVec 8) (imm : Word)
  | lb (link : Bool) (cond : BitVec 4) (annul : Bool) (t : BranchTarget)
  | br (link : Bool) (cond : BitVec 4) (annul : Bool) (disp : Word)
  | lp (major : BitVec 7) (d : BitVec 8) (w : BitVec 12)
  deriving DecidableEq, Repr

/-- A decoding that holds only where unused fields are 0 and fields lie in their ranges (R451). -/
def decodeIf (ok : Bool) (f : SeharWord) : Option SeharWord := if ok then some f else none

/-- The count of an RPT is reserved (R451, R461). -/
def rptReserved (d : BitVec 8) (imm : Word) : Bool :=
  if imm = 0 then 0x80 ≤ d.toNat else d ≠ 0 || 4096 < imm.toNat

/-- The short forms (R443, R444): OP in [14:12]; every word with bit 15 clear is an instruction. -/
def decodeShort (w : Word) : SeharWord :=
  if w.extractLsb' 12 3 = 7 then .sb (w.extractLsb' 8 4) (w.getLsbD 7) (w.extractLsb' 0 7)
  else .sa (w.extractLsb' 12 3) (w.extractLsb' 6 6) (w.extractLsb' 0 6)

/-- LA, majors 0x00 to 0x19: a spec that R450 marks as unused is 0x00; DMD and CVBD take B in mode 00 (R451). -/
def decodeLa (major : BitVec 7) (d a b : BitVec 8) : Option SeharWord :=
  decodeIf (major ≤ 0x19 && (b = 0 || !(major = 0x0B || major = 0x14 || major = 0x19)) &&
    (d = 0 || !(major = 0x0E || major = 0x0F || major = 0x15)) && (b.toNat < 64 || !(major = 0x17 || major = 0x18)))
    (.la major d a b)

/-- LI: the immediate instructions, RPT, and majors 0x50 to 0x5C with their unused fields 0 (R450, R451). -/
def decodeLi (major : BitVec 7) (d : BitVec 8) (imm : Word) : Option SeharWord :=
  decodeIf (
    if 0x20 ≤ major && major ≤ 0x27 then true
    else if major = 0x38 then !rptReserved d imm
    else if major = 0x50 then d = 0 && imm.toNat < 64
    else if major = 0x52 then d = 0 && imm.toNat < 256
    else if major = 0x51 || major = 0x53 || major = 0x58 || major = 0x59 || major = 0x5A then d = 0 && imm = 0
    else 0x54 ≤ major && major ≤ 0x5C && imm = 0) (.li major d imm)

/-- LB of major 0x30: COND in [7:4], ANNUL in [3], LINK in [2], KIND in [1:0] (R445, R451). -/
def decodeLb (f : BitVec 8) (w : Word) : Option SeharWord :=
  let lb := SeharWord.lb (f.getLsbD 2) (f.extractLsb' 4 4) (f.getLsbD 3)
  match (f.extractLsb' 0 2).toNat with
  | 0 => some (lb (.absolute w))
  | 1 => decodeIf (w.toNat < 64) (lb (.reg (w.setWidth 6)))
  | 2 => decodeIf (w = 0 && !f.getLsbD 2) (lb .lr)
  | _ => none

/-- LB of major 0x31: a displacement, KIND 00 alone (R445, R451). -/
def decodeBr (f : BitVec 8) (w : Word) : Option SeharWord :=
  decodeIf (f.extractLsb' 0 2 = 0) (.br (f.getLsbD 2) (f.extractLsb' 4 4) (f.getLsbD 3) w)

/-- LP, majors 0x40 to 0x45: a port of 12 bits, or the register that names it; BMOV's spec is of mode 01 (R445, R451). -/
def decodeLp (major : BitVec 7) (d : BitVec 8) (w : Word) : Option SeharWord :=
  decodeIf (
    if major = 0x45 then d.extractLsb' 6 2 = 1 && w = 0
    else if major = 0x42 || major = 0x43 then w.toNat < 64
    else w.toNat < 4096) (.lp major d (w.setWidth 12))

/-- What a first word and, in a long form, a second one say (R442): bit 15 selects the width, [14:8] is the major opcode of a
long form. None for a reserved encoding (R451). -/
def decodeSehar (w1 w2 : Word) : Option SeharWord :=
  let major := w1.extractLsb' 8 7
  let d := w1.setWidth 8
  if !w1.msb then some (decodeShort w1)
  else if major < 0x20 then decodeLa major d (w2.extractLsb' 8 8) (w2.setWidth 8)
  else if major = 0x30 then decodeLb d w2
  else if major = 0x31 then decodeBr d w2
  else if 0x40 ≤ major && major < 0x46 then decodeLp major d w2
  else decodeLi major d w2

/-- The core and the words' content of a Sehar instruction of the table (R443 to R445, R450). -/
def Instr.sehar : Instr → Option (Nat × SeharWord)
  | .sSaMov k d s => some (k, .sa 0 d s)
  | .sSaAdd k d s => some (k, .sa 1 d s)
  | .sSaSub k d s => some (k, .sa 2 d s)
  | .sSaAnd k d s => some (k, .sa 3 d s)
  | .sSaOr k d s => some (k, .sa 4 d s)
  | .sSaXor k d s => some (k, .sa 5 d s)
  | .sSaCmp k d s => some (k, .sa 6 d s)
  | .sSb k cond annul disp => some (k, .sb cond annul disp)
  | .sAdd k d a b => some (k, .la 0x00 d a b)
  | .sAdc k d a b => some (k, .la 0x01 d a b)
  | .sSub k d a b => some (k, .la 0x02 d a b)
  | .sSbc k d a b => some (k, .la 0x03 d a b)
  | .sAnd k d a b => some (k, .la 0x04 d a b)
  | .sOr k d a b => some (k, .la 0x05 d a b)
  | .sXor k d a b => some (k, .la 0x06 d a b)
  | .sBic k d a b => some (k, .la 0x07 d a b)
  | .sShl k d a b => some (k, .la 0x08 d a b)
  | .sShr k d a b => some (k, .la 0x09 d a b)
  | .sSar k d a b => some (k, .la 0x0A d a b)
  | .sMov k d a => some (k, .la 0x0B d a 0)
  | .sMul k d a b => some (k, .la 0x0C d a b)
  | .sMulh k d a b => some (k, .la 0x0D d a b)
  | .sCmp k a b => some (k, .la 0x0E 0 a b)
  | .sTst k a b => some (k, .la 0x0F 0 a b)
  | .sDadd k d a b => some (k, .la 0x10 d a b)
  | .sDadc k d a b => some (k, .la 0x11 d a b)
  | .sDsub k d a b => some (k, .la 0x12 d a b)
  | .sDsbc k d a b => some (k, .la 0x13 d a b)
  | .sDadj k d a => some (k, .la 0x14 d a 0)
  | .sDcmp k a b => some (k, .la 0x15 0 a b)
  | .sDshl k d a b => some (k, .la 0x16 d a b)
  | .sDmd k d a n => some (k, .la 0x17 d a (n.setWidth 8))
  | .sCvbd k d a n => some (k, .la 0x18 d a (n.setWidth 8))
  | .sCvdb k d a => some (k, .la 0x19 d a 0)
  | .sMovi k d imm => some (k, .li 0x20 d imm)
  | .sAddi k d imm => some (k, .li 0x21 d imm)
  | .sSubi k d imm => some (k, .li 0x22 d imm)
  | .sAndi k d imm => some (k, .li 0x23 d imm)
  | .sOri k d imm => some (k, .li 0x24 d imm)
  | .sXori k d imm => some (k, .li 0x25 d imm)
  | .sCmpi k d imm => some (k, .li 0x26 d imm)
  | .sTsti k d imm => some (k, .li 0x27 d imm)
  | .sB k cond annul t => some (k, .lb false cond annul t)
  | .sCall k cond annul t => some (k, .lb true cond annul t)
  | .sRet k => some (k, .lb false 0 false .lr)
  | .sBr k cond annul disp => some (k, .br false cond annul disp)
  | .sCallr k cond annul disp => some (k, .br true cond annul disp)
  | .sRpt k d imm => some (k, .li 0x38 d imm)
  | .sIn k d port => some (k, .lp 0x40 d port)
  | .sOut k d port => some (k, .lp 0x41 d port)
  | .sInx k d n => some (k, .lp 0x42 d (n.setWidth 12))
  | .sOutx k d n => some (k, .lp 0x43 d (n.setWidth 12))
  | .sIowait k d port => some (k, .lp 0x44 d port)
  | .sBmov k n => some (k, .lp 0x45 (0x40 ||| n.setWidth 8) 0)
  | .sGate k n => some (k, .li 0x50 0 (n.setWidth 16))
  | .sGret k => some (k, .li 0x51 0 0)
  | .sTrap k code => some (k, .li 0x52 0 (code.setWidth 16))
  | .sRfe k => some (k, .li 0x53 0 0)
  | .sMfsw k d => some (k, .li 0x54 d 0)
  | .sMtsw k d => some (k, .li 0x55 d 0)
  | .sMflr k d => some (k, .li 0x56 d 0)
  | .sMtlr k d => some (k, .li 0x57 d 0)
  | .sSwap k => some (k, .li 0x58 0 0)
  | .sIdle k => some (k, .li 0x59 0 0)
  | .sSync k => some (k, .li 0x5A 0 0)
  | .sMfwp k d => some (k, .li 0x5B d 0)
  | .sMtwp k d => some (k, .li 0x5C d 0)
  | _ => none

/-- The two words spell an instruction for core `k`. -/
def spells (k : Nat) (w1 w2 : Word) (i : Instr) : Bool := match decodeSehar w1 w2 with
  | some f => i.sehar = some (k, f)
  | none => false

end Sys2Proof
end

