-- ==== Sys2Proof/Config.lean ====
section
/-! DEFINITION. What is fixed when a part is made, and the values the manual leaves open. A constant here has no
body: no proof sees its value. -/

namespace Sys2Proof.Config

/-- The Device Serial Number fused at manufacture (R51). -/
opaque deviceSerial : BitVec 64

/-- Bits [59:4] of SAS_BASE, fused at manufacture (R248). -/
opaque sasBaseMiddle : BitVec 56

/-- The SAS address of wide port `c` (R248): SAS_BASE is an NAA 5 value, so its top digit is 5, with bits [3:0] equal to
0. -/
def sasAddress (c : Nat) : BitVec 64 := ((5 : BitVec 4) ++ sasBaseMiddle ++ (0 : BitVec 4)) + BitVec.ofNat 64 c

/-- Free bytes: the `n`-th value the manual leaves open (undefined buffer content of R199 and R603).
The counter `State.fresh` gives `n`. -/
opaque freeByte : Nat → Byte

/-- Byte `i` of the 256 bytes in which a traverse is parked (R133, R398): this manual does not give their layout. The
first number tells one parked state from another. -/
opaque parkedByte : Nat → Nat → Byte

/-- Field `i` of the address generator `g` that the device derives from the block of a ROM recipe, and its loop counts
(R323, R361): this manual does not publish the schedules of the ROM recipes. -/
opaque romGenerator : List Byte → Nat → Nat → Nat
opaque romCount : List Byte → Nat → Nat

/-- Free words of a Sehar core (firmware ports outside the manual, R437). -/
opaque freeWord : Nat → BitVec 16

/-- The boot ROM of core `k` (R435; the Monument's mask ROM, R514): this manual does not give its content. -/
opaque bootRom : Nat → Nat → BitVec 16

/-- Free bits: an outcome the manual leaves open (for example which ACCUMULATE beats of a faulted ROM recipe
were applied, R603). -/
opaque freeBit : Nat → Bool

/-- Whether the Monument's log flash takes and reads back its `n`-th write (R533): a failure is an outside event. -/
opaque flashTakes : Nat → Bool

/-- The level of MON_PARAM_EN_N, asserted or not, as the Monument senses it for its `n`-th reading (R526): an input. -/
opaque paramPin : Nat → Bool

/-- Numbers the manual leaves open: the choice of SSP tags (R171), sizes and orders it does not fix. -/
opaque freeNat : Nat → Nat

/-- The `n`-th key drawn from the secure realm's random bit generator (R391). -/
opaque randomKey : Nat → BitVec 256

/-- The Monument's private signing key drawn at sealing (R536). -/
opaque signingKey : Nat → BitVec 256

/-- The P-256 public key (X, Y) of a private key (FIPS 186-5, R527). -/
opaque publicKey : BitVec 256 → BitVec 256 × BitVec 256

/-- The ECDSA P-256 signature (r, s) of a SHA-256 digest under a key, with the signer's `n`-th nonce (R527). -/
opaque ecdsaSign : BitVec 256 → BitVec 256 → Nat → BitVec 256 × BitVec 256

/-- The body of the answer to an MCTP control or PLDM request: DSP0236, DSP0240, DSP0248 and DSP0267 fix it, this
manual does not (R72). -/
opaque mctpReply : List Byte → List Byte

/-- Which MCTP requests ask for DEV_IDENT (R4): the manual names no message for the read. -/
opaque asksIdent : List Byte → Bool

/-- Dwords of payload a PLDM request brings over PCIe: DSP0240 and DSP0236 frame it, this manual does not (R542). -/
opaque pldmDwords : List Byte → Nat

/-- The hash of the image key in the fuses (R552). -/
opaque fusedKeyHash : List Byte

/-- The contents of the reserved bytes of a port configuration entry that are reserved values: R553 refuses them and
states none. -/
opaque recordReserved : List Byte → Bool

/-- ACTIVE, PENDING and DIR_SEQ as the boot ROM takes them from a directory that is not in order (R551 states no
outcome). -/
opaque badDirectory : List Byte → Bool × Option Bool × BitVec 32

/-- Where in quarter 0's firmware region the image lies, and word `a` of the I-space of engine `k` in an image (R554,
R561): this manual publishes no layout of the image. -/
opaque imageOffset : Nat
opaque firmwareWord : List Byte → Nat → Nat → BitVec 16

/-- Whether a ROM recipe (0 for VERIFY) uses the slot in a lane at a recipe cycle (R286): this manual does not publish the
schedules of the ROM recipes. -/
opaque romSlot : Nat → Nat → Nat → Bool

/-- Length of the boot flash's SFDP table and the dummy cycles it names for the quad read (R591). -/
opaque sfdpLength : Nat
opaque quadDummies : Nat

/-- Page `i` of the sealed key store (R392): AES-256-GCM under a key derived from fuses. -/
opaque sealedPage : List (Nat × BitVec 256) → Nat → List Byte

/-- Configuration dwords whose bits PCI Express Base 5.0 and the part lay out, this manual does not (R48). -/
opaque configWord : Nat → BitVec 32

end Sys2Proof.Config
end

