-- ==== Sys2Proof/Machine/State.lean ====
section
/-! DEFINITION. The whole state of the CX960, as plain data, and its value after the power-on (cold) reset.
Every structure's default values are its reset values; a table lists only the records that differ from them. -/

namespace Sys2Proof.Machine

/-- Why a step stops with a fault. No command of this manual ends in one: every error it describes is an effect on
the state, so the type is empty. Safe. -/
inductive Fault where
  deriving DecidableEq, Repr

/-- Why a step is refused. -/
inductive Refusal where
  /-- Raised by Dispatch for a command that has no meaning yet. Safe. -/
  | notModelled (mnemonic : String)
  deriving DecidableEq, Repr

/-! ### What the device sends out -/

/-- A command on a serial flash interface (R591, R592), with the address, the bytes it moves and what a program
command writes. -/
structure FlashOp where
  op : BitVec 8
  addr : Nat := 0
  len : Nat := 0
  dummies : Nat := 0
  data : List Byte := []
  deriving DecidableEq, Repr

/-- One outward action of the device: what crosses its pins and links, newest first in `State.out`. -/
inductive Output where
  /-- A memory write TLP of port `p`; `relaxed` is the Relaxed Ordering attribute (R53), `ep` the poison bit (R184). -/
  | hostWrite (p : Nat) (addr : Nat) (bytes : List Byte) (relaxed ep : Bool)
  /-- A read request TLP with the model's own number `id` (R94, R126, R136). -/
  | hostRead (p id addr len : Nat)
  /-- An MSI-X message of vector `v` (R69). -/
  | msix (p v : Nat) (addr : BitVec 64) (data : BitVec 32)
  /-- Data returned by a read of a BAR, configuration space or an I/O port. -/
  | readData (bytes : List Byte) (ep : Bool)
  /-- Configuration Request Retry Status (R52). -/
  | retryStatus (p : Nat)
  /-- Unsupported Request to a request no created port can take. -/
  | unsupported (p : Nat)
  /-- A failed ring read reported through AER (R94). -/
  | aer (p : Nat)
  /-- The reply to a management request (R72, R600). -/
  | mctpReply (path : MctpPath) (body : List Byte)
  /-- A COMMAND frame (R171, R174): handle, SSP tag, CDB bytes, direction, data length. -/
  | sspCommand (c h tag : Nat) (cdb : List Byte) (dir len : Nat)
  /-- A TASK information unit: handle, its own tag, function, the managed command's tag (R175). -/
  | sspTask (c h tag : Nat) (function managed : Nat)
  /-- A DATA frame sent to a drive over a lane (R260, R265). -/
  | sspData (c lane tag : Nat) (bytes : List Byte)
  /-- The IDENTIFY address frame of a phy: lane, and the SAS address of its wide port (R248). -/
  | identify (c lane : Nat) (sasAddr : BitVec 64)
  /-- REPORT GENERAL to an expander, or to the one attached to the port (R249, R253). -/
  | reportGeneral (c : Nat) (expander : Option (BitVec 64))
  /-- DISCOVER LIST over the phys of an expander, in ascending order from the first not yet reported (R249, R253). -/
  | discoverList (c : Nat) (expander : BitVec 64)
  /-- A SCSI command of firmware to a target that has no handle yet: INQUIRY, RECEIVE DIAGNOSTIC RESULTS (R253). -/
  | probe (c : Nat) (sasAddr : BitVec 64) (cdb : List Byte)
  /-- SMP PHY CONTROL, HARD RESET, to the expander phy attached to a handle (R267). -/
  | hardReset (c h : Nat)
  /-- A link or port-level reset (R271, R272): lane 0 to 3, or 4 for the whole port. -/
  | sasReset (c lane : Nat)
  /-- A beat handed to the owner of its READ cell, or to the port it was sent to (R285, R290): quarter, resource ID (an
  open requester r has 64 + r), row, data and the CRC-16 it carries. -/
  | beat (q owner row : Nat) (data : BitVec 512) (check : BitVec 16)
  /-- A command to the boot flash (R591). -/
  | spi (op : FlashOp)
  /-- THERM_TRIP_N asserted (R596). -/
  | thermTrip
  /-- A test pulse of the Monument, high for 2 ms (R539). -/
  | testPulse
  /-- A response of the verification port (R538): its fields as numbers and its text lines as bytes. -/
  | uart (line : List Byte)
  /-- The hand-over of a captured word of a Sehar read (FB_RD0, SYS_CYCLE_LO, SYS_IDATA). -/
  | coreRead (k : Nat) (v : BitVec 16)
  deriving DecidableEq, Repr

/-- Why the device reads host memory (R137, R94, R126, R174, R181, R209, R161, R427). -/
inductive ReadPurpose where
  /-- A piece of a ring read, at a byte offset of it (R94, R182). -/
  | ring (q pos : Nat)
  | header
  | runList
  | legs (tag station count : Nat)
  | cdb (tag : Nat)
  | operand (tag : Nat)
  | stageIn (tag pos : Nat)
  | stageBack (tag : Nat)
  /-- The read-back before a traverse's completion is formed (R161). -/
  | readback (tag : Nat)
  | dma (ch pos : Nat)
  | dmaBack (ch : Nat)
  /-- Nothing awaits its answer any more. -/
  | dropped
  deriving DecidableEq, Repr

/-- A host read: in flight, or waiting for one of the requests the port may have outstanding (R48). -/
structure HostRead where
  id : Nat
  addr : Nat
  len : Nat
  purpose : ReadPurpose
  sent : Bool := true
  /-- Whose traffic it is (R542). -/
  tenant : Nat := 256
  deriving DecidableEq, Repr

/-! ### Field books (R506 to R510) -/

/-- One stored word: data and the SOP mark. -/
structure FbWord where
  data : BitVec 64
  sop : Bool
  deriving DecidableEq, Repr

/-- A field book: at most 1,024 readable words, oldest first, its counters and its reader. -/
structure FieldBook where
  words : List FbWord := []
  seq : BitVec 32 := 0
  lost : BitVec 32 := 0
  /-- FB_RSTAT bits (R510). -/
  idle : Bool := false
  poison : Bool := false
  torn : Bool := false
  length : Nat := 0
  /-- Words of the current packet still to read; 0 at a packet start. -/
  left : Nat := 0
  /-- Words of the current packet that an overwriting producer took (R508). -/
  stolen : Bool := false
  deriving DecidableEq, Repr

/-! ### Host ports (R46 to R80, R81 to R119) -/

/-- One MSI-X table entry (R69, PCI Express Base 5.0). -/
structure MsixEntry where
  addr : BitVec 64 := 0
  data : BitVec 32 := 0
  masked : Bool := true
  deriving DecidableEq, Repr

/-- A completion record on its way to a ring (R102 to R105). -/
structure Completion where
  port : Nat
  /-- The completion queue it goes to. -/
  cq : Nat
  tag : Nat
  sq : Nat
  status : BitVec 8
  entry : Bool
  dataMoved : Bool
  sense : Bool
  dev : Bool
  result : BitVec 64
  station : Nat
  detail0 : BitVec 8
  detail1 : BitVec 8
  urgent : Bool
  notice : Bool
  /-- The epoch a FAULT NOTICE carries (R102). -/
  epoch : BitVec 16
  /-- The live traverse this completion ends. -/
  ends : Bool
  /-- Its entry counts among those consumed without a completion; a containment that has ended counts them no longer
  (R104, R115). -/
  counted : Bool := true
  deriving DecidableEq, Repr

/-- Submission side of a queue control block (R83 to R86). -/
structure SubQueue where
  base : BitVec 64 := 0
  en : Bool := false
  cqid : Nat := 0
  log2 : Nat := 4
  scanning : Bool := false
  rescan : Bool := false
  invBusy : Bool := false
  fieldRefused : Bool := false
  head : Nat := 0
  invHead : Nat := 0
  phase : Bool := true
  cache : List (List Byte) := []
  /-- A ring read is in flight: the bytes read so far and how many count, cut at a failed piece (R94, R182). -/
  filling : Bool := false
  fill : List Byte := []
  fillLen : Nat := 0
  /-- Stopped by a containment in progress (R117). -/
  stopped : Bool := false
  /-- Consumed entries without a posted completion (R115). -/
  lacking : Nat := 0
  deriving DecidableEq, Repr

/-- Completion side of a queue control block (R87, R88, R107, R108). -/
structure CompQueue where
  base : BitVec 64 := 0
  en : Bool := false
  coal : Nat := 0
  vector : Nat := 0
  log2 : Nat := 4
  badHead : Bool := false
  fieldRefused : Bool := false
  tail : Nat := 0
  head : Nat := 0
  /-- Posted, unreturned entries: o of R107. -/
  unreturned : Nat := 0
  phase : Bool := true
  /-- Completions waiting for ring space, oldest first. -/
  waiting : List Completion := []
  deriving DecidableEq, Repr

/-- A completion vector (R88, R111, R112): level and expert values as written; the threshold and time a change found
in force, which stay in force until the next message. -/
structure CompVector where
  expert : Bool := false
  thresh : Nat := 1
  timerUs : Nat := 0
  held : Option (Nat × Nat) := none
  count : Nat := 0
  timerOn : Bool := false
  deriving DecidableEq, Repr

/-- An entry handed on by the scan, waiting for its type's handling (R94, R95). -/
structure Handed where
  q : Nat
  bytes : List Byte
  deriving DecidableEq, Repr

/-- A host write held back: the traverse that made it, its tenant, address, bytes, Relaxed Ordering, poison bit
(R599). -/
structure HeldWrite where
  tag : Nat
  tenant : Nat
  addr : Nat
  bytes : List Byte
  relaxed : Bool
  ep : Bool
  deriving DecidableEq, Repr

/-- A port's committed apportionment record (R74, R80). Drives: chain and a 384-bit set of offsets. -/
structure Apportion where
  gen : BitVec 32 := 0
  sqCount : Nat := 0
  cqCount : Nat := 0
  trvQuota : Nat := 0
  keys : Nat := 0
  share : Nat := 0
  bar4Log2 : Nat := 0
  /-- Quota per quarter. -/
  ext : Tab Nat := []
  shelves : BitVec 48 := 0
  /-- Engine and its 16 slot bits. -/
  slots : Tab (BitVec 16) := []
  /-- Chain and its 384 drive offsets. -/
  drives : Tab (BitVec 384) := []
  deriving DecidableEq, Repr

/-- The states a containment passes through (R558): STOPPING, RESETTING (DISCARDING is over) and ENDING. -/
inductive ContainPhase where
  | stopping | resetting | ending
  deriving DecidableEq, Repr

/-- A containment in progress: its cause code, its phase, whether a port's blocks are reset (R54, R557, R558). -/
structure Containment where
  cause : BitVec 8
  phase : ContainPhase
  resetBlocks : Bool
  /-- PERST_N resets configuration space as well (R548). -/
  resetConfig : Bool
  /-- An FLR is among its causes: the BAR4 size granted comes into force (R79). -/
  flr : Bool := false
  /-- Accumulator extents held in ACCUM mode by discarded traverses that had placed a RECIPE leg (R379). -/
  taint : List Nat := []
  /-- Channel engine whose island is reset (R561). -/
  engine : Option Nat := none
  deriving DecidableEq, Repr

/-- One host port. -/
structure Port where
  /-- Created by the bifurcation straps (R46). -/
  created : Bool := false
  /-- Width code of FN_PORTINFO: 1 x4, 2 x8, 3 x16. -/
  width : Nat := 0
  /-- PERST_N asserted at the port's slot. -/
  perst : Bool := true
  linkUp : Bool := false
  d3hot : Bool := false
  /-- Configuration requests are answered normally (R52). -/
  configured : Bool := false
  ready : Bool := false
  clkMode : Nat := 0
  subVendor : BitVec 16 := 0x1F6B
  subsystem : BitVec 16 := 0x0960
  /-- Writable configuration dwords (PCI Express Base 5.0), by dword index. -/
  config : Tab (BitVec 32) := []
  evtEn : BitVec 6 := 0
  bar4En : Bool := false
  /-- FN_STAT event bits [5:0] (R66). -/
  events : BitVec 6 := 0
  fnEpoch : BitVec 16 := 0
  unclaimed : BitVec 32 := 0
  bar4Base : BitVec 22 := 0
  /-- BAR4 size exponent in force: changes at the port's FLR (R79). -/
  bar4Log2 : Nat := 0
  ap : Apportion := {}
  sqs : Tab SubQueue := []
  cqs : Tab CompQueue := []
  vecs : Tab CompVector := []
  /-- The queue whose turn comes next (R95). -/
  turn : Nat := 0
  handed : List Handed := []
  reads : List HostRead := []
  /-- Host writes of legs held while the port is down or in D3hot (R599). -/
  heldWrites : List HeldWrite := []
  msix : Tab MsixEntry := []
  /-- Pending Bit Array. -/
  pba : List Nat := []
  /-- MB_HDB and MB_HDB_EN (R499). -/
  hdb : BitVec 32 := 0
  hdbEn : BitVec 32 := 0
  book : FieldBook := {}
  /-- Latches of R601: 0 DEV_MS, 1 + q DEV_ECC_CORRq. -/
  latches : Tab (BitVec 32) := []
  contain : Option Containment := none
  /-- Consumed entries of the port that the latest containment discarded without completion (R104). -/
  discarded : Nat := 0
  /-- MON_RECON.MISMATCH (R529, R543). -/
  recon : BitVec 2 := 0
  /-- The port's MON_ view registers are at their reset values until the view is written again (R549). -/
  viewOff : Bool := true
  /-- MON_DOWN has been set in the view since the port's reset (R529, R549). -/
  viewDown : Bool := false
  deriving DecidableEq, Repr

/-! ### Traverses (R120 to R163, R164 to R219) -/

/-- Declared modes of an extent run (R123, R124). -/
inductive RunMode where
  | read | write | accum
  deriving DecidableEq, Repr

/-- An extent run (R123). -/
structure Run where
  first : Nat
  mode : RunMode
  count : Nat
  deriving DecidableEq, Repr

/-- Traverse states (R132). -/
inductive TrvState where
  | pending | ready | running | held | waiting | basket (s : Nat) | pausing | responseParked | rebinding
  | ended
  deriving DecidableEq, Repr

/-- Where the current station stands (R167). -/
inductive LegStage where
  /-- The station has not started. -/
  | fresh
  /-- Counted and checked; the outing check remains, on the party that owns the leg's chain (R35, R172). -/
  | rebound
  /-- Counted, checked and ready: the leg's own command performs it. -/
  | ready
  /-- Performed; an answer (drive, host, engine, timer) is awaited. -/
  | awaiting
  deriving DecidableEq, Repr

/-- A booking (R203): lapsed bookings still count toward the limit of four. -/
structure Booking where
  shelf : Nat
  lapsed : Bool
  deriving DecidableEq, Repr

/-- The ending of one member of an issue run or of a single command (R148, R173). -/
structure LegEnd where
  status : BitVec 8
  residual : Nat
  moved : Nat
  scsi : BitVec 8
  fault : BitVec 8
  sense : List Byte
  deriving DecidableEq, Repr

/-- A member of the issue run in progress: its head station, its handle, its total length, the flags SHORT-OK and
NEXT, whether it was performed, how it ended. -/
structure RunMember where
  station : Nat
  handle : Nat
  len : Nat
  shortOk : Bool
  next : Bool
  performed : Bool
  ended : Option LegEnd
  /-- Stations of its JOIN group (R143). -/
  count : Nat := 1
  deriving DecidableEq, Repr

/-- The state of a GATHER (R196 to R201): K, N and the four sets; `failEnd` the ending of each failed descriptor. -/
structure GatherState where
  k : Nat
  n : Nat
  lens : List Nat
  outcome : Nat
  arrived : List Nat := []
  late : List Nat := []
  failed : Tab LegEnd := []
  aborted : List Nat := []
  aborting : Bool := false
  /-- A command that an abort of GATHER ended had moved data (R169). -/
  abortMoved : Bool := false
  deriving DecidableEq, Repr

/-- What a drive named by a SPIN leg has answered (R207). -/
inductive SpinOutcome where
  | waiting | reached | rejected (scsi fault : BitVec 8) (sense : List Byte) | notReady | closed
  deriving DecidableEq, Repr

/-- A leg held by an engine's fetch group (R136, R137): its bytes, or the status its failed fetch gives. -/
inductive Fetched where
  | leg (bytes : List Byte)
  | failed (status : BitVec 8)
  deriving DecidableEq, Repr

/-- A NOTE-REQUEST waiting for its record (R101): the queue and tag it came from. -/
structure NoteWait where
  q : Nat
  tag : Nat
  urgent : Bool
  deriving DecidableEq, Repr

/-- A WAIT in progress (R152): target tag and station. -/
structure WaitOn where
  tag : Nat
  station : Nat
  deriving DecidableEq, Repr

/-- A live traverse. -/
structure Trv where
  port : Nat
  tag : Nat
  sq : Nat
  tenant : Nat
  prio : Nat
  urgent : Bool
  addr : BitVec 64
  sb : BitVec 64
  affinity : Option Nat
  runs : List Run
  budget : Nat
  /-- Absolute device millisecond of the deadline (R151). -/
  deadline : Option Nat
  deadlinePassed : Bool := false
  /-- Order of reaching admission (R128). -/
  arrival : Nat
  state : TrvState
  /-- Engine and subchannel while running. -/
  bound : Option (Nat × Nat) := none
  /-- Party of its ready list, order and time of joining (R131). -/
  readyParty : Option Nat := none
  readyAt : Nat := 0
  readySeq : Nat := 0
  /-- The chain a device leg named, for rebinding (R35), or the shelf that woke it (R36). -/
  rebindChain : Option Nat := none
  station : Nat := 0
  started : Bool := false
  stage : LegStage := .fresh
  fetched : Tab Fetched := []
  /-- First station of the fetch group read last (R136). -/
  groupBase : Nat := 0
  fetching : Bool := false
  /-- The legs of the station in progress: one, or a JOIN group (R143). -/
  group : List (List Byte) := []
  /-- Station released from HOLD (R146). -/
  released : Option Nat := none
  lastStatus : BitVec 8 := 0
  legInfo : BitVec 64 := 0
  bytes : Nat := 0
  legs : Nat := 0
  noteSeq : Nat := 0
  residual : Nat := 0
  shortCount : Nat := 0
  sense : List Byte := []
  bookings : List Booking := []
  waitOn : Option WaitOn := none
  run : List RunMember := []
  /-- A member of the run failed a check; no later member issues (R168). -/
  runStopped : Bool := false
  gather : Option GatherState := none
  spin : Tab SpinOutcome := []
  /-- Fetched CDB or TEST operand (R174, R209). -/
  operand : Option (List Byte) := none
  /-- Bytes of the current STAGE-IN already written, reads still out, and its failure. -/
  staged : Nat := 0
  stageFault : Option (BitVec 8) := none
  /-- Poisoned beats moved by the STAGE leg in progress (R170). -/
  poisonBeats : List Nat := []
  /-- Last host address written (R161). -/
  wrote : Option Nat := none
  notes : List NoteWait := []
  /-- A RECIPE leg was placed in a launch queue (R379). -/
  launched : Bool := false
  /-- Its entry of the parked-traverse region while it is parked (R133, R398). -/
  entry : Option Nat := none
  /-- The accumulator descriptor its FLUSH-SPAN in progress flushes. -/
  flushing : Option Nat := none
  /-- Woken from the basket by an opening outing; BOOK ends with LEG_INFO 1 (R204). -/
  woken : Bool := false
  /-- Its completion, once formed and until posted (R129). -/
  completion : Option Completion := none
  /-- The completion waits for the read-back of R161. -/
  readback : Bool := false
  /-- The completion waits for a status block whose stack leaves self-refresh (R38, R418). -/
  sbLate : Bool := false
  deriving DecidableEq, Repr

/-- An entry in the system controller's admission (R126): the entry, what has been read, a read in flight. -/
structure Admitting where
  port : Nat
  q : Nat
  entry : List Byte
  header : Option (List Byte) := none
  list : Option (List Byte) := none
  fault : Option (BitVec 8) := none
  reading : Bool := false
  /-- When the START was handed to admission (R151), and its place in the order of receipt (R407). -/
  since : Nat := 0
  order : Nat := 0
  deriving DecidableEq, Repr

/-! ### Shelves and outings (R220 to R247) -/

/-- The outing states (R227). -/
inductive ShelfState where
  | dark | powering | spinning | opened | draining | closing | settling | holdoff | retired
  deriving DecidableEq, Repr

/-- A basket entry: the traverse and the time it joined (R228, R234). -/
structure BasketEntry where
  port : Nat
  tag : Nat
  joined : Nat
  deriving DecidableEq, Repr

/-- A spin-up step (R238): offset in 0.1 s, method code, slots; the traverse whose SPIN leg made it (R240). -/
structure SpinStep where
  offset : Nat
  method : Nat
  slots : List Nat
  owner : Option (Nat × Nat) := none
  deriving DecidableEq, Repr

/-- One shelf. -/
structure Shelf where
  state : ShelfState := .dark
  since : Nat := 0
  /-- Debounced and filtered SHELF_PG (R224), and the times of its filtered transitions in the last second (R225). -/
  pg : Bool := false
  pgFiltered : Bool := false
  edges : List Nat := []
  faults : Nat := 0
  basket : List BasketEntry := []
  openedAt : Nat := 0
  lingering : Bool := false
  maxOpenPassed : Bool := false
  /-- Expert opening window and steps set by SHELF-PARAM, with whether they are in force (R237, R245). -/
  window : Option (BitVec 96 × Bool) := none
  windowNext : Option (Option (BitVec 96 × Bool)) := none
  steps : Option (List SpinStep) := none
  /-- The schedule of the spin-up in progress (R238), the next step, and each slot's progress. -/
  schedule : List SpinStep := []
  nextStep : Nat := 0
  spinning : Bool := false
  started : List Nat := []
  answered : List Nat := []
  readySlots : List Nat := []
  /-- Steps, GROUP and INTERVAL_DS taken at the last entry into SPINNING (R244). -/
  useSteps : Option (List SpinStep) := none
  useGroup : Nat := 8
  useInterval : Nat := 20
  /-- Spin-up is complete while a fall of SHELF_PG is being debounced (R247). -/
  openPending : Bool := false
  /-- Slots powered by SES whose drive links are awaited (R238). -/
  sesWait : List Nat := []
  /-- CLOSING (R232): step 3 has begun; slots still to answer. -/
  stopSent : Bool := false
  stopping : List Nat := []
  /-- SES generation counter of planner page 0x02 writes (R180). -/
  sesWrites : Nat := 0
  deriving DecidableEq, Repr

/-- Outing functions' parameters (R243). -/
structure OutingCfg where
  expertChoice : Bool := false
  lingerS : Nat := 10
  maxOpenS : Nat := 300
  ageLimitS : Nat := 900
  drainMaxS : Nat := 60
  faultHoldS : Nat := 60
  retireCount : Nat := 3
  weights : Tab Nat := []
  dayOffset : Nat := 0
  expertCount : Bool := false
  count : Nat := 1
  expertSpin : Bool := false
  group : Nat := 8
  intervalDs : Nat := 20
  deriving DecidableEq, Repr

/-! ### SAS ports (R248 to R279) -/

/-- Whose command it is. -/
inductive CmdOwner where
  | leg (p tag station : Nat)
  | gather (p tag index : Nat)
  | spinLeg (p tag slot : Nat) (poll : Bool)
  | spinUp (s slot : Nat) (poll : Bool)
  | closing (s slot : Nat) (stop : Bool)
  | firmware
  deriving DecidableEq, Repr

/-- Why the port aborts a command. -/
inductive AbortWhy where
  | none | gather | poison | wrongDir | timeout | orphan | broken | flushTaint
  deriving DecidableEq, Repr

/-- A data segment of a command: buffer byte address, or none for DROP (R143, R144). -/
structure Segment where
  addr : Option Nat
  len : Nat
  deriving DecidableEq, Repr

/-- A beat that a drain slot reads for a command (R265): its byte address in the stacks, the part of it that is meant, and
what arrived, with its poison. -/
structure Pull where
  beat : Nat
  lo : Nat
  n : Nat
  data : Option (List Byte × Bool) := none
  deriving DecidableEq, Repr

/-- A command at a wide port (R259, R260). -/
structure Cmd where
  id : Nat
  handle : Nat
  owner : CmdOwner
  cdb : List Byte
  /-- 0 none, 1 data-in, 2 data-out. -/
  dir : Nat
  len : Nat
  segments : List Segment
  tag : Option Nat := none
  sent : Bool := false
  moved : Nat := 0
  /-- XFER_RDY or DATA seen (R263). -/
  sawData : Bool := false
  overrun : Bool := false
  retries : Nat := 0
  retrying : Bool := false
  /-- Waiting for the back-off after an OPEN_REJECT of its COMMAND frame (R262). -/
  opening : Bool := false
  /-- The command timeout runs (R261). -/
  timing : Bool := false
  backoff : Nat := 0
  rate : Nat := 0
  why : AbortWhy := .none
  /-- Orphaned by a containment (R560). -/
  orphan : Bool := false
  /-- The pending XFER_RDY request: offset and length still to send. -/
  ready : Option (Nat × Nat) := none
  /-- Byte offsets of page 0x02 whose SELECT bit is cleared as the page is sent (R179). -/
  clear : List Nat := []
  /-- A page 0x02 write of an enclosure services process (R180). -/
  page2 : Bool := false
  /-- Data-out of firmware's own (R238). -/
  payload : List Byte := []
  /-- Start of the command timeout, its length in seconds and the BUSY retries allowed, as its timeout started (R261, R275). -/
  startedMs : Nat := 0
  limitS : Nat := 30
  retryLimit : Nat := 8
  /-- Transmit half: bytes read ahead for the pending XFER_RDY and not yet sent; a poisoned beat has stopped the read-ahead
  (R265). -/
  ahead : List Byte := []
  stopped : Bool := false
  /-- The accumulator descriptor whose flush this write is (R381). -/
  flush : Option Nat := none
  /-- Beats asked for in drain slots and not yet read ahead, in order (R265). -/
  pulls : List Pull := []
  /-- Its RESPONSE has come while data it sent before has not reached buffer memory: status and sense (R264). -/
  answer : Option (BitVec 8 × List Byte) := none
  deriving DecidableEq, Repr

/-- Who sent a task management function. -/
inductive TmfOwner where
  | leg (p tag : Nat)
  | port
  | recovery
  deriving DecidableEq, Repr

/-- A task management function waiting or sent (R175, R177, R259). -/
structure Tmf where
  function : Nat
  handle : Nat
  /-- The managed command's model number, for ABORT TASK and QUERY TASK. -/
  managed : Option Nat
  owner : TmfOwner
  /-- Commands handed over before it (R177): model numbers below this. -/
  before : Nat
  tag : Option Nat := none
  sent : Bool := false
  /-- Waiting for the back-off after an OPEN_REJECT of its TASK frame, with its length and the rate tried (R262). -/
  opening : Bool := false
  backoff : Nat := 0
  rate : Nat := 0
  /-- Its place among the functions that wait for a task tag (R259). -/
  turn : Option Nat := none
  deriving DecidableEq, Repr

/-- Recovery of a handle (R267, R268): step 1 to 4, the timed-out commands, unanswered aborts seen. -/
structure Recovery where
  step : Nat
  timedOut : List Nat
  missed : Bool
  deriving DecidableEq, Repr

/-- A handle (R250 to R258). -/
structure Handle where
  /-- The SAS addresses of the slot's descriptor (R251, R252), or of the enclosure services process assigned here. -/
  described : Option (List (BitVec 64)) := none
  installed : Bool := false
  attached : Option (BitVec 64) := none
  /-- Unreachable since a rediscovery or an OPEN_REJECT: nexus-loss time runs (R258). -/
  lost : Bool := false
  /-- Commands handed over before its target was lost have model numbers below this (R258). -/
  lostMark : Nat := 0
  recovery : Option Recovery := none
  /-- An enclosure services process in the expander range (R250, R278). -/
  ses : Bool := false
  deriving DecidableEq, Repr

/-- A lane of a wide port (R271): up, rate code of MAX_RATE, link-reset times, disabled. -/
structure Lane where
  up : Bool := false
  rate : Nat := 3
  resets : List Nat := []
  disabled : Bool := false
  /-- RRDY credits outstanding (R264). -/
  credits : Nat := 0
  /-- The connection on the lane: its handle and the tags of the commands whose DATA frames it has carried (R260, R270). -/
  conn : Option (Nat × List Nat) := none
  deriving DecidableEq, Repr

/-- What a rediscovery covers: nothing is due; the expanders concerned by a broadcast (R273); every expander of the
chain (R256, R262); the chain from REPORT GENERAL on (R253, R272). -/
inductive Rescan where
  | none | concerned | chain | top
  deriving DecidableEq, Repr

/-- A received DATA frame in a slot of the receive half, or what has not yet left it (R264). -/
structure RxFrame where
  tag : Nat
  offset : Nat
  bytes : List Byte
  deriving DecidableEq, Repr

/-- A wide port and its chain. -/
structure SasPort where
  lanes : Tab Lane := []
  cmds : List Cmd := []
  tmfs : List Tmf := []
  nextId : Nat := 0
  /-- Start-up discovery has begun and ended (R255). -/
  discovering : Bool := false
  discovered : Bool := false
  expanders : List (BitVec 64) := []
  /-- Enclosures by position: logical identifier (R254). -/
  enclosures : Tab (BitVec 64) := []
  /-- Type descriptors of page 0x01 by position (R179): type code and number of elements. -/
  elements : Tab (List (Nat × Nat)) := []
  /-- Next free offset of the expander range (R250). -/
  nextExpander : Nat := 388
  /-- SSP targets reachable on the chain, in the order of discovery (R251 to R253). -/
  found : List (BitVec 64) := []
  /-- Discovery in progress (R253): expanders visited, those whose phys are being listed (the deepest first), targets
  to which INQUIRY has still to be sent; whether it started over from the top (R272). -/
  visited : List (BitVec 64) := []
  descent : List (BitVec 64) := []
  toAsk : List (BitVec 64) := []
  fromTop : Bool := false
  /-- Peripheral device types that INQUIRY reported, by SAS address (R253). -/
  types : List (BitVec 64 × BitVec 5) := []
  /-- Logical identifiers recorded NOT-ASSIGNED or LATE (R255). -/
  extras : List (BitVec 64) := []
  /-- Generation codes of page 0x02 by position (R273). -/
  generations : Tab (BitVec 32) := []
  /-- The receive half of the elastic buffer: frames in their order of arrival (R264). -/
  rx : List RxFrame := []
  /-- Turns given to functions that wait for a task tag (R259). -/
  nextTurn : Nat := 0
  /-- The rediscovery that is due (R273), and the last coalesced primitive with its lane. -/
  rediscover : Rescan := .none
  lastPrim : Nat × Nat := (0, 0)
  fec : Nat := 0
  linkResets : Nat := 0
  /-- CHANGE and EXPANDER primitives coalesced since the last rediscovery (R273). -/
  pendingBroadcast : Nat := 0
  lastRediscovery : Option Nat := none
  /-- A changed link function waits for its port-level reset (R275). -/
  linkPending : Bool := false
  /-- Link parameters in force: LANE_EN and MAX_RATE (R274). -/
  laneEn : BitVec 4 := 0xF
  maxRate : Nat := 0
  gated : Bool := false
  deriving DecidableEq, Repr

/-- SAS functions' parameters (R274). -/
structure SasCfg where
  expertLink : Bool := false
  chainLink : Tab (BitVec 8) := []
  expertRecovery : Bool := false
  cmdTimeoutS : Nat := 30
  tmfTimeoutS : Nat := 10
  nexusLossMs : Nat := 2000
  busyRetries : Nat := 8
  retryDelayMs : Nat := 20
  handleDepth : Nat := 64
  portTimeoutS : Tab Nat := []
  deriving DecidableEq, Repr

/-! ### Timetable, memory node, stacks (R280 to R322, R398 to R419) -/

/-- A beat in flight over a bridge: the superframe-counted row of arrival, the lane it left on (R30, R290). -/
structure InFlight where
  row : Nat
  lane : Nat
  beat : Beat
  /-- The hamper engine it came from. -/
  engine : Option Nat
  open_ : Bool
  /-- The SAS command whose received data it is: chain and model number. -/
  cmd : Option (Nat × Nat) := none
  deriving DecidableEq, Repr

/-- A beat in an open buffer (R319), and the SAS command whose received data it is: chain and model number. -/
structure OpenBeat where
  beat : Beat
  cmd : Option (Nat × Nat) := none
  deriving DecidableEq, Repr

/-- A read delivered 64 rows later: to the owner of lane and row (R285). -/
structure Delivery where
  row : Nat
  owner : Nat
  addr : Nat
  data : BitVec 512
  check : BitVec 16
  deriving DecidableEq, Repr

/-- A beat to accumulate (R285): lane, address, coefficient, END, data, poison. -/
structure AccumBeat where
  lane : Nat
  addr : Nat
  coef : Byte
  last : Bool
  data : BitVec 512
  poison : Bool
  /-- The hamper engine it came from. -/
  engine : Option Nat := none
  deriving DecidableEq, Repr

/-- A store of a hamper engine in the row to come (R329): lane, address, data, poison. -/
structure RowStore where
  lane : Nat
  addr : Nat
  data : BitVec 512
  poison : Bool
  engine : Nat
  deriving DecidableEq, Repr

/-- What the memory node does to the stack. -/
inductive RowOp where
  /-- A whole beat; `checkBad` as in `CellUse.write`. -/
  | write (addr : Nat) (data : BitVec 512) (poison checkBad : Bool)
  /-- Part of a beat, a read-modify-write (R411). -/
  | part (addr : Nat) (bytes : List Byte) (poison : Bool)
  | accum (b : AccumBeat)
  /-- A contribution counted at the descriptor of the accumulator that holds an address (R378). -/
  | count (addr : Nat)
  deriving DecidableEq, Repr

/-- An access that READs see from row `due` on (R287). -/
structure RowLand where
  due : Nat
  what : RowOp
  /-- The SAS command whose received data it is: chain and model number; the hamper engine it came from. -/
  cmd : Option (Nat × Nat) := none
  engine : Option Nat := none
  deriving DecidableEq, Repr

/-- A BAR4 access that waits for a stack (R38, R64, R320): port, byte offset in its extents, bytes to write or none and
the number to read. -/
structure Bar4Req where
  port : Nat
  write : Bool
  offset : Nat
  bytes : List Byte
  deriving DecidableEq, Repr

/-- A write to a status block that waits for a stack (R38, R418): the traverse, buffer position and bytes. -/
structure SbWrite where
  port : Nat
  tag : Nat
  pos : Nat
  bytes : List Byte
  deriving DecidableEq, Repr

/-- How a stored beat fails its check (R410): its check word matches neither its CRC nor the complement, the beat has an
uncorrectable on-die ECC error, or the check-region beat that covers it has. -/
inductive Flaw where
  | word (w : BitVec 16)
  | ecc
  | checkBeat
  deriving DecidableEq, Repr

/-- Stack power states (R416). -/
inductive StackState where
  | active | entering | selfRefresh | exiting
  deriving DecidableEq, Repr

/-- A requester of the open arbiter (R314, R315): consecutive losses and the row it may ask again. -/
structure Requester where
  losses : Nat := 0
  again : Nat := 0
  /-- Starvation has been reported for the losses counted (R316). -/
  fired : Bool := false
  /-- The request that lost last addresses the quarter's stack, and is no crossing (R417). -/
  stack : Bool := false
  deriving DecidableEq, Repr

/-- Which tables a quarter's shadow bank holds: full ones, or tables of open cells for a sleeping stack (R417). -/
inductive SwapKind where
  | full | openCells
  deriving DecidableEq, Repr

/-- One quarter's timetable, memory node and stack. A bank lists the rows that differ from the start table (R556). -/
structure Quarter where
  bank0 : Tab (BitVec 128) := []
  bank1 : Tab (BitVec 128) := []
  active : Bool := false
  shadowArm : Bool := false
  mode : BitVec 2 := 1
  shadowBusy : Bool := false
  fieldRefused : Bool := false
  seam : Bool := false
  corrected : Bool := false
  integrity : Bool := false
  swapAt : BitVec 32 := 0
  sf : BitVec 32 := 0
  shadowAddr : BitVec 15 := 0
  starveLimit : BitVec 8 := 16
  starved : BitVec 16 := 0
  masked : BitVec 16 := 0
  /-- The row the quarter executes next. -/
  row : Nat := 0
  /-- Rows executed since alignment: the absolute row number. -/
  absRow : Nat := 0
  flights : List InFlight := []
  deliveries : List Delivery := []
  requesters : Tab Requester := []
  /-- The open buffers of requesters 13 and 14, oldest first, and the beats that requester 15 has read for SAS ports homed
  elsewhere (R313, R319). -/
  openBuffers : Tab (List OpenBeat) := []
  /-- Bridge latencies measured (R28): 0 up, 1 down. -/
  latency : Tab Nat := []
  beaconDelay : Nat := 0
  aligned : Bool := false
  /-- Frame beacons on their way to the quarter, oldest first: count and delay field (R26, R28). -/
  beacons : List (BitVec 32 × Nat) := []
  /-- This superframe's beacon has been received (R27). -/
  beaconSeen : Bool := false
  /-- Writes and accumulates that READs do not see yet, in order (R287). -/
  lands : List RowLand := []
  /-- Lanes whose LD and ST cells an engine uses in the row to come, and the engines' stores. -/
  rowUsed : List Nat := []
  rowStores : List RowStore := []
  /-- BAR4 accesses that wait for the stack, and the port whose turn is next (R313, R320). -/
  bar4 : List Bar4Req := []
  bar4Turn : Nat := 0
  /-- Writes to status blocks that wait for the stack (R418). -/
  sbWrites : List SbWrite := []
  /-- The old bank as it was at the swap, while the seam runs (R306). -/
  oldBank : Tab (BitVec 128) := []
  stack : StackState := .active
  /-- A wake has been requested and, when EXITING, has not completed yet (R418). -/
  waking : Bool := false
  armedKind : SwapKind := .full
  /-- Lanes in the first row of whose ACCUM pair the quarter stands, with whether that row was used (R285). -/
  accumLanes : Tab Bool := []
  /-- Corrected on-die ECC errors (R414, R512). -/
  eccCorr : BitVec 64 := 0
  book : FieldBook := {}
  deriving DecidableEq, Repr

/-- Timetable function (R308, R309). -/
structure TimetableCfg where
  expert : Bool := false
  staging : Bool := false
  /-- The generator has tables to arm once no swap is armed and no seam runs (R304, R306, R322). -/
  due : Bool := false
  /-- Engines whose committed profile waits for a running recipe (R79). -/
  deferred : List Nat := []
  /-- The profile of each engine that the tables in the shadow banks were made for, or checked for (R79, R311). -/
  armed : Tab (BitVec 8) := []
  deriving DecidableEq, Repr

/-- Extent allocator (R401): owner and last owner by handle runs. -/
structure ExtRun where
  first : Nat
  count : Nat
  owner : Option Nat
  last : Option Nat
  deriving DecidableEq, Repr

/-- Who reserves an extent (R127): the traverse and the mode. -/
structure Reservation where
  port : Nat
  tag : Nat
  first : Nat
  count : Nat
  mode : RunMode
  deriving DecidableEq, Repr

/-- An accumulator table entry (R377): descriptor byte address, first extent, unit, owning port. -/
structure Accum where
  desc : Nat
  first : Nat
  unit : Nat
  port : Nat
  total : Nat
  deriving DecidableEq, Repr

/-! ### Hamper engines (R323 to R365) -/

/-- A V register (R323, R345, R333). -/
structure VReg where
  data : BitVec 512 := 0
  poison : Bool := false
  sealedBy : Bool := false
  deriving DecidableEq, Repr

/-- A parity accumulator. -/
structure PReg where
  data : BitVec 512 := 0
  poison : Bool := false
  deriving DecidableEq, Repr

/-- An address generator (R335). -/
structure AddrGen where
  base : Nat := 0
  beat : Int := 0
  count : Nat := 0
  stride0 : Int := 0
  stride1 : Int := 0
  n0 : Nat := 0
  i : Nat := 0
  deriving DecidableEq, Repr

/-- A hash lane: SHA-256 chaining value with the bytes not yet absorbed, CRC-64 register, byte counts (R331). -/
structure HashLane where
  init : Bool := false
  sha : List (BitVec 32) := []
  buf : List Byte := []
  crc : BitVec 64 := 0
  count : Nat := 0
  poison : Bool := false
  deriving DecidableEq, Repr

/-- A cipher context: AES-256-GCM state (R332): IV, next counter, GHASH accumulator, bytes processed. -/
structure CipherCtx where
  init : Bool := false
  iv : BitVec 96 := 0
  ctr : BitVec 32 := 0
  ghash : BitVec 128 := 0
  count : Nat := 0
  poison : Bool := false
  readyAt : Nat := 0
  deriving DecidableEq, Repr

/-- Ops of a bundle (R328 to R334), with their operands. -/
inductive HOp where
  | ld (vd : BitVec 5) (ag : BitVec 3)
  | st (srcP : Bool) (reg : BitVec 5) (ag : BitVec 3)
  | sta (srcP : Bool) (reg : BitVec 5) (ag : BitVec 3) (last : Bool) (row : BitVec 4) (col : BitVec 7)
  | mac (pbase np1 : BitVec 4) (vs : BitVec 5) (col : BitVec 7) (lcc clr : Bool)
  | gfOut (ps : BitVec 4) (vd : BitVec 5)
  | cld (row : BitVec 4) (vs : BitVec 5) (half : Bool)
  | hsInit (h : BitVec 2)
  | upd (h : BitVec 2) (vs : BitVec 5) (sel : BitVec 2)
  | updn (h : BitVec 2) (vs : BitVec 5) (sel : BitVec 2) (n1 : BitVec 6)
  | fin (h : BitVec 2) (vd : BitVec 5) (crc : Bool) (off : BitVec 3)
  | hsSave (h : BitVec 2) (vd : BitVec 5)
  | hsRest (h : BitVec 2) (vs : BitVec 5)
  | crInit (k : BitVec 2) (vs : BitVec 5)
  | enc (k : BitVec 2) (vd vs : BitVec 5)
  | dec (k : BitVec 2) (vd vs : BitVec 5)
  | crTag (k : BitVec 2) (vd : BitVec 5) (off : BitVec 3)
  | crSave (k : BitVec 2) (vd : BitVec 5)
  | crRest (k : BitVec 2) (vs : BitVec 5)
  | alXor (vd va vb : BitVec 5)
  | alAnd (vd va vb : BitVec 5)
  | alOr (vd va vb : BitVec 5)
  | alMov (vd va : BitVec 5)
  | zero (vd : BitVec 5)
  | inslc (vd : BitVec 5) (off : BitVec 5) (l : Bool)
  | neq (bit : BitVec 6) (va vb : BitVec 5)
  | ptest (bit : BitVec 6) (va : BitVec 5)
  | nop
  | loop (level : Bool) (csel : BitVec 3) (endAddr : BitVec 12)
  | idle (n1 : BitVec 12)
  | agrst (ag : BitVec 3)
  | endOp
  deriving DecidableEq, Repr

/-- A result on its way to a register (R336): the cycle it lands and what it writes. -/
inductive Landing where
  /-- Whole V register. -/
  | v (vd : Nat) (r : VReg) (load : Bool)
  /-- Bytes `off` onward of a V register (FIN, TAG, INSLC). -/
  | vBytes (vd off : Nat) (bytes : List Byte) (poison : Bool)
  | p (pd : Nat) (r : PReg)
  | coef (row : Nat) (cols : List (Nat × Byte)) (poison : Bool)
  deriving DecidableEq, Repr

/-- A pending landing with its cycle. -/
structure Land where
  cycle : Nat
  what : Landing
  deriving DecidableEq, Repr

/-- A hardware loop level (R339): counter, active, count, start and end addresses. -/
structure LoopLevel where
  lc : Nat := 0
  active : Bool := false
  count : Nat := 0
  start : Nat := 0
  stop : Nat := 0
  deriving DecidableEq, Repr

/-- A launch-queue entry (R188, R192): the leg, what it runs, its parameters and its key. -/
structure Launch where
  port : Nat
  tag : Nat
  /-- None for VERIFY; ROM 1 to 6; store slot 0x8000 + j. -/
  recipe : Option Nat
  key : Nat
  addr : Nat
  len : Nat
  ref : Nat := 0
  mode : Nat := 0
  deriving DecidableEq, Repr

/-- A prepared launch (R351): the parameter block it read, its poisoned beats, the key it is bound to. -/
structure Prepared where
  launch : Launch
  block : List Byte
  poisons : List Nat
  key : Option (BitVec 256)
  /-- The shards a recipe 0x0002 uses (R394). -/
  used : List Nat := []
  deriving DecidableEq, Repr

/-- An accumulate queue entry (R296). -/
structure StaBeat where
  addr : Nat
  coef : Byte
  data : BitVec 512
  poison : Bool
  last : Bool
  deriving DecidableEq, Repr

/-- A store slot's image (R357). -/
structure Image where
  profile : BitVec 8
  flags : BitVec 8
  preload : Nat
  counts : List Nat
  csrc : BitVec 8
  agUse : BitVec 16
  words : List (BitVec 32)
  deriving DecidableEq, Repr

/-- LOAD-RECIPE staging of an engine (R358). -/
structure Staging where
  slot : Nat
  bytes : Tab (BitVec 8)
  deriving DecidableEq, Repr

/-- How a leg ended: status, LEG_INFO if it writes one, residual, whether a byte moved, DETAIL0 and DETAIL1, sense
data, and where a GOTO or TEST continues. -/
structure LegResult where
  status : BitVec 8
  info : Option (BitVec 64) := none
  residual : Nat := 0
  moved : Bool := false
  d0 : BitVec 8 := 0
  d1 : BitVec 8 := 0
  sense : List Byte := []
  jump : Option Nat := none
  deriving DecidableEq, Repr

/-- One hamper engine. -/
structure Engine where
  v : Tab VReg := []
  /-- Accumulators as OUT, ST and STA read them, and as MAC goes on with them (R337). -/
  p : Tab PReg := []
  pNow : Tab PReg := []
  ag : Tab AddrGen := []
  agStart : Tab AddrGen := []
  h : Tab HashLane := []
  k : Tab CipherCtx := []
  /-- Coefficient store, at 96 × row + column; row halves (2 × row + half) loaded from poisoned registers. -/
  coef : Tab Byte := []
  coefPoison : List Nat := []
  loop0 : LoopLevel := {}
  loop1 : LoopLevel := {}
  counts : Tab Nat := []
  res : BitVec 64 := 0
  /-- The running launch, whether END has issued, the recipe cycle, the bundle being gathered and its address. -/
  running : Option Prepared := none
  ended : Bool := false
  /-- How the leg ends once everything the recipe issued has taken effect: none OK with RES (R343, R349). -/
  late : Option LegResult := none
  cycle : Nat := 0
  /-- The quarter's row number at cycle 0 (R295). -/
  startRow : Nat := 0
  bundle : List HOp := []
  bundleAddr : Nat := 0
  lands : List Land := []
  /-- Accumulate queues: 0 local, 1 up, 2 down (R296). -/
  sta : Tab (List StaBeat) := []
  prepared : Option Prepared := none
  queue : List Launch := []
  slots : Tab Image := []
  /-- Slots to erase once no store recipe is queued or running (R360). -/
  eraseSlots : List Nat := []
  staging : Option Staging := none
  profile : BitVec 8 := 0x0A
  /-- A profile change waits for its swap (R79). -/
  profileNext : Option (BitVec 8) := none
  /-- The profile the active table was made for (R79, R311). -/
  tableProfile : BitVec 8 := 0x0A
  agUse : BitVec 16 := 0
  trap : Bool := false
  keyErased : Bool := false
  deriving DecidableEq, Repr

/-! ### DMA (R420 to R432) -/

/-- A COPY leg's job on a channel (R185, R431). -/
structure CopyJob where
  port : Nat
  tag : Nat
  src : Nat
  dst : Nat
  len : Nat
  stop : Bool
  deriving DecidableEq, Repr

/-- A DMA channel's registers and its run. -/
structure DmaChannel where
  shadowArm : Bool := false
  auto : Bool := false
  en : Bool := false
  irqDest : BitVec 2 := 0
  irqEn : Bool := false
  trigSrc : BitVec 2 := 0
  trigSel : BitVec 5 := 0
  busy : Bool := false
  shadowBusy : Bool := false
  fieldRefused : Bool := false
  done : Bool := false
  overrun : Bool := false
  status : BitVec 4 := 0
  budget : BitVec 16 := 64
  pend : Nat := 0
  count : BitVec 16 := 0
  resid : BitVec 24 := 0
  shadow : Tab (BitVec 16) := []
  act : Tab (BitVec 16) := []
  /-- The run in progress has ended with this status and residual (R428); its DMA_RUN_END reports it. -/
  outcome : Option (Nat × Nat) := none
  copy : Option CopyJob := none
  /-- The descriptor under execution (none before the hand-over), its number in the run, whether a host read is out,
  the bytes written, whether a poisoned beat went to host memory. -/
  desc : List Byte := []
  descNo : Nat := 0
  reading : Bool := false
  written : Nat := 0
  sawPoison : Bool := false
  deriving DecidableEq, Repr

/-- A DMA timer (R429). -/
structure DmaTimer where
  en : Bool := false
  fieldRefused : Bool := false
  period : BitVec 32 := 0
  deriving DecidableEq, Repr

/-! ### Sehar cores (R433 to R492) -/

/-- Why a context is suspended (R479). -/
inductive Suspend where
  /-- IOWAIT: its port, its mask and the address updates of its spec, which land when it ends (R475). -/
  | iowait (port : Nat) (mask : Word) (updates : List (Nat × Word))
  | bmov
  | idle
  /-- A stake read: whether it acquires, and the D-space word its answer goes to, if an IN made it (R505). -/
  | stake (acquire : Bool) (dest : Option Nat)
  deriving DecidableEq, Repr

/-- A hidden gate record (R484). -/
structure GateRecord where
  ret : Word
  wp : Word
  sw : Word
  priv : Bool
  deriving DecidableEq, Repr

/-- A posted block move (R473). -/
structure BlockMove where
  window : Nat
  drain : Bool
  tag : Nat
  beats : Nat
  /-- Byte address in the stacks. -/
  addr : Nat
  phys : Bool
  /-- The window words of a drain as they stood when it was posted (R474). -/
  data : List Word := []
  deriving DecidableEq, Repr

/-- A branch waiting for its delay slot: the branch's own address, target if taken. -/
structure Delay where
  branch : Word
  target : Word
  taken : Bool
  /-- The slot is annulled (R455). -/
  annulled : Bool
  linkReg : Bool
  mispredict : Bool
  deriving DecidableEq, Repr

/-- One context (R440, R478, R490). -/
structure Ctx where
  pc : Word := 0
  wp : Word := 0
  lr : Word := 0
  /-- SW fields (R441). -/
  s : Bool := true
  ie : Bool := false
  n : Bool := false
  z : Bool := false
  cf : Bool := false
  vf : Bool := false
  hf : Bool := false
  epc : Word := 0
  esw : Word := 0
  ewp : Word := 0
  epriv : Bool := true
  cause : Word := 0
  cause2 : Word := 0
  eaddr : Word := 0
  rc : BitVec 13 := 0
  exl : Bool := false
  fieldRefused : Bool := false
  bd : Bool := false
  rpta : Bool := false
  xwp : Word := 0
  ubase : Word := 0xFFFF
  ulim : Word := 0
  wdog : Word := 0
  /-- Units of an EXEC leg's LIMIT beyond what SYS_WDOG holds (R214). -/
  wdogMore : Nat := 0
  /-- Cycles issued in user mode since the watchdog last decremented (R491). -/
  wdogCycles : Nat := 0
  /-- The watchdog has reached 0 and WATCHDOG has not been raised yet (R491). -/
  wdogDue : Bool := false
  csel : BitVec 5 := 0
  gate : Option GateRecord := none
  /-- The hidden repeat counter while a repeat runs (R461). -/
  rpt : Option Nat := none
  /-- RPT has issued and its first repetition has not (R462). -/
  rptFirst : Bool := false
  delay : Option Delay := none
  suspended : Option Suspend := none
  iaddr : Word := 0
  bmDone : BitVec 4 := 0
  bmPoison : BitVec 4 := 0
  bmErr : BitVec 4 := 0
  moves : List BlockMove := []
  stkSel : Word := 0
  /-- Result of the last STK_ACQ or STK_PEEK (R502). -/
  stkData : Word := 0
  stkAnswered : Bool := false
  mbSel : BitVec 8 := 0
  fbSel : BitVec 5 := 0
  deriving DecidableEq, Repr

/-- Where a delayed write goes (R453). -/
inductive WTarget where
  | dmem (a : Nat)
  | imem (a : Nat)
  | lr (c : Nat)
  | wp (c : Nat)
  | sw (c : Nat)
  | io (c port : Nat)
  deriving DecidableEq, Repr

/-- A write on its way (R453): visible to instructions issued at `due` or later. -/
structure Delayed where
  due : Nat
  target : WTarget
  value : Word
  deriving DecidableEq, Repr

/-- One Sehar core. -/
structure Core where
  cycle : Nat := 0
  cur : Nat := 0
  ctxs : Tab Ctx := []
  dmem : Tab Word := []
  imem : Tab Word := []
  /-- D-space and I-space words whose stored parity is wrong (R452, R474, R485). -/
  dParity : List Nat := []
  iParity : List Nat := []
  /-- The first D-space word with wrong parity that the instruction under way has read. -/
  parityHit : Option Word := none
  delayed : List Delayed := []
  halted : Bool := false
  /-- No engine heartbeat or held in reset. -/
  inReset : Bool := true
  cycleHi : Word := 0
  mispred : BitVec 32 := 0
  mispredHi : Word := 0
  gateBase : BitVec 8 := 0x20
  ready : BitVec 32 := 1
  irqPend : BitVec 16 := 0
  irqMask : BitVec 16 := 0
  irqCtx : BitVec 5 := 0
  /-- Branch predictor (R458): counters that differ from 1, history, return stack (top first). -/
  counters : Tab Nat := []
  history : BitVec 8 := 0
  returns : List Word := []
  /-- Doorbells: register bits and enables. Engines use 0; the system controller 0 DB_HOST, 1 DB_ENG0, 2 DB_ENG1, 3 DB_SEC. -/
  doorbells : Tab (BitVec 32) := []
  doorbellEn : Tab (BitVec 32) := []
  /-- FB_RD1 to FB_RD3 latches (R510). -/
  fbLatch : BitVec 48 := 0
  /-- Firmware interface ports outside the manual, as last written (R437). -/
  firmware : Tab Word := []
  /-- The EXEC leg the core runs: port, tag, its context and the data range (R214, R215). -/
  exec : Option (Nat × Nat) := none
  gated : Bool := false
  /-- No context is runnable: the core issues nothing (R479). -/
  stalled : Bool := false
  deriving DecidableEq, Repr

/-- A mailbox instance (R493, R498). -/
structure Mailbox where
  words : Tab Word := []
  full : Bool := false
  collision : Bool := false
  wake : Bool := false
  fieldRefused : Bool := false
  len : Nat := 0
  deriving DecidableEq, Repr

/-- A stake (R502, R504). -/
structure Stake where
  owner : Option Nat := none
  stale : Bool := false
  deriving DecidableEq, Repr

/-- A request waiting at a stake bank (R503): requester ID, stake, kind. -/
inductive StakeAsk where
  | acquire (req stake : Nat)
  | peek (req stake : Nat)
  | release (req stake : Nat) (after : List Nat)
  | islandReset (lo hi : Nat)
  deriving DecidableEq, Repr

/-- A mailbox request in service (R500): the mailbox, its words, whether through the secure mailbox. -/
structure Service where
  inst : Nat
  words : List Word
  /-- Its place in the order of receipt (R407), and the path and body of an apportionment commit that came by MCTP and has
  to wait for actions received before it. -/
  order : Nat := 0
  mctp : Option (MctpPath × List Byte) := none
  deriving DecidableEq, Repr

/-- A staged grant (R600): class, port, index and value. -/
structure Grant where
  cls : Nat
  port : Nat
  index : Nat
  value : List Byte
  deriving DecidableEq, Repr

/-- Completion records on the collector path (R37, R293), in order: the frame they are records of (none while an
engine's record waits for its collector slot, or a notice for the records before it), the engine or none. -/
structure CollectorRec where
  frame : Option Nat
  engine : Option Nat
  comp : Completion
  deriving DecidableEq, Repr

/-! ### Boot and device (R545 to R569) -/

/-- The boot flash (R550, R551). -/
structure Flash where
  active : Bool := false
  pending : Option Bool := none
  dirSeq : BitVec 32 := 0
  /-- Bytes of the image slots written by PLDM, by flash offset. -/
  images : Tab (BitVec 8) := []
  /-- The minimum security version in the fuses, and the SVN of the image accepted last (R552). DESIGN CHOICE 0 (log
  25). -/
  svnMin : BitVec 16 := 0
  svn : BitVec 16 := 0
  /-- Length of the image accepted last (R551). -/
  imageLen : Nat := 0
  /-- The directory has been read or written since the flash was fitted: the fields above are its content (R551). -/
  dirKnown : Bool := false
  /-- The newer sealed key store copy: entry and key; and which of the two copies holds it (R392, R550). -/
  keys : Tab (BitVec 256) := []
  keyCopy : Bool := false
  deriving DecidableEq, Repr

/-- Device-wide modes. -/
inductive DeviceMode where
  /-- Main rails absent or out of tolerance. -/
  | off
  /-- CX_RST_N asserted. -/
  | reset
  /-- The boot timeline runs; the row completed last (R554). -/
  | boot (row : Nat)
  | ready
  | recovery (why : Nat)
  /-- Thermal trip (R596). -/
  | tripped
  deriving DecidableEq, Repr

/-! ### Monument (R514 to R544) -/

/-- An S0 input's sampler (R522): consecutive high and low samples. -/
structure S0Input where
  high : Nat := 0
  low : Nat := 0
  /-- The high interval now running began after at least 10 low samples. -/
  good : Bool := false
  stuck : Bool := false
  overrate : Bool := false
  loggedAt : Option Nat := none
  deriving DecidableEq, Repr

/-- A log record without its CHAIN (R532). -/
structure LogRec where
  powerups : Nat
  uptime : Nat
  kind : Nat
  item : Nat
  old : List Byte
  new : List Byte
  /-- First 16 bytes of SHA-256 (R532). -/
  chain : List Byte
  deriving DecidableEq, Repr

/-- A reading (R526) as taken. -/
structure Reading where
  kind : Nat
  seq : Nat
  bytes : List Byte
  counters : List Nat
  status : BitVec 32
  /-- Number of its signature since sealing (R527). -/
  sigNo : Nat := 0
  deriving DecidableEq, Repr

/-- A flash checkpoint (R531): a reading, with the tamper latch. -/
structure Checkpoint where
  reading : Reading
  tamper : Bool
  deriving DecidableEq, Repr

/-- The Monument island. -/
structure Monument where
  powered : Bool := true
  /-- Crystal running (R588). -/
  crystal : Bool := true
  counters : Tab Nat := []
  /-- Tap baselines: 2p + d (R519, R520). -/
  taps : Tab Nat := []
  /-- The next payload sample is the new baseline (R520). -/
  rebase : Bool := true
  uptimeMs : Nat := 0
  powerups : Nat := 0
  readSeq : Nat := 0
  isSealed : Bool := false
  /-- Private key generation number; the key itself is `Config.signingKey`. -/
  keyNo : Nat := 0
  signatures : Nat := 0
  /-- INSTR, PERIOD and IMP (R534). -/
  instr : List Byte := List.replicate 16 0x20
  period : Nat := 60
  imp : Tab Nat := []
  paramGen : BitVec 32 := 0xFFFFFFFF
  log : List LogRec := []
  /-- Records the log holds in all (R530). -/
  logCap : Nat := 11264
  unlogged : Nat := 0
  logFull : Bool := false
  flashFault : Bool := false
  tamper : Bool := false
  coreRestart : Bool := false
  last : Option Reading := none
  /-- Readings on their way to the main domain, oldest first, and the next segment of the oldest (R528). -/
  sending : List Reading := []
  segment : Nat := 0
  /-- Uptime of the last requested or periodic reading (R525, R544). -/
  lastRequest : Option Nat := none
  /-- Uptime of the last periodic reading (R525, R544). -/
  lastPeriodic : Nat := 0
  /-- MON_PARAM_EN_N is asserted, as sampled with the last command line that samples it (R535). -/
  paramEn : Bool := false
  /-- The checkpoint ring by slot, and the slot written next (R530, R531). -/
  checkpoints : Tab Checkpoint := []
  nextSlot : Nat := 0
  /-- Commands sent to the log flash, oldest first (R592). -/
  spi : List FlashOp := []
  /-- The seal header is written (R530). -/
  header : List Byte := []
  /-- Consecutive-sample state: shelf power-good debounce and grace, S0 inputs (R521, R522). -/
  pgRun : Tab Nat := []
  pgLevel : BitVec 48 := 0
  pgHigh : Tab Nat := []
  s0 : Tab S0Input := []
  /-- Test pulse (R539): selected counter, queued pulses. -/
  test : Option Nat := none
  pulses : Nat := 0
  /-- The response of the verification port is being sent until this uptime (R537). -/
  uartUntil : Nat := 0
  /-- The island's IEEE 1149.1 segment is in the JTAG chain; after sealing a single bypass bit stands for it (R514,
  R536). -/
  jtagSegment : Bool := true
  /-- The model's own numbers of the writes tried on the log flash and of the readings taken (Config.flashTakes,
  Config.paramPin). -/
  flashTries : Nat := 0
  samples : Nat := 0
  deriving DecidableEq, Repr

/-- The metering view in the main domain (R529). -/
structure MonView where
  valid : Bool := false
  slot : Bool := false
  down : Bool := false
  sealedRec : Bool := false
  tamper : Bool := false
  seq : BitVec 32 := 0
  infoSeq : BitVec 32 := 0
  slot0 : List Byte := []
  slot1 : List Byte := []
  /-- Segments of the record firmware is receiving. -/
  incoming : List Byte := []
  publicKey : List Byte := []
  /-- Informative counts shown in the view and the hardware's exact counts, at 514p + 2t + d (R542). -/
  info : Tab Nat := []
  hardware : Tab Nat := []
  deriving DecidableEq, Repr

/-- The payload count of one direction of a host port (R519): dwords not yet in the tap, and the 8-bit step count that
the tap carries in Gray code. -/
structure PayloadTap where
  dwords : Nat := 0
  count : BitVec 8 := 0
  deriving DecidableEq, Repr

/-! ### The whole device -/

/-- Management and functions the principal sets (R8 to R10, R71, R77). -/
structure Manage where
  /-- The principal: a host port, or none for the BMC (R71). -/
  principal : Option Nat := none
  smbAddr : BitVec 2 := 0
  staged : List Grant := []
  outing : OutingCfg := {}
  /-- Outing choice as of each chain's last choice (R244). -/
  inForce : Tab OutingCfg := []
  sas : SasCfg := {}
  timetable : TimetableCfg := {}
  recipesExpert : Bool := false
  stackExpert : Bool := false
  stackMask : BitVec 8 := 0x0E
  entryMs : Nat := 1000
  copyExpert : Bool := false
  copyMax : Tab Nat := []
  /-- Key store entries: port × 4096 + handle (R390). -/
  keys : Tab (BitVec 256) := []
  /-- KEY-OP replies waiting for the sealed copy (R392), oldest first: source and reply data. -/
  keyReply : List (KilvorSrc × List Byte) := []
  deriving DecidableEq, Repr

/-- The machine. -/
structure State where
  mode : DeviceMode := .reset
  /-- DEV_REFCLK and SAS_REFCLK present (R588). -/
  devClk : Bool := true
  sasClk : Bool := true
  railsValid : Bool := true
  devMs : Nat := 0
  devEpoch : BitVec 16 := 0
  /-- Controllers' straps (R46): sampled arrangement of controller 0 and 1. -/
  bif0 : Option (BitVec 2) := none
  bif1 : Option (BitVec 2) := none
  /-- ADMIN_SEL as sampled (R70). -/
  adminSel : BitVec 4 := 0xF
  /-- The basic apportionment has been computed since the cold reset (R76). -/
  apportioned : Bool := false
  /-- Times of device restarts (R566). -/
  restarts : List Nat := []
  /-- A device restart waits for DEV_REFCLK (R588). -/
  waitClock : Bool := false
  deviceContain : Option Containment := none
  thermTrip : Bool := false
  /-- Sensor readings in °C by sensor ID (R595). -/
  sensors : Tab Int := []
  flash : Flash := {}
  ports : Tab Port := []
  trvs : List Trv := []
  /-- Arrival and ready-list sequence numbers. -/
  seqNo : Nat := 0
  admitting : List Admitting := []
  reservations : List Reservation := []
  extents : List ExtRun := []
  accums : List Accum := []
  /-- Buffer memory: bytes that differ from zero, by quarter × 2^36 + offset (R398). -/
  mem : List Host.Cell := []
  /-- Beats of the parked-traverse region as traverses were parked in them, with the model's own number of what each holds
  (R133, R398; Config.parkedByte). -/
  parked : Tab Nat := []
  /-- Poisoned beats: byte address / 64 (R408, R410). -/
  poison : List Nat := []
  /-- Poisoned beats whose reads are recorded as errors (R410), by byte address / 64. -/
  flaws : Tab Flaw := []
  shelves : Tab Shelf := []
  handles : Tab Handle := []
  chains : Tab SasPort := []
  quarters : Tab Quarter := []
  engines : Tab Engine := []
  dma : Tab DmaChannel := []
  timers : Tab DmaTimer := []
  /-- COPY legs that wait for a channel, in arrival order (R431). -/
  copyQueue : List CopyJob := []
  cores : Tab Core := []
  mailboxes : Tab Mailbox := []
  service : List Service := []
  stakes : Tab Stake := []
  stakeAsks : Tab (List StakeAsk) := []
  deviceBook : FieldBook := {}
  sasBooks : Tab FieldBook := []
  collector : List CollectorRec := []
  /-- Completions released by the collector, per port in order, to post (R37, R108). -/
  released : List Completion := []
  /-- The frame now running, counted since the quarters' alignment (R26, R37). -/
  frame : Nat := 0
  manage : Manage := {}
  mon : Monument := {}
  view : MonView := {}
  /-- The payload taps, 2p + d (R516, R519). -/
  taps : Tab PayloadTap := []
  /-- The model's own counter of free values (Config); not the spec's. -/
  fresh : Nat := 0
  /-- The model's own log of outward actions, newest first. -/
  out : List Output := []
  /-- Commands waiting, first in, first out. -/
  pending : List Instr := []
  deriving DecidableEq, Repr

/-- The machine in cold reset: rails valid, CX_RST_N asserted, every block at its reset value (R548, R549), the
Monument powered for the first time and unsealed (R534), no command waiting. -/
def State.reset : State := { cores := [(49, { inReset := false })] }

end Sys2Proof.Machine
end

