-- ==== Sys2Proof/Machine/Ops.lean ====
section
/-! DEFINITION. The named operations over the state that every block shares: records by number, bytes and words,
buffer memory and poison, field books, interrupts, completions, extents, reservations. -/

namespace Sys2Proof.Machine

/-- Every value of a table changed alike. -/
def Tab.mapVals {α β : Type} (t : Tab α) (f : α → β) : Tab β := t.map fun kv => (kv.1, f kv.2)

/-- The outcome every command answers: the next state. -/
abbrev Ans := Host.Outcome State Fault Refusal

/-! ### Bytes and fields -/

/-- Little-endian value of a byte string (R11). -/
def leNat : List Byte → Nat
  | [] => 0
  | b :: bs => b.toNat + 256 * leNat bs

/-- `n` little-endian bytes of a value (R11). -/
def leBytes : Nat → Nat → List Byte
  | 0, _ => []
  | n + 1, v => BitVec.ofNat 8 v :: leBytes n (v / 256)

/-- Big-endian bytes. -/
def beBytes (n v : Nat) : List Byte := (leBytes n v).reverse

/-- Big-endian value. -/
def beNat (bs : List Byte) : Nat := leNat bs.reverse

/-- The field of `n` bytes at `off` as a number (R11). -/
def fieldAt (bs : List Byte) (off n : Nat) : Nat := leNat ((bs.drop off).take n)

/-- Byte `i`, 0 past the end. -/
def byteAt (bs : List Byte) (i : Nat) : Nat := (bs.getD i 0).toNat

/-- Bits [hi:lo] of a number. -/
def bitsOf (v hi lo : Nat) : Nat := (v / 2 ^ lo) % 2 ^ (hi + 1 - lo)

/-- All bytes from `off`, `n` of them, are zero. -/
def zeroAt (bs : List Byte) (off n : Nat) : Bool := ((bs.drop off).take n).all (· == 0)

/-- Byte string with `new` written at `off`; the string keeps its length. -/
def patchBytes (bs : List Byte) (off : Nat) (new : List Byte) : List Byte :=
  (bs.take off ++ new ++ bs.drop (off + new.length)).take bs.length

/-- The 16-bit words of a byte string, low byte first. -/
def toWords : List Byte → List Word
  | [] => []
  | [a] => [BitVec.ofNat 16 a.toNat]
  | a :: b :: t => BitVec.ofNat 16 (a.toNat + 256 * b.toNat) :: toWords t

/-- The bytes of 16-bit words, low byte first. -/
def ofWords : List Word → List Byte
  | [] => []
  | w :: t => BitVec.ofNat 8 w.toNat :: BitVec.ofNat 8 (w.toNat / 256) :: ofWords t

/-- Bit test of a number. -/
def bitN (v i : Nat) : Bool := v.testBit i

/-- 1 for true. -/
def b2n (b : Bool) : Nat := if b then 1 else 0

/-- A beat's 64 bytes. -/
def beatBytes (d : BitVec 512) : List Byte := (List.range 64).map fun i => (d >>> (8 * i)).setWidth 8

/-- The beat of up to 64 bytes. -/
def beatOf (bs : List Byte) : BitVec 512 := BitVec.ofNat 512 (leNat (bs.take 64))

/-! ### The device CRC-16 (R408, R409) -/

/-- One byte, most significant bit first, into the CRC-16 with polynomial 0x8BB7 (R408). -/
def crc16Byte (c : BitVec 16) (b : Byte) : BitVec 16 :=
  (List.range 8).foldl (fun c _ => if c.getLsbD 15 then (c <<< 1) ^^^ 0x8BB7 else c <<< 1) (c ^^^ (b.setWidth 16 <<< 8))

/-- The CRC-16 of a byte string (R408). -/
def crc16 (bs : List Byte) : BitVec 16 := bs.foldl crc16Byte 0

/-- The check word of a beat, clean or poisoned (R408). -/
def checkFor (d : BitVec 512) (poison : Bool) : BitVec 16 :=
  let c := crc16 (beatBytes d)
  if poison then ~~~c else c

/-- A beat with this check word is delivered or stored poisoned (R409, R410). -/
def poisonOf (d : BitVec 512) (check : BitVec 16) : Bool := check ≠ checkFor d false

/-- The check word matches neither the clean nor the poisoned one: a CRC-ERROR (R410). -/
def checkError (d : BitVec 512) (check : BitVec 16) : Bool := check ≠ checkFor d false && check ≠ checkFor d true

/-- The errors that a write of these beats ends: their own, and that of a check-region beat whose other 31 words are
rewritten as poisoned (R411). -/
def clearFlaws (fl : Tab Flaw) (beats : List Nat) : Tab Flaw :=
  fl.filter fun x => match x.2 with
    | .checkBeat => !(beats.any fun b => b / 32 = x.1 / 32)
    | _ => x.1 ∉ beats

/-! ### Records by number -/

def State.port (s : State) (p : Nat) : Port := s.ports.get p {}
def State.setPort (s : State) (p : Nat) (x : Port) : State := { s with ports := s.ports.set p x }
def State.modPort (s : State) (p : Nat) (f : Port → Port) : State := s.setPort p (f (s.port p))
def State.shelf (s : State) (i : Nat) : Shelf := s.shelves.get i {}
def State.setShelf (s : State) (i : Nat) (x : Shelf) : State := { s with shelves := s.shelves.set i x }
def State.modShelf (s : State) (i : Nat) (f : Shelf → Shelf) : State := s.setShelf i (f (s.shelf i))
def State.handle (s : State) (h : Nat) : Handle := s.handles.get h {}
def State.setHandle (s : State) (h : Nat) (x : Handle) : State := { s with handles := s.handles.set h x }
def State.modHandle (s : State) (h : Nat) (f : Handle → Handle) : State := s.setHandle h (f (s.handle h))
def State.chain (s : State) (c : Nat) : SasPort := s.chains.get c {}
def State.setChain (s : State) (c : Nat) (x : SasPort) : State := { s with chains := s.chains.set c x }
def State.modChain (s : State) (c : Nat) (f : SasPort → SasPort) : State := s.setChain c (f (s.chain c))
def State.quarter (s : State) (q : Nat) : Quarter := s.quarters.get q {}
def State.setQuarter (s : State) (q : Nat) (x : Quarter) : State := { s with quarters := s.quarters.set q x }
def State.modQuarter (s : State) (q : Nat) (f : Quarter → Quarter) : State := s.setQuarter q (f (s.quarter q))
def State.engine (s : State) (e : Nat) : Engine := s.engines.get e {}
def State.setEngine (s : State) (e : Nat) (x : Engine) : State := { s with engines := s.engines.set e x }
def State.modEngine (s : State) (e : Nat) (f : Engine → Engine) : State := s.setEngine e (f (s.engine e))
def State.channel (s : State) (ch : Nat) : DmaChannel := s.dma.get ch {}
def State.setChannel (s : State) (ch : Nat) (x : DmaChannel) : State := { s with dma := s.dma.set ch x }
def State.modChannel (s : State) (ch : Nat) (f : DmaChannel → DmaChannel) : State :=
  s.setChannel ch (f (s.channel ch))
def State.core (s : State) (k : Nat) : Core := s.cores.get k {}
def State.setCore (s : State) (k : Nat) (x : Core) : State := { s with cores := s.cores.set k x }
def State.modCore (s : State) (k : Nat) (f : Core → Core) : State := s.setCore k (f (s.core k))
def State.mailbox (s : State) (i : Nat) : Mailbox := s.mailboxes.get i {}
def State.setMailbox (s : State) (i : Nat) (x : Mailbox) : State := { s with mailboxes := s.mailboxes.set i x }

/-- Context `c` of a core: after an island reset only context 0 is ready, the others hold reset values (R480). -/
def Core.ctx (k : Core) (c : Nat) : Ctx := k.ctxs.get c {}
def Core.setCtx (k : Core) (c : Nat) (x : Ctx) : Core := { k with ctxs := k.ctxs.set c x }

/-- An outward action happens. -/
def State.emit (s : State) (o : Output) : State := { s with out := o :: s.out }

/-! ### Numbering (R21 to R23, R250) -/

def partyOfEngine (e : Nat) : Nat := e / 4
def quarterOfParty (p : Nat) : Nat := p / 3
def chainOfShelf (s : Nat) : Nat := s / 4
def homeQuarter (p : Nat) : Nat := p / 2
def chainOfHandle (h : Nat) : Nat := h / 512
/-- A drive handle: offsets 0 to 383 of its chain (R250). -/
def isDriveHandle (h : Nat) : Bool := h < 6144 && h % 512 < 384
/-- The shelf of a drive handle (R250). -/
def shelfOfHandle (h : Nat) : Nat := 4 * (h / 512) + (h % 512) / 96
/-- The slot of a drive handle (R250). -/
def slotOfHandle (h : Nat) : Nat := (h % 512) % 96
/-- The drive handle of a shelf's slot (R250). -/
def driveHandle (s slot : Nat) : Nat := 512 * (s / 4) + 96 * (s % 4) + slot
/-- The enclosure services handle of a shelf (R250). -/
def enclosureHandle (s : Nat) : Nat := 512 * (s / 4) + 384 + s % 4

/-! ### Sidebands of the open arbiter's requesters (R317) -/

/-- Channel engines of a party. -/
def partyCores (party : Nat) : List Nat := (List.range 4).map (4 * party + ·)

/-- A requester's reset or power-gate sideband is asserted (R317): its engine group is gated or in reset, the system
controller is in reset, every created port is held by PERST_N, every SAS port of the quarter is gated. -/
def State.sideband (s : State) (q req : Nat) : Bool :=
  if req < 3 then (partyCores (3 * q + req)).all fun k => (s.core k).gated || (s.core k).inReset
  else if req = 11 then (s.core 48).inReset
  else if req = 12 then s.ports.all fun p => !p.2.created || p.2.perst
  else req = 15 && (List.range 3).all fun i => (s.chain (3 * q + i)).gated

/-- TT_OA_MASK (R317). -/
def State.oaMask (s : State) (q : Nat) : BitVec 16 :=
  (s.quarter q).masked ||| BitVec.ofNat 16 (((List.range 16).filter (s.sideband q)).foldl (fun n i => n + 2 ^ i) 0)

/-! ### Buffer memory (R98, R398 to R400, R411) -/

/-- Extents per quarter (R400). -/
def extentsPerQuarter : Nat := 753664

/-- The byte an address of the stacks holds: start-up zeroes every beat (R402, R554), so an unlisted byte is 0. -/
def memByte : List Host.Cell → Nat → Byte
  | [], _ => 0
  | (b, v) :: t, a => if b = a then v else memByte t a

/-- One byte written, keeping the list sorted and free of zero bytes. -/
def memPut : List Host.Cell → Nat → Byte → List Host.Cell
  | [], a, v => if v = 0 then [] else [(a, v)]
  | (b, w) :: t, a, v =>
    if a < b then (if v = 0 then (b, w) :: t else (a, v) :: (b, w) :: t)
    else if a = b then (if v = 0 then t else (a, v) :: t)
    else (b, w) :: memPut t a v

/-- The canonical form: addresses rise strictly from `lo` and no listed byte is 0. -/
def memWf : Nat → List Host.Cell → Bool
  | _, [] => true
  | lo, (a, v) :: t => decide (lo ≤ a) && decide (v ≠ 0) && memWf (a + 1) t

/-- The memory is in canonical form. -/
def Memory.wf (m : List Host.Cell) : Bool := memWf 0 m

/-- A sorted set of numbers with `b` in or out. -/
def setMember : List Nat → Nat → Bool → List Nat
  | [], b, v => if v then [b] else []
  | x :: t, b, v =>
    if b < x then (if v then b :: x :: t else x :: t)
    else if b = x then (if v then x :: t else t)
    else x :: setMember t b v

/-- Byte address in the stacks of byte `off` of extent `h`: quarter × 2^36 + offset (R398, R400). -/
def extAddr (h off : Nat) : Nat :=
  (h / extentsPerQuarter) * 2 ^ 36 + (h % extentsPerQuarter) * 65536 + off

/-- A buffer position counts bytes through consecutive handles (R125): position → byte address. -/
def bufAddr (pos : Nat) : Nat := extAddr (pos / 65536) (pos % 65536)

/-- The buffer position of a buffer address (R98): handle and offset. -/
def bufPos (a : BitVec 64) : Nat := a.toNat % 2 ^ 38

/-- A buffer address: bit 63 set, bits [62:38] 0 (R98). -/
def isBufAddr (a : BitVec 64) : Bool := a.getLsbD 63
def bufAddrOk (a : BitVec 64) : Bool := !isBufAddr a || bitsOf a.toNat 62 38 == 0

/-- The quarter of a buffer position. -/
def posQuarter (pos : Nat) : Nat := pos / 65536 / extentsPerQuarter

/-- Bytes of buffer memory from a position. -/
def State.readBuf (s : State) (pos n : Nat) : List Byte :=
  (List.range n).map fun i => memByte s.mem (bufAddr (pos + i))

/-- The beats (byte address / 64) that a buffer range touches. -/
def beatsOf (pos n : Nat) : List Nat :=
  if n = 0 then []
  else (List.range ((pos + n - 1) / 64 - pos / 64 + 1)).map fun i => bufAddr ((pos / 64 + i) * 64) / 64

/-- Index, within the range, of its first poisoned beat. -/
def State.firstPoison (s : State) (pos n : Nat) : Option Nat := (beatsOf pos n).findIdx? (· ∈ s.poison)

/-- A read of the range meets poison (R410, R412). -/
def State.poisoned (s : State) (pos n : Nat) : Bool := (s.firstPoison pos n).isSome

/-- Number of poisoned beats of a range. -/
def State.poisonCount (s : State) (pos n : Nat) : Nat := ((beatsOf pos n).filter (· ∈ s.poison)).length

/-- Bytes written one after another from a position. -/
def putBytes (m : List Host.Cell) (pos : Nat) : List Byte → List Host.Cell
  | [] => m
  | b :: bs => putBytes (memPut m (bufAddr pos) b) (pos + 1) bs

/-- The poison marks after a write of `n` bytes at `pos`: a whole beat takes the write's mark, a part of a beat
is poisoned if the old beat or the new bytes were (R411). -/
def poisonAfter (marks : List Nat) (pos n : Nat) (p : Bool) : List Nat :=
  if n = 0 then marks
  else (List.range ((pos + n - 1) / 64 - pos / 64 + 1)).foldl (fun acc i =>
    let lo := (pos / 64 + i) * 64
    let beat := bufAddr lo / 64
    let whole := decide (pos ≤ lo) && decide (lo + 64 ≤ pos + n)
    setMember acc beat (if whole then p else p || decide (beat ∈ acc))) marks

/-- A write to buffer memory, clean or poisoned (R411). -/
def State.writeBuf (s : State) (pos : Nat) (bs : List Byte) (p : Bool) : State :=
  { s with mem := putBytes s.mem pos bs, poison := poisonAfter s.poison pos bs.length p
           flaws := clearFlaws s.flaws (beatsOf pos bs.length) }

/-- Byte address of the parked-traverse region: the first 16 MiB of quarter 0's firmware region (R398). -/
def parkedBase : Nat := 0xB80000000

/-- A byte of the stacks. In a beat of the parked-traverse region as a traverse was parked in it, the state is held in a
layout the manual does not give: a free byte for each parked state (R133). -/
def State.stackByte (s : State) (a : Nat) : Byte := match s.parked.find (a / 64) with
  | some seed => Config.parkedByte seed (a % 256)
  | none => memByte s.mem a

/-- The bytes from a byte address of the stacks on. -/
def State.readPhys (s : State) (addr n : Nat) : List Byte := (List.range n).map fun i => s.stackByte (addr + i)

/-- One beat at a byte address of the stacks. -/
def State.readBeat (s : State) (addr : Nat) : BitVec 512 := beatOf (s.readPhys (addr / 64 * 64) 64)

/-- Bytes written one after another from a byte address of the stacks. -/
def putRun (m : List Host.Cell) (addr : Nat) (bs : List Byte) : List Host.Cell :=
  (List.range bs.length).foldl (fun m i => memPut m (addr + i) (bs.getD i 0)) m

/-- The beats of a range of the stacks, by number. -/
def physBeats (addr n : Nat) : List Nat :=
  if n = 0 then [] else (List.range ((addr + n - 1) / 64 - addr / 64 + 1)).map (addr / 64 + ·)

/-- A parked beat that is written becomes a beat like any other: its bytes are listed. -/
def State.unpark (s : State) (beat : Nat) : State :=
  if (s.parked.find beat).isNone then s
  else { s with parked := s.parked.erase beat, mem := putRun s.mem (64 * beat) (s.readPhys (64 * beat) 64) }

/-- A whole beat written at a byte address of the stacks. -/
def State.writeBeat (s : State) (addr : Nat) (d : BitVec 512) (p : Bool) : State :=
  let beat := addr / 64
  { s with mem := putRun s.mem (64 * beat) (beatBytes d), parked := s.parked.erase beat, poison := setMember s.poison beat p
           flaws := clearFlaws s.flaws [beat] }

/-- The stored check word of a beat, by its number (R408); none when on-die ECC cannot give it. -/
def State.checkWord (s : State) (beat : Nat) : Option (BitVec 16) := match s.flaws.find beat with
  | some (.word w) => some w
  | some .checkBeat => none
  | _ => some (checkFor (s.readBeat (64 * beat)) (decide (beat ∈ s.poison)))

/-- The poison marks after a write of `n` bytes at a byte address of the stacks, as in `poisonAfter` (R411). -/
def physPoisonAfter (marks : List Nat) (addr n : Nat) (p : Bool) : List Nat :=
  (physBeats addr n).foldl (fun acc beat =>
    let whole := decide (addr ≤ beat * 64) && decide (beat * 64 + 64 ≤ addr + n)
    setMember acc beat (if whole then p else p || decide (beat ∈ acc))) marks

/-- Bytes written at a byte address of the stacks; poison as for `writeBuf`. -/
def State.writePhys (s : State) (addr : Nat) (bs : List Byte) (p : Bool) : State :=
  let s1 := (physBeats addr bs.length).foldl State.unpark s
  { s1 with mem := putRun s1.mem addr bs, poison := physPoisonAfter s1.poison addr bs.length p
            flaws := clearFlaws s1.flaws (physBeats addr bs.length) }

/-- A range of the stacks meets poison. -/
def State.physPoisoned (s : State) (addr n : Nat) : Bool := (physBeats addr n).any fun b => decide (b ∈ s.poison)

/-! ### Time -/

/-- TIME of a record or packet: the device millisecond counter modulo 2^32 (R157). -/
def State.time32 (s : State) : Nat := s.devMs % 2 ^ 32

/-! ### Free values -/

/-- `n` free bytes, drawn fresh (undefined buffer content, R199, R603). -/
def State.freeBytes (s : State) (n : Nat) : List Byte × State :=
  ((List.range n).map fun i => Config.freeByte (s.fresh + i), { s with fresh := s.fresh + n })

/-- A free 64-bit value, drawn fresh (a LEG_INFO the manual does not state). -/
def State.freeInfo (s : State) : BitVec 64 × State :=
  (BitVec.ofNat 64 (Config.freeNat s.fresh), { s with fresh := s.fresh + 1 })

/-! ### Where beats lie in a stack (R399) -/

/-- The pseudo-channel of beat `n` of a stack, extents first and then the firmware and check regions (R399). -/
def pseudoChannel (n : Nat) : Nat := (n % 1024 ^^^ n / 1024) % 32

/-! ### Serial flash (R591, R592) -/

/-- Bytes to program cut at pages of 256 bytes: address and data. -/
def flashPages : Nat → Nat → List Byte → List (Nat × List Byte)
  | 0, _, _ => []
  | f + 1, addr, bs =>
    if bs.isEmpty then []
    else
      let k := 256 - addr % 256
      (addr, bs.take k) :: flashPages f (addr + k) (bs.drop k)

/-- Bytes programmed with a page-program command: write enable, program and status read for each page. -/
def progOps (op : BitVec 8) (addr : Nat) (bs : List Byte) : List FlashOp :=
  (flashPages (bs.length + 1) addr bs).flatMap fun (a, d) =>
    [{ op := 0x06 }, { op, addr := a, len := d.length, data := d }, { op := 0x05 }]

/-- `n` blocks of a size erased from an address. -/
def eraseOps (op : BitVec 8) (size addr n : Nat) : List FlashOp :=
  (List.range n).flatMap fun i => [{ op := 0x06 }, { op, addr := addr + i * size, len := size }, { op := 0x05 }]

/-- Commands sent to the boot flash. -/
def State.spi (s : State) (ops : List FlashOp) : State := ops.foldl (fun (s : State) o => s.emit (.spi o)) s

/-- A read of the boot flash: 0xEC with the dummy cycles of SFDP (R591). -/
def quadRead (addr len : Nat) : FlashOp := { op := 0xEC, addr, len, dummies := Config.quadDummies }

/-! ### Payload counts of the tenants (R519, R542) -/

/-- A TLP with `n` bytes of data at port `p`, direction 0 received or 1 sent: the port's tap takes its dwords (R519), and
the hardware's exact count of its tenant advances (R542). -/
def State.countTlp (s : State) (p d tenant n : Nat) : State :=
  let i := 514 * p + 2 * tenant + d
  let t := s.taps.get (2 * p + d) {}
  { s with
    view := { s.view with hardware := s.view.hardware.set i (s.view.hardware.get i 0 + n) }
    taps := s.taps.set (2 * p + d) { t with dwords := t.dwords + n / 4 } }

/-- A TLP of no traverse over a port whose link is up (R542). -/
def State.hostTlp (s : State) (p d n : Nat) : State :=
  if (s.port p).created && (s.port p).linkUp then s.countTlp p d 256 n else s

/-! ### MSI-X and port events (R66, R69) -/

/-- Reset values of the writable configuration dwords: Device Control has Relaxed Ordering enabled, no-snoop
enabled, a Max Payload Size of 128 and a Max Read Request Size of 512 bytes. PRESUMED (PCI Express Base 5.0, log 6). -/
def configReset (dword : Nat) : BitVec 32 := if dword = 30 then 0x2810 else 0

/-- A configuration dword as written, or its reset value. -/
def Port.cfg (p : Port) (dword : Nat) : Nat := (p.config.get dword (configReset dword)).toNat

/-- MSI-X Enable and Function Mask in the capability at 0x50 (R50, PCI Express Base 5.0). -/
def Port.msixEnable (p : Port) : Bool := bitN (p.cfg 20) 31
def Port.functionMask (p : Port) : Bool := bitN (p.cfg 20) 30

/-- A vector's message may be sent now (R69). -/
def Port.canSend (p : Port) (v : Nat) : Bool :=
  p.linkUp && !p.d3hot && p.msixEnable && !p.functionMask && !(p.msix.get v {}).masked

/-- A vector's message falls due: it is sent, or held with its pending bit set (R69). -/
def State.raiseVector (s : State) (p v : Nat) : State :=
  let x := s.port p
  if x.canSend v then
    let e := x.msix.get v {}
    (s.countTlp p 1 256 4).emit (.msix p v e.addr e.data)
  else s.setPort p { x with pba := setMember x.pba v true }

/-- An FN_STAT event bit sets; the port vector is sent when the bit was clear and its EVT_EN bit is 1 (R66). -/
def State.portEvent (s : State) (p bit : Nat) : State :=
  let x := s.port p
  if x.events.getLsbD bit then s
  else
    let s1 := s.setPort p { x with events := x.events ||| BitVec.ofNat 6 (2 ^ bit) }
    if x.evtEn.getLsbD bit then s1.raiseVector p 256 else s1

/-- A reserved access of a port: FN_UNCLAIMED counts it, saturating, and UNCLAIMED_HIT sets (R17, R66, R67). -/
def State.unclaimed (s : State) (p : Nat) : State :=
  let x := s.port p
  if x.unclaimed = BitVec.allOnes 32 then s
  else (s.setPort p { x with unclaimed := x.unclaimed + 1 }).portEvent p 4

/-- Every island of the main domain is without power or held in reset (R546, R596). -/
def State.held (s : State) : Bool := match s.mode with
  | .off | .reset | .tripped => true
  | _ => false

/-- The device is in recovery mode (R555). -/
def State.recovering (s : State) : Bool := match s.mode with
  | .recovery _ => true
  | _ => false

/-- A port's link can carry requests. -/
def State.linked (s : State) (p : Nat) : Bool := (s.port p).created && (s.port p).linkUp

/-- The port's registers can be reached: its link is up, it is in D0 and answers configuration requests (R52, R59). -/
def State.reachable (s : State) (p : Nat) : Bool := s.linked p && !(s.port p).d3hot && (s.port p).configured

/-- The port's doorbells, queues, mailboxes and book can be reached: in recovery mode they are reserved (R555). -/
def State.barOpen (s : State) (p : Nat) : Bool := s.reachable p && !s.recovering

/-- A host's access to one of them: an offset that recovery mode reserves is counted (R17, R555). -/
def State.barAccess (s : State) (p : Nat) (f : State → State) : State :=
  if !s.reachable p then s else if s.recovering then s.unclaimed p else f s

/-- A write to an FN_ register is refused (R18, R66). -/
def State.fnRefused (s : State) (p : Nat) : State := s.portEvent p 5

/-! ### Field books (R506 to R508) -/

/-- The header word of a packet (R507). -/
def fbHeader (typ len source : Nat) (seq : BitVec 32) : BitVec 64 :=
  BitVec.ofNat 64 (typ * 2 ^ 56 + len * 2 ^ 52 + source * 2 ^ 40 + seq.toNat)

/-- A packet accepted whole (R508): its words enter in order, the oldest words are overwritten for want of room and
counted in FB_LOST, and a packet being read whose next word is overwritten is torn. -/
def FieldBook.accept (b : FieldBook) (typ source : Nat) (payload : List Nat) : FieldBook :=
  let pkt : List FbWord := { data := fbHeader typ (payload.length + 1) source b.seq, sop := true } ::
    payload.map fun w => { data := BitVec.ofNat 64 w, sop := false }
  let excess := b.words.length + pkt.length - 1024
  { b with
    words := b.words.drop excess ++ pkt
    seq := b.seq + 1
    lost := BitVec.ofNat 32 (Nat.min (b.lost.toNat + excess) (2 ^ 32 - 1))
    stolen := b.stolen || (decide (0 < excess) && decide (0 < b.left)) }

/-- Interrupt source `src` of core `k` asserts (R491). -/
def State.irq (s : State) (k src : Nat) : State :=
  s.modCore k fun x => { x with irqPend := x.irqPend ||| BitVec.ofNat 16 (2 ^ src) }

/-- A packet to the device field book, with its notice (R508). -/
def State.toDevice (s : State) (typ source : Nat) (payload : List Nat) : State :=
  ({ s with deviceBook := s.deviceBook.accept typ source payload } : State).irq 48 1

/-- A packet to host port `p`'s field book: FB_NOTICE sets (R508). -/
def State.toPort (s : State) (typ source : Nat) (payload : List Nat) (p : Nat) : State :=
  (s.modPort p fun x => { x with book := x.book.accept typ source payload }).portEvent p 2

/-- A packet to SAS field book `c`. -/
def State.toSas (s : State) (typ source : Nat) (payload : List Nat) (c : Nat) : State :=
  ({ s with sasBooks := s.sasBooks.set c ((s.sasBooks.get c {}).accept typ source payload) } : State).irq 48 1

/-- A packet to quarter `q`'s field book. -/
def State.toQuarter (s : State) (typ source : Nat) (payload : List Nat) (q : Nat) : State :=
  (s.modQuarter q fun x => { x with book := x.book.accept typ source payload }).irq 48 1

/-- A packet to the field books of several ports. -/
def State.toPorts (s : State) (typ source : Nat) (payload : List Nat) (ps : List Nat) : State :=
  ps.foldl (fun s p => s.toPort typ source payload p) s

/-- Ports that the straps created (R46). -/
def State.created (s : State) : List Nat := (List.range 8).filter fun p => (s.port p).created

/-- A start-up or containment event (R567). -/
def devicePayload (s : State) (cause ports detail : Nat) : List Nat :=
  [s.time32 * 2 ^ 32 + cause * 2 ^ 24 + ports * 2 ^ 16 + detail]

/-- A start-up or containment event in the device field book (R567). -/
def State.deviceEvent (s : State) (typ cause ports detail : Nat) : State :=
  s.toDevice typ 0x30 (devicePayload s cause ports detail)

/-! ### Ownership and extents (R75, R400, R401) -/

/-- The port owns the shelf (R74). -/
def State.ownsShelf (s : State) (p sh : Nat) : Bool := (s.port p).ap.shelves.getLsbD sh && sh < 48

/-- The port owns drive handle `h` (R74, R250). -/
def State.ownsDrive (s : State) (p h : Nat) : Bool :=
  isDriveHandle h && ((s.port p).ap.drives.get (h / 512) 0).getLsbD (h % 512)

/-- The port owns at least one drive of the shelf. -/
def State.ownsDriveOn (s : State) (p sh : Nat) : Bool :=
  (List.range 96).any fun j => s.ownsDrive p (driveHandle sh j)

/-- The check of R75 for BOOK and RELEASE. -/
def State.mayBook (s : State) (p sh : Nat) : Bool := s.ownsShelf p sh || s.ownsDriveOn p sh

/-- The record run holding a handle. -/
def State.extRun (s : State) (h : Nat) : Option ExtRun :=
  s.extents.find? fun r => decide (r.first ≤ h) && decide (h < r.first + r.count)

/-- The owner of an extent: none for unlisted handles and for handles that name no extent (R400, R401). -/
def State.extOwner (s : State) (h : Nat) : Option Nat :=
  if h < 4 * extentsPerQuarter then (s.extRun h).bind (·.owner) else none

/-- The last port that owned an extent (R401). -/
def State.extLast (s : State) (h : Nat) : Option Nat := (s.extRun h).bind (·.last)

/-- The port owns the extent. -/
def State.ownsExtent (s : State) (p h : Nat) : Bool := s.extOwner h == some p

/-- A record run without the handles of [first, first + count). -/
def carveRun (first count : Nat) (r : ExtRun) : List ExtRun :=
  if r.first + r.count ≤ first || first + count ≤ r.first then [r]
  else
    (if r.first < first then [{ r with count := first - r.first }] else []) ++
    (if first + count < r.first + r.count then
      [{ r with first := first + count, count := r.first + r.count - (first + count) }] else [])

/-- The allocator records a new owner for a run of handles; the last owner is kept when it is given up (R401, R405). -/
def State.setOwner (s : State) (first count : Nat) (owner last : Option Nat) : State :=
  { s with extents := { first, count, owner, last } :: s.extents.flatMap (carveRun first count) }

/-- Extents of quarter `q` that a port has allocated. -/
def State.allocated (s : State) (p q : Nat) : Nat :=
  (s.extents.filter fun r => decide (r.owner = some p) && decide (r.first / extentsPerQuarter = q)).foldl
    (fun n r => n + r.count) 0

/-- The quarters that a run of extents lies in. -/
def quartersOf (first count : Nat) : List Nat :=
  (List.range 4).filter fun q => decide (first < (q + 1) * extentsPerQuarter) && decide (q * extentsPerQuarter < first + count)

/-- Modes that coexist (R124). -/
def coexist : RunMode → RunMode → Bool
  | .read, .read => true
  | .accum, .accum => true
  | _, _ => false

/-- Two runs share a handle. -/
def overlap (f1 c1 f2 c2 : Nat) : Bool := decide (f1 < f2 + c2) && decide (f2 < f1 + c1)

/-- A declared run cannot be reserved beside another (R124, R127). -/
def runConflict (a b : Run) : Bool := overlap a.first a.count b.first b.count && !coexist a.mode b.mode

/-- An extent is reserved by a live traverse, in any mode. -/
def State.reserved (s : State) (h : Nat) : Bool :=
  s.reservations.any fun r => decide (r.first ≤ h) && decide (h < r.first + r.count)

/-! ### Memory events (R410, R413, R415) -/

/-- Handle and offset naming a byte address of the stacks in a memory event. -/
def eventPlace (addr : Nat) : Nat × Nat :=
  let off := addr % 2 ^ 36 / 64 * 64
  (if off < extentsPerQuarter * 65536 then addr / 2 ^ 36 * extentsPerQuarter + off / 65536 else 0x3FFFFF, off)

/-- A memory event in the quarter's and the device's field books, and in that of the extent's owner (R415). -/
def State.memoryEvent (s : State) (q ev handle off : Nat) : State :=
  let payload := [s.time32 * 2 ^ 32 + ev * 2 ^ 24 + q * 2 ^ 22 + handle, off]
  let s1 := (s.toQuarter 0x50 (0x20 + q) payload q).toDevice 0x50 (0x20 + q) payload
  match s.extOwner handle with
  | some p => s1.toPort 0x50 (0x20 + q) payload p
  | none => s1

/-- The event of a beat, by its number. -/
def State.beatEvent (s : State) (ev beat : Nat) : State :=
  let (h, off) := eventPlace (64 * beat)
  s.memoryEvent (64 * beat / 2 ^ 36) ev h off

/-- The event that a read of a flawed beat records (R410). -/
def Flaw.event : Flaw → Nat
  | .word _ => 0x01
  | .ecc => 0x02
  | .checkBeat => 0x03

/-- Beats that a reader takes from the stacks: each one that fails its check records its event again (R410). -/
def State.met (s : State) (read : Nat → Bool) : State :=
  (s.flaws.filter fun x => read x.1).foldl (fun (s : State) x => s.beatEvent x.2.event x.1) s

/-- The buffer position of a beat's first byte. -/
def beatPos (beat : Nat) : Nat := 64 * beat / 2 ^ 36 * (extentsPerQuarter * 65536) + 64 * beat % 2 ^ 36

/-- A beat lies in a buffer range. -/
def inBuf (pos n beat : Nat) : Bool :=
  0 < n && 64 * beat % 2 ^ 36 < extentsPerQuarter * 65536 && pos / 64 * 64 ≤ beatPos beat && beatPos beat < pos + n

/-- The quarters of a buffer range. -/
def bufQuarters (pos n : Nat) : List Nat :=
  if n = 0 then [] else (List.range 4).filter fun q => decide (posQuarter pos ≤ q) && decide (q ≤ posQuarter (pos + n - 1))

/-! ### Stacks wake (R418) -/

/-- A request need not wait for the stack: it is not in self-refresh and not leaving it (R38, R320). -/
def Quarter.reachable (x : Quarter) : Bool :=
  x.stack = .active || x.stack = .entering || (x.stack = .exiting && !x.waking)

/-- A binding, reservation or request for a quarter whose stack sleeps or falls asleep starts its wake. -/
def State.wakeStack (s : State) (q : Nat) : State :=
  match (s.quarter q).stack with
  | .active | .exiting => s
  | .entering => s.modQuarter q fun x => { x with waking := true }
  | .selfRefresh => s.modQuarter q fun x => { x with stack := .exiting, waking := true }

/-- The stacks a run addresses wake (R418); they are all reachable now. -/
def State.reach (s : State) (qs : List Nat) : State × Bool :=
  (qs.foldl (fun (s : State) q => s.wakeStack q) s,
   qs.all fun q => (s.quarter q).reachable)

/-- Buffer memory is about to be read (R38, R410, R418): the stacks of the range wake, and once they are reachable the beats
that fail their checks record their events. Answers whether the range can be read now. -/
def State.readable (s : State) (pos n : Nat) : State × Bool :=
  let (s1, awake) := s.reach (bufQuarters pos n)
  (if awake then s1.met (inBuf pos n) else s1, awake)

/-- What needs the stacks of some quarters now is done once they are reachable; until then it waits for their wake, to be
tried again by the same command (R38, R418). -/
def State.whenAwake (s : State) (qs : List Nat) (f : State → State) : State :=
  let (s1, awake) := s.reach qs
  if awake then f s1 else s1

/-- What needs a buffer range read now is done once it can be read. -/
def State.whenReadable (s : State) (pos n : Nat) (f : State → State) : State :=
  let (s1, awake) := s.readable pos n
  if awake then f s1 else s1

/-! ### Runs of the DMA channels (R420, R424, R428) -/

/-- A trigger reaches a channel. -/
def State.trigger (s : State) (ch : Nat) : State :=
  let x := s.channel ch
  if !x.en then s
  else if !x.busy then s.setChannel ch { x with busy := true }
  else if x.pend < 255 then s.setChannel ch { x with pend := x.pend + 1 }
  else s.setChannel ch { x with overrun := true }

/-- The interrupt of a run's end (R422, R491): source 2 at the system controller, or at the four engines of a party. -/
def State.dmaIrq (s : State) (ch : Nat) : State :=
  let x := s.channel ch
  if !x.irqEn then s
  else if x.irqDest = 0 then s.irq 48 2
  else (List.range 4).foldl (fun (s : State) i => s.irq (12 * (ch / 8) + 4 * (x.irqDest.toNat - 1) + i) 2) s

/-- The end of a run is reported: status, residual, DONE and the count, in a channel as it goes on, with its interrupt and the
channels that an OK end triggers. -/
def State.reportRun (s : State) (ch : Nat) (x : DmaChannel) (st resid : Nat) : State :=
  let s1 := (s.setChannel ch { x with
    status := BitVec.ofNat 4 st, resid := BitVec.ofNat 24 resid, done := true, count := x.count + 1 }).dmaIrq ch
  if st = 0 then
    ((List.range 32).filter fun d => d ≠ ch && (s1.channel d).trigSrc = 2 && (s1.channel d).trigSel.toNat = ch).foldl
      (fun (s : State) d => s.trigger d) s1
  else s1

/-- Firmware has moved something through a channel of its own: a run that has ended OK. DESIGN CHOICE (log 63): the manual
does not say into which runs firmware divides its work. -/
def State.firmwareRun (s : State) (ch : Nat) : State := s.reportRun ch (s.channel ch) 0 0

/-! ### Traverses by port and tag -/

/-- The live traverse of a port with a tag (R100: at most one). -/
def State.trv? (s : State) (p tag : Nat) : Option Trv :=
  s.trvs.find? fun t => decide (t.port = p) && decide (t.tag = tag)

/-- The traverse's record replaced. -/
def State.putTrv (s : State) (t : Trv) : State :=
  { s with trvs := s.trvs.map fun u => if u.port = t.port ∧ u.tag = t.tag then t else u }

/-- The traverse's record removed. -/
def State.dropTrv (s : State) (p tag : Nat) : State :=
  { s with trvs := s.trvs.filter fun u => !(decide (u.port = p) && decide (u.tag = tag)) }

/-- An operation on the live traverse of a port with a tag; without one, nothing happens. -/
def State.withTrv (s : State) (p tag : Nat) (f : Trv → State) : State :=
  match s.trv? p tag with
  | some t => f t
  | none => s

/-- The declared mode of an extent, as the traverse declares it (R123, R124). -/
def Trv.modeOf (t : Trv) (h : Nat) : Option RunMode :=
  (t.runs.find? fun r => decide (r.first ≤ h) && decide (h < r.first + r.count)).map (·.mode)

/-- The modes of an access (R124). -/
inductive Access where
  | read | write | accum | any

/-- A mode permits an access (R124): READ reads, WRITE reads and writes, ACCUM serves ACCUMULATE, TEST and FLUSH-SPAN. -/
def permits : RunMode → Access → Bool
  | _, .any => true
  | .read, .read => true
  | .write, .read => true
  | .write, .write => true
  | .accum, .accum => true
  | _, _ => false

/-- Every extent a buffer range touches is declared in a mode that permits the access, and owned (R75, R125). -/
def State.rangeOk (s : State) (t : Trv) (pos n : Nat) (a : Access) : Bool :=
  (List.range ((pos + n - 1) / 65536 - pos / 65536 + 1)).all fun i =>
    let h := pos / 65536 + i
    s.ownsExtent t.port h && match t.modeOf h with
      | some m => permits m a
      | none => false

/-! ### Completions on their way (R37, R102 to R105) -/

/-- A completion starts for the collector (R37): one that no engine formed is a record of the frame now running; an
engine's waits for the engine's collector slot. -/
def State.collect (s : State) (engine : Option Nat) (c : Completion) : State :=
  { s with collector := s.collector ++
      [{ frame := if engine.isNone then some s.frame else none, engine, comp := c }] }

/-- The frame a port's notices become records of: after every completion of the port (R563). -/
def State.noticeFrame (s : State) (p : Nat) : Nat :=
  (s.collector.filter fun r => r.comp.port = p).foldl (fun f r => match r.frame with
    | some g => Nat.max f (g + 1)
    | none => f) s.frame

/-- A notice becomes a record once no engine's record of its port waits for its slot (R563). -/
def State.settleNotices (s : State) : State :=
  { s with collector := s.collector.map fun r =>
      if r.frame.isNone && r.engine.isNone &&
          !(s.collector.any fun x => x.frame.isNone && x.engine.isSome && x.comp.port = r.comp.port)
      then { r with frame := some (s.noticeFrame r.comp.port) } else r }

/-- The completion of an entry that starts no traverse (R100, R101, R105). It goes to the queue that CQID names as it is
formed: DESIGN CHOICE (log 60), R82 does not say which queue when CQID is rewritten before it is posted. -/
def entryCompletion (s : State) (p q tag : Nat) (urgent : Bool) (status : BitVec 8) (result station : Nat) :
    Completion :=
  { port := p, cq := ((s.port p).sqs.get q {}).cqid, tag, sq := q, status, entry := true, dataMoved := false,
    sense := false, dev := false, result := BitVec.ofNat 64 result, station, detail0 := 0, detail1 := 0, urgent,
    notice := false, epoch := 0, ends := false }

/-- An entry completes at once. -/
def State.completeEntry (s : State) (p q tag : Nat) (urgent : Bool) (status : BitVec 8) (result station : Nat) :
    State :=
  s.collect none (entryCompletion s p q tag urgent status result station)

/-! ### Writes to host memory (R53, R106, R599) -/

/-- Payload bytes of a TLP that carries `n` bytes from `addr`: whole dwords (R519). -/
def tlpBytes (addr n : Nat) : Nat := (addr % 4 + n + 3) / 4 * 4

/-- The tenant of a traverse's traffic; 256 for traffic of no live traverse (R529, R542). -/
def State.tenantOf (s : State) (p tag : Nat) : Nat := ((s.trv? p tag).map (·.tenant)).getD 256

/-- A write of a leg, record or status block to host memory: held while the port is in D3hot or its link is down (R599). -/
def State.hostWrite (s : State) (p tag addr : Nat) (bs : List Byte) (relaxed ep : Bool) : State :=
  let x := s.port p
  if x.linkUp && !x.d3hot then
    (s.countTlp p 1 (s.tenantOf p tag) (tlpBytes addr bs.length)).emit (.hostWrite p addr bs relaxed ep)
  else s.setPort p { x with heldWrites := x.heldWrites ++ [{ tag, tenant := s.tenantOf p tag, addr, bytes := bs, relaxed, ep }] }

/-- Max Payload Size and Max Read Request Size in bytes, as programmed in Device Control (R182), up to the
sizes supported (R48). -/
def Port.mps (x : Port) : Nat := Nat.min 512 (128 * 2 ^ bitsOf (x.cfg 30) 7 5)
def Port.mrrs (x : Port) : Nat := Nat.min 4096 (128 * 2 ^ bitsOf (x.cfg 30) 14 12)

/-- A host range cut at 4 KiB boundaries into pieces of at most `max` bytes: address and length (R182). -/
def pieces : Nat → Nat → Nat → Nat → List (Nat × Nat)
  | 0, _, _, _ => []
  | f + 1, max, addr, len =>
    if len = 0 then []
    else
      let k := Nat.min len (Nat.min max (4096 - addr % 4096))
      (addr, k) :: pieces f max (addr + k) (len - k)

/-- The pieces of a range. -/
def cut (max addr len : Nat) : List (Nat × Nat) := pieces (len / max + len / 4096 + 3) max addr len

/-- A write split into TLPs (R182). -/
def State.hostWrites (s : State) (p tag addr : Nat) (bs : List Byte) : State :=
  (cut (s.port p).mps addr bs.length).foldl
    (fun (s : State) (a, k) => s.hostWrite p tag a ((bs.drop (a - addr)).take k) false false) s

/-- The port can issue a host read: it is in D0 and its link is up, or its containment has begun (R599). -/
def Port.canRead (x : Port) : Bool := x.created && !x.d3hot && (x.linkUp || x.contain.isSome)

/-- Requests a port may have outstanding: 768 with 10-bit tags enabled in Device Control 2, else 256 (R48). -/
def Port.tagLimit (x : Port) : Nat := if bitN (x.cfg 38) 12 then 768 else 256

/-- Reads of the port in flight. -/
def Port.inFlight (x : Port) : Nat := (x.reads.filter (·.sent)).length

/-- The tenant whose traffic a read is (R542): a traverse's own fetches, its header's and run list's while it is being
admitted; ring reads and DMA belong to none. -/
def State.readTenant (s : State) (p : Nat) : ReadPurpose → Nat
  | .legs tag _ _ | .cdb tag | .operand tag | .stageIn tag _ | .stageBack tag | .readback tag => s.tenantOf p tag
  | .header | .runList => match s.admitting.find? fun a => a.port = p && a.reading with
    | some a => byteAt a.entry 4
    | none => 256
  | _ => 256

/-- A host read gets a new number (the model's own; the manual leaves tags to the device) and goes out, unless the port
has as many outstanding as it may (R48). -/
def State.issueRead (s : State) (p addr len : Nat) (why : ReadPurpose) : State :=
  let id := s.seqNo
  let sent := decide ((s.port p).inFlight < (s.port p).tagLimit)
  let s1 := ({ s with seqNo := s.seqNo + 1 } : State).modPort p fun x =>
    { x with reads := x.reads ++ [{ id, addr, len, purpose := why, sent, tenant := s.readTenant p why }] }
  if sent then s1.emit (.hostRead p id addr len) else s1

/-- A read that waits for a place goes out, the oldest first (R48). -/
def State.sendRead (s : State) (p : Nat) : State :=
  let x := s.port p
  match x.reads.find? fun r => !r.sent with
  | some r =>
    if x.inFlight < x.tagLimit && x.canRead then
      let reads := x.reads.map fun (u : HostRead) => if u.id = r.id then { u with sent := true } else u
      (s.setPort p { x with reads := reads }).emit (.hostRead p r.id r.addr r.len)
    else s
  | none => s

/-- Reads nothing awaits any more: one in flight keeps its request outstanding, one not yet sent is not sent. -/
def Port.dropReads (x : Port) (f : HostRead → Bool) : Port :=
  let kept := x.reads.filter fun r => r.sent || !f r
  { x with reads := kept.map fun (r : HostRead) => if f r then { r with purpose := .dropped } else r }

end Sys2Proof.Machine
end

