-- ==== Sys2Proof/Machine/Crypto.lean ====
section
/-! DEFINITION. Field arithmetic of the Ecath codes (R366, R371), CRC-32 (R309, R357), CRC-64 (R385), SHA-256
(FIPS 180-4, R386), AES-256 and GCM (FIPS 197, NIST SP 800-38D, R387, R388). -/

namespace Sys2Proof.Machine

/-! ### GF(2^8) with polynomial 0x11D (R366) -/

/-- One step of the multiplication loop of R366: the running product, the shifted operand, the bits left. -/
def gfStep (poly : Nat) (x : Nat × Nat × Nat) : Nat × Nat × Nat :=
  let (p, a, b) := x
  let p1 := if b % 2 = 1 then p ^^^ a else p
  let a1 := 2 * a
  (p1, if a1.testBit 8 then a1 ^^^ poly else a1, b / 2)

/-- Iterates a function. -/
def iterate {α : Type} (f : α → α) : Nat → α → α
  | 0, x => x
  | n + 1, x => iterate f n (f x)

/-- a × b modulo a polynomial. -/
def gfMulPoly (poly a b : Nat) : Nat := (iterate (gfStep poly) 8 (0, a % 256, b % 256)).1

/-- a × b in the Ecath field. -/
def gfMul (a b : Nat) : Nat := gfMulPoly 0x11D a b

/-- a^254, the inverse of a nonzero element. -/
def gfInvPoly (poly a : Nat) : Nat :=
  let a2 := gfMulPoly poly a a
  (iterate (fun (x : Nat × Nat) => (gfMulPoly poly x.1 x.2, gfMulPoly poly x.2 x.2)) 7 (1, a2)).1

/-- The inverse in the Ecath field. -/
def gfInv (a : Nat) : Nat := gfInvPoly 0x11D a

/-- A coefficient applied to bytes (R367). -/
def gfScale (c : Byte) (bs : List Byte) : List Byte := bs.map fun b => BitVec.ofNat 8 (gfMul c.toNat b.toNat)

/-- Bytewise XOR. -/
def xorBytes (a b : List Byte) : List Byte := List.zipWith (· ^^^ ·) a b

/-- Coefficient C[j][i] of a preset or span code with M parities (R371). -/
def cauchy (m j i : Nat) : Byte := BitVec.ofNat 8 (gfMul (m + i) (gfInv (j ^^^ (m + i))))

/-- The presets of the inner code (R371). -/
def presets : List (Nat × Nat) := [(8, 2), (10, 4), (16, 4), (20, 4), (24, 6), (40, 8), (60, 12)]

/-! ### Linear systems (R394) -/

/-- The first row with a nonzero entry in column `c`, taken out of the rows. -/
def takePivot (c : Nat) : List (List Byte × List Byte) → Option ((List Byte × List Byte) × List (List Byte × List Byte))
  | [] => none
  | r :: t =>
    if r.1.getD c 0 ≠ 0 then some (r, t)
    else (takePivot c t).map fun (x, rest) => (x, r :: rest)

/-- `r` with the multiple of the pivot row that clears column `c` added. -/
def clearColumn (c : Nat) (piv r : List Byte × List Byte) : List Byte × List Byte :=
  let k := r.1.getD c 0
  (xorBytes r.1 (gfScale k piv.1), xorBytes r.2 (gfScale k piv.2))

/-- Gauss-Jordan elimination over columns `c` to `c + n - 1`: done rows in column order, or none when singular. -/
def eliminate : Nat → Nat → List (List Byte × List Byte) → List (List Byte × List Byte) →
    Option (List (List Byte × List Byte))
  | 0, _, done, _ => some done
  | n + 1, c, done, rows =>
    match takePivot c rows with
    | none => none
    | some (piv, rest) =>
      let k := BitVec.ofNat 8 (gfInv (piv.1.getD c 0).toNat)
      let p1 := (gfScale k piv.1, gfScale k piv.2)
      eliminate n (c + 1) (done.map (clearColumn c p1) ++ [p1]) (rest.map (clearColumn c p1))

/-- The identity row `i` of length `n`. -/
def unitRow (n i : Nat) : List Byte := (List.range n).map fun j => if j = i then 1 else 0

/-- The inverse of a square matrix, none when it is singular. -/
def gfInverse (rows : List (List Byte)) : Option (List (List Byte)) :=
  let n := rows.length
  (eliminate n 0 [] ((List.range n).map fun i => (rows.getD i [], unitRow n i))).map fun l => l.map (·.2)

/-- A row of coefficients applied to columns of bytes of length `n`. -/
def gfCombine (n : Nat) (coefs : List Byte) (cols : List (List Byte)) : List Byte :=
  (List.zipWith gfScale coefs cols).foldl xorBytes (List.replicate n 0)

/-! ### CRCs -/

/-- One byte of the reflected CRC-32 of IEEE 802.3. -/
def crc32Byte (c : BitVec 32) (b : Byte) : BitVec 32 :=
  iterate (fun x : BitVec 32 => if x.getLsbD 0 then (x >>> 1) ^^^ 0xEDB88320 else x >>> 1) 8 (c ^^^ b.setWidth 32)

/-- CRC-32, IEEE 802.3. -/
def crc32 (bs : List Byte) : BitVec 32 := bs.foldl crc32Byte 0xFFFFFFFF ^^^ 0xFFFFFFFF

/-- One byte of CRC-64, most significant bit first (R385). -/
def crc64Byte (c : BitVec 64) (b : Byte) : BitVec 64 :=
  iterate (fun x : BitVec 64 => if x.getLsbD 63 then (x <<< 1) ^^^ 0x42F0E1EBA9EA3693 else x <<< 1) 8
    (c ^^^ (b.setWidth 64 <<< 56))

/-- CRC-64 (R385). -/
def crc64 (bs : List Byte) : BitVec 64 := bs.foldl crc64Byte 0

/-! ### SHA-256 (FIPS 180-4) -/

/-- Rotation of a word to the right. -/
def rotr (x : BitVec 32) (n : Nat) : BitVec 32 := (x >>> n) ||| (x <<< (32 - n))

/-- The round constants. -/
def shaK : List (BitVec 32) :=
  [0x428a2f98, 0x71374491, 0xb5c0fbcf, 0xe9b5dba5, 0x3956c25b, 0x59f111f1, 0x923f82a4, 0xab1c5ed5] ++
  [0xd807aa98, 0x12835b01, 0x243185be, 0x550c7dc3, 0x72be5d74, 0x80deb1fe, 0x9bdc06a7, 0xc19bf174] ++
  [0xe49b69c1, 0xefbe4786, 0x0fc19dc6, 0x240ca1cc, 0x2de92c6f, 0x4a7484aa, 0x5cb0a9dc, 0x76f988da] ++
  [0x983e5152, 0xa831c66d, 0xb00327c8, 0xbf597fc7, 0xc6e00bf3, 0xd5a79147, 0x06ca6351, 0x14292967] ++
  [0x27b70a85, 0x2e1b2138, 0x4d2c6dfc, 0x53380d13, 0x650a7354, 0x766a0abb, 0x81c2c92e, 0x92722c85] ++
  [0xa2bfe8a1, 0xa81a664b, 0xc24b8b70, 0xc76c51a3, 0xd192e819, 0xd6990624, 0xf40e3585, 0x106aa070] ++
  [0x19a4c116, 0x1e376c08, 0x2748774c, 0x34b0bcb5, 0x391c0cb3, 0x4ed8aa4a, 0x5b9cca4f, 0x682e6ff3] ++
  [0x748f82ee, 0x78a5636f, 0x84c87814, 0x8cc70208, 0x90befffa, 0xa4506ceb, 0xbef9a3f7, 0xc67178f2]

/-- The initial chaining value. -/
def shaInit : List (BitVec 32) :=
  [0x6a09e667, 0xbb67ae85, 0x3c6ef372, 0xa54ff53a, 0x510e527f, 0x9b05688c, 0x1f83d9ab, 0x5be0cd19]

/-- Big-endian 32-bit words of a byte string. -/
def beWords : List Byte → List (BitVec 32)
  | a :: b :: c :: d :: t => (a ++ b ++ c ++ d) :: beWords t
  | _ => []

/-- Big-endian bytes of 32-bit words. -/
def ofBeWords (l : List (BitVec 32)) : List Byte := l.flatMap fun w => beBytes 4 w.toNat

/-- The message schedule, newest word first, extended by one word. -/
def shaExtend (w : List (BitVec 32)) : List (BitVec 32) :=
  let w2 := w.getD 1 0
  let w15 := w.getD 14 0
  let s1 := rotr w2 17 ^^^ rotr w2 19 ^^^ (w2 >>> 10)
  let s0 := rotr w15 7 ^^^ rotr w15 18 ^^^ (w15 >>> 3)
  (s1 + w.getD 6 0 + s0 + w.getD 15 0) :: w

/-- One round with its constant and schedule word. -/
def shaRound (x : List (BitVec 32)) (kw : BitVec 32 × BitVec 32) : List (BitVec 32) :=
  match x with
  | [a, b, c, d, e, f, g, h] =>
    let s1 := rotr e 6 ^^^ rotr e 11 ^^^ rotr e 25
    let ch := (e &&& f) ^^^ (~~~e &&& g)
    let t1 := h + s1 + ch + kw.1 + kw.2
    let s0 := rotr a 2 ^^^ rotr a 13 ^^^ rotr a 22
    let maj := (a &&& b) ^^^ (a &&& c) ^^^ (b &&& c)
    [t1 + s0 + maj, a, b, c, d + t1, e, f, g]
  | _ => x

/-- A 64-byte block absorbed into a chaining value. -/
def shaBlock (h : List (BitVec 32)) (block : List Byte) : List (BitVec 32) :=
  let w := (iterate shaExtend 48 (beWords block).reverse).reverse
  List.zipWith (· + ·) h ((shaK.zip w).foldl shaRound h)

/-- Whole blocks absorbed, with the bytes left over. -/
def shaAbsorb : Nat → List (BitVec 32) → List Byte → List (BitVec 32) × List Byte
  | 0, h, bs => (h, bs)
  | n + 1, h, bs => if bs.length < 64 then (h, bs) else shaAbsorb n (shaBlock h (bs.take 64)) (bs.drop 64)

/-- Padding and finalisation of a lane that has absorbed `count` bytes, `buf` of them not yet in the chaining value. -/
def shaFinal (h : List (BitVec 32)) (buf : List Byte) (count : Nat) : List Byte :=
  let zeros := (119 - buf.length) % 64
  let padded := buf ++ [0x80] ++ List.replicate zeros 0 ++ beBytes 8 (8 * count)
  ofBeWords (shaAbsorb 2 h padded).1

/-- SHA-256 of a byte string. -/
def sha256 (bs : List Byte) : List Byte :=
  let (h, buf) := shaAbsorb (bs.length / 64 + 1) shaInit bs
  shaFinal h buf bs.length

/-! ### AES-256 (FIPS 197) -/

/-- The S-box: inverse modulo 0x11B, then the affine map. -/
def aesSub (b : Byte) : Byte :=
  let i := BitVec.ofNat 8 (gfInvPoly 0x11B b.toNat)
  i ^^^ i.rotateLeft 1 ^^^ i.rotateLeft 2 ^^^ i.rotateLeft 3 ^^^ i.rotateLeft 4 ^^^ 0x63

/-- The next key word from the words so far, newest first; `i` is its number. -/
def aesKeyWord (ws : List (List Byte)) (i : Nat) : List (List Byte) :=
  let prev := ws.getD 0 []
  let t :=
    if i % 8 = 0 then
      match prev.map aesSub with
      | a :: rest => xorBytes (rest ++ [a]) [BitVec.ofNat 8 (2 ^ (i / 8 - 1)), 0, 0, 0]
      | [] => []
    else if i % 8 = 4 then prev.map aesSub
    else prev
  xorBytes (ws.getD 7 []) t :: ws

/-- The 15 round keys of 16 bytes each. -/
def aesKeys (key : BitVec 256) : List (List Byte) :=
  let kb := beBytes 32 key.toNat
  let first := (List.range 8).map fun i => (kb.drop (4 * i)).take 4
  let ws := ((List.range 52).foldl (fun ws j => aesKeyWord ws (j + 8)) first.reverse).reverse
  (List.range 15).map fun r => ((ws.drop (4 * r)).take 4).flatten

/-- ShiftRows of a column-major state. -/
def aesShift (st : List Byte) : List Byte := (List.range 16).map fun i => st.getD ((i + 4 * (i % 4)) % 16) 0

/-- MixColumns. -/
def aesMix (st : List Byte) : List Byte :=
  (List.range 16).map fun i =>
    let c := 4 * (i / 4)
    let g (j k : Nat) : Byte := BitVec.ofNat 8 (gfMulPoly 0x11B k (st.getD (c + (i + j) % 4) 0).toNat)
    g 0 2 ^^^ g 1 3 ^^^ g 2 1 ^^^ g 3 1

/-- AES-256 encryption of a 16-byte block. -/
def aesBlock (keys : List (List Byte)) (block : List Byte) : List Byte :=
  let s0 := xorBytes block (keys.getD 0 [])
  let s1 := (List.range 13).foldl (fun st r => xorBytes (aesMix (aesShift (st.map aesSub))) (keys.getD (r + 1) [])) s0
  xorBytes (aesShift (s1.map aesSub)) (keys.getD 14 [])

/-! ### GCM (NIST SP 800-38D) -/

/-- One step of the GF(2^128) multiplication: product, shifted operand; bit `i` of `x` counts from the left. -/
def ghashStep (x : BitVec 128) (zv : BitVec 128 × BitVec 128) (i : Nat) : BitVec 128 × BitVec 128 :=
  let (z, v) := zv
  (if x.getLsbD (127 - i) then z ^^^ v else z,
   if v.getLsbD 0 then (v >>> 1) ^^^ (0xE1#128 <<< 120) else v >>> 1)

/-- x · y in the field of GHASH. -/
def ghashMul (x y : BitVec 128) : BitVec 128 := ((List.range 128).foldl (ghashStep x) (0, y)).1

/-- A 16-byte block as a GHASH element. -/
def gcmElem (b : List Byte) : BitVec 128 := BitVec.ofNat 128 (beNat b)

/-- The hash subkey. -/
def gcmH (keys : List (List Byte)) : BitVec 128 := gcmElem (aesBlock keys (List.replicate 16 0))

/-- The counter block of an IV. -/
def gcmCounter (iv : BitVec 96) (ctr : BitVec 32) : List Byte := beBytes 12 iv.toNat ++ beBytes 4 ctr.toNat

/-- The IV of R388: bytes 0 to 9 of OBJECT, then SHARD low byte first. -/
def gcmIv (object : List Byte) (shard : Nat) : BitVec 96 :=
  BitVec.ofNat 96 (beNat (object.take 10 ++ leBytes 2 shard))

/-- A context after INIT (R332): the next counter is 2. -/
def gcmInit (iv : BitVec 96) : CipherCtx := { init := true, iv, ctr := 2 }

/-- One 16-byte block through a context. -/
def gcmBlock (keys : List (List Byte)) (h : BitVec 128) (enc : Bool) (c : CipherCtx) (b : List Byte) :
    CipherCtx × List Byte :=
  let o := xorBytes b (aesBlock keys (gcmCounter c.iv c.ctr))
  let cipher := if enc then o else b
  ({ c with ctr := c.ctr + 1, ghash := ghashMul (c.ghash ^^^ gcmElem cipher) h, count := c.count + 16 }, o)

/-- Bytes, in multiples of 16, through a context. -/
def gcmRun (keys : List (List Byte)) (enc : Bool) : Nat → CipherCtx → List Byte → CipherCtx × List Byte
  | 0, c, _ => (c, [])
  | n + 1, c, bs =>
    let (c1, o) := gcmBlock keys (gcmH keys) enc c (bs.take 16)
    let (c2, rest) := gcmRun keys enc n c1 (bs.drop 16)
    (c2, o ++ rest)

/-- The tag of everything processed since INIT. -/
def gcmTag (keys : List (List Byte)) (c : CipherCtx) : List Byte :=
  let s := ghashMul (c.ghash ^^^ BitVec.ofNat 128 (8 * c.count)) (gcmH keys)
  xorBytes (beBytes 16 s.toNat) (aesBlock keys (gcmCounter c.iv 1))

/-- The check value of a key (R391): the first 4 bytes of the encryption of 16 zero bytes. -/
def keyCheckValue (key : BitVec 256) : List Byte := (aesBlock (aesKeys key) (List.replicate 16 0)).take 4

end Sys2Proof.Machine
end

