-- ==== Sys2Proof/Machine/TableGen.lean ====
section
/-! DEFINITION. Timetable rows, banks, the start table, the basic generator and the checks of a loaded table
(R280 to R284, R289, R291, R294, R299 to R302, R310, R556). -/

namespace Sys2Proof.Machine

/-! ### Rows and cells (R283) -/

/-- Byte `i` of a row. -/
def rowByte (r : BitVec 128) (i : Nat) : Nat := (r.extractLsb' (8 * i) 8).toNat

/-- A row from its 16 bytes. -/
def rowOf (bs : List Nat) : BitVec 128 := BitVec.ofNat 128 (leNat (bs.map (BitVec.ofNat 8)))

/-- A cell's owner and direction. -/
def cellOwner (c : Nat) : Nat := c / 4
def cellDir (c : Nat) : Nat := c % 4

/-- A cell from its owner and direction: 1 READ, 2 WRITE or LAUNCH, 3 ACCUM. -/
def mkCell (owner dir : Nat) : Nat := 4 * owner + dir

/-- Resource IDs (R282). -/
def idHP (p : Nat) : Nat := 1 + p
def idDMA : Nat := 0x09
def idSYS : Nat := 0x0A
def idBLK : Nat := 0x0B
def idSP (c : Nat) : Nat := 0x10 + c
def idHE (e : Nat) : Nat := 0x20 + e
def idEG (p : Nat) : Nat := 0x30 + p
def idRXU0 : Nat := 0x3C
def idRXU1 : Nat := 0x3D
def idRXD0 : Nat := 0x3E
def idRXD1 : Nat := 0x3F

/-- The refresh rows (R289). -/
def isRefreshRow (n : Nat) : Bool := n % 32 = 31

/-- The row of the start table (R556): OPEN but for REF and REFRESH. -/
def startRow (n : Nat) : BitVec 128 :=
  if isRefreshRow n then rowOf [0, 0, 0, 0, 0, 0, 0, 0, 1, 1, 0, 0, 0, 0, 0, 1] else 0

/-- Row `n` of a bank. -/
def bankRow (b : Tab (BitVec 128)) (n : Nat) : BitVec 128 := b.get n (startRow n)

/-- A bank from all its rows: it lists those that differ from the start table. -/
def bankOf (f : Nat → BitVec 128) : Tab (BitVec 128) :=
  ((List.range 4096).map fun n => (n, f n)).filter fun x => x.2 ≠ startRow x.1

/-- A bank with row `n` replaced. -/
def putRow (b : Tab (BitVec 128)) (n : Nat) (r : BitVec 128) : Tab (BitVec 128) :=
  if r = startRow n then b.erase n else b.set n r

/-- The active and the shadow bank of a quarter. -/
def Quarter.activeBank (x : Quarter) : Tab (BitVec 128) := if x.active then x.bank1 else x.bank0
def Quarter.shadowBank (x : Quarter) : Tab (BitVec 128) := if x.active then x.bank0 else x.bank1
def Quarter.setShadow (x : Quarter) (b : Tab (BitVec 128)) : Quarter :=
  if x.active then { x with bank0 := b } else { x with bank1 := b }

/-! ### Routes (R291) -/

/-- Where a beat from one quarter to another leaves: 0 stays, 1 upward, 2 downward. -/
def route (q d : Nat) : Nat :=
  if q = d then 0
  else if (q + 1) % 4 = d then 1
  else if (q + 3) % 4 = d then 2
  else if q % 2 = 0 then 1 else 2

/-- The route a bridge lane serves: 1 upward, 2 downward. -/
def laneRoute (lane : Nat) : Nat := if lane < 12 then 1 else 2

/-- The RX ID on which beats from quarter `h` arrive in quarter `d`. -/
def rxFrom (h d : Nat) : Nat :=
  if (h + 1) % 4 = d then idRXU0
  else if (h + 3) % 4 = d then idRXD0
  else if h % 2 = 0 then idRXU1 else idRXD1

/-! ### The basic generator (R299 to R301) -/

/-- What the generator reads: the created ports with their shares, and each engine's profile. -/
structure GenInput where
  ports : List (Nat × Nat)
  profiles : List (BitVec 8)

/-- The 8-bit bit reversal. -/
def reverse8 (o : Nat) : Nat := (List.range 8).foldl (fun r i => r + if bitN o i then 2 ^ (7 - i) else 0) 0

/-- The port whose interval of ranks, from `base` on, holds `r`. -/
def wheelPort : List (Nat × Nat) → Nat → Nat → Option Nat
  | [], _, _ => none
  | (p, sh) :: t, base, r => if r < base + sh then some p else wheelPort t (base + sh) r

/-- The host wheel w(o) (R300). -/
def wheel (g : GenInput) (o : Nat) : Option Nat := wheelPort g.ports 0 (reverse8 (o % 256))

/-- Host offsets (R301). -/
def hostOffset (o : Nat) : Bool := o % 2 = 1 || 24 ≤ o % 32

/-- The engine of an engine offset. -/
def offsetEngine (o : Nat) : Option Nat := if o % 2 = 0 && o % 32 < 24 then some (o % 32 / 2) else none

/-- Slots of a profile at a frame offset: LD on a, ST on a, ST on b (R294). -/
def profileSlots (profile : BitVec 8) (t : Nat) : Bool × Bool × Bool :=
  let k := t % 4
  if profile = 0x0A then (true, false, k % 2 = 0)
  else if profile = 0x0B then (k % 2 = 0, k % 2 = 1, true)
  else (k = 0, false, k = 2)

/-- Lane a and lane b of the engine at a position (R294). -/
def slotCells (g : GenInput) (d o lane : Nat) : Nat :=
  let pos := (lane - 2) % 3
  let e := 3 * d + pos
  let (ld, sta, stb) := profileSlots (g.profiles.getD e 0x0A) o
  if lane < 5 then (if ld then mkCell (idHE e) 1 else if sta then mkCell (idHE e) 2 else 0)
  else if stb then mkCell (idHE e) 2 else 0

/-- The generated cell of a lane at frame offset `o` in quarter `d`. -/
def genCell (g : GenInput) (d o lane : Nat) : Nat :=
  let host := hostOffset o
  let w := wheel g o
  match lane with
  | 0 => match w with
    | some p =>
      if homeQuarter p = d then mkCell (idHP p) 2
      else if host then mkCell (rxFrom (homeQuarter p) d) 2 else 0
    | none => 0
  | 1 => match wheel g (o + 64) with
    | some p => if homeQuarter p = d || host then mkCell (idHP p) 1 else 0
    | none => 0
  | 8 =>
    if o % 32 = 31 then 1
    else if o % 32 < 24 then
      let e := o % 32 / 2
      if quarterOfParty e = d then mkCell (idHE e) 3 else mkCell (rxFrom (quarterOfParty e) d) 3
    else 0
  | 9 =>
    if o % 32 = 31 then 1
    else if o % 32 ≤ 29 then mkCell (idSP (3 * d + o % 32 % 6 / 2)) (if o % 2 = 0 then 2 else 1)
    else 0
  | 10 =>
    if host then match w with
      | some p => if homeQuarter p = d || route d (homeQuarter p) = 1 then mkCell (idHP p) 2 else 0
      | none => 0
    else match offsetEngine o with
      | some e => if quarterOfParty e = d then mkCell (idHE e) 2 else 0
      | none => 0
  | 11 =>
    if d % 2 = 0 then 0
    else if host then match w with
      | some p => if homeQuarter p = (d + 3) % 4 || homeQuarter p = (d + 1) % 4 then mkCell idRXU0 2 else 0
      | none => 0
    else match offsetEngine o with
      | some e => if quarterOfParty e = (d + 3) % 4 then mkCell idRXU0 2 else 0
      | none => 0
  | 12 =>
    if host then match w with
      | some p => if homeQuarter p = d || route d (homeQuarter p) = 2 then mkCell (idHP p) 2 else 0
      | none => 0
    else match offsetEngine o with
      | some e => if quarterOfParty e = d then mkCell (idHE e) 2 else 0
      | none => 0
  | 13 =>
    if d % 2 = 1 then 0
    else if host then match w with
      | some p => if homeQuarter p = (d + 3) % 4 || homeQuarter p = (d + 1) % 4 then mkCell idRXD0 2 else 0
      | none => 0
    else match offsetEngine o with
      | some e => if quarterOfParty e = (d + 1) % 4 then mkCell idRXD0 2 else 0
      | none => 0
  | 14 => if o % 16 = 0 && o % 64 / 16 < 3 then mkCell (idEG (3 * d + o % 64 / 16)) 2 else 0
  | _ => if 2 ≤ lane && lane ≤ 7 then slotCells g d o lane else 0

/-- A generated row: 16 identical frames (R299). -/
def genRow (g : GenInput) (d n : Nat) : BitVec 128 :=
  rowOf ((List.range 15).map (genCell g d (n % 256)) ++ [if isRefreshRow n then 1 else 0])

/-- A row in which lanes L0 to L9 hold only OPEN and REFRESH cells (R417). -/
def openRow (r : BitVec 128) (n : Nat) : BitVec 128 :=
  rowOf ((List.range 16).map fun i => if i < 10 then rowByte (startRow n) i else rowByte r i)

/-! ### Checks of a loaded table (R284, R310) -/

/-- Host and SAS ports named by a resource ID. -/
def isHP (id : Nat) : Bool := 1 ≤ id && id ≤ 8
def isSP (id : Nat) : Bool := 0x10 ≤ id && id ≤ 0x1B
def isHE (id : Nat) : Bool := 0x20 ≤ id && id ≤ 0x2B
def isRX (id : Nat) : Bool := 0x3C ≤ id

/-- The quarter in which an owner is homed, for IDs with one home. -/
def idHome (id : Nat) : Nat :=
  if isHP id then homeQuarter (id - 1)
  else if isSP id then (id - 0x10) / 3
  else if isHE id then (id - 0x20) / 3
  else if 0x30 ≤ id && id ≤ 0x3B then (id - 0x30) / 3
  else 4

/-- DMA, SYS and BLK are homed in every quarter. -/
def isLocalId (id : Nat) : Bool := id = idDMA || id = idSYS || id = idBLK

/-- A cell is permitted (R284). -/
def cellPermitted (d lane c : Nat) : Bool :=
  let id := cellOwner c
  let dir := cellDir c
  let here := isLocalId id || ((isHP id || isSP id || isHE id) && idHome id = d)
  let launcher := isLocalId id || isHP id || isSP id || isHE id
  if c = 0 then true
  else if c = 1 then lane = 8 || lane = 9
  else if lane < 10 then
    (dir = 1 && (isHP id || isSP id || here)) ||
    (dir = 2 && (here || isRX id)) ||
    (dir = 3 && ((isHE id && idHome id = d) || isRX id))
  else if lane < 12 then dir = 2 && (launcher || id = idRXU0 || id = idRXU1)
  else if lane < 14 then dir = 2 && (launcher || id = idRXD0 || id = idRXD1)
  else dir = 2 && 0x30 ≤ id && id ≤ 0x3B && idHome id = d

/-- The tables under check: quarter, row → row. -/
abbrev Tables := Nat → Nat → BitVec 128

/-- The cell of a lane. -/
def Tables.cell (t : Tables) (q n lane : Nat) : Nat := rowByte (t q (n % 4096)) lane

/-- Lane `lane`, 10 to 13, of quarter `q` arrives in the neighbour under this RX ID. -/
def laneRx (lane : Nat) : Nat := idRXU0 + (lane - 10)
/-- The neighbour a bridge lane leads to. -/
def laneNext (q lane : Nat) : Nat := if lane < 12 then (q + 1) % 4 else (q + 3) % 4
/-- The neighbour and lane a beat with an RX ID came from. -/
def rxSource (q id : Nat) : Nat × Nat := ((if id < idRXD0 then q + 3 else q + 1) % 4, 10 + (id - idRXU0))

/-- Check 0x01 at a row: permitted cells, no flag but REF. -/
def check01 (t : Tables) (q n : Nat) : Bool :=
  rowByte (t q n) 15 < 2 && (List.range 15).all fun l => cellPermitted q l (t.cell q n l)

/-- Check 0x02: REF and REFRESH as R289. -/
def check02 (t : Tables) (q n : Nat) : Bool :=
  let r := isRefreshRow n
  (rowByte (t q n) 15 = 1) = r && (List.range 10).all fun l => (t.cell q n l = 1) = (r && 8 ≤ l)

/-- The number of consecutive rows up to `n` that hold the same ACCUM cell in a lane, counted back at most `f`. -/
def accumRun (t : Tables) (q lane c : Nat) : Nat → Nat → Nat
  | 0, _ => 0
  | f + 1, n => if t.cell q n lane = c then 1 + accumRun t q lane c f (n + 4095) else 0

/-- Check 0x03: ACCUM cells stand in pairs, none overlapping: every maximal run of one cell has an even length. -/
def check03 (t : Tables) (q n : Nat) : Bool :=
  (List.range 10).all fun l =>
    let c := t.cell q n l
    cellDir c ≠ 3 || t.cell q (n + 1) l = c || accumRun t q l c 4096 n % 2 = 0

/-- The LD and ST slots of an engine in a row. -/
def slotsAt (t : Tables) (q n e : Nat) : Nat × Nat :=
  ((List.range 10).filter (fun l => t.cell q n l = mkCell (idHE e) 1) |>.length,
   (List.range 10).filter (fun l => t.cell q n l = mkCell (idHE e) 2) |>.length)

/-- Check 0x04: every engine of the quarter holds every slot of its committed profile. -/
def check04 (t : Tables) (profile : Nat → BitVec 8) (q n : Nat) : Bool :=
  (List.range 3).all fun i =>
    let e := 3 * q + i
    let (ld, sta, stb) := profileSlots (profile e) n
    let (a, b) := slotsAt t q n e
    b2n ld ≤ a && b2n sta + b2n stb ≤ b

/-- An accumulate cell of an engine for a path: 0 local, 1 up, 2 down. -/
def pathCell (t : Tables) (q n e path : Nat) : Bool :=
  if path = 0 then (List.range 10).any fun l => t.cell q n l = mkCell (idHE e) 3
  else (List.range 2).any fun l => t.cell q n (8 + 2 * path + l) = mkCell (idHE e) 2

/-- Check 0x05: an accumulate cell per path in every 32-row window that starts here. -/
def check05 (t : Tables) (q n : Nat) : Bool :=
  (List.range 3).all fun i => (List.range 3).all fun path =>
    (List.range 32).any fun k => pathCell t q (n + k) (3 * q + i) path

/-- Check 0x06 at a frame's first row: four collector cells per party. -/
def check06 (t : Tables) (q n : Nat) : Bool :=
  n % 256 ≠ 0 || (List.range 3).all fun i =>
    ((List.range 256).filter fun k => t.cell q (n + k) 14 = mkCell (idEG (3 * q + i)) 2).length = 4

/-- A row of the quarter names an RX ID in some lane. -/
def namesRx (t : Tables) (q n id : Nat) : Bool := (List.range 14).any fun l =>
  cellOwner (t.cell q n l) = id && cellDir (t.cell q n l) ≠ 0

/-- The owner whose beat a launch cell sends on: for a relay cell, the owner of the cell that launched it. -/
def launchOwner (t : Tables) (q n lane : Nat) : Nat :=
  let id := cellOwner (t.cell q n lane)
  if isRX id then
    let (s, l) := rxSource q id
    cellOwner (t.cell s (n + 4096 - 512) l)
  else id

/-- An owner is homed in a quarter; SYS is homed in every one (R282). -/
def homedIn (id q : Nat) : Bool := id = idSYS || idHome id = q

/-- Check 0x07: launches and remote reads find their consumers; a relay cell stands for the owner whose beat it
relays. DEDUCED (log 34): the basic table would fail otherwise. -/
def check07 (t : Tables) (q n : Nat) : Bool :=
  ((List.range 4).all fun i =>
    let l := 10 + i
    let c := t.cell q n l
    c = 0 || namesRx t (laneNext q l) (n + 512) (laneRx l) || homedIn (launchOwner t q n l) (laneNext q l)) &&
  (List.range 10).all fun l =>
    let c := t.cell q n l
    let id := cellOwner c
    cellDir c ≠ 1 || c = 1 || !(isHP id || isSP id) || idHome id = q ||
      (List.range 4).any fun i => t.cell q (n + 64) (10 + i) = mkCell id 2

/-- The cell stands in the second row of an ACCUM pair. -/
def accumSecond (t : Tables) (q n lane : Nat) : Bool :=
  let c := t.cell q n lane
  cellDir c = 3 && accumRun t q lane c 4096 n % 2 = 0

/-- Check 0x08: every RX cell has its launch 512 rows earlier; the second row of an ACCUM pair takes no beat. -/
def check08 (t : Tables) (q n : Nat) : Bool :=
  (List.range 14).all fun l =>
    let c := t.cell q n l
    !(isRX (cellOwner c) && cellDir c ≠ 0) || accumSecond t q n l ||
      (let (s, lane) := rxSource q (cellOwner c)
       cellDir (t.cell s (n + 4096 - 512) lane) = 2)

/-- Check 0x09: upward relays pass only quarters 1 and 3, downward relays only 0 and 2 (R291). -/
def check09 (t : Tables) (q n : Nat) : Bool :=
  ((List.range 2).all fun i => !(isRX (cellOwner (t.cell q n (10 + i)))) || q % 2 = 1) &&
  (List.range 2).all fun i => !(isRX (cellOwner (t.cell q n (12 + i)))) || q % 2 = 0

/-- Check 0x0A: no hamper cell of the staged bank where the active bank names an RX ID in rows 0 to 1,023. -/
def check0A (t act : Tables) (q n : Nat) : Bool :=
  1024 ≤ n || (List.range 14).all fun l =>
    !(isHE (cellOwner (t.cell q n l)) && cellDir (t.cell q n l) ≠ 0 && isRX (cellOwner (act.cell q n l)))

/-- The first failure: code, quarter and row; codes in ascending order, then quarters, then rows. -/
def tableFailure (t act : Tables) (profile : Nat → BitVec 8) : Option (Nat × Nat × Nat) :=
  let checks : List (Nat × (Nat → Nat → Bool)) :=
    [(1, check01 t), (2, check02 t), (3, check03 t), (4, check04 t profile), (5, check05 t), (6, check06 t),
     (7, check07 t), (8, check08 t), (9, check09 t), (10, check0A t act)]
  (checks.flatMap fun (k, f) => (List.range 4).flatMap fun q => ((List.range 4096).filter fun n => !f q n).map
    fun n => (k, q, n)).head?

/-- The 65,536 bytes of a bank, rows ascending (R309). -/
def bankBytes (f : Nat → BitVec 128) : List Byte := (List.range 4096).flatMap fun n => leBytes 16 (f n).toNat

/-! ### Generation and arming (R79, R299, R304, R305, R321) -/

/-- A timetable event (R321). -/
def State.tableEvent (s : State) (ev detail q row : Nat) : State :=
  s.toDevice 0x40 (0x20 + q) [s.time32 * 2 ^ 32 + ev * 2 ^ 24 + detail * 2 ^ 16 + q * 2 ^ 14 + row]

/-- What the generator reads now; an engine that runs a recipe keeps its old profile (R79). -/
def State.genInput (s : State) : GenInput :=
  { ports := s.created.map fun p => (p, (s.port p).ap.share)
    profiles := (List.range 12).map fun e =>
      let x := s.engine e
      if x.running.isSome then x.profile else x.profileNext.getD x.profile }

/-- The generator gives the quarter tables of open cells: its stack sleeps, falls asleep or has not left self-refresh
(R416 to R418). -/
def Quarter.wantsOpen (x : Quarter) : Bool := match x.stack with
  | .active => false
  | .entering => !x.waking
  | .selfRefresh => true
  | .exiting => x.waking

/-- The count at which new tables swap in: two superframes ahead of every quarter's count, the same for all (R304,
R305). -/
def State.nextSwap (s : State) : BitVec 32 :=
  BitVec.ofNat 32 ((List.range 4).foldl (fun n q => Nat.max n (s.quarter q).sf.toNat) 0 + 2)

/-- New tables written into the shadow banks and armed, in every quarter, for two superframes ahead (R305). -/
def State.generate (s : State) : State :=
  let g := s.genInput
  let at_ := s.nextSwap
  let deferred := (List.range 12).filter fun e => (s.engine e).running.isSome && (s.engine e).profileNext.isSome
  let s1 := (List.range 4).foldl (fun (s : State) q =>
    let open_ := (s.quarter q).wantsOpen
    let f := fun n => if open_ then openRow (genRow g q n) n else genRow g q n
    (s.modQuarter q fun x =>
      { x.setShadow (bankOf f) with
        shadowArm := true, swapAt := at_, armedKind := if open_ then .openCells else .full }
      ).tableEvent 0x05 0 q 0) s
  { s1 with manage := { s1.manage with timetable := { s1.manage.timetable with
    deferred, due := false, armed := (List.range 12).map fun e => (e, g.profiles.getD e 0x0A) } } }

/-- A swap is armed or a seam runs in some quarter: the shadow banks are not to be written (R304, R306). -/
def State.swapBusy (s : State) : Bool := (List.range 4).any fun q => (s.quarter q).shadowArm || (s.quarter q).seam

/-- The generator runs at the basic level only (R299, R311), at once or as soon as the shadow banks are free (R322). -/
def State.regenerate (s : State) : State :=
  if s.manage.timetable.expert then s
  else if s.swapBusy then
    { s with manage := { s.manage with timetable := { s.manage.timetable with due := true } } }
  else s.generate

/-- The active bank of an engine's quarter holds every slot of a profile (R311). -/
def State.holdsProfile (s : State) (e : Nat) (pr : BitVec 8) : Bool :=
  let q := quarterOfParty e
  let b := (s.quarter q).activeBank
  (List.range 4096).all fun n =>
    let (ld, sta, stb) := profileSlots pr n
    let (x, y) := slotsAt (fun _ => bankRow b) q n e
    b2n ld ≤ x && b2n sta + b2n stb ≤ y

/-- A pending profile comes into force once a table made for it has been swapped in and no recipe runs (R79, R311). -/
def State.adoptProfile (s : State) (e : Nat) : State :=
  let x := s.engine e
  if x.running.isNone && x.profileNext = some x.tableProfile then
    s.setEngine e { x with profile := x.tableProfile, profileNext := none }
  else s

/-- A swap brings an engine the table made for a profile (R79); at the expert level, a loaded table that holds every slot
of the committed one (R311). -/
def State.bringProfile (s : State) (e : Nat) : State :=
  let x := s.engine e
  let want := x.profileNext.getD x.profile
  let pr := if s.manage.timetable.expert && s.holdsProfile e want then want
    else s.manage.timetable.armed.get e x.tableProfile
  (s.setEngine e { x with tableProfile := pr }).adoptProfile e

/-! ### The cells in force in a row (R286, R306) -/

/-- A cell that is idle and stays closed to the open arbiter: a launch cell the seam holds back (R306). -/
def idleCell : Nat := 2

/-- The old bank's cell of the next row, in a seam (R306). -/
def Quarter.oldCell (x : Quarter) (lane : Nat) : Nat := rowByte (bankRow x.oldBank x.row) lane

/-- The seam's rules hold in the next row: rows 0 to 1,023 after a swap (R306). -/
def Quarter.inSeam (x : Quarter) : Bool := x.seam && x.row < 1024

/-- The cell that governs a lane in the next row. -/
def Quarter.cell (x : Quarter) (lane : Nat) : Nat :=
  let new := rowByte (bankRow x.activeBank x.row) lane
  if !x.inSeam then new
  else
    let old := x.oldCell lane
    if isRX (cellOwner old) && cellDir old ≠ 0 then old
    else if lane < 10 || new = 0 || new = old then new
    else idleCell

/-- A lane stands in the second row of an ACCUM pair. -/
def Quarter.secondRow (x : Quarter) (lane : Nat) : Bool := (x.accumLanes.find lane).isSome && cellDir (x.cell lane) = 3

/-- A cell in which an owner acts in this row: direction and owner; none in the second row of an ACCUM pair. -/
def Quarter.acts (x : Quarter) (lane dir owner : Nat) : Bool :=
  x.cell lane = mkCell owner dir && !(dir = 3 && lane < 10 && x.secondRow lane)

end Sys2Proof.Machine
end

