-- ==== Sys2Proof/Machine/Contain.lean ====
section
/-! DEFINITION. How a containment begins and how the device restarts (R54, R117, R548, R555 to R558, R564 to R567);
the commands that carry a containment on are in Recover.lean. -/

namespace Sys2Proof.Machine

/-- A stopped submission queue: EN cleared, the scan over, the cache dropped (R114, R117). -/
def SubQueue.stop (x : SubQueue) : SubQueue :=
  { x with en := false, scanning := false, rescan := false, cache := [], filling := false }

/-- A queue that a containment stops: IDLE stays 0 until it ends (R117); one that was not enabled stays as it is. -/
def SubQueue.contain (x : SubQueue) : SubQueue := { x.stop with stopped := x.stopped || x.en }

/-- A read of a submission ring. -/
def HostRead.isRing (r : HostRead) : Bool := match r.purpose with
  | .ring _ _ => true
  | _ => false

/-- STOPPING at a port: its submission queues stop, and the reads of their rings are no longer awaited (R117, R558). -/
def Port.stopQueues (x : Port) : Port :=
  { x with sqs := Tab.mapVals x.sqs SubQueue.contain }.dropReads HostRead.isRing

/-- A containment of port `p` or of the device is in progress (FN_STAT.CONTAIN, R66). -/
def State.contained (s : State) (p : Nat) : Bool := (s.port p).contain.isSome || s.deviceContain.isSome

/-- Some containment is in progress (R73, R564). -/
def State.anyContain (s : State) : Bool :=
  s.deviceContain.isSome || (List.range 8).any fun p => (s.port p).contain.isSome

/-- The port after the port scope of R548: queue control blocks, MSI-X table and PBA, BAR registers, the field book and
latches at their reset values (R549), READY at 0 (R66); the apportionment and FN_EPOCH stay. The BAR4
size granted comes into force at an FLR (R79). -/
def Port.resetScope (x : Port) (config flr : Bool) : Port :=
  { x with
    ready := false
    config := if config then [] else x.config
    evtEn := 0, bar4En := false, events := 0, unclaimed := 0, bar4Base := 0
    bar4Log2 := if flr then x.ap.bar4Log2 else x.bar4Log2
    sqs := [], cqs := [], vecs := [], turn := 0, handed := [], reads := [], msix := [], pba := []
    hdb := 0, hdbEn := 0, latches := [], recon := 0, viewOff := true, viewDown := false
    book := {} }

/-- The mailbox instances of a port: requests 4p to 4p+3 and replies 32+4p to 32+4p+3 (R493, R498). -/
def portMailboxes (p : Nat) : List Nat :=
  (List.range 4).map (fun m => 4 * p + m) ++ (List.range 4).map fun m => 32 + 4 * p + m

/-- The secure mailbox emptied: instances 160 and 161, a request of it in service, and a KEY-OP of it that waits for the
sealed copy (R71, R392, R496). -/
def State.emptySecure (s : State) : State :=
  { s with
    mailboxes := (s.mailboxes.erase 160).erase 161, service := s.service.filter fun v => v.inst ≠ 160
    manage := { s.manage with keyReply := s.manage.keyReply.filter fun r => r.1 ≠ .service } }

/-- What a principal has staged is discarded: grants, recipe images, a timetable (R71, R309, R358). -/
def State.dropStaged (s : State) : State :=
  { s with
    engines := Tab.mapVals s.engines fun x => { x with staging := none }
    manage := { s.manage with staged := [], timetable := { s.manage.timetable with staging := false } } }

/-- The port scope of R548 applied: the port's registers and its mailboxes, with the secure one of the administrative
port (R71). -/
def State.resetPort (s : State) (p : Nat) (config flr : Bool) : State :=
  let s1 := s.modPort p fun x => x.resetScope config flr
  let s2 : State := { s1 with mailboxes := (portMailboxes p).foldl Tab.erase s1.mailboxes }
  if s.manage.principal = some p then s2.emptySecure else s2

/-- A device event in the device field book and in the books of the ports in scope (R567). -/
def State.containEvent (s : State) (typ cause bits detail : Nat) (ports : List Nat) : State :=
  (s.deviceEvent typ cause bits detail).toPorts typ 0x30 (devicePayload s cause bits detail) ports

/-- A shelf once the system controller island is reset: SHELF_PWR_EN low, DARK (R226); what the pins read stays, and so do
the parameters of its owner (R245, R548). -/
def Shelf.restart (x : Shelf) : Shelf :=
  { pg := x.pg, pgFiltered := x.pgFiltered, edges := x.edges, window := x.window, windowNext := x.windowNext, steps := x.steps }

/-! ### Images in the firmware region (R554, R561) -/

/-- The first byte of the image in quarter 0's firmware region, above the parked-traverse region (R398). The offset is
free (log 25). -/
def imageAddr : Nat := 0xB81000000 + Config.imageOffset % 0x1E400000

/-- The image in the firmware region. -/
def State.image (s : State) : List Byte := s.readPhys imageAddr s.flash.imageLen

/-- A channel engine starts with its firmware, which block moves bring from the firmware region into its supervisor
SRAM (R435, R439, R554, R561). -/
def State.startEngine (s : State) (k : Nat) : State :=
  s.setCore k { inReset := false, imem := (List.range 0x6000).map fun i => (0x2000 + i, Config.firmwareWord s.image k (0x2000 + i)) }

/-- The read of the flash's SFDP table after a reset (R591). -/
def State.readSfdp (s : State) : State := s.spi [{ op := 0x5A, len := Config.sfdpLength }]

/-- Recovery mode (R555): every shelf dark; configuration space answers; a RECOVERY event gives the reason. -/
def State.enterRecovery (s : State) (why : Nat) : State :=
  let s1 : State := { s with
    mode := .recovery why
    ports := Tab.mapVals s.ports fun x => { x with configured := !x.perst, ready := false }
    shelves := Tab.mapVals s.shelves Shelf.restart }
  s1.deviceEvent 0x08 why 0xFF 0


/-- A port after a device restart: reset as by PERST_N, its link held down (R548, R565). -/
def Port.restart (x : Port) : Port :=
  { x.resetScope true false with
    linkUp := false, d3hot := false, configured := false, ready := false, contain := none, heldWrites := [], book := {} }

/-- The link function of a chain (R274): bits [7:4] LANE_EN, [1:0] MAX_RATE. -/
def SasCfg.link (g : SasCfg) (c : Nat) : BitVec 8 := if g.expertLink then g.chainLink.get c 0xF0 else 0xF0

/-- A link function comes into force (R274, R275). -/
def SasPort.linked (x : SasPort) (v : BitVec 8) : SasPort :=
  { x with linkPending := false, laneEn := v.extractLsb' 4 4, maxRate := v.toNat % 4 }

/-- The main-domain islands reset by a device restart; straps, DEV_MS, FN_EPOCH, the committed apportionment and the
levels and parameters of functions stay, except that timetable and recipes return to basic (R548, R565). The key
store comes back from its sealed copy at BOOT_STAGE row 6 (R392). -/
def State.resetIslands (s : State) : State :=
  { s with
    ports := Tab.mapVals s.ports Port.restart
    deviceContain := none
    trvs := [], admitting := [], reservations := [], extents := [], accums := [], mem := [], poison := [], flaws := []
    shelves := Tab.mapVals s.shelves Shelf.restart
    handles := [], chains := (List.range 12).map fun c => (c, ({} : SasPort).linked (s.manage.sas.link c))
    quarters := Tab.mapVals s.quarters fun q => { eccCorr := q.eccCorr }
    engines := Tab.mapVals s.engines fun e =>
      { profile := e.profileNext.getD e.profile, tableProfile := e.profileNext.getD e.profile }
    dma := [], timers := [], copyQueue := [], cores := s.cores.filter (fun k => decide (k.1 = 49)), mailboxes := [], service := [], stakes := [], stakeAsks := []
    deviceBook := {}, sasBooks := [], collector := [], released := [], frame := 0, view := {}
    manage := { s.manage with
      staged := [], timetable := {}, recipesExpert := false, keys := [], keyReply := [] } }

/-- A device restart is in progress: the boot timeline runs, and not for a cold reset, which forgets the restarts (R564). -/
def State.restarting (s : State) : Bool := match s.mode with
  | .boot _ => s.restarts ≠ []
  | _ => false

/-- A device restart (R565): DEV_EPOCH + 1, a RESTART event, the boot timeline from its first row, which waits for
DEV_REFCLK (R588); the fourth restart within 600 s of the first of three enters recovery mode (R566). -/
def State.restart (s : State) (cause : Nat) : State :=
  match s.mode with
  | .ready | .boot _ =>
    let earlier := s.restarts.filter fun t => decide (s.devMs - t ≤ 600000)
    let s1 := s.resetIslands
    let s2 : State := { s1 with
      mode := .boot 0, waitClock := !s.devClk, devEpoch := s.devEpoch + 1, restarts := s.devMs :: earlier }
    let s3 := (s2.deviceEvent 0x07 cause 0xFF 0).created.foldl (fun s p => s.portEvent p 0)
      (s2.deviceEvent 0x07 cause 0xFF 0)
    if 3 ≤ earlier.length then s3.readSfdp.enterRecovery 4 else s3
  | _ => s

/-- Two containments of one port merge: blocks are reset if either cause resets them, at the end if RESETTING is over
(R58, R564). -/
def Containment.merge (c : Containment) (reset config flr : Bool) : Containment :=
  { c with
    resetBlocks := c.resetBlocks || reset, resetConfig := c.resetConfig || config, flr := c.flr || flr
    phase := if reset && c.phase = .ending then .resetting else c.phase }

/-- A host-scope cause on port `p` (R54, R557, R558, R564). During a device restart it begins the restart again; at any
other time outside READY mode there is no work to contain, and a port reset takes effect at once. -/
def State.startHost (s : State) (p cause : Nat) (reset config : Bool) : State :=
  let x := s.port p
  let flr := decide (cause = 0x01)
  if !x.created then s
  else if s.restarting then s.restart 0x22
  else if s.mode ≠ .ready then (if reset then s.resetPort p config flr else s)
  else match x.contain with
    | some c => s.setPort p { x with contain := some (c.merge reset config flr) }
    | none =>
      let c : Containment :=
        { cause := BitVec.ofNat 8 cause, phase := .stopping, resetBlocks := reset, resetConfig := config, flr }
      if s.deviceContain.isSome then s.setPort p { x with contain := some c }
      else (s.setPort p { x.stopQueues with contain := some c }).containEvent 0x05 cause (2 ^ p) 0 [p]

/-- A device-scope cause (R557, R558): a containment of every port, or a restart when any containment is in progress
or the boot timeline runs (R564). -/
def State.startDevice (s : State) (cause : Nat) (engine : Option Nat) : State :=
  match s.mode with
  | .ready =>
    if s.anyContain then s.restart 0x22
    else
      let s1 : State := { s with
        ports := Tab.mapVals s.ports fun x => if x.created then x.stopQueues else x
        deviceContain := some
          { cause := BitVec.ofNat 8 cause, phase := .stopping, resetBlocks := false, resetConfig := false, engine } }
      s1.containEvent 0x05 cause 0xFF 0 s.created
  | .boot _ => s.restart 0x22
  | _ => s

/-! ### Firmware's own memory (R413) -/

/-- A beat, by its number, lies in a firmware region (R398). -/
def inFirmware (beat : Nat) : Bool := 0xB80000000 ≤ 64 * beat % 2 ^ 36 && 64 * beat % 2 ^ 36 < 0xBA0000000

/-- A read of a range of the stacks: its first poisoned beat of a firmware region is CONTROL-POISON, a device-scope fault
(R413). -/
def State.firmwareRead (s : State) (addr n : Nat) : State :=
  match s.poison.find? fun b => inFirmware b && addr / 64 ≤ b && 64 * b < addr + n with
  | some b => (s.beatEvent 0x04 b).startDevice 0x11 none
  | none => s

end Sys2Proof.Machine
end

