-- ==== Sys2Proof/Machine/Legs.lean ====
section
/-! DEFINITION. The fields of legs (R164 to R166), completion status codes (R103), and what the end of a leg does to
its traverse (R139 to R142, R170). -/

namespace Sys2Proof.Machine

/-! ### Completion status codes (R103) -/

def stOk : BitVec 8 := 0x00
def stOkShort : BitVec 8 := 0x01
def stLegInvalid : BitVec 8 := 0x10
def stLegBudget : BitVec 8 := 0x11
def stDenied : BitVec 8 := 0x12
def stEntryInvalid : BitVec 8 := 0x13
def stDeviceCheck : BitVec 8 := 0x20
def stDeviceTimeout : BitVec 8 := 0x21
def stLinkLost : BitVec 8 := 0x22
def stFetchFault : BitVec 8 := 0x30
def stFetchPoison : BitVec 8 := 0x31
def stAdmissionRefused : BitVec 8 := 0x40
def stWaitTimeout : BitVec 8 := 0x50
def stCircle : BitVec 8 := 0x51
def stSpinupTimeout : BitVec 8 := 0x52
def stOutingClosed : BitVec 8 := 0x53
def stDataPoisoned : BitVec 8 := 0x60
def stDeliveryUnconfirmed : BitVec 8 := 0x61
def stVerifyMismatch : BitVec 8 := 0x62
def stTainted : BitVec 8 := 0x63
def stRecipeFault : BitVec 8 := 0x70
def stRecipeProfile : BitVec 8 := 0x71
def stFaultNotice : BitVec 8 := 0xF0

/-! ### Fields of a leg (R164) -/

def legOp (l : List Byte) : Nat := byteAt l 0
def legFlags (l : List Byte) : Nat := byteAt l 1
def legNext (l : List Byte) : Bool := bitN (legFlags l) 0
def legJoin (l : List Byte) : Bool := bitN (legFlags l) 1
def legDrop (l : List Byte) : Bool := bitN (legFlags l) 2
def legHold (l : List Byte) : Bool := bitN (legFlags l) 3
def legNote (l : List Byte) : Bool := bitN (legFlags l) 4
def legShortOk (l : List Byte) : Bool := bitN (legFlags l) 5
def legTarget (l : List Byte) : Nat := fieldAt l 2 2
/-- The SAS handle of TARGET, bits [12:0]. -/
def legHandle (l : List Byte) : Nat := legTarget l % 8192
/-- The direction of TARGET, bits [15:14]: 0 none, 1 data-in, 2 data-out. -/
def legDir (l : List Byte) : Nat := legTarget l / 16384
def legLen (l : List Byte) : Nat := fieldAt l 4 4
def legAddr (l : List Byte) : BitVec 64 := BitVec.ofNat 64 (fieldAt l 8 8)
/-- The leg of a station in progress: its head. -/
def Trv.leg (t : Trv) : List Byte := t.group.headD []

/-- Legs whose LENGTH is a byte count (R166, R168). -/
def legCountsLen (op : Nat) : Bool :=
  op = 0x10 || op = 0x11 || op = 0x13 || (0x20 ≤ op && op ≤ 0x23) || op = 0x25 || op = 0x26 || op = 0x46

/-- Residual of a leg that ended before it was performed: its LENGTH, or the total of its JOIN group (R168). -/
def groupLen (g : List (List Byte)) : Nat :=
  if legCountsLen (legOp (g.headD [])) then (g.map legLen).sum else 0

/-- The last station (R120). -/
def maxStation : Nat := 1048575

/-! ### How a leg ends -/

/-- How a traverse ends: its status and station, and what its completion says besides (R102, R104, R105). -/
structure Ending where
  status : BitVec 8
  station : Nat
  residual : Nat := 0
  moved : Bool := false
  d0 : BitVec 8 := 0
  d1 : BitVec 8 := 0
  sense : Bool := false
  entry : Bool := false
  deriving DecidableEq, Repr

/-- A status that continues the traverse (R139, R142). -/
def continuing (st : BitVec 8) (shortOk : Bool) : Bool :=
  st = stOk || st = stCircle || (st = stOkShort && shortOk)

/-- GOTO, TEST, NOTE and PAUSE leave the last status alone when they continue (R140). -/
def keepsLast (op : Nat) : Bool := op = 0x40 || op = 0x41 || op = 0x44 || op = 0x45

/-- SHORT-OK has no effect on a GATHER (R198). -/
def shortOkOf (l : List Byte) : Bool := legShortOk l && legOp l ≠ 0x26

/-- The traverse's ending for a leg result. -/
def LegResult.ending (r : LegResult) (station : Nat) (sb : BitVec 64) : Ending :=
  { status := r.status, station, residual := r.residual, moved := r.moved, d0 := r.d0, d1 := r.d1,
    sense := decide (r.sense ≠ []) && decide (sb ≠ 0) }

/-- The traverse moved on to the next station, or its end: NEXT decides, GOTO ignores it, and a continuation past the
last station is LEG-INVALID at this station with RESULT 0 (R139, R141). RESIDUAL in the status block stays as the leg left
it: DESIGN CHOICE (log 61). -/
def Trv.advance (t : Trv) (r : LegResult) : Trv × Option Ending :=
  let op := legOp t.leg
  let target := r.jump.getD (t.station + t.group.length)
  if !continuing r.status (shortOkOf t.leg) then (t, some (r.ending t.station t.sb))
  else if op = 0x47 || (op ≠ 0x40 && !legNext (t.group.getLastD [])) then (t, some (r.ending t.station t.sb))
  else if maxStation < target then
    ({ t with lastStatus := stLegInvalid }, some { status := stLegInvalid, station := t.station })
  else ({ t with station := target, stage := .fresh, released := none, group := [] }, none)

/-- What the end of a leg records: the last status (R140), LEG_INFO (R170), the residual of a short or failed leg and
SHORT_COUNT (R142, R156), sense data (R159). -/
def Trv.record (t : Trv) (r : LegResult) : Trv :=
  let cont := continuing r.status (shortOkOf t.leg)
  { t with
    lastStatus := if cont && keepsLast (legOp t.leg) then t.lastStatus else r.status
    legInfo := r.info.getD t.legInfo
    residual := if r.status = stOk || r.status = stCircle then t.residual else r.residual
    shortCount := if cont && r.status = stOkShort then t.shortCount + 1 else t.shortCount
    sense := if r.sense = [] then t.sense else r.sense.take 96 }

/-- A leg ends: what it records, and whether the traverse continues or ends. -/
def Trv.afterLeg (t : Trv) (r : LegResult) : Trv × Option Ending := (t.record r).advance r

/-! ### SCSI results (R170, R173) -/

/-- Sense key, ASC and ASCQ of sense data in fixed (0x70, 0x71) or descriptor (0x72, 0x73) format. PRESUMED (SPC-4,
log entry 7). -/
def senseCodes (b : List Byte) : Nat × Nat × Nat :=
  let rc := byteAt b 0 % 128
  if b = [] then (0, 0, 0)
  else if rc = 0x72 || rc = 0x73 then (byteAt b 1 % 16, byteAt b 2, byteAt b 3)
  else (byteAt b 2 % 16, byteAt b 12, byteAt b 13)

/-- LEG_INFO of a device leg (R170). -/
def issueInfo (scsi fault : BitVec 8) (sense : List Byte) : BitVec 64 :=
  let (key, asc, ascq) := senseCodes sense
  BitVec.ofNat 64 (scsi.toNat + key * 2 ^ 8 + asc * 2 ^ 16 + ascq * 2 ^ 24 + fault.toNat * 2 ^ 32)

/-- A command's ending as its leg's result (R170, R173). -/
def LegEnd.result (e : LegEnd) : LegResult :=
  { status := e.status, info := some (issueInfo e.scsi e.fault e.sense), residual := e.residual,
    moved := decide (0 < e.moved)
    d0 := if e.status = stDeviceCheck then e.scsi else 0
    d1 := if e.status = stDeviceCheck then BitVec.ofNat 8 (senseCodes e.sense).1 else 0
    sense := if e.status = stDeviceCheck then e.sense else [] }

end Sys2Proof.Machine
end

