-- ==== Sys2Proof/Machine/Traverse.lean ====
section
/-! DEFINITION. Shelves' work and closing, hand-over of commands to a wide port, progress records, parking, and the end
of a traverse with all it sets off (R128, R130, R152, R156 to R161, R228 to R232, R259). -/

namespace Sys2Proof.Machine

/-! ### Commands handed to a wide port (R259, R260) -/

/-- A command handed to the wide port of its handle's chain: it joins the handle's FIFO. -/
def State.handOver (s : State) (h : Nat) (owner : CmdOwner) (cdb : List Byte) (dir len : Nat)
    (segments : List Segment) : State :=
  s.modChain (chainOfHandle h) fun x =>
    { x with cmds := x.cmds ++ [{ id := x.nextId, handle := h, owner, cdb, dir, len, segments }],
             nextId := x.nextId + 1 }

/-- A task management function handed to the wide port (R175, R259). -/
def State.sendTmf (s : State) (h function : Nat) (managed : Option Nat) (owner : TmfOwner) : State :=
  s.modChain (chainOfHandle h) fun x =>
    { x with tmfs := x.tmfs ++ [{ function, handle := h, managed, owner, before := x.nextId }] }

/-- A command addressed to a drive of the shelf. -/
def Cmd.onShelf (c : Cmd) (sh : Nat) : Bool := isDriveHandle c.handle && shelfOfHandle c.handle == sh

/-- SYNCHRONIZE CACHE (16), all blocks. PRESUMED (SBC-4, log entry 7). -/
def cdbSync : List Byte := 0x91 :: List.replicate 15 0
/-- START STOP UNIT with START and IMMED. PRESUMED (SBC-4, log entry 7). -/
def cdbStartStop (start immed : Bool) : List Byte :=
  [0x1B, if immed then 1 else 0, 0, 0, if start then 1 else 0] ++ List.replicate 11 0
/-- TEST UNIT READY. -/
def cdbTestReady : List Byte := List.replicate 16 0

/-! ### Shelves -/

/-- State codes of the outing state machine. -/
def ShelfState.code : ShelfState → Nat
  | .dark => 0 | .powering => 1 | .spinning => 2 | .opened => 3 | .draining => 4 | .closing => 5 | .settling => 6
  | .holdoff => 7 | .retired => 8

/-- The shelf counts as an open outing (R167, R203): OPEN or DRAINING. -/
def Shelf.isOpen (x : Shelf) : Bool := x.state = .opened || x.state = .draining

/-- The shelf holds an outing (R222): POWERING to SETTLING. -/
def Shelf.holds (x : Shelf) : Bool := 1 ≤ x.state.code && x.state.code ≤ 6

/-- SHELF_PWR_EN is asserted (R227). -/
def Shelf.powered (x : Shelf) : Bool := 1 ≤ x.state.code && x.state.code ≤ 5

/-- The work of an outing: bookings on it that have not lapsed (R228). -/
def State.work (s : State) (sh : Nat) : Nat :=
  (s.trvs.filter fun t => t.bookings.any fun b => decide (b.shelf = sh) && !b.lapsed).length

/-- Ports that own the shelf or a drive on it (R246). -/
def State.shelfPorts (s : State) (sh : Nat) : List Nat := (List.range 8).filter fun p => s.mayBook p sh

/-- An outing event (R246). -/
def State.outingEvent (s : State) (sh ev detail : Nat) : State :=
  let payload := [s.time32 * 2 ^ 32 + detail * 2 ^ 24 + (s.shelf sh).state.code * 2 ^ 16 + sh * 2 ^ 8 + ev]
  (s.toDevice 0x30 0x30 payload).toPorts 0x30 0x30 payload (s.shelfPorts sh)

/-- A transition of a shelf (R229): every one writes an outing event. -/
def State.enterShelf (s : State) (sh : Nat) (st : ShelfState) (ev detail : Nat) : State :=
  (s.modShelf sh fun x => { x with state := st, since := s.devMs }).outingEvent sh ev detail

/-- Bookings on a shelf lapse (R203). -/
def State.lapse (s : State) (sh : Nat) : State :=
  { s with trvs := s.trvs.map fun t =>
      { t with bookings := t.bookings.map fun b => if b.shelf = sh then { b with lapsed := true } else b } }

/-- CLOSING, step 3 (R232): once no command is outstanding to a drive of the shelf, every ready drive is synchronised
and then stopped, at most 16 at a time. -/
def State.closingAdvance (s : State) (sh : Nat) : State :=
  let x := s.shelf sh
  if x.state = .closing && !x.stopSent && !((s.chain (chainOfShelf sh)).cmds.any fun c => c.onShelf sh) then
    let s1 := s.setShelf sh { x with stopSent := true, stopping := x.readySlots }
    (x.readySlots.take 16).foldl (fun s j =>
      s.handOver (driveHandle sh j) (.closing sh j false) cdbSync 0 0 []) s1
  else s

/-- CLOSING is entered: remaining bookings lapse (R232, step 1). -/
def State.enterClosing (s : State) (sh : Nat) : State :=
  ((s.modShelf sh fun x => { x with stopSent := false, stopping := [], lingering := false }).lapse sh
    |>.enterShelf sh .closing 0x05 0).closingAdvance sh

/-- A shelf of the chain may be chosen (R233): populated, DARK, its basket nonempty. The expert opening window is
tested by the planner. -/
def State.populated (s : State) (sh : Nat) : Bool :=
  ((s.chain (chainOfShelf sh)).enclosures.find (sh % 4)).isSome

/-- Outing choice as in force on a shelf's chain: as of the last choice there (R244). -/
def State.choiceOf (s : State) (sh : Nat) : OutingCfg := s.manage.inForce.get (chainOfShelf sh) {}

/-- Millisecond of the day (R237). -/
def State.dayMs (s : State) (sh : Nat) : Nat := (s.devMs + (s.choiceOf sh).dayOffset) % 86400000

/-- The opening window in force: always open at the basic level (R237). -/
def State.windowOpen (s : State) (sh : Nat) : Bool :=
  match (s.shelf sh).window with
  | none => true
  | some (w, _) => !(s.choiceOf sh).expertChoice || w.getLsbD (s.dayMs sh / 900000)

/-- A basket entry of the shelf is older than the age limit (R231, R234). -/
def State.aged (s : State) (sh : Nat) : Bool :=
  (s.shelf sh).basket.any fun b => decide ((s.choiceOf sh).ageLimitS * 1000 < s.devMs - b.joined)

/-- Eligible for choice (R233, R237): outside its window only an aged entry with HARD 0 makes it so. -/
def State.eligible (s : State) (sh : Nat) : Bool :=
  let x := s.shelf sh
  s.populated sh && x.state = .dark && x.basket ≠ [] &&
    (s.windowOpen sh || (s.aged sh && match x.window with
      | some (_, hard) => !hard
      | none => true))

/-- Another shelf of the chain is eligible and waiting (R231). -/
def State.rivalWaits (s : State) (sh : Nat) : Bool :=
  (List.range 4).any fun i => let o := 4 * (sh / 4) + i; decide (o ≠ sh) && s.eligible o

/-- The work of an outing has changed (R229, R230, R231): OPEN without work lingers, or closes at once when the linger
time is 0; DRAINING without work closes; work that rises again stops the linger, and drains the outing when its
maximum open time has passed and another shelf waits. -/
def State.workChanged (s : State) (sh : Nat) : State :=
  let x := s.shelf sh
  let w := s.work sh
  match x.state with
  | .opened =>
    if w = 0 then
      if s.manage.outing.lingerS = 0 then s.enterClosing sh
      else s.setShelf sh { x with lingering := true }
    else if x.maxOpenPassed && s.rivalWaits sh then
      (s.setShelf sh { x with lingering := false }).enterShelf sh .draining 0x04 0
    else s.setShelf sh { x with lingering := false }
  | .draining => if w = 0 then s.enterClosing sh else s
  | _ => s

/-- A shelf of the chain may have become eligible: an outing whose maximum open time has passed drains (R231). -/
def State.rivalsChanged (s : State) (c : Nat) : State :=
  (List.range 4).foldl (fun (s : State) i =>
    let sh := 4 * c + i
    if (s.shelf sh).maxOpenPassed && 0 < s.work sh then s.workChanged sh else s) s

/-! ### Status block and progress records (R156 to R159) -/

/-- STATE of the status block. -/
def TrvState.code : TrvState → Nat
  | .pending => 0 | .ready => 1 | .running => 2 | .held => 3 | .waiting => 4 | .basket _ => 5 | .pausing => 6
  | .responseParked => 2 | .rebinding => 2 | .ended => 7

/-- Bytes 0 to 63 of the status block (R156). -/
def Trv.block (t : Trv) (epoch : BitVec 16) : List Byte :=
  leBytes 2 t.tag ++ leBytes 1 t.state.code ++ leBytes 1 t.lastStatus.toNat ++ leBytes 4 t.station ++
  leBytes 8 t.bytes ++ leBytes 4 t.legs ++ leBytes 4 t.noteSeq ++ leBytes 4 t.residual ++ leBytes 4 t.shortCount ++
  leBytes 8 t.legInfo.toNat ++ leBytes 2 epoch.toNat ++ leBytes 1 t.sense.length ++ List.replicate 21 0

/-- The DMA channel of a bound traverse's status block, records and read-back (R420). -/
def Trv.sbChannel (t : Trv) : Option Nat := t.bound.map fun b => 8 * quarterOfParty (partyOfEngine b.1) + 6

/-- Something of a traverse has gone through the channel of its quarter, if it is bound (R420). -/
def State.sbRun (s : State) (t : Trv) : State := match t.sbChannel with
  | some ch => s.firmwareRun ch
  | none => s

/-- The quarter whose exit from self-refresh a write to a status block waits for: one whose stack sleeps, or the one that an
earlier write of the same block waits for; the writes of a block stay in order (R38, R418). -/
def State.sbQuarter (s : State) (t : Trv) (pos n : Nat) : Option Nat :=
  match (List.range 4).find? fun q => (s.quarter q).sbWrites.any fun w => w.port = t.port && w.tag = t.tag with
  | some q => some q
  | none => (bufQuarters pos n).find? fun q => !(s.quarter q).reachable

/-- A write of a status block joins those that wait for a stack. -/
def State.deferSb (s : State) (q : Nat) (w : SbWrite) : State :=
  s.modQuarter q fun x => { x with sbWrites := x.sbWrites ++ [w] }

/-- A write into the status block; a host address is remembered for the read-back of R161, and one in buffer memory wakes
its stack and waits for it (R38, R418). -/
def State.writeSb (s : State) (t : Trv) (off : Nat) (bs : List Byte) : State × Trv :=
  if t.sb = 0 then (s, t)
  else if isBufAddr t.sb then
    let pos := bufPos t.sb + off
    let s1 := (s.reach (bufQuarters pos bs.length)).1
    match s1.sbQuarter t pos bs.length with
    | some q => (s1.deferSb q { port := t.port, tag := t.tag, pos, bytes := bs }, { t with sbLate := true })
    | none => ((s1.writeBuf pos bs false).sbRun t, t)
  else ((s.hostWrites t.port t.tag (t.sb.toNat + off) bs).sbRun t, { t with wrote := some (t.sb.toNat + off) })

/-- Bytes 0 to 63 written. -/
def State.writeBlock (s : State) (t : Trv) : State × Trv := s.writeSb t 0 (t.block (s.port t.port).fnEpoch)

/-- A progress record, followed by bytes 0 to 63 (R157, R158); none without a status block (R159). -/
def State.writeRecord (s : State) (t : Trv) (kind code : Nat) : State × Trv :=
  if t.sb = 0 then (s, t)
  else
    let t1 := { t with noteSeq := t.noteSeq + 1 }
    let rec_ := leBytes 4 t1.noteSeq ++ leBytes 4 t.station ++ leBytes 1 kind ++ leBytes 1 t.lastStatus.toNat ++
      leBytes 2 code ++ leBytes 4 s.time32
    let (s2, t2) := s.writeSb t1 (64 + 16 * (t1.noteSeq % 4)) rec_
    s2.writeBlock t2

/-- Sense data of a DEVICE-CHECK, followed by bytes 0 to 63 (R158, R159). -/
def State.writeSense (s : State) (t : Trv) (sense : List Byte) : State × Trv :=
  if sense = [] || t.sb = 0 then (s, t)
  else
    let (s1, t1) := s.writeSb t 128 (sense.take 96)
    s1.writeBlock t1

/-- REQUESTED records of the NOTE-REQUESTs that wait, each then completing OK with the station recorded (R101). -/
def State.flushNotes (s : State) (t : Trv) : State × Trv :=
  t.notes.foldl (fun (s, t) n =>
    let (s1, t1) := s.writeRecord t 0x06 0
    (s1.completeEntry t.port n.q n.tag n.urgent stOk 0 t.station, t1)) (s, { t with notes := [] })

/-! ### Parking (R133) -/

/-- Reads of a traverse's own fetch group no longer awaited. -/
def State.dropFetch (s : State) (t : Trv) : State :=
  s.modPort t.port fun x => x.dropReads fun r => match r.purpose with
    | .legs tag _ _ => decide (tag = t.tag)
    | _ => false

/-- The lowest entry of the parked-traverse region that no traverse holds (R133); which entry a traverse takes is the
device's own affair. DESIGN CHOICE (log 61). -/
def State.freeEntry (s : State) : Nat :=
  let used := s.trvs.filterMap (·.entry)
  ((List.range (used.length + 1)).find? fun n => !used.contains n).getD 0

/-- Beats of an entry of the parked-traverse region. -/
def entryBeats (n : Nat) : List Nat := (List.range 4).map fun i => (parkedBase + 256 * n) / 64 + i

/-- A traverse's 256 bytes written to the parked-traverse region, clean (R133, R398). -/
def State.writeEntry (s : State) (t : Trv) : State × Trv :=
  let n := t.entry.getD s.freeEntry
  let l := entryBeats n
  ({ s with
      mem := s.mem.filter fun c => c.1 / 64 ∉ l
      parked := l.foldl (fun m b => m.set b (1536 * t.arrival + t.station)) s.parked
      poison := s.poison.filter fun b => b ∉ l, flaws := clearFlaws s.flaws l },
    { t with entry := some n })

/-- A traverse parks in a state: its 256 bytes are written, its subchannel frees, and the fetch group it held is dropped
(R133, R136). -/
def State.park (s : State) (t : Trv) (st : TrvState) : State :=
  let (s1, t1) := s.writeEntry { t with state := st, bound := none, fetched := [], fetching := false }
  let (s2, t2) := s1.flushNotes t1
  (s2.putTrv t2).dropFetch t2

/-- A parked traverse becomes ready (R132); BIND binds it or puts it on a ready list. -/
def Trv.toReady (t : Trv) : Trv :=
  { t with state := .ready, bound := none, readyParty := none, fetched := [], fetching := false }

/-! ### Reservations and pending traverses (R127, R128) -/

/-- The declared runs can be reserved now beside the reservations of others. -/
def State.runsFree (s : State) (t : Trv) : Bool :=
  t.runs.all fun r => s.reservations.all fun v =>
    !runConflict r { first := v.first, mode := v.mode, count := v.count }

/-- An earlier pending traverse declares one of the extents in a mode that does not coexist. -/
def State.behindPending (s : State) (t : Trv) : Bool :=
  s.trvs.any fun u => u.state = .pending && decide (u.arrival < t.arrival) &&
    t.runs.any fun r => u.runs.any fun v => runConflict r v

/-- All declared extents can be reserved at this instant (R127). -/
def State.canReserve (s : State) (t : Trv) : Bool := s.runsFree t && !s.behindPending t

/-- All declared extents reserved at once; the traverse becomes ready, and the stacks concerned wake. -/
def State.reserve (s : State) (t : Trv) : State :=
  let rs := t.runs.map fun r =>
    ({ port := t.port, tag := t.tag, first := r.first, count := r.count, mode := r.mode } : Reservation)
  let s1 : State := { s with reservations := s.reservations ++ rs }
  (t.runs.flatMap fun r => quartersOf r.first r.count).foldl (fun s q => s.wakeStack q) (s1.putTrv t.toReady)

/-- Pending traverses, earliest arrival first. -/
def State.pendingByArrival (s : State) : List Trv :=
  List.insertionSort (fun a b => a.arrival ≤ b.arrival) (s.trvs.filter fun t => t.state = .pending)

/-- Pending traverses re-examined in arrival order (R128). -/
def State.reexamine (s : State) : State :=
  s.pendingByArrival.foldl (fun s t => if s.canReserve t then s.reserve t else s) s

/-- The reservations of a traverse released. -/
def State.release (s : State) (p tag : Nat) : State :=
  { s with reservations := s.reservations.filter fun r => !(decide (r.port = p) && decide (r.tag = tag)) }

/-! ### The end of a traverse (R160, R161) -/

/-- The completion an ending forms (R102, R104, R105). It goes to the queue that CQID names as it is formed: DESIGN CHOICE
(log 60), R82 does not say which queue when CQID is rewritten before it is posted. -/
def completionOf (s : State) (t : Trv) (e : Ending) : Completion :=
  { port := t.port, cq := ((s.port t.port).sqs.get t.sq {}).cqid, tag := t.tag, sq := t.sq, status := e.status,
    entry := e.entry, dataMoved := e.moved && e.status ≠ stOk && e.status ≠ stOkShort, sense := e.sense, dev := false,
    result := BitVec.ofNat 64 (if e.status = stOk || e.status = stOkShort then t.bytes else e.residual),
    station := e.station, detail0 := e.d0, detail1 := e.d1, urgent := t.urgent, notice := false, epoch := 0,
    ends := true }

/-- DELIVERY-UNCONFIRMED in place of an ending (R161). -/
def Completion.unconfirmed (c : Completion) : Completion :=
  { c with status := stDeliveryUnconfirmed, result := 0, detail0 := 0, detail1 := 0 }

/-- A formed completion enters the collector: as a record of the engine that ran the traverse, or of none when the
system controller forms it (R37). The subchannel frees. -/
def State.form (s : State) (t : Trv) (c : Completion) : State :=
  (s.putTrv { t with completion := some c, readback := false, bound := none }).collect (t.bound.map (·.1)) c

/-- All of an ended traverse's writes are made: its completion is formed, after a read-back when it wrote host memory
(R161); a read-back that cannot be issued has failed (R599). -/
def State.confirm (s : State) (t : Trv) (c : Completion) : State := match t.wrote with
  | none => s.form t c
  | some a =>
    if (s.port t.port).canRead then
      (s.putTrv { t with completion := some c, readback := true }).issueRead t.port a 1 (.readback t.tag)
    else s.form t c.unconfirmed

/-- The read-back of an ended traverse has ended (R161): its completion is formed, or waits for a record that a NOTE-REQUEST
asked for meanwhile. -/
def State.readbackEnds (s : State) (p tag : Nat) (ok : Bool) : State :=
  s.withTrv p tag fun t => match t.readback, t.completion with
    | true, some c =>
      let c1 := if ok then c else c.unconfirmed
      let t1 := { t with readback := false, wrote := none, completion := some c1 }
      let s1 := if ok then s.sbRun t else s
      if t.sbLate then s1.putTrv t1 else s1.form t1 c1
    | _, _ => s

/-- The stack of a quarter has left self-refresh: the writes of status blocks that waited for it are made, in order; one
that needs another stack waits on. -/
def State.sbTurns (q : Nat) : List SbWrite → State → State
  | [], s => s
  | w :: rest, s =>
    let s1 := (s.reach (bufQuarters w.pos w.bytes.length)).1
    State.sbTurns q rest (s1.withTrv w.port w.tag fun t => match s1.sbQuarter t w.pos w.bytes.length with
      | some r => s1.deferSb r w
      | none => (s1.writeBuf w.pos w.bytes false).sbRun t)

/-- Traverses whose status block is written at last form their completions if they have ended. -/
def State.settleSb (s : State) (w : SbWrite) : State :=
  s.withTrv w.port w.tag fun t =>
    if !t.sbLate || ((List.range 4).any fun q => (s.quarter q).sbWrites.any fun v => v.port = t.port && v.tag = t.tag) then s
    else
      let t1 := { t with sbLate := false }
      match t.state, t.completion, t.readback with
      | .ended, some c, false => s.confirm t1 c
      | _, _, _ => s.putTrv t1

/-- The writes of status blocks that waited for a quarter's stack are made. -/
def State.serveSb (s : State) (q : Nat) : State :=
  let l := (s.quarter q).sbWrites
  l.foldl (fun (s : State) w => s.settleSb w) (State.sbTurns q l (s.modQuarter q fun x => { x with sbWrites := [] }))

/-- A WAIT satisfied (R152, R211): the leg ends OK and the waiter becomes ready, or must end for want of NEXT. -/
def State.satisfyOne (s : State) (w : Trv) (info : Nat) : State × List (Nat × Nat × Ending) :=
  let (w1, o) := { w with waitOn := none }.afterLeg { status := stOk, info := some (BitVec.ofNat 64 info) }
  match o with
  | none => (s.putTrv w1.toReady, [])
  | some e => (s.putTrv w1, [(w.port, w.tag, e)])

/-- Waiters on a tag, at one of `k` stations from the first that starts or (none) at its end. -/
def State.waitersOn (s : State) (p tag : Nat) (stations : Option (Nat × Nat)) : List Trv :=
  s.trvs.filter fun w => decide (w.port = p) && decide (w.state = .waiting) && match w.waitOn with
    | some o => decide (o.tag = tag) && (match stations with
      | some (n, k) => decide (n ≤ o.station) && decide (o.station < n + k)
      | none => true)
    | none => false

/-- Every waiter concerned is satisfied, with its LEG_INFO. -/
def State.satisfy (s : State) (p tag : Nat) (stations : Option (Nat × Nat)) (info : Nat) :
    State × List (Nat × Nat × Ending) :=
  (s.waitersOn p tag stations).foldl (fun (s, es) w =>
    let (s1, e1) := s.satisfyOne w info
    (s1, es ++ e1)) (s, [])

/-- A traverse removed from the basket it waits in. -/
def State.leaveBasket (s : State) (t : Trv) : State :=
  match t.state with
  | .basket sh => s.modShelf sh fun x =>
      { x with basket := x.basket.filter fun b => !(decide (b.port = t.port) && decide (b.tag = t.tag)) }
  | _ => s

/-- Bookings given up, with what that does to each outing's work. -/
def State.unbook (s : State) (t : Trv) : State × Trv :=
  let t1 := { t with bookings := [] }
  ((t.bookings.filter fun b => !b.lapsed).foldl (fun s b => s.workChanged b.shelf) (s.putTrv t1), t1)

/-- One traverse ends (R160): bookings, WAIT edge and waiters, reservations, the final status block, the completion,
which waits for its status block and for a read-back when the traverse wrote host memory (R161). Answers the waiters that end in turn. -/
def State.endOne (s : State) (t : Trv) (e : Ending) : State × List (Nat × Nat × Ending) :=
  let (s1, t1) := (s.leaveBasket t).unbook t
  let t2 := { t1 with waitOn := none, state := .ended, station := e.station, lastStatus := t1.lastStatus, entry := none }
  let (s2, more) := (s1.putTrv t2).satisfy t.port t.tag none 1
  let s3 := (s2.release t.port t.tag).reexamine
  let (s4, t3) := s3.flushNotes t2
  let (s5, t4) := s4.writeBlock t3
  let c := completionOf s5 t4 e
  let s6 : State := if t4.sbLate then s5.putTrv { t4 with completion := some c } else s5.confirm t4 c
  (s6.dropFetch t, more)

/-- Traverses end one after another, each with the waiters its end releases. -/
def State.endTrvs : Nat → List (Nat × Nat × Ending) → State → State
  | 0, _, s => s
  | _ + 1, [], s => s
  | n + 1, (p, tag, e) :: rest, s =>
    match s.trv? p tag with
    | none => State.endTrvs n rest s
    | some t =>
      if t.state = .ended then State.endTrvs n rest s
      else
        let (s1, more) := s.endOne t e
        State.endTrvs n (rest ++ more) s1

/-- Traverses end, with the waiters they release. -/
def State.endList (s : State) (l : List (Nat × Nat × Ending)) : State :=
  State.endTrvs (s.trvs.length + l.length + 1) l s

/-- A traverse ends. -/
def State.endTrv (s : State) (t : Trv) (e : Ending) : State := (s.putTrv t).endList [(t.port, t.tag, e)]

/-- A leg of a traverse ends: its sense is written, and the traverse continues (on its engine, or ready when it was
parked) or ends. -/
def State.legDone (s : State) (t : Trv) (r : LegResult) : State :=
  let (t1, o) := t.afterLeg r
  let (s1, t2) := s.writeSense t1 r.sense
  match o with
  | none => s1.putTrv (if t.bound.isSome then t2 else t2.toReady)
  | some e => s1.endTrv t2 e

/-- A traverse ends at its current station with a status that is not its leg's own: at the start of a station, by a
deadline or by a refusal (R140, R168). -/
def State.endAt (s : State) (t : Trv) (st : BitVec 8) (residual : Nat) : State :=
  s.endTrv { t with lastStatus := st, residual }
    { status := st, station := t.station, residual, d0 := if st = stRecipeProfile then 6 else 0 }

end Sys2Proof.Machine
end

