-- ==== Sys2Proof/Machine/Elastic.lean ====
section
/-! DEFINITION. The data segments of a command (R143, R144) and the elastic buffer of a wide port: received frames and
data read ahead, moved in the port's reserved slots of the timetable (R24, R264 to R266); the rows that move them are in
Timetable.lean. -/

namespace Sys2Proof.Machine

/-! ### Segments -/

/-- The parts of a transfer's range [off, off + n) that lie in each segment: buffer position, offset, length. -/
def segmentParts : List Segment → Nat → Nat → Nat → List (Option Nat × (Nat × Nat))
  | [], _, _, _ => []
  | g :: rest, base, off, n =>
    let lo := Nat.max base off
    let hi := Nat.min (base + g.len) (off + n)
    (if lo < hi then [(g.addr.map fun a => a + (lo - base), (lo, hi - lo))] else []) ++
    segmentParts rest (base + g.len) off n

/-- Bytes of a transfer placed into its segments; DROP segments discard theirs (R143, R144). -/
def State.placeBytes (s : State) (segs : List Segment) (off : Nat) (bs : List Byte) (poison : Bool) : State :=
  (segmentParts segs 0 off bs.length).foldl (fun (s : State) (a, lo, n) => match a with
    | some pos => s.writeBuf pos ((bs.drop (lo - off)).take n) poison
    | none => s) s

/-- Bytes of a transfer's range read from its segments. -/
def State.segmentBytes (s : State) (segs : List Segment) (off n : Nat) : List Byte :=
  (segmentParts segs 0 off n).flatMap fun (a, _, k) => match a with
    | some pos => s.readBuf pos k
    | none => List.replicate k 0

/-- The range meets a poisoned beat. -/
def State.segmentPoison (s : State) (segs : List Segment) (off n : Nat) : Bool :=
  (segmentParts segs 0 off n).any fun (a, _, k) => match a with
    | some pos => s.poisoned pos k
    | none => false

/-- Beats that a range of a transfer touches in its segments. -/
def segmentBeats (segs : List Segment) (off n : Nat) : List Nat :=
  (segmentParts segs 0 off n).flatMap fun (a, _, k) => match a with
    | some pos => beatsOf pos k
    | none => []

/-- Bytes of a page 0x02 control page with the SELECT bits of `clear` cleared (R179). -/
def clearSelect (clear : List Nat) (off : Nat) (bs : List Byte) : List Byte :=
  (List.range bs.length).map fun i =>
    let b := bs.getD i 0
    if (off + i) ∈ clear then b &&& 0x7F else b

/-! ### The receive half (R264) -/

/-- Frame slots of the receive half, and RRDY credits a lane may have outstanding. -/
def rxSlots : Nat := 28
def laneCredits : Nat := 7

/-- Credits outstanding on all lanes. -/
def SasPort.credits (x : SasPort) : Nat := ((List.range 4).map fun i => (x.lanes.get i {}).credits).sum

/-- Credits extended to a lane that is up: as many as it may have, one for each free slot at most (R264). -/
def SasPort.extendLane (x : SasPort) (i : Nat) : SasPort :=
  let l := x.lanes.get i {}
  let k := Nat.min (laneCredits - l.credits) (rxSlots - x.rx.length - x.credits)
  if l.up && 0 < k then { x with lanes := x.lanes.set i { l with credits := l.credits + k } } else x

/-- The port extends a credit for every free slot, lane by lane from the lowest. DESIGN CHOICE (log 62): R264 gives no order
among the lanes. -/
def SasPort.extend (x : SasPort) : SasPort := (List.range 4).foldl SasPort.extendLane x

/-- The next bytes of a frame to leave the buffer: where they go, and how many of them lie in one beat there. -/
def RxFrame.piece (f : RxFrame) (segs : List Segment) : Option Nat × Nat :=
  match segmentParts segs 0 f.offset f.bytes.length with
  | (some a, _, n) :: _ => (some a, Nat.min n (64 - a % 64))
  | (none, _, n) :: _ => (none, n)
  | [] => (none, f.bytes.length)

/-- What stays of a frame after its first `n` bytes. -/
def RxFrame.rest (f : RxFrame) (n : Nat) : List RxFrame :=
  if f.bytes.length ≤ n then [] else [{ f with offset := f.offset + n, bytes := f.bytes.drop n }]

/-- The command of the oldest frame, with where its next bytes go. -/
def SasPort.oldest (x : SasPort) : Option (RxFrame × Option Nat × Nat × Nat) := match x.rx with
  | [] => none
  | f :: _ => match x.cmds.find? fun c => c.tag == some f.tag with
    | some c => let (a, n) := f.piece c.segments; some (f, a, n, c.id)
    | none => some (f, none, f.bytes.length, 0)

/-- Bytes at the front that go to no memory leave the buffer without a slot: they are discarded (R143, R144). -/
def SasPort.shed : Nat → SasPort → SasPort
  | 0, x => x
  | k + 1, x => match x.oldest with
    | some (f, none, n, _) => SasPort.shed k { x with rx := f.rest (Nat.max n 1) ++ x.rx.drop 1 }
    | _ => x

/-- The next bytes for memory: the command they belong to, their buffer position, and the bytes, all of one beat. -/
def SasPort.nextFill (x : SasPort) : Option (Nat × Nat × List Byte) := match x.oldest with
  | some (f, some pos, n, id) => some (id, pos, f.bytes.take n)
  | _ => none

/-- Frames in the buffer and segments they may meet bound the pieces that are discarded one after another. -/
def SasPort.shedAll (x : SasPort) : SasPort :=
  SasPort.shed (x.rx.length * (2 + (x.cmds.map fun c => c.segments.length).sum)) x

/-- A received frame enters the buffer over a lane (R264). -/
def SasPort.receive (x : SasPort) (lane : Nat) (f : RxFrame) : SasPort :=
  let l := x.lanes.get lane {}
  ({ x with rx := x.rx ++ [f], lanes := x.lanes.set lane { l with credits := l.credits - 1 } } : SasPort).shedAll.extend

/-- The next bytes for memory have left. -/
def SasPort.filled (x : SasPort) : SasPort := match x.oldest with
  | some (f, _, n, _) => ({ x with rx := f.rest n ++ x.rx.drop 1 } : SasPort).shedAll.extend
  | none => x

/-- The frames of one command leave the buffer: to memory when `keep`, else discarded (R264, R560). -/
def State.landFrames (s : State) (c : Nat) (cmd : Cmd) (keep : Bool) : State :=
  match cmd.tag with
  | none => s
  | some t =>
    let x := s.chain c
    let s1 := if keep then (x.rx.filter fun f => f.tag = t).foldl (fun (s : State) f =>
      s.placeBytes cmd.segments f.offset f.bytes false) s else s
    if x.rx.any fun f => f.tag = t then s1.modChain c fun y => ({ y with rx := y.rx.filter fun f => f.tag ≠ t } : SasPort).extend
    else s1

/-- Data of a command that still travels towards buffer memory. -/
def Quarter.carries (x : Quarter) (c id : Nat) : Bool :=
  (x.flights.any fun f => f.cmd = some (c, id)) || (x.lands.any fun l => l.cmd = some (c, id)) ||
  x.openBuffers.any fun b => b.2.any fun u => u.cmd = some (c, id)

/-- Everything received for a command has reached buffer memory. -/
def State.landed (s : State) (c : Nat) (cmd : Cmd) : Bool :=
  !((s.chain c).rx.any fun f => some f.tag = cmd.tag) && (List.range 4).all fun q => !(s.quarter q).carries c cmd.id

/-- What a command received and has not reached buffer memory is discarded (R560). -/
def State.discardData (s : State) (c : Nat) (cmd : Cmd) : State :=
  let s1 := s.landFrames c cmd false
  { s1 with quarters := Tab.mapVals s1.quarters fun x => { x with
      flights := x.flights.filter fun f => f.cmd ≠ some (c, cmd.id), lands := x.lands.filter fun l => l.cmd ≠ some (c, cmd.id)
      openBuffers := Tab.mapVals x.openBuffers fun l => l.filter fun u => u.cmd ≠ some (c, cmd.id) } }

/-! ### The transmit half (R265) -/

/-- The transmit half, and what a connection may read ahead, in bytes. -/
def txHalf : Nat := 32768
def aheadMax : Nat := 8192

/-- Bytes of a command in the transmit half or on their way to it. -/
def Cmd.held (c : Cmd) : Nat := c.ahead.length + (c.pulls.map (·.n)).sum

/-- A command can read on: its XFER_RDY asks for more than it holds, and nothing has stopped it. -/
def Cmd.readsOn (c : Cmd) : Bool := match c.ready with
  | some (_, n) => c.held < Nat.min n aheadMax && !c.stopped && !c.orphan && c.why = .none
  | none => false

/-- The next bytes a command reads: where they lie, and how many of them in one beat. -/
def Cmd.nextRead (c : Cmd) : Option Nat × Nat := match c.ready with
  | some (off, n) =>
    let k := Nat.min n aheadMax - c.held
    (match segmentParts c.segments 0 (off + c.held) k with
    | (some a, _, m) :: _ => (some a, Nat.min m (64 - a % 64))
    | (none, _, m) :: _ => (none, m)
    | [] => (none, k))
  | none => (none, 0)

/-- The command of the port that reads next: the first that can, while the transmit half has room. -/
def SasPort.reader (x : SasPort) : Option Cmd :=
  if (x.cmds.map Cmd.held).sum < txHalf then x.cmds.find? Cmd.readsOn else none

/-- A byte string joins what a command has read ahead (R265), SELECT bits cleared as its page asks (R179). -/
def Cmd.readAhead (c : Cmd) (bs : List Byte) : Cmd :=
  { c with ahead := c.ahead ++ clearSelect c.clear ((c.ready.map (·.1)).getD 0 + c.ahead.length) bs }

/-- Beats that have arrived join what has been read ahead, in order; a poisoned one stops the transfer (R265). -/
def Cmd.absorb : Nat → Cmd → Cmd
  | 0, c => c
  | k + 1, c => match c.pulls with
    | p :: rest => match p.data with
      | some (_, true) => { c with stopped := true, pulls := [] }
      | some (bs, false) => Cmd.absorb k ({ c with pulls := rest }.readAhead bs)
      | none => c
    | [] => c

/-- The first beat asked for at an address that has not arrived takes its data. -/
def takePull (addr : Nat) (d : List Byte) (bad : Bool) : List Pull → List Pull
  | [] => []
  | p :: rest =>
    if p.beat = addr && p.data.isNone then { p with data := some ((d.drop p.lo).take p.n, bad) } :: rest
    else p :: takePull addr d bad rest

/-- The command waits for the beat at an address. -/
def Cmd.awaits (c : Cmd) (addr : Nat) : Bool := c.pulls.any fun p => p.beat = addr && p.data.isNone

/-- A beat arrives at the port for the first command that waits for it (R285); one that none waits for is dropped. -/
def SasPort.arrives (x : SasPort) (addr : Nat) (d : List Byte) (bad : Bool) : SasPort :=
  match x.cmds.find? fun c => c.awaits addr with
  | some c =>
    let c1 := { c with pulls := takePull addr d bad c.pulls }
    { x with cmds := x.cmds.map fun e => if e.id = c.id then c1.absorb c1.pulls.length else e }
  | none => x

end Sys2Proof.Machine
end

