-- ==== Sys2Proof/Machine/SasOps.lean ====
section
/-! DEFINITION. How commands end at a wide port and what their ends do to legs, runs, gathers, spin-ups and closings;
aborts and recovery (R148, R173, R176, R196 to R201, R207, R239, R258 to R270, R560, R602). -/

namespace Sys2Proof.Machine

/-! ### Events of a wide port (R277, R278) -/

/-- An event packet of wide port `c`: to its own book, the device book and the books of the ports concerned (R277). -/
def State.sasEvent (s : State) (c typ word : Nat) (more ports : List Nat) : State :=
  let payload := (s.time32 * 2 ^ 32 + word) :: more
  ((s.toSas typ c payload c).toDevice typ c payload).toPorts typ c payload ports

/-- Ports that own a handle: a drive's owner, the owner of an enclosure's shelf. -/
def State.handlePorts (s : State) (h : Nat) : List Nat := (List.range 8).filter fun p =>
  s.ownsDrive p h || (decide (384 ≤ h % 512) && decide (h % 512 < 388) && s.ownsShelf p (4 * (h / 512) + h % 512 - 384))

/-- Ports that own a shelf or drive on a chain. -/
def State.chainPorts (s : State) (c : Nat) : List Nat := (List.range 8).filter fun p =>
  (List.range 4).any fun i => s.mayBook p (4 * c + i)

/-- A RECOVERY event (R267, R278). -/
def State.recoveryEvent (s : State) (h step result : Nat) : State :=
  s.sasEvent (chainOfHandle h) 0x24 (step * 2 ^ 24 + result * 2 ^ 16 + h) [] (s.handlePorts h)

/-- A DEVICE event (R278); slot 0xFF when none, KIND 0 drive. -/
def State.deviceHandleEvent (s : State) (c event slot kind handle : Nat) (sas : BitVec 64) (ports : List Nat) : State :=
  s.sasEvent c 0x22 (event * 2 ^ 24 + slot * 2 ^ 16 + kind * 2 ^ 13 + handle) [sas.toNat] ports

/-! ### The command table of a wide port -/

def SasPort.byTag (x : SasPort) (tag : Nat) : Option Cmd := x.cmds.find? fun c => c.tag == some tag
def SasPort.byId (x : SasPort) (id : Nat) : Option Cmd := x.cmds.find? fun c => c.id == id
def SasPort.put (x : SasPort) (c : Cmd) : SasPort :=
  { x with cmds := x.cmds.map fun d => if d.id = c.id then c else d }
def SasPort.drop (x : SasPort) (id : Nat) : SasPort := { x with cmds := x.cmds.filter fun d => d.id ≠ id }
def State.putCmd (s : State) (ch : Nat) (c : Cmd) : State := s.modChain ch fun x => x.put c
def State.dropCmd (s : State) (ch id : Nat) : State := s.modChain ch fun x => x.drop id

/-- Bytes of a command not moved (R173). -/
def Cmd.short (c : Cmd) : Nat := c.len - c.moved

/-- An ending with a status, SCSI status byte and device fault code; the residual is the bytes not moved. -/
def Cmd.ends (c : Cmd) (st scsi fault : BitVec 8) : LegEnd :=
  { status := st, residual := c.short, moved := c.moved, scsi, fault, sense := [] }

/-- TASK ABORTED (R173). -/
def Cmd.aborted (c : Cmd) : LegEnd := c.ends stDeviceCheck 0x40 0
/-- DEVICE-TIMEOUT, fault code 0x03. -/
def Cmd.timedOut (c : Cmd) : LegEnd := c.ends stDeviceTimeout 0 3
/-- LINK-LOST, fault code 0x04. -/
def Cmd.lost (c : Cmd) : LegEnd := c.ends stLinkLost 0 4
/-- OUTING-CLOSED, fault code 0x06. -/
def Cmd.powerLost (c : Cmd) : LegEnd := c.ends stOutingClosed 0 6

/-- How a command ends by its RESPONSE frame (R173). A FLUSH-SPAN write answered GOOD with fewer bytes ends OK-SHORT, as
R191 with R173 gives it, though R166's table gives FLUSH-SPAN no OK-SHORT. DESIGN CHOICE (log 61). -/
def Cmd.byStatus (c : Cmd) (status : BitVec 8) (info : List Byte) : LegEnd :=
  match c.why with
  | .poison => c.ends stDataPoisoned 0 5
  | .wrongDir => c.ends stDeviceCheck 0 1
  | .flushTaint => c.ends stTainted 0 0x11
  | _ =>
    if status = 0 then
      if c.overrun then { c.ends stDeviceCheck 0 2 with residual := 0 }
      else if c.moved < c.len then c.ends stOkShort 0 0
      else c.ends stOk 0 0
    else { c.ends stDeviceCheck status 0 with sense := if status = 0x02 then info else [] }

/-! ### Issue runs (R148, R168) -/

/-- Opcodes that may carry JOIN (R145). -/
def joinable (op : Nat) : Bool := op = 0x10 || op = 0x11 || op = 0x20 || op = 0x21

/-- What the fetch groups held say of a station's leg or JOIN group (R143). -/
inductive GroupFetch where
  /-- The leg at this station has still to be fetched. -/
  | need (station : Nat)
  /-- The leg, or a continuation of it, could not be fetched (R121, R137); the legs of the group before it. -/
  | failed (status : BitVec 8) (legs : List (List Byte))
  | got (legs : List (List Byte))
  deriving DecidableEq, Repr

/-- The legs from a station up to the first without JOIN; of a group of more than 256 (R143) the first 257 are read, counted
and make up the residual: DESIGN CHOICE (log 61), R143 does not say how many count. -/
def collectGroup (f : Tab Fetched) : Nat → Nat → List (List Byte) → GroupFetch
  | 0, _, acc => .got acc
  | n + 1, st, acc =>
    match f.find st with
    | none => .need st
    | some (.failed x) => .failed x acc
    | some (.leg b) =>
      let acc' := acc ++ [b]
      if legJoin b && joinable (legOp (acc'.headD [])) && decide (st < maxStation) then
        collectGroup f n (st + 1) acc'
      else .got acc'

/-- The leg or JOIN group at the traverse's station, as far as it is held. -/
def Trv.groupHere (t : Trv) : GroupFetch := collectGroup t.fetched 257 t.station []

/-- The group belongs to the run in progress (R148): an ISSUE or ISSUE-EXT with NEXT and without HOLD, its handle on
the run's chain and not in the run, and fewer than 32 members. -/
def Trv.joinsRun (t : Trv) (g : List (List Byte)) : Bool :=
  let l := g.headD []
  (legOp l = 0x10 || legOp l = 0x11) && legNext (g.getLastD []) && !legHold l && decide (t.run.length < 32) &&
  t.run.all fun m => m.next && m.handle ≠ legHandle l && chainOfHandle m.handle == chainOfHandle (legHandle l)

/-- A member that ended with an ending status (R139, R148). -/
def RunMember.failed (m : RunMember) : Bool := match m.ended with
  | some e => !continuing e.status m.shortOk
  | none => false

/-- Every member has ended. -/
def Trv.runOver (t : Trv) : Bool := t.run.all fun m => m.ended.isSome

/-- LEG_INFO of a run (R170): of the member reported if it was performed, else of the performed member at the highest
station, else unchanged. -/
def Trv.runInfo (t : Trv) (m : RunMember) : BitVec 64 :=
  let infoOf (m : RunMember) : BitVec 64 := match m.ended with
    | some e => issueInfo e.scsi e.fault e.sense
    | none => t.legInfo
  if m.performed then infoOf m
  else match (t.run.filter (·.performed)).getLast? with
    | some m => infoOf m
    | none => t.legInfo

/-- The run ends (R148, R156, R168): the residual is that of the failing member, else of the highest station that ended short,
whichever ended last in time: DESIGN CHOICE (log 61). The failing member of the lowest station ends the traverse; a run without failures
leaves OK-SHORT if a member ended short and OK otherwise, and the traverse goes on or, without NEXT, ends. FLAGS.SENSE says
that the status block holds sense data (R159), of whichever member it came. Past the last station RESIDUAL stays as the run
left it: DESIGN CHOICE (log 61), R139 gives only RESULT 0. -/
def State.concludeRun (s : State) (t : Trv) : State :=
  let shorts := t.run.filter fun m => match m.ended with
    | some e => e.status == stOkShort && m.shortOk
    | none => false
  match t.run.find? RunMember.failed with
  | some m =>
    let e := m.ended.getD { status := 0, residual := 0, moved := 0, scsi := 0, fault := 0, sense := [] }
    let r := e.result
    let t1 := { t with run := [], runStopped := false, station := m.station, lastStatus := e.status,
                       legInfo := t.runInfo m, residual := e.residual,
                       shortCount := t.shortCount + shorts.length }
    s.endTrv t1 { r.ending m.station t.sb with sense := decide (t.sense ≠ []) && decide (t.sb ≠ 0) }
  | none =>
    let st := if shorts = [] then stOk else stOkShort
    let last := t.run.getLast?
    let res := match shorts.getLast? with
      | some m => (m.ended.map (·.residual)).getD t.residual
      | none => t.residual
    let t1 := { t with
      run := [], runStopped := false, lastStatus := st, residual := res
      shortCount := t.shortCount + shorts.length
      legInfo := (last.map t.runInfo).getD t.legInfo }
    let head := (last.map (·.station)).getD t.station
    if (last.map (·.next)).getD true = false then
      s.endTrv { t1 with station := head } { status := st, station := head, residual := res }
    else if maxStation < t.station then
      s.endTrv { t1 with station := head, lastStatus := stLegInvalid }
        { status := stLegInvalid, station := head }
    else s.putTrv (if t.bound.isSome || t.state ≠ .responseParked then t1 else t1.toReady)

/-- A member has ended. When all have, the run concludes if it cannot grow: it was closed by a leg without NEXT or by
a failed check, or the next leg is held and begins no member; else STATION_START decides. A parked traverse wakes. -/
def State.runSettle (s : State) (t : Trv) : State :=
  if !t.runOver then s.putTrv t
  else if t.runStopped || t.run.any fun m => !m.next then s.concludeRun t
  else match t.groupHere with
    | .got g => if t.joinsRun g then s.putTrv t else s.concludeRun t
    | _ => s.putTrv (if t.state = .responseParked then t.toReady else t)

/-- A member's end noted. -/
def Trv.memberEnds (t : Trv) (station : Nat) (e : LegEnd) : Trv :=
  { t with run := t.run.map fun m => if m.station = station then { m with ended := some e } else m }

/-! ### GATHER (R196 to R201) -/

/-- The 64-bit mask of a set of descriptors. -/
def maskOf (l : List Nat) : Nat := l.foldl (fun m i => m ||| 2 ^ i) 0

/-- Commands of a GATHER still outstanding. -/
def State.gatherCmds (s : State) (t : Trv) : List (Nat × Cmd) :=
  (List.range 12).flatMap fun ch => ((s.chain ch).cmds.filter fun c => match c.owner with
    | .gather p tag _ => decide (p = t.port) && decide (tag = t.tag)
    | _ => false).map fun c => (ch, c)

def Cmd.gatherIndex (c : Cmd) : Nat := match c.owner with
  | .gather _ _ i => i
  | _ => 0

/-- The outcome record (R199). -/
def GatherState.outcomeBytes (g : GatherState) : List Byte :=
  leBytes 8 (maskOf g.arrived) ++ leBytes 8 (maskOf g.late) ++ leBytes 8 (maskOf g.failed.keys) ++
  leBytes 8 (maskOf g.aborted)

/-- Undefined content of the buffers of FAILED and ABORTED descriptors (R199): free bytes. -/
def State.scramble (s : State) (pos n : Nat) : State :=
  let (bs, s1) := s.freeBytes n
  s1.writeBuf pos bs false

/-- The descriptor at index `i` of the GATHER's list, in the leg that runs. -/
def Trv.descriptor (s : State) (t : Trv) (i : Nat) : List Byte := s.readBuf (bufPos (legAddr t.leg) + 32 * i) 32

/-- A shelf of the GATHER has lost power (R163, R201). -/
def State.gatherDark (s : State) (t : Trv) (g : GatherState) : Bool :=
  (g.failed.any fun e => e.2.status == stOutingClosed) ||
  (List.range g.n).any fun i => !(s.shelf (shelfOfHandle (legHandle (t.descriptor s i)))).powered

/-- The GATHER is over (R200, R201): its outcome record is written, then the leg ends; OUTING-CLOSED when a shelf of it has
lost power (R163, R201). One whose lowest FAILED command ended GOOD with fewer bytes ends OK-SHORT by R173, though R166's
table gives GATHER no OK-SHORT. DESIGN CHOICE (log 61). -/
def State.gatherOver (s : State) (t : Trv) (g : GatherState) : State :=
  let bad := g.failed.keys ++ g.aborted
  let s1 := bad.foldl (fun s i =>
    let d := t.descriptor s i
    s.scramble (bufPos (legAddr d)) (g.lens.getD i 0)) s
  let s2 := s1.writeBuf g.outcome g.outcomeBytes false
  let info := some (BitVec.ofNat 64 (maskOf g.arrived))
  let t1 := { t with gather := none }
  let dark := s.gatherDark t g
  if g.k ≤ g.arrived.length && !dark then s2.legDone t1 { status := stOk, info }
  else
    let moved := g.arrived ≠ [] || g.late ≠ [] || g.abortMoved || g.failed.any fun e => decide (0 < e.2.moved)
    let residual := ((List.range g.n).filter fun i => !(i ∈ g.arrived) && !(i ∈ g.late)).map (fun i => g.lens.getD i 0)
    if dark then
      s2.legDone t1 { status := stOutingClosed, info, residual := residual.sum, moved }
    else
      let r : LegResult := match g.failed with
        | (_, e) :: _ => e.result
        | [] => { status := stDeviceCheck, d0 := 0x40 }
      s2.legDone t1 { r with info, residual := residual.sum, moved }

/-- The FLUSHING bit of an accumulator descriptor, byte 5 bit 2, at a byte address of the stacks (R375, R381). -/
def State.setFlushing (s : State) (d : Nat) (on : Bool) : State :=
  let b := (memByte s.mem (d + 5)).toNat
  let cleared := b - 4 * b2n (bitN b 2)
  s.writePhys (d + 5) [BitVec.ofNat 8 (cleared + 4 * b2n on)] false

/-- A write of the accumulator of descriptor `d` is outstanding. -/
def State.flushOut (s : State) (d : Nat) : Bool := (List.range 12).any fun ch => (s.chain ch).cmds.any fun c => c.flush = some d

/-- A command has left the port: with the last write of an accumulator that is still armed, whatever its outcome and whether
or not its leg is still there, FLUSHING clears (R381, R382). -/
def State.flushOver (s : State) (c : Cmd) : State := match c.flush with
  | some d => if s.flushOut d || !(s.accums.any fun a => a.desc = d) then s else s.setFlushing d false
  | none => s

/-- A command that was not sent leaves its port; a closing shelf that waited for it goes on (R232, R259). -/
def State.removeCmd (s : State) (ch : Nat) (c : Cmd) : State :=
  let s1 := (s.dropCmd ch c.id).flushOver c
  if isDriveHandle c.handle then s1.closingAdvance (shelfOfHandle c.handle) else s1

/-- Every outstanding command of a GATHER aborted (R198): one that was sent gets ABORT TASK, one that was not ends at
once in ABORTED. -/
def State.gatherAbort (s : State) (t : Trv) (g : GatherState) : State × GatherState :=
  (s.gatherCmds t).foldl (fun (s, g) (ch, c) =>
    if c.sent then
      if c.why = .none && c.answer.isNone then
        ((s.putCmd ch { c with why := .gather }).sendTmf c.handle 0x01 (some c.id) .port, g)
      else (s, g)
    else (s.removeCmd ch c, { g with aborted := g.aborted ++ [c.gatherIndex] })) (s, { g with aborting := true })

/-- A command of a GATHER has ended (R198 to R200): `arrives` if GOOD with exactly its length; `byAbort` if an abort
GATHER sent ended it. -/
def State.gatherEnd (s : State) (t : Trv) (g : GatherState) (i : Nat) (e : LegEnd) (arrives byAbort : Bool) : State :=
  let g1 :=
    if arrives then
      if g.arrived.length < g.k then { g with arrived := g.arrived ++ [i] } else { g with late := g.late ++ [i] }
    else if byAbort then { g with aborted := g.aborted ++ [i], abortMoved := g.abortMoved || decide (0 < e.moved) }
    else { g with failed := g.failed.set i e }
  let outstanding := (s.gatherCmds t).length
  let (s2, g2) :=
    if !g1.aborting && (g1.arrived.length = g1.k || g1.arrived.length + outstanding < g1.k) then s.gatherAbort t g1
    else (s, g1)
  if s2.gatherCmds t = [] then s2.gatherOver t g2
  else s2.putTrv { t with gather := some g2 }

/-! ### SPIN legs (R206, R207) -/

/-- The ready drives of a shelf after a SPIN leg's START or STOP has reached a drive (R206, R239). -/
def Shelf.spun (x : Shelf) (slot : Nat) (start : Bool) : Shelf :=
  { x with readySlots := (x.readySlots.filter fun j => j ≠ slot) ++ if start then [slot] else [] }

/-- A drive has rejected START STOP UNIT. -/
def SpinOutcome.isRejected : SpinOutcome → Bool
  | .rejected _ _ _ => true
  | _ => false

/-- An outcome of a drive named by a SPIN leg, the first one it has; the leg ends once every drive has one (R207). -/
def State.spinSettle (s0 : State) (t : Trv) (slot : Nat) (o : SpinOutcome) : State :=
  let s := if o = .reached then s0.modShelf (byteAt t.leg 16) fun x => x.spun slot (byteAt t.leg 17 = 1) else s0
  let t1 := { t with spin := t.spin.set slot o }
  if t.spin.find slot ≠ some .waiting then s
  else if t1.spin.any fun x => x.2 = .waiting then s.putTrv t1
  else
    let t2 := { t1 with spin := [] }
    if t1.spin.any fun x => x.2 = .closed then
      let (info, s1) := s.freeInfo
      s1.legDone t2 { status := stOutingClosed, info := some info }
    else
    match t1.spin.find? fun x => x.2.isRejected with
    | some (_, .rejected scsi fault sense) =>
      s.legDone t2 { status := stDeviceCheck, info := some (issueInfo scsi fault sense), d0 := scsi,
                     d1 := BitVec.ofNat 8 (senseCodes sense).1, sense }
    | _ =>
      match t1.spin.find? fun x => x.2 = .notReady with
      | some (j, _) => s.legDone t2 { status := stSpinupTimeout, info := some (BitVec.ofNat 64 j) }
      | none => s.legDone t2 { status := stOk, info := some (BitVec.ofNat 64 t1.spin.length) }

/-! ### Spin-up and opening (R239) -/

/-- The outing of a chain that has been open longest (R231). -/
def State.longestOpen (s : State) (c : Nat) : Option Nat :=
  ((List.range 4).map (fun i => 4 * c + i) |>.filter fun sh => (s.shelf sh).isOpen).foldl
    (fun (best : Option Nat) sh => match best with
      | none => some sh
      | some b => if (s.shelf sh).openedAt < (s.shelf b).openedAt then some sh else best) none

/-- An OPEN outing drains, and closes at once when it has no work (R229, R231). -/
def State.drain (s : State) (sh : Nat) : State :=
  ((s.modShelf sh fun x => { x with lingering := false }).enterShelf sh .draining 0x04 0).workChanged sh

/-- The chain's longest-open outing drains for an eligible shelf with an entry past the age limit (R231). -/
def State.ageDrain (s : State) (c : Nat) : State :=
  match s.longestOpen c with
  | some sh => if (s.shelf sh).state = .opened then s.drain sh else s
  | none => s

/-- An eligible shelf of the chain has a basket entry past the age limit (R231). -/
def State.agedWaits (s : State) (c : Nat) : Bool :=
  (List.range 4).any fun i => s.eligible (4 * c + i) && s.aged (4 * c + i)

/-- A basket entry of an opening shelf takes its booking (R204), and its traverse binds by the shelf's chain (R36). -/
def State.wakeEntry (s : State) (sh : Nat) (b : BasketEntry) : State := s.withTrv b.port b.tag fun (t : Trv) =>
  let keep := t.bookings.filter fun k => k.shelf ≠ sh
  let t1 := { t with bookings := keep ++ [({ shelf := sh, lapsed := false } : Booking)], rebindChain := some (chainOfShelf sh) }
  let (s1, t2) := s.writeRecord { t1 with state := .ready } 0x05 0
  s1.putTrv t2

/-- The spin-up is complete: the shelf opens, its basket wakes with bookings, and the maximum open time starts (R229,
R239, R36, R204); an aged entry that already waits on the chain drains its longest-open outing (R231). While a fall of
SHELF_PG is being debounced the opening waits for its outcome (R247). -/
def State.openShelf (s : State) (sh : Nat) : State :=
  let x := s.shelf sh
  if !x.pgFiltered then s.setShelf sh { x with openPending := true }
  else
  let s1 := (s.setShelf sh { x with
      basket := [], openedAt := s.devMs, maxOpenPassed := false, lingering := false, spinning := false,
      schedule := [], nextStep := 0, openPending := false, sesWait := [] }).enterShelf sh .opened 0x03 0
  let s2 := x.basket.foldl (fun (s : State) (b : BasketEntry) => s.wakeEntry sh b) s1
  let s3 := (x.basket.foldl (fun (s : State) (b : BasketEntry) => s.withTrv b.port b.tag fun t =>
    s.legDone t { status := stOk, info := some 1 }) s2).workChanged sh
  if s3.agedWaits (chainOfShelf sh) then s3.ageDrain (chainOfShelf sh) else s3

/-- The slots a spin-up must see ready: those named by its schedule. -/
def Shelf.scheduled (x : Shelf) : List Nat := x.schedule.flatMap (·.slots)

/-- A slot is ready; the last scheduled one completes the spin-up. -/
def State.slotReady (s : State) (sh slot : Nat) : State :=
  let x := s.shelf sh
  let x1 := { x with readySlots := if slot ∈ x.readySlots then x.readySlots else x.readySlots ++ [slot] }
  let s1 := s.setShelf sh x1
  if x1.state = .spinning && x1.spinning && x1.scheduled.all (· ∈ x1.readySlots) then s1.openShelf sh else s1

/-! ### Closing (R232) -/

/-- A drive of a closing shelf has answered: SYNCHRONIZE CACHE is followed by START STOP UNIT, and a stopped drive
makes room for the next. -/
def State.closingAnswer (s : State) (sh slot : Nat) (stop : Bool) : State :=
  if (s.shelf sh).state ≠ .closing then s
  else if !stop then s.handOver (driveHandle sh slot) (.closing sh slot true) (cdbStartStop false false) 0 0 []
  else
    let x := s.shelf sh
    let rest := x.stopping.filter fun j => j ≠ slot
    let s1 := s.setShelf sh { x with stopping := rest }
    match x.stopping[16]? with
    | some j => s1.handOver (driveHandle sh j) (.closing sh j false) cdbSync 0 0 []
    | none => s1

/-! ### The end of a command -/

/-- The drive itself answered the command. -/
def LegEnd.answered (e : LegEnd) : Bool :=
  e.status = stOk || e.status = stOkShort || (e.status = stDeviceCheck && e.scsi ≠ 0x40 && e.fault = 0)

/-- The leg, planner or firmware that owns the command is told how it ended. Until an issue run concludes, LAST_STATUS,
RESIDUAL and SHORT_COUNT stay as they were before it (R140, R156), and a drive of a SPIN leg whose command ends without its
answer has rejected it (R207): DESIGN CHOICES (log 61). -/
def State.deliverEnd (s : State) (c : Cmd) (e : LegEnd) (byAbort : Bool) : State :=
  if c.orphan then s
  else match c.owner with
    | .leg p tag station => s.withTrv p tag fun t =>
      if t.run.any fun m => m.station = station then
        let sense := if e.status = stDeviceCheck then e.sense else []
        let t1 := t.memberEnds station e
        let (s1, t2) := s.writeSense { t1 with sense := if sense = [] then t1.sense else sense.take 96 } sense
        s1.runSettle t2
      else if t.station = station && t.stage = .awaiting then
        s.legDone { t with flushing := none } e.result
      else s
    | .gather p tag i => s.withTrv p tag fun t => match t.gather with
      | some g => s.gatherEnd t g i e (e.status = stOk && e.moved = c.len) byAbort
      | none => s
    | .spinLeg p tag slot poll => s.withTrv p tag fun t =>
      if e.status = stOk then
        -- A STOP, or a poll answered GOOD, has reached the state; an answered START is polled (R239).
        if poll || byteAt c.cdb 4 % 2 = 0 then s.spinSettle t slot .reached
        else s.modShelf (shelfOfHandle c.handle) fun x => { x with answered := x.answered ++ [slot] }
      else if e.status = stOutingClosed then s.spinSettle t slot .closed
      else if poll then s
      else if e.status = stDeviceCheck || byteAt c.cdb 4 % 2 = 0 then s.spinSettle t slot (.rejected e.scsi e.fault e.sense)
      else s
    | .spinUp sh slot poll =>
      if poll then (if e.status = stOk then s.slotReady sh slot else s)
      else if e.answered then s.modShelf sh fun x => { x with answered := x.answered ++ [slot] }
      else s
    | .closing sh slot stop => s.closingAnswer sh slot stop
    | .firmware => s

/-- How a command ends: as its RESPONSE said when that has come, else as given; whether an abort of GATHER ended it. -/
def Cmd.ending (c : Cmd) (e : LegEnd) (byAbort : Bool) : LegEnd × Bool := match c.answer with
  | some (st, info) => (c.byStatus st info, decide (c.why = .gather) && decide (st = 0x40))
  | none => (e, byAbort)

/-- A command ends: the frames received for it land, its tag frees, its owner is told, and a closing shelf that waited for
it goes on (R232, R259, R264). -/
def State.endCmd (s : State) (ch : Nat) (c : Cmd) (e : LegEnd) (byAbort : Bool) : State :=
  let (e1, b1) := c.ending e byAbort
  let s1 := (((s.landFrames ch c (!c.orphan)).dropCmd ch c.id).flushOver c).deliverEnd c e1 b1
  if isDriveHandle c.handle then s1.closingAdvance (shelfOfHandle c.handle) else s1

/-- Commands end one after another, each with the ending given for it; one that ended meanwhile is passed over. -/
def State.endCmds (s : State) (ch : Nat) (ids : List Nat) (f : Cmd → LegEnd) : State :=
  ids.foldl (fun s id => match (s.chain ch).byId id with
    | some c => s.endCmd ch c (f c) false
    | none => s) s

/-- Commands of a handle, in hand-over order. -/
def SasPort.ofHandle (x : SasPort) (h : Nat) : List Cmd := x.cmds.filter fun c => c.handle = h

/-! ### Aborts by the port -/

/-- A TASK leg sent the function. -/
def Tmf.ofLeg (m : Tmf) : Bool := match m.owner with
  | .leg _ _ => true
  | _ => false

/-- The port sends ABORT TASK for a command, once (R173, R265, R270, R560); a TASK leg's that has not been sent may still be
dropped with its traverse. -/
def State.abortCmd (s : State) (ch : Nat) (c : Cmd) (why : AbortWhy) : State :=
  let s1 := s.putCmd ch { c with why }
  if (s.chain ch).tmfs.any fun m => m.function = 1 && m.managed = some c.id && (m.sent || !m.ofLeg) then s1
  else s1.sendTmf c.handle 0x01 (some c.id) .port

/-- A discarded traverse's command is orphaned (R560): one that was not sent is removed, one that was gets ABORT
TASK, unless its RESPONSE has come; its tag frees when it ends. What it received and has not reached buffer memory is
discarded. -/
def State.orphanCmd (s : State) (ch : Nat) (c : Cmd) : State :=
  let o := { c with orphan := true, pulls := [] }
  if !c.sent then s.removeCmd ch c
  else if c.answer.isSome then (s.discardData ch c).endCmd ch o c.aborted false
  else (s.discardData ch c).abortCmd ch o .orphan

/-! ### Recovery of a handle (R267 to R269, R602) -/

/-- Recovery ends; the handle's FIFO goes on. Its functions that were not sent go, and the port takes the answers of those
that were. -/
def State.endRecovery (s : State) (h : Nat) : State :=
  let own (m : Tmf) : Bool := decide (m.handle = h) && decide (m.owner = .recovery)
  (s.modHandle h fun x => { x with recovery := none }).modChain (chainOfHandle h) fun y => { y with
    tmfs := (y.tmfs.filter fun m => !own m || m.sent).map fun m => if own m then { m with owner := .port } else m }

/-- A BUSY retry that waits when recovery starts is cancelled and ends as recovery ends other commands (R279). -/
def State.cancelRetries (s : State) (h : Nat) : State :=
  let ch := chainOfHandle h
  s.endCmds ch (((s.chain ch).ofHandle h).filter (·.retrying) |>.map (·.id)) Cmd.aborted

/-- SLOT and KIND of a DEVICE event about a handle (R278). -/
def slotField (h : Nat) : Nat := if isDriveHandle h then slotOfHandle h else 0xFF
def State.kindField (s : State) (h : Nat) : Nat :=
  if isDriveHandle h then 0 else if h % 512 < 388 || (s.handle h).ses then 2 else 1

/-- A command that the port aborts ends as its own rule says when recovery or the loss of its target ends it (R201, R269,
R270, R378), and another as `e`; the second component says whether an abort of GATHER ended it. -/
def Cmd.cut (c : Cmd) (e : LegEnd) : LegEnd × Bool := match c.why with
  | .gather => (c.aborted, true)
  | .poison => (c.ends stDataPoisoned 0 5, false)
  | .flushTaint => (c.ends stTainted 0 0x11, false)
  | .wrongDir => (c.ends stDeviceCheck 0 1, false)
  | .broken => (if e = c.aborted then { e with fault := 7 } else e, false)
  | _ => (e, false)

/-- Commands cut off one after another, each as its own rule says or as `f` gives. -/
def State.cutCmds (s : State) (ch : Nat) (ids : List Nat) (f : Cmd → LegEnd) : State :=
  ids.foldl (fun s id => match (s.chain ch).byId id with
    | some c => let (e, byAbort) := c.cut (f c); s.endCmd ch c e byAbort
    | none => s) s

/-- The handle is detached: its commands end, the timed-out ones DEVICE-TIMEOUT and the others LINK-LOST (R258, R267,
R602), DETACHED is recorded, and its target is no longer one found on the chain (R251). -/
def State.detach (s : State) (h : Nat) : State :=
  let ch := chainOfHandle h
  let x := s.handle h
  let late := (x.recovery.map (·.timedOut)).getD []
  let s1 := (s.setHandle h { x with attached := none, lost := false, recovery := none }).deviceHandleEvent ch 0x02
    (slotField h) (s.kindField h) h (x.attached.getD 0) (s.handlePorts h)
  let s2 := s1.modChain ch fun y => { y with
    found := y.found.filter fun a => x.attached ≠ some a
    tmfs := y.tmfs.filter fun m => m.handle ≠ h || m.owner ≠ .recovery }
  s2.cutCmds ch (((s2.chain ch).ofHandle h).map (·.id)) fun c => if c.id ∈ late then c.timedOut else c.lost

/-- Recovery takes a step (R267): ABORT TASKs at step 1 are sent by its callers; steps 2 and 3 are task management
functions, step 4 an SMP PHY CONTROL. -/
def State.recoveryStep (s : State) (h step : Nat) : State :=
  let s1 := s.modHandle h fun x => { x with recovery := x.recovery.map fun r => { r with step, missed := false } }
  if step = 2 then s1.sendTmf h 0x08 none .recovery
  else if step = 3 then s1.sendTmf h 0x10 none .recovery
  else s1.emit (.hardReset (chainOfHandle h) h)

/-- Recovery of a handle starts at a step, or a command joins the one in progress, which an unanswered abort of the port
takes on from step 1 (R267 to R270). -/
def State.startRecovery (s : State) (h step : Nat) (ids : List Nat) : State :=
  match (s.handle h).recovery with
  | some r =>
    let s1 := s.modHandle h fun x => { x with recovery := some { r with timedOut := r.timedOut ++ ids } }
    if r.step ≠ 1 then s1
    else if step = 1 then ids.foldl (fun s i => s.sendTmf h 0x01 (some i) .recovery) s1
    else s1.recoveryStep h step
  | none =>
    let s1 := (s.modHandle h fun x => { x with recovery := some { step, timedOut := ids, missed := false } }).cancelRetries h
    if step = 1 then ids.foldl (fun s i => s.sendTmf h 0x01 (some i) .recovery) s1 else s1.recoveryStep h step

/-- A step of 2 to 4 was answered: every command sent to the handle ends, and recovery with them (R267). The command a
port abort concerned ends as its own rule says (R269, R270). -/
def State.recoveryAnswered (s : State) (h : Nat) : State :=
  let ch := chainOfHandle h
  let late := ((s.handle h).recovery.map (·.timedOut)).getD []
  let s1 := s.endRecovery h
  s1.cutCmds ch (((s1.chain ch).ofHandle h).filter (fun c => c.sent || c.id ∈ late) |>.map (·.id)) fun c =>
    if c.id ∈ late then c.timedOut else c.aborted

/-- A step was not answered: the next one follows, and after step 4 the handle is detached (R267). While nexus-loss
handling runs, no further step is taken (R602). -/
def State.recoveryMissed (s : State) (h : Nat) (result : Nat) : State :=
  match (s.handle h).recovery with
  | none => s
  | some r =>
    let s1 := s.recoveryEvent h r.step result
    if (s.handle h).lost then
      s1.modHandle h fun x => { x with recovery := some { r with missed := true } }
    else if r.step < 4 then s1.recoveryStep h (r.step + 1)
    else (s1.recoveryEvent h 5 0).detach h

/-- An ABORT TASK of step 1 was answered: its command ends DEVICE-TIMEOUT, and recovery ends with the last (R267). -/
def State.abortAnswered (s : State) (h id : Nat) : State :=
  let ch := chainOfHandle h
  let s1 := s.recoveryEvent h 1 0
  let s2 := match (s1.chain ch).byId id with
    | some c => s1.endCmd ch c c.timedOut false
    | none => s1
  match (s2.handle h).recovery with
  | some r =>
    let rest := r.timedOut.filter fun i => i ≠ id
    if r.step = 1 && rest.all (fun i => ((s2.chain ch).byId i).isNone) then s2.endRecovery h
    else s2.modHandle h fun x => { x with recovery := some { r with timedOut := rest } }
  | none => s2

/-- Recovery at step 1 is over once none of its timed-out commands remains (R279). -/
def State.recoverySettle (s : State) (h : Nat) : State :=
  match (s.handle h).recovery with
  | some r =>
    if r.step = 1 && r.timedOut.all (fun i => ((s.chain (chainOfHandle h)).byId i).isNone) then s.endRecovery h else s
  | none => s

end Sys2Proof.Machine
end

