-- ==== Sys2Proof/Machine/Accum.lean ====
section
/-! DEFINITION. Span accumulators at the memory node (R375, R378 to R382) and the ACCUMULATE beat (R285). -/

namespace Sys2Proof.Machine

/-- The extent handle of a byte address of the stacks. -/
def handleOf (addr : Nat) : Nat := addr / 2 ^ 36 * extentsPerQuarter + addr % 2 ^ 36 / 65536

/-- A byte address lies in an extent (R398). -/
def inExtents (addr : Nat) : Bool := addr % 2 ^ 36 < extentsPerQuarter * 65536

/-- An extent belongs to the accumulator. -/
def Accum.holds (a : Accum) (h : Nat) : Bool := a.first ≤ h && h < a.first + a.unit

/-- The armed accumulator an extent belongs to. -/
def State.accumOf (s : State) (h : Nat) : Option Accum := s.accums.find? fun a => a.holds h

/-- A byte of a descriptor. -/
def State.descByte (s : State) (a : Accum) (i : Nat) : Nat := (memByte s.mem (a.desc + i)).toNat

/-- TAINTED set with a reason; the first reason stays (R379). -/
def State.taint (s : State) (a : Accum) (reason : Nat) : State :=
  let st := s.descByte a 5
  let s1 := s.writePhys (a.desc + 5) [BitVec.ofNat 8 (if bitN st 1 then st else st + 2)] false
  if s.descByte a 6 = 0 then s1.writePhys (a.desc + 6) [BitVec.ofNat 8 reason] false else s1

/-- The writes of every flush that reads an accumulator are aborted, and their legs end TAINTED (R219, R378). -/
def State.abortFlush (s : State) (a : Accum) : State :=
  (List.range 12).foldl (fun (s : State) ch =>
    ((s.chain ch).cmds.filter fun c => !c.orphan && c.flush = some a.desc).foldl (fun (s : State) c =>
      if !c.sent then s.endCmd ch c (c.ends stTainted 0 0x11) false
      else if c.why = .none then s.abortCmd ch c .flushTaint
      else s) s) s

/-- COUNT after one more contribution, with OVERCOUNT (R378). -/
def State.countContribution (s : State) (a : Accum) : State :=
  let n := leNat (s.readPhys (a.desc + 8) 4)
  let n1 := Nat.min (n + 1) (2 ^ 32 - 1)
  let s1 := s.writePhys (a.desc + 8) (leBytes 4 n1) false
  if a.total < n1 then s1.taint a 3 else s1

/-- The armed accumulator that holds an address. -/
def State.accumAt (s : State) (addr : Nat) : Option Accum := if inExtents addr then s.accumOf (handleOf addr) else none

/-- An ACCUMULATE beat applied at a byte address (R285, R378): the product is XORed into the beat, which stays or
becomes poisoned; FLUSHING taints. -/
def State.accumBeat (s : State) (addr : Nat) (coef : Byte) (data : BitVec 512) (poison : Bool) : State :=
  let base := addr / 64 * 64
  let new := xorBytes (s.readPhys base 64) (gfScale coef (beatBytes data))
  let s1 := s.writePhys base new (poison || s.physPoisoned base 64)
  match s1.accumAt addr with
  | none => s1
  | some a => if bitN (s1.descByte a 5) 2 then (s1.taint a 2).abortFlush a else s1

/-- A contribution with END counted at the accumulator that holds an address (R378). -/
def State.countAt (s : State) (addr : Nat) : State := match s.accumAt addr with
  | none => s
  | some a => s.countContribution a

/-- Accumulators with an extent, or whose descriptor's extent, leaves its port are disarmed (R380). -/
def State.disarmIn (s : State) (lost : Nat → Bool) : State :=
  let gone (a : Accum) : Bool := lost (handleOf a.desc) || (List.range a.unit).any fun i => lost (a.first + i)
  ((s.accums.filter gone).foldl (fun (s : State) a => s.writePhys (a.desc + 5) [0] false) s) |> fun s =>
    { s with accums := s.accums.filter fun a => !gone a }

/-- TAINTED with REASON CONTAINMENT on every armed accumulator with one of the extents (R379). -/
def State.taintAll (s : State) (exts : List Nat) : State :=
  (s.accums.filter fun a => exts.any a.holds).foldl (fun (s : State) a => s.taint a 1) s

end Sys2Proof.Machine
end

