-- ==== Sys2Proof/Machine/Mailbox.lean ====
section
/-! DEFINITION. Mailbox instances, doorbells, the service queue of the system controller (R493 to R501, R407). -/

namespace Sys2Proof.Machine

/-! ### Doorbells (R495, R497, R491) -/

/-- Some enabled doorbell bit is set: interrupt source 0 follows it (R491). -/
def Core.doorbellLevel (x : Core) : Core :=
  let on := x.doorbells.any fun (i, b) => b &&& x.doorbellEn.get i 0 ≠ 0
  { x with irqPend := if on then x.irqPend ||| 1 else x.irqPend &&& ~~~1 }

/-- A doorbell bit of a core sets. -/
def State.ringCore (s : State) (k reg bit : Nat) : State :=
  s.modCore k fun x =>
    ({ x with doorbells := x.doorbells.set reg (x.doorbells.get reg 0 ||| BitVec.ofNat 32 (2 ^ bit)) } :
      Core).doorbellLevel

/-- A bit of MB_HDB sets; while its enable bit is 1 it sets FN_STAT.MB_NOTICE (R66, R497, R499). -/
def State.ringHost (s : State) (p bit : Nat) : State :=
  let x := s.port p
  let s1 := s.setPort p { x with hdb := x.hdb ||| BitVec.ofNat 32 (2 ^ bit) }
  if x.hdbEn.getLsbD bit && !x.hdb.getLsbD bit then s1.portEvent p 3 else s1

/-! ### Instances (R495, R498) -/

/-- Instance numbers: those of MB_SEL, then PEER e.j at 164 + 4e + j. -/
def instPeer (e j : Nat) : Nat := 164 + 4 * e + j
def instSecureReq : Nat := 160
def instSecureRpl : Nat := 161
def instMonIn : Nat := 162
def instMonOut : Nat := 163

/-- Who is at an end of an instance. -/
inductive Party where
  | host (p : Nat)
  | core (k : Nat)
  | nobody
  deriving DecidableEq, Repr

/-- The administrative port, if the role is a port's (R71). -/
def State.adminParty (s : State) : Party := match s.manage.principal with
  | some p => .host p
  | none => .nobody

/-- The sender of an instance. -/
def State.mbSender (s : State) (i : Nat) : Party :=
  if i < 32 then .host (i / 4)
  else if i < 112 then .core 48
  else if i < 160 then .core (i - 112)
  else if i = instSecureReq then s.adminParty
  else if i = instMonOut then .core 49
  else if i < 164 then .core 48
  else .core ((i - 164) / 4)

/-- The receiver of an instance. -/
def State.mbReceiver (s : State) (i : Nat) : Party :=
  if i < 32 then .core 48
  else if i < 64 then .host ((i - 32) / 4)
  else if i < 112 then .core (i - 64)
  else if i < 160 then .core 48
  else if i = instSecureReq || i = instMonOut then .core 48
  else if i = instSecureRpl then s.adminParty
  else if i = instMonIn then .core 49
  else .core (4 * ((i - 164) / 16) + (i - 164) % 4)

/-- Secure instances (R495, R496). -/
def mbSecure (i : Nat) : Bool := 160 ≤ i && i < 164

/-- The receiver's doorbell bit sets. -/
def State.mbRing (s : State) (i : Nat) : State :=
  if i < 32 then s.ringCore 48 0 i
  else if i < 64 then s.ringHost ((i - 32) / 4) (i % 4)
  else if i < 112 then s.ringCore (i - 64) 0 0
  else if i < 136 then s.ringCore 48 1 (i - 112)
  else if i < 160 then s.ringCore 48 2 (i - 136)
  else if i = instSecureReq then s.ringCore 48 3 0
  else if i = instSecureRpl then match s.manage.principal with
    | some p => s.ringHost p 4
    | none => s
  else if i = instMonIn then s.ringCore 49 0 0
  else if i = instMonOut then s.ringCore 48 3 1
  else s.ringCore (4 * ((i - 164) / 16) + (i - 164) % 4) 0 (4 + (i - 164) / 4 % 4)

/-- A context of a core may use the instance: of the system controller the secure ones answer only context 7 (R496). -/
def mbMayUse (k c i : Nat) : Bool := !mbSecure i || k ≠ 48 || c = 7

/-- The core issues instructions. -/
def Core.running (x : Core) : Bool := !x.halted && !x.inReset && !x.gated && !x.stalled

/-- The running context may reach I/O ports (R436). -/
def State.mayAccess (s : State) (k : Nat) : Bool := k < 50 && (s.core k).running && ((s.core k).ctx (s.core k).cur).s

/-- An access of a sender takes place: that of a core is its running context's, in supervisor mode (R436). -/
def State.senderMay (s : State) : Sender → Bool
  | .port p => s.barOpen p
  | .core k c => s.mayAccess k && (s.core k).cur = c

/-- A 32-bit write of a sender to a register both have. -/
def State.senderWrite (s : State) (by_ : Sender) (f : State → State) : State := match by_ with
  | .port p => (s.hostTlp p 0 4).barAccess p f
  | .core _ _ => if s.senderMay by_ then f s else s

/-! ### Actions (R493, R494) -/

def State.modMailbox (s : State) (i : Nat) (f : Mailbox → Mailbox) : State := s.setMailbox i (f (s.mailbox i))

/-- A message word is written: COLLISION while FULL. -/
def Mailbox.putWord (b : Mailbox) (w : Nat) (v : Word) : Mailbox :=
  { b with words := b.words.set w v, collision := b.collision || b.full }

/-- A post with a length: refused with length 0 or above 32. -/
def State.mbPostLen (s : State) (i len : Nat) : State :=
  let b := s.mailbox i
  if len = 0 || 32 < len then s.setMailbox i { b with fieldRefused := true }
  else (s.setMailbox i { b with full := true, len, collision := b.collision || b.full }).mbRing i

/-- A release: a released request tells its host port (R499, R500). -/
def State.mbRelease (s : State) (i : Nat) : State :=
  let b := s.mailbox i
  if !b.full then s
  else
    let s1 := s.setMailbox i { b with full := false }
    if i < 32 then s1.ringHost (i / 4) (8 + i % 4)
    else if i = instSecureReq then match s.manage.principal with
      | some p => s1.ringHost p 12
      | none => s1
    else s1

/-- The engine group of a core runs again (R38, R494). -/
def State.ungate (s : State) (k : Nat) : State :=
  if k < 48 then (List.range 4).foldl (fun (s : State) i => s.modCore (4 * (k / 4) + i) fun x => { x with gated := false }) s
  else s

/-- The instance of a port's mailbox `m`: 0 to 3, or 4 for the secure one of the administrative port. -/
def State.portReq (s : State) (p m : Nat) : Option Nat :=
  if m < 4 then some (4 * p + m) else if m = 4 && s.manage.principal = some p then some instSecureReq else none
def State.portRpl (s : State) (p m : Nat) : Option Nat :=
  if m < 4 then some (32 + 4 * p + m) else if m = 4 && s.manage.principal = some p then some instSecureRpl else none

/-- A host's write of MB_REQ_POST: the secure window is reserved on other ports. -/
def State.mbReqPost (s : State) (p m : Nat) (v : BitVec 32) : State := match s.portReq p m with
  | some i => s.mbPostLen i (bitsOf v.toNat 5 0)
  | none => s.unclaimed p

/-- MB_REQ_POST (R493, R499). -/
def execMbReqPost (p m : Nat) (v : BitVec 32) (s : State) : Ans :=
  .next ((s.hostTlp p 0 4).barAccess p (·.mbReqPost p m v))

/-- A host's write of MB_RPL_REL. -/
def State.mbRplRel (s : State) (p m : Nat) (v : BitVec 32) : State := match s.portRpl p m with
  | some i => if v.getLsbD 0 then s.mbRelease i else s
  | none => s.unclaimed p

/-- MB_RPL_REL (R493, R499). -/
def execMbRplRel (p m : Nat) (v : BitVec 32) (s : State) : Ans :=
  .next ((s.hostTlp p 0 4).barAccess p (·.mbRplRel p m v))

/-- The party a register sender is. -/
def senderParty : Sender → Party
  | .port p => .host p
  | .core k _ => .core k

/-- A write that includes word 0 (R493, R494, R499): a port writes words 0 and 1; in WAKE mode it posts with LEN 32
and ungates the receiver's island. -/
def State.mbWord0 (s : State) (by_ : Sender) (inst : Nat) (v : BitVec 32) : State :=
    let may := match by_ with
      | .core k c => mbMayUse k c inst
      | .port _ => true
    if s.mbSender inst ≠ senderParty by_ || !may then s
    else
      let s1 := s.modMailbox inst fun b => b.putWord 0 (v.setWidth 16)
      let s2 := match by_ with
        | .port _ => s1.modMailbox inst fun b => b.putWord 1 (v.extractLsb' 16 16)
        | .core _ _ => s1
      if (s.mailbox inst).wake then
        let s3 := s2.mbPostLen inst 32
        match s.mbReceiver inst with
        | .core k => s3.ungate k
        | _ => s3
      else s2

/-- MB_WAKE_WORD0_WRITE (R494). -/
def execMbWakeWord0Write (by_ : Sender) (inst : Nat) (v : BitVec 32) (s : State) : Ans :=
  .next (s.senderWrite by_ (·.mbWord0 by_ inst v))

/-- A write of MB_POST by a context of a core. -/
def State.mbPost (s : State) (k c inst : Nat) (v : Word) : State :=
  if s.mbSender inst = .core k && mbMayUse k c inst then s.mbPostLen inst (bitsOf v.toNat 5 0) else s

/-- A write of MB_REL by a context of a core. -/
def State.mbRel (s : State) (k c inst : Nat) (v : Word) : State :=
  if s.mbReceiver inst = .core k && mbMayUse k c inst && v.getLsbD 0 then s.mbRelease inst else s

/-- A post by a core's running context (R436, R493, R498). -/
def execMbPost (k inst : Nat) (v : Word) (s : State) : Ans :=
  .next (if s.mayAccess k then s.mbPost k (s.core k).cur inst v else s)

/-- A release by a core's running context (R436, R493, R498). -/
def execMbRel (k inst : Nat) (v : Word) (s : State) : Ans :=
  .next (if s.mayAccess k then s.mbRel k (s.core k).cur inst v else s)

/-! ### Serving requests (R407, R500, R501) -/

/-- The reply instance of a request instance. -/
def replyInst (i : Nat) : Nat := if i = instSecureReq then instSecureRpl else 32 + i

/-- A reply is written and posted: one word per entry. -/
def State.postReply (s : State) (i : Nat) (words : List Nat) : State :=
  let r := replyInst i
  let ws : Tab Word := (List.range words.length).zip (words.map fun w => (BitVec.ofNat 16 w : Word))
  (s.modMailbox r fun b => ws.foldl (fun (b : Mailbox) (j, w) => b.putWord j w) b).mbPostLen r words.length

/-- Message codes a mailbox accepts (R245, R276, R376, R403, R501). -/
def mbAccepts (i code : Nat) : Bool :=
  code = 0x0601 || code = 0x0602 || code = 0x0603 || code = 0x0701 ||
  if i = instSecureReq then 1 ≤ code && code ≤ 9
  else code = 0x0801 || code = 0x0802 || (0x0901 ≤ code && code ≤ 0x0903)

/-- MAILBOX_REQUEST_TAKE (R500): a posted request whose reply is empty, and none of its mailbox in service, is copied
and released; a collision or an unknown code is answered INVALID at once, any other joins the service queue. -/
def execMailboxRequestTake (inst : Nat) (s : State) : Ans :=
  .next (
    let b := s.mailbox inst
    if s.mode ≠ .ready || !(inst < 32 || inst = instSecureReq) || !b.full || (s.mailbox (replyInst inst)).full ||
        s.service.any (fun v => v.inst = inst) then s
    else
      let ws := (List.range b.len).map fun w => b.words.get w 0
      let s1 := s.mbRelease inst
      if b.collision || !mbAccepts inst (ws.headD 0).toNat then s1.postReply inst [3]
      else { s1 with service := s1.service ++ [{ inst, words := ws, order := s.seqNo }], seqNo := s.seqNo + 1 })

/-- Word `i` of a request. -/
def Service.word (v : Service) (i : Nat) : Nat := (v.words.getD i 0).toNat

/-- One of the actions served in their order of receipt (R407): allocator messages, ACCUM-ARM, ACCUM-DISARM and commits. -/
def Service.ordered (v : Service) : Bool :=
  v.mctp.isSome || (if v.inst = instSecureReq then v.word 0 = 3 else 0x0801 ≤ v.word 0)

/-- A START received before an action of the given place is still in admission (R407). -/
def State.behindStart (s : State) (order : Nat) : Bool :=
  s.admitting.any fun a => !s.contained a.port && decide (a.order < order)

/-- An action received before a START of the given place has not been served (R407). -/
def State.behindAction (s : State) (order : Nat) : Bool := s.service.any fun v => v.ordered && decide (v.order < order)

/-- The request at the front of the service queue, if it has the code and its turn has come (R407). -/
def State.serving (s : State) (code : Nat) : Option Service := match s.service with
  | v :: _ =>
    if v.word 0 = code && v.mctp.isNone && s.mode = .ready && !(v.ordered && s.behindStart v.order) then some v else none
  | [] => none

/-- The front request is answered. -/
def State.answer (s : State) (words : List Nat) : State := match s.service with
  | v :: rest => ({ s with service := rest } : State).postReply v.inst words
  | [] => s

/-- The port a request came from; none through the secure mailbox, whose ownership checks are waived (R501). -/
def Service.port (v : Service) : Option Nat := if v.inst = instSecureReq then none else some (v.inst / 4)

/-- Four words as a 64-bit value, low word first. -/
def Service.quad (v : Service) (i : Nat) : BitVec 64 :=
  BitVec.ofNat 64 (v.word i + v.word (i + 1) * 2 ^ 16 + v.word (i + 2) * 2 ^ 32 + v.word (i + 3) * 2 ^ 48)

/-- A value in two words, low word first. -/
def twoWords (n : Nat) : List Nat := [n % 65536, n / 65536 % 65536]

end Sys2Proof.Machine
end

