-- ==== Sys2Proof/Machine/Queues.lean ====
section
/-! DEFINITION. Submission and completion queues (R81 to R119), the collector (R37) and MSI-X messages (R69). -/

namespace Sys2Proof.Machine

def Port.sq (x : Port) (q : Nat) : SubQueue := x.sqs.get q {}
def Port.cq (x : Port) (q : Nat) : CompQueue := x.cqs.get q {}
def Port.vec (x : Port) (v : Nat) : CompVector := x.vecs.get v {}
def Port.setSq (x : Port) (q : Nat) (y : SubQueue) : Port := { x with sqs := x.sqs.set q y }
def Port.setCq (x : Port) (q : Nat) (y : CompQueue) : Port := { x with cqs := x.cqs.set q y }
def Port.setVec (x : Port) (v : Nat) (y : CompVector) : Port := { x with vecs := x.vecs.set v y }

/-- The reads of one submission ring no longer awaited. -/
def Port.dropRing (x : Port) (q : Nat) : Port :=
  x.dropReads fun r => match r.purpose with
    | .ring u _ => u = q
    | _ => false

/-! ### Derived status bits -/

/-- STALLED of a completion queue (R108). -/
def CompQueue.stalled (y : CompQueue) : Bool := y.waiting ≠ []

/-- FENCED (R99): the first cached entry has FENCE and an earlier entry lacks a posted completion. -/
def SubQueue.fenced (y : SubQueue) : Bool := match y.cache with
  | e :: _ => bitN (byteAt e 1) 1 && decide (0 < y.lacking)
  | [] => false

/-- The completion queue a submission queue names is stalled (R109). ADM_STALL reads 1 for it while a scan waits: DESIGN
CHOICE (log 60), since R85 speaks of a scan that waits and R109 of every queue that names it. -/
def Port.admStall (x : Port) (q : Nat) : Bool := (x.cq (x.sq q).cqid).stalled

/-- SQ_STAT.IDLE (R85, R115); a queue that a containment stopped has it 0 until that ends (R117). -/
def State.sqIdle (s : State) (p q : Nat) : Bool :=
  let y := (s.port p).sq q
  !y.en && y.lacking = 0 && !y.stopped

/-- CQ_STAT.IDLE (R87): nothing pending for the queue, and every submission queue naming it is disabled and idle. -/
def State.cqIdle (s : State) (p q : Nat) : Bool :=
  let x := s.port p
  !(x.cq q).stalled && !(s.released.any fun c => decide (c.port = p) && decide (c.cq = q)) &&
  !(s.collector.any fun r => decide (r.comp.port = p) && decide (r.comp.cq = q)) &&
  (List.range x.ap.sqCount).all fun i => (x.sq i).cqid ≠ q || (!(x.sq i).en && s.sqIdle p i)

/-! ### Coalescing (R111, R112) -/

/-- THRESH and TIMER_US of the presets. -/
def coalPreset : Nat → Nat × Nat
  | 0 => (1, 0) | 1 => (4, 8) | 2 => (16, 32) | _ => (64, 128)

/-- The basic level's derived values: from the lowest COAL among the enabled queues using the vector. -/
def Port.derivedCoal (x : Port) (v : Nat) : Nat × Nat :=
  coalPreset (((x.cqs.filter fun kv => kv.2.en && kv.2.vector = v).map fun kv => kv.2.coal).min?.getD 0)

/-- The values a vector's level gives. -/
def Port.coalSet (x : Port) (v : Nat) : Nat × Nat :=
  let y := x.vec v
  if y.expert then (y.thresh, y.timerUs) else x.derivedCoal v

/-- The values in effect. -/
def Port.coalNow (x : Port) (v : Nat) : Nat × Nat := (x.vec v).held.getD (x.coalSet v)

/-- A vector sends its message (R111): the count returns to 0, and changed parameters take effect (R112). -/
def State.vectorMessage (s : State) (p v : Nat) : State :=
  (s.modPort p fun x => x.setVec v { x.vec v with count := 0, timerOn := false, held := none }).raiseVector p v

/-- A completion posted counts at its vector (R111). -/
def State.countVector (s : State) (p v : Nat) (now : Bool) : State :=
  let x := s.port p
  let y := x.vec v
  let (thresh, timer) := x.coalNow v
  let s1 := s.setPort p (x.setVec v { y with count := y.count + 1, timerOn := true })
  if now || thresh ≤ y.count + 1 || timer = 0 then s1.vectorMessage p v else s1

/-! ### Posting (R102, R106 to R109) -/

/-- The 32 bytes of a completion entry (R102, R104, R105). -/
def Completion.bytes (c : Completion) (sqHead : Nat) (epoch : BitVec 16) (phase : Bool) : List Byte :=
  leBytes 2 c.tag ++ leBytes 2 c.sq ++ leBytes 2 sqHead ++ leBytes 1 c.status.toNat ++
  leBytes 1 (b2n c.entry + 2 * b2n c.dataMoved + 4 * b2n c.sense + 8 * b2n c.dev) ++ leBytes 8 c.result.toNat ++
  leBytes 4 c.station ++ leBytes 2 epoch.toNat ++ leBytes 1 c.detail0.toNat ++ leBytes 1 c.detail1.toNat ++
  leBytes 4 0 ++ leBytes 4 (b2n phase)

/-- Ring space for a completion (R108), at an enabled queue of a port that can be written (R59, R599). A completion that
comes to a disabled queue waits, and is posted after the queue has been enabled and a head doorbell returns space:
DESIGN CHOICE (log 60), the manual does not say what happens to it. -/
def Port.canPost (x : Port) (q : Nat) (notice : Bool) : Bool :=
  let y := x.cq q
  y.en && x.linkUp && !x.d3hot &&
    (if notice then y.unreturned + 2 ≤ 2 ^ y.log2 else y.unreturned + 3 ≤ 2 ^ y.log2)

/-- One completion written to its ring: TAIL and the phase advance, the traverse it ends is no longer live, and its
vector counts it (R91, R93, R106, R111, R129). -/
def State.postNow (s : State) (c : Completion) : State :=
  let x := s.port c.port
  let y := x.cq c.cq
  let sqHead := if c.notice then 0 else (x.sq c.sq).head
  let epoch := if c.notice then c.epoch else x.fnEpoch
  let s1 := (s.countTlp c.port 1 256 32).emit (.hostWrite c.port (y.base.toNat + 32 * y.tail) (c.bytes sqHead epoch y.phase) false false)
  let wrap := y.tail + 1 = 2 ^ y.log2
  let y1 := { y with
    tail := if wrap then 0 else y.tail + 1
    phase := if wrap then !y.phase else y.phase
    unreturned := y.unreturned + 1 }
  let x1 := x.setCq c.cq y1
  let x2 := if c.notice || !c.counted then x1 else x1.setSq c.sq { x1.sq c.sq with lacking := (x1.sq c.sq).lacking - 1 }
  let s2 := s1.setPort c.port x2
  let s3 := if c.ends then s2.dropTrv c.port c.tag else s2
  s3.countVector c.port y.vector (c.urgent || c.notice)

/-- Waiting completions of a queue posted in order, as far as space goes (R109). -/
def State.postWaiting : Nat → Nat → Nat → State → State
  | 0, _, _, s => s
  | n + 1, p, q, s =>
    match ((s.port p).cq q).waiting with
    | [] => s
    | c :: rest =>
      if (s.port p).canPost q c.notice then
        State.postWaiting n p q
          ((s.modPort p fun x => x.setCq q { x.cq q with waiting := rest }).postNow c)
      else s

/-- All waiting completions of a queue that fit. -/
def State.postAll (s : State) (p q : Nat) : State := State.postWaiting ((s.port p).cq q).waiting.length p q s

/-- The traverse of a completion that waits for room parks: completion-pending (R109, R132, R133). -/
def State.parkEnded (s : State) (c : Completion) : State :=
  if c.ends then s.withTrv c.port c.tag fun t => let (s1, t1) := s.writeEntry t; s1.putTrv t1 else s

/-- A completion reaches its queue: posted, or waiting behind those that wait (R108, R109). -/
def State.postOrWait (s : State) (c : Completion) : State :=
  let y := (s.port c.port).cq c.cq
  if !y.stalled && (s.port c.port).canPost c.cq c.notice then s.postNow c
  else (s.parkEnded c).modPort c.port fun x => x.setCq c.cq { x.cq c.cq with waiting := (x.cq c.cq).waiting ++ [c] }

/-- COMPLETION_POST (R108): the oldest completion released for the port. -/
def execCompletionPost (p : Nat) (s : State) : Ans :=
  match s.released.find? fun c => c.port = p with
  | none => .next s
  | some c =>
    let rest := s.released.eraseP fun c => c.port = p
    .next (({ s with released := rest } : State).postOrWait c)

/-- Records of one frame in the collector's order (R37): those no engine formed, as they came, then by engine. -/
def frameOrder (l : List CollectorRec) : List CollectorRec :=
  l.filter (fun r => r.engine.isNone) ++
  (List.range 48).flatMap fun e => l.filter fun r => r.engine = some e

/-- Frames a quarter's records take to the collector (R293). -/
def collectorDelay (q : Nat) : Nat := if q = 0 then 0 else if q = 2 then 4 else 2

/-- Every quarter's records of a frame have arrived (R37, R293): each quarter has run the frame in which the last of
them arrives. -/
def State.frameArrived (s : State) (frame : Nat) : Bool :=
  (List.range 4).all fun q => decide ((frame + collectorDelay q + 1) * 256 ≤ (s.quarter q).absRow)

/-- COLLECTOR_RELEASE (R37): once they have all arrived, the frame's records are released for posting; frames are
released in order. -/
def execCollectorRelease (frame : Nat) (s : State) : Ans :=
  if !s.frameArrived frame || s.collector.any fun r => r.frame.any (· < frame) then .next s
  else .next { s with
    released := s.released ++ (frameOrder (s.collector.filter fun r => r.frame = some frame)).map (·.comp)
    collector := s.collector.filter fun r => r.frame ≠ some frame }

/-- COALESCE_TIMER_EXPIRY (R111). -/
def execCoalesceTimerExpiry (p v : Nat) (s : State) : Ans :=
  .next (if ((s.port p).vec v).timerOn then s.vectorMessage p v else s)

/-- MSIX_PENDING_SEND (R69): a held message is sent once nothing holds it, and its pending bit clears. -/
def execMsixPendingSend (p v : Nat) (s : State) : Ans :=
  let x := s.port p
  if v ∈ x.pba && x.canSend v then .next ((s.setPort p { x with pba := setMember x.pba v false }).raiseVector p v)
  else .next s

/-! ### Doorbells -/

/-- A write to a submission queue's doorbell: a scan starts, or the one in progress runs one more pass. -/
def State.ringSq (s : State) (p q : Nat) : State :=
  let x := s.port p
  let y := x.sq q
  if x.ap.sqCount ≤ q then s.unclaimed p
  else if s.contained p || !y.en then s
  else if y.scanning then s.setPort p (x.setSq q { y with rescan := true })
  else s.setPort p (x.setSq q { y with scanning := true, rescan := false })

/-- SQ_DOORBELL (R63, R94). -/
def execSqDoorbell (p q : Nat) (s : State) : Ans := .next ((s.hostTlp p 0 4).barAccess p (·.ringSq p q))

/-- A write to a completion queue's head doorbell: slots returned, or BAD_HEAD; space returned posts waiting completions
(R109). A containment ignores it (R558). -/
def State.ringCqHead (s : State) (p q : Nat) (h : BitVec 16) : State :=
  let x := s.port p
  let y := x.cq q
  let size := 2 ^ y.log2
  let d := (h.toNat + size - y.head) % size
  if x.ap.cqCount ≤ q then s.unclaimed p
  else if s.contained p || !y.en then s
  else if size ≤ h.toNat || y.unreturned < d then s.setPort p (x.setCq q { y with badHead := true })
  else (s.setPort p (x.setCq q { y with head := h.toNat, unreturned := y.unreturned - d })).postAll p q

/-- CQ_HEAD_DOORBELL (R63, R107). -/
def execCqHeadDoorbell (p q : Nat) (h : BitVec 16) (s : State) : Ans :=
  .next ((s.hostTlp p 0 4).barAccess p (·.ringCqHead p q h))

/-! ### Queue configuration -/

/-- A refused write to an SQ_ register (R18, R85). -/
def State.sqRefused (s : State) (p q : Nat) : State :=
  s.modPort p fun x => x.setSq q { x.sq q with fieldRefused := true }

/-- A refused write to a CQ_ register (R18, R87). -/
def State.cqRefused (s : State) (p q : Nat) : State :=
  s.modPort p fun x => x.setCq q { x.cq q with fieldRefused := true }

/-- A write of SQ_CFG (R84, R113, R114, R19). -/
def State.writeSqCfg (s : State) (p q : Nat) (v : BitVec 32) : State :=
  let x := s.port p
  let y := x.sq q
  let en := v.getLsbD 31
  let cqid := bitsOf v.toNat 23 16
  let log2 := bitsOf v.toNat 4 0
  if x.ap.sqCount ≤ q then s.unclaimed p
  else if x.ap.cqCount ≤ cqid || log2 < 4 || 16 < log2 then s.sqRefused p q
  else if y.en && (cqid ≠ y.cqid || log2 ≠ y.log2) then s.sqRefused p q
  else if en && !y.en && !(s.sqIdle p q && (x.cq cqid).en) then s.sqRefused p q
  else if en && !y.en then
    s.setPort p (x.setSq q { y with
      en, cqid, log2, head := 0, phase := true, cache := [], scanning := false, rescan := false, filling := false })
  else if !en && y.en then s.setPort p ((x.setSq q y.stop).dropRing q)
  else s.setPort p (x.setSq q { y with cqid, log2 })

/-- A write of CQ_CFG (R87, R113, R116, R19). -/
def State.writeCqCfg (s : State) (p q : Nat) (v : BitVec 32) : State :=
  let x := s.port p
  let y := x.cq q
  let en := v.getLsbD 31
  let coal := bitsOf v.toNat 25 24
  let vector := bitsOf v.toNat 23 16
  let log2 := bitsOf v.toNat 4 0
  if x.ap.cqCount ≤ q then s.unclaimed p
  else if x.ap.cqCount ≤ vector || log2 < 4 || 16 < log2 then s.cqRefused p q
  else if y.en && (vector ≠ y.vector || log2 ≠ y.log2) then s.cqRefused p q
  else if !en && y.en && !s.cqIdle p q then s.cqRefused p q
  else if en && !y.en then
    s.setPort p (x.setCq q { y with
      en, coal, vector, log2, tail := 0, head := 0, unreturned := 0, phase := true })
  else s.setPort p (x.setCq q { y with en, coal, vector, log2 })

/-- A write of CQ_VEC_COAL (R88, R112). -/
def State.writeVecCoal (s : State) (p q : Nat) (v : BitVec 32) : State :=
  let x := s.port p
  let y := x.vec q
  let level := v.getLsbD 31
  let timer := bitsOf v.toNat 25 16
  let thresh := bitsOf v.toNat 8 0
  let held := if y.count = 0 then none else some (x.coalNow q)
  if x.ap.cqCount ≤ q then s.unclaimed p
  else if !level && y.expert then
    s.setPort p (x.setVec q { y with expert := false, thresh := 1, timerUs := 0, held })
  else if thresh = 0 || 256 < thresh then s.cqRefused p q
  else if !y.expert then
    if (thresh, timer) ≠ x.derivedCoal q then s.cqRefused p q
    else if level then s.setPort p (x.setVec q { y with expert := true, thresh, timerUs := timer, held })
    else s
  else s.setPort p (x.setVec q { y with thresh, timerUs := timer, held })

/-- A write of SQ_INV (R86, R96). -/
def State.writeSqInv (s : State) (p q : Nat) (v : BitVec 32) : State :=
  let x := s.port p
  if x.ap.sqCount ≤ q then s.unclaimed p
  else if v.getLsbD 0 then s.setPort p (x.setSq q { x.sq q with invBusy := true })
  else s

/-- SQ_ENABLE (R113). -/
def execSqEnable (p q : Nat) (v : BitVec 32) (s : State) : Ans :=
  .next ((s.hostTlp p 0 4).barAccess p (·.writeSqCfg p q v))

/-- SQ_DISABLE (R114). -/
def execSqDisable (p q : Nat) (v : BitVec 32) (s : State) : Ans :=
  .next ((s.hostTlp p 0 4).barAccess p (·.writeSqCfg p q v))

/-- CQ_ENABLE (R113). -/
def execCqEnable (p q : Nat) (v : BitVec 32) (s : State) : Ans :=
  .next ((s.hostTlp p 0 4).barAccess p (·.writeCqCfg p q v))

/-- CQ_DISABLE (R87, R116). -/
def execCqDisable (p q : Nat) (v : BitVec 32) (s : State) : Ans :=
  .next ((s.hostTlp p 0 4).barAccess p (·.writeCqCfg p q v))

/-- CQ_VEC_COAL_WRITE (R112). -/
def execCqVecCoalWrite (p q : Nat) (v : BitVec 32) (s : State) : Ans :=
  .next ((s.hostTlp p 0 4).barAccess p (·.writeVecCoal p q v))

/-- SQ_INV_WRITE (R96). -/
def execSqInvWrite (p q : Nat) (v : BitVec 32) (s : State) : Ans :=
  .next ((s.hostTlp p 0 4).barAccess p (·.writeSqInv p q v))

/-- SQ_INVALIDATION (R96): the cache is dropped, HEAD reported, INV_BUSY cleared. -/
def execSqInvalidation (p q : Nat) (s : State) : Ans :=
  let x := s.port p
  let y := x.sq q
  if y.invBusy then
    .next (s.setPort p ((x.setSq q { y with cache := [], filling := false, invHead := y.head, invBusy := false }).dropRing q))
  else .next s

/-! ### The scan (R94, R95) -/

/-- A scanning queue that may take a turn: not waiting at a FENCE or a stalled completion queue, no invalidation in
progress. -/
def Port.mayTurn (x : Port) (q : Nat) : Bool :=
  let y := x.sq q
  y.scanning && !y.fenced && !x.admStall q && !y.invBusy

/-- The queue whose turn it is: the first from the turn pointer upward, wrapping from 255 to 0 (R95). -/
def Port.nextTurn (x : Port) : Option Nat :=
  ((List.range 256).map fun i => (x.turn + i) % 256).find? x.mayTurn

/-- One entry consumed: HEAD advances, the phase inverting at the wrap (R91, R94). -/
def SubQueue.consume (y : SubQueue) : SubQueue :=
  let wrap := y.head + 1 = 2 ^ y.log2
  { y with
    cache := y.cache.tail, lacking := y.lacking + 1
    head := if wrap then 0 else y.head + 1
    phase := if wrap then !y.phase else y.phase }

/-- Cached entries handed on in slot order until the cache is empty or the queue waits at a FENCE. -/
def handOn : Nat → SubQueue → Nat → SubQueue × List Handed
  | 0, y, _ => (y, [])
  | n + 1, y, q =>
    match y.cache with
    | [] => (y, [])
    | e :: _ =>
      if y.fenced then (y, [])
      else
        let (y1, hs) := handOn n y.consume q
        (y1, { q, bytes := e } :: hs)

/-- A pass that found no entry: one more if a doorbell came, else the scan ends; the turn is over (R94). -/
def Port.emptyTurn (x : Port) (q : Nat) : Port :=
  let y := x.sq q
  { x.setSq q (if y.rescan then { y with rescan := false, filling := false }
               else { y with scanning := false, filling := false }) with turn := (q + 1) % 256 }

/-- SCAN_TURN (R95): the queue whose turn it is reads up to 8 entries of its ring, or hands on what it holds. While a
ring read is out, its turn goes on; a port in D3hot fetches nothing (R59), and one that cannot be read reports the
failed read (R94, R599). -/
def execScanTurn (p : Nat) (s : State) : Ans :=
  let x := s.port p
  if x.d3hot || s.contained p || x.reads.any HostRead.isRing then .next s
  else match x.nextTurn with
    | none => .next s
    | some q =>
      let y := x.sq q
      if y.cache = [] then
        if x.canRead then
          let n := Nat.min 8 (2 ^ y.log2 - y.head)
          let base := y.base.toNat + 64 * y.head
          let y1 := { y with filling := true, fill := List.replicate (64 * n) 0, fillLen := 64 * n }
          .next ((cut x.mrrs base (64 * n)).foldl (fun (s : State) (a, k) => s.issueRead p a k (.ring q (a - base)))
            (s.setPort p { x.setSq q y1 with turn := q }))
        else .next ((s.setPort p (x.emptyTurn q)).emit (.aer p))
      else
        let (y1, hs) := handOn y.cache.length y q
        .next (s.setPort p { x.setSq q y1 with turn := (q + 1) % 256, handed := x.handed ++ hs })

/-- A byte string cut into pieces of `n` bytes. -/
def chunks (n : Nat) : Nat → List Byte → List (List Byte)
  | 0, _ => []
  | k + 1, bs => if bs = [] then [] else bs.take n :: chunks n k (bs.drop n)

/-- Phase bit of a submission entry (R97). -/
def entryPhase (e : List Byte) : Bool := bitN (byteAt e 60) 0

/-- A piece of a ring read has ended (R94, R182); one that failed makes the whole read keep none of its entries. After the last, the leading
device-owned entries are kept. -/
def State.ringArrives (s : State) (p q pos : Nat) (data : Option (List Byte)) : State :=
  let x := s.port p
  let y := x.sq q
  if !y.filling then s
  else
    let y1 : SubQueue := match data with
      | some bs => { y with fill := patchBytes y.fill pos bs }
      | none => { y with fillLen := 0 }
    let s1 := if data.isNone then s.emit (.aer p) else s
    if x.reads.any HostRead.isRing then s1.setPort p (x.setSq q y1)
    else
      let kept := (chunks 64 8 (y1.fill.take y1.fillLen)).takeWhile fun e => entryPhase e == y.phase
      if kept = [] then s1.setPort p (x.emptyTurn q)
      else s1.setPort p (x.setSq q { y1 with cache := kept, filling := false })

/-! ### Entries handed on (R97 to R101) -/

def entryType (e : List Byte) : Nat := byteAt e 0
def entryFlags (e : List Byte) : Nat := byteAt e 1
def entryTag (e : List Byte) : Nat := fieldAt e 2 2
def entryUrgent (e : List Byte) : Bool := bitN (entryFlags e) 0
def entryAddr (e : List Byte) (off : Nat) : BitVec 64 := BitVec.ofNat 64 (fieldAt e off 8)
def entryTarget (e : List Byte) : Nat := fieldAt e 24 2
def entryStation (e : List Byte) : Nat := fieldAt e 28 4

/-- An address of R98 that is well formed: a buffer address has bits [62:38] 0, and it is a multiple of `n`. -/
def addrOk (a : BitVec 64) (n : Nat) : Bool := bufAddrOk a && a.toNat % n = 0

/-- The first check of R100: reserved values and misaligned addresses. -/
def entryOk (e : List Byte) : Bool :=
  entryFlags e < 4 && fieldAt e 60 4 < 2 && zeroAt e 6 2 && zeroAt e 32 28 &&
  match entryType e with
  | 1 => byteAt e 5 < 4 && zeroAt e 24 8 && addrOk (entryAddr e 8) 64 && addrOk (entryAddr e 16) 64
  | 2 => zeroAt e 4 20 && zeroAt e 26 2
  | 3 => zeroAt e 4 28
  | 4 => zeroAt e 4 20 && zeroAt e 26 6
  | _ => false

/-- A buffer range of `n` bytes whose first or last extent the port does not own (R98, R100, R121). -/
def State.foreign (s : State) (p : Nat) (a : BitVec 64) (n : Nat) : Bool :=
  isBufAddr a && !(s.ownsExtent p (bufPos a / 65536) && s.ownsExtent p ((bufPos a + n - 1) / 65536))

/-- The tag is in use (R100): by a live traverse, or by a START still in admission. DESIGN CHOICE (log 60): R100 speaks of an
admitted traverse only. -/
def State.tagUsed (s : State) (p tag : Nat) : Bool :=
  (s.trv? p tag).isSome || s.admitting.any fun a => decide (a.port = p) && decide (entryTag a.entry = tag)

/-- The front entry of a port that has the wanted type, taken from the hand-over queue. -/
def Port.takeHanded (x : Port) (want : Nat → Bool) : Option (Handed × Port) :=
  match x.handed with
  | h :: t => if want (entryType h.bytes) then some (h, { x with handed := t }) else none
  | [] => none

/-- An entry completes at once with a status and result code. -/
def State.answerEntry (s : State) (p : Nat) (h : Handed) (st : BitVec 8) (result : Nat) : State :=
  s.completeEntry p h.q (entryTag h.bytes) (entryUrgent h.bytes) st result 0

/-- START_ENTRY (R100): a START, or an entry of a reserved type, is checked and handed to admission or completed. -/
def execStartEntry (p : Nat) (s : State) : Ans :=
  match (s.port p).takeHanded fun t => t ≠ 2 && t ≠ 3 && t ≠ 4 with
  | none => .next s
  | some (h, x) =>
    let s1 := s.setPort p x
    let e := h.bytes
    if !entryOk e then .next (s1.answerEntry p h stEntryInvalid 1)
    else if s1.tagUsed p (entryTag e) then .next (s1.answerEntry p h stEntryInvalid 2)
    else if s1.foreign p (entryAddr e 8) 64 || s1.foreign p (entryAddr e 16) 256 then .next (s1.answerEntry p h stDenied 0)
    else .next { s1 with
      admitting := s1.admitting ++ [{ port := p, q := h.q, entry := e, since := s.devMs, order := s.seqNo }]
      seqNo := s.seqNo + 1 }

/-- A live traverse without a formed completion (R101): one that waits for its status block or its read-back has none (R161). -/
def State.target (s : State) (p tag : Nat) : Option Trv :=
  match s.trv? p tag with
  | some t => if t.state = .ended && !t.readback && !t.sbLate then none else some t
  | none => none

/-- RESUME_ENTRY (R101, R146). -/
def execResumeEntry (p : Nat) (s : State) : Ans :=
  match (s.port p).takeHanded fun t => t = 2 with
  | none => .next s
  | some (h, x) =>
    let s1 := s.setPort p x
    if !entryOk h.bytes then .next (s1.answerEntry p h stEntryInvalid 1)
    else match s1.target p (entryTarget h.bytes) with
      | none => .next (s1.answerEntry p h stEntryInvalid 3)
      | some t =>
        if t.state = .held && t.station = entryStation h.bytes then
          .next ((s1.putTrv { t.toReady with released := some t.station }).answerEntry p h stOk 0)
        else .next (s1.answerEntry p h stEntryInvalid 4)

/-- NOP_ENTRY (R101). -/
def execNopEntry (p : Nat) (s : State) : Ans :=
  match (s.port p).takeHanded fun t => t = 3 with
  | none => .next s
  | some (h, x) =>
    let s1 := s.setPort p x
    .next (if entryOk h.bytes then s1.answerEntry p h stOk 0 else s1.answerEntry p h stEntryInvalid 1)

/-- NOTE_REQUEST (R101): at once for a target that is not running, else at its next leg start, park or end. One that comes
while the read-back of R161 is out writes its record after the bytes that were read back, and no read-back follows it: DESIGN
CHOICE (log 60), R161 speaks of one read-back. -/
def execNoteRequest (p : Nat) (s : State) : Ans :=
  match (s.port p).takeHanded fun t => t = 4 with
  | none => .next s
  | some (h, x) =>
    let s1 := s.setPort p x
    let e := h.bytes
    if !entryOk e then .next (s1.answerEntry p h stEntryInvalid 1)
    else match s1.target p (entryTarget e) with
      | none => .next (s1.answerEntry p h stEntryInvalid 3)
      | some t =>
        let t1 := { t with notes := t.notes ++ [{ q := h.q, tag := entryTag e, urgent := entryUrgent e }] }
        if t.state = .running then .next (s1.putTrv t1)
        else
          let (s2, t2) := s1.flushNotes t1
          .next (s2.putTrv t2)

end Sys2Proof.Machine
end

