-- ==== Sys2Proof/Machine/Admission.lean ====
section
/-! DEFINITION. Admission of STARTs (R120 to R130), binding of ready traverses to subchannels (R34, R131), and the
timers of parked traverses (R134, R151, R154, R213). -/

namespace Sys2Proof.Machine

/-! ### The header (R122) -/

def hdrFlags (h : List Byte) : Nat := fieldAt h 0 2
def hdrList (h : List Byte) : Bool := bitN (hdrFlags h) 1
def hdrNowait (h : List Byte) : Bool := bitN (hdrFlags h) 0
def hdrAffinity (h : List Byte) : Nat := byteAt h 2
def hdrRuns (h : List Byte) : Nat := byteAt h 3
def hdrBudget (h : List Byte) : Nat := fieldAt h 4 4
def hdrDeadline (h : List Byte) : Nat := fieldAt h 8 4
def hdrSb (h : List Byte) : BitVec 64 := BitVec.ofNat 64 (fieldAt h 16 8)
def hdrListAddr (h : List Byte) : BitVec 64 := BitVec.ofNat 64 (fieldAt h 24 8)

/-- Check 4 of R126: reserved fields and ranges of the header. -/
def headerOk (h : List Byte) : Bool :=
  hdrFlags h < 4 && (hdrAffinity h < 48 || hdrAffinity h = 255) && hdrBudget h ≤ 16777215 && zeroAt h 12 4 &&
  addrOk (hdrSb h) 64 &&
  (if hdrList h then 1 ≤ hdrRuns h && addrOk (hdrListAddr h) 8 && zeroAt h 32 32
   else hdrRuns h ≤ 4 && zeroAt h 24 8 && zeroAt h (32 + 8 * hdrRuns h) (32 - 8 * hdrRuns h))

/-- A run's 8 bytes are valid (R123). -/
def runOk (b : List Byte) : Bool :=
  bitsOf (fieldAt b 0 4) 23 22 < 3 && byteAt b 3 = 0 && 1 ≤ fieldAt b 4 2 && fieldAt b 4 2 ≤ 4096 && zeroAt b 6 2

/-- A run read from its bytes (R123). -/
def runOf (b : List Byte) : Run :=
  { first := bitsOf (fieldAt b 0 4) 21 0, count := fieldAt b 4 2
    mode := match bitsOf (fieldAt b 0 4) 23 22 with
      | 0 => .read
      | 1 => .write
      | _ => .accum }

/-- No two runs of a list share an extent (R123). -/
def runsApart : List Run → Bool
  | [] => true
  | r :: t => (t.all fun v => !overlap r.first r.count v.first v.count) && runsApart t

/-- Check 8 of R126. -/
def runsOk (bs : List (List Byte)) : Bool :=
  bs.all runOk && runsApart (bs.map runOf) && ((bs.map runOf).map (·.count)).sum ≤ 4096

/-! ### Admission (R126 to R129) -/

/-- Traverses are admitted: the device is READY, and no quarter runs its start table (R555, R556). -/
def State.admits (s : State) : Bool := s.mode = .ready && (List.range 4).all fun q => (s.quarter q).mode ≠ 1

/-- The START that ADMISSION takes up: the earliest received of a port that is not contained (R407, R558; a port's STARTs
come in hand-over order, R162, log entry 9). None while it awaits a host read, and none before an action received
earlier. -/
def State.nextAdmit (s : State) : Option Admitting :=
  if !s.admits then none
  else (s.admitting.find? fun a => !s.contained a.port).bind fun a =>
    if a.reading || s.behindAction a.order then none else some a

/-- The START under admission replaced by a later stage of itself. -/
def State.putAdmit (s : State) (a b : Admitting) : State :=
  { s with admitting := s.admitting.map fun x => if x = a then b else x }

/-- Admission completes a START with a refusal: FLAGS.ENTRY, STATION 0, RESULT 0 (R126). -/
def State.admitRefuse (s : State) (a : Admitting) (st : BitVec 8) : State :=
  ({ s with admitting := s.admitting.erase a } : State).completeEntry a.port a.q (entryTag a.entry)
    (entryUrgent a.entry) st 0 0

/-- Admission of a traverse all of whose checks passed: it is live, and takes its extents or stays pending (R127). -/
def State.goLive (s : State) (a : Admitting) (h : List Byte) (runs : List Run) : State :=
  let e := a.entry
  let t : Trv :=
    { port := a.port, tag := entryTag e, sq := a.q, tenant := byteAt e 4, prio := byteAt e 5, urgent := entryUrgent e
      addr := entryAddr e 8, sb := if entryAddr e 16 = 0 then hdrSb h else entryAddr e 16
      affinity := if hdrAffinity h = 255 then none else some (hdrAffinity h), runs
      budget := if hdrBudget h = 0 then 65536 else hdrBudget h
      deadline := if hdrDeadline h = 0 then none else some (a.since + hdrDeadline h)
      arrival := s.seqNo, state := .pending }
  if hdrNowait h && !s.canReserve t then s.admitRefuse a stAdmissionRefused
  else
    let s1 : State :=
      { s with admitting := s.admitting.erase a, trvs := s.trvs ++ [t], seqNo := s.seqNo + 1 }
    if s1.canReserve t then s1.reserve t else s1

/-- Checks 8 to 10 of R126, on the runs read. -/
def State.admitRuns (s : State) (a : Admitting) (h : List Byte) (bs : List (List Byte)) : State :=
  if !runsOk bs then s.admitRefuse a stEntryInvalid
  else
    let runs := bs.map runOf
    if runs.all fun r => (List.range r.count).all fun i => s.ownsExtent a.port (r.first + i) then s.goLive a h runs
    else s.admitRefuse a stDenied

/-- Checks 4 to 7 of R126, on the header read; a run list is read at a checked address only. -/
def State.admitHeader (s : State) (a : Admitting) (h : List Byte) : State :=
  let la := hdrListAddr h
  let n := 8 * hdrRuns h
  if !headerOk h then s.admitRefuse a stEntryInvalid
  else if (hdrList h && s.foreign a.port la n) || (entryAddr a.entry 16 = 0 && s.foreign a.port (hdrSb h) 256) then
    s.admitRefuse a stDenied
  else if !hdrList h then s.admitRuns a h (chunks 8 (hdrRuns h) (h.drop 32))
  else match a.list with
    | some l => s.admitRuns a h (chunks 8 (hdrRuns h) l)
    | none =>
      if isBufAddr la then s.whenReadable (bufPos la) n fun s =>
        if s.poisoned (bufPos la) n then s.admitRefuse a stFetchPoison
        else s.admitRuns a h (chunks 8 (hdrRuns h) (s.readBuf (bufPos la) n))
      else if !(s.port a.port).canRead then s.admitRefuse a stFetchFault
      else
        (cut (s.port a.port).mrrs la.toNat n).foldl (fun (s : State) (x, k) => s.issueRead a.port x k .runList)
          (s.putAdmit a { a with reading := true, list := some (List.replicate n 0) })

/-- Live traverses of a port (R129). -/
def State.liveCount (s : State) (p : Nat) : Nat := (s.trvs.filter fun t => t.port = p).length

/-- ADMISSION (R126, R127): the START whose turn it is goes on to its next host read, to a stack it must wait for (R38), or
to its end. -/
def execAdmission (s : State) : Ans :=
  match s.nextAdmit with
  | none => .next s
  | some a =>
    let ta := entryAddr a.entry 8
    match a.fault, a.header with
    | some st, _ => .next (s.admitRefuse a st)
    | none, some h => .next (s.admitHeader a h)
    | none, none =>
      if (s.port a.port).ap.trvQuota ≤ s.liveCount a.port then .next (s.admitRefuse a stAdmissionRefused)
      else if isBufAddr ta then .next (s.whenReadable (bufPos ta) 64 fun s =>
        if s.poisoned (bufPos ta) 64 then s.admitRefuse a stFetchPoison
        else
          let b := { a with header := some (s.readBuf (bufPos ta) 64) }
          (s.putAdmit a b).admitHeader b (s.readBuf (bufPos ta) 64))
      else if !(s.port a.port).canRead then .next (s.admitRefuse a stFetchFault)
      else .next ((s.putAdmit a { a with reading := true }).issueRead a.port ta.toNat 64 .header)

/-- An answer for the START a port has under admission: a header, or a piece of its run list; `none` is a failed read,
`poisoned` a poisoned one (R126). -/
def State.admitArrives (s : State) (p addr : Nat) (isList : Bool) (data : Option (List Byte)) (poisoned : Bool) :
    State :=
  match s.admitting.find? fun a => a.port = p && a.reading with
  | none => s
  | some a =>
    let more := (s.port p).reads.any fun r => r.purpose = .runList
    let fault : Option (BitVec 8) := match data with
      | none => some stFetchFault
      | some _ => if poisoned then some (a.fault.getD stFetchPoison) else a.fault
    let bs := data.getD []
    if isList then
      let base := ((a.header.map hdrListAddr).getD 0).toNat
      s.putAdmit a { a with fault, reading := more, list := a.list.map fun l => patchBytes l (addr - base) bs }
    else s.putAdmit a { a with fault, reading := false, header := some bs }

/-! ### Binding (R34 to R36, R131, R418) -/

/-- Subchannels of an engine in use. -/
def State.busySubs (s : State) (e : Nat) : List Nat := s.trvs.filterMap fun t => match t.bound with
  | some (f, c) => if f = e then some c else none
  | none => none

/-- The party whose chain a traverse binds by: of a rebinding, else of its affinity (R34 to R36). -/
def Trv.homeParty (t : Trv) : Option Nat := match t.rebindChain with
  | some c => some c
  | none => t.affinity.map chainOfShelf

/-- The engines a traverse may be bound to (R34). -/
def Trv.engineSet (t : Trv) : List Nat := match t.homeParty with
  | some c => (List.range 4).map fun i => 4 * c + i
  | none => (List.range 12).map fun i => 12 * homeQuarter t.port + i

/-- The engine of a set with the most free subchannels, the lower number on a tie; none without a free one (R34). -/
def State.bestEngine (s : State) (es : List Nat) : Option Nat :=
  (es.foldl (fun (best : Option (Nat × Nat)) e =>
    let free := 32 - (s.busySubs e).length
    match best with
    | none => if 0 < free then some (e, free) else none
    | some (_, f) => if f < free then some (e, free) else best) none).map (·.1)

/-- The quarters whose stacks a binding needs: the engine's, and those where the traverse holds extents (R418). -/
def Trv.quartersNeeded (t : Trv) (q : Nat) : List Nat :=
  q :: t.runs.flatMap fun r => quartersOf r.first r.count

/-- Stacks concerned are ACTIVE. -/
def State.stacksReady (s : State) (t : Trv) (q : Nat) : Bool :=
  (t.quartersNeeded q).all fun i => (s.quarter i).stack = .active

/-- The entry a parked traverse was written to has become unreadable (R133, R413). -/
def State.entryLost (s : State) (t : Trv) : Bool := match t.entry with
  | some n => (entryBeats n).any fun b => b ∈ s.poison
  | none => false

/-- A traverse bound to an engine's lowest free subchannel, its parked state read back; the party's island wakes (R38,
R133). Parked state that is poisoned is a fault of the device (R413, R557). -/
def State.bindTo (s : State) (t : Trv) (e : Nat) : State :=
  match (List.range 32).find? fun c => !(s.busySubs e).contains c with
  | none => s
  | some c =>
    if s.entryLost t then s.firmwareRead (parkedBase + 256 * t.entry.getD 0) 256 else
    let s1 := (List.range 4).foldl (fun (s : State) i => s.modCore (e / 4 * 4 + i) fun x => { x with gated := false }) s
    s1.putTrv { t with
      state := .running, bound := some (e, c), readyParty := none, rebindChain := none, fetched := [],
      fetching := false, entry := none }

/-- Bound if the stacks are ACTIVE; else their wake is asked for and the traverse stays ready (R418). -/
def State.bindOrWake (s : State) (t : Trv) (e : Nat) : State :=
  let q := quarterOfParty (partyOfEngine e)
  if s.stacksReady t q then s.bindTo t e
  else (t.quartersNeeded q).foldl (fun (s : State) i => s.wakeStack i) s

/-- Traverses in the ready list of a party. -/
def State.readyList (s : State) (party : Nat) : List Trv :=
  s.trvs.filter fun t => t.state = .ready && t.readyParty = some party

/-- The party whose ready list a traverse joins (R131). -/
def State.listParty (s : State) (t : Trv) : Nat := match t.homeParty with
  | some c => c
  | none =>
    let ps := (List.range 3).map fun i => 3 * homeQuarter t.port + i
    (ps.foldl (fun (best : Option (Nat × Nat)) p =>
      let n := (s.readyList p).length
      match best with
      | none => some (p, n)
      | some (_, m) => if n < m then some (p, n) else best) none).map (·.1) |>.getD 0

/-- The effective class of a traverse in a ready list (R131). -/
def State.effClass (s : State) (t : Trv) : Nat := t.prio - (s.devMs - t.readyAt) / 8

/-- The head of a party's ready list: lowest effective class, then the time of joining (R131). -/
def State.readyHead (s : State) (party : Nat) : Option Trv :=
  ((s.readyList party).filter fun t => !s.contained t.port).foldl (fun (best : Option Trv) t => match best with
    | none => some t
    | some b =>
      if s.effClass t < s.effClass b || (s.effClass t = s.effClass b && t.readySeq < b.readySeq) then some t else best)
    none

/-- BIND (R131): a ready traverse is bound, or joins a ready list; an engine with a free subchannel takes the head of
its party's list. -/
def execBind (w : BindWho) (s : State) : Ans :=
  match w with
  | .traverse p tag => .next (s.withTrv p tag fun t =>
      if t.state ≠ .ready || t.readyParty.isSome || s.contained p then s
      else match s.bestEngine t.engineSet with
        | some e => s.bindOrWake t e
        | none => ({ s with seqNo := s.seqNo + 1 } : State).putTrv
            { t with readyParty := some (s.listParty t), readyAt := s.devMs, readySeq := s.seqNo })
  | .engine e =>
    match s.readyHead (partyOfEngine e) with
    | none => .next s
    | some t => .next (if (s.busySubs e).length < 32 then s.bindOrWake t e else s)

/-! ### Timers of a traverse -/

/-- Legs whose responses a traverse waits for on its subchannel until R134 parks it: device legs, GATHER, FLUSH-SPAN
and the hamper engine's legs. -/
def waitsParked (op : Nat) : Bool :=
  (0x10 ≤ op && op ≤ 0x13) || op = 0x24 || op = 0x26 || op = 0x23 || op = 0x25

/-- The engine waits for an issue run's responses: the run has commands outstanding and issues no further member. -/
def Trv.runWaits (t : Trv) : Bool :=
  t.run ≠ [] && !t.runOver && (t.runStopped || (t.run.any fun m => !m.next) || match t.groupHere with
    | .got g => !t.joinsRun g
    | .failed _ _ => true
    | .need _ => false)

/-- RESPONSE_PARK_EXPIRY (R134, R188): after 1 ms of waiting the traverse parks, if its party's ready list is not
empty. -/
def execResponseParkExpiry (p tag : Nat) (s : State) : Ans :=
  .next (s.withTrv p tag fun t =>
    match t.bound with
    | none => s
    | some (e, _) =>
      let waits := (t.stage = .awaiting && waitsParked (legOp t.leg)) || t.runWaits
      if t.state = .running && waits && s.readyList (partyOfEngine e) ≠ [] then s.park t .responseParked else s)

/-- DEADLINE_EXPIRY (R151): a pending traverse is refused, a parked one ends WAIT-TIMEOUT, a running one at the next
station it would start. -/
def execDeadlineExpiry (p tag : Nat) (s : State) : Ans :=
  .next (s.withTrv p tag fun t =>
    if t.deadline.isNone then s
    else match t.state with
      | .pending => s.endTrv { t with lastStatus := stAdmissionRefused, residual := 0 }
          { status := stAdmissionRefused, station := 0, entry := true }
      | .held => s.endAt t stWaitTimeout (groupLen (t.group.take 1))
      | .waiting => s.endAt { t with legInfo := 5 } stWaitTimeout 0
      | .basket _ | .pausing => s.endAt t stWaitTimeout 0
      | .ended => s
      | _ => s.putTrv { t with deadlinePassed := true })

/-- WAIT_DEADLINE_EXPIRY (R154, R211). -/
def execWaitDeadlineExpiry (p tag : Nat) (s : State) : Ans :=
  .next (s.withTrv p tag fun t =>
    if t.state = .waiting then s.endAt { t with legInfo := 5 } stWaitTimeout 0 else s)

/-- PAUSE_EXPIRY (R213): the PAUSE leg ends OK and the traverse becomes ready. -/
def execPauseExpiry (p tag : Nat) (s : State) : Ans :=
  .next (s.withTrv p tag fun t => if t.state = .pausing then s.legDone t { status := stOk } else s)

end Sys2Proof.Machine
end

