-- ==== Sys2Proof/Machine/Books.lean ====
section
/-! DEFINITION. Readers of field books and of the telemetry counters (R506 to R512, R601). -/

namespace Sys2Proof.Machine

/-! ### Reading a book (R509) -/

/-- The word a read returns, with the book after it. -/
structure BookRead where
  word : BitVec 64
  book : FieldBook

/-- FB_LOST counts `n` more words, saturating. -/
def FieldBook.lose (b : FieldBook) (n : Nat) : FieldBook :=
  { b with lost := BitVec.ofNat 32 (Nat.min (b.lost.toNat + n) (2 ^ 32 - 1)) }

/-- A read at a packet start (R509). -/
def FieldBook.readStart (b : FieldBook) (parityBad : Bool) : BookRead :=
  let strays := b.words.takeWhile fun w => !w.sop
  let b1 := b.lose strays.length
  match b.words.drop strays.length with
  | [] => { word := 0, book := { b1 with words := [], idle := true, length := 0, left := 0, stolen := false } }
  | w :: t =>
    let len := bitsOf w.data.toNat 55 52
    { word := w.data
      book := { b1 with
        words := t, idle := false, poison := parityBad, torn := false, length := len, left := len - 1, stolen := false } }

/-- A read inside a packet (R509): an overwritten next word tears the packet. -/
def FieldBook.readInside (b : FieldBook) (parityBad : Bool) : BookRead :=
  match b.stolen, b.words with
  | false, w :: t => { word := w.data, book := { b with words := t, poison := b.poison || parityBad, left := b.left - 1 } }
  | _, _ => { word := 0, book := { b with torn := true, left := 0, stolen := false } }

/-- A read of a book (R509). -/
def FieldBook.read (b : FieldBook) (parityBad : Bool) : BookRead :=
  if b.left = 0 then b.readStart parityBad else b.readInside parityBad

/-- A book emptied, its reader at a packet start; SEQ continues (R510). -/
def FieldBook.clear (b : FieldBook) : FieldBook :=
  { b with words := [], idle := false, poison := false, torn := false, length := 0, left := 0, stolen := false }

/-- FB_RSTAT (R510). -/
def FieldBook.rstat (b : FieldBook) : Nat :=
  b2n b.idle * 2 ^ 15 + b2n b.poison * 2 ^ 14 + b2n b.torn * 2 ^ 13 + b2n (0 < b.left) * 2 ^ 12 + b.length % 16

/-! ### The system controller's books (R506, R510) -/

/-- The book of a selector value. -/
def State.selBook (s : State) (n : Nat) : FieldBook :=
  if n < 12 then s.sasBooks.get n {} else if n < 16 then (s.quarter (n - 12)).book else s.deviceBook

/-- The book of a selector value replaced. -/
def State.setBook (s : State) (n : Nat) (b : FieldBook) : State :=
  if n < 12 then { s with sasBooks := s.sasBooks.set n b }
  else if n < 16 then s.modQuarter (n - 12) fun x => { x with book := b }
  else { s with deviceBook := b }

/-- Interrupt source 1 of the system controller stays asserted while one of its books holds a word (R491, R508). -/
def State.noticeLevel (s : State) : State :=
  if (List.range 17).all fun n => (s.selBook n).words = [] then
    s.modCore 48 fun x => { x with irqPend := x.irqPend &&& ~~~2 }
  else s

/-- The book selected by a context of the system controller. -/
def State.fbSel (s : State) (c : Nat) : Nat := ((s.core 48).ctx c).fbSel.toNat

/-- A read of FB_RD0 by context `c` (R510): bits [15:0], with the others latched. -/
def State.readRd0 (s : State) (c : Nat) (parityBad : Bool) : Word × State :=
  let n := s.fbSel c
  let r := (s.selBook n).read parityBad
  (r.word.setWidth 16, ((s.setBook n r.book).modCore 48 fun x => { x with fbLatch := r.word.extractLsb' 16 48 }).noticeLevel)

/-- FB_RD0_READ (R436, R509, R510). -/
def execFbRd0Read (parityBad : Bool) (s : State) : Ans :=
  .next (if !s.mayAccess 48 then s else
    let (w, s1) := s.readRd0 (s.core 48).cur parityBad
    s1.emit (.coreRead 48 w))

/-- A host's read of a register of `n` bytes is answered with its value; an offset that recovery mode reserves reads 0 and
is counted (R17, R555). -/
def State.barRead (s : State) (p n : Nat) (f : State → State × Nat) : State :=
  if !s.reachable p then s
  else
    let (s1, v) := if s.recovering then (s.unclaimed p, 0) else f s
    (s1.hostTlp p 1 n).emit (.readData (leBytes n v) false)

/-- FB_READ (R509, R510): a 64-bit read by the host. -/
def execFbRead (p : Nat) (parityBad : Bool) (s : State) : Ans :=
  .next (s.barRead p 8 fun s =>
    let r := (s.port p).book.read parityBad
    (s.modPort p fun x => { x with book := r.book }, r.word.toNat))

/-- A write of FB_CLEAR. -/
def State.clearBook (s : State) (by_ : Sender) (v : BitVec 32) : State :=
  if !v.getLsbD 0 then s
  else match by_ with
    | .port p => s.modPort p fun x => { x with book := x.book.clear }
    | .core k c => if k = 48 then (s.setBook (s.fbSel c) (s.selBook (s.fbSel c)).clear).noticeLevel else s

/-- FB_CLEAR (R510). -/
def execFbClear (by_ : Sender) (v : BitVec 32) (s : State) : Ans :=
  .next (s.senderWrite by_ (·.clearBook by_ v))

/-! ### Telemetry (R512, R601) -/

/-- The 64-bit counter DEV_MS, or DEV_ECC_CORRq. -/
def State.telemetry (s : State) (ecc : Option Nat) : BitVec 64 := match ecc with
  | none => BitVec.ofNat 64 s.devMs
  | some q => (s.quarter q).eccCorr

/-- The latch number of a telemetry counter. -/
def latchNo (ecc : Option Nat) : Nat := match ecc with
  | none => 0
  | some q => 1 + q

/-- COUNTER_LOW_HALF_READ (R601): the low half is returned and the high half latched for the port. -/
def execCounterLowHalfRead (p : Nat) (ecc : Option Nat) (s : State) : Ans :=
  .next (s.barRead p 4 fun s =>
    let v := s.telemetry ecc
    (s.modPort p fun x => { x with latches := x.latches.set (latchNo ecc) (v.extractLsb' 32 32) }, v.toNat % 2 ^ 32))

/-- A read of the high half (R601): the latched value, 0 when none was latched since the port's last reset. -/
def State.telemetryHigh (s : State) (p : Nat) (ecc : Option Nat) : BitVec 32 := (s.port p).latches.get (latchNo ecc) 0

end Sys2Proof.Machine
end

