-- ==== Sys2Proof/Machine/Station.lean ====
section
/-! DEFINITION. The start of a station (R121, R136, R143, R145 to R151, R164 to R168): fetch, hold, budget, encoding,
declaration, ownership and outing checks of every leg. -/

namespace Sys2Proof.Machine

/-! ### Fields by opcode -/

/-- A buffer address: bit 63 set, bits [62:38] zero, a multiple of `n` (R98, R165). -/
def bufField (a : BitVec 64) (n : Nat) : Bool := isBufAddr a && addrOk a n

/-- The operand fields of bytes 16 to 31. -/
def legByte (l : List Byte) (i : Nat) : Nat := byteAt l i
def legOperand (l : List Byte) : BitVec 64 := BitVec.ofNat 64 (fieldAt l 16 8)

/-- Selected slots of a SPIN (R206). -/
def spinSlots (l : List Byte) : List Nat := (List.range 96).filter fun j => bitN (byteAt l (20 + j / 8)) (j % 8)

/-- Buffer position of the descriptor a FLUSH-SPAN names (R190). -/
def flushDesc (l : List Byte) : Nat := bufPos (legAddr l) + 64 * legByte l 16

/-- Fields of an accumulator descriptor (R375). -/
def accFirst (d : List Byte) : Nat := fieldAt d 0 4 % 2 ^ 22
def accUnit (d : List Byte) : Nat := byteAt d 4
def accState (d : List Byte) : Nat := byteAt d 5
def accCount (d : List Byte) : Nat := fieldAt d 8 4
def accTotal (d : List Byte) : Nat := fieldAt d 16 2
def accHandle (d : List Byte) : Nat := fieldAt d 18 2 % 8192
def accLength (d : List Byte) : Nat := fieldAt d 20 4
def accCdb (d : List Byte) : List Byte := (d.drop 32).take 16

/-- The handle of a GATHER descriptor. -/
def State.gatherHandles (s : State) (l : List Byte) : List Nat :=
  (List.range (legByte l 17)).map fun i => legHandle (s.readBuf (bufPos (legAddr l) + 32 * i) 32)

/-! ### Encoding checks (R137, R143, R145, R165, and each leg's rule) -/

/-- TARGET of a device leg (R164). -/
def targetOk (l : List Byte) : Bool := legHandle l ≤ 6143 && !bitN (legTarget l) 13 && legDir l ≠ 3

/-- Legs whose LENGTH and ADDRESS are reserved (R166). -/
def bare (l : List Byte) : Bool := zeroAt l 2 14

/-- A data segment of an ISSUE or ISSUE-EXT (R144, R171). -/
def segmentOk (isLast : Bool) (l : List Byte) : Bool :=
  legLen l ≠ 0 && (if legDrop l then legAddr l = 0 else bufField (legAddr l) 64) && (isLast || legLen l % 512 = 0)

/-- The data of an ISSUE or ISSUE-EXT group (R165, R171). -/
def issueDataOk (g : List (List Byte)) : Bool :=
  let l := g.headD []
  if legDir l = 0 then g.length = 1 && !legJoin l && legLen l = 0 && legAddr l = 0
  else g.dropLast.all (segmentOk false) && segmentOk true (g.getLastD [])

/-- The flags of the legs of a group (R143, R145); a group that still asks for more legs is too long. -/
def flagsOk (g : List (List Byte)) : Bool :=
  let l := g.headD []
  let op := legOp l
  g.length ≤ 256 && !(legJoin (g.getLastD [])) &&
  g.all (fun c => legFlags c < 64 && legOp c = op &&
    (!legDrop c || ((op = 0x10 || op = 0x11) && legDir l = 1))) &&
  g.tail.all fun c => !legHold c && !legNote c && zeroAt c 2 2 && zeroAt c 16 16

/-- The staged range of a STAGE-IN or STAGE-OUT group (R181). -/
def stageOk (g : List (List Byte)) : Bool :=
  let l := g.headD []
  fieldAt l 2 2 = 0 && g.all (fun c => legLen c ≠ 0 && bufField (legAddr c) 1) && !bitN (legByte l 23) 7 &&
  fieldAt l 16 8 + (g.map legLen).sum ≤ 2 ^ 64 && legByte l 24 < (if legOp l = 0x21 then 2 else 1) && zeroAt l 25 7

/-- Operands of a TEST (R209). -/
def testOk (l : List Byte) : Bool :=
  let cond := legByte l 16
  let value := fieldAt l 24 8
  let mem := (2 ≤ cond && cond ≤ 5) || cond = 0x0A || cond = 0x0B
  fieldAt l 2 6 = 0 && 1 ≤ cond && cond ≤ 0x0B && zeroAt l 18 6 &&
  (if mem then legByte l 17 ≤ 3 && addrOk (legAddr l) (8 / 2 ^ legByte l 17) && value < 2 ^ (64 / 2 ^ legByte l 17)
   else legByte l 17 = 0 && legAddr l = 0) &&
  (if cond = 1 || cond = 6 then value < 256 else if cond = 7 then value < 16 else true)

/-- Buffer ranges that share a byte. -/
def rangesMeet (a n b m : Nat) : Bool := decide (a < b + m) && decide (b < a + n)

/-- Encoding of a leg or JOIN group apart from its flags; `img` says whether the store slot named holds a recipe. -/
def operandsOk (g : List (List Byte)) (img : Nat → Bool) : Bool :=
  let l := g.headD []
  let a := legAddr l
  let n := legLen l
  match legOp l with
  | 0x10 => targetOk l && issueDataOk g
  | 0x11 => targetOk l && issueDataOk g && addrOk (legOperand l) 8 &&
      (legByte l 24 = 20 || legByte l 24 = 24 || legByte l 24 = 28 || legByte l 24 = 32) && zeroAt l 25 7
  | 0x12 =>
      let f := legByte l 16
      targetOk l && legDir l = 0 && zeroAt l 4 12 && legByte l 17 = 0 && zeroAt l 24 8 &&
      (f = 1 || f = 0x80 || ((f = 2 || f = 4 || f = 8 || f = 0x10 || f = 0x81) && zeroAt l 18 6))
  | 0x13 =>
      let pg := legByte l 17
      let readable := pg = 0 || pg = 1 || pg = 2 || pg = 4 || pg = 5 || pg = 7 || pg = 0x0A
      let writable := pg = 2 || pg = 4 || pg = 5
      zeroAt l 2 2 && legByte l 16 < 48 && zeroAt l 19 13 && 4 ≤ n && n ≤ 65535 && bufField a 1 &&
      ((legByte l 18 = 1 && readable) || (legByte l 18 = 2 && writable))
  | 0x20 => stageOk g
  | 0x21 => stageOk g
  | 0x22 =>
      zeroAt l 2 2 && n ≠ 0 && bufField a 1 && bufField (legOperand l) 1 && legByte l 24 < 2 && zeroAt l 25 7 &&
      !rangesMeet (bufPos a) n (bufPos (legOperand l)) n
  | 0x23 =>
      let id := fieldAt l 16 2
      zeroAt l 2 2 && 64 ≤ n && n ≤ 4096 && n % 64 = 0 && bufField a 64 && zeroAt l 20 12 &&
      ((1 ≤ id && id ≤ 6) || (0x8000 ≤ id && id ≤ 0x800F && img (id % 16)))
  | 0x24 => zeroAt l 2 6 && bufField a 64 && legByte l 16 ≤ 3 && zeroAt l 17 15
  | 0x25 =>
      zeroAt l 2 2 && n ≠ 0 && bufField a 1 && zeroAt l 25 7 &&
      ((legByte l 24 = 1 && bufField (legOperand l) 64) || (legByte l 24 = 2 && bufField (legOperand l) 1))
  | 0x26 =>
      zeroAt l 2 2 && 1 ≤ legByte l 16 && legByte l 16 ≤ 64 && legByte l 16 ≤ legByte l 17 && legByte l 17 ≤ 64 &&
      zeroAt l 18 14 && n = 32 * legByte l 17 && bufField a 32
  | 0x30 => bare l && legByte l 16 < 48 && legByte l 17 < 2 && zeroAt l 18 14
  | 0x31 => bare l && legByte l 16 < 48 && zeroAt l 17 15
  | 0x32 =>
      bare l && legByte l 16 < 48 && (legByte l 17 = 1 || legByte l 17 = 2) && zeroAt l 18 2 && !zeroAt l 20 12
  | 0x40 => bare l && fieldAt l 16 4 ≤ maxStation && zeroAt l 20 12
  | 0x41 => testOk l
  | 0x42 => bare l && zeroAt l 18 2 && fieldAt l 20 4 ≤ maxStation && fieldAt l 24 4 ≠ 0 && zeroAt l 28 4
  | 0x44 => bare l && zeroAt l 18 14
  | 0x45 => bare l && fieldAt l 16 4 ≠ 0 && zeroAt l 20 12
  | 0x46 =>
      zeroAt l 2 2 && n ≤ 16256 && n % 2 = 0 && (if n = 0 then a = 0 else bufField a 1) && bufField (legOperand l) 2 &&
      1 ≤ fieldAt l 24 2 && fieldAt l 24 2 ≤ 32768 && fieldAt l 26 2 < fieldAt l 24 2 && fieldAt l 28 4 ≠ 0
  | 0x47 => zeroAt l 2 30
  | _ => false

/-- The engine party of a bound traverse. -/
def Trv.party (t : Trv) : Nat := (t.bound.map fun b => partyOfEngine b.1).getD 0

/-- Every encoding check of the station's leg or group. -/
def State.encodingOk (s : State) (t : Trv) : Bool :=
  flagsOk t.group && operandsOk t.group fun j =>
    s.manage.recipesExpert && ((s.engine t.party).slots.find j).isSome && j ∉ (s.engine t.party).eraseSlots

/-! ### Declaration and ownership checks (R75, R124, R125, R172, R188, R191, R197) -/

/-- A range lies in the extent that holds the traverse (R121, R174, R214). -/
def Trv.inOwnExtent (t : Trv) (pos n : Nat) : Bool :=
  isBufAddr t.addr && pos / 65536 = bufPos t.addr / 65536 && (pos + n - 1) / 65536 = bufPos t.addr / 65536

/-- The segments of an ISSUE group are declared as its direction needs. -/
def State.issueDeclared (s : State) (t : Trv) : Bool :=
  let dir := legDir t.leg
  dir = 0 || t.group.all fun c => legDrop c ||
    s.rangeOk t (bufPos (legAddr c)) (legLen c) (if dir = 1 then .write else .read)

/-- A descriptor of a GATHER has the form R196 gives it. -/
def gatherDescOk (d : List Byte) : Bool :=
  fieldAt d 0 2 = 0 && targetOk d && legDir d = 1 && legLen d ≠ 0 && bufField (legAddr d) 64

/-- The checks a GATHER makes before any command is issued (R197, R412). A malformed descriptor, a handle named twice and
handles on two chains end it LEG-INVALID: DESIGN CHOICE (log 61), R197 gives no status. -/
def State.gatherCheck (s : State) (t : Trv) : Option (BitVec 8) :=
  let l := t.leg
  let pos := bufPos (legAddr l)
  let ds := (List.range (legByte l 17)).map fun i => s.readBuf (pos + 32 * i) 32
  let hs := ds.map legHandle
  if !(s.rangeOk t pos (legLen l) .read && s.rangeOk t (pos + legLen l) 32 .write) then some stDenied
  else if s.poisoned pos (legLen l) then some stFetchPoison
  else if !(ds.all gatherDescOk && decide hs.Nodup && hs.all fun h => h / 512 = (hs.headD 0) / 512) then
    some stLegInvalid
  else if !(ds.all fun d =>
      s.ownsDrive t.port (legHandle d) && s.rangeOk t (bufPos (legAddr d)) (legLen d) .write) then some stDenied
  else none

/-- The checks a FLUSH-SPAN makes before rebinding (R191): descriptor and accumulator extents declared ACCUM, the
destination a drive the port owns. A poisoned descriptor is a poisoned fetch (R412; log entry 11). -/
def State.flushCheck (s : State) (t : Trv) : Option (BitVec 8) :=
  let pos := flushDesc t.leg
  if !s.rangeOk t pos 64 .accum then some stDenied
  else if s.poisoned pos 64 then some stFetchPoison
  else
    let d := s.readBuf pos 64
    if !(s.rangeOk t (accFirst d * 65536) (accUnit d * 65536) .accum && s.ownsDrive t.port (accHandle d)) then
      some stDenied
    else none

/-- The declaration and ownership checks of the station's leg: none when it passes, else the status that ends it. -/
def State.ownershipCheck (s : State) (t : Trv) : Option (BitVec 8) :=
  let l := t.leg
  let p := t.port
  let pos := bufPos (legAddr l)
  let n := legLen l
  let deny (ok : Bool) : Option (BitVec 8) := if ok then none else some stDenied
  match legOp l with
  | 0x10 => deny (s.ownsDrive p (legHandle l) && s.issueDeclared t)
  | 0x11 =>
      let a := legOperand l
      let m := legByte l 24
      deny (s.ownsDrive p (legHandle l) && s.issueDeclared t &&
        (!isBufAddr a || s.rangeOk t (bufPos a) m .read || t.inOwnExtent (bufPos a) m))
  | 0x12 => deny (s.ownsDrive p (legHandle l))
  | 0x13 => deny (s.ownsShelf p (legByte l 16) && s.rangeOk t pos n (if legByte l 18 = 1 then .write else .read))
  | 0x20 => deny (t.group.all fun c => s.rangeOk t (bufPos (legAddr c)) (legLen c) .write)
  | 0x21 => deny (t.group.all fun c => s.rangeOk t (bufPos (legAddr c)) (legLen c) .read)
  | 0x22 => deny (s.rangeOk t pos n .read && s.rangeOk t (bufPos (legOperand l)) n .write)
  | 0x23 =>
      let id := fieldAt l 16 2
      let e := s.engine t.party
      let store := 0x8000 ≤ id
      if store && !((s.port p).ap.slots.get t.party 0).getLsbD (id % 16) then some stDenied
      else if !s.rangeOk t pos n .read then some stDenied
      else match e.slots.find (id % 16) with
        | some im => if store && im.profile ≠ e.profile then some stRecipeProfile else none
        | none => none
  | 0x24 => s.flushCheck t
  | 0x25 =>
      let m := if legByte l 24 = 1 then 128 else n
      deny (s.rangeOk t pos n .read && s.rangeOk t (bufPos (legOperand l)) m .read)
  | 0x26 => s.gatherCheck t
  | 0x30 => deny (s.mayBook p (legByte l 16))
  | 0x31 => deny (s.mayBook p (legByte l 16))
  | 0x32 => deny (s.ownsShelf p (legByte l 16))
  | 0x41 =>
      deny (!isBufAddr (legAddr l) || s.rangeOk t pos (8 / 2 ^ legByte l 17) .any)
  | 0x46 =>
      let im := bufPos (legOperand l)
      let m := 2 * fieldAt l 24 2
      deny ((n = 0 || s.rangeOk t pos n .read) && (s.rangeOk t im m .read || t.inOwnExtent im m))
  | _ => none

/-! ### Outings and chains a leg needs (R35, R166, R167) -/

/-- Shelves that must have an open outing. -/
def State.legShelves (s : State) (l : List Byte) : List Nat :=
  match legOp l with
  | 0x10 | 0x11 | 0x12 => [shelfOfHandle (legHandle l)]
  | 0x13 | 0x32 => [legByte l 16]
  | 0x24 => [shelfOfHandle (accHandle (s.readBuf (flushDesc l) 64))]
  | 0x26 => (s.gatherHandles l).map shelfOfHandle
  | _ => []

/-- The chain whose party executes a leg: device legs, FLUSH-SPAN and GATHER (R35, R172, R191, R197). -/
def State.legChain (s : State) (l : List Byte) : Option Nat :=
  match legOp l with
  | 0x10 | 0x11 | 0x12 => some (chainOfHandle (legHandle l))
  | 0x13 => some (chainOfShelf (legByte l 16))
  | 0x24 => some (chainOfHandle (accHandle (s.readBuf (flushDesc l) 64)))
  | 0x26 => some (chainOfHandle ((s.gatherHandles l).headD 0))
  | _ => none

/-- Every shelf the leg needs has an open outing. -/
def State.outingOk (s : State) (l : List Byte) : Bool := (s.legShelves l).all fun sh => (s.shelf sh).isOpen

/-- The leg is to run on the party that runs the traverse. -/
def State.atHome (s : State) (t : Trv) : Bool := match s.legChain t.leg with
  | some c => c = t.party
  | none => true

/-- A device leg's traverse rebinds to the owning party: one park, then ready with that chain (R35). -/
def State.rebind (s : State) (t : Trv) (chain : Nat) : State :=
  let s1 := s.park { t with stage := .rebound, rebindChain := some chain } .rebinding
  s1.withTrv t.port t.tag fun u => s1.putTrv u.toReady

/-! ### Fetching (R121, R136, R137) -/

/-- Address of the leg at a station. -/
def Trv.legAddrAt (t : Trv) (n : Nat) : Nat := (if isBufAddr t.addr then bufPos t.addr else t.addr.toNat) + 64 + 32 * n

/-- Legs kept beside those of a new group: of a station that has not started, those before the new group. A station in
progress needs none, so what the engine holds is one group again (R136). -/
def Trv.keep (t : Trv) (n : Nat) : Tab Fetched :=
  if t.stage = .fresh then t.fetched.filter fun f => t.station ≤ f.1 && f.1 < n else []

/-- The stations a fetch group in buffer memory covers: up to four, within the extent. -/
def Trv.bufferCount (t : Trv) (n : Nat) : Nat :=
  Nat.min 4 (Nat.min (((bufPos t.addr / 65536 + 1) * 65536 - t.legAddrAt n) / 32) (maxStation + 1 - n))

/-- A fetch group of a traverse in buffer memory, read at once; a station past the end of the extent is LEG-INVALID, a
poisoned beat decides the two stations it covers. -/
def State.fetchBuffer (s : State) (t : Trv) (n : Nat) : Trv :=
  let pos := t.legAddrAt n
  let new : Tab Fetched :=
    if t.bufferCount n = 0 then [(n, .failed stLegInvalid)]
    else (List.range (t.bufferCount n)).map fun i =>
      (n + i, if s.poisoned (pos + 32 * i) 32 then .failed stFetchPoison else .leg (s.readBuf (pos + 32 * i) 32))
  { t with fetched := t.keep n ++ new, groupBase := n }

/-- The stations a host fetch group covers. -/
def Trv.groupCount (t : Trv) (n : Nat) : Nat :=
  Nat.min 4 (Nat.min ((4096 - t.legAddrAt n % 4096) / 32) (maxStation + 1 - n))

/-- A station's group fetched (R136): from buffer memory at once, or once its stack is awake (R38, R418); from host memory
by a read, which fails at once when it cannot be issued (R599). Answers whether the legs are there. -/
def State.fetch (s : State) (t : Trv) (n : Nat) : State × Trv × Bool :=
  if isBufAddr t.addr then
    let (s1, awake) := s.readable (t.legAddrAt n) (32 * t.bufferCount n)
    if awake then (s1, s1.fetchBuffer t n, true) else (s1, t, false)
  else
    let k := t.groupCount n
    if (s.port t.port).canRead then
      let t1 := { t with fetching := true, groupBase := n }
      ((s.putTrv t1).issueRead t.port (t.legAddrAt n) (32 * k) (.legs t.tag n k), t1, false)
    else
      (s, { t with fetched := t.keep n ++ (List.range k).map (fun i => (n + i, Fetched.failed stFetchFault)),
                   groupBase := n }, true)

/-- A leg fetch was answered (R137). -/
def State.legsArrive (s : State) (p tag n k : Nat) (r : Except (BitVec 8) (List Byte)) : State :=
  s.withTrv p tag fun t =>
    if !t.fetching then s
    else
      let new : Tab Fetched := (List.range k).map fun i => match r with
        | .ok bs => (n + i, .leg ((bs.drop (32 * i)).take 32))
        | .error st => (n + i, .failed st)
      s.putTrv { t with fetching := false, fetched := t.keep n ++ new }

/-! ### The start of a station (R167) -/

/-- The device leg at the head of a group becomes a member of the issue run that failed a check: it is not issued, and
the run issues no later member (R168). -/
def State.memberFails (s : State) (t : Trv) (st : BitVec 8) : State :=
  let l := t.leg
  let m : RunMember :=
    { station := t.station, handle := legHandle l, len := groupLen t.group, shortOk := legShortOk l
      next := legNext (t.group.getLastD []), performed := false, count := t.group.length
      ended := some { status := st, residual := groupLen t.group, moved := 0, scsi := 0, fault := 0, sense := [] } }
  let t1 := { t with run := t.run ++ [m], runStopped := true }
  if t1.runOver then s.concludeRun t1 else s.putTrv t1

/-- A check of R167 ends the leg: the traverse, or its place in the issue run in progress. -/
def State.checkFails (s : State) (t : Trv) (st : BitVec 8) : State :=
  if t.run = [] then s.endAt t st (groupLen t.group) else s.memberFails t st

/-- The beats that the checks of a FLUSH-SPAN or GATHER read (R191, R197, R410). -/
def Trv.checkReads (t : Trv) (s : State) (beat : Nat) : Bool :=
  let pos := bufPos (legAddr t.leg)
  (legOp t.leg = 0x24 && s.rangeOk t (flushDesc t.leg) 64 .accum && inBuf (flushDesc t.leg) 64 beat) ||
  (legOp t.leg = 0x26 && s.rangeOk t pos (legLen t.leg) .read && s.rangeOk t (pos + legLen t.leg) 32 .write &&
    inBuf pos (legLen t.leg) beat)

/-- The checks after the count: encoding, NOTE record, declaration and ownership, outing. -/
def State.startChecks (s : State) (t : Trv) : State :=
  if !s.encodingOk t then s.checkFails t stLegInvalid
  else
    let (s0, t1) := if legNote t.leg then s.writeRecord t 0x01 0 else (s, t)
    let s1 := s0.met (t1.checkReads s0)
    match s1.ownershipCheck t1 with
    | some st => s1.checkFails t1 st
    | none =>
      if s1.atHome t1 && !s1.outingOk t1.leg then s1.checkFails t1 stOutingClosed
      else s1.putTrv { t1 with stage := .ready }

/-- The leg or group is counted against the budget and starts: waiters at its stations are satisfied and requested
records written (R149, R152, R101). The engine holds the last group it read (R136). -/
def State.startGroup (s : State) (t : Trv) (g : List (List Byte)) : State :=
  let held := t.fetched.filter fun f => t.groupBase ≤ f.1 && f.1 < t.groupBase + 4
  let t0 := { t with group := g, fetched := held }
  if t.budget < t.legs + g.length then s.checkFails t0 stLegBudget
  else
    let (s1, more) := (s.putTrv { t0 with legs := t.legs + g.length }).satisfy t.port t.tag (some (t.station, g.length)) 0
    let s2 := s1.endList more
    s2.withTrv t.port t.tag fun t1 =>
      let (s3, t2) := s2.flushNotes t1
      s3.startChecks t2

/-- The head is there: deadline, hold, continuations, then the count. Where a continuation cannot be fetched the residual
is the length of the legs of the group that could: DEDUCED (log 17), R168 gives the group's total. -/
def State.startHead (s : State) (t : Trv) (head : List Byte) : State :=
  if t.run = [] && t.deadlinePassed then s.endAt t stWaitTimeout (groupLen [head])
  else if legHold head && t.released ≠ some t.station then
    let (s1, t1) := s.writeRecord { t with state := .held, group := [head] } 0x03 0
    s1.park t1 .held
  else match t.groupHere with
    | .got g => s.startGroup t g
    | .failed st legs => s.endAt t st (groupLen legs)
    | .need n =>
      let (s1, t1, there) := s.fetch t n
      if !there then s1
      else match t1.groupHere with
        | .got g => s1.startGroup t1 g
        | .failed st legs => s1.endAt t1 st (groupLen legs)
        | .need _ => s1.putTrv t1

/-- A station starts outside an issue run. -/
def State.startFresh (s : State) (t : Trv) : State :=
  let go (s : State) (t : Trv) : State := match t.fetched.find t.station with
    | some (.leg b) => s.startHead t b
    | some (.failed st) => if t.deadlinePassed then s.endAt t stWaitTimeout 0 else s.endAt t st 0
    | none => s.putTrv t
  match t.fetched.find t.station with
  | some _ => go s t
  | none =>
    let (s1, t1, there) := s.fetch t t.station
    if there then go s1 t1 else s1

/-- An issue run in progress (R148): its next member starts, or the run waits for its commands, or it is over and the
station after it starts. -/
def State.startInRun (s : State) (t : Trv) : State :=
  let settle (s : State) (t : Trv) : State :=
    if t.runOver then
      let s1 := s.concludeRun t
      s1.withTrv t.port t.tag fun u => if u.state = .running && u.run = [] then s1.startFresh u else s1
    else s.putTrv t
  if t.runStopped || t.run.any fun m => !m.next then settle s t
  else
    let go (s : State) (t : Trv) : State := match t.groupHere with
      | .got g => if t.joinsRun g then s.startGroup t g else settle s t
      | .failed _ _ => settle s t
      | .need _ => s.putTrv t
    match t.groupHere with
    | .need n =>
      if maxStation < n then settle s t
      else
        let (s1, t1, there) := s.fetch t n
        if there then go s1 t1 else s1
    | _ => go s t

/-- STATION_START (R167): the running traverse starts its station; a leg that came to its party by rebinding passes the
outing check there. -/
def execStationStart (p tag : Nat) (s : State) : Ans :=
  .next (s.withTrv p tag fun t =>
    if t.state ≠ .running || t.bound.isNone || t.fetching then s
    else match t.stage with
      | .ready | .awaiting => s
      | .rebound =>
        if s.outingOk t.leg then s.putTrv { t with stage := .ready } else s.checkFails t stOutingClosed
      | .fresh => if t.run = [] then s.startFresh t else s.startInRun t)

end Sys2Proof.Machine
end

