-- ==== Sys2Proof/Machine/LegDevice.lean ====
section
/-! DEFINITION. The device legs ISSUE, ISSUE-EXT, TASK and ENCLOSURE, and FLUSH-SPAN and GATHER (R171 to R180, R190,
R191, R196 to R201, R381). -/

namespace Sys2Proof.Machine

/-- A shelf the leg needs has lost power since the leg started (R163, R241). -/
def State.shelfGone (s : State) (l : List Byte) : Bool := (s.legShelves l).any fun sh => !(s.shelf sh).powered

/-- The leg that is ready to be performed has the opcode; a device leg on another chain rebinds first (R35), and one whose
shelf has lost power meanwhile ends OUTING-CLOSED (R163). -/
def State.perform (s : State) (p tag op : Nat) (f : Trv → State) : State :=
  s.withTrv p tag fun t =>
    if t.state = .running && t.stage = .ready && legOp t.leg = op then
      match s.legChain t.leg with
      | some c => if c ≠ t.party then s.rebind t c else if s.shelfGone t.leg then s.checkFails t stOutingClosed else f t
      | none => if s.shelfGone t.leg then s.checkFails t stOutingClosed else f t
    else s

/-! ### ISSUE and ISSUE-EXT -/

/-- The data segments of a JOIN group (R143, R144). -/
def segmentsOf (g : List (List Byte)) : List Segment :=
  g.map fun c => { addr := if legDrop c then none else some (bufPos (legAddr c)), len := legLen c }

/-- A command of a device leg sent to its wide port; a handle without a device answers LINK-LOST (R172, R252). The
traverse goes on to the next station of its issue run (R148), which is the station a record or a NOTE-REQUEST shows while
commands of the run are outstanding: DESIGN CHOICE (log 61), R157 does not say which of a run's stations it is. -/
def State.issue (s : State) (t : Trv) (cdb : List Byte) : State :=
  let l := t.leg
  let h := legHandle l
  let len := (t.group.map legLen).sum
  let lost : LegEnd := { status := stLinkLost, residual := len, moved := 0, scsi := 0, fault := 4, sense := [] }
  let attached := (s.handle h).attached.isSome
  let m : RunMember :=
    { station := t.station, handle := h, len, shortOk := legShortOk l, next := legNext (t.group.getLastD [])
      performed := true, ended := if attached then none else some lost, count := t.group.length }
  let t1 := { t with
    run := t.run ++ [m], runStopped := t.runStopped || legHold l, station := t.station + t.group.length,
    stage := .fresh, group := [], released := none, operand := none }
  if attached then
    (s.handOver h (.leg t.port t.tag t.station) cdb (legDir l) len
      (if legDir l = 0 then [] else segmentsOf t.group)).putTrv t1
  else s.runSettle t1

/-- ISSUE (R171 to R173). -/
def execLegIssue (p tag : Nat) (s : State) : Ans :=
  .next (s.perform p tag 0x10 fun t => s.issue t (t.leg.drop 16))

/-- ISSUE-EXT (R174): the CDB is read, then sent as ISSUE sends one. -/
def execLegIssueExt (p tag : Nat) (s : State) : Ans :=
  .next (s.perform p tag 0x11 fun t =>
    let a := legOperand t.leg
    let n := legByte t.leg 24
    if isBufAddr a then s.whenReadable (bufPos a) n fun s =>
      if s.poisoned (bufPos a) n then s.checkFails t stFetchPoison else s.issue t (s.readBuf (bufPos a) n)
    else if !(s.port p).canRead then s.checkFails t stFetchFault
    else
      (cut (s.port p).mrrs a.toNat n).foldl (fun (s : State) (x, k) => s.issueRead p x k (.cdb tag))
        (s.putTrv { t with stage := .awaiting, operand := some (List.replicate n 0) }))

/-- A piece of a CDB was answered (R174): with the last piece the command goes out, or the traverse ends. A leg whose CDB
could not be read has not been performed, and leaves LEG_INFO as it was (R170): DESIGN CHOICE (log 61), R174 is silent. -/
def State.cdbArrives (s : State) (p tag addr : Nat) (r : Except (BitVec 8) (List Byte)) : State :=
  s.withTrv p tag fun t =>
    if t.stage ≠ .awaiting || t.operand.isNone then s
    else
      let t1 : Trv := match r with
        | .ok bs => { t with operand := t.operand.map fun o => patchBytes o (addr - (legOperand t.leg).toNat) bs }
        | .error st => { t with stageFault := some (t.stageFault.getD st) }
      if (s.port p).reads.any fun r => r.purpose = .cdb tag then s.putTrv t1
      else match t1.stageFault with
        | some st => s.checkFails { t1 with stageFault := none, operand := none, stage := .fresh }
            (if s.shelfGone t1.leg then stOutingClosed else st)
        | none =>
          if s.shelfGone t1.leg then s.checkFails { t1 with operand := none, stage := .fresh } stOutingClosed
          else s.issue t1 (t1.operand.getD [])

/-! ### TASK (R175 to R177, R268) -/

/-- A command was issued by the leg at a station of a traverse (R175). -/
def State.issuedBy (s : State) (c : Cmd) (p tag station : Nat) : Bool :=
  !c.orphan && match c.owner with
    | .leg q u st => q = p && u = tag && st = station
    | .gather q u _ | .spinLeg q u _ _ => q = p && u = tag && ((s.trv? p tag).map (·.station)) = some station
    | _ => false

/-- Functions that name one command: ABORT TASK and QUERY TASK. -/
def namesOne (f : Nat) : Bool := f = 0x01 || f = 0x80

/-- The command a TASK leg names. -/
def State.named (s : State) (t : Trv) : Option Cmd :=
  let l := t.leg
  (s.chain (chainOfHandle (legHandle l))).cmds.find? fun c =>
    c.handle = legHandle l && s.issuedBy c t.port (fieldAt l 18 2) (fieldAt l 20 4)

/-- A TASK leg that ends without an information unit: OK, NOT-SENT, with a response code. -/
def State.notSent (s : State) (p tag code : Nat) : State :=
  s.withTrv p tag fun t => s.legDone t { status := stOk, info := some (BitVec.ofNat 64 (256 + code)) }

/-- An ABORT TASK or QUERY TASK goes out, or finds nothing to send for (R176). -/
def State.taskNamed (s : State) (t : Trv) : State :=
  let f := legByte t.leg 16
  let h := legHandle t.leg
  match s.named t with
  | none => s.notSent t.port t.tag 0
  | some c =>
    if !c.sent then
      if f = 0x01 then (s.endCmd (chainOfHandle h) c c.aborted false).notSent t.port t.tag 0
      else s.notSent t.port t.tag 8
    else s.sendTmf h f (some c.id) (.leg t.port t.tag)

/-- TASK (R175 to R177, R268): a function that names a command is resolved at once unless its handle is under
recovery; the others are held at the wide port. At a detached handle they answer LINK-LOST (R252). -/
def execLegTask (p tag : Nat) (s : State) : Ans :=
  .next (s.perform p tag 0x12 fun t =>
    let f := legByte t.leg 16
    let h := legHandle t.leg
    let t1 := { t with stage := .awaiting }
    if namesOne f then
      if (s.handle h).recovery.isSome then (s.putTrv t1).sendTmf h f none (.leg p tag)
      else (s.putTrv t1).taskNamed t1
    else if (s.handle h).attached.isNone then
      let (info, s1) := s.freeInfo
      s1.legDone t1 { status := stLinkLost, info := some (info &&& 0x1FF) }
    else (s.putTrv t1).sendTmf h f none (.leg p tag))

/-! ### ENCLOSURE (R178 to R180) -/

/-- RECEIVE DIAGNOSTIC RESULTS with PCV 1, SEND DIAGNOSTIC with PF 1. PRESUMED (SPC-4, log entry 7). -/
def cdbReceiveDiag (page len : Nat) : List Byte :=
  [0x1C, 1, BitVec.ofNat 8 page, BitVec.ofNat 8 (len / 256), BitVec.ofNat 8 len] ++ List.replicate 11 0
def cdbSendDiag (len : Nat) : List Byte :=
  [0x1D, 0x10, 0, BitVec.ofNat 8 (len / 256), BitVec.ofNat 8 len] ++ List.replicate 11 0

/-- Element types whose SELECT bit is cleared: Device Slot, Power Supply, Array Device Slot. PRESUMED (SES-4, log
entry 7). -/
def guarded (typ : Nat) : Bool := typ = 0x01 || typ = 0x02 || typ = 0x17

/-- Offsets in page 0x02 of the control elements whose SELECT bit is cleared (R179): after 8 bytes of header, each type
has an overall element and its elements, 4 bytes each. PRESUMED (SES-4, log entry 7). -/
def selectOffsets : Nat → List (Nat × Nat) → List Nat
  | _, [] => []
  | off, (typ, n) :: rest =>
    (if guarded typ then (List.range (n + 1)).map fun i => off + 4 * i else []) ++ selectOffsets (off + 4 * (n + 1)) rest

/-- The command handed over last, changed. -/
def SasPort.modLast (x : SasPort) (f : Cmd → Cmd) : SasPort :=
  { x with cmds := x.cmds.map fun c => if c.id + 1 = x.nextId then f c else c }

/-- ENCLOSURE (R178 to R180). -/
def execLegEnclosure (p tag : Nat) (s : State) : Ans :=
  .next (s.perform p tag 0x13 fun t =>
    let l := t.leg
    let sh := legByte l 16
    let ch := chainOfShelf sh
    let h := enclosureHandle sh
    let n := legLen l
    let t1 := { t with stage := .awaiting }
    let read := legByte l 18 = 1
    let clear := if !read && legByte l 17 = 2 then selectOffsets 8 ((s.chain ch).elements.get (sh % 4) []) else []
    if (s.handle h).attached.isNone then
      s.legDone t1
        { status := stLinkLost, info := some (issueInfo 0 4 []), residual := n }
    else
      let s1 := (s.putTrv t1).handOver h (.leg p tag t.station)
        (if read then cdbReceiveDiag (legByte l 17) n else cdbSendDiag n) (if read then 1 else 2) n
        [{ addr := some (bufPos (legAddr l)), len := n }]
      s1.modChain ch fun x => x.modLast fun c => { c with clear, page2 := !read && legByte l 17 = 2 })

/-! ### FLUSH-SPAN (R190, R191, R381) -/

/-- A FLUSH-SPAN that ends before its write, with a device fault code in LEG_INFO. -/
def State.flushEnds (s : State) (t : Trv) (st : BitVec 8) (fault : BitVec 8) (residual : Nat) : State :=
  s.legDone t { status := st, info := some (issueInfo 0 fault []), residual }

/-- FLUSH-SPAN: the accumulator table, TAINTED and the contribution count are checked; FLUSHING is set and the write is
issued as ISSUE issues data-out. -/
def execLegFlushSpan (p tag : Nat) (s : State) : Ans :=
  .next (s.perform p tag 0x24 fun t =>
    let pos := flushDesc t.leg
    let d := s.readBuf pos 64
    let at_ := bufAddr pos
    if !(s.accums.any fun a => a.desc = at_) then s.flushEnds t stLegInvalid 0x12 0
    else if bitN (accState d) 1 then s.flushEnds t stTainted 0x11 0
    else if accCount d ≠ accTotal d then s.flushEnds t stLegInvalid 0x10 0
    else if (s.handle (accHandle d)).attached.isNone then s.flushEnds t stLinkLost 4 (accLength d)
    else
      (((s.putTrv { t with stage := .awaiting, flushing := some at_ }).setFlushing at_ true).handOver (accHandle d)
        (.leg p tag t.station) (accCdb d) 2 (accLength d) [{ addr := some (accFirst d * 65536), len := accLength d }]).modChain
        (chainOfHandle (accHandle d)) fun x => x.modLast fun c => { c with flush := some at_ })

/-! ### GATHER (R196 to R201) -/

/-- GATHER: its commands are handed over in descriptor order; one for a handle without a device falls in FAILED at once
(R172, R199), and a GATHER that can no longer reach K aborts the rest (R200). -/
def execLegGather (p tag : Nat) (s : State) : Ans :=
  .next (s.perform p tag 0x26 fun t =>
    let l := t.leg
    let n := legByte l 17
    let ds := (List.range n).map fun i => (i, t.descriptor s i)
    let here := ds.filter fun d => (s.handle (legHandle d.2)).attached.isSome
    let gone := ds.filter fun d => (s.handle (legHandle d.2)).attached.isNone
    let failed : Tab LegEnd := gone.map fun d =>
      (d.1, { status := stLinkLost, residual := legLen d.2, moved := 0, scsi := 0, fault := 4, sense := [] })
    let g : GatherState :=
      { k := legByte l 16, n, lens := ds.map fun d => legLen d.2, outcome := bufPos (legAddr l) + legLen l, failed }
    let t1 := { t with stage := .awaiting, gather := some g }
    let s1 := here.foldl (fun (s : State) (i, d) =>
      s.handOver (legHandle d) (.gather p tag i) (d.drop 16) 1 (legLen d)
        [{ addr := some (bufPos (legAddr d)), len := legLen d }]) (s.putTrv t1)
    let (s2, g2) := if here.length < g.k then s1.gatherAbort t1 g else (s1, g)
    if s2.gatherCmds t1 = [] then s2.gatherOver t1 g2 else s2.putTrv { t1 with gather := some g2 })

end Sys2Proof.Machine
end

