-- ==== Sys2Proof/Machine/LegData.lean ====
section
/-! DEFINITION. STAGE-IN and STAGE-OUT (R181 to R184). -/

namespace Sys2Proof.Machine

/-! ### STAGE-IN -/

/-- STAGE-IN (R181 to R183): the host range is read in requests of the Max Read Request Size. -/
def execLegStageIn (p tag : Nat) (s : State) : Ans :=
  .next (s.perform p tag 0x20 fun t =>
    let host := fieldAt t.leg 16 8
    let total := (t.group.map legLen).sum
    if !(s.port p).canRead then
      s.legDone t { status := stFetchFault, info := some 0, residual := total }
    else
      (cut (s.port p).mrrs host total).foldl (fun (s : State) (a, k) => s.issueRead p a k (.stageIn tag (a - host)))
        (s.putTrv { t with stage := .awaiting, staged := 0, poisonBeats := [], stageFault := none }))

/-- A STAGE-IN read was answered: its bytes are stored, with the poison tag when the completion was poisoned; with the
last answer the leg ends (R183). -/
def State.stageInArrives (s : State) (p tag pos : Nat) (data : Option (List Byte × Bool)) : State :=
  s.withTrv p tag fun t =>
    if t.stage ≠ .awaiting || legOp t.leg ≠ 0x20 then s
    else
      let segs := segmentsOf t.group
      let total := (t.group.map legLen).sum
      let (s1, t1) : State × Trv := match data with
        | some (bs, bad) =>
          (s.placeBytes segs pos bs bad,
           { t with staged := t.staged + bs.length, bytes := t.bytes + bs.length
                    poisonBeats := if bad then (t.poisonBeats ++ segmentBeats segs pos bs.length).dedup else t.poisonBeats })
        | none => (s, { t with stageFault := some stFetchFault })
      let more := (s1.port p).reads.any fun r => match r.purpose with
        | .stageIn u _ => u = tag
        | _ => false
      if more then s1.putTrv t1
      else
        let info := some (BitVec.ofNat 64 t1.poisonBeats.length)
        match t1.stageFault with
        | some st =>
          s1.legDone { t1 with stageFault := none }
            { status := st, info, residual := total - t1.staged, moved := decide (0 < t1.staged) }
        | none => s1.legDone t1 { status := stOk, info, moved := true }

/-! ### STAGE-OUT -/

/-- The end of a STAGE-OUT: DELIVERY-UNCONFIRMED when its read-back failed, DATA-POISONED when a poisoned beat went
out, else OK (R184). -/
def State.stageOutEnds (s : State) (t : Trv) (confirmed : Bool) : State :=
  s.legDone t
    { status := if !confirmed then stDeliveryUnconfirmed else if t.poisonBeats ≠ [] then stDataPoisoned else stOk
      info := some (BitVec.ofNat 64 t.poisonBeats.length), moved := true }

/-- Relaxed Ordering of payload writes: Device Control bit 4 (R53, PCI Express Base 5.0). -/
def Port.relaxed (x : Port) : Bool := bitN (x.cfg 30) 4

/-- STAGE-OUT (R181, R182, R184): every beat is sent in TLPs of the Max Payload Size, EP set where a beat is poisoned;
READBACK then reads the last byte back. -/
def execLegStageOut (p tag : Nat) (s : State) : Ans :=
  .next (s.perform p tag 0x21 fun t =>
    let l := t.leg
    let host := fieldAt l 16 8
    let total := (t.group.map legLen).sum
    let segs := segmentsOf t.group
    let x := s.port p
    let s0 := (cut x.mps host total).foldl (fun (s : State) (a, k) =>
      s.hostWrite p tag a (s.segmentBytes segs (a - host) k) x.relaxed (s.segmentPoison segs (a - host) k)) s
    let bad := ((segmentBeats segs 0 total).filter fun b => decide (b ∈ s.poison)).dedup
    let last := host + total - 1
    let t1 := { t with stage := .awaiting, bytes := t.bytes + total, wrote := some last, poisonBeats := bad }
    let s1 := s0.met fun b => decide (b ∈ segmentBeats segs 0 total)
    if !bitN (legByte l 24) 0 then s1.stageOutEnds t1 true
    else if x.canRead then (s1.putTrv t1).issueRead p last 1 (.stageBack tag)
    else s1.stageOutEnds t1 false)

/-- The read-back of a STAGE-OUT was answered. -/
def State.stageBackArrives (s : State) (p tag : Nat) (ok : Bool) : State :=
  s.withTrv p tag fun t => if t.stage = .awaiting && legOp t.leg = 0x21 then s.stageOutEnds t ok else s

end Sys2Proof.Machine
end

