-- ==== Sys2Proof/Machine/Dma.lean ====
section
/-! DEFINITION. The DMA engine: channels, triggers, hand-over, descriptors, chains, timers, and the COPY leg
(R185, R420 to R432). -/

namespace Sys2Proof.Machine

/-! ### Places (R423) -/

/-- What an address of a descriptor names. -/
inductive Place where
  | host (a : Nat)
  | buf (pos : Nat)
  | phys (addr : Nat)
  deriving DecidableEq, Repr

/-- The place an address names; none for an address of none of the three forms. -/
def placeOf (a : Nat) : Option Place :=
  if bitsOf a 63 63 = 0 then some (.host a)
  else if bitsOf a 62 38 = 0 then some (.buf (a % 2 ^ 38))
  else if bitsOf a 62 62 = 1 && bitsOf a 61 38 = 0 then some (.phys (a % 2 ^ 38))
  else none

def Place.isHost : Place → Bool
  | .host _ => true
  | _ => false

def Place.isPhys : Place → Bool
  | .phys _ => true
  | _ => false

/-- The byte address in the stacks of byte `i` of a place. -/
def Place.byteAddr : Place → Nat → Nat
  | .host _, _ => 0
  | .buf pos, i => bufAddr (pos + i)
  | .phys a, i => a + i

/-- The offset of a place within a beat. -/
def Place.offset : Place → Nat
  | .host a => a % 64
  | .buf pos => pos % 64
  | .phys a => a % 64

/-- A quarter-physical range stays below the check region. -/
def Place.inBounds (pl : Place) (n : Nat) : Bool := match pl with
  | .phys a => decide (a % 2 ^ 36 + n ≤ 0xBA0000000)
  | _ => true

/-- The quarters whose stacks a range of a place touches. -/
def Place.quarters (pl : Place) (n : Nat) : List Nat := match pl with
  | .host _ => []
  | .phys a => [a / 2 ^ 36]
  | .buf pos => (List.range 4).filter fun q =>
      decide (pos / 65536 / extentsPerQuarter ≤ q) && decide (q ≤ (pos + n - 1) / 65536 / extentsPerQuarter)

/-- Where a block move's bytes lie (R473). -/
def BlockMove.place (m : BlockMove) : Place := if m.phys then .phys m.addr else .buf m.addr

/-- Bytes of a place, each with the poison mark of its beat. -/
def State.marked (s : State) (pl : Place) (off n : Nat) : List (Byte × Bool) :=
  (List.range n).map fun i =>
    let a := pl.byteAddr (off + i)
    (s.stackByte a, decide (a / 64 ∈ s.poison))

/-- A beat, by its number, lies in a range of a place. -/
def Place.touches (pl : Place) (n beat : Nat) : Bool := match pl with
  | .host _ => false
  | .buf pos => inBuf pos n beat
  | .phys a => decide (0 < n) && decide (a / 64 ≤ beat) && decide (64 * beat < a + n)

/-- A range of a place has been read: the events of its beats (R410), and poison in a firmware region (R413). -/
def State.taken (s : State) (pl : Place) (n : Nat) : State :=
  let s1 := s.met (pl.touches n)
  match pl with
  | .phys a => s1.firmwareRead a n
  | _ => s1

/-- Cuts of `n` bytes, the first at offset `a` of a beat, at beat edges: start and length. -/
def beatCuts : Nat → Nat → Nat → Nat → List (Nat × Nat)
  | 0, _, _, _ => []
  | f + 1, a, i, n =>
    if n = 0 then []
    else
      let k := Nat.min n (64 - a % 64)
      (i, k) :: beatCuts f (a + k) (i + k) (n - k)

/-- Marked bytes written to the stacks beat by beat: a beat that takes a poisoned byte is poisoned (R411). -/
def State.putMarked (s : State) (pl : Place) (off : Nat) (l : List (Byte × Bool)) : State :=
  (beatCuts (l.length + 1) (pl.offset + off) 0 l.length).foldl (fun (s : State) (i, k) =>
    let part := (l.drop i).take k
    s.writePhys (pl.byteAddr (off + i)) (part.map (·.1)) (part.any (·.2))) s

/-! ### Descriptors (R423) -/

/-- A descriptor's 32 bytes from its 16 words. -/
def descBytes (t : Tab (BitVec 16)) : List Byte := ofWords ((List.range 16).map fun i => t.get i 0)

def dLen (d : List Byte) : Nat := fieldAt d 16 3
def dReadback (d : List Byte) : Bool := bitN (byteAt d 19) 0
def dStop (d : List Byte) : Bool := bitN (byteAt d 19) 1
def dChain (d : List Byte) : Bool := bitN (byteAt d 19) 2
def dFill (d : List Byte) : Bool := bitN (byteAt d 19) 3
def dPort (d : List Byte) : Nat := byteAt d 20 % 8
def dSrc (d : List Byte) : Option Place := placeOf (fieldAt d 0 8)
def dDst (d : List Byte) : Option Place := placeOf (fieldAt d 8 8)
def dNext (d : List Byte) : Option Place := placeOf (fieldAt d 24 8)

/-- The descriptor is valid (R423). -/
def State.descOk (s : State) (d : List Byte) : Bool :=
  let n := dLen d
  byteAt d 19 < 16 && byteAt d 20 < 8 && zeroAt d 21 3 && 0 < n && (s.port (dPort d)).created &&
  (match dDst d with
    | none => false
    | some dst => dst.inBounds n &&
      (dFill d || match dSrc d with
        | none => false
        | some src => src.inBounds n && !(src.isHost && dst.isHost) && !(src.isPhys && dst.isPhys))) &&
  (if dChain d then fieldAt d 24 8 % 32 == 0 && (match dNext d with
      | some pl => !pl.isHost && pl.inBounds 32
      | none => false)
   else zeroAt d 24 8)

/-! ### Triggers (R424) -/

/-- DMA_GO_WRITE (R422, R424). -/
def execDmaGoWrite (ch : Nat) (v : Word) (s : State) : Ans :=
  .next (if ch < 32 && v.getLsbD 0 then s.trigger ch else s)

/-- DMA_CTL_WRITE (R18, R19, R422). -/
def execDmaCtlWrite (ch : Nat) (v : Word) (s : State) : Ans :=
  .next (
    if 32 ≤ ch then s
    else
      let x := s.channel ch
      let src : BitVec 2 := v.extractLsb' 8 2
      let sel : BitVec 5 := v.extractLsb' 0 5
      let bad := src = 3 || (src = 1 && 15 < sel.toNat) || (src = 2 && sel.toNat = ch) ||
        (x.busy && (src ≠ x.trigSrc || sel ≠ x.trigSel))
      if bad then s.setChannel ch { x with fieldRefused := true }
      else
        let en := v.getLsbD 13
        s.setChannel ch { x with
          shadowArm := v.getLsbD 15, auto := v.getLsbD 14, en, irqDest := v.extractLsb' 11 2, irqEn := v.getLsbD 10
          trigSrc := src, trigSel := sel, pend := if en then x.pend else 0 })

/-! ### A run (R425 to R428) -/

/-- The run has ended with a status and a residual; DMA_RUN_END reports it. -/
def State.runOver (s : State) (ch st resid : Nat) : State :=
  s.modChannel ch fun x => { x with outcome := some (st, resid), reading := false }

/-- The port can carry a run's accesses: up, in D0 and not in containment (R428, R599). -/
def State.dmaPortUp (s : State) (p : Nat) : Bool :=
  (s.port p).linkUp && !(s.port p).d3hot && !s.contained p

/-- Bytes 0 to `n` of a fill pattern, from the first byte of the destination. DESIGN CHOICE (log 33). -/
def fillBytes (pat : List Byte) (n : Nat) : List (Byte × Bool) :=
  (List.range n).map fun i => (pat.getD (i % 8) 0, false)

/-- Marked bytes written to host memory in TLPs of the Max Payload Size, EP set on a part that holds poison (R428). -/
def State.hostMarked (s : State) (p addr : Nat) (l : List (Byte × Bool)) : State :=
  (cut (s.port p).mps addr l.length).foldl (fun (s : State) (a, k) =>
    let part := (l.drop (a - addr)).take k
    (s.countTlp p 1 256 (tlpBytes a k)).emit (.hostWrite p a (part.map (·.1)) false (part.any (·.2)))) s

/-- A descriptor has moved its bytes and confirmed them: the chain goes on or the run ends (R426, R428); the next descriptor
is read once its stack is awake (R418). Answers whether another descriptor stands to be executed. -/
def State.descEnds (s : State) (ch : Nat) : State × Bool :=
  let x := s.channel ch
  if x.sawPoison then (s.runOver ch 3 0, false)
  else if !dChain x.desc then (s.runOver ch 0 0, false)
  else if x.budget.toNat ≤ x.descNo then (s.runOver ch 1 0, false)
  else match dNext x.desc with
    | none => (s.runOver ch 6 0, false)
    | some pl =>
      let (s1, awake) := s.reach (pl.quarters 32)
      if !awake then (s1, false)
      else
        let l := s1.marked pl 0 32
        let d := l.map (·.1)
        let s2 := s1.taken pl 32
        if l.any (·.2) then (s2.runOver ch 5 (dLen d), false)
        else (s2.setChannel ch { x with desc := d, descNo := x.descNo + 1, written := 0 }, true)

/-- All bytes of the descriptor are written: a READBACK of host memory reads its last dword, else the descriptor ends
(R427). -/
def State.descMoved (s : State) (ch : Nat) : State × Bool :=
  let d := (s.channel ch).desc
  match dDst d with
  | some (.host a) =>
    if dReadback d then
      (((s.modChannel ch fun x => { x with reading := true }).issueRead (dPort d) ((a + dLen d - 1) / 4 * 4) 4
        (.dmaBack ch)), false)
    else s.descEnds ch
  | _ => s.descEnds ch

/-- The next host read of a descriptor whose source is host memory: one at a time, of at most the Max Read Request
Size. DESIGN CHOICE (log 33). -/
def State.dmaFetch (s : State) (ch a : Nat) : State :=
  let x := s.channel ch
  match cut (s.port (dPort x.desc)).mrrs (a + x.written) (dLen x.desc - x.written) with
  | (b, k) :: _ =>
    (s.setChannel ch { x with reading := true }).issueRead (dPort x.desc) b k (.dma ch x.written)
  | [] => s

/-- Bytes before the first poisoned one, cut back to its beat. -/
def cleanPrefix (off : Nat) (l : List (Byte × Bool)) : Nat :=
  let k := (l.takeWhile fun b => !b.2).length
  if k = l.length then k else k - Nat.min k ((off + k) % 64)

/-- One descriptor executed as far as it goes without an answer from a host; answers whether the next one stands to be
executed (R423, R426, R428). One whose bytes are all written has only its end to come. -/
def State.descRun (s : State) (ch : Nat) : State × Bool :=
  let d := (s.channel ch).desc
  let n := dLen d
  if !s.descOk d then (s.runOver ch 6 n, false)
  else if (s.channel ch).written = n then s.descEnds ch
  else match dDst d with
    | none => (s, false)
    | some dst =>
      let src := if dFill d then none else dSrc d
      let usesHost := dst.isHost || (src.map (·.isHost)).getD false
      let (s1, awake) := s.reach (dst.quarters n ++ ((src.map fun pl => pl.quarters n).getD []))
      if usesHost && !s.dmaPortUp (dPort d) then (s.runOver ch 7 n, false)
      else if !awake then (s1, false)
      else match src with
        | some (.host a) => (s1.dmaFetch ch a, false)
        | _ =>
          let all := match src with
            | some pl => s.marked pl 0 n
            | none => fillBytes (d.take 8) n
          let off := (src.map (·.offset)).getD 0
          let keep := if dStop d then cleanPrefix off all else n
          let l := all.take keep
          let bad := l.any (·.2)
          let s2 := match src with
            | some pl => s1.taken pl (Nat.min n (keep + 1))
            | none => s1
          let s3 := match dst with
            | .host a => s2.hostMarked (dPort d) a l
            | pl => s2.putMarked pl 0 l
          if keep < n then (s3.runOver ch 3 (n - keep), false)
          else (s3.modChannel ch fun x => { x with written := n, sawPoison := x.sawPoison || (dst.isHost && bad) }
            ).descMoved ch

/-- Descriptors executed one after another, at most BUDGET of them (R426). -/
def State.dmaGo : Nat → Nat → State → State
  | 0, _, s => s
  | f + 1, ch, s =>
    let (s1, more) := s.descRun ch
    if more then State.dmaGo f ch s1 else s1

/-- The run goes on. -/
def State.dmaContinue (s : State) (ch : Nat) : State :=
  let x := s.channel ch
  State.dmaGo (x.budget.toNat - x.descNo + 2) ch s

/-- The hand-over cycle (R425). -/
def DmaChannel.handOver (x : DmaChannel) : DmaChannel :=
  let act := if x.shadowArm then x.shadow else x.act
  { x with act, shadowArm := false, desc := descBytes act, descNo := 1, written := 0, sawPoison := false }

/-- A COPY leg's bytes (R185, R411): with POISON-STOP up to the first poisoned beat. -/
def State.copyRun (s : State) (ch : Nat) (j : CopyJob) : State :=
  let all := s.marked (.buf j.src) 0 j.len
  let keep := if j.stop then cleanPrefix j.src all else j.len
  let (s1, awake) := s.reach ((Place.buf j.src).quarters j.len ++ (Place.buf j.dst).quarters j.len)
  if !awake then s1
  else
    let beats := s.poisonCount j.src keep
    let s2 := ((s1.taken (.buf j.src) (Nat.min j.len (keep + 1))).putMarked (.buf j.dst) 0 (all.take keep)).modChannel ch fun x => { x with written := beats }
    s2.runOver ch (if keep < j.len then 3 else 0) (j.len - keep)

/-- DMA_RUN_START (R425, R426): the hand-over cycle and the descriptors that follow; a run that waits for a stack to
wake (R418) goes on with the same command. -/
def execDmaRunStart (ch : Nat) (s : State) : Ans :=
  .next (
    let x := s.channel ch
    if 32 ≤ ch || !x.busy || x.outcome.isSome || x.reading then s
    else match x.copy with
      | some j => s.copyRun ch j
      | none => (if x.desc = [] then s.setChannel ch x.handOver else s).dmaContinue ch)

/-- A host read of a descriptor was answered (R427, R428): data with its poison, or the failure. -/
def State.dmaArrives (s : State) (ch pos : Nat) (data : Option (List Byte × Bool)) : State :=
  let x := s.channel ch
  let d := x.desc
  let n := dLen d
  if !x.busy || !x.reading || x.outcome.isSome || x.written ≠ pos then s
  else if !s.dmaPortUp (dPort d) then s.runOver ch 7 (n - pos)
  else match data, dDst d, dSrc d with
    | none, _, _ => s.runOver ch 4 (n - pos)
    | some (bs, bad), some dst, some (.host a) =>
      if bad && dStop d then s.runOver ch 3 (n - pos)
      else
        let s1 := (s.putMarked dst pos (bs.map fun b => (b, bad))).setChannel ch
          { x with written := pos + bs.length, reading := false }
        if pos + bs.length < n then
          if s1.dmaPortUp (dPort d) then s1.dmaFetch ch a else s1.runOver ch 7 (n - pos - bs.length)
        else
          let (s2, more) := s1.descMoved ch
          if more then s2.dmaContinue ch else s2
    | _, _, _ => s

/-- A read-back of a descriptor was answered (R427). -/
def State.dmaBackArrives (s : State) (ch : Nat) (ok : Bool) : State :=
  let x := s.channel ch
  if !x.busy || !x.reading || x.outcome.isSome then s
  else if !s.dmaPortUp (dPort x.desc) then s.runOver ch 7 0
  else if !ok then s.runOver ch 2 0
  else
    let (s1, more) := (s.setChannel ch { x with reading := false }).descEnds ch
    if more then s1.dmaContinue ch else s1

/-- A port goes down or enters containment: the runs that use it end LINK-LOST (R428, R599). -/
def State.dmaPortLost (s : State) (p : Nat) : State :=
  (List.range 32).foldl (fun (s : State) ch =>
    let x := s.channel ch
    let uses := dPort x.desc = p && ((dDst x.desc).map (·.isHost) = some true ||
      (!dFill x.desc && (dSrc x.desc).map (·.isHost) = some true))
    if x.busy && x.outcome.isNone && x.reading && x.desc ≠ [] && uses then
      s.runOver ch 7 (dLen x.desc - x.written)
    else s) s

/-! ### COPY (R185, R431) -/

/-- The quarter of a COPY leg's source. -/
def CopyJob.quarter (j : CopyJob) : Nat := j.src / 65536 / extentsPerQuarter

/-- A free channel for a COPY leg: among channels 0 to 5 of its quarter, within its port's limit. -/
def State.copyChannel (s : State) (j : CopyJob) : Option Nat :=
  let chs := (List.range 6).map fun i => 8 * j.quarter + i
  let mine := (chs.filter fun ch => ((s.channel ch).copy.map (·.port)) = some j.port).length
  let limit := if s.manage.copyExpert then s.manage.copyMax.get j.port 6 else 6
  if limit ≤ mine then none else chs.find? fun ch => !(s.channel ch).busy

/-- Waiting COPY legs take channels in arrival order; one held back by its port's limit delays no other. -/
def State.serveCopies (s : State) : State :=
  s.copyQueue.foldl (fun (s : State) j => match s.copyChannel j with
    | some ch =>
      ({ s with copyQueue := s.copyQueue.erase j } : State).modChannel ch fun x =>
        { x with busy := true, copy := some j, desc := [], written := 0 }
    | none => s) s

/-- COPY (R185): the leg waits for a channel of its source's quarter (R431). -/
def execLegCopy (p tag : Nat) (s : State) : Ans :=
  .next (s.perform p tag 0x22 fun t =>
    let l := t.leg
    let j : CopyJob := { port := p, tag, src := bufPos (legAddr l), dst := fieldAt l 16 8 % 2 ^ 38, len := legLen l,
                         stop := bitN (legByte l 24) 0 }
    ({ (s.putTrv { t with stage := .awaiting }) with copyQueue := s.copyQueue ++ [j] } : State).serveCopies)

/-- The COPY leg of an ended run ends (R185). -/
def State.copyEnds (s : State) (j : CopyJob) (st resid beats : Nat) : State :=
  s.withTrv j.port j.tag fun t =>
    if t.stage = .awaiting && legOp t.leg = 0x22 then
      s.legDone t { status := if st = 0 then stOk else stDataPoisoned, info := some (BitVec.ofNat 64 beats)
                    residual := resid, moved := decide (resid < j.len) }
    else s

/-- The next run of a channel (R424, R425): the AUTO shadow run first, then a pending trigger. -/
def DmaChannel.nextRun (x : DmaChannel) : DmaChannel :=
  let y := { x with busy := false, outcome := none, copy := none, desc := [], descNo := 0, reading := false,
                    written := 0, sawPoison := false }
  if x.auto && x.shadowArm then { y with busy := true }
  else if 0 < x.pend then { y with busy := true, pend := x.pend - 1 }
  else y

/-- DMA_RUN_END (R428, R430). -/
def execDmaRunEnd (ch : Nat) (s : State) : Ans :=
  .next (
    let x := s.channel ch
    match x.outcome with
    | none => s
    | some (st, resid) =>
      let s1 := s.reportRun ch x.nextRun st resid
      let s2 := match x.copy with
        | some j => s1.copyEnds j st resid x.written
        | none => s1
      s2.serveCopies)

/-! ### Timers (R429) -/

/-- DMA_TIMER_CTL_WRITE (R429): EN with PERIOD 0 is refused and EN stays 0. -/
def execDmaTimerCtlWrite (n : Nat) (v : Word) (s : State) : Ans :=
  .next (
    if 16 ≤ n then s
    else
      let x := s.timers.get n {}
      let clear := x.fieldRefused && !v.getLsbD 14
      let y : DmaTimer :=
        if v.getLsbD 15 && !x.en && x.period = 0 then { x with fieldRefused := true }
        else { x with en := v.getLsbD 15, fieldRefused := clear }
      { s with timers := s.timers.set n y })

/-- DMA_TIMER_FIRE (R424, R429): every channel that selects the timer is triggered. -/
def execDmaTimerFire (n : Nat) (s : State) : Ans :=
  .next (
    if 16 ≤ n || !(s.timers.get n {}).en then s
    else ((List.range 32).filter fun d => (s.channel d).trigSrc = 1 && (s.channel d).trigSel.toNat = n).foldl
      (fun (s : State) d => s.trigger d) s)

end Sys2Proof.Machine
end

