-- ==== Sys2Proof/Machine/HostPort.lean ====
section
/-! DEFINITION. The host ports as PCI Express functions: configuration space, resets and link events, held writes,
the BAR4 window (R46 to R66, R78, R547, R599). -/

namespace Sys2Proof.Machine

/-! ### Configuration space (R48 to R52) -/

/-- Dwords of the capability list (R50), with the capability IDs of PCI Express Base 5.0. PRESUMED (log 6). -/
def capDword (d : Nat) : Option (BitVec 32) :=
  if d = 16 then some 0x00035001
  else if d = 64 then some 0x14820001
  else if d = 82 then some 0x15810003
  else if d = 83 then some (Config.deviceSerial.setWidth 32)
  else if d = 84 then some (Config.deviceSerial.extractLsb' 32 32)
  else if d = 86 then some 0x18810019
  else if d = 98 then some 0x19810025
  else if d = 102 then some 0x1C810026
  else if d = 114 then some 0x2001002A
  else if d = 128 then some 0x00010027
  else none

/-- Writable bits of a configuration dword: command, cache line, BARs, MSI-X control, Device Control,
ASPM L1, completion timeout and 10-bit tags, AER masks and severity, ECRC enables. PRESUMED (log 6). -/
def configMask (x : Port) (d : Nat) : BitVec 32 :=
  if d = 1 then 0x00000547
  else if d = 3 then 0x000000FF
  else if d = 4 then 0xFF000000
  else if d = 6 then 0xFFF00000
  else if d = 5 || d = 7 then 0xFFFFFFFF
  else if d = 8 then (if x.bar4Log2 = 0 then 0 else BitVec.allOnes 32 <<< x.bar4Log2)
  else if d = 9 then (if x.bar4Log2 = 0 then 0 else BitVec.allOnes 32 <<< (x.bar4Log2 - 32))
  else if d = 20 then 0xC0000000
  else if d = 30 then 0x00007FFF
  else if d = 32 then 0x00000002
  else if d = 38 then 0x0000101F
  else if d = 66 || d = 67 then 0x01FFF030
  else if d = 69 then 0x0000FFFF
  else if d = 70 then 0x00000140
  else 0

/-- Width code of PCI Express for a configured width (R48, R68). -/
def linkWidth (code : Nat) : Nat := if code = 3 then 16 else if code = 2 then 8 else 4

/-- The capability dwords that R48 fixes, in the layout of PCI Express Base 5.0; bits it leaves open are free. PRESUMED
(log 6): Device Capabilities (a Max Payload Size of 512, extended tags, role-based errors, FLR), Link Capabilities (32
GT/s, the configured width, ASPM L1 only), Device Capabilities 2 (timeout ranges A and B, timeout disable, 10-bit tags),
Link Capabilities 2 (2.5 to 32 GT/s), AER capabilities (ECRC generation and checking), Data Link Feature Capabilities (scaled flow control). -/
def Port.capability (x : Port) (d : Nat) : Option (BitVec 32) :=
  if d = 29 then some (0x10008022 ||| (Config.configWord 29 &&& 0x00000FC0))
  else if d = 31 then some (BitVec.ofNat 32 (0x400805 + 16 * linkWidth x.width) ||| (Config.configWord 31 &&& 0xFF03F000))
  else if d = 37 then some 0x00030013
  else if d = 39 then some 0x0000003E
  else if d = 99 then some (1 ||| (Config.configWord 99 &&& 0xFFFFFFFE))
  else none

/-- A configuration dword as it reads (R5, R48 to R51, R60, R69); one this manual does not lay out is free. -/
def Port.readConfig (x : Port) (d : Nat) : BitVec 32 :=
  let w := BitVec.ofNat 32 (x.cfg d) &&& configMask x d
  if d = 0 then 0x09601F6B
  else if d = 1 then w ||| 0x00100000
  else if d = 2 then 0x018000A1
  else if d = 3 then w
  else if d = 4 || d = 6 then w ||| 4
  else if d = 5 || d = 7 || d = 9 then w
  else if d = 8 then (if x.bar4Log2 = 0 then 0 else w ||| 0xC)
  else if d = 11 then x.subsystem ++ x.subVendor
  else if d = 13 then 0x40
  else if d = 15 then 0
  else if d = 17 then (if x.d3hot then 3 else 0)
  else if d = 20 then w ||| 0x01007011
  else if d = 21 then 0x00020000
  else if d = 22 then 0x00022000
  else if d = 28 then 0x00020010
  else if d = 30 || d = 38 || d = 66 || d = 67 || d = 69 then w
  else if d = 32 then w ||| (Config.configWord 32 &&& 0xFFFFFFFC)
  else if d = 70 then w ||| 0xA0
  else ((x.capability d).orElse fun _ => capDword d).getD (Config.configWord d)

/-- CONFIG_REQUEST (R52). Setting the power state and FLR are commands of their own. -/
def execConfigRequest (p : Nat) (write : Bool) (dword : Nat) (v : BitVec 32) (s : State) : Ans :=
  .next (
    let x := s.port p
    let s0 := if write then s.hostTlp p 0 4 else s
    if !s.linked p || 1024 ≤ dword then s0
    else if !x.configured then s0.emit (.retryStatus p)
    else if write then
      if configMask x dword = 0 then s0
      else s0.setPort p { x with config := x.config.set dword (v &&& configMask x dword) }
    else (s.hostTlp p 1 4).emit (.readData (leBytes 4 (x.readConfig dword).toNat) false))

/-! ### Resets and links -/

/-- Ports of a controller's arrangement (R46). -/
def arrangement (c : Nat) (strap : BitVec 2) : List Nat :=
  if strap = 0 then [4 * c] else if strap = 1 then [4 * c, 4 * c + 2]
  else if strap = 2 then [4 * c, 4 * c + 1, 4 * c + 2, 4 * c + 3] else []

/-- Width code of FN_PORTINFO (R68). -/
def widthCode (strap : BitVec 2) : Nat := if strap = 0 then 3 else if strap = 1 then 2 else 1

/-- The reserved strap value is recorded (R46). -/
def State.strapFault (s : State) (c : Nat) : State := s.deviceEvent 0x03 0 (15 * 16 ^ c) 0

/-- The straps of controller `c` sampled (R46): its ports exist from now on. -/
def State.sampleStraps (s : State) (c : Nat) (strap : BitVec 2) : State :=
  let s1 : State := if c = 0 then { s with bif0 := some strap } else { s with bif1 := some strap }
  let s2 := (arrangement c strap).foldl (fun (s : State) p =>
    s.modPort p fun x => { x with created := true, width := widthCode strap }) s1
  if strap = 3 && s.mode ≠ .off && s.mode ≠ .reset then s2.strapFault c else s2

/-- PERST_N_DEASSERT (R46, R52, R554): the port leaves its fundamental reset, and straps not yet sampled since
power-on are sampled. -/
def execPerstNDeassert (slot : Nat) (strap : BitVec 2) (s : State) : Ans :=
  .next (
    if 8 ≤ slot || !(s.port slot).perst then s
    else
      let s1 := s.modPort slot fun x => { x with perst := false }
      if slot = 0 && s.bif0.isNone && s.railsValid then s1.sampleStraps 0 strap
      else if slot = 4 && s.bif1.isNone && s.railsValid then s1.sampleStraps 1 strap
      else s1)

/-- A port's link is gone: its DMA runs end, its power state is D0 again (R428; PCI Express Base 5.0, log 6). -/
def State.linkGone (s : State) (p : Nat) : State :=
  (s.modPort p fun x => { x with linkUp := false, d3hot := false }).dmaPortLost p

/-- PERST_N_ASSERT (R47, R548, R557). -/
def execPerstNAssert (slot : Nat) (s : State) : Ans :=
  .next (
    if 8 ≤ slot || (s.port slot).perst then s
    else
      let s1 := (s.modPort slot fun x => { x with perst := true, configured := false, ready := false }).linkGone slot
      s1.startHost slot 0x05 true true)

/-- FLR of the administrative port: its staged changes are discarded (R71). -/
def State.flrStaged (s : State) (p : Nat) : State :=
  if s.manage.principal = some p then s.emptySecure.dropStaged else s

/-- FLR (R54, R71). -/
def execFlr (p : Nat) (s : State) : Ans :=
  .next (if s.linked p && (s.port p).configured then (s.flrStaged p).startHost p 0x01 true false else s)

/-- Held host writes are made (R599). -/
def State.releaseHeld (s : State) (p : Nat) : State :=
  let x := s.port p
  x.heldWrites.foldl (fun (s : State) w =>
      (s.countTlp p 1 w.tenant (tlpBytes w.addr w.bytes.length)).emit (.hostWrite p w.addr w.bytes w.relaxed w.ep))
    (s.setPort p { x with heldWrites := [] })

/-- D3HOT_TO_D0 (R54, R599). -/
def execD3hotToD0 (p : Nat) (s : State) : Ans :=
  .next (
    if (s.port p).d3hot && s.linked p then
      ((s.modPort p fun x => { x with d3hot := false }).releaseHeld p).startHost p 0x02 true false
    else s)

/-- DL_DOWN (R54). -/
def execDlDown (p : Nat) (s : State) : Ans :=
  .next (if s.linked p then (s.linkGone p).startHost p 0x03 true false else s)

/-- PCIE_LINK_UP (R599): the link comes up in D0, and held writes are made. -/
def execPcieLinkUp (p : Nat) (s : State) : Ans :=
  .next (
    let x := s.port p
    if x.created && !x.perst && !x.linkUp && x.clkMode ≤ 2 && s.mode ≠ .off && s.mode ≠ .reset && s.mode ≠ .tripped then
      (s.setPort p { x with linkUp := true, d3hot := false }).releaseHeld p
    else s)

/-- UNCORRECTABLE_FATAL_ERROR (R54). -/
def execUncorrectableFatalError (p : Nat) (s : State) : Ans :=
  .next (if s.linked p then s.startHost p 0x04 false false else s)

/-- PCIE_REFCLK_LOSS (R588): the link goes down. -/
def execPcieRefclkLoss (p : Nat) (s : State) : Ans :=
  .next (if s.linked p then (s.linkGone p).startHost p 0x03 true false else s)

/-! ### BAR4 (R64) -/

/-- A BAR4 read at an offset is answered with data, which counts as payload sent (R519). -/
def State.bar4Answer (s : State) (p offset : Nat) (bytes : List Byte) (ep : Bool) : State :=
  (s.hostTlp p 1 (tlpBytes offset bytes.length)).emit (.readData bytes ep)

/-- A BAR4 access that is not carried out: a read returns 0. -/
def State.bar4Zero (s : State) (p : Nat) (write : Bool) (offset n : Nat) : State :=
  if write then s else s.bar4Answer p offset (List.replicate n 0) false

/-- A BAR4 access to an extent of the port reaches the stack (R64, R410, R411). -/
def State.bar4Reach (s : State) (p pos : Nat) (write : Bool) (bytes : List Byte) : State :=
  let n := bytes.length
  if write then s.writeBuf pos bytes false
  else (s.bar4Answer p pos (s.readBuf pos n) (s.poisoned pos n)).met (inBuf pos n)

/-- A BAR4 access (R64). One to a stack in self-refresh, or leaving it, waits in the open arbiter and wakes the stack
(R38, R320, R418). -/
def State.bar4 (s : State) (p : Nat) (write : Bool) (offset : Nat) (bytes : List Byte) : State :=
  let x := s.port p
  let n := bytes.length
  if x.bar4Log2 = 0 || 2 ^ x.bar4Log2 < offset + n then s.emit (.unsupported p)
  else if !x.bar4En then s.bar4Zero p write offset n
  else
    let h := x.bar4Base.toNat + offset / 65536
    let q := h / extentsPerQuarter
    if 65536 < offset % 65536 + n then s
    else if !s.ownsExtent p h then (s.bar4Zero p write offset n).unclaimed p
    else if (s.quarter q).reachable then (s.wakeStack q).bar4Reach p (h * 65536 + offset % 65536) write bytes
    else (s.wakeStack q).modQuarter q fun y => { y with bar4 := y.bar4 ++ [{ port := p, write, offset, bytes }] }

/-- BAR4_ACCESS (R64): a write's data counts as payload received (R519). -/
def execBar4Access (p : Nat) (write : Bool) (offset : Nat) (bytes : List Byte) (s : State) : Ans :=
  .next (
    let n := bytes.length
    let s0 := if write then s.hostTlp p 0 (tlpBytes offset n) else s
    if !s.linked p || n = 0 then s0
    else if s.mode ≠ .ready then (s0.bar4Zero p write offset n).unclaimed p
    else s0.bar4 p write offset bytes)

/-- The waiting request whose turn is next: ports in round robin, each port's in order (R313). -/
def nextBar4 (l : List Bar4Req) (turn : Nat) : Option Bar4Req :=
  ((List.range 8).map fun i => (turn + i) % 8).findSome? fun p => l.find? fun r => r.port = p

/-- Waiting BAR4 accesses are served one after another. -/
def State.bar4Turns (q : Nat) : Nat → State → State
  | 0, s => s
  | n + 1, s =>
    let x := s.quarter q
    match nextBar4 x.bar4 x.bar4Turn with
    | none => s
    | some r =>
      let s1 := s.setQuarter q { x with bar4 := x.bar4.erase r, bar4Turn := (r.port + 1) % 8 }
      State.bar4Turns q n (if s.linked r.port then s1.bar4 r.port r.write r.offset r.bytes else s1)

/-- The stack of a quarter has left self-refresh: the BAR4 accesses that waited for it are served (R313, R320). -/
def State.serveBar4 (s : State) (q : Nat) : State := State.bar4Turns q (s.quarter q).bar4.length s

end Sys2Proof.Machine
end

