-- ==== Sys2Proof/Machine/Kilvor.lean ====
section
/-! DEFINITION. Kilvor requests and replies, and the apportionment commands (R71 to R80, R501, R600). -/

namespace Sys2Proof.Machine

/-! ### Requests and replies (R72, R73, R501, R600) -/

/-- A Kilvor request: its sender (a port, or none for the BMC), whether LOAD may come over its path (R391), whether
its framing is sound, the command code and the payload. -/
structure KReq where
  sender : Option Nat
  keyPath : Bool
  sound : Bool
  code : Nat
  payload : List Byte
  deriving DecidableEq, Repr

/-- A range of buffer memory in extents a port owns. -/
def State.portRange (s : State) (p : Nat) (a : BitVec 64) (n : Nat) : Bool :=
  isBufAddr a && bufAddrOk a &&
    (List.range ((bufPos a + n - 1) / 65536 - bufPos a / 65536 + 1)).all fun i => s.ownsExtent p (bufPos a / 65536 + i)

/-- A request of the secure mailbox (R501), read from port `p`'s extents when INDIRECT. -/
def State.secureReq (s : State) (p : Nat) (v : Service) : KReq :=
  let len := v.word 1
  let indirect := v.word 2 = 1
  let payload :=
    if indirect then s.readBuf (bufPos (v.quad 3)) len
    else (ofWords ((v.words.drop 3).take 29)).take len
  let sound := v.word 2 < 2 && len ≤ 4096 &&
    if indirect then s.portRange p (v.quad 3) len && s.portRange p (v.quad 7) 4096 else len ≤ 58
  { sender := some p, keyPath := true, sound, code := v.word 0, payload := if sound then payload else [] }

/-- The device's SMBus address (R72). -/
def State.smbusAddr (s : State) : BitVec 7 := 0x60 + s.manage.smbAddr.setWidth 7

/-- A path that reaches the device: SMBus messages to its own address do (R72). -/
def State.addressed (s : State) : MctpPath → Bool
  | .smbus a => a = s.smbusAddr
  | _ => true

/-- The request in an MCTP message. -/
def State.mctpReq (s : State) (path : MctpPath) (body : List Byte) : Option KReq :=
  let r : KReq := { sender := none, keyPath := true, sound := body ≠ [], code := byteAt body 0, payload := body.drop 1 }
  match path with
  | .smbus a => if a = s.smbusAddr then some r else none
  | .vdm p => some { r with sender := some p, keyPath := false }
  | .secure => s.manage.principal.map fun p => { r with sender := some p }

/-- The request a Kilvor command carries out; none when nothing of the kind is there to serve. One in the service queue is
of the secure mailbox, or an MCTP message that had to wait (R407). -/
def State.kreq (s : State) (src : KilvorSrc) : Option KReq :=
  if s.mode ≠ .ready then none
  else match src with
    | .mctp path body => s.mctpReq path body
    | .service => match s.service with
      | v :: _ => match v.mctp, s.manage.principal with
        | some (path, body), _ => s.mctpReq path body
        | none, some p =>
          if v.inst = instSecureReq && 1 ≤ v.word 0 && v.word 0 ≤ 9 then some (s.secureReq p v) else none
        | none, none => none
      | [] => none

/-- Payload of a Kilvor message over PCIe: the message type, the vendor ID and the body (R542, R600). -/
def kilvorBytes (body : List Byte) : Nat := tlpBytes 0 (3 + body.length)

/-- A request over PCIe that gets no reply counts as payload all the same (R519, R542). -/
def State.kignore (s : State) (src : KilvorSrc) : State := match src with
  | .mctp (.vdm p) body => s.hostTlp p 0 (kilvorBytes body)
  | _ => s

/-- The answer to an MCTP message; request and reply over PCIe count as payload (R542). -/
def State.mctpAnswer (s : State) (path : MctpPath) (body : List Byte) (code : Nat) (data : List Byte) : State :=
  let answer := body.take 1 ++ [BitVec.ofNat 8 code] ++ data
  let counted := match path with
    | .vdm p => (s.hostTlp p 0 (kilvorBytes body)).hostTlp p 1 (kilvorBytes answer)
    | _ => s
  counted.emit (.mctpReply path answer)

/-- The reply area of an INDIRECT request lies in the administrative port's extents. -/
def State.replyArea (s : State) (v : Service) : Bool := v.word 2 = 1 && match s.manage.principal with
  | some p => s.portRange p (v.quad 7) 4096
  | none => false

/-- A completion code and reply data, sent the way the request came. -/
def State.kreply (s : State) (src : KilvorSrc) (code : Nat) (data : List Byte) : State :=
  match src with
  | .mctp path body => s.mctpAnswer path body code data
  | .service => match s.service with
    | v :: rest => match v.mctp with
      | some (path, body) => ({ s with service := rest } : State).mctpAnswer path body code data
      | none =>
        let head := [code, data.length, v.word 2]
        if s.replyArea v then (s.writeBuf (bufPos (v.quad 7)) data false).answer head
        else s.answer (head ++ (toWords (data.take 58)).map (·.toNat))
    | [] => s

/-- What answers a request is done once the stack of its reply area is awake (R38). -/
def State.kready (s : State) (src : KilvorSrc) (f : State → State) : State :=
  match src, s.service with
  | .service, v :: _ =>
    if v.mctp.isNone && s.replyArea v then s.whenAwake (bufQuarters (bufPos (v.quad 7)) 4096) f else f s
  | _, _ => f s

/-- A request is served once the stacks of its payload and its reply area are awake; the payload of an INDIRECT one is read
(R38, R410, R501). -/
def State.kwake (s : State) (src : KilvorSrc) (f : State → State) : State :=
  s.kready src fun s => match src, s.service, s.manage.principal with
    | .service, v :: _, some p =>
      if v.mctp.isNone && v.word 2 = 1 && (s.secureReq p v).sound then s.whenReadable (bufPos (v.quad 3)) (v.word 1) f
      else f s
    | _, _, _ => f s

/-- The sender is the management principal (R71). -/
def State.isPrincipal (s : State) (r : KReq) : Bool := r.sender = s.manage.principal

/-- The request, if it has the command code and `op` accepts its payload. -/
def State.kfor (s : State) (src : KilvorSrc) (code : Nat) (f : KReq → State) : State :=
  match s.kreq src with
  | some r => if r.sound && r.code = code then f r else s
  | none => s.kignore src

/-- A change asked for: refused to anyone but the principal (R72), INVALID for a payload of another length (R600). -/
def State.kasked (s : State) (src : KilvorSrc) (r : KReq) (ok : List Byte → Bool) (f : State → List Byte → State) : State :=
  s.kwake src fun s =>
    if !s.isPrincipal r then s.kreply src 2 []
    else if !ok r.payload then s.kreply src 3 []
    else f s r.payload

/-- The change of a command code. -/
def State.kchange (s : State) (src : KilvorSrc) (code : Nat) (ok : List Byte → Bool) (f : State → List Byte → State) :
    State :=
  s.kfor src code fun r => s.kasked src r ok f

/-! ### The apportionment view (R80) -/

/-- A dword of the view block; none for an offset that holds no register. -/
def Apportion.view (a : Apportion) (off : Nat) : Option Nat :=
  if off = 0x000 then some a.gen.toNat
  else if off = 0x004 then some (a.cqCount * 2 ^ 16 + a.sqCount)
  else if off = 0x008 then some a.trvQuota
  else if off = 0x00C then some a.keys
  else if off = 0x010 then some (a.bar4Log2 * 2 ^ 16 + a.share)
  else if 0x020 ≤ off && off < 0x030 then some (a.ext.get ((off - 0x020) / 4) 0)
  else if off = 0x030 then some (a.shelves.toNat % 2 ^ 32)
  else if off = 0x034 then some (a.shelves.toNat / 2 ^ 32)
  else if 0x040 ≤ off && off < 0x058 then
    let w := (off - 0x040) / 4
    some ((a.slots.get (2 * w) 0).toNat + (a.slots.get (2 * w + 1) 0).toNat * 2 ^ 16)
  else if 0x100 ≤ off && off < 0x400 then
    let w := (off - 0x100) / 4
    some (if w % 16 < 12 then (a.drives.get (w / 16) 0).toNat / 2 ^ (32 * (w % 16)) % 2 ^ 32 else 0)
  else none

/-- The committed slot profile of an engine. -/
def Engine.committed (x : Engine) : BitVec 8 := x.profileNext.getD x.profile

/-- GET_APPORTIONMENT (R73, R80, R600): open to every sender. -/
def execGetApportionment (src : KilvorSrc) (s : State) : Ans :=
  .next (s.kfor src 0x01 fun r => s.kwake src fun s =>
    let p := byteAt r.payload 0
    if r.payload.length ≠ 1 || !(s.port p).created then s.kreply src 3 []
    else
      let view := (List.range 256).flatMap fun i => leBytes 4 (((s.port p).ap.view (4 * i)).getD 0)
      s.kreply src 0 (view ++ (List.range 12).map fun e => (s.engine e).committed))

/-! ### Staging (R74, R600) -/

/-- Length of a STAGE-GRANT payload of a class; none for a class R74 does not list. -/
def grantLen (cls : Nat) : Option Nat :=
  if cls = 1 || cls = 2 || cls = 3 || cls = 4 || cls = 8 || cls = 9 then some 8
  else if cls = 5 then some 52
  else if cls = 6 then some 10
  else if cls = 7 then some 6
  else if cls = 0xA || cls = 0xB then some 5
  else none

/-- Indices of a class. -/
def grantIndices (cls : Nat) : Nat := if cls = 3 then 4 else if cls = 5 || cls = 7 || cls = 0xB then 12 else 1

/-- The largest count one port may hold of a counted class. -/
def grantMax (cls : Nat) : Nat :=
  if cls = 1 || cls = 2 || cls = 9 then 256 else if cls = 3 then extentsPerQuarter else if cls = 4 then 65536 else 4096

/-- A STAGE-GRANT payload that R600 accepts. -/
def State.grantOk (s : State) (b : List Byte) : Bool :=
  let cls := byteAt b 0
  let v := byteAt b 4
  grantLen cls = some b.length && byteAt b 2 < grantIndices cls && byteAt b 3 = 0 &&
  (cls = 0xB || (byteAt b 1 < 8 && (s.port (byteAt b 1)).created)) &&
  (if cls = 0xA then v = 0 || (26 ≤ v && v ≤ 36)
   else if cls = 0xB then v = 0x0A || v = 0x0B || v = 0x0C
   else if cls = 5 || cls = 6 || cls = 7 then true
   else fieldAt b 4 4 ≤ grantMax cls)

/-- STAGE_GRANT (R77, R600): a later grant of the same class, port and index replaces the earlier one. -/
def execStageGrant (src : KilvorSrc) (s : State) : Ans :=
  .next (s.kchange src 0x02 s.grantOk fun s b =>
    let cls := byteAt b 0
    let g : Grant :=
      { cls, port := if cls = 0xB then 0 else byteAt b 1, index := byteAt b 2, value := b.drop 4 }
    let rest := s.manage.staged.filter fun h => !(h.cls = g.cls && h.port = g.port && h.index = g.index)
    ({ s with manage := { s.manage with staged := rest ++ [g] } } : State).kreply src 0 [])

/-- DISCARD (R73). -/
def execDiscard (src : KilvorSrc) (s : State) : Ans :=
  .next (s.kchange src 0x04 (fun b => b = []) fun s _ =>
    ({ s with manage := { s.manage with staged := [] } } : State).kreply src 0 [])

/-! ### COMMIT (R77 to R79) -/

/-- A record with one grant applied. -/
def Apportion.grant (a : Apportion) (g : Grant) : Apportion :=
  let n := leNat g.value
  if g.cls = 1 then { a with sqCount := n }
  else if g.cls = 2 then { a with cqCount := n }
  else if g.cls = 3 then { a with ext := a.ext.set g.index n }
  else if g.cls = 4 then { a with trvQuota := n }
  else if g.cls = 5 then { a with drives := a.drives.set g.index (BitVec.ofNat 384 n) }
  else if g.cls = 6 then { a with shelves := BitVec.ofNat 48 n }
  else if g.cls = 7 then { a with slots := a.slots.set g.index (BitVec.ofNat 16 n) }
  else if g.cls = 8 then { a with keys := n }
  else if g.cls = 9 then { a with share := n }
  else if g.cls = 0xA then { a with bar4Log2 := n }
  else a

/-- The record a port would have after the staged grants. -/
def State.staged (s : State) (p : Nat) : Apportion :=
  (s.manage.staged.filter fun g => g.cls ≠ 0xB && g.port = p).foldl Apportion.grant (s.port p).ap

/-- The profile an engine would have. -/
def State.stagedProfile (s : State) (e : Nat) : BitVec 8 :=
  match s.manage.staged.find? fun g => g.cls = 0xB && g.index = e with
  | some g => g.value.headD 0
  | none => (s.engine e).committed

/-- No two of the sets share a member. -/
def disjointSets {w : Nat} (l : List (BitVec w)) : Bool :=
  (l.foldl (fun (acc : BitVec w × Bool) x => (acc.1 ||| x, acc.2 && acc.1 &&& x = 0)) (0, true)).2

/-- The staged records hold within the device totals (R74, R77). -/
def State.totalsOk (s : State) : Bool :=
  let aps := (List.range 8).map s.staged
  let sum (f : Apportion → Nat) : Nat := (aps.map f).sum
  sum (·.sqCount) ≤ 1024 && sum (·.cqCount) ≤ 1024 && sum (·.trvQuota) ≤ 65536 && sum (·.keys) ≤ 4096 &&
  sum (·.share) ≤ 256 && ((List.range 4).all fun q => sum (fun a => a.ext.get q 0) ≤ extentsPerQuarter) &&
  disjointSets (aps.map (·.shelves)) &&
  ((List.range 12).all fun c => disjointSets (aps.map fun a => a.drives.get c 0)) &&
  (List.range 12).all fun e => disjointSets (aps.map fun a => a.slots.get e 0)

/-- The withdrawal conditions of R79 for a port. -/
def State.withdrawOk (s : State) (p : Nat) : Bool :=
  let x := s.port p
  let old := x.ap
  let new := s.staged p
  ((List.range (old.sqCount - new.sqCount)).all fun i =>
    !(x.sq (new.sqCount + i)).en && s.sqIdle p (new.sqCount + i)) &&
  ((List.range (old.cqCount - new.cqCount)).all fun i =>
    !(x.cq (new.cqCount + i)).en && s.cqIdle p (new.cqCount + i)) &&
  ((List.range 4).all fun q => old.ext.get q 0 ≤ new.ext.get q 0 || s.allocated p q ≤ new.ext.get q 0) &&
  ((List.range 12).all fun e => (List.range 16).all fun j =>
    !(old.slots.get e 0).getLsbD j || (new.slots.get e 0).getLsbD j || ((s.engine e).slots.find j).isNone) &&
  (old.bar4Log2 ≤ new.bar4Log2 || !x.bar4En)

/-- Keys of handles a port no longer has are erased, in the store and in its sealed copy (R79). -/
def eraseKeys (keys : Tab (BitVec 256)) (p count : Nat) : Tab (BitVec 256) :=
  keys.filter fun k => !(k.1 / 4096 = p && count ≤ k.1 % 4096)

/-- An engine whose running recipe is bound to an erased key faults at its next INIT or REST (R365). -/
def State.markErased (s : State) (gone : Nat → Bool) : State :=
  { s with engines := Tab.mapVals s.engines fun x => match x.running with
      | some r => { x with keyErased := x.keyErased ||
          (r.launch.key ≠ 0xFFFF && gone (4096 * r.launch.port + r.launch.key)) }
      | none => x }

/-- Two records give the same resources: a set staged as empty is one the port holds nothing of (R77). -/
def Apportion.same (a b : Apportion) : Bool :=
  { a with ext := [], drives := [], slots := [] } = { b with ext := [], drives := [], slots := [] } &&
  (List.range 4).all (fun q => a.ext.get q 0 = b.ext.get q 0) &&
  (List.range 12).all fun c => a.drives.get c 0 = b.drives.get c 0 && a.slots.get c 0 = b.slots.get c 0

/-- The sealed store written over the older of its two copies of 128 KiB (R392, R550). -/
def sealOps (keys : Tab (BitVec 256)) (copy : Bool) : List FlashOp :=
  let base := if copy then 0x22000 else 0x2000
  eraseOps 0x21 4096 base 32 ++ (List.range 512).flatMap fun i => progOps 0x12 (base + 256 * i) (Config.sealedPage keys i)

/-- The keys of a port's handles from `count` on are erased, in the store and, where it holds one, in the sealed copy,
which is written anew (R79, R392, R591). -/
def State.eraseFrom (s : State) (p count : Nat) : State :=
  let kept := eraseKeys s.flash.keys p count
  let s1 : State := { s with manage := { s.manage with keys := eraseKeys s.manage.keys p count } }
  let s2 := s1.markErased fun k => k / 4096 = p && count ≤ k % 4096
  if kept = s.flash.keys then s2
  else ({ s2 with flash := { s.flash with keys := kept, keyCopy := !s.flash.keyCopy } } : State).spi
    (sealOps kept !s.flash.keyCopy)

/-- The new record of one port takes effect. -/
def State.commitPort (s : State) (p : Nat) (new : Apportion) : State :=
  let x := s.port p
  if new.same x.ap then s
  else
    let s1 := s.setPort p { x with ap := { new with gen := x.ap.gen + 1 } }
    (s1.eraseFrom p new.keys).portEvent p 1

/-- The owner of a shelf. -/
def State.shelfOwner (s : State) (sh : Nat) : Option Nat := (List.range 8).find? fun p => s.ownsShelf p sh

/-- Shelves whose owner changed take derived parameters (R245). -/
def State.resetShelfParams (s old : State) : State :=
  (List.range 48).foldl (fun (s : State) sh =>
    if s.shelfOwner sh = old.shelfOwner sh then s
    else s.modShelf sh fun x => { x with windowNext := some none, steps := none }) s

/-- The profile an engine's next table will bring: the armed one's, or the active one's. -/
def State.comingProfile (s : State) (e : Nat) : BitVec 8 :=
  let now := (s.engine e).tableProfile
  if (s.quarter (quarterOfParty e)).shadowArm then s.manage.timetable.armed.get e now else now

/-- Committed profiles that differ wait for a swap; one that returns to the profile in force, with the tables made for
it, waits no longer (R79). -/
def State.commitProfiles (s : State) (old : State) : State :=
  (List.range 12).foldl (fun (s : State) e =>
    let pr := old.stagedProfile e
    s.modEngine e fun x =>
      { x with profileNext := if pr = x.profile && pr = x.tableProfile && pr = s.comingProfile e then none else some pr }) s

/-- A successful commit. -/
def State.commitNow (s : State) : State :=
  let s1 := (List.range 8).foldl (fun (t : State) p => t.commitPort p (s.staged p)) s
  let s2 := (s1.resetShelfParams s).commitProfiles s
  let s3 : State := { s2 with manage := { s2.manage with staged := [] } }
  let tables := ((List.range 8).any fun p => (s.staged p).share ≠ (s.port p).ap.share) ||
    (List.range 12).any fun e => s.stagedProfile e ≠ (s.engine e).committed
  if tables then s3.regenerate else s3

/-- A commit has to wait for actions received before it (R407). -/
def State.commitWaits (s : State) (src : KilvorSrc) : Bool := match src, s.service with
  | .service, v :: _ => s.behindStart v.order
  | _, _ => s.behindAction s.seqNo || s.behindStart s.seqNo

/-- Where an MCTP commit that waits stands in the service queue: no instance. -/
def instMctp : Nat := 255

/-- A commit that waits: one that came by MCTP joins the service queue. -/
def State.deferCommit (s : State) (src : KilvorSrc) : State := match src with
  | .mctp path body => { s with
      service := s.service ++ [{ inst := instMctp, words := [3], order := s.seqNo, mctp := some (path, body) }]
      seqNo := s.seqNo + 1 }
  | .service => s

/-- COMMIT (R73, R77): in its turn (R407); BUSY during a containment, OVER-CAPACITY past a total, IN-USE for a withdrawal
that meets a resource in use; otherwise every staged grant applies at once. -/
def execCommit (src : KilvorSrc) (s : State) : Ans :=
  .next (s.kchange src 0x03 (fun b => b = []) fun s _ =>
    if s.commitWaits src then s.deferCommit src
    else if s.anyContain then s.kreply src 1 []
    else if !s.totalsOk then s.kreply src 5 []
    else if !((List.range 8).all s.withdrawOk) then s.kreply src 4 []
    else s.commitNow.kreply src 0 [])

/-! ### SET-ADMIN and unknown commands (R71, R73, R496, R600) -/

/-- The role passes: staged changes of the former principal are discarded, and the secure mailbox is emptied. -/
def State.setPrincipal (s : State) (p : Option Nat) : State :=
  if p = s.manage.principal then s
  else
    let s1 := match s.manage.principal with
      | some old => s.modPort old fun x => { x with hdb := x.hdb &&& ~~~0x1010, hdbEn := x.hdbEn &&& ~~~0x1010 }
      | none => s
    let s2 := s1.emptySecure.dropStaged
    { s2 with manage := { s2.manage with principal := p } }

/-- SET_ADMIN (R71, R600): accepted from the BMC only. -/
def execSetAdmin (src : KilvorSrc) (s : State) : Ans :=
  .next (s.kfor src 0x05 fun r => s.kwake src fun s =>
    let p := byteAt r.payload 0
    if r.sender.isSome then s.kreply src 2 []
    else if r.payload.length ≠ 1 || !(p = 0xFF || (p < 8 && (s.port p).created)) then s.kreply src 3 []
    else (s.setPrincipal (if p = 0xFF then none else some p)).kreply src 0 [])

/-- Functions of SET-LEVEL (R243, R274, R308, R360, R419, R431). -/
def levelFunctions : List Nat := [0x10, 0x11, 0x12, 0x20, 0x21, 0x30, 0x50, 0x60, 0x61]

/-- A command code, SET-LEVEL function or operation that is not listed. -/
def KReq.unknown (r : KReq) : Bool :=
  let op := byteAt r.payload 0
  !r.sound || r.code = 0 || 9 < r.code || (r.code = 6 && op ∉ levelFunctions) || (r.code = 7 && !(1 ≤ op && op ≤ 4)) ||
  (r.code = 8 && !(1 ≤ op && op ≤ 3)) || (r.code = 9 && !(1 ≤ op && op ≤ 4))

/-- KILVOR_UNKNOWN_COMMAND (R73, R243): INVALID; a change asked by another than the principal is NOT-PRINCIPAL. -/
def execKilvorUnknownCommand (src : KilvorSrc) (s : State) : Ans :=
  .next (match s.kreq src with
    | some r =>
      if !r.unknown then s
      else s.kwake src fun s => s.kreply src (if r.sound && 6 ≤ r.code && r.code ≤ 9 && !s.isPrincipal r then 2 else 3) []
    | none => s.kignore src)

end Sys2Proof.Machine
end

