-- ==== Sys2Proof/Machine/Loads.lean ====
section
/-! DEFINITION. LOAD-TIMETABLE, LOAD-RECIPE, KEY-OP, and the MCTP and PLDM requests (R72, R309, R310, R357 to R360,
R390 to R392, R552, R555). -/

namespace Sys2Proof.Machine

/-! ### LOAD-TIMETABLE (R309, R310) -/

/-- A LOAD-TIMETABLE operation: INVALID at the basic level, BUSY while a swap is armed, or (but for BEGIN) while
staging is closed. -/
def State.ktable (s : State) (src : KilvorSrc) (op : Nat) (ok : List Byte → Bool) (f : State → List Byte → State) :
    State :=
  s.kfor src 0x07 fun r =>
    if byteAt r.payload 0 ≠ op then s
    else s.kasked src r ok fun s b =>
      if !s.manage.timetable.expert then s.kreply src 3 []
      else if ((List.range 4).any fun q => (s.quarter q).shadowArm) || (op ≠ 1 && !s.manage.timetable.staging) then
        s.kreply src 1 []
      else f s b

/-- Staging opened or closed. -/
def State.setStaging (s : State) (v : Bool) : State :=
  { s with manage := { s.manage with timetable := { s.manage.timetable with staging := v } } }

/-- TIMETABLE_BEGIN (R309). -/
def execTimetableBegin (src : KilvorSrc) (s : State) : Ans :=
  .next (s.ktable src 1 (fun b => b.length = 8 && zeroAt b 1 7) fun s _ =>
    (((List.range 4).foldl (fun (s : State) q => s.modQuarter q fun x => x.setShadow x.activeBank) s).setStaging
      true).kreply src 0 [])

/-- TIMETABLE_ROWS (R309). -/
def execTimetableRows (src : KilvorSrc) (s : State) : Ans :=
  .next (s.ktable src 2
    (fun b =>
      let n := fieldAt b 4 2
      byteAt b 1 < 4 && 1 ≤ n && n ≤ 64 && fieldAt b 2 2 + n ≤ 4096 && zeroAt b 6 2 && b.length = 8 + 16 * n)
    fun s b =>
      let first := fieldAt b 2 2
      (s.modQuarter (byteAt b 1) fun x =>
        x.setShadow ((List.range (fieldAt b 4 2)).foldl (fun bank i =>
          putRow bank (first + i) (BitVec.ofNat 128 (fieldAt b (8 + 16 * i) 16))) x.shadowBank)).kreply src 0 [])

/-- The four shadow banks, and the four active banks. -/
def State.shadowTables (s : State) : Tables := fun q n => bankRow (s.quarter q).shadowBank n
def State.activeTables (s : State) : Tables := fun q n => bankRow (s.quarter q).activeBank n

/-- TIMETABLE_COMMIT (R309, R310): the checks by code, then the CRC; on success every quarter is armed for four
superframes ahead. -/
def execTimetableCommit (src : KilvorSrc) (s : State) : Ans :=
  .next (s.ktable src 3 (fun b => b.length = 8 && zeroAt b 1 3) fun s b =>
    let t := s.shadowTables
    match tableFailure t s.activeTables fun e => (s.engine e).committed with
    | some (k, q, n) => s.kreply src 3 ([0] ++ leBytes 1 k ++ leBytes 1 q ++ [0] ++ leBytes 2 n ++ [0, 0])
    | none =>
      if crc32 ((List.range 4).flatMap fun q => bankBytes (t q)) ≠ BitVec.ofNat 32 (fieldAt b 4 4) then
        s.kreply src 3 [0, 0x0F, 0, 0, 0, 0, 0, 0]
      else
        let at_ := (s.quarter 0).sf + 4
        (((List.range 4).foldl (fun (s : State) q => s.modQuarter q fun x =>
          { x with shadowArm := true, swapAt := at_, armedKind := .full }) s).setStaging false).kreply src 0
          ([0, 0, 0, 0] ++ leBytes 4 at_.toNat))

/-- TIMETABLE_ABORT (R309). -/
def execTimetableAbort (src : KilvorSrc) (s : State) : Ans :=
  .next (s.ktable src 4 (fun b => b.length = 8 && zeroAt b 1 7) fun s _ => (s.setStaging false).kreply src 0 [])

/-! ### LOAD-RECIPE (R357 to R360) -/

/-- The image header and op words R359 accepts. -/
def imageOk (bs : Tab (BitVec 8)) : Bool :=
  let h := (List.range 64).map fun i => bs.get i 0
  let words := fieldAt h 4 2
  let covered := (List.range (64 + 4 * words)).all fun i => (bs.find i).isSome
  fieldAt h 0 2 = 1 && (byteAt h 2 = 0x0A || byteAt h 2 = 0x0B || byteAt h 2 = 0x0C) && byteAt h 3 < 4 &&
  1 ≤ words && words ≤ 4096 && fieldAt h 6 2 ≤ 24 && byteAt h 25 = 0 && zeroAt h 32 32 && covered &&
  crc32 ((List.range (4 * words)).map fun i => bs.get (64 + i) 0) = BitVec.ofNat 32 (fieldAt h 28 4)

/-- The image staged bytes make. -/
def imageOf (bs : Tab (BitVec 8)) : Image :=
  let h := (List.range 64).map fun i => bs.get i 0
  { profile := BitVec.ofNat 8 (byteAt h 2), flags := BitVec.ofNat 8 (byteAt h 3), preload := fieldAt h 6 2
    counts := (List.range 8).map fun i => fieldAt h (8 + 2 * i) 2, csrc := BitVec.ofNat 8 (byteAt h 24)
    agUse := BitVec.ofNat 16 (fieldAt h 26 2)
    words := (List.range (fieldAt h 4 2)).map fun w =>
      BitVec.ofNat 32 (leNat ((List.range 4).map fun i => bs.get (64 + 4 * w + i) 0)) }

/-- A queued or running launch names the slot. -/
def Engine.namesSlot (x : Engine) (slot : Nat) : Bool :=
  let id := some (0x8000 + slot)
  x.queue.any (fun l => l.recipe = id) || (x.running.map fun p => decide (p.launch.recipe = id)).getD false

/-- A LOAD-RECIPE operation: INVALID at the basic level and for an engine or slot out of range. -/
def State.krecipe (s : State) (src : KilvorSrc) (op : Nat) (ok : List Byte → Bool) (f : State → List Byte → State) :
    State :=
  s.kfor src 0x08 fun r =>
    if byteAt r.payload 0 ≠ op then s
    else s.kasked src r
      (fun b => s.manage.recipesExpert && byteAt b 1 < 12 && byteAt b 2 < 16 && byteAt b 3 = 0 && 8 ≤ b.length && ok b) f

/-- RECIPE_WRITE (R358): OFFSET 0 opens staging for the engine and slot. -/
def execRecipeWrite (src : KilvorSrc) (s : State) : Ans :=
  .next (s.krecipe src 1
    (fun b =>
      let off := fieldAt b 4 2
      let n := fieldAt b 6 2
      let staged := (s.engine (byteAt b 1)).staging
      off % 4 = 0 && 4 ≤ n && n ≤ 1024 && n % 4 = 0 && off + n ≤ 16448 && b.length = 8 + n &&
      (off = 0 || (staged.map (·.slot)) = some (byteAt b 2)))
    fun s b =>
      let off := fieldAt b 4 2
      (s.modEngine (byteAt b 1) fun x =>
        let old : Tab (BitVec 8) := if off = 0 then [] else (x.staging.map (·.bytes)).getD []
        let bytes := (List.range (b.length - 8)).foldl (fun t i => Tab.set t (off + i) (b.getD (8 + i) 0)) old
        { x with staging := some { slot := byteAt b 2, bytes } }).kreply src 0 [])

/-- RECIPE_COMMIT (R358, R359): the staged image replaces the slot's content, and staging closes. -/
def execRecipeCommit (src : KilvorSrc) (s : State) : Ans :=
  .next (s.krecipe src 2 (fun b => b.length = 8 && zeroAt b 4 4) fun s b =>
    let x := s.engine (byteAt b 1)
    let slot := byteAt b 2
    if x.namesSlot slot then s.kreply src 1 []
    else match x.staging with
      | some g =>
        if g.slot = slot && imageOk g.bytes then
          (s.setEngine (byteAt b 1) { x with
            slots := x.slots.set slot (imageOf g.bytes), eraseSlots := x.eraseSlots.erase slot, staging := none }).kreply src 0 []
        else s.kreply src 3 []
      | none => s.kreply src 3 [])

/-- RECIPE_ERASE (R358). -/
def execRecipeErase (src : KilvorSrc) (s : State) : Ans :=
  .next (s.krecipe src 3 (fun b => b.length = 8 && zeroAt b 4 4) fun s b =>
    let x := s.engine (byteAt b 1)
    if x.namesSlot (byteAt b 2) then s.kreply src 1 []
    else (s.setEngine (byteAt b 1) { x with slots := x.slots.erase (byteAt b 2) }).kreply src 0 [])

/-! ### KEY-OP (R390 to R392) -/

/-- The key store entry a KEY-OP names. -/
def keyEntry (b : List Byte) : Nat := 4096 * byteAt b 1 + fieldAt b 2 2

/-- Reply data: PRESENT in byte 4, KCV in bytes 8 to 11 (R391). -/
def keyData (k : Option (BitVec 256)) : List Byte := match k with
  | some key => [0, 0, 0, 0, 1, 0, 0, 0] ++ keyCheckValue key
  | none => List.replicate 12 0

/-- A KEY-OP operation; one whose reply waits for the sealed copy holds the service queue. -/
def State.kkey (s : State) (src : KilvorSrc) (op len : Nat) (f : State → List Byte → State) : State :=
  s.kfor src 0x09 fun r =>
    let b := r.payload
    if byteAt b 0 ≠ op || (src = .service && s.manage.keyReply.any fun w => w.1 = .service) then s
    else if op = 1 && !r.keyPath then s.kready src fun s => s.kreply src 2 []
    else s.kasked src r
      (fun b => b.length = len && byteAt b 1 < 8 && fieldAt b 2 2 < (s.port (byteAt b 1)).ap.keys) f

/-- The store with an entry changed; the reply follows once the sealed copy is written (R392). -/
def State.keyChanged (s : State) (src : KilvorSrc) (i : Nat) (k : Option (BitVec 256)) : State :=
  let keys := match k with
    | some key => s.manage.keys.set i key
    | none => s.manage.keys.erase i
  { s with manage := { s.manage with keys, keyReply := s.manage.keyReply ++ [(src, keyData k)] } }

/-- KEY_LOAD (R391): the first byte of KEY is the most significant of the AES key. -/
def execKeyLoad (src : KilvorSrc) (s : State) : Ans :=
  .next (s.kkey src 1 36 fun s b =>
    match s.manage.keys.find (keyEntry b) with
    | some k => s.kreply src 4 (keyData (some k))
    | none => s.keyChanged src (keyEntry b) (some (BitVec.ofNat 256 (beNat (b.drop 4)))))

/-- KEY_GENERATE (R391): the key comes from the secure realm's random bit generator. -/
def execKeyGenerate (src : KilvorSrc) (s : State) : Ans :=
  .next (s.kkey src 2 4 fun s b =>
    match s.manage.keys.find (keyEntry b) with
    | some k => s.kreply src 4 (keyData (some k))
    | none =>
      ({ s with fresh := s.fresh + 1 } : State).keyChanged src (keyEntry b) (some (Config.randomKey s.fresh)))

/-- KEY_ERASE (R391, R365). -/
def execKeyErase (src : KilvorSrc) (s : State) : Ans :=
  .next (s.kkey src 3 4 fun s b =>
    (s.markErased fun k => k = keyEntry b).keyChanged src (keyEntry b) none)

/-- KEY_CHECK (R391). -/
def execKeyCheck (src : KilvorSrc) (s : State) : Ans :=
  .next (s.kkey src 4 4 fun s b => s.kreply src 0 (keyData (s.manage.keys.find (keyEntry b))))

/-- KEYSTORE_SEAL_DONE (R392): the sealed copy holds the store, and the oldest waiting operation is answered. -/
def execKeystoreSealDone (s : State) : Ans :=
  .next (match s.manage.keyReply with
    | [] => s
    | (src, data) :: rest => s.kready src fun s =>
      let copy := !s.flash.keyCopy
      (({ s with
          flash := { s.flash with keys := s.manage.keys, keyCopy := copy }
          manage := { s.manage with keyReply := rest } } : State).spi (sealOps s.manage.keys copy)).kreply src 0 data)

/-! ### MCTP control and PLDM (R72, R552, R555) -/

/-- Firmware answers a management path now: in READY mode any, in recovery mode SMBus only (R555). -/
def State.answers (s : State) (path : MctpPath) : Bool := s.addressed path && match s.mode with
  | .ready => true
  | .recovery _ => path.isSmbus
  | _ => false

/-- The sender of a path holds the management role. -/
def State.pathPrincipal (s : State) (path : MctpPath) : Bool := match path with
  | .smbus _ => s.manage.principal = none
  | .vdm p => s.manage.principal = some p
  | .secure => false

/-- Data of an MCTP message over PCIe counts as payload (R542): direction 0 received, 1 sent. -/
def State.mctpData (s : State) (path : MctpPath) (d n : Nat) : State := match path with
  | .vdm p => s.hostTlp p d n
  | _ => s

/-- An MCTP answer sent the way its request came. -/
def State.mctpSay (s : State) (path : MctpPath) (body : List Byte) : State :=
  (s.mctpData path 1 (tlpBytes 0 body.length)).emit (.mctpReply path body)

/-- MCTP_CONTROL (R72): the secure mailbox carries Kilvor commands alone, so over it the answer is NOT-PRINCIPAL. The
principal's read of DEV_IDENT (R4) is the request that `Config.asksIdent` picks (log 60). -/
def execMctpControl (path : MctpPath) (body : List Byte) (s : State) : Ans :=
  .next (
    let s0 := s.mctpData path 0 (tlpBytes 0 body.length)
    if !s.answers path then s0
    else if path = .secure then s0.mctpSay path [2]
    else if s.pathPrincipal path && Config.asksIdent body then s0.mctpSay path (leBytes 8 0x4B560960A1000000)
    else s0.mctpSay path (Config.mctpReply body))

/-- Upper warning, critical and fatal thresholds of a sensor in °C; the lid estimate has no fatal one (R595). -/
def thresholds (id : Nat) : Option (Int × Int × Option Int) :=
  if 1 ≤ id && id ≤ 5 then some (95, 105, some 115)
  else if 6 ≤ id && id ≤ 9 then some (85, 95, some 105)
  else if id = 10 then some (65, 70, none)
  else none

/-- The state of a sensor as a PLDM numeric sensor reports it: normal, upper warning, critical or fatal. PRESUMED
(DSP0248, log 30). -/
def sensorState (id : Nat) (t : Int) : Nat := match thresholds id with
  | none => 0
  | some (w, c, f) =>
    if f.elim false fun x => decide (x ≤ t) then 10 else if c ≤ t then 9 else if w ≤ t then 8 else 1

/-- PLDM_MONITORING (R72, R595): types 0 and 2, in READY mode; a reply carries the sensor's reading and its state. -/
def execPldmMonitoring (path : MctpPath) (pldmType : Nat) (sensor : Nat) (s : State) : Ans :=
  .next (
    let asked := leBytes 1 pldmType ++ leBytes 1 sensor
    let s0 := s.mctpData path 0 (4 * Config.pldmDwords asked)
    if s.mode ≠ .ready || !s.addressed path then s0
    else if path = .secure || !(pldmType = 0 || pldmType = 2) then s0.mctpSay path [2]
    else
      let t := s.sensors.get sensor 0
      let reading := leBytes 2 (BitVec.ofInt 16 t).toNat
      s0.mctpSay path (Config.mctpReply (asked ++ reading ++ leBytes 1 (sensorState sensor t))))

/-- The slot PLDM writes: the one that is not ACTIVE. -/
def Flash.spare (f : Flash) : Bool := !f.active

/-- Flash offset of an image slot (R550). -/
def slotBase (b : Bool) : Nat := if b then 0xD00000 else 0x100000

/-- The directory as the boot ROM takes it from its 16 bytes (R551); one whose MAGIC, CRC-32 or fields are not in order
gives free values (log 25). -/
def Flash.readDirectory (f : Flash) (d : List Byte) : Flash :=
  let pending := byteAt d 5
  let sound := fieldAt d 0 4 = 0x4B564431 && fieldAt d 12 4 = (crc32 (d.take 12)).toNat && byteAt d 4 < 2 &&
    (pending = 0xFF || pending < 2)
  let (active, next, seq) := if sound then
      (decide (byteAt d 4 = 1), if pending = 0xFF then none else some (decide (pending = 1)), BitVec.ofNat 32 (fieldAt d 8 4))
    else Config.badDirectory d
  { f with active, pending := next, dirSeq := seq, dirKnown := true }

/-- The 16 bytes of the directory (R551). -/
def Flash.directory (f : Flash) : List Byte :=
  let b := leBytes 4 0x4B564431 ++ [BitVec.ofNat 8 (b2n f.active), f.pending.elim 0xFF fun x => BitVec.ofNat 8 (b2n x),
    0xFF, 0xFF] ++ leBytes 4 f.dirSeq.toNat
  b ++ leBytes 4 (crc32 b).toNat

/-- A new directory written (R551, R591). -/
def Flash.directoryOps (f : Flash) : List FlashOp := eraseOps 0x21 4096 0 1 ++ progOps 0x12 0 f.directory

/-- Bytes written to an image slot: each block of 64 KiB erased as a write reaches its first byte. DESIGN CHOICE (log
30). -/
def imageOps (addr : Nat) (bs : List Byte) : List FlashOp :=
  let first := (addr + 65535) / 65536
  let n := (addr + bs.length + 65535) / 65536 - first
  eraseOps 0xDC 65536 (65536 * first) n ++ progOps 0x12 addr bs

/-- PLDM_FIRMWARE_UPDATE (R72, R552, R555): the principal, or in recovery mode the BMC, writes the inactive slot,
activates it with a device restart, or has the minimum security version raised. -/
def execPldmFirmwareUpdate (path : MctpPath) (r : PldmReq) (s : State) : Ans :=
  .next (
    let recovery := match s.mode with
      | .recovery _ => true
      | _ => false
    let s0 := s.mctpData path 0 (4 * Config.pldmDwords r.tag)
    if !(s.mode = .ready || recovery) || (recovery && !path.isSmbus) || !s.addressed path then s0
    else if !recovery && !s.pathPrincipal path then s0.mctpSay path [2]
    else
      let base := slotBase s.flash.spare
      let ok (s : State) (tag : Byte) : State := s.mctpSay path (Config.mctpReply [tag])
      match r with
      | .write off bs =>
        if 12 * 2 ^ 20 < off + bs.length then ok s0 3
        else
          let images := (List.range bs.length).foldl (fun t i => Tab.set t (base + off + i) (bs.getD i 0)) s.flash.images
          ok (({ s0 with flash := { s.flash with images } } : State).spi (imageOps (base + off) bs)) 0
      | .activate =>
        let f := { s.flash with pending := some s.flash.spare, dirKnown := true }
        let s1 := ok (({ s0 with flash := f } : State).spi f.directoryOps) 1
        if recovery then s1 else s1.restart 0x23
      | .raiseSvn =>
        let f := if s.flash.svnMin.toNat < s.flash.svn.toNat then { s.flash with svnMin := s.flash.svn } else s.flash
        ok { s0 with flash := f } 2)

end Sys2Proof.Machine
end

