-- ==== Sys2Proof/Machine/LegControl.lean ====
section
/-! DEFINITION. The control legs GOTO, TEST, WAIT, NOTE, PAUSE and END, and the outing legs BOOK and RELEASE (R139,
R150 to R154, R202 to R213, R217). -/

namespace Sys2Proof.Machine

/-- GOTO (R150, R208): the target's leg is fetched to see whether it is a GOTO itself. -/
def execLegGoto (p tag : Nat) (s : State) : Ans :=
  .next (s.perform p tag 0x40 fun t =>
    let target := fieldAt t.leg 16 4
    let go (s : State) (t : Trv) : State := match t.fetched.find target with
      | some (.leg b) =>
        if legOp b = 0x40 then s.legDone t { status := stLegInvalid }
        else s.legDone t { status := stOk, jump := some target }
      | some (.failed _) => s.legDone t { status := stOk, jump := some target }
      | none => s.putTrv t
    if t.fetching then s
    else match t.fetched.find target with
      | some _ => go s t
      | none =>
        let (s1, t1, there) := s.fetch t target
        if there then go s1 t1 else s1)

/-! ### TEST -/

/-- A TEST condition (R209) on the last status, LEG_INFO and the memory operand. -/
def testHolds (cond value last info mem : Nat) : Bool :=
  match cond with
  | 0x01 => last = value
  | 0x02 => mem = value
  | 0x03 => mem ≠ value
  | 0x04 => value ≤ mem
  | 0x05 => mem < value
  | 0x06 => last ≠ value
  | 0x07 => last / 16 = value
  | 0x08 => info &&& value = value
  | 0x09 => info &&& value ≠ 0
  | 0x0A => mem &&& value = value
  | 0x0B => mem &&& value ≠ 0
  | _ => false

/-- Conditions that read memory. -/
def testReads (cond : Nat) : Bool := (2 ≤ cond && cond ≤ 5) || cond = 0x0A || cond = 0x0B

/-- TEST ends with its operand known: it skips a station when the condition holds (R139, R209). -/
def State.testEnds (s : State) (t : Trv) (mem : Nat) : State :=
  let l := t.leg
  let holds := testHolds (legByte l 16) (fieldAt l 24 8) t.lastStatus.toNat t.legInfo.toNat mem
  s.legDone { t with operand := none } { status := stOk, jump := if holds then some (t.station + 2) else none }

/-- TEST (R209, R210). -/
def execLegTest (p tag : Nat) (s : State) : Ans :=
  .next (s.perform p tag 0x41 fun t =>
    let l := t.leg
    let a := legAddr l
    let n := 8 / 2 ^ legByte l 17
    if !testReads (legByte l 16) then s.testEnds t 0
    else if isBufAddr a then s.whenReadable (bufPos a) n fun s =>
      if s.poisoned (bufPos a) n then s.legDone t { status := stFetchPoison }
      else s.testEnds t (leNat (s.readBuf (bufPos a) n))
    else if !(s.port p).canRead then s.legDone t { status := stFetchFault }
    else (s.putTrv { t with stage := .awaiting }).issueRead p a.toNat n (.operand tag))

/-- The operand of a TEST was answered. -/
def State.operandArrives (s : State) (p tag : Nat) (r : Except (BitVec 8) (List Byte)) : State :=
  s.withTrv p tag fun t =>
    if t.stage ≠ .awaiting || legOp t.leg ≠ 0x41 then s
    else match r with
      | .ok bs => s.testEnds t (leNat bs)
      | .error st => s.legDone t { status := st }

/-! ### WAIT (R152 to R154, R211) -/

/-- The wait-for graph of a port leads from one tag to another. -/
def State.waitsFor (s : State) (p : Nat) : Nat → Nat → Nat → Bool
  | 0, _, _ => false
  | n + 1, a, b =>
    if a = b then true
    else match (s.trv? p a).bind (·.waitOn) with
      | some o => s.waitsFor p n o.tag b
      | none => false

/-- Stations a live traverse stands at: those of its run's members that have not ended and that of a leg or JOIN group
it has begun, or the one it starts next (R152). -/
def Trv.standsAt (t : Trv) (n : Nat) : Bool :=
  let out := t.run.filter fun m => m.ended.isNone
  (out.any fun m => m.station ≤ n && n < m.station + m.count) ||
    ((out = [] || t.stage ≠ .fresh) && t.station ≤ n && n < t.station + Nat.max 1 t.group.length)

/-- A leg that parks its traverse ends it WAIT-TIMEOUT instead once the deadline has passed (R151). -/
def State.parkOrEnd (s : State) (t : Trv) (st : TrvState) (info : BitVec 64) : State :=
  if t.deadlinePassed then s.endAt { t with state := st, legInfo := info } stWaitTimeout 0 else s.park t st

/-- WAIT: satisfied at once, refused as circular, or parked. -/
def execLegWait (p tag : Nat) (s : State) : Ans :=
  .next (s.perform p tag 0x42 fun t =>
    let target := fieldAt t.leg 16 2
    let station := fieldAt t.leg 20 4
    let done (st : BitVec 8) (info : Nat) : State := s.legDone t { status := st, info := some (BitVec.ofNat 64 info) }
    match s.trv? p target with
    | none => done stOk 2
    | some u =>
      if u.state = .ended then done stOk 1
      else if u.standsAt station then done stOk 3
      else if s.waitsFor p (s.trvs.length + 1) target tag then done stCircle 4
      else s.parkOrEnd { t with waitOn := some { tag := target, station } } .waiting 5)

/-! ### NOTE, PAUSE, END -/

/-- NOTE (R212). -/
def execLegNote (p tag : Nat) (s : State) : Ans :=
  .next (s.perform p tag 0x44 fun t =>
    let (s1, t1) := s.writeRecord t 0x02 (fieldAt t.leg 16 2)
    s1.legDone t1 { status := stOk })

/-- PAUSE (R213). -/
def execLegPause (p tag : Nat) (s : State) : Ans :=
  .next (s.perform p tag 0x45 fun t => s.parkOrEnd t .pausing t.legInfo)

/-- END (R217). -/
def execLegEnd (p tag : Nat) (s : State) : Ans := .next (s.perform p tag 0x47 fun t => s.legDone t { status := stOk })

/-! ### BOOK and RELEASE (R135, R202 to R205, R227) -/

/-- A booking taken, in place of a lapsed one. -/
def Trv.withBooking (t : Trv) (sh : Nat) : Trv :=
  { t with bookings := (t.bookings.filter fun b => b.shelf ≠ sh) ++ [({ shelf := sh, lapsed := false } : Booking)] }

/-- A booking of this shelf would be the fifth (R135). -/
def Trv.bookingsFull (t : Trv) (sh : Nat) : Bool := 4 ≤ (t.bookings.filter fun b => b.shelf ≠ sh).length

/-- A shelf for which no enclosure has been discovered; while start-up discovery of its chain runs that is not settled, and a
BOOK of it waits in the basket (R554). -/
def State.unpopulated (s : State) (sh : Nat) : Bool := !s.populated sh && !(s.chain (chainOfShelf sh)).discovering

/-- BOOK (R204): the outing's booking, the basket, or an end by the shelf's state. -/
def execLegBook (p tag : Nat) (s : State) : Ans :=
  .next (s.perform p tag 0x30 fun t =>
    let sh := legByte t.leg 16
    let x := s.shelf sh
    if s.unpopulated sh then s.legDone t { status := stOutingClosed, info := some 3 }
    else if t.bookings.any fun b => b.shelf = sh && !b.lapsed then s.legDone t { status := stOk, info := some 0 }
    else if x.state = .opened then
      if t.bookingsFull sh then s.legDone t { status := stLegInvalid }
      else
        let s1 := (s.putTrv (t.withBooking sh)).workChanged sh
        s1.withTrv p tag fun u => s1.legDone u { status := stOk, info := some 0 }
    else if x.state = .retired then s.legDone t { status := stSpinupTimeout, info := some 1 }
    else if bitN (legByte t.leg 17) 0 then s.legDone t { status := stOutingClosed, info := some 2 }
    else if t.bookingsFull sh then s.legDone t { status := stLegInvalid }
    else
      let s1 := s.modShelf sh fun x =>
        { x with basket := x.basket ++ [({ port := p, tag, joined := s.devMs } : BasketEntry)] }
      let (s2, t1) := s1.writeRecord { t with state := .basket sh } 0x04 0
      (s2.parkOrEnd t1 (.basket sh) t1.legInfo).rivalsChanged (chainOfShelf sh))

/-- RELEASE (R205). -/
def execLegRelease (p tag : Nat) (s : State) : Ans :=
  .next (s.perform p tag 0x31 fun t =>
    let sh := legByte t.leg 16
    let had := t.bookings.any fun b => b.shelf = sh
    let live := t.bookings.any fun b => b.shelf = sh && !b.lapsed
    let s1 := s.putTrv { t with bookings := t.bookings.filter fun b => b.shelf ≠ sh }
    let s2 := if live then s1.workChanged sh else s1
    s2.withTrv p tag fun u => s2.legDone u { status := stOk, info := some (if had then 1 else 0) })

end Sys2Proof.Machine
end

