-- ==== Sys2Proof/Machine/Sas.lean ====
section
/-! DEFINITION. What happens at a wide port: frames sent and received, OPEN_REJECT, time-outs and recovery, discovery,
lanes and broadcasts (R248 to R279, R602). -/

namespace Sys2Proof.Machine

/-! ### Sending commands (R259 to R261, R268, R177) -/

/-- A set-wide function of a TASK leg that waits or is unanswered at a handle (R177). -/
def SasPort.setTask (x : SasPort) (h : Nat) : Option Tmf := x.tmfs.find? fun m => m.handle = h && !namesOne m.function &&
  match m.owner with
  | .leg _ _ => true
  | _ => false

/-- A lane of the port is up. -/
def SasPort.anyLane (x : SasPort) : Bool := (List.range 4).any fun i => (x.lanes.get i {}).up

/-- The command of a handle whose COMMAND frame may leave now: the first in its FIFO that was not sent, among the 4,096
that hold a tag, with HANDLE_DEPTH, a TASK leg's hold and the order of page 0x02 writes (R180) observed. -/
def State.nextCommand (s : State) (h : Nat) : Option Cmd :=
  let x := s.chain (chainOfHandle h)
  let hd := s.handle h
  let mine := x.ofHandle h
  match mine.find? fun c => !c.sent && !c.retrying with
  | none => none
  | some c =>
    let held := match x.setTask h with
      | some m => m.sent || m.before ≤ c.id
      | none => false
    let tagged := (x.cmds.take 4096).any fun d => d.id = c.id
    let depth := (mine.filter (·.sent)).length < s.manage.sas.handleDepth
    let turn := !(c.page2 && mine.any fun d => d.sent && d.page2)
    if x.anyLane && hd.recovery.isNone && !hd.lost && !held && tagged && depth && turn && !c.opening then some c else none

/-- Tags 0x0000 to 0x0FFF not in use at a port. -/
def SasPort.freeTags (x : SasPort) : List Nat :=
  (List.range 4096).filter fun t => !(x.cmds.any fun c => c.tag = some t)

/-- The command timeout of a command (R261, R274): firmware's own take the chain-wide CMD_TIMEOUT_S, others that of the
port that owns the handle. -/
def State.timeoutOf (s : State) (c : Cmd) : Nat :=
  let r := s.manage.sas
  let firm := match c.owner with
    | .leg _ _ _ | .gather _ _ _ | .spinLeg _ _ _ _ => false
    | _ => true
  if firm then r.cmdTimeoutS
  else match s.handlePorts c.handle with
    | p :: _ => r.portTimeoutS.get p r.cmdTimeoutS
    | [] => r.cmdTimeoutS

/-- The port opens a connection for a COMMAND frame: the command has a tag of the device's choice, and with the first OPEN
address frame its timeout starts, under the recovery function as it stands (R171, R259, R261, R275). -/
def State.openFor (s : State) (c : Cmd) : State × Cmd :=
  let free := (s.chain (chainOfHandle c.handle)).freeTags
  let (tag, s1) : Nat × State := match c.tag with
    | some t => (t, s)
    | none => (free.getD (Config.freeNat s.fresh % free.length) 0, { s with fresh := s.fresh + 1 })
  (s1, if c.timing then { c with tag := some tag }
    else { c with tag := some tag, timing := true, startedMs := s.devMs, limitS := s.timeoutOf c
                  retryLimit := s.manage.sas.busyRetries })

/-- COMMAND_FRAME_SEND (R171, R259 to R261): a connection is open, and the frame leaves. A handle without a device answers
LINK-LOST (R252). -/
def execCommandFrameSend (h : Nat) (s : State) : Ans :=
  let ch := chainOfHandle h
  match s.nextCommand h with
  | none => .next s
  | some c =>
    if (s.handle h).attached.isNone then .next (s.endCmd ch c c.lost false)
    else
      let (s1, c1) := s.openFor c
      .next ((s1.putCmd ch { c1 with sent := true }).emit (.sspCommand ch h (c1.tag.getD 0) c.cdb c.dir c.len))

/-! ### Sending task management functions (R175 to R177, R259, R268) -/

/-- A command of another port's traverse, or of firmware, seen from port `p` (R177). -/
def CmdOwner.foreignTo (o : CmdOwner) (p : Nat) : Bool := match o with
  | .leg q _ _ | .gather q _ _ | .spinLeg q _ _ _ => q ≠ p
  | _ => true

/-- The first function of a handle that may be sent now. -/
def State.nextTmf (s : State) (h : Nat) : Option Tmf :=
  let x := s.chain (chainOfHandle h)
  let hd := s.handle h
  x.tmfs.find? fun m => m.handle = h && !m.sent && !m.opening && !hd.lost && match m.owner with
    | .leg p _ => hd.recovery.isNone &&
        (namesOne m.function || !((x.ofHandle h).any fun c => c.id < m.before && c.owner.foreignTo p))
    | _ => true

def SasPort.dropTmf (x : SasPort) (m : Tmf) : SasPort := { x with tmfs := x.tmfs.erase m }

/-- A function replaced by a later stage of itself. -/
def SasPort.putTmf (x : SasPort) (m n : Tmf) : SasPort := { x with tmfs := x.tmfs.map fun u => if u = m then n else u }

/-- The task tag a function takes: its own if it has one, else the lowest free one when no other function has waited for one
longer (R259). -/
def SasPort.taskTag (x : SasPort) (m : Tmf) : Option Nat := match m.tag with
  | some t => some t
  | none =>
    let first := !(x.tmfs.any fun n => match n.turn, m.turn with
      | some i, some j => i < j
      | some _, none => true
      | none, _ => false)
    if first then ((List.range 512).find? fun t => !(x.tmfs.any fun n => n.tag = some (0x1000 + t))).map (0x1000 + ·)
    else none

/-- The function goes out under a task tag 0x1000 to 0x11FF, or takes its turn among those of the port that wait for one
(R259). -/
def State.tmfOut (s : State) (m : Tmf) : State :=
  let ch := chainOfHandle m.handle
  let x := s.chain ch
  match x.taskTag m with
  | none =>
    if m.turn.isSome then s
    else s.setChain ch { x.putTmf m { m with turn := some x.nextTurn } with nextTurn := x.nextTurn + 1 }
  | some t =>
    let managed := ((m.managed.bind x.byId).bind (·.tag)).getD 0
    (s.setChain ch (x.putTmf m { m with tag := some t, sent := true, turn := none })).emit
      (.sspTask ch m.handle t m.function managed)

/-- TASK_SEND (R177, R259, R268): a function held or waiting is sent. A function whose command has ended meanwhile is
not sent; a TASK leg's then ends NOT-SENT. -/
def execTaskSend (h : Nat) (s : State) : Ans :=
  let ch := chainOfHandle h
  let x := s.chain ch
  match s.nextTmf h with
  | none => .next s
  | some m =>
    let s1 := s.setChain ch (x.dropTmf m)
    let named := (m.managed.bind x.byId).isSome
    match m.owner with
    | .leg p tag =>
      if namesOne m.function then
        match m.managed with
        | none => .next (s1.withTrv p tag fun t => s1.taskNamed t)
        | some _ => .next (if named then s.tmfOut m else s1.notSent p tag 0)
      else if (s.handle h).attached.isNone then
        let (info, s2) := s1.freeInfo
        .next (s2.withTrv p tag fun t => s2.legDone t { status := stLinkLost, info := some (info &&& 0x1FF) })
      else .next (s.tmfOut m)
    | .port => .next (if named then s.tmfOut m else s1)
    | .recovery => .next (if m.function = 1 && !named then s1 else s.tmfOut m)

/-! ### Responses (R173, R176, R263) -/

/-- BUSY or TASK SET FULL of a command that may be sent again (R263). -/
def State.mayRetry (s : State) (c : Cmd) (status : BitVec 8) : Bool :=
  (status = 0x08 || status = 0x28) && c.retries < c.retryLimit && !c.sawData && !c.orphan &&
  c.why = .none && match (s.handle c.handle).recovery with
    | some r => !r.timedOut.contains c.id
    | none => true

/-- SSP_RESPONSE_FRAME (R173, R198, R239, R232, R263): the command ends once the data it received has reached buffer memory
(R264). -/
def execSspResponseFrame (c tag : Nat) (status : BitVec 8) (info : List Byte) (s : State) : Ans :=
  match (s.chain c).byTag tag with
  | none => .next s
  | some x =>
    if !x.sent || x.answer.isSome then .next s
    else if s.mayRetry x status then
      .next (s.putCmd c { x with
        tag := none, sent := false, timing := false, retrying := true, retries := x.retries + 1, ready := none })
    else
      let y := { x with answer := some (status, info), timing := false }
      if s.landed c x then .next ((s.endCmd c y x.aborted false).recoverySettle x.handle) else .next (s.putCmd c y)

/-- BUSY_RETRY_DELAY_EXPIRY (R263): the command is sent again as a new command with a new tag. -/
def execBusyRetryDelayExpiry (c id : Nat) (s : State) : Ans :=
  match (s.chain c).byId id with
  | some x => .next (if x.retrying then s.putCmd c { x with retrying := false } else s)
  | none => .next s

/-- A command the port aborted has ended by its function's answer (R173, R176, R199, R270, R560). -/
def State.abortEnds (s : State) (ch : Nat) (c : Cmd) : State :=
  match c.why with
  | .gather => s.endCmd ch c c.aborted true
  | .broken => s.endCmd ch c { c.aborted with fault := 7 } false
  | _ => s.endCmd ch c (c.byStatus 0x40 []) false

/-- The commands a TASK leg's function ends when it is answered: the one it names, or all that were sent (R176). -/
def State.taskEnds (s : State) (m : Tmf) : State :=
  let ch := chainOfHandle m.handle
  let ids := if m.function = 0x01 then m.managed.toList
    else if m.function = 0x80 || m.function = 0x81 then []
    else (((s.chain ch).ofHandle m.handle).filter (·.sent)).map (·.id)
  s.endCmds ch ids Cmd.aborted

/-- A function whose answer the port takes was answered (R176, R269, R270, R560): an ABORT TASK ends its command as the abort's
own rule says, another function of a discarded traverse or an ended recovery what it ends for its leg. -/
def State.portAnswered (s : State) (ch : Nat) (m : Tmf) : State :=
  if m.function ≠ 1 then s.taskEnds m
  else match m.managed.bind (s.chain ch).byId with
    | some x => s.abortEnds ch x
    | none => s

/-- An ABORT TASK of the port was not answered: recovery starts at step 2, unless nexus-loss handling runs (R269, R270,
R602). -/
def State.abortMissed (s : State) (ch : Nat) (m : Tmf) : State :=
  if m.function ≠ 1 || (m.managed.bind (s.chain ch).byId).isNone || (s.handle m.handle).lost then s
  else s.startRecovery m.handle 2 []

/-- TASK_RESPONSE (R176, R198, R267, R269, R270, R560). -/
def execTaskResponse (c tag : Nat) (code : BitVec 8) (s : State) : Ans :=
  match (s.chain c).tmfs.find? fun m => m.tag = some tag with
  | none => .next s
  | some m =>
    let s1 := s.modChain c fun x => x.dropTmf m
    let answered := code = 0 || code = 8
    match m.owner with
    | .leg p u =>
      let s2 := if answered then s1.taskEnds m else s1
      .next (s2.withTrv p u fun t => s2.legDone t
        { status := if answered then stOk else stDeviceCheck, info := some (BitVec.ofNat 64 code.toNat) })
    | .port => .next (if answered then s1.portAnswered c m else s1.abortMissed c m)
    | .recovery =>
      match (s1.handle m.handle).recovery with
      | none => .next s1
      | some r =>
        if (m.function = 1 && r.step ≠ 1) || (m.function = 8 && r.step ≠ 2) || (m.function = 0x10 && r.step ≠ 3) then
          .next s1
        else if !answered then .next (s1.recoveryMissed m.handle 2)
        else if r.step = 1 then .next (s1.abortAnswered m.handle (m.managed.getD 0))
        else .next ((s1.recoveryEvent m.handle r.step 0).recoveryAnswered m.handle)

/-- TMF_TIMEOUT (R176, R177, R267, R269): of a function that was sent; the response code of an unanswered TASK leg is no
value the manual states. -/
def execTmfTimeout (c tag : Nat) (s : State) : Ans :=
  match (s.chain c).tmfs.find? fun m => m.tag = some tag && m.sent with
  | none => .next s
  | some m =>
    let s1 := s.modChain c fun x => x.dropTmf m
    match m.owner with
    | .leg p u =>
      let (info, s2) := s1.freeInfo
      .next (s2.withTrv p u fun t => s2.legDone t { status := stDeviceTimeout, info := some (info &&& 0xFF) })
    | .port => .next (s1.abortMissed c m)
    | .recovery =>
      match (s1.handle m.handle).recovery with
      | none => .next s1
      | some r => .next (if m.function = 1 && r.step ≠ 1 then s1 else s1.recoveryMissed m.handle 1)

/-- COMMAND_TIMEOUT (R261, R267, R268): once the command's timeout has run out, recovery starts or is joined, unless
nexus-loss handling runs (R602). -/
def execCommandTimeout (c tag : Nat) (s : State) : Ans :=
  match (s.chain c).byTag tag with
  | none => .next s
  | some x =>
    if !x.timing || s.devMs < x.startedMs + 1000 * x.limitS || (s.handle x.handle).lost then .next s
    else .next ((s.putCmd c { x with timing := false }).startRecovery x.handle 1 [x.id])

/-! ### Data (R144, R173, R179, R264, R265) -/

/-- A transfer in the direction that was not declared: ABORT TASK (R173). -/
def State.wrongDirection (s : State) (ch : Nat) (c : Cmd) : State :=
  if c.why = .none then s.abortCmd ch c .wrongDir else s

/-- XFER_RDY (R265): the requested data is to be read ahead in the port's drain slots (firmware's own is at hand); what lies
past the declared length is not sent. -/
def execXferRdy (c tag offset len : Nat) (s : State) : Ans :=
  match (s.chain c).byTag tag with
  | none => .next s
  | some x =>
    if !x.sent || x.orphan || x.answer.isSome || x.why ≠ .none then .next s
    else if x.dir ≠ 2 then .next (s.wrongDirection c { x with sawData := true })
    else
      let n := Nat.min len (x.len - offset)
      .next (s.putCmd c { x with
        sawData := true, overrun := x.overrun || decide (x.len < offset + len)
        ready := if n = 0 then none else some (offset, n), ahead := (x.payload.drop offset).take n, stopped := false, pulls := [] })

/-- A command once up to 1,024 bytes of what it has read ahead went out in a DATA frame (R265). -/
def Cmd.sendAhead (x : Cmd) (off n : Nat) : Cmd :=
  let k := Nat.min 1024 x.ahead.length
  { x with
    moved := Nat.min x.len (x.moved + k), ahead := x.ahead.drop k, ready := if n = k then none else some (off + k, n - k) }

/-- A lane carries a frame of a command: the connection it has open is with the command's target, one at a time (R260), and
has carried frames of the command (R270). -/
def SasPort.carry (x : SasPort) (lane h tag : Nat) : SasPort :=
  let l := x.lanes.get lane {}
  let tags := match l.conn with
    | some (g, ts) => if g = h then ts.filter (fun t => t ≠ tag) ++ [tag] else [tag]
    | none => [tag]
  { x with lanes := x.lanes.set lane { l with conn := some (h, tags) } }

/-- DATA_FRAME_SEND (R260, R265, R266): over a lane that is up, to a target within reach, up to 1,024 bytes of those read
ahead go out, and none while none is there; a poisoned beat stopped the read-ahead, and once the bytes before it have gone
the command is aborted. -/
def execDataFrameSend (l : SasLane) (tag : Nat) (s : State) : Ans :=
  let c := l.chain
  match (s.chain c).byTag tag with
  | none => .next s
  | some x =>
    match x.ready with
    | none => .next s
    | some (off, n) =>
      if x.orphan || x.why ≠ .none then .next (s.putCmd c { x with ready := none, ahead := [], pulls := [] })
      else if x.opening || !((s.chain c).lanes.get l.lane {}).up || (s.handle x.handle).lost then .next s
      else
        let x1 := x.sendAhead off n
        let s1 := if x.ahead = [] then s
          else (s.modChain c fun y => y.carry l.lane x.handle tag).emit (.sspData c l.lane tag (x.ahead.take 1024))
        .next (if x.stopped && x1.ahead = [] then s1.abortCmd c { x1 with ready := none } .poison else s1.putCmd c x1)

/-- DATA_FRAME_RECEIVE (R173, R249, R260, R264, R266, R560): a frame of up to 1,024 bytes takes a slot of the receive half, for
which its sender held a credit of the lane; without one it is not sent. Bytes past the declared length are discarded, and so
is everything an orphaned command receives. -/
def execDataFrameReceive (l : SasLane) (tag offset : Nat) (bytes : List Byte) (s : State) : Ans :=
  let c := l.chain
  let lane := (s.chain c).lanes.get l.lane {}
  match (s.chain c).byTag tag with
  | none => .next s
  | some x =>
    if !x.sent || x.orphan || x.answer.isSome || !lane.up || lane.credits = 0 || 1024 < bytes.length then .next s
    else
      let s1 := s.modChain c fun y => y.carry l.lane x.handle tag
      if x.dir ≠ 1 then .next (s1.wrongDirection c { x with sawData := true })
      else
        let kept := bytes.take (x.len - offset)
        .next ((s1.modChain c fun y => y.receive l.lane { tag, offset, bytes := kept }).putCmd c { x with
          sawData := true, moved := Nat.min x.len (x.moved + kept.length)
          overrun := x.overrun || decide (x.len < offset + bytes.length) })

/-! ### Reachability of a target (R257, R258, R270, R602) -/

/-- Of two rediscoveries the one that covers more. -/
def Rescan.max : Rescan → Rescan → Rescan
  | .none, b => b
  | a, .none => a
  | .top, _ => .top
  | _, .top => .top
  | .chain, _ => .chain
  | _, .chain => .chain
  | .concerned, .concerned => .concerned

/-- A rediscovery of the whole chain is due (R256, R262). -/
def State.wantRediscovery (s : State) (ch : Nat) : State := s.modChain ch fun x => { x with rediscover := x.rediscover.max .chain }

/-- Nexus-loss handling starts for an attached handle (R258, R602): its target is no longer one found on the chain, until a
rediscovery finds it again. -/
def State.loseTarget (s : State) (h : Nat) : State :=
  let x := s.handle h
  let ch := chainOfHandle h
  if x.attached.isSome && !x.lost then
    (s.setHandle h { x with lost := true, lostMark := (s.chain ch).nextId }).modChain ch fun y => { y with
      found := y.found.filter fun a => x.attached ≠ some a }
  else s

/-- The target is reachable again: a recovery resumes at the step it had reached, and the commands that the port aborts, those
of a broken connection among them, get ABORT TASK (R270, R602). -/
def State.targetReturns (s : State) (h : Nat) : State :=
  let x := s.handle h
  let ch := chainOfHandle h
  if !x.lost then s
  else
    let s1 := s.setHandle h { x with lost := false }
    let s2 := match x.recovery with
      | some r =>
        if !r.missed then s1
        else if r.step = 1 then
          (r.timedOut.filter fun i => ((s1.chain ch).byId i).isSome).foldl
            (fun (s : State) i => s.sendTmf h 0x01 (some i) .recovery)
            (s1.modHandle h fun y => { y with recovery := some { r with missed := false } })
        else s1.recoveryStep h r.step
      | none => s1
    ((s2.chain ch).ofHandle h).foldl (fun (s : State) c =>
      if c.sent && c.answer.isNone && c.why ≠ .none then s.abortCmd ch c c.why else s) s2

/-- NEXUS_LOSS_EXPIRY (R258, R262, R602). -/
def execNexusLossExpiry (h : Nat) (s : State) : Ans := .next (if (s.handle h).lost then s.detach h else s)

/-- A connection that carried frames of these commands has broken (R270). -/
def State.breakCommands (s : State) (c : Nat) (tags : List Nat) : State :=
  tags.foldl (fun (s : State) tag => match (s.chain c).byTag tag with
    | some x =>
      if !x.sent || x.answer.isSome || x.why ≠ .none || x.orphan then s
      else if (s.handle x.handle).lost then s.putCmd c { x with why := .broken }
      else s.abortCmd c x .broken
    | none => s) s

/-- CONNECTION_BREAK (R270): the lanes that carried these commands have no connection any more. -/
def execConnectionBreak (c : Nat) (tags : List Nat) (s : State) : Ans :=
  .next ((s.modChain c fun x => { x with
    lanes := Tab.mapVals x.lanes fun l =>
      if l.conn.any fun k => k.2.any fun t => tags.contains t then { l with conn := none } else l }).breakCommands c tags)

/-- The next back-off in microseconds (R262). -/
def nextBackoff (b : Nat) : Nat := if b = 0 then 1 else Nat.min 64 (2 * b)

/-- What an OPEN_REJECT asks of the port apart from the frame it concerns (R262, R602). -/
def State.rejected (s : State) (h : Nat) (r : RejectReason) : State :=
  match r with
  | .noDestination | .badDestination => (s.loseTarget h).wantRediscovery (chainOfHandle h)
  | .wrongDestination | .protocolNotSupported | .reserved => s.wantRediscovery (chainOfHandle h)
  | _ => s

/-- The rate code of the fastest lane that is up (R249). -/
def SasPort.topRate (x : SasPort) : Nat := (List.range 4).foldl (fun r i =>
  let l := x.lanes.get i {}
  if l.up then Nat.min r l.rate else r) 2

/-- The rate to try after CONNECTION RATE NOT SUPPORTED at rate `r` of a port whose lanes run at `top`; none after the lowest
(R262). -/
def nextRate (r top : Nat) : Option Nat := if Nat.max r top < 2 then some (Nat.max r top + 1) else none

/-- OPEN_REJECT of a connection for a command's COMMAND or DATA frame (R262). -/
def State.rejectCmd (s : State) (c : Cmd) (r : RejectReason) : State :=
  let h := c.handle
  let ch := chainOfHandle h
  match r with
  | .retry | .pathwayBlocked => s.putCmd ch { c with opening := true, backoff := nextBackoff c.backoff }
  | .rateNotSupported => match nextRate c.rate (s.chain ch).topRate with
    | some n => s.putCmd ch { c with rate := n }
    | none => (s.putCmd ch { c with rate := 0 }).rejected h .noDestination
  | .noDestination | .badDestination => (s.putCmd ch c).rejected h r
  | .wrongDestination | .protocolNotSupported | .reserved => (s.endCmd ch c c.lost false).rejected h r

/-- OPEN_REJECT of a connection for a TASK frame (R262, R602): the function is not sent and opens again; one that can reach no
destination ends its TASK leg LINK-LOST, and counts as unanswered otherwise. DESIGN CHOICE (log 62). -/
def State.rejectTmf (s : State) (m : Tmf) (r : RejectReason) : State :=
  let h := m.handle
  let ch := chainOfHandle h
  let put (s : State) (n : Tmf) : State := s.modChain ch fun x => x.putTmf m n
  match r with
  | .retry | .pathwayBlocked => put s { m with sent := false, opening := true, backoff := nextBackoff m.backoff }
  | .rateNotSupported => match nextRate m.rate (s.chain ch).topRate with
    | some n => put s { m with sent := false, rate := n }
    | none => (put s { m with sent := false, rate := 0 }).rejected h .noDestination
  | .noDestination | .badDestination => (put s { m with sent := false }).rejected h r
  | .wrongDestination | .protocolNotSupported | .reserved => match m.owner with
    | .leg p u =>
      let (info, s1) := (s.modChain ch fun x => x.dropTmf m).freeInfo
      (s1.withTrv p u fun t => s1.legDone t { status := stLinkLost, info := some (info &&& 0x1FF) }).rejected h r
    | _ => s.rejected h r

/-- OPEN_REJECT (R260, R262, R602): of a connection for a TASK frame, for the DATA frames of a command whose XFER_RDY is
pending, or for the COMMAND frame that is the next to leave for the handle, whose timeout it starts (R261). -/
def execOpenReject (h tag : Nat) (r : RejectReason) (s : State) : Ans :=
  let x := s.chain (chainOfHandle h)
  .next (match x.tmfs.find? fun m => m.handle = h && m.tag = some tag && m.sent with
    | some m => s.rejectTmf m r
    | none => match x.cmds.find? fun c => c.handle = h && c.tag = some tag && c.sent with
      | some c => if c.ready.isSome then s.rejectCmd c r else s.rejected h r
      | none => match s.nextCommand h with
        | some c =>
          if (s.handle h).attached.isNone then s.rejected h r
          else let (s1, c1) := s.openFor c; s1.rejectCmd c1 r
        | none => s.rejected h r)

/-- OPEN_BACKOFF_EXPIRY (R262): the port opens again. -/
def execOpenBackoffExpiry (h tag : Nat) (s : State) : Ans :=
  .next (s.modChain (chainOfHandle h) fun x => { x with
    cmds := x.cmds.map fun c => if c.handle = h && c.tag = some tag then { c with opening := false } else c
    tmfs := x.tmfs.map fun m => if m.handle = h && m.tag = some tag then { m with opening := false } else m })

/-! ### Discovery (R250 to R258, R272, R273) -/

/-- Slot discovery of a drive's shelf is in progress: attachments are not recorded (R256, R257). -/
def State.slotDiscovery (s : State) (h : Nat) : Bool :=
  isDriveHandle h && (s.shelf (shelfOfHandle h)).state = .spinning && !(s.shelf (shelfOfHandle h)).spinning

/-- A SES-powered slot whose link has come up during spin-up gets its START (R238, R279). -/
def State.sesLinkUp (s : State) (h : Nat) : State :=
  let sh := shelfOfHandle h
  let x := s.shelf sh
  if isDriveHandle h && slotOfHandle h ∈ x.sesWait && x.state = .spinning && x.spinning then
    (s.setShelf sh { x with sesWait := x.sesWait.filter fun j => j ≠ slotOfHandle h }).handOver h
      (.spinUp sh (slotOfHandle h) false) (cdbStartStop true true) 0 0 []
  else s

/-- A different target is at a handle: the commands handed over for the previous one end LINK-LOST, and the functions of its
recovery go (R258). Commands handed over since it was lost wait for the new one. -/
def State.replaceTarget (s : State) (h : Nat) (sas : BitVec 64) : State :=
  let x := s.handle h
  let ch := chainOfHandle h
  let mark := if x.lost then x.lostMark else (s.chain ch).nextId
  let s1 := (s.setHandle h { x with attached := some sas, lost := false, recovery := none }).deviceHandleEvent ch 0x03
    (slotField h) (s.kindField h) h sas (s.handlePorts h)
  let s2 := s1.modChain ch fun y => { y with tmfs := y.tmfs.filter fun m => m.handle ≠ h || m.owner ≠ .recovery }
  s2.cutCmds ch (((s2.chain ch).ofHandle h).filter (fun c => c.id < mark) |>.map (·.id)) Cmd.lost

/-- A target with a SAS address attaches at a handle (R251, R252, R257, R258). While a target that the descriptor lists is
attached and reachable, another that it lists is UNASSIGNED. -/
def State.attach (s : State) (h : Nat) (sas : BitVec 64) : State :=
  let x := s.handle h
  let ch := chainOfHandle h
  match x.attached with
  | none =>
    let s1 := s.setHandle h { x with attached := some sas, lost := false, recovery := none }
    let s2 := if s.slotDiscovery h then s1
      else s1.deviceHandleEvent ch 0x01 (slotField h) (s.kindField h) h sas (s.handlePorts h)
    s2.sesLinkUp h
  | some old =>
    if old = sas then s.targetReturns h
    else if !x.lost && (s.chain ch).found.contains old && (x.described.getD []).contains old then
      s.deviceHandleEvent ch 0x04 (slotField h) (s.kindField h) 0x1FFF sas []
    else s.replaceTarget h sas

/-- Handles of a chain whose descriptor lists an address. -/
def State.describing (s : State) (ch : Nat) (sas : BitVec 64) : List Nat :=
  (List.range 512).filterMap fun i =>
    let h := 512 * ch + i
    if ((s.handle h).described.getD []).contains sas then some h else none

/-- A slot's descriptor as page 0x0A gives it now (R251, R252): the target it lists that was discovered first is attached;
one it lists no longer has become unreachable (R258). -/
def State.describe (s : State) (h : Nat) (sas : Option (List (BitVec 64))) (installed : Bool) : State :=
  let l := sas.getD []
  let s1 := s.modHandle h fun x => { x with described := sas, installed }
  let s2 := ((s.chain (chainOfHandle h)).found.filter fun a => l.contains a).foldl (fun (s : State) a => s.attach h a) s1
  match (s2.handle h).attached with
  | some a => if l.contains a then s2 else s2.loseTarget h
  | none => s2

/-- Described slots of a shelf (R278). -/
def State.describedSlots (s : State) (sh : Nat) : Nat :=
  ((List.range 96).filter fun j => (s.handle (driveHandle sh j)).described.isSome).length

/-- An ENCLOSURE event (R277, R278). -/
def State.enclosureEvent (s : State) (ch event detail shelf : Nat) (id : BitVec 64) : State :=
  let ports := if shelf < 48 then (List.range 8).filter fun p => s.ownsShelf p shelf else []
  let slots := if shelf < 48 then s.describedSlots shelf else 0
  s.sasEvent ch 0x23 (event * 2 ^ 24 + detail * 2 ^ 16 + shelf * 2 ^ 8 + slots) [id.toNat] ports

/-- INQUIRY for standard data. PRESUMED (SPC-4, log 7); the allocation length is a DESIGN CHOICE (log 20). -/
def cdbInquiry : List Byte := [0x12, 0, 0, 0, 0xFF] ++ List.replicate 11 0

/-- Length of a page that firmware asks for. DESIGN CHOICE (log 20). -/
def pageLen : Nat := 0xFFFC

/-- Firmware reads a page of an enclosure services process at its handle (R253, R256, R273). -/
def State.readPage (s : State) (h page : Nat) : State :=
  if (s.handle h).attached.isNone then s
  else s.handOver h .firmware (cdbReceiveDiag page pageLen) 1 pageLen [{ addr := none, len := pageLen }]

/-- A device takes the next free handle of the expander range (R250, R253, R254); pages 0x0A and 0x02 of an enclosure services
process are read. One for which none is left (R255), or that is
first met after a port-level reset (R272), is recorded as UNASSIGNED. -/
def State.takeExpander (s : State) (ch : Nat) (ses : Bool) (sas : BitVec 64) : State :=
  let x := s.chain ch
  let kind := if ses then 2 else 1
  if x.fromTop || 511 < x.nextExpander then s.deviceHandleEvent ch 0x04 0xFF kind 0x1FFF sas []
  else
    let h := 512 * ch + x.nextExpander
    let s1 := ((s.setChain ch { x with nextExpander := x.nextExpander + 1 }).setHandle h
      { described := some [sas], attached := some sas, ses }).deviceHandleEvent ch 0x01 0xFF kind h sas []
    if ses then (s1.readPage h 0x0A).readPage h 2 else s1

/-- An enclosure services process met by discovery (R253 to R255, R272): the first of an enclosure takes the next position,
and its pages 0x0A and 0x02 are read; a fifth enclosure and one that comes late are recorded once. -/
def State.meetEnclosure (s : State) (ch : Nat) (sas id : BitVec 64) (types : List (Nat × Nat)) : State :=
  let x := s.chain ch
  let late (s : State) : State :=
    if x.extras.contains id then s
    else (s.setChain ch { x with extras := x.extras ++ [id] }).enclosureEvent ch 0x04 0 0xFF id
  match s.describing ch sas with
  | h :: _ =>
    let p := h % 512 - 384
    if 388 ≤ h % 512 then s.attach h sas
    else if x.enclosures.find p ≠ some id then late s
    else (s.modChain ch fun y => { y with elements := y.elements.set p types }).attach h sas
  | [] =>
    if x.enclosures.any fun e => e.2 = id then s.takeExpander ch true sas
    else if x.extras.contains id then s
    else if x.discovered then late s
    else if 4 ≤ x.enclosures.length then (s.setChain ch { x with extras := x.extras ++ [id] }).enclosureEvent ch 0x02 0 0xFF id
    else
      let p := x.enclosures.length
      let h := 512 * ch + 384 + p
      let s1 := s.setChain ch { x with enclosures := x.enclosures.set p id, elements := x.elements.set p types }
      ((((s1.setHandle h { described := some [sas], attached := some sas }).enclosureEvent ch 0x01 0 (4 * ch + p) id
        ).deviceHandleEvent ch 0x01 0xFF 2 h sas (s.handlePorts h)).readPage h 0x0A).readPage h 2

/-! ### Discovery of the chain (R253) -/

/-- Firmware turns to an expander (R253): REPORT GENERAL, unless its answer is at hand, then DISCOVER LIST over its phys;
those of the expander above it wait. -/
def State.visit (s : State) (c : Nat) (sas : BitVec 64) (general : Bool) : State :=
  let s1 := s.modChain c fun x => { x with visited := x.visited ++ [sas], descent := sas :: x.descent }
  (if general then s1.emit (.reportGeneral c (some sas)) else s1).emit (.discoverList c sas)

/-- INQUIRY goes to every target that waits for it (R253). -/
def State.inquire (s : State) (c : Nat) : State :=
  let x := s.chain c
  x.toAsk.foldl (fun (s : State) a => s.emit (.probe c a cdbInquiry)) (s.setChain c { x with toAsk := [] })

/-- An expander is met (R253): at the first meeting it takes a handle; each discovery visits it once. -/
def State.meetExpander (s : State) (c : Nat) (sas : BitVec 64) : State :=
  let x := s.chain c
  let s1 := if x.expanders.contains sas then (s.describing c sas).foldl (fun (s : State) h => s.attach h sas) s
    else (s.setChain c { x with expanders := x.expanders ++ [sas] }).takeExpander c false sas
  if x.visited.contains sas then s1 else s1.visit c sas (x.visited ≠ [])

/-- An expander's phys are listed (R253): the expander above it goes on; with the last one, INQUIRY is sent. -/
def State.leaveExpander (s : State) (c : Nat) (sas : BitVec 64) : State :=
  let x := s.chain c
  if x.descent.head? ≠ some sas then s
  else
    let s1 := s.setChain c { x with descent := x.descent.drop 1 }
    match x.descent.drop 1 with
    | up :: _ => s1.emit (.discoverList c up)
    | [] => s1.inquire c

/-- An SSP target is found (R253, R256): INQUIRY is sent to it, once, after the expanders in progress are listed. -/
def State.meetTarget (s : State) (c : Nat) (sas : BitVec 64) : State :=
  let x := s.chain c
  let ask := !(x.found.contains sas) || (x.fromTop && x.descent ≠ [])
  let s1 := s.setChain c { x with
    found := if x.found.contains sas then x.found else x.found ++ [sas]
    toAsk := if ask && !(x.toAsk.contains sas) then x.toAsk ++ [sas] else x.toAsk }
  let s2 := if x.descent = [] then s1.inquire c else s1
  ((s2.describing c sas).filter isDriveHandle).foldl (fun (s : State) h => s.attach h sas) s2

/-- BOOK legs in the basket of a shelf that discovery has found no enclosure for end OUTING-CLOSED (R204, R554). -/
def State.emptyShelf (s : State) (sh : Nat) : State :=
  if s.populated sh then s
  else (s.shelf sh).basket.foldl (fun (s : State) (b : BasketEntry) => s.withTrv b.port b.tag fun t =>
      s.legDone t { status := stOutingClosed, info := some 3 })
    (s.modShelf sh fun x => { x with basket := [] })

/-- Start-up discovery of a chain has ended (R255): which of its shelves are populated is settled. -/
def State.discoveryEnds (s : State) (c : Nat) : State :=
  if !(s.chain c).discovering then s
  else
    let s1 := s.modChain c fun x => { x with discovering := false, discovered := true }
    ((List.range 4).foldl (fun (s : State) i => s.emptyShelf (4 * c + i)) s1).rivalsChanged c

/-- SMP_RESPONSE (R253 to R258, R267, R272, R273). -/
def execSmpResponse (c : Nat) (r : SmpReport) (s : State) : Ans :=
  .next (match r with
  | .expander sas => s.meetExpander c sas
  | .listed sas => s.leaveExpander c sas
  | .inquiry sas typ =>
    let s1 := s.modChain c fun x => { x with types := (x.types.filter fun t => t.1 ≠ sas) ++ [(sas, typ)] }
    if typ = 0x0D then s1.emit (.probe c sas (cdbReceiveDiag 1 pageLen)) else s1
  | .enclosure sas id types => s.meetEnclosure c sas id types
  | .slot pos slot sas installed =>
    if 95 < slot || 3 < pos then s.deviceHandleEvent c 0x04 (Nat.min slot 0xFF) 0 0x1FFF (sas.headD 0) []
    else s.describe (driveHandle (4 * c + pos) slot) (some sas) installed
  | .noSlot pos slot => if 95 < slot || 3 < pos then s else s.describe (driveHandle (4 * c + pos) slot) none false
  | .target sas => s.meetTarget c sas
  | .notSsp sas => s.deviceHandleEvent c 0x05 0xFF 3 0x1FFF sas []
  | .gone h => if chainOfHandle h = c then s.loseTarget h else s
  | .finished => (s.modChain c fun x => { x with fromTop := false }).discoveryEnds c
  | .hardReset h answer =>
    match (s.handle h).recovery with
    | some r =>
      if r.step ≠ 4 || chainOfHandle h ≠ c then s
      else match answer with
        | .accepted => ((s.recoveryEvent h 4 0).recoveryAnswered h).loseTarget h
        | .noAnswer => s.recoveryMissed h 1
        | .refused => s.recoveryMissed h 2
    | none => s
  | .status pos summary generation =>
    match (s.chain c).enclosures.find pos with
    | none => s
    | some id =>
      let old := (s.chain c).generations.find pos
      let s1 := s.modChain c fun x => { x with generations := x.generations.set pos generation }
      if old.isNone || old = some generation then s1 else s1.enclosureEvent c 0x03 summary.toNat (4 * c + pos) id)

/-- DISCOVERY_TIMEOUT (R255). -/
def execDiscoveryTimeout (c : Nat) (s : State) : Ans :=
  .next (s.discoveryEnds c)

/-! ### Broadcasts (R273, R277) -/

/-- A BROADCAST event (R278). -/
def State.broadcastEvent (s : State) (ch prim count lane : Nat) : State :=
  s.sasEvent ch 0x21 (prim * 2 ^ 24 + Nat.min count 255 * 2 ^ 16 + lane * 2 ^ 8 + ch) [] (s.chainPorts ch)

/-- A rediscovery may start: at most one per 100 ms (R273). -/
def State.mayRediscover (s : State) (ch : Nat) : Bool := match (s.chain ch).lastRediscovery with
  | some t => t + 100 ≤ s.devMs
  | none => true

/-- BROADCAST (R273): CHANGE and EXPANDER ask for a rediscovery and are counted while none may start; SES has page 0x02
of every enclosure read; the others are recorded. -/
def execBroadcast (c lane : Nat) (prim : BitVec 8) (s : State) : Ans :=
  let code := if 1 ≤ prim.toNat && prim.toNat ≤ 4 then prim.toNat else 0x0F
  if code = 1 || code = 3 then
    let n := (s.chain c).pendingBroadcast + 1
    let s1 := s.modChain c fun x => { x with
      rediscover := x.rediscover.max .concerned, pendingBroadcast := n, lastPrim := (code, lane) }
    if s.mayRediscover c then
      .next ((s1.modChain c fun x => { x with pendingBroadcast := 0 }).broadcastEvent c code n lane)
    else .next s1
  else
    let s1 := s.broadcastEvent c code 1 lane
    .next (if code = 2 then (s1.chain c).enclosures.foldl (fun (s : State) e => s.readPage (512 * c + 384 + e.1) 2) s1 else s1)

/-- The rediscovery that is due goes out (R253, R256, R272, R273): from the expander at the port on, or DISCOVER LIST to every
expander, or to those concerned by a broadcast, which carries no address: a free choice among them (log 20). -/
def State.rescan (s : State) (c : Nat) : State :=
  let x := s.chain c
  match x.rediscover with
  | .none => s
  | .top => (s.setChain c { x with fromTop := true, visited := [], descent := [], toAsk := [] }).emit (.reportGeneral c none)
  | .chain => x.expanders.foldl (fun (s : State) e => s.emit (.discoverList c e)) (s.setChain c { x with fromTop := false })
  | .concerned =>
    let n := s.fresh
    let hit := (x.expanders.zipIdx.filter fun e => Config.freeBit (n + e.2)).map (·.1)
    hit.foldl (fun (s : State) e => s.emit (.discoverList c e))
      (({ s with fresh := n + x.expanders.length } : State).setChain c { x with fromTop := false })

/-- Page 0x0A is read again for each shelf of the chain in slot discovery (R256). -/
def State.rereadSlots (s : State) (c : Nat) : State :=
  (List.range 4).foldl (fun (s : State) i =>
    let y := s.shelf (4 * c + i)
    if y.state = .spinning && !y.spinning then s.readPage (512 * c + 384 + i) 0x0A else s) s

/-- REDISCOVERY_START (R256, R272, R273). -/
def execRediscoveryStart (c : Nat) (s : State) : Ans :=
  let x := s.chain c
  if x.rediscover = .none || !s.mayRediscover c then .next s
  else
    let s1 := (s.rescan c).modChain c fun y => { y with
      rediscover := .none, pendingBroadcast := 0, lastRediscovery := some s.devMs }
    let s2 := if x.pendingBroadcast = 0 then s1
      else s1.broadcastEvent c x.lastPrim.1 x.pendingBroadcast x.lastPrim.2
    .next (s2.rereadSlots c)

/-! ### Lanes (R253, R271, R272, R275) -/

/-- A PHY event (R278). -/
def State.phyEvent (s : State) (ch event detail lane rate : Nat) : State :=
  s.sasEvent ch 0x20 (event * 2 ^ 24 + detail * 2 ^ 16 + lane * 2 ^ 8 + rate * 2 ^ 4 + ch) [] (s.chainPorts ch)

/-- SAS lanes may train: from the sixth row of the boot timeline on, with SAS_REFCLK present (R554, R565, R588). -/
def State.sasRuns (s : State) : Bool := s.sasClk && match s.mode with
  | .ready => true
  | .boot row => 6 ≤ row
  | _ => false

/-- LANE_UP (R248, R253, R264): the phy reports the port's SAS address, and the lane gets its credits; the first lane starts
start-up discovery. -/
def execLaneUp (c lane : Nat) (rate : BitVec 2) (s : State) : Ans :=
  let x := s.chain c
  let l := x.lanes.get lane {}
  if l.up || l.disabled || !x.laneEn.getLsbD lane || rate.toNat < x.maxRate || rate = 3 || !s.sasRuns then .next s
  else
    let start := !x.discovering && !x.discovered
    let s1 := s.setChain c ({ x with
      lanes := x.lanes.set lane { l with up := true, rate := rate.toNat }, discovering := x.discovering || start } :
        SasPort).extend
    let s2 := (s1.phyEvent c 0x01 0 lane rate.toNat).emit (.identify c lane (Config.sasAddress c))
    .next (if start then s2.emit (.reportGeneral c none) else s2)

/-- With every lane down the port is down, and every attached handle's nexus-loss time runs (R272). -/
def State.portDown (s : State) (c : Nat) : State :=
  if (s.chain c).anyLane then s
  else
    let s1 := s.phyEvent c 0x06 0 0xFF 0xF
    (List.range 512).foldl (fun (s : State) i => s.loseTarget (512 * c + i)) s1

/-- A lane has failed: a HARD RESET of recovery that is still to be answered is sent on a remaining lane (R279). -/
def State.resendResets (s : State) (c : Nat) : State :=
  if !(s.chain c).anyLane then s
  else (s.handles.filter fun h => chainOfHandle h.1 = c && match h.2.recovery with
    | some r => r.step = 4 && !r.missed
    | none => false).foldl (fun (s : State) h => s.emit (.hardReset c h.1)) s

/-- Tags of the commands of the connection on a lane. -/
def SasPort.carried (x : SasPort) (lane : Nat) : List Nat := (((x.lanes.get lane {}).conn).map (·.2)).getD []

/-- A lane is link-reset, or disabled on the fourth reset within 10 s (R271); the connection on it breaks (R270). -/
def State.resetLane (s : State) (c lane : Nat) : State :=
  let x := s.chain c
  let l := x.lanes.get lane {}
  let recent := (l.resets.filter fun t => s.devMs < t + 10000)
  let down : Lane := { l with up := false, rate := 3, credits := 0, conn := none }
  let s1 := s.phyEvent c 0x02 0 lane 0xF
  if 3 ≤ recent.length then
    ((((s1.modChain c fun y => { y with lanes := y.lanes.set lane { down with disabled := true, resets := recent } }).phyEvent
      c 0x04 0 lane 0xF).portDown c).breakCommands c (x.carried lane)).resendResets c
  else
    let s2 := s1.modChain c fun y => { y with
      lanes := y.lanes.set lane { down with resets := recent ++ [s.devMs] }
      linkResets := Nat.min (y.linkResets + 1) (2 ^ 32 - 1) }
    ((((s2.phyEvent c 0x03 (recent.length + 1) lane 0xF).emit (.sasReset c lane)).portDown c).breakCommands c
      (x.carried lane)).resendResets c

/-- DWORD_SYNC_LOSS (R271). -/
def execDwordSyncLoss (c lane : Nat) (s : State) : Ans :=
  .next (if ((s.chain c).lanes.get lane {}).up then s.resetLane c lane else s)

/-- FEC_THRESHOLD (R271): the seventeenth uncorrectable codeword within 1 s, on a lane at 22.5 Gbit/s, which alone has FEC
(R249). -/
def execFecThreshold (c lane : Nat) (s : State) : Ans :=
  let l := (s.chain c).lanes.get lane {}
  if !l.up || l.rate ≠ 0 then .next s
  else
    let s1 := s.modChain c fun x => { x with fec := Nat.min (x.fec + 17) (2 ^ 32 - 1) }
    .next ((s1.phyEvent c 0x05 0 lane l.rate).resetLane c lane)

/-- The link function that waits comes into force (R274, R275). -/
def State.applyLink (s : State) (c : Nat) : State :=
  s.modChain c fun x => if x.linkPending then x.linked (s.manage.sas.link c) else x

/-- PORT_RESET_ATTEMPT (R272, R275): a successful port-level reset ends the disabling of lanes, brings a changed link function
into force and rediscovers the chain from the top. -/
def execPortResetAttempt (c : Nat) (ok : Bool) (s : State) : Ans :=
  if (s.chain c).anyLane || !s.sasRuns then .next s
  else
    let s1 := s.emit (.sasReset c 4)
    if !ok then .next s1
    else
      .next (((s1.applyLink c).modChain c fun x => { x with
        lanes := Tab.mapVals x.lanes fun l => { l with disabled := false, resets := [] }, rediscover := .top }).phyEvent
        c 0x07 0 0xFF 0xF)

/-- CHAIN_LINK_RESET_APPLY (R275): a changed link function takes effect at a port-level reset once no shelf of the
chain holds an outing. -/
def execChainLinkResetApply (c : Nat) (s : State) : Ans :=
  if !(s.chain c).linkPending || (List.range 4).any fun i => (s.shelf (4 * c + i)).holds then .next s
  else
    let x := s.chain c
    let s1 := ((s.applyLink c).modChain c fun x => { x with lanes := [], rediscover := .top }).emit (.sasReset c 4)
    .next (if x.anyLane then (s1.portDown c).breakCommands c ((List.range 4).flatMap x.carried) else s1)

end Sys2Proof.Machine
end

