-- ==== Sys2Proof/Machine/HamperOps.lean ====
section
/-! DEFINITION. Hamper engine op words, bundles, and the effect of one bundle (R323 to R341, R345 to R349). -/

namespace Sys2Proof.Machine

/-! ### Op words (R325 to R334) -/

/-- A field of an op word. -/
def opf (w : BitVec 32) (hi lo : Nat) : Nat := bitsOf w.toNat hi lo

/-- The op an op word encodes, none for a reserved value or a reserved bit set. -/
def decodeOp (w : BitVec 32) : Option HOp :=
  let f (hi lo : Nat) : Nat := opf w hi lo
  let b5 (hi lo : Nat) : BitVec 5 := BitVec.ofNat 5 (opf w hi lo)
  let z (hi lo : Nat) : Bool := opf w hi lo = 0
  match f 30 28, f 27 22 with
  | 0, 1 => if z 13 0 then some (.ld (b5 21 17) (BitVec.ofNat 3 (f 16 14))) else none
  | 1, 1 =>
    if z 12 0 && (z 21 21 || z 20 20) then some (.st (f 21 21 = 1) (b5 20 16) (BitVec.ofNat 3 (f 15 13))) else none
  | 1, 2 =>
    if z 0 0 && (z 21 21 || z 20 20) && f 7 1 ≤ 95 then
      some (.sta (f 21 21 = 1) (b5 20 16) (BitVec.ofNat 3 (f 15 13)) (f 12 12 = 1) (BitVec.ofNat 4 (f 11 8))
        (BitVec.ofNat 7 (f 7 1)))
    else none
  | 2, 1 =>
    if f 21 18 + f 17 14 + 1 ≤ 16 then
      some (.mac (BitVec.ofNat 4 (f 21 18)) (BitVec.ofNat 4 (f 17 14)) (b5 13 9) (BitVec.ofNat 7 (f 8 2)) (f 1 1 = 1)
        (f 0 0 = 1))
    else none
  | 2, 2 => if z 12 0 then some (.gfOut (BitVec.ofNat 4 (f 21 18)) (b5 17 13)) else none
  | 2, 3 => if z 11 0 then some (.cld (BitVec.ofNat 4 (f 21 18)) (b5 17 13) (f 12 12 = 1)) else none
  | 3, 1 => if z 19 0 then some (.hsInit (BitVec.ofNat 2 (f 21 20))) else none
  | 3, 2 =>
    if z 12 0 && !z 14 13 then some (.upd (BitVec.ofNat 2 (f 21 20)) (b5 19 15) (BitVec.ofNat 2 (f 14 13))) else none
  | 3, 6 =>
    if z 6 0 && !z 14 13 then
      some (.updn (BitVec.ofNat 2 (f 21 20)) (b5 19 15) (BitVec.ofNat 2 (f 14 13)) (BitVec.ofNat 6 (f 12 7)))
    else none
  | 3, 3 =>
    if z 10 0 && (f 14 14 = 1 || f 13 11 ≤ 4) then
      some (.fin (BitVec.ofNat 2 (f 21 20)) (b5 19 15) (f 14 14 = 1) (BitVec.ofNat 3 (f 13 11)))
    else none
  | 3, 4 => if z 14 0 then some (.hsSave (BitVec.ofNat 2 (f 21 20)) (b5 19 15)) else none
  | 3, 5 => if z 14 0 then some (.hsRest (BitVec.ofNat 2 (f 21 20)) (b5 19 15)) else none
  | 4, 1 => if z 14 0 then some (.crInit (BitVec.ofNat 2 (f 21 20)) (b5 19 15)) else none
  | 4, 2 => if z 9 0 then some (.enc (BitVec.ofNat 2 (f 21 20)) (b5 19 15) (b5 14 10)) else none
  | 4, 3 => if z 9 0 then some (.dec (BitVec.ofNat 2 (f 21 20)) (b5 19 15) (b5 14 10)) else none
  | 4, 4 =>
    if z 11 0 && f 14 12 ≤ 6 then
      some (.crTag (BitVec.ofNat 2 (f 21 20)) (b5 19 15) (BitVec.ofNat 3 (f 14 12)))
    else none
  | 4, 5 => if z 14 0 then some (.crSave (BitVec.ofNat 2 (f 21 20)) (b5 19 15)) else none
  | 4, 6 => if z 14 0 then some (.crRest (BitVec.ofNat 2 (f 21 20)) (b5 19 15)) else none
  | 5, 1 => if z 6 0 then some (.alXor (b5 21 17) (b5 16 12) (b5 11 7)) else none
  | 5, 2 => if z 6 0 then some (.alAnd (b5 21 17) (b5 16 12) (b5 11 7)) else none
  | 5, 3 => if z 6 0 then some (.alOr (b5 21 17) (b5 16 12) (b5 11 7)) else none
  | 5, 4 => if z 11 0 then some (.alMov (b5 21 17) (b5 16 12)) else none
  | 5, 5 => if z 16 0 then some (.zero (b5 21 17)) else none
  | 5, 6 => if z 16 16 && z 9 0 then some (.inslc (b5 21 17) (b5 15 11) (f 10 10 = 1)) else none
  | 5, 7 => if z 5 0 then some (.neq (BitVec.ofNat 6 (f 21 16)) (b5 15 11) (b5 10 6)) else none
  | 5, 8 => if z 10 0 then some (.ptest (BitVec.ofNat 6 (f 21 16)) (b5 15 11)) else none
  | 6, 1 => if z 21 0 then some .nop else none
  | 6, 2 => if z 17 12 then some (.loop (f 21 21 = 1) (BitVec.ofNat 3 (f 20 18)) (BitVec.ofNat 12 (f 11 0))) else none
  | 6, 3 => if z 21 12 then some (.idle (BitVec.ofNat 12 (f 11 0))) else none
  | 6, 4 => if z 21 3 then some (.agrst (BitVec.ofNat 3 (f 2 0))) else none
  | 6, 5 => if z 21 0 then some .endOp else none
  | _, _ => none

/-- STOP of an op word. -/
def opStop (w : BitVec 32) : Bool := w.getLsbD 31

/-- The unit of an op. -/
def HOp.unit : HOp → Nat
  | .ld .. => 0
  | .st .. | .sta .. => 1
  | .mac .. | .gfOut .. | .cld .. => 2
  | .hsInit .. | .upd .. | .updn .. | .fin .. | .hsSave .. | .hsRest .. => 3
  | .crInit .. | .enc .. | .dec .. | .crTag .. | .crSave .. | .crRest .. => 4
  | .alXor .. | .alAnd .. | .alOr .. | .alMov .. | .zero .. | .inslc .. | .neq .. | .ptest .. => 5
  | .nop | .loop .. | .idle .. | .agrst .. | .endOp => 6

/-- The address generator an op uses (R327). -/
def HOp.gen : HOp → Option Nat
  | .ld _ ag => some ag.toNat
  | .st _ _ ag => some ag.toNat
  | .sta _ _ ag _ _ _ => some ag.toNat
  | .agrst ag => some ag.toNat
  | _ => none

/-- Words of a bundle from an address up to its STOP, at most 8 (R326); none when the image ends first. -/
def bundleWords (ws : List (BitVec 32)) : Nat → Nat → Option (List (BitVec 32))
  | 0, _ => none
  | n + 1, a =>
    match ws[a]? with
    | none => none
    | some w => if opStop w then some [w] else (bundleWords ws n (a + 1)).map fun l => w :: l

/-- The legal bundle at an address (R326, R327), none when it is illegal as it stands, or starts at or beyond the image's
last op word. -/
def bundleAt (ws : List (BitVec 32)) (a : Nat) : Option (List HOp) :=
  match (bundleWords ws 7 a).bind fun l => l.mapM decodeOp with
  | none => none
  | some ops =>
    if a + 1 < ws.length && (ops.map HOp.unit).Nodup && (ops.filterMap HOp.gen).Nodup then some ops else none

/-- The length of the bundle at an address in words, 1 when it never stops. -/
def bundleLen (ws : List (BitVec 32)) (a : Nat) : Nat := ((bundleWords ws 4096 a).map (·.length)).getD 1

/-! ### Store slots (R357, R360) -/

/-- Does a launch name a store slot. -/
def Launch.isStore (l : Launch) : Bool := match l.recipe with
  | some id => 0x8000 ≤ id
  | none => false

/-- A store recipe is queued or running on the engine. -/
def Engine.busyStore (x : Engine) : Bool :=
  x.queue.any Launch.isStore || (x.running.map fun p => p.launch.isStore).getD false

/-- Slots whose erasure is due are erased once no store recipe is queued or running (R360). -/
def Engine.erased (x : Engine) : Engine :=
  if x.busyStore then x else { x with slots := x.slots.filter fun i => i.1 ∉ x.eraseSlots, eraseSlots := [] }

/-! ### Registers -/

/-- The image a running store recipe executes. -/
def Engine.image (x : Engine) : Option Image :=
  match x.running.bind (·.launch.recipe) with
  | some id => if 0x8000 ≤ id then x.slots.find (id % 16) else none
  | none => none

/-- A V register as an op reads it (R333). -/
def Engine.vr (x : Engine) (i : BitVec 5) : VReg :=
  let r := x.v.get i.toNat {}
  if r.sealedBy then { r with data := 0 } else r

def Engine.pr (x : Engine) (i : Nat) : PReg := x.p.get i {}
def Engine.prNow (x : Engine) (i : Nat) : PReg := x.pNow.get i {}
def Engine.agen (x : Engine) (i : BitVec 3) : AddrGen := x.ag.get i.toNat {}
def Engine.lane (x : Engine) (i : BitVec 2) : HashLane := x.h.get i.toNat {}
def Engine.ctx (x : Engine) (i : BitVec 2) : CipherCtx := x.k.get i.toNat {}
def Engine.coefAt (x : Engine) (row col : Nat) : Byte := x.coef.get (96 * row + col) 0
def Engine.rowPoison (x : Engine) (row : Nat) : Bool := x.coefPoison.any fun k => k / 2 = row

/-- Registers 512 bits wide with bytes `bs` from `off` on. -/
def putBeatBytes (d : BitVec 512) (off : Nat) (bs : List Byte) : BitVec 512 := beatOf (patchBytes (beatBytes d) off bs)

/-- One landing reaches its register (R336). -/
def Engine.land (x : Engine) : Landing → Engine
  | .v vd r _ => { x with v := x.v.set vd r }
  | .vBytes vd off bs poison =>
    let r := x.v.get vd {}
    let base := if r.sealedBy then 0 else r.data
    { x with v := x.v.set vd { data := putBeatBytes base off bs, poison := r.poison || poison } }
  | .p pd r => { x with p := x.p.set pd r }
  | .coef row cols poison =>
    let half := if (cols.headD (0, 0)).1 < 64 then 0 else 1
    { x with
      coef := cols.foldl (fun t c => if c.2 = 0 then t.erase (96 * row + c.1) else t.set (96 * row + c.1) c.2) x.coef
      coefPoison := (x.coefPoison.filter fun k => k ≠ 2 * row + half) ++ if poison then [2 * row + half] else [] }

/-- Results due at a cycle or earlier land, oldest due first (R336). -/
def State.landDue (s : State) (e t : Nat) : State :=
  let x := s.engine e
  let due := List.insertionSort (fun a b => a.cycle ≤ b.cycle) (x.lands.filter fun l => l.cycle ≤ t)
  s.setEngine e (due.foldl (fun y l => y.land l.what) { x with lands := x.lands.filter fun l => t < l.cycle })

/-- Every pending result lands. -/
def State.landAll (s : State) (e : Nat) : State :=
  s.landDue e ((s.engine e).lands.foldl (fun n l => Nat.max n l.cycle) 0)

/-- Whether the result of LD is on its way into a register. -/
def Landing.isLoad : Landing → Bool
  | .v _ _ l => l
  | _ => false

/-! ### Address generators (R335) -/

/-- The byte address in the stacks a generator points at. -/
def AddrGen.addr (g : AddrGen) : Nat := extAddr (g.base + g.beat.toNat / 1024) (64 * (g.beat.toNat % 1024))

/-- The quarter of the beat a generator points at. -/
def AddrGen.quarter (g : AddrGen) : Nat := (g.base + g.beat.toNat / 1024) / extentsPerQuarter

/-- A generator after an access. -/
def AddrGen.advance (g : AddrGen) : AddrGen :=
  if g.n0 ≠ 0 && g.i + 1 = g.n0 then { g with count := g.count - 1, beat := g.beat + g.stride1, i := 0 }
  else { g with count := g.count - 1, beat := g.beat + g.stride0, i := g.i + 1 }

/-- AG_USE of a generator: 1 load, 2 store, 3 accumulate (R357). -/
def Engine.use (x : Engine) (ag : Nat) : Nat := bitsOf x.agUse.toNat (2 * ag + 1) (2 * ag)

/-! ### Faults of a bundle (R327, R331 to R333, R335, R338, R340, R346, R348) -/

/-- A sealed cipher state as a register's 512 bits, and back. -/
def packCtx (c : CipherCtx) : BitVec 512 :=
  BitVec.ofNat 512 (c.iv.toNat + c.ctr.toNat * 2 ^ 96 + c.ghash.toNat * 2 ^ 128 + c.count % 2 ^ 64 * 2 ^ 256)
def unpackCtx (d : BitVec 512) (poison : Bool) (ready : Nat) : CipherCtx :=
  { init := true, iv := d.extractLsb' 0 96, ctr := d.extractLsb' 96 32, ghash := d.extractLsb' 128 128
    count := (d.extractLsb' 256 64).toNat, poison, readyAt := ready }

/-- Where an op's V register result lands: register and distance. -/
def HOp.landing : HOp → Option (Nat × Nat)
  | .ld vd _ => some (vd.toNat, 64)
  | .gfOut _ vd => some (vd.toNat, 4)
  | .fin _ vd _ _ => some (vd.toNat, 1)
  | .hsSave _ vd => some (vd.toNat, 1)
  | .enc _ vd _ => some (vd.toNat, 14)
  | .dec _ vd _ => some (vd.toNat, 14)
  | .crTag _ vd _ => some (vd.toNat, 14)
  | .crSave _ vd => some (vd.toNat, 14)
  | .alXor vd _ _ => some (vd.toNat, 1)
  | .alAnd vd _ _ => some (vd.toNat, 1)
  | .alOr vd _ _ => some (vd.toNat, 1)
  | .alMov vd _ => some (vd.toNat, 1)
  | .zero vd => some (vd.toNat, 1)
  | .inslc vd _ _ => some (vd.toNat, 1)
  | _ => none

/-- The V register a pending landing writes. -/
def Landing.vTarget : Landing → Option Nat
  | .v vd _ _ => some vd
  | .vBytes vd _ _ _ => some vd
  | _ => none

/-- Two results would land in one V register in one cycle (R338). -/
def Engine.collides (x : Engine) (ops : List HOp) : Bool :=
  let new := (ops.filterMap HOp.landing).map fun (vd, d) => (vd, x.cycle + d)
  !new.Nodup || new.any fun (vd, c) => x.lands.any fun l => l.cycle = c && l.what.vTarget = some vd

/-- The body of a LOOP starts after the bundle that follows it (R339). -/
def loopStart (ws : List (BitVec 32)) (a : Nat) : Nat :=
  let b := a + bundleLen ws a
  b + bundleLen ws b

/-- A LOOP op that R340 forbids. -/
def Engine.badLoop (x : Engine) (ws : List (BitVec 32)) (level : Bool) (stop : Nat) : Bool :=
  let here := x.bundleAddr
  (if level then x.loop1.active else x.loop0.active) ||
  (!level && x.loop1.active) ||
  (level && x.loop0.active && !(x.loop0.start ≤ stop && stop ≤ x.loop0.stop)) ||
  stop < loopStart ws here ||
  (x.loop0.active && x.loop0.stop = here) || (x.loop1.active && x.loop1.stop = here)

/-- An op breaks a rule given as ILLEGAL-BUNDLE. -/
def Engine.illegal (x : Engine) (ws : List (BitVec 32)) : HOp → Bool
  | .mac _ _ _ col lcc _ => 95 < col.toNat + if lcc then x.loop0.lc else 0
  | .upd h _ _ => !(x.lane h).init
  | .updn h _ _ _ => !(x.lane h).init
  | .fin h _ _ _ => !(x.lane h).init
  | .hsSave h _ => !(x.lane h).init
  | .crInit k _ => x.cycle < (x.ctx k).readyAt
  | .crRest k _ => x.cycle < (x.ctx k).readyAt
  | .enc k _ _ => !(x.ctx k).init || x.cycle < (x.ctx k).readyAt
  | .dec k _ _ => !(x.ctx k).init || x.cycle < (x.ctx k).readyAt
  | .crTag k _ _ => !(x.ctx k).init || x.cycle < (x.ctx k).readyAt
  | .crSave k _ => !(x.ctx k).init || x.cycle < (x.ctx k).readyAt
  | .loop level _ stop => x.badLoop ws level stop.toNat
  | _ => false

/-- The path of an ACCUMULATE: 0 local, 1 up, 2 down (R296). -/
def staPath (e d : Nat) : Nat := route (quarterOfParty e) d

/-- An op misses its slot (R298). -/
def Engine.misses (x : Engine) (e : Nat) : HOp → Bool
  | .ld .. => !(profileSlots x.profile x.cycle).1
  | .st .. => let (_, a, b) := profileSlots x.profile x.cycle; !(a || b)
  | .sta _ _ ag _ _ _ =>
    let (_, a, b) := profileSlots x.profile x.cycle
    !(a || b) || 2 ≤ (x.sta.get (staPath e (x.agen ag).quarter) []).length
  | _ => false

/-- An access its generator does not permit (R297, R335). -/
def Engine.badAccess (x : Engine) (e : Nat) : HOp → Bool
  | .ld _ ag => (x.agen ag).count = 0 || !(x.use ag.toNat = 1 || x.use ag.toNat = 2) ||
      (x.agen ag).quarter ≠ quarterOfParty e
  | .st _ _ ag => (x.agen ag).count = 0 || x.use ag.toNat ≠ 2 || (x.agen ag).quarter ≠ quarterOfParty e
  | .sta _ _ ag _ _ _ => (x.agen ag).count = 0 || x.use ag.toNat ≠ 3
  | _ => false

/-- INIT or REST after the key was erased or without a key, and REST from an unsealed register (R333, R347). -/
def Engine.badKey (x : Engine) : HOp → Bool
  | .crInit _ _ => x.keyErased || (x.running.bind (·.key)).isNone
  | .crRest _ vs => x.keyErased || (x.running.bind (·.key)).isNone || !(x.v.get vs.toNat {}).sealedBy
  | _ => false

/-- An op reads a poisoned source (R345, R346). -/
def Engine.readsPoison (x : Engine) : HOp → Bool
  | .st srcP reg _ => if srcP then (x.pr reg.toNat).poison else (x.vr reg).poison
  | .sta srcP reg _ _ row _ => (if srcP then (x.pr reg.toNat).poison else (x.vr reg).poison) || x.rowPoison row.toNat
  | .mac pb np vs _ _ clr => (x.vr vs).poison || (List.range (np.toNat + 1)).any fun i =>
      x.rowPoison (pb.toNat + i) || (!clr && (x.prNow (pb.toNat + i)).poison)
  | .gfOut ps _ => (x.pr ps.toNat).poison
  | .cld _ vs _ => (x.vr vs).poison
  | .upd h vs _ => (x.vr vs).poison || (x.lane h).poison
  | .updn h vs _ _ => (x.vr vs).poison || (x.lane h).poison
  | .fin h _ _ _ => (x.lane h).poison
  | .hsSave h _ => (x.lane h).poison
  | .hsRest _ vs => (x.vr vs).poison
  | .crInit _ vs => (x.vr vs).poison
  | .enc k _ vs => (x.vr vs).poison || (x.ctx k).poison
  | .dec k _ vs => (x.vr vs).poison || (x.ctx k).poison
  | .crTag k _ _ => (x.ctx k).poison
  | .crSave k _ => (x.ctx k).poison
  | .crRest _ vs => (x.vr vs).poison
  | .alXor _ a b => (x.vr a).poison || (x.vr b).poison
  | .alAnd _ a b => (x.vr a).poison || (x.vr b).poison
  | .alOr _ a b => (x.vr a).poison || (x.vr b).poison
  | .alMov _ a => (x.vr a).poison
  | .neq _ a b => (x.vr a).poison || (x.vr b).poison
  | .ptest _ a => (x.vr a).poison
  | _ => false

/-- The fault of a bundle, by the precedence of R348; none when it runs. -/
def Engine.bundleFault (x : Engine) (e : Nat) (ws : List (BitVec 32)) (ops : List HOp) : Option Nat :=
  if ops.any (x.illegal ws) || x.collides ops then some 2
  else if ops.any (x.misses e) then some 1
  else if ops.any (x.badAccess e) then some 3
  else if ops.any x.badKey then some 4
  else if x.trap && ops.any x.readsPoison then some 5
  else none

/-! ### Effects of ops (R328 to R337) -/

/-- A result on its way. -/
def Engine.later (x : Engine) (t d : Nat) (w : Landing) : Engine := { x with lands := x.lands ++ [{ cycle := t + d, what := w }] }

/-- A V register result. -/
def Engine.vLater (x : Engine) (t d : Nat) (vd : BitVec 5) (r : VReg) : Engine := x.later t d (.v vd.toNat r false)

/-- A bytewise operation on two registers. -/
def Engine.bitwise (x y : Engine) (t : Nat) (vd va vb : BitVec 5) (f : BitVec 512 → BitVec 512 → BitVec 512) : Engine :=
  let a := x.vr va
  let b := x.vr vb
  y.vLater t 1 vd { data := f a.data b.data, poison := a.poison || b.poison }

/-- A hash lane after absorbing bytes (R331); the byte count is that of SHA-256. -/
def HashLane.absorb (l : HashLane) (sel : BitVec 2) (bs : List Byte) (poison : Bool) : HashLane :=
  let l1 := if sel.getLsbD 1 then { l with crc := bs.foldl crc64Byte l.crc } else l
  let l2 :=
    if sel.getLsbD 0 then
      let (h, buf) := shaAbsorb 2 l1.sha (l1.buf ++ bs)
      { l1 with sha := h, buf, count := l1.count + bs.length }
    else l1
  { l2 with poison := l2.poison || poison }

/-- The lane's state in the layout of SAVE. -/
def HashLane.bytes (l : HashLane) : List Byte :=
  ofBeWords l.sha ++ leBytes 8 l.count ++ leBytes 8 l.crc.toNat ++ List.replicate 16 0

/-- The round keys of the running launch. -/
def Engine.keys (x : Engine) : List (List Byte) := aesKeys ((x.running.bind (·.key)).getD 0)

/-- Encryption or decryption of a beat. -/
def Engine.cipher (x y : Engine) (t : Nat) (enc : Bool) (k : BitVec 2) (vd vs : BitVec 5) : Engine :=
  let r := x.vr vs
  let c0 := x.ctx k
  let c := { c0 with poison := c0.poison || r.poison }
  let (c1, out) := gcmRun x.keys enc 4 c (beatBytes r.data)
  ({ y with k := y.k.set k.toNat c1 }).vLater t 14 vd { data := beatOf out, poison := c1.poison }

/-- The effect of one op on its engine: `x` as the bundle reads it, `y` with the effects of the bundle's other ops,
`t` the cycle of issue. Memory reads are in `beat`; a restored lane's unsaved bytes are `tail`. -/
def Engine.opEffect (x y : Engine) (e t : Nat) (beat : VReg) (tail : List Byte) (ws : List (BitVec 32)) : HOp → Engine
  | .ld vd ag =>
    ({ y with ag := y.ag.set ag.toNat (x.agen ag).advance }).later t 64 (.v vd.toNat beat true)
  | .st _ _ ag => { y with ag := y.ag.set ag.toNat (x.agen ag).advance }
  | .sta srcP reg ag last row col =>
    let g := x.agen ag
    let (d, p) := if srcP then ((x.pr reg.toNat).data, (x.pr reg.toNat).poison) else ((x.vr reg).data, (x.vr reg).poison)
    let path := staPath e g.quarter
    let b : StaBeat := { addr := g.addr, coef := x.coefAt row.toNat col.toNat, data := d
                         poison := p || x.rowPoison row.toNat, last }
    { y with ag := y.ag.set ag.toNat g.advance, sta := y.sta.set path (y.sta.get path [] ++ [b]) }
  | .mac pb np vs col lcc clr =>
    let v := x.vr vs
    let c := col.toNat + if lcc then x.loop0.lc else 0
    (List.range (np.toNat + 1)).foldl (fun (y : Engine) i =>
      let j := pb.toNat + i
      let prod := gfScale (x.coefAt j c) (beatBytes v.data)
      let src := v.poison || x.rowPoison j
      let old := x.prNow j
      let r : PReg := if clr then { data := beatOf prod, poison := src }
        else { data := beatOf (xorBytes (beatBytes old.data) prod), poison := old.poison || src }
      ({ y with pNow := y.pNow.set j r }).later t 4 (.p j r)) y
  | .gfOut ps vd => y.vLater t 4 vd { data := (x.pr ps.toNat).data, poison := (x.pr ps.toNat).poison }
  | .cld row vs half =>
    let bs := beatBytes (x.vr vs).data
    let cols := if half then (List.range 32).map fun i => (64 + i, bs.getD i 0)
      else (List.range 64).map fun i => (i, bs.getD i 0)
    y.later t 4 (.coef row.toNat cols (x.vr vs).poison)
  | .hsInit h => { y with h := y.h.set h.toNat { init := true, sha := shaInit } }
  | .upd h vs sel => { y with h := y.h.set h.toNat ((x.lane h).absorb sel (beatBytes (x.vr vs).data) (x.vr vs).poison) }
  | .updn h vs sel n1 =>
    let l := (x.lane h).absorb sel ((beatBytes (x.vr vs).data).take (n1.toNat + 1)) (x.vr vs).poison
    { y with h := y.h.set h.toNat l }
  | .fin h vd crc off =>
    let l := x.lane h
    let d := if crc then leBytes 8 l.crc.toNat else shaFinal l.sha l.buf l.count
    y.later t 1 (.vBytes vd.toNat (8 * off.toNat) d l.poison)
  | .hsSave h vd => y.vLater t 1 vd { data := beatOf (x.lane h).bytes, poison := (x.lane h).poison }
  | .hsRest h vs =>
    let bs := beatBytes (x.vr vs).data
    let count := fieldAt bs 32 8
    let l : HashLane :=
      { init := true, sha := beWords (bs.take 32), buf := tail.take (count % 64), crc := BitVec.ofNat 64 (fieldAt bs 40 8)
        count, poison := (x.vr vs).poison }
    { y with h := y.h.set h.toNat l }
  | .crInit k vs =>
    let bs := beatBytes (x.vr vs).data
    let c := gcmInit (gcmIv (bs.take 16) (fieldAt bs 16 2))
    { y with k := y.k.set k.toNat { c with poison := (x.vr vs).poison, readyAt := t + 14 } }
  | .enc k vd vs => x.cipher y t true k vd vs
  | .dec k vd vs => x.cipher y t false k vd vs
  | .crTag k vd off => y.later t 14 (.vBytes vd.toNat (8 * off.toNat) (gcmTag x.keys (x.ctx k)) (x.ctx k).poison)
  | .crSave k vd => y.vLater t 14 vd { data := packCtx (x.ctx k), poison := (x.ctx k).poison, sealedBy := true }
  | .crRest k vs =>
    let r := x.v.get vs.toNat {}
    { y with k := y.k.set k.toNat (unpackCtx r.data r.poison (t + 14)) }
  | .alXor vd va vb => x.bitwise y t vd va vb (· ^^^ ·)
  | .alAnd vd va vb => x.bitwise y t vd va vb (· &&& ·)
  | .alOr vd va vb => x.bitwise y t vd va vb (· ||| ·)
  | .alMov vd va => y.vLater t 1 vd { x.vr va with sealedBy := false }
  | .zero vd => y.vLater t 1 vd {}
  | .inslc vd off l =>
    y.later t 1 (.vBytes vd.toNat (2 * off.toNat) (leBytes 2 (if l then x.loop1.lc else x.loop0.lc)) false)
  | .neq bit va vb =>
    if (x.vr va).data ≠ (x.vr vb).data then { y with res := y.res ||| (1#64 <<< bit.toNat) } else y
  | .ptest bit va => if (x.vr va).poison then { y with res := y.res ||| (1#64 <<< bit.toNat) } else y
  | .nop => y
  | .loop level csel stop =>
    let l : LoopLevel := { lc := 0, active := true, count := x.counts.get csel.toNat 0
                           start := loopStart ws x.bundleAddr, stop := stop.toNat }
    if level then { y with loop1 := l } else { y with loop0 := l }
  | .idle n1 => { y with cycle := y.cycle + n1.toNat + 1 }
  | .agrst ag => { y with ag := y.ag.set ag.toNat (x.agStart.get ag.toNat {}) }
  | .endOp => { y with ended := true }

/-- The loop decision of a bundle at END (R339): the engine and the address of the next bundle. -/
def Engine.loopNext (x : Engine) (here next : Nat) : Engine × Nat :=
  let decide0 (x : Engine) : Engine × Nat :=
    if x.loop0.active && x.loop0.stop = here then
      if x.loop0.lc + 1 < x.loop0.count then
        ({ x with loop0 := { x.loop0 with lc := x.loop0.lc + 1 } }, x.loop0.start)
      else ({ x with loop0 := { x.loop0 with active := false } }, next)
    else (x, next)
  if x.loop1.active && x.loop1.stop = here then
    if x.loop1.lc + 1 < x.loop1.count then
      ({ x with loop1 := { x.loop1 with lc := x.loop1.lc + 1 } }, x.loop1.start)
    else decide0 { x with loop1 := { x.loop1 with active := false } }
  else decide0 x

/-- The byte address that an LD of the bundle reads. -/
def Engine.loadAddr (x : Engine) (ops : List HOp) : Option Nat := ops.findSome? fun o => match o with
  | .ld _ ag => some (x.agen ag).addr
  | _ => none

/-- The beat an LD reads, with its poison tag (R345). -/
def State.loadBeat (s : State) (a : Option Nat) : VReg := match a with
  | some a => { data := s.readBeat a, poison := decide (a / 64 ∈ s.poison) }
  | none => {}

/-- The store of an ST (R329): address, data, poison. -/
def Engine.storeOf (x : Engine) : HOp → Option (Nat × BitVec 512 × Bool)
  | .st srcP reg ag =>
    let (d, p) := if srcP then ((x.pr reg.toNat).data, (x.pr reg.toNat).poison) else ((x.vr reg).data, (x.vr reg).poison)
    some ((x.agen ag).addr, d, p)
  | _ => none

/-- The lane that carries a slot of the engine in the next row: the lowest free one of its LD (1) or ST (2) cells. -/
def Quarter.slotLane (x : Quarter) (e dir : Nat) : Nat :=
  ((List.range 10).find? fun l => x.acts l dir (idHE e) && l ∉ x.rowUsed).getD 0

/-- The slots a bundle uses in the row of its cycle (R294, R298): an LD's lane is taken, an ST's carries its store. The
WRITE cell of an ACCUMULATE carries nothing (R296). -/
def Quarter.useSlots (q : Quarter) (x : Engine) (e : Nat) (ops : List HOp) : Quarter :=
  ops.foldl (fun (q : Quarter) o => match o with
    | .ld _ _ => { q with rowUsed := q.slotLane e 1 :: q.rowUsed }
    | _ => match x.storeOf o with
      | some (a, d, p) =>
        let l := q.slotLane e 2
        { q with rowUsed := l :: q.rowUsed, rowStores := q.rowStores ++ [{ lane := l, addr := a, data := d, poison := p, engine := e }] }
      | none => q) q

/-- A legal bundle takes effect at cycle `t` (R336, R339): the engine after it, one cycle later or more. -/
def State.bundleEffect (s : State) (e : Nat) (ws : List (BitVec 32)) (ops : List HOp) : State :=
  let x := s.engine e
  let restores := ops.any fun o => match o with
    | .hsRest _ _ => true
    | _ => false
  let (tail, s1) := if restores then s.freeBytes 63 else ([], s)
  let la := x.loadAddr ops
  let beat := s.loadBeat la
  let y := ops.foldl (fun y o => x.opEffect y e x.cycle beat tail ws o) x
  let (y1, next) := y.loopNext x.bundleAddr (x.bundleAddr + ops.length)
  let slots := ops.any fun o => match o with
    | .ld .. | .st .. => true
    | _ => false
  let s2 := if slots then s1.modQuarter (quarterOfParty e) fun q => q.useSlots x e ops else s1
  (s2.met fun b => la.any fun a => b = a / 64).setEngine e { y1 with cycle := y1.cycle + 1, bundle := [], bundleAddr := next }

end Sys2Proof.Machine
end

