-- ==== Sys2Proof/Machine/RomRecipe.lean ====
section
/-! DEFINITION. The ROM recipes as functions of their parameter block and of buffer memory, and the ROM routine of a
VERIFY leg (R192 to R195, R352, R361 to R364, R368 to R371, R383 to R388, R394, R603). -/

namespace Sys2Proof.Machine

/-! ### The parameter block (R361) -/

def romK (b : List Byte) : Nat := byteAt b 0
def romM (b : List Byte) : Nat := byteAt b 1
def romCustom (b : List Byte) : Bool := bitN (byteAt b 2) 0
def romTrap (b : List Byte) : Bool := bitN (byteAt b 2) 1
def romUnit (b : List Byte) : Nat := byteAt b 3
def romFirst (b : List Byte) : Nat := fieldAt b 4 4 % 2 ^ 22
def romTagsAddr (b : List Byte) : BitVec 64 := BitVec.ofNat 64 (fieldAt b 8 8)
def romTags (b : List Byte) : Nat := bufPos (romTagsAddr b)
def romObject (b : List Byte) : List Byte := (b.drop 16).take 16
def romBase (b : List Byte) : Nat := fieldAt b 32 2
def romPayload (b : List Byte) : Nat := fieldAt b 36 4
def romAux (b : List Byte) : BitVec 64 := BitVec.ofNat 64 (fieldAt b 40 8)
def romAccFirst (b : List Byte) : Nat := fieldAt b 40 4 % 2 ^ 22
def romSpanK (b : List Byte) : Nat := byteAt b 44
def romSpanM (b : List Byte) : Nat := byteAt b 45
def romSpanCol (b : List Byte) : Nat := byteAt b 46

/-- STORED_LEN (R370). -/
def romStored (b : List Byte) : Nat := (romPayload b + 4095) / 4096 * 4096

/-- Buffer position of relative shard `i`. -/
def romShard (b : List Byte) (i : Nat) : Nat := (romFirst b + romUnit b * i) * 65536

/-- Accumulator position for shard `i` and span parity `j` (R363). -/
def romAcc (b : List Byte) (i j : Nat) : Nat := (romAccFirst b + romUnit b * (romSpanM b * i + j)) * 65536

/-- Row `j` of the coefficient matrix (R369, R371). -/
def romRow (b : List Byte) (j : Nat) : List Byte :=
  (List.range (romK b)).map fun i => if romCustom b then b.getD (64 + j * romK b + i) 0 else cauchy (romM b) j i

/-- Recipes that use cipher contexts (R362). -/
def romCiphers (id : Nat) : Bool := id = 2 || id = 4 || id = 6

/-- The K, M column of R362. -/
def romMOk (id m : Nat) : Bool :=
  if id = 3 then m = 0 else if id = 2 || id = 5 then m ≤ 16 else 1 ≤ m && m ≤ 16

/-- The block's content is accepted (R364), its poison and its outcome record apart. -/
def romOk (id len : Nat) (b : List Byte) : Bool :=
  let mk := romM b * romK b
  let need := if romCustom b then 64 + (mk + 63) / 64 * 64 else 64
  1 ≤ romK b && romK b + romM b ≤ 96 && romMOk id (romM b) && 1 ≤ romUnit b && romUnit b ≤ 64 &&
  byteAt b 2 < 4 && fieldAt b 4 4 < 2 ^ 22 && zeroAt b 48 16 && len = need &&
  1 ≤ romPayload b && romPayload b ≤ romUnit b * 65536 && bufField (romTagsAddr b) 64 &&
  (if romM b = 0 then !romCustom b else romCustom b || (romK b, romM b) ∈ presets) &&
  (if id = 2 then bufField (romAux b) 1
   else if id = 4 then
     fieldAt b 40 4 < 2 ^ 22 && byteAt b 47 = 0 && 1 ≤ romSpanM b && romSpanM b ≤ 4 &&
     romSpanK b + romSpanM b ≤ 12 && romSpanCol b < romSpanK b
   else zeroAt b 40 8)

/-- The shards recipe 0x0002 uses: the lowest K relative indices in ARRIVED or LATE, of those below 64 (R394). -/
def romUsed (b record : List Byte) : List Nat :=
  let have_ := fieldAt record 0 8 ||| fieldAt record 8 8
  ((List.range (Nat.min 64 (romK b + romM b))).filter fun i => bitN have_ i).take (romK b)

/-- The rows of the identity stacked over C for the shards in use (R394). -/
def romSystem (b : List Byte) (used : List Nat) : List (List Byte) :=
  used.map fun i => if i < romK b then unitRow (romK b) i else romRow b (i - romK b)

/-- The ranges a recipe accesses: position, length, access (R362, R355). -/
def romRanges (id : Nat) (b : List Byte) (used : List Nat) : List (Nat × Nat × Access) :=
  let k := romK b
  let m := romM b
  let n := romStored b
  let sh (a : Access) (i : Nat) : Nat × Nat × Access := (romShard b i, n, a)
  let tags (count : Nat) (a : Access) : List (Nat × Nat × Access) := [(romTags b, 128 * count, a)]
  if id = 2 then used.map (sh .read) ++ (List.range k).map (sh .write) ++ tags (k + m) .read
  else if id = 3 then (List.range k).map (sh .read) ++ tags k .write
  else if id = 5 then (List.range (k + m)).map (sh .read) ++ tags (k + m) .read
  else
    (List.range k).map (sh (if id = 1 then .read else .write)) ++
    (List.range m).map (fun j => sh .write (k + j)) ++ tags (k + m) .write

/-- The accumulator ranges of recipe 0x0004. -/
def romAccRanges (id : Nat) (b : List Byte) : List (Nat × Nat × Access) :=
  if id = 4 then
    (List.range (romK b)).flatMap fun i => (List.range (romSpanM b)).map fun j => (romAcc b i j, romStored b, .accum)
  else []

/-! ### Shards as they are read -/

/-- Stored bytes of a shard; the recipes that encrypt or encode read the padding as zero (R370). -/
def State.shardBytes (s : State) (b : List Byte) (i : Nat) (pad : Bool) : List Byte :=
  if pad then s.readBuf (romShard b i) (romPayload b) ++ List.replicate (romStored b - romPayload b) 0
  else s.readBuf (romShard b i) (romStored b)

/-- Beats of a shard, by index, that are read poisoned. -/
def State.shardPoison (s : State) (b : List Byte) (i : Nat) (pad : Bool) : List Nat :=
  let n := (if pad then (romPayload b + 63) / 64 else romStored b / 64)
  (List.range n).filter fun j => s.poisoned (romShard b i + 64 * j) 64

/-- Beats from the first poisoned one on: a cipher context stays poisoned until its INIT (R345). -/
def poisonOn (n : Nat) (l : List Nat) : List Nat :=
  match l with
  | [] => []
  | j :: _ => (List.range (n - j)).map fun i => j + i

/-- The union of poisoned beats of several shards. -/
def poisonUnion (n : Nat) (ls : List (List Nat)) : List Nat := (List.range n).filter fun j => ls.any fun l => j ∈ l

/-! ### Effects -/

/-- What a ROM recipe does to memory: a beat or a tag stored at a buffer position, or a beat accumulated. -/
inductive RomEffect where
  | store (pos : Nat) (bytes : List Byte) (poison : Bool)
  | tag (pos : Nat) (bytes : List Byte) (poison : Bool)
  | accum (pos : Nat) (coef : Byte) (last : Bool) (bytes : List Byte) (poison : Bool)
  deriving DecidableEq, Repr

/-- One effect of a recipe of engine `e`: a store takes place, a beat to accumulate joins the queue of its path (R296). -/
def State.romEffect (e : Nat) (s : State) : RomEffect → State
  | .store pos bs p => s.writeBuf pos bs p
  | .tag pos bs p => s.writeBuf pos bs p
  | .accum pos coef last bs poison =>
    let path := staPath e (posQuarter pos)
    let b : StaBeat := { addr := bufAddr pos, coef, data := beatOf bs, poison, last }
    s.modEngine e fun x => { x with sta := x.sta.set path (x.sta.get path [] ++ [b]) }

/-- The beats of a shard's new content. -/
def shardStores (pos : Nat) (bs : List Byte) (pois : List Nat) : List RomEffect :=
  (List.range (bs.length / 64)).map fun j => .store (pos + 64 * j) ((bs.drop (64 * j)).take 64) (j ∈ pois)

/-- Bytes 0 to 95 of a shard tag (R383, R384). -/
def romTag (b : List Byte) (i : Nat) (flags : Nat) (crc : BitVec 64) (stored gcm : List Byte) : List Byte :=
  romObject b ++ leBytes 2 (romBase b + i) ++ (b.drop 34).take 2 ++ leBytes 4 (romStored b) ++
  leBytes 4 (romPayload b) ++ leBytes 1 (romK b) ++ leBytes 1 (romM b) ++ leBytes 1 flags ++ [1] ++
  leBytes 8 crc.toNat ++ sha256 stored ++ gcm ++ List.replicate 8 0

/-- A shard through AES-256-GCM: the bytes out and the tag (R387, R388). -/
def romCipher (b : List Byte) (keys : List (List Byte)) (enc : Bool) (i : Nat) (bs : List Byte) :
    List Byte × List Byte :=
  let (c, out) := gcmRun keys enc (bs.length / 16) (gcmInit (gcmIv (romObject b) (romBase b + i))) bs
  (out, gcmTag keys c)

/-- Bit `i` of RES, bit 60 for shards 60 and up (R362). -/
def resBit (i : Nat) : Nat := 2 ^ Nat.min i 60

/-- RES[63] when poison was met. -/
def resPoison (p : Bool) : Nat := if p then 2 ^ 63 else 0

/-- A data shard as recipes 0x0001, 0x0004 and 0x0006 store it: bytes, poisoned beats, CRC-64, GCM tag. -/
structure RomShard where
  bytes : List Byte
  pois : List Nat
  crc : BitVec 64
  gcm : List Byte

/-- Recipes 0x0001, 0x0004 and 0x0006 (R362, R363, R368). All reads precede all stores (log entry 35). -/
def State.romEncode (s : State) (id : Nat) (b : List Byte) (keys : List (List Byte)) : Nat × List RomEffect :=
  let k := romK b
  let n := romStored b
  let cipher := id ≠ 1
  let data := (List.range k).map fun i =>
    let d := s.shardBytes b i true
    let p := s.shardPoison b i true
    let crc := crc64 (d.take (romPayload b))
    if cipher then
      let (c, t) := romCipher b keys true i d
      ({ bytes := c, pois := poisonOn (n / 64) p, crc, gcm := t } : RomShard)
    else { bytes := d, pois := p, crc, gcm := List.replicate 16 0 }
  let all := poisonUnion (n / 64) (data.map (·.pois))
  let parity := (List.range (romM b)).map fun j =>
    ({ bytes := gfCombine n (romRow b j) (data.map (·.bytes)), pois := all, crc := 0, gcm := List.replicate 16 0 } :
      RomShard)
  let shards := (List.range (k + romM b)).zip (data ++ parity)
  let stores := shards.flatMap fun (i, x) =>
    if i < k && !cipher then [] else shardStores (romShard b i) x.bytes x.pois
  let tags := shards.map fun (i, x) =>
    let bad := !x.pois.isEmpty
    let flags := (if i < k then b2n cipher else 2) + if bad then 4 else 0
    RomEffect.tag (romTags b + 128 * i) (romTag b i flags x.crc x.bytes x.gcm) bad
  let accs :=
    if id = 4 then
      ((List.range k).zip data).flatMap fun (i, x) => (List.range (romSpanM b)).flatMap fun j =>
        (List.range (n / 64)).map fun t =>
          RomEffect.accum (romAcc b i j + 64 * t) (cauchy (romSpanM b) j (romSpanCol b)) (t + 1 = n / 64)
            ((x.bytes.drop (64 * t)).take 64) (t ∈ x.pois)
    else []
  (resPoison (!all.isEmpty), stores ++ tags ++ accs)

/-- Recipe 0x0003 (R362): the CRC-64 and SHA-256 fields of K tags. -/
def State.romHash (s : State) (b : List Byte) : Nat × List RomEffect :=
  let got := (List.range (romK b)).map fun i => (i, s.shardBytes b i false, s.shardPoison b i false)
  (resPoison (got.any fun (_, _, p) => !p.isEmpty),
   got.map fun (i, d, p) =>
    RomEffect.tag (romTags b + 128 * i + 32) (leBytes 8 (crc64 (d.take (romPayload b))).toNat ++ sha256 d) (!p.isEmpty))

/-- The shards whose extents a recipe accesses. -/
def romShards (id : Nat) (b : List Byte) (used : List Nat) : List Nat :=
  if id = 2 then used ++ (List.range (romK b)).filter fun i => i ∉ used
  else if id = 3 then List.range (romK b)
  else List.range (romK b + romM b)

/-- The tag of one of these shards is read poisoned. -/
def State.tagsPoisoned (s : State) (b : List Byte) (shards : List Nat) : Bool :=
  shards.any fun i => s.poisoned (romTags b + 128 * i) 128

/-- SHA-256 or length of a shard differs from its tag (R362). -/
def romTagDiffers (b d t : List Byte) : Bool :=
  sha256 d ≠ (t.drop 40).take 32 || fieldAt t 20 4 ≠ romStored b || fieldAt t 24 4 ≠ romPayload b

/-- The tag of a shard as it stands. -/
def State.shardTag (s : State) (b : List Byte) (i : Nat) : List Byte := s.readBuf (romTags b + 128 * i) 128

/-- Recipe 0x0002 (R362, R394). -/
def State.romDecode (s : State) (b : List Byte) (keys : List (List Byte)) (used : List Nat) : Nat × List RomEffect :=
  let k := romK b
  let n := romStored b
  let got := used.map fun i => (i, s.shardBytes b i false, s.shardPoison b i false)
  let all := poisonUnion (n / 64) (got.map fun (_, _, p) => p)
  let inv := (gfInverse (romSystem b used)).getD []
  let rebuilt := ((List.range k).filter fun i => i ∉ used).map fun i =>
    (i, gfCombine n (inv.getD i []) (got.map fun (_, d, _) => d), all)
  let res := (got ++ rebuilt).map fun (i, d, p) =>
    let t := s.shardTag b i
    let bad := romTagDiffers b d t || romObject b ≠ t.take 16
    if i < k then
      let (pt, gcm) := romCipher b keys false i d
      let bad1 := bad || gcm ≠ (t.drop 72).take 16 || crc64 (pt.take (romPayload b)) ≠ BitVec.ofNat 64 (fieldAt t 32 8)
      (if bad1 then resBit i else 0, shardStores (romShard b i) pt (poisonOn (n / 64) p))
    else (if bad then resBit i else 0, [])
  (res.foldl (fun r x => r ||| x.1) (resPoison (s.tagsPoisoned b (romShards 2 b used) || !all.isEmpty)), res.flatMap (·.2))

/-- Recipe 0x0005 (R362): nothing is written. -/
def State.romVerify (s : State) (b : List Byte) : Nat × List RomEffect :=
  let k := romK b
  let got := (List.range (k + romM b)).map fun i => (i, s.shardBytes b i false, s.shardPoison b i false)
  let data := (got.take k).map fun (_, d, _) => d
  let parity := (List.range (romM b)).all fun j =>
    gfCombine (romStored b) (romRow b j) data = ((got.drop (k + j)).headD (0, [], [])).2.1
  let met := s.tagsPoisoned b (romShards 5 b []) || got.any fun (_, _, p) => !p.isEmpty
  (got.foldl (fun r (i, d, _) => if romTagDiffers b d (s.shardTag b i) then r ||| resBit i else r)
    (resPoison met ||| if parity then 0 else 2 ^ 62), [])

/-- What a ROM recipe computes: RES and its effects. -/
def State.romRun (s : State) (id : Nat) (p : Prepared) : Nat × List RomEffect :=
  let keys := aesKeys (p.key.getD 0)
  if id = 2 then s.romDecode p.block keys p.used
  else if id = 3 then s.romHash p.block
  else if id = 5 then s.romVerify p.block
  else s.romEncode id p.block keys

/-! ### Faults while a ROM recipe runs (R350, R603) -/

/-- The shards a recipe reads. -/
def romReads (id : Nat) (b : List Byte) (used : List Nat) : List Nat :=
  if id = 2 then used else if id = 5 then List.range (romK b + romM b) else List.range (romK b)

/-- Beats of shards and tags outside the engine's quarter: relative shard and beat (R297). -/
def romOutside (id e : Nat) (b : List Byte) (used : List Nat) : List (Nat × Nat) :=
  (romShards id b used).flatMap fun i =>
    (((List.range (romStored b / 64)).filter fun j => posQuarter (romShard b i + 64 * j) ≠ quarterOfParty e).map
      fun j => (i, j)) ++
    if posQuarter (romTags b + 128 * i) ≠ quarterOfParty e then [(i, 0)] else []

/-- Poisoned beats a recipe reads: relative shard and beat. -/
def State.romPoisons (s : State) (id : Nat) (b : List Byte) (used : List Nat) : List (Nat × Nat) :=
  ((romReads id b used).flatMap fun i => (s.shardPoison b i (id = 1 || id = 4 || id = 6)).map fun j => (i, j)) ++
  if id = 2 || id = 5 then
    (romShards id b used).flatMap fun i => ((List.range 2).filter fun j =>
      s.poisoned (romTags b + 128 * i + 64 * j) 64).map fun j => (i, j)
  else []

/-- A beat that a ROM recipe reads (R362). -/
def romBeat (id : Nat) (b : List Byte) (used : List Nat) (beat : Nat) : Bool :=
  let n := if id = 1 || id = 4 || id = 6 then romPayload b else romStored b
  ((romReads id b used).any fun i => inBuf (romShard b i) n beat) ||
  ((id = 2 || id = 5) && (romShards id b used).any fun i => inBuf (romTags b + 128 * i) 128 beat)

/-- The faults a ROM recipe may meet: code, relative shard, beat. Its schedule is not published, so which of them
comes first is open (R603). -/
def State.romFaults (s : State) (id e : Nat) (p : Prepared) (erased : Bool) : List (Nat × Nat × Nat) :=
  ((romOutside id e p.block p.used).map fun x => (3, x)) ++
  (if romTrap p.block then (s.romPoisons id p.block p.used).map fun x => (5, x) else []) ++
  (if erased && romCiphers id then (List.range (romK p.block)).map fun i => (4, i, 0) else [])

/-- A byte string cut at beat boundaries: position and bytes of each piece. -/
def beatPieces (pos : Nat) (bs : List Byte) : List (Nat × List Byte) :=
  if bs = [] then []
  else (List.range ((pos + bs.length - 1) / 64 - pos / 64 + 1)).map fun i =>
    let lo := Nat.max pos ((pos / 64 + i) * 64)
    let hi := Nat.min (pos + bs.length) ((pos / 64 + i + 1) * 64)
    (lo, (bs.drop (lo - pos)).take (hi - lo))

/-- A piece of a tag unwritten, written, or written in part (R603): a write of a part keeps the beat's poison (R411). -/
def State.partPiece (s : State) (pos : Nat) (bs : List Byte) (p : Bool) : State :=
  let f := s.fresh
  let s1 : State := { s with fresh := f + bs.length + 2 }
  if !Config.freeBit f then s1
  else if Config.freeBit (f + 1) then s1.writeBuf pos bs p
  else (List.range bs.length).foldl (fun (s : State) i =>
    if Config.freeBit (f + 2 + i) then s.writeBuf (pos + i) ((bs.drop i).take 1) p else s) s1

/-- A subset of the effects, as a fault or a discard leaves them: each stored beat old or new, a tag unwritten, written
or written in part, any subset of the ACCUMULATE beats (R603). -/
def State.romPart (s : State) (e : Nat) : List RomEffect → State
  | [] => s
  | x :: rest =>
    match x with
    | .tag pos bs p => State.romPart ((beatPieces pos bs).foldl (fun (s : State) (a, b) => s.partPiece a b p) s) e rest
    | _ =>
      let s1 : State := { s with fresh := s.fresh + 1 }
      State.romPart (if Config.freeBit s.fresh then s1.romEffect e x else s1) e rest

/-! ### The routine of a VERIFY leg (R192, R193, R195) -/

/-- The first poisoned beat of a range: its byte offset within the range, 0 for the beat the range begins in. -/
def State.poisonOffset (s : State) (pos n : Nat) : Option Nat :=
  (s.firstPoison pos n).map fun j => (pos / 64 + j) * 64 - pos

/-- A beat that a VERIFY leg reads (R192). -/
def verifyBeat (l : Launch) (beat : Nat) : Bool :=
  inBuf l.addr l.len beat || inBuf l.ref (if l.mode = 1 then 128 else l.len) beat

/-- The result of a VERIFY leg. -/
def State.verifyResult (s : State) (l : Launch) : LegResult :=
  let n := l.len
  let m := if l.mode = 1 then 128 else n
  let poison : Option Nat := match s.poisonOffset l.addr n, s.poisonOffset l.ref m with
    | some a, some b => some (if a ≤ b then a else 2 ^ 63 + b)
    | some a, none => some a
    | none, some b => some (2 ^ 63 + b)
    | none, none => none
  match poison with
  | some o => { status := stDataPoisoned, info := some (BitVec.ofNat 64 o) }
  | none =>
    let d := s.readBuf l.addr n
    let r := s.readBuf l.ref m
    if l.mode = 1 then
      let info := b2n (sha256 d ≠ (r.drop 40).take 32) + 2 * b2n (fieldAt r 20 4 ≠ n)
      { status := if info = 0 then stOk else stVerifyMismatch, info := some (BitVec.ofNat 64 info) }
    else match ((List.range n).find? fun i => d.getD i 0 ≠ r.getD i 0) with
      | some i => { status := stVerifyMismatch, info := some (BitVec.ofNat 64 i) }
      | none => { status := stOk, info := some 0 }

end Sys2Proof.Machine
end

