-- ==== Sys2Proof/Machine/Hamper.lean ====
section
/-! DEFINITION. RECIPE and VERIFY legs, the launch queue, preparation, the bundle ops as commands, and the ends of
recipes (R186 to R189, R192, R323, R324, R328 to R360, R365, R603, R604). -/

namespace Sys2Proof.Machine

/-! ### The launch queue (R188) -/

/-- RECIPE legs whose launch stands in the queue of 32 are marked as placed (R188, R379); slots are erased as the queue
allows (R360). -/
def State.placeLaunches (s : State) (e : Nat) : State :=
  ((s.engine e).queue.take 32).foldl (fun (s : State) l =>
    if l.recipe.isSome then s.withTrv l.port l.tag fun t => s.putTrv { t with launched := true } else s)
    (s.modEngine e Engine.erased)

/-- A launch joins the queue of an engine, behind those that wait for space. -/
def State.enqueue (s : State) (t : Trv) (l : Launch) : State :=
  ((s.putTrv { t with stage := .awaiting }).modEngine t.party fun x => { x with queue := x.queue ++ [l] }).placeLaunches
    t.party

/-- RECIPE (R186 to R188). -/
def execLegRecipe (p tag : Nat) (s : State) : Ans :=
  .next (s.perform p tag 0x23 fun t =>
    let l := t.leg
    s.enqueue t { port := p, tag, recipe := some (fieldAt l 16 2), key := fieldAt l 18 2, addr := bufPos (legAddr l)
                  len := legLen l })

/-- VERIFY (R192). -/
def execLegVerify (p tag : Nat) (s : State) : Ans :=
  .next (s.perform p tag 0x25 fun t =>
    let l := t.leg
    s.enqueue t { port := p, tag, recipe := none, key := 0xFFFF, addr := bufPos (legAddr l), len := legLen l
                  ref := bufPos (legOperand l), mode := legByte l 24 })

/-- The leg of a launch ends with a result. -/
def State.launchEnds (s : State) (l : Launch) (r : LegResult) : State :=
  s.withTrv l.port l.tag fun t =>
    if t.stage = .awaiting && (legOp t.leg = 0x23 || legOp t.leg = 0x25) then s.legDone t r else s

/-- LEG_INFO of a recipe fault (R170). -/
def faultInfo (addr lc0 lc1 code : Nat) : BitVec 64 :=
  BitVec.ofNat 64 (addr % 2 ^ 16 + lc0 % 2 ^ 16 * 2 ^ 16 + lc1 % 2 ^ 16 * 2 ^ 32 + code * 2 ^ 48)

/-- A recipe fault as its leg's result (R170, R188). -/
def faultResult (l : Launch) (addr lc0 lc1 code : Nat) : LegResult :=
  { status := if code = 6 then stRecipeProfile else stRecipeFault, info := some (faultInfo addr lc0 lc1 code)
    residual := l.len, d0 := BitVec.ofNat 8 code }

/-! ### Preparation (R351 to R356, R364, R604) -/

/-- What preparation finds: DENIED, or a fault code. -/
inductive PrepFail where
  | denied
  | fault (code : Nat)
  deriving DecidableEq, Repr

/-- A loop count, 0 meaning 65,536 (R353, R357). -/
def loopCount (n : Nat) : Nat := if n = 0 then 65536 else n

/-- Generator `g` of a store recipe's block (R354). -/
def genOf (b : List Byte) (g : Nat) : AddrGen :=
  let o := 16 * g
  let w0 := fieldAt b o 4
  { base := w0 % 2 ^ 22, n0 := w0 / 2 ^ 24, beat := (fieldAt b (o + 4) 4 % 2 ^ 22 : Nat)
    count := fieldAt b (o + 8) 4 % 2 ^ 23
    stride0 := (BitVec.ofNat 16 (fieldAt b (o + 12) 2)).toInt, stride1 := (BitVec.ofNat 16 (fieldAt b (o + 14) 2)).toInt }

/-- The beats a generator's accesses touch (R355). -/
def AddrGen.beats : Nat → AddrGen → List Int
  | 0, _ => []
  | n + 1, g => g.beat :: AddrGen.beats n g.advance

/-- AG_USE of a generator in an image. -/
def Image.use (im : Image) (g : Nat) : Nat := bitsOf im.agUse.toNat (2 * g + 1) (2 * g)

/-- A generator entry's fields are in range and agree with AG_USE (R354, R356). -/
def genOk (im : Image) (b : List Byte) (g : Nat) : Bool :=
  let o := 16 * g
  fieldAt b o 4 / 2 ^ 22 % 4 = 0 && fieldAt b (o + 4) 4 < 2 ^ 22 && fieldAt b (o + 8) 4 ≤ 4194304 &&
  (decide (im.use g = 0) == decide ((genOf b g).count = 0)) && (AddrGen.beats (genOf b g).count (genOf b g)).all fun i => 0 ≤ i

/-- The content of a store recipe's block is accepted (R353, R355, R356). -/
def storeOk (im : Image) (len : Nat) (b : List Byte) (poisons : List Nat) : Bool :=
  !(poisons.any fun j => j < 3) && len = 192 + 64 * im.preload && zeroAt b 144 48 &&
  ((List.range 8).all fun i => im.csrc.getLsbD i || fieldAt b (128 + 2 * i) 2 = 0) &&
  (List.range 8).all fun g => genOk im b g

/-- Every beat a store recipe's generators touch is declared for its use (R355). -/
def State.gensDeclared (s : State) (t : Trv) (im : Image) (b : List Byte) : Bool :=
  (List.range 8).all fun g =>
    let x := genOf b g
    (AddrGen.beats x.count x).all fun i =>
      s.rangeOk t ((x.base + i.toNat / 1024) * 65536 + 64 * (i.toNat % 1024)) 64
        (if im.use g = 1 then .read else if im.use g = 2 then .write else .accum)

/-- The key of a launch (R188, R390): none for KEY 0xFFFF, an error when the handle is not below the port's count or
the entry is empty. -/
def State.launchKey (s : State) (l : Launch) : Option (Option (BitVec 256)) :=
  if l.key = 0xFFFF then some none
  else if (s.port l.port).ap.keys ≤ l.key then none
  else (s.manage.keys.find (4096 * l.port + l.key)).map some

/-- The KEY check of R604, step 5. -/
def State.keyCheck (s : State) (l : Launch) (cipher : Bool) : Except PrepFail (Option (BitVec 256)) :=
  match s.launchKey l with
  | none => .error (.fault 4)
  | some none => if cipher then .error (.fault 4) else .ok none
  | some (some k) => .ok (some k)

/-- The parameter block of a launch, with the poisoned beats met. -/
def State.launchBlock (s : State) (l : Launch) : List Byte × List Nat :=
  (s.readBuf l.addr l.len, (List.range (l.len / 64)).filter fun j => s.poisoned (l.addr + 64 * j) 64)

/-- Preparation of a store recipe. -/
def State.prepareStore (s : State) (t : Trv) (l : Launch) (im : Image) : Except PrepFail Prepared :=
  let (b, ps) := s.launchBlock l
  if !storeOk im l.len b ps then .error (.fault 7)
  else if !s.gensDeclared t im b then .error .denied
  else (s.keyCheck l (im.flags.getLsbD 0)).map fun key => { launch := l, block := b, poisons := ps, key }

/-- Steps 4 to 6 of R604 for a ROM recipe. -/
def State.prepareRanges (s : State) (t : Trv) (l : Launch) (id : Nat) (b : List Byte) (used : List Nat) :
    Except PrepFail Prepared :=
  if !((romRanges id b used ++ romAccRanges id b).all fun (pos, n, a) => s.rangeOk t pos n a) then .error .denied
  else match s.keyCheck l (romCiphers id) with
    | .error f => .error f
    | .ok key =>
      if id = 2 && romCustom b && (gfInverse (romSystem b used)).isNone then .error (.fault 7)
      else .ok { launch := l, block := b, poisons := [], key, used }

/-- Preparation of a ROM recipe (R361, R364, R604). -/
def State.prepareRom (s : State) (t : Trv) (l : Launch) (id : Nat) : Except PrepFail Prepared :=
  let (b, ps) := s.launchBlock l
  if ps ≠ [] || !romOk id l.len b then .error (.fault 7)
  else if id ≠ 2 then s.prepareRanges t l id b []
  else
    let aux := bufPos (romAux b)
    if !s.rangeOk t aux 32 .read then .error .denied
    else
      let used := romUsed b (s.readBuf aux 32)
      if s.poisoned aux 32 || used.length < romK b then .error (.fault 7) else s.prepareRanges t l id b used

/-- Preparation of a VERIFY leg: both ranges lie in the engine's quarter (R192, R352). -/
def prepareVerify (e : Nat) (l : Launch) : Except PrepFail Prepared :=
  let home (pos n : Nat) : Bool := posQuarter pos = quarterOfParty e && posQuarter (pos + n - 1) = quarterOfParty e
  if home l.addr l.len && home l.ref (if l.mode = 1 then 128 else l.len) then
    .ok { launch := l, block := [], poisons := [], key := none }
  else .error (.fault 3)

/-- Preparation of a launch on engine `e`. -/
def State.prepare (s : State) (e : Nat) (t : Trv) (l : Launch) : Except PrepFail Prepared :=
  match l.recipe with
  | none => prepareVerify e l
  | some id =>
    if 0x8000 ≤ id then
      match (s.engine e).slots.find (id % 16) with
      | some im => s.prepareStore t l im
      | none => .error (.fault 7)
    else s.prepareRom t l id

/-- A beat that the preparation of a launch reads (R351, R362): the parameter block, and of recipe 0x0002 the outcome
record it names. -/
def State.prepBeat (s : State) (t : Trv) (l : Launch) (beat : Nat) : Bool :=
  let b := s.readBuf l.addr l.len
  let aux := bufPos (romAux b)
  l.recipe.isSome && (inBuf l.addr l.len beat ||
    (l.recipe = some 2 && romOk 2 l.len b && s.rangeOk t aux 32 .read && inBuf aux 32 beat))

/-- PREPARATION_DONE (R351, R604, R350): the entry at the front of the queue is prepared, or ends its leg. -/
def execPreparationDone (e : Nat) (s : State) : Ans :=
  .next (
    let x := s.engine e
    match x.prepared, x.queue with
    | none, l :: rest =>
      s.withTrv l.port l.tag fun t =>
        let s := s.met (s.prepBeat t l)
        match s.prepare e t l with
        | .ok p => s.setEngine e { x with prepared := some p }
        | .error f =>
          let s1 := (s.setEngine e { x with queue := rest }).placeLaunches e
          match f with
          | .denied =>
            let (info, s2) := s1.freeInfo
            s2.launchEnds l { status := stDenied, info := some info, residual := l.len }
          | .fault code => s1.launchEnds l (faultResult l 0xFFFF 0 0 code)
    | _, _ => s)

/-! ### The end of a recipe on its engine (R79, R343, R360) -/

/-- The engine has no recipe running: slots due for it are erased (R360), and a profile change it held back is generated
now (R79, R299). -/
def State.engineIdle (s : State) (e : Nat) : State :=
  let s1 := s.modEngine e fun x => Engine.erased { x with running := none, late := none, bundle := [], lands := [] }
  if !s.manage.timetable.expert && e ∈ s.manage.timetable.deferred then s1.regenerate else s1.adoptProfile e

/-- Everything the engine's recipe issued has taken effect (R155, R343, R349): its loads have landed, READs see its stores,
and every STA has been applied and counted in its destination quarter. -/
def State.staDone (s : State) (e : Nat) : Bool :=
  let x := s.engine e
  let y := s.quarter (quarterOfParty e)
  (y.rowStores.all fun r => r.engine ≠ e) && (x.lands.all fun l => decide (x.startRow + l.cycle ≤ y.absRow)) &&
  (x.sta.all fun q => q.2.isEmpty) && s.quarters.all fun q =>
    (q.2.flights.all fun f => f.engine ≠ some e) && q.2.lands.all fun l => l.engine ≠ some e

/-- A recipe that issues nothing more ends once everything it issued has taken effect. -/
def State.finishRecipe (s : State) (e : Nat) : State :=
  let x := s.engine e
  match x.running with
  | none => s
  | some p =>
    if s.staDone e then
      ((s.landAll e).engineIdle e).launchEnds p.launch (x.late.getD { status := stOk, info := some x.res })
    else s

/-- A running recipe stops with a result. -/
def State.stopRecipe (s : State) (e : Nat) (r : LegResult) : State :=
  (s.modEngine e fun x => { x with ended := true, late := some r, bundle := [] }).finishRecipe e

/-- A running store recipe faults (R349): ops issued before complete, and then the recipe ends. -/
def State.storeFault (s : State) (e code : Nat) : State :=
  let x := s.engine e
  match x.running with
  | none => s
  | some p => s.stopRecipe e (faultResult p.launch x.bundleAddr x.loop0.lc x.loop1.lc code)

/-- A bundle that is illegal as it stands faults as it comes up (R327). -/
def State.nextBundle (s : State) (e : Nat) : State :=
  let x := s.engine e
  match x.image with
  | none => s
  | some im => if !x.ended && (bundleAt im.words x.bundleAddr).isNone then s.storeFault e 2 else s

/-! ### The start of a recipe (R323, R342) -/

/-- An engine as a store recipe starts. -/
def Engine.startStore (x : Engine) (p : Prepared) (im : Image) (row : Nat) : Engine :=
  let b := p.block
  let v : Tab VReg := (List.range im.preload).map fun r =>
    (r, { data := beatOf ((b.drop (192 + 64 * r)).take 64), poison := (3 + r) ∈ p.poisons })
  let gens : Tab AddrGen := (List.range 8).map fun g => (g, genOf b g)
  let counts : Tab Nat := (List.range 8).map fun i =>
    (i, loopCount (if im.csrc.getLsbD i then fieldAt b (128 + 2 * i) 2 else im.counts.getD i 0))
  { profile := x.profile, profileNext := x.profileNext, tableProfile := x.tableProfile, queue := x.queue, slots := x.slots
    eraseSlots := x.eraseSlots, staging := x.staging, sta := x.sta, running := some p, startRow := row, v, ag := gens, agStart := gens, counts, agUse := im.agUse
    trap := im.flags.getLsbD 1 }

/-- The coefficient store of a ROM recipe: C[j][i] of its code at row j, column i (R323, R369). -/
def romCoefs (b : List Byte) : Tab Byte :=
  ((List.range (romM b)).flatMap fun j => (List.range (romK b)).map fun i => (96 * j + i, (romRow b j).getD i 0)).filter
    fun c => c.2 ≠ 0

/-- The generators that the device derives from a ROM recipe's block; how, the manual does not say (R361). -/
def romGen (b : List Byte) (g : Nat) : AddrGen :=
  let v := Config.romGenerator b g
  { base := v 0, beat := (v 1 : Nat), count := v 2, stride0 := (v 3 : Nat), stride1 := (v 4 : Nat), n0 := v 5 }

/-- An engine as a ROM recipe or a VERIFY routine starts (R323). -/
def Engine.startRom (x : Engine) (p : Prepared) (row : Nat) : Engine :=
  let b := p.block
  let gens : Tab AddrGen := if b = [] then [] else (List.range 8).map fun g => (g, romGen b g)
  { profile := x.profile, profileNext := x.profileNext, tableProfile := x.tableProfile, queue := x.queue, slots := x.slots
    eraseSlots := x.eraseSlots, staging := x.staging, sta := x.sta, running := some p, startRow := row
    coef := if b = [] then [] else romCoefs b, ag := gens, agStart := gens
    counts := if b = [] then [] else (List.range 8).map fun i => (i, Config.romCount b i % 65536 + 1) }

/-- RECIPE_START (R33, R342, R323, R324): on a frame boundary the prepared entry at the head starts, unless a profile
change waits (R188). -/
def execRecipeStart (e : Nat) (s : State) : Ans :=
  .next (
    let x := s.engine e
    match x.running, x.prepared, x.queue with
    | none, some p, _ :: rest =>
      let row := (s.quarter (quarterOfParty e)).absRow
      if x.profileNext.isSome || row % 256 ≠ 0 then s
      else
        let erased := decide (p.launch.key ≠ 0xFFFF) &&
          p.key.any fun k => s.manage.keys.find (4096 * p.launch.port + p.launch.key) != some k
        let y := { x with queue := rest, prepared := none }
        if p.launch.isStore then
          match y.slots.find (p.launch.recipe.getD 0 % 16) with
          | some im =>
            if im.profile ≠ x.profile then
              ((s.setEngine e y).placeLaunches e).launchEnds p.launch (faultResult p.launch 0xFFFF 0 0 6)
            else ((s.setEngine e { y.startStore p im row with keyErased := erased }).placeLaunches e).nextBundle e
          | none => s
        else (s.setEngine e { y.startRom p row with keyErased := erased }).placeLaunches e
    | _, _, _ => s)

/-! ### Bundle ops -/

/-- The cycle at hand is the quarter's next row, and lies below the run limit (R295, R343). -/
def State.cycleNow (s : State) (e : Nat) : Bool :=
  let x := s.engine e
  decide (x.startRow + x.cycle = (s.quarter (quarterOfParty e)).absRow) && decide (x.cycle < 2 ^ 30)

/-- The bundle at hand issues: it faults without effect, or takes effect (R336, R348, R349). -/
def State.issueBundle (s : State) (e : Nat) (im : Image) (ops : List HOp) : State :=
  let s1 := s.landDue e (s.engine e).cycle
  match (s1.engine e).bundleFault e im.words ops with
  | some code => s1.storeFault e code
  | none => (s1.bundleEffect e im.words ops).nextBundle e

/-- An op of the running store recipe: the next op of the bundle at hand; with STOP the bundle issues, in the row of its
cycle. -/
def State.hamperOp (s : State) (e : Nat) (stop : Bool) (op : HOp) : State :=
  let x := s.engine e
  match x.image with
  | none => s
  | some im =>
    if x.ended || !s.cycleNow e then s
    else match bundleAt im.words x.bundleAddr with
      | none => s
      | some ops =>
        let i := x.bundle.length
        if ops[i]? = some op && stop = decide (i + 1 = ops.length) then
          if stop then s.issueBundle e im ops else s.setEngine e { x with bundle := x.bundle ++ [op] }
        else s

/-- LD (R328). -/
def execHLd (e : Nat) (stop : Bool) (vd : BitVec 5) (ag : BitVec 3) (s : State) : Ans :=
  .next (s.hamperOp e stop (.ld vd ag))

/-- ST (R329). -/
def execHSt (e : Nat) (stop : Bool) (srcP : Bool) (reg : BitVec 5) (ag : BitVec 3) (s : State) : Ans :=
  .next (s.hamperOp e stop (.st srcP reg ag))

/-- STA (R329). -/
def execHSta (e : Nat) (stop : Bool) (srcP : Bool) (reg : BitVec 5) (ag : BitVec 3) (last : Bool) (row : BitVec 4) (col : BitVec 7) (s : State) : Ans :=
  .next (s.hamperOp e stop (.sta srcP reg ag last row col))

/-- MAC (R330). -/
def execHMac (e : Nat) (stop : Bool) (pbase np1 : BitVec 4) (vs : BitVec 5) (col : BitVec 7) (lcc clr : Bool) (s : State) : Ans :=
  .next (s.hamperOp e stop (.mac pbase np1 vs col lcc clr))

/-- GF OUT (R330). -/
def execHGfOut (e : Nat) (stop : Bool) (ps : BitVec 4) (vd : BitVec 5) (s : State) : Ans :=
  .next (s.hamperOp e stop (.gfOut ps vd))

/-- CLD (R330). -/
def execHCld (e : Nat) (stop : Bool) (row : BitVec 4) (vs : BitVec 5) (half : Bool) (s : State) : Ans :=
  .next (s.hamperOp e stop (.cld row vs half))

/-- HS INIT (R331). -/
def execHHsInit (e : Nat) (stop : Bool) (h : BitVec 2) (s : State) : Ans :=
  .next (s.hamperOp e stop (.hsInit h))

/-- UPD (R331). -/
def execHUpd (e : Nat) (stop : Bool) (h : BitVec 2) (vs : BitVec 5) (sel : BitVec 2) (s : State) : Ans :=
  .next (s.hamperOp e stop (.upd h vs sel))

/-- UPDN (R331). -/
def execHUpdn (e : Nat) (stop : Bool) (h : BitVec 2) (vs : BitVec 5) (sel : BitVec 2) (n1 : BitVec 6) (s : State) : Ans :=
  .next (s.hamperOp e stop (.updn h vs sel n1))

/-- FIN (R331). -/
def execHFin (e : Nat) (stop : Bool) (h : BitVec 2) (vd : BitVec 5) (crc : Bool) (off : BitVec 3) (s : State) : Ans :=
  .next (s.hamperOp e stop (.fin h vd crc off))

/-- HS SAVE (R331). -/
def execHHsSave (e : Nat) (stop : Bool) (h : BitVec 2) (vd : BitVec 5) (s : State) : Ans :=
  .next (s.hamperOp e stop (.hsSave h vd))

/-- HS REST (R331). -/
def execHHsRest (e : Nat) (stop : Bool) (h : BitVec 2) (vs : BitVec 5) (s : State) : Ans :=
  .next (s.hamperOp e stop (.hsRest h vs))

/-- CR INIT (R332). -/
def execHCrInit (e : Nat) (stop : Bool) (k : BitVec 2) (vs : BitVec 5) (s : State) : Ans :=
  .next (s.hamperOp e stop (.crInit k vs))

/-- ENC (R332). -/
def execHEnc (e : Nat) (stop : Bool) (k : BitVec 2) (vd vs : BitVec 5) (s : State) : Ans :=
  .next (s.hamperOp e stop (.enc k vd vs))

/-- DEC (R332). -/
def execHDec (e : Nat) (stop : Bool) (k : BitVec 2) (vd vs : BitVec 5) (s : State) : Ans :=
  .next (s.hamperOp e stop (.dec k vd vs))

/-- TAG (R332). -/
def execHCrTag (e : Nat) (stop : Bool) (k : BitVec 2) (vd : BitVec 5) (off : BitVec 3) (s : State) : Ans :=
  .next (s.hamperOp e stop (.crTag k vd off))

/-- CR SAVE (R332). -/
def execHCrSave (e : Nat) (stop : Bool) (k : BitVec 2) (vd : BitVec 5) (s : State) : Ans :=
  .next (s.hamperOp e stop (.crSave k vd))

/-- CR REST (R332, R333). -/
def execHCrRest (e : Nat) (stop : Bool) (k : BitVec 2) (vs : BitVec 5) (s : State) : Ans :=
  .next (s.hamperOp e stop (.crRest k vs))

/-- XOR (R334). -/
def execHAlXor (e : Nat) (stop : Bool) (vd va vb : BitVec 5) (s : State) : Ans :=
  .next (s.hamperOp e stop (.alXor vd va vb))

/-- AND (R334). -/
def execHAlAnd (e : Nat) (stop : Bool) (vd va vb : BitVec 5) (s : State) : Ans :=
  .next (s.hamperOp e stop (.alAnd vd va vb))

/-- OR (R334). -/
def execHAlOr (e : Nat) (stop : Bool) (vd va vb : BitVec 5) (s : State) : Ans :=
  .next (s.hamperOp e stop (.alOr vd va vb))

/-- MOV (R334). -/
def execHAlMov (e : Nat) (stop : Bool) (vd va : BitVec 5) (s : State) : Ans :=
  .next (s.hamperOp e stop (.alMov vd va))

/-- ZERO (R334). -/
def execHZero (e : Nat) (stop : Bool) (vd : BitVec 5) (s : State) : Ans :=
  .next (s.hamperOp e stop (.zero vd))

/-- INSLC (R334). -/
def execHInslc (e : Nat) (stop : Bool) (vd : BitVec 5) (off : BitVec 5) (l : Bool) (s : State) : Ans :=
  .next (s.hamperOp e stop (.inslc vd off l))

/-- NEQ (R334). -/
def execHNeq (e : Nat) (stop : Bool) (bit : BitVec 6) (va vb : BitVec 5) (s : State) : Ans :=
  .next (s.hamperOp e stop (.neq bit va vb))

/-- PTEST (R334). -/
def execHPtest (e : Nat) (stop : Bool) (bit : BitVec 6) (va : BitVec 5) (s : State) : Ans :=
  .next (s.hamperOp e stop (.ptest bit va))

/-- CT NOP (R334). -/
def execHCtNop (e : Nat) (stop : Bool) (s : State) : Ans :=
  .next (s.hamperOp e stop .nop)

/-- LOOP (R334, R339, R340). -/
def execHLoop (e : Nat) (stop : Bool) (level : Bool) (csel : BitVec 3) (endAddr : BitVec 12) (s : State) : Ans :=
  .next (s.hamperOp e stop (.loop level csel endAddr))

/-- CT IDLE (R334). -/
def execHCtIdle (e : Nat) (stop : Bool) (n1 : BitVec 12) (s : State) : Ans :=
  .next (s.hamperOp e stop (.idle n1))

/-- AGRST (R334). -/
def execHAgrst (e : Nat) (stop : Bool) (ag : BitVec 3) (s : State) : Ans :=
  .next (s.hamperOp e stop (.agrst ag))

/-- CT END (R334, R343). -/
def execHCtEnd (e : Nat) (stop : Bool) (s : State) : Ans :=
  .next (s.hamperOp e stop .endOp)

/-! ### Landings, ends and limits -/

/-- HAMPER_LOAD_LANDS (R336): the oldest load whose cycle has come lands in its register, after every earlier result; a
bundle issued at that cycle or later finds it landed in any case. -/
def execHamperLoadLands (e : Nat) (s : State) : Ans :=
  .next (
    let x := s.engine e
    match List.insertionSort (fun a b => a.cycle ≤ b.cycle)
        (x.lands.filter fun l => l.what.isLoad && (l.cycle ≤ x.cycle || x.ended)) with
    | [] => s
    | l :: _ => s.landDue e l.cycle)

/-- The end of a ROM recipe: OK with its effects, or one of the faults it may meet, with a part of its effects
(R343, R350, R603). -/
def State.romEnds (s : State) (e id : Nat) (p : Prepared) : State :=
  let (res, effects) := s.romRun id p
  let faults := s.romFaults id e p (s.engine e).keyErased
  let n := Config.freeNat s.fresh
  let s1 : State := ({ s with fresh := s.fresh + 1 } : State).met (romBeat id p.block p.used)
  -- A key erased while the recipe runs may come after its last INIT: then it does not fault (R365).
  let sure := (s.romFaults id e p false).length
  match faults[n % (if sure = 0 then faults.length + 1 else faults.length)]? with
  | some (code, i, j) =>
    (s1.romPart e effects).stopRecipe e (faultResult p.launch 0xFFFE i j code)
  | none =>
    (effects.foldl (State.romEffect e) s1).stopRecipe e { status := stOk, info := some (BitVec.ofNat 64 res) }

/-- RECIPE_END (R343, R362, R193): a recipe that has issued everything ends its leg once that has taken effect, and the
engine goes on to the next launch; a ROM recipe has issued everything now. -/
def execRecipeEnd (e : Nat) (s : State) : Ans :=
  .next (
    let x := s.engine e
    match x.running with
    | none => s
    | some p => match p.launch.recipe with
      | none => ((s.met (verifyBeat p.launch)).engineIdle e).launchEnds p.launch (s.verifyResult p.launch)
      | some id =>
        if x.ended then s.finishRecipe e else if 0x8000 ≤ id then s else s.romEnds e id p)

/-- RUN_LIMIT (R343, R350): a recipe still running 2^30 quarter cycles after its start faults. A VERIFY never does
(R193). -/
def execRunLimit (e : Nat) (s : State) : Ans :=
  .next (
    let x := s.engine e
    match x.running with
    | none => s
    | some p => match p.launch.recipe with
      | none => s
      | some id =>
        if x.ended || (s.quarter (quarterOfParty e)).absRow < x.startRow + 2 ^ 30 then s
        else if 0x8000 ≤ id then s.storeFault e 8
        else (s.romPart e (s.romRun id p).2).stopRecipe e (faultResult p.launch 0xFFFE 0xFFFF 0xFFFF 8))

end Sys2Proof.Machine
end

