-- ==== Sys2Proof/Machine/Timetable.lean ====
section
/-! DEFINITION. Timetable rows, the open arbiter, superframe boundaries, seams, beacons and stack power states (R26 to
R31, R281 to R293, R296, R303 to R307, R312 to R321, R410, R414 to R418). -/

namespace Sys2Proof.Machine

/-! ### Integrity failures (R27, R292, R312) -/

/-- A quarter raises a timetable integrity failure: TT_STAT.INTEGRITY, an INTEGRITY event and the interrupt. -/
def State.integrityFailure (s : State) (q detail row : Nat) : State :=
  ((s.modQuarter q fun x => { x with integrity := true }).tableEvent 0x04 detail q row).irq 48 3

/-- A beat without a consumer: a device-scope fault (R292, R312). -/
def State.beatAstray (s : State) (q detail row : Nat) : State := (s.integrityFailure q detail row).startDevice 0x13 none

/-! ### What a row does -/

/-- A beat to launch: its lane, the hamper engine it came from, whether it travels through the open arbiter, the SAS command
whose received data it is. -/
structure Launched where
  lane : Nat
  beat : Beat
  engine : Option Nat := none
  open_ : Bool := false
  cmd : Option (Nat × Nat) := none
  deriving DecidableEq, Repr

/-- A write of a row: its lane, what it does, the SAS command whose data it is or the hamper engine it came from. -/
structure RowWrite where
  lane : Nat
  what : RowOp
  cmd : Option (Nat × Nat) := none
  engine : Option Nat := none
  deriving DecidableEq, Repr

/-- The work of one row as its cells collect it. -/
structure RowWork where
  /-- Owner, address, finding. -/
  reads : List (Nat × Nat × Finding) := []
  writes : List RowWrite := []
  accums : List AccumBeat := []
  launches : List Launched := []
  /-- Beats handed to an owner or a port: resource ID, the address they carry, data, check word. -/
  exits : List (Nat × Option Nat × BitVec 512 × BitVec 16) := []
  /-- Beats whose CRC fails at a write or at an exit (R409, R410): their address, if they carry one. -/
  errors : List (Option Nat) := []
  /-- Lanes used in this row, and those of them that a cell's owner uses. -/
  used : List Nat := []
  owned : List Nat := []
  /-- Details of integrity failures (R321). -/
  fails : List Nat := []
  /-- Beats that enter the open buffers, each with its requester (R319). -/
  opened : List (Nat × OpenBeat) := []
  deriving DecidableEq, Repr

/-- The stack of the quarter is in self-refresh. -/
def Quarter.asleep (x : Quarter) : Bool := x.stack = .selfRefresh

/-- A lane is taken. -/
def RowWork.take (w : RowWork) (lane : Nat) : RowWork := { w with used := lane :: w.used }

/-- A beat written to the stack in a lane, checked against the CRC it carries (R409). -/
def RowWork.store (w : RowWork) (lane addr : Nat) (d : BitVec 512) (check : BitVec 16) (bad : Bool)
    (cmd : Option (Nat × Nat)) : RowWork :=
  { w.take lane with
    writes := w.writes ++ [{ lane, what := .write addr d (poisonOf d check) bad, cmd }]
    errors := if checkError d check then w.errors ++ [some addr] else w.errors }

/-- A part of a beat written in a lane, checked likewise (R409, R411). -/
def RowWork.storePart (w : RowWork) (lane addr : Nat) (bs : List Byte) (check : BitVec 16) (cmd : Option (Nat × Nat)) :
    RowWork :=
  { w.take lane with
    writes := w.writes ++ [{ lane, what := .part addr bs (poisonOf (beatOf bs) check), cmd }]
    errors := if checkError (beatOf bs) check then w.errors ++ [some addr] else w.errors }

/-- A beat that leaves the fabric, checked (R409, R410). -/
def RowWork.exit (w : RowWork) (owner : Nat) (addr : Option Nat) (d : BitVec 512) (check : BitVec 16) : RowWork :=
  if checkError d check then
    { w with exits := w.exits ++ [(owner, addr, d, checkFor d true)], errors := w.errors ++ [addr] }
  else { w with exits := w.exits ++ [(owner, addr, d, check)] }

/-- A beat accumulated in a lane. -/
def RowWork.accumulate (w : RowWork) (lane addr : Nat) (coef : Byte) (last : Bool) (b : Beat) (engine : Option Nat) : RowWork :=
  { w.take lane with
    accums := w.accums ++ [{ lane, addr, coef, last, data := b.data, poison := poisonOf b.data b.check, engine }]
    errors := if checkError b.data b.check then w.errors ++ [some addr] else w.errors }

/-- A beat without a consumer, or one for a stack in self-refresh (R292): the lane that meets it, if any. -/
def RowWork.fail (w : RowWork) (detail : Nat) (lane : Option Nat) : RowWork :=
  { w with fails := w.fails ++ [detail], used := lane.toList ++ w.used }

/-- A port takes a beat in its arrival row, at most four a row (R290); a fifth, and a beat for a port homed elsewhere, find no
consumer. DEDUCED (log 59). -/
def RowWork.toPort (w : RowWork) (q id : Nat) (addr : Option Nat) (d : BitVec 512) (check : BitVec 16) : RowWork :=
  if idHome id = q && decide ((w.exits.filter fun x => x.1 = id).length < 4) then w.exit id addr d check else w.fail 4 none

/-- Reads that one port makes in a row never exceed the four beats it can take in one (R290). -/
def RowWork.mayRead (w : RowWork) (id : Nat) : Bool := decide ((w.reads.filter fun r => r.1 = id).length < 4)

/-- A beat that arrives (R290, R291, R292). -/
def RowWork.arrive (q : Nat) (x : Quarter) (w : RowWork) (f : InFlight) : RowWork :=
  let rx := laneRx f.lane
  let inMem (dir : Nat) : Option Nat := (List.range 10).find? fun l => x.acts l dir rx && l ∉ w.used
  let b := f.beat
  if f.open_ then { w with opened := w.opened ++ [(if f.lane < 12 then 13 else 14, { beat := b, cmd := f.cmd })] }
  else if b.quarter ≠ q then
    match ((List.range 4).map (10 + ·)).find? fun l => x.acts l 2 rx && l ∉ w.used with
    | some l =>
      if laneRoute l = route q b.quarter then
        { w.take l with launches := w.launches ++ [{ lane := l, beat := b, engine := f.engine, cmd := f.cmd }] }
      else w.fail 4 (some l)
    | none => w.fail 4 none
  else match b.dest with
    | .port id => w.toPort q id b.addr b.data b.check
    | .write a => match inMem 2 with
      | some l => if x.asleep then w.fail 5 (some l) else w.store l a b.data b.check false f.cmd
      | none => w.fail 4 none
    | .part a bs => match inMem 2 with
      | some l => if x.asleep then w.fail 5 (some l) else w.storePart l a bs b.check f.cmd
      | none => w.fail 4 none
    | .accum a c last => match inMem 3 with
      | some l => if x.asleep then w.fail 5 (some l) else w.accumulate l a c last b f.engine
      | none => w.fail 4 none

/-- The owner number of a read that requester 15 makes for a SAS port homed elsewhere; requester `r` itself is 64 + r. -/
def openReader (id : Nat) : Nat := 128 + id

/-- The launch cell that takes READ data of a remote owner (R285): one of the cells in force, or, for data that a cell of
the old bank read, of that bank (R306). DEDUCED (log 59). -/
def Quarter.launchCell (x : Quarter) (q : Nat) (used : List Nat) (d : Delivery) : Option Nat :=
  let old := x.inSeam && d.row < x.absRow - x.row + 64
  ((List.range 4).map (10 + ·)).find? fun l =>
    (x.acts l 2 d.owner || (old && x.oldCell l = mkCell d.owner 2)) && laneRoute l = route q (idHome d.owner) && l ∉ used

/-- READ data on its way to an owner or port. -/
def Delivery.toBeat (d : Delivery) (id : Nat) : Beat :=
  { quarter := idHome id, dest := .port id, data := d.data, check := d.check, addr := some d.addr }

/-- READ data reaches its owner; a remote owner's goes into the launch cell that names it (R285, R287), and what
requester 15 has read for a SAS port homed elsewhere it holds. -/
def RowWork.deliver (q : Nat) (x : Quarter) (w : RowWork) (d : Delivery) : RowWork :=
  if openReader 0 ≤ d.owner then { w with opened := w.opened ++ [(15, { beat := d.toBeat (d.owner - openReader 0) })] }
  else if (isHP d.owner || isSP d.owner) && idHome d.owner ≠ q then
    match x.launchCell q w.used d with
    | some l =>
      { w.take l with launches := w.launches ++ [{ lane := l, beat := d.toBeat d.owner }] }
    | none => w
  else if isHP d.owner || isSP d.owner then w.toPort q d.owner (some d.addr) d.data d.check
  else w.exit d.owner (some d.addr) d.data d.check

/-- What the owner of a cell that is not a hamper engine, a SAS port or a bridge does with it (R285, R286). -/
def RowWork.use (q : Nat) (x : Quarter) (w : RowWork) (u : LaneUse) : RowWork :=
  let c := x.cell u.lane
  let id := cellOwner c
  if u.lane ∈ w.used || isHE id || isRX id || isSP id || id = 0 || 14 ≤ u.lane then w
  else match u.use with
    | .read a f =>
      if u.lane < 10 && cellDir c = 1 && a / 2 ^ 36 = q && (!isHP id || w.mayRead id) then
        if x.asleep then w.fail 5 (some u.lane) else { w.take u.lane with reads := w.reads ++ [(id, a, f)] }
      else w
    | .write a d check bad =>
      if u.lane < 10 && cellDir c = 2 && a / 2 ^ 36 = q then
        if x.asleep then w.fail 5 (some u.lane) else w.store u.lane a d check bad none
      else w
    | .launch b =>
      if 10 ≤ u.lane && cellDir c = 2 && laneRoute u.lane = route q b.quarter then
        { w.take u.lane with launches := w.launches ++ [{ lane := u.lane, beat := b }] }
      else w

/-- The loads and stores of the engines' bundles in this row (R288). -/
def RowWork.slots (x : Quarter) (w : RowWork) : RowWork :=
  { w with
    used := x.rowUsed ++ w.used
    writes := w.writes ++ x.rowStores.map fun r =>
      { lane := r.lane, what := .write r.addr r.data r.poison false, engine := some r.engine } }

/-- What a row's operand finds in the beat that is read (R410). -/
def findingOf : CellUse → Finding
  | .read _ f => f
  | _ => .sound

/-- What the row's operands find in a beat that a SAS port reads in a lane. -/
def findingIn (uses : List LaneUse) (lane : Nat) : Finding := match uses.find? fun u => u.lane = lane with
  | some u => findingOf u.use
  | none => .sound

/-- A fill slot serves the port's next bytes for memory (R264, R285): a WRITE cell when they lie in this quarter, a LAUNCH
cell on their route otherwise. -/
def fillsIn (q lane pos : Nat) : Bool :=
  if posQuarter pos = q then lane < 10 else 10 ≤ lane && laneRoute lane = route q (posQuarter pos)

/-- A beat of received data on its way to another quarter's stack, with the CRC it receives here (R264, R409). -/
def fillBeat (pos : Nat) (bs : List Byte) : Beat :=
  { quarter := posQuarter pos, dest := if bs.length = 64 then .write (bufAddr pos) else .part (bufAddr pos) bs
    data := beatOf bs, check := checkFor (beatOf bs) false }

/-- A WRITE or LAUNCH cell of a SAS port takes the next bytes of its receive half, which receive their CRC here (R264,
R409): whole beats are written, parts merged (R411). -/
def State.fillSlot (s : State) (q : Nat) (x : Quarter) (w : RowWork) (lane c : Nat) : State × RowWork :=
  match (s.chain c).nextFill with
  | none => (s, w)
  | some (id, pos, bs) =>
    if !fillsIn q lane pos then (s, w)
    else
      let s1 := s.modChain c SasPort.filled
      let a := bufAddr pos
      let d := beatOf bs
      let whole := decide (bs.length = 64)
      if lane < 10 then
        (s1, if x.asleep then w.fail 5 (some lane)
             else if whole then w.store lane a d (checkFor d false) false (some (c, id))
             else w.storePart lane a bs (checkFor d false) (some (c, id)))
      else
        (s1, { w.take lane with launches := w.launches ++ [{ lane, beat := fillBeat pos bs, cmd := some (c, id) }] })

/-- A command of a port has changed. -/
def State.replaceCmd (s : State) (c : Nat) (e : Cmd) : State :=
  s.modChain c fun y => { y with cmds := y.cmds.map fun u => if u.id = e.id then e else u }

/-- A command of a port asks for `n` bytes of the beat that holds a buffer position. -/
def State.askPull (s : State) (c : Nat) (d : Cmd) (pos n : Nat) : State :=
  s.replaceCmd c { d with pulls := d.pulls ++ [{ beat := bufAddr (pos / 64 * 64), lo := pos % 64, n }] }

/-- A READ cell of a SAS port reads the next beat that a command of the port sends (R265, R285). -/
def State.drainSlot (s : State) (q : Nat) (x : Quarter) (uses : List LaneUse) (w : RowWork) (lane c : Nat) :
    State × RowWork :=
  match (s.chain c).reader with
  | none => (s, w)
  | some d =>
    let (a, n) := d.nextRead
    match a with
    | none => (s.replaceCmd c (if d.pulls = [] then d.readAhead (List.replicate n 0) else d), w)
    | some pos =>
      if posQuarter pos ≠ q || !w.mayRead (0x10 + c) then (s, w)
      else if x.asleep then (s, w.fail 5 (some lane))
      else
        (s.askPull c d pos n,
         { w.take lane with reads := w.reads ++ [(0x10 + c, bufAddr (pos / 64 * 64), findingIn uses lane)] })

/-- A reserved slot of a SAS port in a row (R264, R265). -/
def State.portSlot (s : State) (q : Nat) (x : Quarter) (uses : List LaneUse) (w : RowWork) (lane : Nat) : State × RowWork :=
  let cell := x.cell lane
  let id := cellOwner cell
  if lane ∈ w.used || !isSP id then (s, w)
  else if cellDir cell = 2 && idHome id = q then s.fillSlot q x w lane (id - 0x10)
  else if cellDir cell = 1 && lane < 10 then s.drainSlot q x uses w lane (id - 0x10)
  else (s, w)

/-- An accumulate cell of a hamper engine takes the oldest beat of its path's queue (R296). -/
def State.takeSta (s : State) (x : Quarter) (w : RowWork) (lane : Nat) : State × RowWork :=
  let id := cellOwner (x.cell lane)
  let e := id - 0x20
  let path := if lane < 10 then 0 else laneRoute lane
  if lane ∈ w.used || !isHE id || !(x.acts lane (if lane < 10 then 3 else 2) id) then (s, w)
  else match (s.engine e).sta.get path [] with
    | [] => (s, w)
    | b :: rest =>
      let s1 := s.modEngine e fun y => { y with sta := if rest = [] then y.sta.erase path else y.sta.set path rest }
      let beat : Beat := { quarter := b.addr / 2 ^ 36, dest := .accum b.addr b.coef b.last, data := b.data
                           check := checkFor b.data b.poison }
      if lane < 10 then
        (s1, if x.asleep then w.fail 5 (some lane) else w.accumulate lane b.addr b.coef b.last beat (some e))
      else (s1, { w.take lane with launches := w.launches ++ [{ lane, beat, engine := some e }] })

/-- A load or store slot of an engine that runs a ROM recipe or a VERIFY is used as the recipe's own schedule has it (R286),
which the manual does not publish (R362): a free value for each recipe, cycle and lane. -/
def State.slotTaken (s : State) (x : Quarter) (lane : Nat) : Bool :=
  let c := x.cell lane
  let e := s.engine (cellOwner c - 0x20)
  isHE (cellOwner c) && lane < 10 && cellDir c ≠ 3 && match e.running with
    | some p => !p.launch.isStore && Config.romSlot (p.launch.recipe.getD 0) (x.absRow - e.startRow) lane
    | none => false

/-- Lanes the row leaves to the open arbiter (R286). -/
def State.freeLanes (s : State) (x : Quarter) (w : RowWork) : List Nat :=
  (List.range 14).filter fun l =>
    l ∉ w.used && x.cell l ≠ 1 && x.cell l ≠ idleCell && !s.slotTaken x l &&
      !(x.secondRow l && x.accumLanes.get l false)

/-! ### The open arbiter (R313 to R320) -/

/-- The neighbour a route leads to. -/
def routeQuarter (q r : Nat) : Nat := if r = 1 then (q + 1) % 4 else (q + 3) % 4

/-- Room for one more open beat at the receiving side of a bridge (R319). -/
def State.openRoom (s : State) (q r : Nat) : Bool :=
  let y := s.quarter (routeQuarter q r)
  let key := if r = 1 then 13 else 14
  (y.openBuffers.get key []).length +
    (y.flights.filter fun f => f.open_ && (f.lane < 12) = (r = 1)).length < 64

/-- What requester 15 serves next for the SAS ports (R313, R318): a beat it has read for a port homed elsewhere, data that a
port of the quarter has received for another quarter's stack, a read of this stack that a port homed elsewhere needs. -/
inductive SasTurn where
  | held (b : OpenBeat)
  | fill (c id pos : Nat) (bytes : List Byte)
  | pull (c : Nat) (cmd : Cmd) (pos n : Nat)

/-- Data that a port of the quarter has received for another quarter's stack; the lowest port first. -/
def State.crossingFill (s : State) (q : Nat) : Option SasTurn := (List.range 3).findSome? fun i =>
  match (s.chain (3 * q + i)).nextFill with
  | some (id, pos, bs) => if posQuarter pos = q then none else some (.fill (3 * q + i) id pos bs)
  | none => none

/-- A read of the quarter's stack for a port homed elsewhere; the lowest port first. -/
def State.crossingPull (s : State) (q : Nat) : Option SasTurn := (List.range 12).findSome? fun c =>
  if c / 3 = q then none
  else match (s.chain c).reader with
    | some d => match d.nextRead with
      | (some pos, n) => if posQuarter pos = q then some (.pull c d pos n) else none
      | (none, _) => none
    | none => none

/-- Requester 15's turn. DESIGN CHOICE (log 62): the rules give no order among its ports, and do not say which quarter's
requester 15 makes a read. -/
def State.sasTurn (s : State) (q : Nat) : Option SasTurn := match (s.quarter q).openBuffers.get 15 [] with
  | b :: _ => some (.held b)
  | [] => match s.crossingFill q with
    | some t => some t
    | none => s.crossingPull q

/-- A requester has something to ask for (R313): a block move of its group, a run of its DMA channel, a created port, an
open beat, data of a SAS port that crosses quarters. -/
def State.hasWork (s : State) (q req : Nat) : Bool :=
  if req < 3 then (partyCores (3 * q + req)).any fun k => (s.core k).ctxs.any fun c => c.2.moves ≠ []
  else if req < 11 then (s.channel (8 * q + (req - 3))).busy
  else if req = 11 then true
  else if req = 12 then s.ports.any fun p => p.2.created && p.2.bar4En
  else if req < 15 then (s.quarter q).openBuffers.get req [] ≠ []
  else req = 15 && (s.sasTurn q).isSome

/-- What a requester asks for in a row, to whom the data of a read goes, and the SAS command whose data it is. -/
structure OpenTurn where
  use : CellUse
  reader : Nat := 0
  cmd : Option (Nat × Nat) := none

/-- What a requester asks for: requesters 13 and 14 for the oldest beat of their open buffer, requester 15 for the transfers
of the SAS ports, others for a beat of this quarter's stack or a crossing. -/
def State.openTurn (s : State) (q : Nat) (o : OpenAsk) : Option OpenTurn :=
  if o.req = 13 || o.req = 14 then
    match (s.quarter q).openBuffers.get o.req [] with
    | [] => none
    | b :: _ => some { use := .launch b.beat, cmd := b.cmd }
  else if o.req = 15 then
    match s.sasTurn q with
    | some (.held b) => some { use := .launch b.beat }
    | some (.fill c id pos bs) => some { use := .launch (fillBeat pos bs), cmd := some (c, id) }
    | some (.pull c _ pos _) => some { use := .read (bufAddr (pos / 64 * 64)) (findingOf o.use), reader := openReader (0x10 + c) }
    | none => none
  else match o.use with
    | .read a f => if a / 2 ^ 36 = q then some { use := .read a f, reader := 64 + o.req } else none
    | .write a d c bad => if a / 2 ^ 36 = q then some { use := .write a d c bad } else none
    | .launch b => if b.quarter = q then none else some { use := .launch b }

/-- The transfer of a requester's turn has been granted: what it held is gone, and a port's command awaits what is read. -/
def State.turnTaken (s : State) (q req : Nat) : State :=
  let drop (s : State) : State := s.modQuarter q fun x =>
    { x with openBuffers := x.openBuffers.set req ((x.openBuffers.get req []).drop 1) }
  if req = 13 || req = 14 then drop s
  else if req = 15 then
    match s.sasTurn q with
    | some (.held _) => drop s
    | some (.fill c _ _ _) => s.modChain c SasPort.filled
    | some (.pull c d pos n) => s.askPull c d pos n
    | none => s
  else s

/-- A request addresses the quarter's own stack. -/
def stackUse (q : Nat) : CellUse → Bool
  | .read _ _ => true
  | .write _ _ _ _ => true
  | .launch b => b.quarter = q && match b.dest with
    | .port _ => false
    | _ => true

/-- The cell that serves a request, if one is free; a beat for a port of this quarter needs none (15). -/
def State.cellFor (s : State) (q : Nat) (free : List Nat) (u : CellUse) : Option Nat :=
  match u with
  | .launch b =>
    if b.quarter = q then (if stackUse q u then free.find? fun l => l < 10 else some 15)
    else
      let r := route q b.quarter
      if s.openRoom q r then free.find? fun l => 10 ≤ l && laneRoute l = r else none
  | _ => free.find? fun l => l < 10

/-- Requesters that ask in this row: not masked, with work, back-off over, stack reachable. -/
def State.asking (s : State) (q : Nat) (asks : List OpenAsk) : List (OpenAsk × OpenTurn) :=
  let x := s.quarter q
  asks.filterMap fun o =>
    match s.openTurn q o with
    | some u =>
      if s.hasWork q o.req && !s.sideband q o.req && (x.requesters.get o.req {}).again ≤ x.absRow &&
          (!stackUse q u.use || x.reachable) then some (o, u)
      else none
    | none => none

/-- The winner: most consecutive losses, then the lower number. -/
def Quarter.winner (x : Quarter) (l : List (OpenAsk × OpenTurn)) : Option (OpenAsk × OpenTurn) :=
  l.foldl (fun best c => match best with
    | none => some c
    | some b =>
      let lb := (x.requesters.get b.1.req {}).losses
      let lc := (x.requesters.get c.1.req {}).losses
      if lb < lc || (lb = lc && c.1.req < b.1.req) then some c else best) none

/-- One consecutive loss more: back-off, and starvation, reported once, past the threshold (R315, R316). -/
def State.loses (s : State) (q req : Nat) (stack : Bool) : State :=
  let x := s.quarter q
  let r := x.requesters.get req {}
  let k := r.losses + 1
  let starves := decide (x.starveLimit.toNat < k) && !r.fired
  let again := x.absRow + 1 + Nat.min (2 ^ (k - 1)) 64
  let y : Requester := { losses := k, again, fired := r.fired || starves, stack }
  let s1 := s.setQuarter q { x with requesters := x.requesters.set req y }
  if starves then
    ((s1.modQuarter q fun x => { x with starved := x.starved ||| BitVec.ofNat 16 (2 ^ req) }).tableEvent 0x02 req q
      x.row).irq 48 3
  else s1

/-- The masks of a row: a masked requester's losses return to 0 (R317). -/
def State.maskAsks (s : State) (q : Nat) (asks : List OpenAsk) : State :=
  s.modQuarter q fun x =>
    let on := fun i => asks.any fun o => o.req = i && o.masked
    let off := fun i => asks.any fun o => o.req = i && !o.masked
    { x with
      masked := (List.range 16).foldl (fun (m : BitVec 16) i =>
        if on i then m ||| BitVec.ofNat 16 (2 ^ i) else if off i then m &&& ~~~(BitVec.ofNat 16 (2 ^ i)) else m) x.masked
      requesters := x.requesters.filter fun r => !s.sideband q r.1 }

/-- Open requests for a sleeping stack start its wake (R418). -/
def State.wakeAsked (s : State) (q : Nat) (asks : List OpenAsk) : State :=
  if asks.any fun o => s.hasWork q o.req && !s.sideband q o.req && match s.openTurn q o with
      | some u => stackUse q u.use
      | none => false
  then s.wakeStack q else s

/-- The granted transfer joins the row's work. -/
def RowWork.grant (w : RowWork) (lane q : Nat) (u : OpenTurn) : RowWork :=
  match u.use with
  | .read a f => { w.take lane with reads := w.reads ++ [(u.reader, a, f)] }
  | .write a d c bad => w.store lane a d c bad none
  | .launch b =>
    if b.quarter = q then match b.dest with
      | .accum a c last => w.accumulate lane a c last b none
      | .write a => w.store lane a b.data b.check false u.cmd
      | .part a bs => w.storePart lane a bs b.check u.cmd
      | .port id => w.toPort q id b.addr b.data b.check
    else { w.take lane with launches := w.launches ++ [{ lane, beat := b, open_ := true, cmd := u.cmd }] }

/-- The losers of a row; one whose mask asserts in it counts no loss, and its losses return to 0 (R315, R317). -/
def State.losers (s : State) (q : Nat) (l : List (OpenAsk × OpenTurn)) : State :=
  l.foldl (fun (s : State) (o, u) =>
    if o.masked then s.modQuarter q fun x => { x with requesters := x.requesters.erase o.req }
    else s.loses q o.req (stackUse q u.use)) s

/-- The open arbiter's row (R314, R315, R317, R318, R322): one grant at most, a loss for everyone else who asked. A requester
masked since an earlier row asks in vain; the grant of one that withdraws, or whose mask asserts in the row, carries
nothing. -/
def State.arbitrate (s : State) (q : Nat) (w : RowWork) (asks : List OpenAsk) : State × RowWork :=
  let live := asks.filter fun o => !(o.masked && (s.quarter q).masked.getLsbD o.req)
  let s1 := (s.maskAsks q asks).wakeAsked q live
  let x := s1.quarter q
  let free := s1.freeLanes x w
  let asking := s1.asking q live
  match x.winner (asking.filter fun (_, u) => (s1.cellFor q free u.use).isSome) with
  | none => (s1.losers q asking, w)
  | some (o, u) =>
    let s2 := s1.losers q (asking.filter fun (p, _) => p.req ≠ o.req)
    let s3 := s2.modQuarter q fun x => { x with requesters := x.requesters.erase o.req }
    if o.masked || (o.withdraws && x.mode ≠ 0) then (s3, w)
    else (s3.turnTaken q o.req, w.grant ((s1.cellFor q free u.use).getD 0) q u)

/-! ### Reads of the stack (R409, R410, R413, R414, R415) -/

/-- What a read finds in a beat: whether it is delivered poisoned, the event, and the flaw that stays (R410). -/
def State.found (s : State) (addr : Nat) (f : Finding) : Bool × Option Nat × Option Flaw :=
  let beat := addr / 64
  let d := s.readBeat addr
  match f with
  | .checkWord w =>
    if w = checkFor d false || w = checkFor d true then
      match s.flaws.find beat with
      | some (.word v) => (true, some 0x01, some (.word v))
      | some .ecc => (true, some 0x02, some .ecc)
      | some .checkBeat => (true, some 0x03, some .checkBeat)
      | none => (w = checkFor d true || decide (beat ∈ s.poison), none, none)
    else (true, some 0x01, some (.word w))
  | .eccUncorrectable => (true, some 0x02, some .ecc)
  | .checkRegion => (true, some 0x03, some .checkBeat)
  | _ => match s.flaws.find beat with
    | some (.word w) => (true, some 0x01, some (.word w))
    | some .ecc => (true, some 0x02, some .ecc)
    | some .checkBeat => (true, some 0x03, some .checkBeat)
    | none => (decide (beat ∈ s.poison), none, none)

/-- A finding stays with the stored beat, so that every later read meets it; its event is recorded, a corrected error
counted (R410, R414, R415). -/
def State.finding (s : State) (q addr : Nat) (f : Finding) : State :=
  let beat := addr / 64
  let (bad, ev, flaw) := s.found addr f
  let beats := if flaw = some .checkBeat then (List.range 32).map (beat / 32 * 32 + ·) else [beat]
  let s1 : State := { s with
    poison := beats.foldl (fun m b => setMember m b bad) s.poison
    flaws := match flaw with
      | some x => beats.foldl (fun t b => t.set b x) s.flaws
      | none => s.flaws.erase beat }
  let s2 := match ev with
    | some k => s1.beatEvent k beat
    | none => s1
  let s3 := if f = .corrected then s2.modQuarter q fun x => { x with eccCorr := if x.eccCorr = BitVec.allOnes 64 then x.eccCorr else x.eccCorr + 1 } else s2
  s3.firmwareRead (beat * 64) 64

/-! ### A row (R285 to R293) -/

/-- The cells' work of a row: arrivals, deliveries, the owners' uses, the engines' slots, the SAS ports' slots, the engines'
accumulate cells, the arbiter. -/
def State.rowWork (s : State) (q : Nat) (uses : List LaneUse) (asks : List OpenAsk) : State × RowWork :=
  let x := s.quarter q
  let w1 := (x.flights.filter fun f => f.row ≤ x.absRow).foldl (RowWork.arrive q x) {}
  let w2 := (x.deliveries.filter fun d => d.row ≤ x.absRow).foldl (RowWork.deliver q x) w1
  let w3 := (uses.foldl (RowWork.use q x) w2).slots x
  let (s0, w30) := (List.range 14).foldl (fun (s, w) l => s.portSlot q x uses w l) (s, w3)
  let (s1, w4) := (List.range 14).foldl (fun (s, w) l => s.takeSta x w l) (s0, w30)
  s1.arbitrate q { w4 with owned := w4.used } asks

/-- Launched beats on their way: 512 rows to the neighbour (R30, R290). -/
def State.send (s : State) (q row : Nat) (l : Launched) : State :=
  let f : InFlight :=
    { row := row + 512, lane := l.lane, beat := l.beat, engine := l.engine, open_ := l.open_, cmd := l.cmd }
  s.modQuarter (laneNext q l.lane) fun y => { y with flights := y.flights ++ [f] }

/-- The collector cell of a row: which of its party's cells in this frame it is, and so whose record it takes (R293). -/
def Quarter.collectorEngine (x : Quarter) : Option Nat :=
  let c := x.cell 14
  let party := cellOwner c - 0x30
  if cellDir c = 2 && 0x30 ≤ cellOwner c && cellOwner c ≤ 0x3B then
    let k := ((List.range (x.row % 256)).filter fun i =>
      rowByte (bankRow x.activeBank (x.row / 256 * 256 + i)) 14 = c).length
    if k < 4 then some (4 * party + k) else none
  else none

/-- The first record that waits for an engine's collector slot becomes a record of this frame. -/
def takeRecord (e frame : Nat) : List CollectorRec → List CollectorRec
  | [] => []
  | r :: t =>
    if r.engine = some e && r.frame.isNone then { r with frame := some frame } :: t else r :: takeRecord e frame t

/-- The row's collector cell takes one record (R37, R293). -/
def State.collectorCell (s : State) (q : Nat) : State :=
  let x := s.quarter q
  match x.collectorEngine with
  | some e => ({ s with collector := takeRecord e (x.absRow / 256) s.collector } : State).settleNotices
  | none => s

/-- A beat with its bytes from `lo` on, `n` of them, made 0. -/
def blankBytes (d : BitVec 512) (lo n : Nat) : BitVec 512 :=
  beatOf (patchBytes (beatBytes d) lo (List.replicate n 0))

/-- A later write of `n` bytes hides the data of accumulates before it that READs do not see yet; one of a whole beat their
poison as well (R288, R411). -/
def RowLand.under (addr n : Nat) (l : RowLand) : RowLand := match l.what with
  | .accum b =>
    if b.addr / 64 = addr / 64 then
      { l with what := .accum { b with data := blankBytes b.data (addr % 64) n, poison := b.poison && decide (n < 64) } }
    else l
  | _ => l

/-- A whole beat written (R411): a check-region beat that cannot take its word is rewritten, and the other 31 beats it covers
are poisoned. -/
def State.writeRow (s : State) (addr : Nat) (d : BitVec 512) (p bad : Bool) : State :=
  let beat := addr / 64
  let s1 := if bad then
      let others := ((List.range 32).map (beat / 32 * 32 + ·)).filter fun b => b ≠ beat
      { s with poison := others.foldl (fun m b => setMember m b true) s.poison
               flaws := s.flaws.filter fun x => x.1 / 32 ≠ beat / 32 }
    else s
  s1.writeBeat addr d p

/-- The writes and accumulates that READs see from this row on reach the stack, in their order (R287, R288); a contribution is
counted 24 rows after its cell (R378). -/
def State.landRow (s : State) (q : Nat) : State :=
  let x := s.quarter q
  let (s1, rest) := x.lands.foldl (fun ((s, rest) : State × List RowLand) l =>
    if x.absRow < l.due then (s, rest ++ [l])
    else match l.what with
      | .write a d p bad => (s.writeRow a d p bad, rest.map (RowLand.under (a / 64 * 64) 64))
      | .part a bs p => (s.writePhys a bs p, rest.map (RowLand.under a bs.length))
      | .accum b =>
        (s.accumBeat b.addr b.coef b.data b.poison,
         if b.last then rest ++ [{ due := l.due + 16, what := .count b.addr, engine := l.engine }] else rest)
      | .count a => (s.countAt a, rest)) (s, [])
  s1.modQuarter q fun y => { y with lands := rest }

/-- A beat handed to a SAS port goes to the command that waits for it (R265, R285). -/
def State.portTakes (s : State) (owner : Nat) (addr : Option Nat) (d : BitVec 512) (check : BitVec 16) : State :=
  match addr with
  | some a => if isSP owner then s.modChain (owner - 0x10) fun x => x.arrives a (beatBytes d) (poisonOf d check) else s
  | none => s

/-- A row's work takes effect (R285, R287, R288): reads return old data; writes in lane order, then accumulates, join
the stack's work. -/
def State.rowEffect (s : State) (q : Nat) (w : RowWork) : State :=
  let x := s.quarter q
  let a := x.absRow
  let reads := w.reads.map fun (owner, addr, f) =>
    let d := s.readBeat addr
    ({ row := a + 64, owner, addr, data := d, check := checkFor d (s.found addr f).1 } : Delivery)
  let writes := (List.insertionSort (fun (a b : RowWrite) => a.lane ≤ b.lane) w.writes).map fun u =>
    ({ due := a + 2, what := u.what, cmd := u.cmd, engine := u.engine } : RowLand)
  let accums := (List.insertionSort (fun (a b : AccumBeat) => a.lane ≤ b.lane) w.accums).map fun b =>
    ({ due := a + 8, what := .accum b, engine := b.engine } : RowLand)
  let x1 := { x with
    flights := x.flights.filter fun f => a < f.row
    deliveries := (x.deliveries.filter fun d => a < d.row) ++ reads
    lands := x.lands ++ writes ++ accums, rowUsed := [], rowStores := []
    openBuffers := w.opened.foldl (fun b (k, beat) => b.set k (b.get k [] ++ [beat])) x.openBuffers
    accumLanes := ((List.range 10).filter fun l => cellDir (x.cell l) = 3 && x.cell l ≠ 3 && !x.secondRow l).map
      fun l => (l, decide (l ∈ w.owned)) }
  let s1 := w.launches.foldl (fun (s : State) l => s.send q a l) (s.setQuarter q x1)
  let s2 := w.exits.foldl (fun (s : State) (o, addr, d, c) => (s.emit (.beat q o a d c)).portTakes o addr d c) s1
  let s3 := w.reads.foldl (fun (s : State) (_, addr, f) => s.finding q addr f) s2
  let s4 := w.errors.foldl (fun (s : State) o => match o with
    | some addr => s.beatEvent 0x01 (addr / 64)
    | none => s.memoryEvent q 0x01 0x3FFFFF 0) s3
  w.fails.foldl (fun (s : State) d => s.beatAstray q d x.row) s4

/-- A command whose RESPONSE came before its data had landed ends once it has (R173, R264). -/
def State.answerSettled (s : State) (c : Nat) : State :=
  match (s.chain c).cmds.find? fun d => d.answer.isSome && s.landed c d with
  | some d => (s.endCmd c d (d.ends stOk 0 0) false).recoverySettle d.handle
  | none => s

/-- The same of every chain. -/
def State.settleAnswers (s : State) : State := (List.range 12).foldl State.answerSettled s

/-- The row counters move on; quarter 0 counts the device's frames (R26, R280). -/
def State.nextRow (s : State) (q : Nat) : State :=
  let s1 := (s.modQuarter q fun x => { x with row := x.row + 1, absRow := x.absRow + 1 }).landRow q
  let y := s1.quarter 0
  if q = 0 then { s1 with frame := (y.absRow - if y.row = 4096 then 1 else 0) / 256 } else s1

/-- A bundle of a store recipe still has to issue in the quarter's next row (R29, R295). -/
def State.bundleDue (s : State) (q : Nat) : Bool :=
  (List.range 3).any fun i =>
    let x := s.engine (3 * q + i)
    x.image.isSome && !x.ended && x.cycle < 2 ^ 30 && x.startRow + x.cycle ≤ (s.quarter q).absRow

/-- TIMETABLE_ROW (R285, R312): the quarter executes its next row, once the engines' bundles of that row have issued;
after row 1,023 of a seam its end is due (R306), after the last row a superframe boundary. -/
def execTimetableRow (q : Nat) (ecc : RowEcc) (uses : List LaneUse) (asks : List OpenAsk) (s : State) : Ans :=
  .next (
    let x := s.quarter q
    if s.held || 4096 ≤ x.row || s.bundleDue q || (x.seam && 1024 ≤ x.row) then s
    else match ecc with
      | .uncorrectable => (s.integrityFailure q 1 x.row).restart 0x21
      | _ =>
        let s1 := if ecc = .corrected then
            (s.modQuarter q fun x => { x with corrected := true }).tableEvent 0x03 0 q x.row
          else s
        let (s2, w) := s1.rowWork q uses asks
        (((s2.rowEffect q w).collectorCell q).nextRow q).settleAnswers)

/-! ### Boundaries and seams (R26, R304 to R306, R416 to R418) -/

/-- The banks of a quarter swap (R304): the seam begins, the engines' profiles that the new table was made for come into
force, and full tables end EXITING. -/
def State.swap (s : State) (q : Nat) : State :=
  let x := s.quarter q
  let y := { x with
    active := !x.active, shadowArm := false, seam := true, oldBank := x.activeBank
    stack := if x.stack = .exiting && !x.waking && x.armedKind = .full then .active else x.stack }
  let s1 := (s.setQuarter q y).tableEvent 0x01 (b2n y.active) q 0
  (List.range 3).foldl (fun (s : State) i => s.bringProfile (3 * q + i)) s1

/-- A frame beacon on its way to a quarter (R26, R28). -/
def State.beaconTo (s : State) (q : Nat) (count : BitVec 32) (delay : Nat) : State :=
  s.modQuarter q fun x => { x with beacons := x.beacons ++ [(count, delay)] }

/-- SUPERFRAME_BOUNDARY (R26, R304): after row 4,095 the count increments, an armed swap whose count is reached exchanges
the banks, and quarter 0 emits the beacon upward and downward. -/
def execSuperframeBoundary (q : Nat) (s : State) : Ans :=
  .next (
    let x := s.quarter q
    if s.held || x.row < 4096 then s
    else
      let y := { x with sf := x.sf + 1, row := 0, beaconSeen := false }
      let s1 := s.setQuarter q y
      let s2 := if q = 0 then
          (({ s1 with frame := y.absRow / 256 } : State).beaconTo 1 y.sf 0).beaconTo 3 y.sf 0
        else s1
      if y.shadowArm && y.swapAt = y.sf then s2.swap q else s2)

/-- Tables that wait for free shadow banks are generated (R322); at the expert level nothing is generated, and a stack
that has left self-refresh is ACTIVE (R418). -/
def State.generateDue (s : State) : State :=
  if !s.manage.timetable.due || s.swapBusy then s
  else if s.manage.timetable.expert then
    let s1 := (List.range 4).foldl (fun (s : State) q => s.modQuarter q fun x =>
      if x.stack = .exiting && !x.waking then { x with stack := .active } else x) s
    { s1 with manage := { s1.manage with timetable := { s1.manage.timetable with due := false } } }
  else s.generate

/-- A stack enters SELF-REFRESH (R415, R417). -/
def State.enterSelfRefresh (s : State) (q : Nat) : State :=
  (s.modQuarter q fun x => { x with stack := .selfRefresh, waking := false }).memoryEvent q 0x05 0x3FFFFF 0

/-- SEAM_END (R306, R417, R418): after row 1,023 the new bank governs; a stack in ENTERING whose tables of open cells are
in force enters SELF-REFRESH, or returns through full tables if a wake came; one that a wake reached before its tables of
open cells were made is ACTIVE under the full ones. -/
def execSeamEnd (q : Nat) (s : State) : Ans :=
  .next (
    let x := s.quarter q
    if !x.seam || x.row < 1024 then s
    else
      let s1 := s.setQuarter q { x with seam := false, oldBank := [] }
      let s2 :=
        if x.stack ≠ .entering then s1
        else if x.armedKind = .openCells then
          if x.waking then
            (s1.modQuarter q fun x => { x with stack := .exiting, waking := false }).regenerate
          else s1.enterSelfRefresh q
        else if x.waking then s1.modQuarter q fun x => { x with stack := .active, waking := false }
        else s1
      s2.generateDue)

/-! ### Beacons (R26 to R28) -/

/-- FRAME_BEACON (R27, R28): the oldest beacon on its way, which carries `count`, arrives; quarter 1 relays it upward. A
count that differs from the quarter's own restarts the device. -/
def execFrameBeacon (q : Nat) (count : BitVec 32) (s : State) : Ans :=
  .next (
    let x := s.quarter q
    match x.beacons with
    | [] => s
    | (c, _) :: rest =>
      if c ≠ count then s else
      let s1 := s.setQuarter q { x with beacons := rest, beaconSeen := true }
      if !x.aligned then s1
      else if count ≠ x.sf then (s.integrityFailure q 2 0).restart 0x21
      else if q = 1 then s1.beaconTo 2 count x.beaconDelay else s1)

/-- BEACON_MISSING (R27, R28): no beacon within 16 cycles after the quarter's own boundary plus its beacon delay. -/
def execBeaconMissing (q : Nat) (s : State) : Ans :=
  .next (
    let x := s.quarter q
    if q ≠ 0 && x.aligned && !x.beaconSeen && x.beaconDelay + 16 ≤ x.row then (s.integrityFailure q 3 0).restart 0x21 else s)

/-- A quarter's counters placed (R26, R28): the superframe count, the row, and the row number that follows from both. -/
def State.alignQuarter (s : State) (q : Nat) (count : BitVec 32) (delay : Nat) : State :=
  s.modQuarter q fun x => { x with
    aligned := true, sf := count, row := delay, absRow := count.toNat * 4096 + delay, beaconDelay := delay
    beaconSeen := true, requesters := [] }

/-- BEACON_ALIGNMENT (R28): quarter 0 is aligned by its own boundary. Another quarter aligns once, during start-up, to
the beacon that arrives, which carries `count` and `delay`: the bridge it came over has been measured 64 times, and half the largest round trip, rounded
down, is added to the delay; the boundary lies that many cycles before the arrival. -/
def execBeaconAlignment (q : Nat) (count : BitVec 32) (delay : Nat) (roundTrips : List Nat) (s : State) : Ans :=
  .next (
    let x := s.quarter q
    let booting := match s.mode with
      | .boot _ => true
      | _ => false
    if x.aligned || !booting then s
    else if q = 0 then s.modQuarter 0 fun x => { x with aligned := true }
    else match x.beacons with
      | [] => s
      | b :: rest =>
        if b ≠ (count, delay) || roundTrips.length ≠ 64 then s
        else
          let lat := roundTrips.foldl (fun m r => Nat.max m (r / 2)) 0
          let s1 := (s.setQuarter q { x with beacons := rest, latency := x.latency.set (if q = 3 then 0 else 1) lat }).alignQuarter
            q count (delay + lat)
          if q = 1 then s1.beaconTo 2 count (delay + lat) else s1)

/-! ### Shadow writes (R304, R307) -/

/-- TT_SHADOW_DATA_WRITE (R304, R307). -/
def execTtShadowDataWrite (q : Nat) (v : Word) (s : State) : Ans :=
  .next (
    let x := s.quarter q
    if x.shadowArm then s.setQuarter q { x with shadowBusy := true }
    else
      let row := x.shadowAddr.toNat / 8
      let word := x.shadowAddr.toNat % 8
      let b := x.shadowBank
      let old := leBytes 16 (bankRow b row).toNat
      let new := BitVec.ofNat 128 (leNat (patchBytes old (2 * word) (leBytes 2 v.toNat)))
      s.setQuarter q { x.setShadow (putRow b row new) with shadowAddr := x.shadowAddr + 1 })

/-! ### Stack power states (R416 to R418) -/

/-- Lanes L0 to L9 of the active bank hold only OPEN and REFRESH cells (R417). -/
def Quarter.openTables (x : Quarter) : Bool :=
  (List.range 4096).all fun n => (List.range 10).all fun l => rowByte (bankRow x.activeBank n) l < 2

/-- A block move posted by a processor of the device addresses the stack: its beats ask for open cells (R313, R474). -/
def State.moveAddresses (s : State) (q : Nat) : Bool :=
  s.cores.any fun (_, x) => x.ctxs.any fun (_, y) => y.moves.any fun m => decide (q ∈ m.place.quarters (64 * m.beats))

/-- The conditions R417 asks to hold for ENTRY_MS. -/
def State.quiet (s : State) (q : Nat) : Bool :=
  !(s.trvs.any fun t => t.bound.any fun b => quarterOfParty (partyOfEngine b.1) = q) &&
  !(s.reservations.any fun r => q ∈ quartersOf r.first r.count) &&
  !(s.trvs.any fun t => t.runs.any fun r => q ∈ quartersOf r.first r.count) &&
  (s.quarter q).bar4.isEmpty && (s.quarter q).sbWrites.isEmpty && !s.moveAddresses q &&
  ((s.quarter q).openBuffers.all fun b => b.2.all fun u => !stackUse q (.launch u.beat)) &&
  (s.quarter q).requesters.all fun r => r.2.losses = 0 || !r.2.stack

/-- The stacks a channel's run addresses: those of a COPY leg's source and destination, else those the descriptor under
way reads, writes and takes its next descriptor from. -/
def DmaChannel.stacks (x : DmaChannel) : List Nat :=
  let d := x.desc
  let part (o : Option Place) (n : Nat) : List Nat := (o.map fun pl => pl.quarters n).getD []
  match x.copy with
  | some j => (Place.buf j.src).quarters j.len ++ (Place.buf j.dst).quarters j.len
  | none =>
    (if dFill d then [] else part (dSrc d) (dLen d)) ++ part (dDst d) (dLen d) ++
      (if dChain d then part (dNext d) 32 else [])

/-- A DMA run in progress addresses the stack; one that has no descriptor yet may address any. -/
def State.dmaAddresses (s : State) (q : Nat) : Bool :=
  s.dma.any fun (_, x) => x.busy && ((x.copy.isNone && x.desc.isEmpty) || decide (q ∈ x.stacks))

/-- STACK_SR_ENTRY_TIMER (R417): the quiet conditions have held for ENTRY_MS. -/
def execStackSrEntryTimer (q : Nat) (s : State) : Ans :=
  .next (
    let x := s.quarter q
    if q = 0 || !s.manage.stackMask.getLsbD q || x.stack ≠ .active || !s.quiet q ||
        s.dmaAddresses q then s
    else if s.manage.timetable.expert then (if x.openTables then s.enterSelfRefresh q else s)
    else (s.setQuarter q { x with stack := .entering, waking := false }).regenerate)

/-- SR_EXIT_COMPLETE (R418): at the expert level the stack is ACTIVE; at the basic level full tables are armed. -/
def execSrExitComplete (q : Nat) (s : State) : Ans :=
  .next (
    let x := s.quarter q
    if x.stack ≠ .exiting || !x.waking then s
    else
      let s1 := (s.setQuarter q { x with waking := false }).memoryEvent q 0x06 0x3FFFFF 0
      (if s.manage.timetable.expert then s1.modQuarter q fun x => { x with stack := .active } else s1.regenerate).serveBar4 q |>.serveSb q)

end Sys2Proof.Machine
end

