-- ==== Sys2Proof/Machine/Verify.lean ====
section
/-! DEFINITION. What the boot ROM computes to accept an image (R552): SHA-384 (FIPS 180-4) and the verification of an
ECDSA signature over the curve P-384 (FIPS 186-5). -/

namespace Sys2Proof.Machine

/-! ### SHA-384 (FIPS 180-4) -/

/-- Rotation of a 64-bit word to the right. -/
def rotr64 (x : BitVec 64) (n : Nat) : BitVec 64 := (x >>> n) ||| (x <<< (64 - n))

/-- The constants of the 80 rounds: of the cube roots of the first primes, the first 64 bits of the fraction. -/
def sha512K : List (BitVec 64) :=
  [0x428a2f98d728ae22, 0x7137449123ef65cd, 0xb5c0fbcfec4d3b2f, 0xe9b5dba58189dbbc] ++
  [0x3956c25bf348b538, 0x59f111f1b605d019, 0x923f82a4af194f9b, 0xab1c5ed5da6d8118] ++
  [0xd807aa98a3030242, 0x12835b0145706fbe, 0x243185be4ee4b28c, 0x550c7dc3d5ffb4e2] ++
  [0x72be5d74f27b896f, 0x80deb1fe3b1696b1, 0x9bdc06a725c71235, 0xc19bf174cf692694] ++
  [0xe49b69c19ef14ad2, 0xefbe4786384f25e3, 0x0fc19dc68b8cd5b5, 0x240ca1cc77ac9c65] ++
  [0x2de92c6f592b0275, 0x4a7484aa6ea6e483, 0x5cb0a9dcbd41fbd4, 0x76f988da831153b5] ++
  [0x983e5152ee66dfab, 0xa831c66d2db43210, 0xb00327c898fb213f, 0xbf597fc7beef0ee4] ++
  [0xc6e00bf33da88fc2, 0xd5a79147930aa725, 0x06ca6351e003826f, 0x142929670a0e6e70] ++
  [0x27b70a8546d22ffc, 0x2e1b21385c26c926, 0x4d2c6dfc5ac42aed, 0x53380d139d95b3df] ++
  [0x650a73548baf63de, 0x766a0abb3c77b2a8, 0x81c2c92e47edaee6, 0x92722c851482353b] ++
  [0xa2bfe8a14cf10364, 0xa81a664bbc423001, 0xc24b8b70d0f89791, 0xc76c51a30654be30] ++
  [0xd192e819d6ef5218, 0xd69906245565a910, 0xf40e35855771202a, 0x106aa07032bbd1b8] ++
  [0x19a4c116b8d2d0c8, 0x1e376c085141ab53, 0x2748774cdf8eeb99, 0x34b0bcb5e19b48a8] ++
  [0x391c0cb3c5c95a63, 0x4ed8aa4ae3418acb, 0x5b9cca4f7763e373, 0x682e6ff3d6b2b8a3] ++
  [0x748f82ee5defb2fc, 0x78a5636f43172f60, 0x84c87814a1f0ab72, 0x8cc702081a6439ec] ++
  [0x90befffa23631e28, 0xa4506cebde82bde9, 0xbef9a3f7b2c67915, 0xc67178f2e372532b] ++
  [0xca273eceea26619c, 0xd186b8c721c0c207, 0xeada7dd6cde0eb1e, 0xf57d4f7fee6ed178] ++
  [0x06f067aa72176fba, 0x0a637dc5a2c898a6, 0x113f9804bef90dae, 0x1b710b35131c471b] ++
  [0x28db77f523047d84, 0x32caab7b40c72493, 0x3c9ebe0a15c9bebc, 0x431d67c49c100d4c] ++
  [0x4cc5d4becb3e42b6, 0x597f299cfc657e2a, 0x5fcb6fab3ad6faec, 0x6c44198c4a475817]

/-- The initial chaining value of SHA-384. -/
def sha384Init : List (BitVec 64) :=
  [0xcbbb9d5dc1059ed8, 0x629a292a367cd507, 0x9159015a3070dd17, 0x152fecd8f70e5939,
   0x67332667ffc00b31, 0x8eb44a8768581511, 0xdb0c2e0d64f98fa7, 0x47b5481dbefa4fa4]

/-- Big-endian 64-bit words of a byte string of whole words. -/
def beWords64 (bs : List Byte) : List (BitVec 64) := (List.range (bs.length / 8)).map fun i =>
  BitVec.ofNat 64 (beNat ((bs.drop (8 * i)).take 8))

/-- The schedule extended by one word, newest first. -/
def sha512Extend (w : List (BitVec 64)) : List (BitVec 64) :=
  let small (x : BitVec 64) (a b c : Nat) := rotr64 x a ^^^ rotr64 x b ^^^ (x >>> c)
  (small (w.getD 1 0) 19 61 6 + w.getD 6 0 + small (w.getD 14 0) 1 8 7 + w.getD 15 0) :: w

/-- One round: the eight working words, oldest constants first. -/
def sha512Round (v : List (BitVec 64)) (kw : BitVec 64 × BitVec 64) : List (BitVec 64) :=
  let x (i : Nat) := v.getD i 0
  let big (y : BitVec 64) (a b c : Nat) := rotr64 y a ^^^ rotr64 y b ^^^ rotr64 y c
  let t := x 7 + big (x 4) 14 18 41 + ((x 4 &&& x 5) ^^^ (~~~x 4 &&& x 6)) + kw.1 + kw.2
  let u := big (x 0) 28 34 39 + ((x 0 &&& x 1) ^^^ (x 0 &&& x 2) ^^^ (x 1 &&& x 2))
  [t + u, x 0, x 1, x 2, x 3 + t, x 4, x 5, x 6]

/-- A 128-byte block absorbed. -/
def sha512Block (h : List (BitVec 64)) (block : List Byte) : List (BitVec 64) :=
  let w := (iterate sha512Extend 64 (beWords64 block).reverse).reverse
  List.zipWith (· + ·) h ((sha512K.zip w).foldl sha512Round h)

/-- SHA-384 of a byte string, most significant byte first. -/
def sha384 (bs : List Byte) : List Byte :=
  let m := bs ++ [0x80] ++ List.replicate ((239 - bs.length % 128) % 128) 0 ++ beBytes 16 (8 * bs.length)
  let h := (List.range (m.length / 128)).foldl (fun h i => sha512Block h ((m.drop (128 * i)).take 128)) sha384Init
  (h.take 6).flatMap fun w => beBytes 8 w.toNat

/-! ### The curve P-384 (FIPS 186-5, SP 800-186) -/

/-- The prime of the field, the order of the group, the coefficient b and the base point. -/
def p384 : Nat := 2 ^ 384 - 2 ^ 128 - 2 ^ 96 + 2 ^ 32 - 1
def n384 : Nat :=
  0xffffffffffffffffffffffffffffffffffffffffffffffffc7634d81f4372ddf581a0db248b0a77aecec196accc52973
def b384 : Nat :=
  0xb3312fa7e23ee7e4988e056be3f82d19181d9c6efe8141120314088f5013875ac656398d8a2ed19d2a85c8edd3ec2aef
def gx384 : Nat :=
  0xaa87ca22be8b05378eb1c71ef320ad746e1d3b628ba79b9859f741e082542a385502f25dbf55296c3a545e3872760ab7
def gy384 : Nat :=
  0x3617de4a96262c6f5d9e98bf9292dc29f8f41dbd289a147ce9da3113b5f0b8c00a60b1ce1d7e819d7a431d7c90ea0e5f

/-- The bits of a 384-bit number, most significant first. -/
def bits384 (k : Nat) : List Bool := (List.range 384).map fun i => k.testBit (383 - i)

/-- a ^ k modulo m. -/
def powMod (m a k : Nat) : Nat := (bits384 k).foldl (fun r b => if b then r * r % m * a % m else r * r % m) 1

/-- A point in Jacobian coordinates; z = 0 is the point at infinity. -/
structure Point384 where
  x : Nat
  y : Nat
  z : Nat

/-- Difference in the field. -/
def subP (a b : Nat) : Nat := (a + p384 - b % p384) % p384

/-- A point doubled. -/
def Point384.double (a : Point384) : Point384 :=
  let zz := a.z * a.z % p384
  let yy := a.y * a.y % p384
  let s := 4 * a.x * yy % p384
  let m := 3 * subP a.x zz * (a.x + zz) % p384
  let x := subP (m * m) (2 * s)
  { x, y := subP (m * subP s x) (8 * yy * yy), z := 2 * a.y * a.z % p384 }

/-- The sum of two points. -/
def Point384.add (a b : Point384) : Point384 :=
  let za := a.z * a.z % p384
  let zb := b.z * b.z % p384
  let u := a.x * zb % p384
  let h := subP (b.x * za) u
  let t := a.y * zb * b.z % p384
  let r := subP (b.y * za * a.z) t
  if a.z = 0 then b
  else if b.z = 0 then a
  else if h = 0 then (if r = 0 then a.double else { x := 1, y := 1, z := 0 })
  else
    let hh := h * h % p384
    let v := u * hh % p384
    let x := subP (r * r) (h * hh + 2 * v)
    { x, y := subP (r * subP v x) (t * h * hh), z := a.z * b.z * h % p384 }

/-- k times a point. -/
def Point384.times (k : Nat) (a : Point384) : Point384 :=
  (bits384 k).foldl (fun r b => if b then r.double.add a else r.double) { x := 1, y := 1, z := 0 }

/-- The signature (r, s) of a digest verifies under the public key (X, Y) (FIPS 186-5): 48 bytes each, big-endian. -/
def verify384 (key sig digest : List Byte) : Bool :=
  let (qx, qy) := (beNat (key.take 48), beNat (key.drop 48))
  let (r, s) := (beNat (sig.take 48), beNat (sig.drop 48))
  let w := powMod n384 s (n384 - 2)
  let q : Point384 := { x := qx, y := qy, z := 1 }
  let sum := (Point384.times (beNat digest * w % n384) { x := gx384, y := gy384, z := 1 }).add
    (Point384.times (r * w % n384) q)
  let zi := powMod p384 sum.z (p384 - 2)
  0 < r && r < n384 && 0 < s && s < n384 && qx < p384 && qy < p384 &&
  qy * qy % p384 = subP (qx * qx * qx + b384) (3 * qx) && sum.z ≠ 0 && sum.x * zi * zi % p384 % n384 = r

end Sys2Proof.Machine
end

