-- ==== Sys2Proof/Machine/Boot.lean ====
section
/-! DEFINITION. Power, cold reset and the boot timeline (R46, R52, R70, R76, R545 to R556, R565, R584, R588), island
gating (R38), and the temperature sensors with the thermal trip (R595, R596). -/

namespace Sys2Proof.Machine

/-! ### Cold reset (R546 to R549) -/

/-- A port in cold reset: the lane arrangement, sampled once after power-on, stays (R46), and the level of PERST_N. -/
def Port.cold (x : Port) : Port := { created := x.created, width := x.width, perst := x.perst }

/-- A shelf in cold reset: what its pins read stays, its parameters go (R548). -/
def Shelf.cold (x : Shelf) : Shelf := { pg := x.pg, pgFiltered := x.pgFiltered, edges := x.edges }

/-- Everything in the main domain at its reset value. The Monument, flash and fuses stay, with what the device's pins
read; the model's own fields stay too. -/
def State.cold (s : State) (mode : DeviceMode) : State :=
  { mode, devClk := s.devClk, sasClk := s.sasClk, railsValid := s.railsValid, bif0 := s.bif0, bif1 := s.bif1
    thermTrip := s.thermTrip, sensors := s.sensors, flash := s.flash, taps := s.taps
    ports := Tab.mapVals s.ports Port.cold, shelves := Tab.mapVals s.shelves Shelf.cold
    cores := s.cores.filter fun k => decide (k.1 = 49)
    mon := s.mon, fresh := s.fresh, out := s.out, pending := s.pending }

/-- CX_RST_N_ASSERT (R548): a thermal trip is remembered until the pin is released (R596). -/
def execCxRstNAssert (s : State) : Ans :=
  .next (match s.mode with
    | .off | .reset => s
    | _ => s.cold .reset)

/-- A strap fault found before the device field book ran is recorded as it starts (R46). -/
def State.recordStraps (s : State) : State :=
  let s1 := if s.bif0 = some 3 then s.strapFault 0 else s
  if s1.bif1 = some 3 then s1.strapFault 1 else s1

/-- Some sensor still forbids the end of a thermal trip (R596). -/
def State.tooHot (s : State) : Bool := s.thermTrip && s.sensors.any fun t => decide (100 ≤ t.2)

/-- CX_RST_N_DEASSERT (R546, R547, R554, R555, R588, R596): straps are sampled and the boot timeline starts, waiting for
DEV_REFCLK; BOOT_RCVY forces recovery mode, after the flash's SFDP table is read (R591); a trip goes on while a sensor is hot. -/
def execCxRstNDeassert (adminSel : BitVec 4) (smbAddr : BitVec 2) (bootRcvy : Bool) (s : State) : Ans :=
  .next (
    if s.mode ≠ .reset || !s.railsValid then s
    else if s.tooHot then { s with mode := .tripped }
    else
      let s1 : State := { s with
        mode := .boot 0, thermTrip := false, waitClock := !s.devClk, adminSel
        manage := { s.manage with smbAddr } }
      let s2 := s1.recordStraps
      if bootRcvy then (s2.modCore 48 fun x => { x with inReset := false }).readSfdp.enterRecovery 1 else s2)

/-! ### Rails and clocks (R545, R546, R584, R588) -/

/-- MAIN_RAILS_VALID (R519, R546, R584): the domain is powered and held by CX_RST_N; the payload taps start at 0. -/
def execMainRailsValid (s : State) : Ans :=
  .next (if s.railsValid then s else { s with railsValid := true, mode := .reset, taps := [] })

/-- MAIN_RAIL_FAULT (R520, R546, R584): main-domain state is lost, the straps of R46 with it; the Monument takes a new
baseline when the rails return. -/
def execMainRailFault (s : State) : Ans :=
  .next (
    if !s.railsValid then s
    else
      let s1 := s.cold .off
      { s1 with
        railsValid := false, bif0 := none, bif1 := none, thermTrip := false, sensors := [], shelves := []
        ports := Tab.mapVals s.ports fun x => { perst := x.perst }
        mon := { s1.mon with rebase := true } })

/-- DEV_REFCLK_LOSS (R588): a restart that waits for the clock; one in progress waits at its first row and does not count
again (R598). -/
def execDevRefclkLoss (s : State) : Ans :=
  .next (
    let s1 : State := { s with devClk := false }
    if !s.devClk then s
    else if s.restarting then { s1.resetIslands with mode := .boot 0, waitClock := true }
    else s1.restart 0x21)

/-- DEV_REFCLK_RETURN (R588): the clock has been present for 1 ms. -/
def execDevRefclkReturn (s : State) : Ans := .next { s with devClk := true, waitClock := false }

/-- SAS_REFCLK_LOSS (R272, R588): every wide port goes down. -/
def execSasRefclkLoss (s : State) : Ans :=
  .next (
    if !s.sasClk then s
    else (List.range 12).foldl (fun (s : State) c =>
      let x := s.chain c
      if !x.anyLane then s
      else (s.setChain c { x with lanes := Tab.mapVals x.lanes fun l => { l with up := false, rate := 3 } }).portDown c)
      { s with sasClk := false })

/-- SAS_REFCLK_RETURN (R588): the lanes may train again. -/
def execSasRefclkReturn (s : State) : Ans := .next { s with sasClk := true }

/-! ### Temperatures (R595, R596) -/

/-- A sensor at or above its fatal threshold; the lid estimate has none. -/
def fatalReading (id : Nat) (t : Int) : Bool := match thresholds id with
  | some (_, _, some f) => decide (f ≤ t)
  | _ => false

/-- SENSOR_UPDATE (R595, R596): the readings of sensors 1 to 10, as many as are brought; the others keep theirs. A fatal
one trips the device, which then is held as by CX_RST_N. Below it nothing is throttled. -/
def execSensorUpdate (temps : List Int) (s : State) : Ans :=
  .next (
    if !s.railsValid then s
    else
      let now := (List.range (Nat.min 10 temps.length)).foldl (fun (t : Tab Int) i => t.set (i + 1) (temps.getD i 0)) s.sensors
      let s1 : State := { s with sensors := now }
      if s1.thermTrip || !(now.any fun t => fatalReading t.1 t.2) then s1
      else
        let s2 : State := { s1 with thermTrip := true }
        (if s.mode = .reset then s2 else s2.cold .tripped).emit .thermTrip)

/-! ### Island gating (R38) -/

/-- No subchannel of the party's engines is bound and its chain has no open outing. -/
def State.partyIdle (s : State) (party : Nat) : Bool :=
  !(s.trvs.any fun t => t.bound.any fun b => decide (partyOfEngine b.1 = party)) &&
  (List.range 4).all fun i => !(s.shelf (4 * party + i)).isOpen

/-- The chain is dark: no shelf of it holds an outing, and the SAS port has no work. -/
def State.chainIdle (s : State) (c : Nat) : Bool :=
  let x := s.chain c
  ((List.range 4).all fun i => !(s.shelf (4 * c + i)).holds) && x.cmds.isEmpty && x.tmfs.isEmpty &&
  !(x.discovering && !x.discovered) && x.rediscover = .none && !x.linkPending

/-- ISLAND_GATING (R38). -/
def execIslandGating (i : GateIsland) (s : State) : Ans :=
  .next (
    if s.mode ≠ .ready then s
    else match i with
      | .engines party =>
        if s.partyIdle party then
          (List.range 4).foldl (fun (s : State) j => s.modCore (4 * party + j) fun x => { x with gated := true }) s
        else s
      | .sasPort c => if s.chainIdle c then s.modChain c fun x => { x with gated := true } else s)

/-! ### Images (R551, R552, R567) -/

/-- The slots the boot ROM tries, in order: PENDING, ACTIVE, the other. True is slot B. -/
def Flash.tries (f : Flash) : List Bool := match f.pending with
  | some p => if p = f.active then [p, !p] else [p, f.active]
  | none => [f.active, !f.active]

/-- The header of an image slot: what PLDM has written there, else what the boot ROM finds. -/
def Flash.header (f : Flash) (b : Bool) (r : ImageReport) : List Byte :=
  (List.range 512).map fun i => f.images.get (slotBase b + i) (r.header.getD i 0xFF)

/-- The image of a slot: what PLDM has written there, else what the boot ROM finds. -/
def Flash.body (f : Flash) (b : Bool) (r : ImageReport) : List Byte :=
  (List.range (fieldAt (f.header b r) 8 4)).map fun i => f.images.get (slotBase b + 512 + i) (r.body.getD i 0xFF)

/-- The key that signed an image is the one of the fuses (R552). -/
def Flash.keyOk (f : Flash) (b : Bool) (r : ImageReport) : Bool :=
  sha384 (((f.header b r).drop 112).take 96) = Config.fusedKeyHash

/-- SIG verifies over SHA-384 of header bytes 0 to 15 and the image (R552). -/
def Flash.sigOk (f : Flash) (b : Bool) (r : ImageReport) : Bool :=
  let h := f.header b r
  verify384 ((h.drop 112).take 96) ((h.drop 16).take 96) (sha384 (h.take 16 ++ f.body b r))

/-- The boot ROM's answer on an image (R551, R552): 0 accepts it, else the code of its IMAGE event (R567). The order of
the checks is a DESIGN CHOICE (log 25). -/
def Flash.imageCode (f : Flash) (b : Bool) (r : ImageReport) : Nat :=
  let h := f.header b r
  if fieldAt h 0 4 ≠ 0x4B56494D || byteAt h 4 ≠ 1 || 12 * 2 ^ 20 - 512 < fieldAt h 8 4 then 5
  else if !f.keyOk b r then 2
  else if !f.sigOk b r then 1
  else if byteAt h 5 ≠ 0xA1 then 3
  else if fieldAt h 6 2 < f.svnMin.toNat then 4
  else 0

/-- The image of a slot read: its header, and the image when the header is in order (R554, R591). -/
def Flash.imageReads (f : Flash) (b : Bool) (r : ImageReport) : List FlashOp :=
  quadRead (slotBase b) 512 ::
    if f.imageCode b r = 5 then [] else [quadRead (slotBase b + 512) (fieldAt (f.header b r) 8 4)]

/-- An image whose header is in order is read into quarter 0's firmware region (R554). -/
def State.loadImage (s : State) (b : Bool) (r : ImageReport) : State :=
  let s1 := s.spi (s.flash.imageReads b r)
  if s.flash.imageCode b r = 5 then s1 else s1.writePhys imageAddr (s.flash.body b r) false

/-- A boot event whose PORTS field R567 leaves open: it is free (log 53). -/
def State.bootEvent (s : State) (typ detail : Nat) : State :=
  ({ s with fresh := s.fresh + 1 } : State).deviceEvent typ 0 (Config.freeNat s.fresh % 256) detail

/-- The first slot accepted; every rejected one is an IMAGE event. -/
def State.tryImages (s : State) (r : BootReport) : List Bool → State × Option Bool
  | [] => (s, none)
  | b :: rest =>
    let i := if b then r.slotB else r.slotA
    let code := s.flash.imageCode b i
    let s1 := s.loadImage b i
    if code = 0 then (s1, some b) else (s1.bootEvent 0x02 (256 * b2n b + code)).tryImages r rest

/-- An accepted slot: its SVN and length are known, and a pending one becomes ACTIVE in a new directory. -/
def Flash.accept (f : Flash) (b : Bool) (r : ImageReport) : Flash :=
  let f1 := { f with svn := BitVec.ofNat 16 (fieldAt (f.header b r) 6 2), imageLen := fieldAt (f.header b r) 8 4 }
  if f.pending = some b then { f1 with active := b, pending := none, dirSeq := f.dirSeq + 1, dirKnown := true } else f1

/-- The image accepted runs; a directory that changed is written (R552). -/
def State.acceptImage (s : State) (r : BootReport) (b : Bool) : State :=
  let f := s.flash.accept b (if b then r.slotB else r.slotA)
  ({ s with flash := f } : State).spi (if s.flash.pending = some b then f.directoryOps else [])

/-! ### Basic apportionment (R70, R76) -/

/-- The share of the port in position `i` of `n`: the remainder goes to the first, within a limit. -/
def basicShare (total n limit i : Nat) : Nat :=
  Nat.min limit (total / n + if i = 0 then total % n else 0)

/-- The basic record of the port in position `i` of `n`. -/
def basicRecord (n i : Nat) : Apportion :=
  let mine := (List.range 12).filter fun c => c % n = i
  { sqCount := basicShare 1024 n 256 i, cqCount := basicShare 1024 n 256 i, trvQuota := basicShare 65536 n 65536 i
    keys := basicShare 4096 n 4096 i, share := basicShare 256 n 256 i
    ext := (List.range 4).map fun q => (q, basicShare extentsPerQuarter n extentsPerQuarter i)
    shelves := BitVec.ofNat 48 ((mine.map fun c => 15 * 16 ^ c).sum)
    drives := mine.map fun c => (c, BitVec.allOnes 384) }

/-- The basic apportionment, computed once after a cold reset, and the management principal that the straps name. -/
def State.apportionBasic (s : State) : State :=
  if s.apportioned then s
  else
    let ps := s.created
    let s1 := (List.range ps.length).foldl (fun (s : State) i =>
      s.modPort (ps.getD i 0) fun x => { x with ap := basicRecord ps.length i }) s
    let a := s.adminSel.toNat
    { s1 with
      apportioned := true
      manage := { s1.manage with principal := if a < 8 && ps.contains a then some a else none } }

/-- A row of the timeline done, recorded as a BOOT-STAGE event. -/
def State.stageDone (s : State) (row : Nat) : State :=
  ({ s with mode := if row = 9 then .ready else .boot row } : State).bootEvent 0x01 row

/-! ### The first tables (R26, R305, R306, R556) -/

/-- The stage of the first tables (R554, R556), whose BOOT_STAGE comes until it is over: once every quarter is aligned to
the beacon, the apportionment is computed and the tables are armed; after the swap's seam MODE is RUN. -/
def State.tableStage (s : State) : State :=
  let qs := List.range 4
  if !qs.all fun q => (s.quarter q).aligned then s
  else if qs.all fun q => !(s.quarter q).shadowArm && !(s.quarter q).active then s.apportionBasic.generate
  else if s.swapBusy then s
  else (qs.foldl (fun (s : State) q => s.modQuarter q fun x => { x with mode := 0 }) s).stageDone 8

/-! ### Port configuration (R47, R49, R52, R553) -/

/-- The 16 bytes of a port's entry. -/
def portEntry (r : BootReport) (p : Nat) : List Byte :=
  (List.range 16).map fun i => r.portRecord.getD (16 * p + i) 0xFF

/-- A nonblank entry has a reserved value: its clocking mode, or what the reserved bytes 1 to 3 and 8 to 15 hold (R553;
which contents of these are reserved values is free, log 25). -/
def entryReserved (e : List Byte) : Bool :=
  2 < byteAt e 0 || Config.recordReserved ((e.drop 1).take 3 ++ e.drop 8)

/-- A port takes its entry (R49, R553): a blank one gives common clock and the identity of R49; one with a reserved
value leaves the port untrained and is a STRAP-FAULT event. -/
def State.configurePort (s : State) (r : BootReport) (p : Nat) : State :=
  let e := portEntry r p
  if e.all fun b => b = 0xFF then s.modPort p fun x => { x with clkMode := 0, subVendor := 0x1F6B, subsystem := 0x0960 }
  else if entryReserved e then
    (s.modPort p fun x => { x with clkMode := 3, linkUp := false }).deviceEvent 0x03 0 (2 ^ p) 0
  else s.modPort p fun x => { x with
    clkMode := byteAt e 0, subVendor := BitVec.ofNat 16 (fieldAt e 4 2), subsystem := BitVec.ofNat 16 (fieldAt e 6 2) }

/-- A port whose fundamental reset is over and that has its record answers configuration requests; outside recovery
mode it is READY. -/
def State.openPort (s : State) (p : Nat) (ready : Bool) : State :=
  s.modPort p fun x =>
    if x.perst || x.configured || 2 < x.clkMode then x else { x with configured := true, ready }

/-- The ports a stage opens. -/
def State.openPorts (s : State) (ready : Bool) : State :=
  s.created.foldl (fun (s : State) p => s.openPort p ready) s

/-! ### The timeline (R554 to R556) -/

/-- The extents, each beat zeroed with its CRC (R402, R554); the firmware regions stay. -/
def isExtentAddr (a : Nat) : Bool := a % 2 ^ 36 < extentsPerQuarter * 65536

/-- The work of one row of the timeline. -/
def State.bootRow (s : State) (r : BootReport) (row : Nat) : State :=
  match row with
  | 1 => (s.modCore 48 fun x => { x with inReset := false }).stageDone 1
  | 2 =>
    let s1 := s.readSfdp.spi [quadRead 0 512]
    let d := (List.range 16).map fun i => r.directory.getD i 0xFF
    (if s.flash.dirKnown then s1 else { s1 with flash := s.flash.readDirectory d }).stageDone 2
  | 3 => if r.trained then s.stageDone 3 else s.enterRecovery 3
  | 4 =>
    ({ s with mem := s.mem.filter fun c => !isExtentAddr c.1, poison := s.poison.filter fun b => !isExtentAddr (64 * b)
              flaws := s.flaws.filter fun x => !isExtentAddr (64 * x.1)
              extents := [] } : State).stageDone 4
  | 5 => match s.tryImages r s.flash.tries with
    | (s1, some b) => (s1.acceptImage r b).stageDone 5
    | (s1, none) => s1.enterRecovery 2
  | 6 =>
    let s0 := s.spi [quadRead 0x2000 0x40000]
    let s1 : State := { s0 with manage := { s.manage with keys := if r.keysOk then s.flash.keys else [] } }
    (if r.keysOk then s1 else s1.bootEvent 0x04 0).stageDone 6
  | 7 => ((List.range 48).foldl (fun (s : State) k => s.startEngine k) s).stageDone 7
  | 8 => s.tableStage
  | 9 =>
    let s1 := s.spi [quadRead 0x1000 128]
    ((s1.created.foldl (fun (s : State) p => s.configurePort r p) s1).openPorts true).stageDone 9
  | n => s.stageDone n

/-- BOOT_STAGE (R52, R554, R569): the next row of the timeline completes, unless it waits for DEV_REFCLK. In READY and
recovery mode it is the last stage of ports whose PERST_N was released since. -/
def execBootStage (r : BootReport) (s : State) : Ans :=
  .next (match s.mode with
    | .boot row => if s.waitClock then s else s.bootRow r (row + 1)
    | .ready =>
      let late := s.created.filter fun p => !(s.port p).perst && !(s.port p).configured
      (late.foldl (fun (s : State) p => s.configurePort r p) s).openPorts true
    | .recovery _ => s.openPorts false
    | _ => s)

end Sys2Proof.Machine
end

