-- ==== Sys2Proof/Machine/Flags.lean ====
section
/-! DEFINITION. The status word of a Sehar context and every flag computation: binary, shift, multiply and packed
decimal (R441, R448, R449, R465 to R470). -/

namespace Sys2Proof.Machine

/-- The five flags. -/
structure Flags where
  n : Bool
  z : Bool
  c : Bool
  v : Bool
  h : Bool
  deriving DecidableEq, Repr

/-- 1 for a set flag. -/
def flagBit (b : Bool) : Nat := if b then 1 else 0

/-- The flags of a context. -/
def Ctx.flags (x : Ctx) : Flags := { n := x.n, z := x.z, c := x.cf, v := x.vf, h := x.hf }

/-- The context with other flags. -/
def Ctx.setFlags (x : Ctx) (f : Flags) : Ctx := { x with n := f.n, z := f.z, cf := f.c, vf := f.v, hf := f.h }

/-- The flags as SW bits [4:0] (R441). -/
def Flags.bits (f : Flags) : Nat :=
  16 * flagBit f.n + 8 * flagBit f.z + 4 * flagBit f.c + 2 * flagBit f.v + flagBit f.h

/-- SW as it reads (R441): reserved bits are 0. -/
def Ctx.sw (x : Ctx) : Word := BitVec.ofNat 16 (2 ^ 15 * flagBit x.s + 2 ^ 14 * flagBit x.ie + x.flags.bits)

/-- The context with SW written (R441). -/
def Ctx.setSw (x : Ctx) (w : Word) : Ctx :=
  { x with
    s := w.getLsbD 15, ie := w.getLsbD 14, n := w.getLsbD 4, z := w.getLsbD 3, cf := w.getLsbD 2, vf := w.getLsbD 1
    hf := w.getLsbD 0 }

/-- The condition codes (R449). -/
def condHolds (cond : BitVec 4) (f : Flags) : Bool :=
  match cond.toNat with
  | 0x0 => true
  | 0x1 => f.z
  | 0x2 => !f.z
  | 0x3 => f.c
  | 0x4 => !f.c
  | 0x5 => f.n
  | 0x6 => !f.n
  | 0x7 => f.v
  | 0x8 => !f.v
  | 0x9 => f.c && !f.z
  | 0xA => !f.c || f.z
  | 0xB => f.n == f.v
  | 0xC => f.n != f.v
  | 0xD => !f.z && f.n == f.v
  | 0xE => f.z || f.n != f.v
  | _ => f.h

/-- A result with the flags it leaves. -/
structure Calc where
  r : Word
  f : Flags
  deriving DecidableEq, Repr

/-- An operation on two words under the flags as they stand. -/
abbrev Op2 := Word → Word → Flags → Calc

/-! ### Binary arithmetic and logic (R448, R450) -/

/-- Z of a result: sticky Z only ever clears (R448). -/
def zFlag (sticky : Bool) (r : Word) (f : Flags) : Bool := if sticky then f.z && r == 0 else r == 0

/-- a + b + carry. -/
def addWith (carry : Nat) (sticky : Bool) (a b : Word) (f : Flags) : Calc :=
  let sum := a.toNat + b.toNat + carry
  let r : Word := BitVec.ofNat 16 sum
  { r
    f := {
      n := r.msb, z := zFlag sticky r f, c := 65536 ≤ sum
      v := a.msb == b.msb && r.msb != a.msb
      h := 16 ≤ a.toNat % 16 + b.toNat % 16 + carry } }

/-- a − b − borrow; C and H are 1 when no borrow occurs. -/
def subWith (borrow : Nat) (sticky : Bool) (a b : Word) (f : Flags) : Calc :=
  let r : Word := BitVec.ofNat 16 (a.toNat + 65536 - b.toNat - borrow)
  { r
    f := {
      n := r.msb, z := zFlag sticky r f, c := b.toNat + borrow ≤ a.toNat
      v := a.msb != b.msb && r.msb != a.msb
      h := b.toNat % 16 + borrow ≤ a.toNat % 16 } }

def opAdd : Op2 := addWith 0 false
def opAdc : Op2 := fun a b f => addWith (flagBit f.c) true a b f
def opSub : Op2 := subWith 0 false
def opSbc : Op2 := fun a b f => subWith (1 - flagBit f.c) true a b f

/-- A result that sets N and Z, clears C and V and keeps H. -/
def logic (r : Word) (f : Flags) : Calc := { r, f := { n := r.msb, z := r == 0, c := false, v := false, h := f.h } }

def opAnd : Op2 := fun a b f => logic (a &&& b) f
def opOr : Op2 := fun a b f => logic (a ||| b) f
def opXor : Op2 := fun a b f => logic (a ^^^ b) f
def opBic : Op2 := fun a b f => logic (a &&& ~~~b) f
/-- A shift result; C is the last bit shifted out, 0 for a count of 0. -/
def shifted (r : Word) (out : Bool) (count : Nat) (f : Flags) : Calc :=
  { r, f := { n := r.msb, z := r == 0, c := 0 < count && out, v := false, h := f.h } }

def opShl : Op2 := fun a b f =>
  let k := b.toNat % 16
  shifted (a <<< k) (a.getLsbD (16 - k)) k f
def opShr : Op2 := fun a b f =>
  let k := b.toNat % 16
  shifted (a >>> k) (a.getLsbD (k - 1)) k f
def opSar : Op2 := fun a b f =>
  let k := b.toNat % 16
  shifted (a.sshiftRight k) (a.getLsbD (k - 1)) k f

def opMul : Op2 := fun a b f =>
  let p := a.toNat * b.toNat
  let r : Word := BitVec.ofNat 16 p
  let high := 65536 ≤ p
  { r, f := { n := r.msb, z := r == 0, c := high, v := high, h := f.h } }
def opMulh : Op2 := fun a b f => logic (BitVec.ofNat 16 (a.toNat * b.toNat / 65536)) f

/-! ### Packed decimal (R465 to R470) -/

/-- Digit `i` of a word. -/
def digit (w : Word) (i : Nat) : Nat := w.toNat / 16 ^ i % 16

/-- All four digits are valid. -/
def isDecimal (w : Word) : Bool := digit w 0 < 10 && digit w 1 < 10 && digit w 2 < 10 && digit w 3 < 10

/-- The value of four nibbles with decimal weights. -/
def decValue (w : Word) : Nat := digit w 0 + 10 * digit w 1 + 100 * digit w 2 + 1000 * digit w 3

/-- A value below 10,000 in packed decimal. -/
def toDecimal (x : Nat) : Word :=
  BitVec.ofNat 16 (x % 10 + 16 * (x / 10 % 10) + 256 * (x / 100 % 10) + 4096 * (x / 1000 % 10))

/-- A decimal operation; none when a digit it reads is above 9 (R466). -/
abbrev DecOp := Word → Word → Flags → Option Calc

/-- A decimal result: N and V are 0. -/
def decimal (r : Word) (sticky c h : Bool) (f : Flags) : Calc :=
  { r, f := { n := false, z := zFlag sticky r f, c, v := false, h } }

/-- Decimal a + b + carry. -/
def dAddWith (carry : Nat) (sticky : Bool) : DecOp := fun a b f =>
  if isDecimal a && isDecimal b then
    let x := decValue a + decValue b + carry
    some (decimal (toDecimal (x % 10000)) sticky (10000 ≤ x) (10 ≤ digit a 0 + digit b 0 + carry) f)
  else none

/-- Decimal a − b − borrow, the ten's complement on a borrow. -/
def dSubWith (borrow : Nat) (sticky : Bool) : DecOp := fun a b f =>
  if isDecimal a && isDecimal b then
    let x := decValue a + 10000 - decValue b - borrow
    some (decimal (toDecimal (x % 10000)) sticky (decValue b + borrow ≤ decValue a) (digit b 0 + borrow ≤ digit a 0) f)
  else none

def opDadd : DecOp := dAddWith 0 false
def opDadc : DecOp := fun a b f => dAddWith (flagBit f.c) true a b f
def opDsub : DecOp := dSubWith 0 false
def opDsbc : DecOp := fun a b f => dSubWith (1 - flagBit f.c) true a b f

/-- DADJ (R467). -/
def opDadj (a : Word) (f : Flags) : Calc :=
  let x := decValue a
  decimal (toDecimal (x % 10000)) false (10000 ≤ x) (10 ≤ digit a 0) f

/-- DSHL (R468): every digit of both words is read. -/
def opDshl : DecOp := fun a b f =>
  if isDecimal a && isDecimal b then
    let r : Word := BitVec.ofNat 16 (a.toNat % 4096 * 16 + b.toNat / 4096)
    some (decimal r false (digit a 3 ≠ 0) f.h f)
  else none

/-- DMD (R469): the result and the new value of W[n]; it reads d, a and the digits t[3:0] and t[15:12]. -/
def opDmd (d a t : Word) (f : Flags) : Option (Calc × Word) :=
  let m := digit t 0
  let c := digit t 3
  if isDecimal d && isDecimal a && m < 10 && c < 10 then
    let x := decValue d + decValue a * m + c
    let carry := x / 10000
    some (decimal (toDecimal (x % 10000)) false (carry ≠ 0) (carry ≠ 0) f,
      BitVec.ofNat 16 (carry * 4096 + t.toNat % 4096))
  else none

/-- CVBD (R470): the low four digits, with Z and C, and the high digit for W[n]. -/
def opCvbd (a : Word) (f : Flags) : Calc × Word :=
  let high := a.toNat / 10000
  ({ r := toDecimal (a.toNat % 10000), f := { n := false, z := a == 0, c := high ≠ 0, v := false, h := f.h } },
    BitVec.ofNat 16 high)

/-- CVDB (R470). -/
def opCvdb (a : Word) (f : Flags) : Option Calc :=
  if isDecimal a then
    let r : Word := BitVec.ofNat 16 (decValue a)
    some { r, f := { n := false, z := r == 0, c := false, v := false, h := f.h } }
  else none

end Sys2Proof.Machine
end

