-- ==== Sys2Proof/Machine/Operands.lean ====
section
/-! DEFINITION. Sehar contexts and operands: which context runs, D-space and I-space words, delayed writes, every
operand spec (R434 to R436, R440, R446, R447, R453, R479, R481). -/

namespace Sys2Proof.Machine

/-! ### Contexts (R433, R478, R479) -/

/-- Contexts of core `k`. -/
def coreContexts (k : Nat) : Nat := if k < 48 then 32 else if k = 48 then 8 else 1

/-- The context that runs. -/
def Core.here (x : Core) : Ctx := x.ctx x.cur

/-- The running context changed. -/
def Core.modHere (x : Core) (f : Ctx → Ctx) : Core := x.setCtx x.cur (f x.here)

/-- A context is runnable (R479). -/
def Core.runnable (x : Core) (c : Nat) : Bool := x.ready.getLsbD c && (x.ctx c).suspended.isNone

/-- The next runnable context after the current one in ascending number, wrapping (R479). -/
def Core.nextCtx (x : Core) (k : Nat) : Option Nat :=
  let n := coreContexts k
  (((List.range n).map fun i => (x.cur + 1 + i) % n).filter fun c => c ≠ x.cur).find? x.runnable

/-- The core passes to the next runnable context; without one it issues nothing (R479). -/
def Core.pass (x : Core) (k : Nat) : Core := match x.nextCtx k with
  | some c => { x with cur := c }
  | none => { x with stalled := true }

/-- A core that issued nothing takes up a context that has become runnable, at the cost of a SWAP (R450, R479). -/
def Core.takeUp (x : Core) (k : Nat) : Core :=
  if !x.stalled then x
  else match (x.nextCtx k).or (if x.runnable x.cur then some x.cur else none) with
    | some c => { x with cur := c, cycle := x.cycle + 4, stalled := false }
    | none => x

/-- A suspension of a context ends. -/
def Core.resume (x : Core) (k c : Nat) : Core := (x.setCtx c { x.ctx c with suspended := none }).takeUp k

/-- The running context is suspended and the core goes to another one, at the cost of a SWAP (R450, R479). -/
def Core.suspend (x : Core) (k : Nat) (why : Suspend) : Core :=
  let y := (x.modHere fun c => { c with suspended := some why }).pass k
  if y.stalled then y else { y with cycle := y.cycle + 4 }

/-! ### Words (R434, R453) -/

/-- The D-space word an instruction issued now sees. -/
def Core.dread (x : Core) (a : Word) : Word := x.dmem.get a.toNat 0

/-- The I-space word as data: ROM below 0x2000, whose content this manual does not give (R435, R514). -/
def Core.iread (x : Core) (k : Nat) (a : Word) : Word :=
  if k = 49 || a.toNat < 0x2000 then Config.bootRom k a.toNat else x.imem.get a.toNat 0

/-- D-space word `a` takes a value, with good parity. -/
def Core.setD (x : Core) (a : Nat) (v : Word) : Core :=
  { x with dmem := x.dmem.set a v, dParity := x.dParity.filter (· ≠ a) }

/-- I-space word `a` takes a value, with good parity. -/
def Core.setI (x : Core) (a : Nat) (v : Word) : Core :=
  { x with imem := x.imem.set a v, iParity := x.iParity.filter (· ≠ a) }

/-- An instruction reads D-space word `a`: one with wrong parity is noted, and raises PARITY when nothing else does
(R452, R485). -/
def Core.sense (x : Core) (a : Word) : Core :=
  if x.parityHit.isNone && decide (a.toNat ∈ x.dParity) then { x with parityHit := some a } else x

/-- A write on its way to D-space or elsewhere, after those issued before it. -/
def Core.later (x : Core) (due : Nat) (target : WTarget) (value : Word) : Core :=
  { x with delayed := x.delayed ++ [{ due, target, value }] }

/-- What a suspended instruction still has to write, without D-space word `a`. -/
def Suspend.without (a : Nat) : Suspend → Suspend
  | .stake q dest => .stake q (if dest = some a then none else dest)
  | .iowait port mask updates => .iowait port mask (updates.filter fun u => decide (u.1 ≠ a))
  | w => w

/-- An instruction writes D-space word `a`: what suspended instructions, issued earlier, still have to write to it never
overrides it (R453, R477). -/
def Core.supersede (x : Core) (a : Nat) : Core :=
  { x with ctxs := Tab.mapVals x.ctxs fun y => { y with suspended := y.suspended.map (Suspend.without a) } }

/-- A D-space word written at once: older writes to it that have not landed stay without effect (R453). -/
def Core.putD (x : Core) (a : Nat) (v : Word) : Core :=
  { x.setD a v with delayed := x.delayed.filter fun d => decide (d.target ≠ .dmem a) }

/-- An address update: at once, over every older write (R447, R453). -/
def Core.putNow (x : Core) (a v : Word) : Core := (x.supersede a.toNat).putD a.toNat v

/-- A result on its way to D-space: seen 3 or more cycles after this issue (R453). -/
def Core.result (x : Core) (a v : Word) : Core := (x.supersede a.toNat).later (x.cycle + 3) (.dmem a.toNat) v

/-- Writes of a context to SW and WP that have not landed are dropped: a later-issued one stands (R453). -/
def Core.dropSw (x : Core) (c : Nat) : Core :=
  { x with delayed := x.delayed.filter fun d => decide (d.target ≠ .sw c) && decide (d.target ≠ .wp c) }

/-! ### Exceptions of an instruction (R452, R485) -/

/-- Why an instruction has no effect: cause code, CAUSE.DETAIL, EADDR. -/
structure Exc where
  cause : Nat
  detail : Nat := 0
  eaddr : Word := 0
  deriving DecidableEq, Repr

/-- An instruction's effect, or its exception. -/
abbrev Try := Except Exc

/-- A D-space address the running context may reach: any in supervisor mode, UBASE to ULIM in user mode (R436, R481). -/
def Core.mayReach (x : Core) (a : Word) : Bool :=
  x.here.s || (x.here.ubase.toNat ≤ a.toNat && a.toNat ≤ x.here.ulim.toNat)

/-- The bounds check of a D-space access. -/
def Core.guardD (x : Core) (a : Word) : Try Unit :=
  if x.mayReach a then .ok () else .error { cause := 0x05, eaddr := a }

/-! ### Operand specs (R440, R446, R447) -/

/-- The D-space address of W[n]. -/
def Core.regAddr (x : Core) (n : Nat) : Word := x.here.wp + BitVec.ofNat 16 (n % 64)

/-- W[n] as read now. -/
def Core.reg (x : Core) (n : Nat) : Word := x.dread (x.regAddr n)

/-- An evaluated spec: the operand's address, its value, and the core with the address update applied. -/
structure Operand where
  addr : Word
  value : Word
  core : Core

/-- PARITY of a D-space word an instruction has read (R485). -/
def parityD (a : Word) : Exc := { cause := 0x0B, detail := 1, eaddr := a }

/-- PARITY, if a word read so far had wrong parity. -/
def Core.checkParity (x : Core) : Try Unit := match x.parityHit with
  | some a => .error (parityD a)
  | none => .ok ()

/-- A spec evaluated: mode 00 W[n]; 01 D[W[n]]; 10 the same with W[n] + 1 after the access; 11 D[W[n] − 1] with the update
before the access. The pointer is read, and the operand itself only where it is a source (`Core.source`). -/
def Core.operand (x : Core) (sp : BitVec 8) : Try Operand := do
  let w := x.regAddr sp.toNat
  x.guardD w
  let p := x.dread w
  match sp.toNat / 64 with
  | 0 => .ok { addr := w, value := p, core := x }
  | 1 =>
    x.guardD p
    .ok { addr := p, value := x.dread p, core := x.sense w }
  | 2 =>
    x.guardD p
    .ok { addr := p, value := x.dread p, core := (x.sense w).putNow w (p + 1) }
  | _ =>
    let y := (x.sense w).putNow w (p - 1)
    x.guardD (p - 1)
    .ok { addr := p - 1, value := y.dread (p - 1), core := y }

/-- A spec evaluated whose operand the instruction reads. -/
def Core.source (x : Core) (sp : BitVec 8) : Try Operand := do
  let o ← x.operand sp
  .ok { o with core := o.core.sense o.addr }

/-- Flags of the running context set. -/
def Core.setFlags (x : Core) (f : Flags) : Core := x.modHere fun c => c.setFlags f

/-- A computed result written to an address, with its flags. -/
def Core.finish (x : Core) (a : Word) (r : Calc) : Core := (x.result a r.r).setFlags r.f

/-! ### The shapes of the instructions -/

/-- LA: specs A, B, D in order; d = op(a, b). -/
def Core.runLa (x : Core) (d a b : BitVec 8) (op : Op2) : Try Core := do
  let va ← x.source a
  let vb ← va.core.source b
  let vd ← vb.core.operand d
  .ok (vd.core.finish vd.addr (op va.value vb.value x.here.flags))

/-- LA without a destination: only the flags. -/
def Core.runLaFlags (x : Core) (a b : BitVec 8) (op : Op2) : Try Core := do
  let va ← x.source a
  let vb ← va.core.source b
  .ok (vb.core.setFlags (op va.value vb.value x.here.flags).f)

/-- DECIMAL-INVALID, or the value (R466). -/
def decimalOr {α : Type} (v : Option α) : Try α := match v with
  | some r => .ok r
  | none => .error { cause := 0x06 }

/-- LA with a decimal operation. -/
def Core.runDec (x : Core) (d a b : BitVec 8) (op : DecOp) : Try Core := do
  let va ← x.source a
  let vb ← va.core.source b
  let vd ← vb.core.operand d
  let r ← decimalOr (op va.value vb.value x.here.flags)
  .ok (vd.core.finish vd.addr r)

/-- DCMP: the flags of a decimal operation. -/
def Core.runDecFlags (x : Core) (a b : BitVec 8) (op : DecOp) : Try Core := do
  let va ← x.source a
  let vb ← va.core.source b
  let r ← decimalOr (op va.value vb.value x.here.flags)
  .ok (vb.core.setFlags r.f)

/-- LA with one source: d = f(a). -/
def Core.runOne (x : Core) (d a : BitVec 8) (f : Word → Flags → Try Calc) : Try Core := do
  let va ← x.source a
  let vd ← va.core.operand d
  let r ← f va.value x.here.flags
  .ok (vd.core.finish vd.addr r)

/-- DMD (R469): the spec B is W[n], which also receives the carry digit. -/
def Core.runDmd (x : Core) (d a : BitVec 8) (n : BitVec 6) : Try Core := do
  let va ← x.source a
  let vt ← va.core.source (n.setWidth 8)
  let vd ← vt.core.source d
  let (r, t) ← decimalOr (opDmd vd.value va.value vt.value x.here.flags)
  .ok ((vd.core.finish vd.addr r).result vt.addr t)

/-- CVBD (R470). -/
def Core.runCvbd (x : Core) (d a : BitVec 8) (n : BitVec 6) : Try Core := do
  let va ← x.source a
  let vt ← va.core.operand (n.setWidth 8)
  let vd ← vt.core.operand d
  let (r, t) := opCvbd va.value x.here.flags
  .ok ((vd.core.finish vd.addr r).result vt.addr t)

/-- LI: d = op(d, imm), read and written at one address and updated once (R447). -/
def Core.runLi (x : Core) (d : BitVec 8) (imm : Word) (op : Op2) : Try Core := do
  let vd ← x.source d
  .ok (vd.core.finish vd.addr (op vd.value imm x.here.flags))

/-- LI without a destination. -/
def Core.runLiFlags (x : Core) (d : BitVec 8) (imm : Word) (op : Op2) : Try Core := do
  let vd ← x.source d
  .ok (vd.core.setFlags (op vd.value imm x.here.flags).f)

/-- SA: W[d] = op(W[d], W[s]) (R443). -/
def Core.runSa (x : Core) (d s : BitVec 6) (op : Op2) : Try Core := do
  let vs ← x.source (s.setWidth 8)
  let vd ← vs.core.source (d.setWidth 8)
  .ok (vd.core.finish vd.addr (op vd.value vs.value x.here.flags))

/-- SA CMP: the flags of W[d] − W[s]. -/
def Core.runSaFlags (x : Core) (d s : BitVec 6) (op : Op2) : Try Core := do
  let vs ← x.source (s.setWidth 8)
  let vd ← vs.core.source (d.setWidth 8)
  .ok (vd.core.setFlags (op vd.value vs.value x.here.flags).f)

/-- A value written to a destination spec: MFSW, MFLR, MFWP, IN. -/
def Core.runStore (x : Core) (d : BitVec 8) (v : Word) : Try Core := do
  let vd ← x.operand d
  .ok (vd.core.result vd.addr v)

end Sys2Proof.Machine
end

