-- ==== Sys2Proof/Machine/Stakes.lean ====
section
/-! DEFINITION. Stakes: the banks of the quarters and of the system controller, their requests and the bank cycle
that answers them (R502 to R505, R511). -/

namespace Sys2Proof.Machine

/-! ### Names (R502) -/

/-- The requester ID of a context. -/
def requester (k c : Nat) : Nat := if k = 48 then c else 0x10 + 32 * k + c

/-- The core and context of a requester ID. -/
def requesterCore (r : Nat) : Nat × Nat := if r < 0x10 then (48, r) else ((r - 0x10) / 32, (r - 0x10) % 32)

/-- A bank a core can select: an engine its own quarter's (0) or the system controller's (1), the system controller all
five. -/
def stakeBankOk (k bank : Nat) : Bool := if k = 48 then bank < 5 else k < 48 && bank < 2

/-- The bank of a selection: a quarter, or 4 for the system controller. -/
def stakeBank (k : Nat) (sel : Word) : Nat :=
  if k = 48 then sel.toNat / 8192 else if sel.toNat / 8192 = 1 then 4 else k / 12

/-- The number of a selected stake. -/
def stakeNo (k : Nat) (sel : Word) : Nat := 64 * stakeBank k sel + sel.toNat % 64

def State.stake (s : State) (n : Nat) : Stake := s.stakes.get n {}
def State.setStake (s : State) (n : Nat) (x : Stake) : State := { s with stakes := s.stakes.set n x }

/-! ### Requests (R503, R505) -/

/-- A request reaches a bank. -/
def State.askBank (s : State) (bank : Nat) (a : StakeAsk) : State :=
  { s with stakeAsks := s.stakeAsks.set bank (s.stakeAsks.get bank [] ++ [a]) }

/-- A read of STK_ACQ or STK_PEEK by the running context: the request, and the suspension until its answer; `dest` is
the D-space word that takes the answer (R505). -/
def State.readStake (s : State) (k : Nat) (acquire : Bool) (dest : Option Nat) : State :=
  let x := s.core k
  let n := stakeNo k x.here.stkSel
  let r := requester k x.cur
  (s.askBank (n / 64) (if acquire then .acquire r n else .peek r n)).setCore k (x.suspend k (.stake acquire dest))

/-- A write of STK_REL by context `c`: it waits for the block moves the context has posted (R505). -/
def State.writeStkRel (s : State) (k c : Nat) : State :=
  let x := (s.core k).ctx c
  let n := stakeNo k x.stkSel
  s.askBank (n / 64) (.release (requester k c) n (x.moves.map (·.tag)))

/-- A block move of a context ends: the releases that waited for it wait no longer (R505). -/
def State.releaseAfter (s : State) (k c tag : Nat) : State :=
  { s with
    stakeAsks := s.stakeAsks.map fun (b, l) => (b, l.map fun a => match a with
      | .release r n after => .release r n (if r = requester k c then after.filter (· ≠ tag) else after)
      | a => a) }

/-- An engine's island is reset: every bank releases its stakes, and its own requests are gone (R504). -/
def State.resetStakes (s : State) (e : Nat) : State :=
  let mine := fun r => decide ((requesterCore r).1 = e) && decide (0x10 ≤ r)
  let kept : List StakeAsk → List StakeAsk := fun l => l.filter fun a => match a with
    | .acquire r _ => !mine r
    | .peek r _ => !mine r
    | .release r _ _ => !mine r
    | .islandReset _ _ => true
  [0, 1, 2, 3, 4].foldl
    (fun (s : State) b => s.askBank b (.islandReset (requester e 0) (requester e 31)))
    { s with stakeAsks := s.stakeAsks.map fun (b, l) => (b, kept l) }

/-! ### The bank cycle (R503, R504, R511) -/

/-- A stake released by its owner's reset: STALE, with its packets (R504, R511). -/
def State.staleRelease (s : State) (n owner : Nat) : State :=
  let bank := n / 64
  let payload := [s.time32 * 2 ^ 32 + bank * 2 ^ 29 + n % 64 * 2 ^ 16 + owner]
  let src := if bank < 4 then 0x20 + bank else 0x30
  let s1 := s.setStake n { owner := none, stale := true }
  let s2 := if bank < 4 then s1.toQuarter 0x11 src payload bank else s1
  s2.toDevice 0x11 src payload

/-- A release is applied. -/
def State.applyRelease (s : State) (bank : Nat) : StakeAsk → State
  | .release r n [] => if (s.stake n).owner = some r then s.setStake n {} else s
  | .islandReset lo hi => (List.range 64).foldl (fun (s : State) i =>
      match (s.stake (64 * bank + i)).owner with
      | some o => if lo ≤ o && o ≤ hi then s.staleRelease (64 * bank + i) o else s
      | none => s) s
  | _ => s

/-- The answer of a bank reaches the context that waits for it; its word is not one that a later instruction has written
(R453). -/
def State.answerStake (s : State) (r : Nat) (v : Word) : State :=
  let (k, c) := requesterCore r
  let x := s.core k
  let y := x.ctx c
  match y.suspended with
  | some (.stake _ dest) =>
    let x1 := x.setCtx c { y with stkData := v, stkAnswered := true }
    let x2 := match dest with
      | some a => x1.putD a v
      | none => x1
    (s.setCore k (x2.resume k c)).emit (.coreRead k v)
  | _ => s

/-- STK_ACQ as it answers a requester, and the stake after it: GRANTED, GRANTED-STALE, BUSY or OWNED (R502). -/
def Stake.acquire (x : Stake) (r : Nat) : Word × Stake := match x.owner with
  | some o => if o = r then (BitVec.ofNat 16 (3 * 2 ^ 14 + r), x) else (BitVec.ofNat 16 (2 * 2 ^ 14 + o), x)
  | none => (BitVec.ofNat 16 (b2n x.stale * 2 ^ 14 + r), { x with owner := some r })

/-- STK_PEEK (R502). -/
def Stake.peek (x : Stake) : Word :=
  BitVec.ofNat 16 (b2n x.owner.isSome * 2 ^ 15 + b2n x.stale * 2 ^ 14 + x.owner.getD 0)

/-- The requester of a read. -/
def StakeAsk.reader : StakeAsk → Option Nat
  | .acquire r _ => some r
  | .peek r _ => some r
  | _ => none

/-- Reads in ascending requester ID (R503). -/
def insertAsk (a : StakeAsk) : List StakeAsk → List StakeAsk
  | [] => [a]
  | b :: t => if a.reader.getD 0 ≤ b.reader.getD 0 then a :: b :: t else b :: insertAsk a t

/-- An acquisition or a peek is applied and answered. -/
def State.applyRead (s : State) : StakeAsk → State
  | .acquire r n =>
    let (v, x) := (s.stake n).acquire r
    (s.setStake n x).answerStake r v
  | .peek r n => s.answerStake r (s.stake n).peek
  | _ => s

/-- A release that still waits for block moves. -/
def StakeAsk.waits : StakeAsk → Bool
  | .release _ _ (_ :: _) => true
  | _ => false

/-- STAKE_BANK_CYCLE (R503): releases first, the automatic ones included, then reads by requester ID. -/
def execStakeBankCycle (bank : Nat) (s : State) : Ans :=
  .next (
    let asks := s.stakeAsks.get bank []
    if 5 ≤ bank || asks = [] then s
    else
      let s1 : State := { s with stakeAsks := s.stakeAsks.set bank (asks.filter (·.waits)) }
      let s2 := (asks.filter fun a => a.reader.isNone).foldl (fun (s : State) a => s.applyRelease bank a) s1
      let reads := (asks.filter fun a => a.reader.isSome).foldr insertAsk []
      reads.foldl (fun (s : State) a => s.applyRead a) s2)

end Sys2Proof.Machine
end

