-- ==== Sys2Proof/Machine/CoreIo.lean ====
section
/-! DEFINITION. The I/O space of the Sehar cores: what every port reads and what a write of it does (R437, R438,
R471, R480, R490, R496 to R498, R502, R510, R307, R422, R429). -/

namespace Sys2Proof.Machine

/-- The state after a command that always runs. -/
def nextOf (a : Ans) (s : State) : State := match a with
  | .next t => t
  | .fault _ => s
  | .refused _ => s

/-- A context of a core changed. -/
def State.modCtx (s : State) (k c : Nat) (f : Ctx → Ctx) : State := s.modCore k fun x => x.setCtx c (f (x.ctx c))

/-- A write of context `c` was refused where no status register of the field's block takes it: SYS_XSTAT (R18, R490). -/
def State.ctxRefused (s : State) (k c : Nat) : State := s.modCtx k c fun x => { x with fieldRefused := true }

/-- Low and high halves of a 32-bit register. -/
def loWord (v : BitVec 32) : Word := v.setWidth 16
def hiWord (v : BitVec 32) : Word := v.extractLsb' 16 16
def putLo (v : BitVec 32) (w : Word) : BitVec 32 := hiWord v ++ w
def putHi (v : BitVec 32) (w : Word) : BitVec 32 := w ++ loWord v

/-- A half of a register: the low one for an even offset. -/
def halfWord (v : BitVec 32) (hi : Bool) : Word := if hi then hiWord v else loWord v
def putHalf (v : BitVec 32) (hi : Bool) (w : Word) : BitVec 32 := if hi then putHi v w else putLo v w

/-- The bits of a half written with 1 cleared (R15). -/
def clearHalf (v : BitVec 32) (hi : Bool) (w : Word) : BitVec 32 := v &&& ~~~(putHalf 0 hi w)

/-! ### Exception registers and the window (R490, R480) -/

/-- SYS_XSTAT. -/
def Ctx.xstat (x : Ctx) : Word :=
  BitVec.ofNat 16 (b2n x.exl * 2 ^ 15 + b2n x.gate.isSome * 2 ^ 14 + b2n x.fieldRefused * 2 ^ 13 + b2n x.bd * 2 + b2n x.rpta)

/-- Registers 0x000 to 0x00C of a context. -/
def Ctx.excReg (x : Ctx) (i : Nat) : Word := match i with
  | 0x0 => x.epc
  | 0x1 => x.esw
  | 0x2 => x.ewp
  | 0x3 => BitVec.ofNat 16 (b2n x.epriv)
  | 0x4 => x.cause
  | 0x5 => x.cause2
  | 0x6 => x.eaddr
  | 0x7 => x.rc.setWidth 16
  | 0x8 => x.xstat
  | 0x9 => x.xwp
  | 0xA => x.ubase
  | 0xB => x.ulim
  | 0xC => x.wdog
  | _ => 0

/-- A write of registers 0x000 to 0x00C; none when it is refused (R488, R490). -/
def Ctx.putExcReg (x : Ctx) (i : Nat) (v : Word) : Option Ctx := match i with
  | 0x0 => some { x with epc := v }
  | 0x1 => some { x with esw := v &&& 0xC01F }
  | 0x2 => some { x with ewp := v &&& 0xFFC0 }
  | 0x3 => if v.getLsbD 0 && !x.epriv then none else some { x with epriv := v.getLsbD 0 }
  | 0x7 => if v.toNat % 8192 = 0 || 4096 < v.toNat % 8192 then none else some { x with rc := v.setWidth 13 }
  | 0x8 => some { x with
      exl := v.getLsbD 15, fieldRefused := x.fieldRefused && !v.getLsbD 13, bd := v.getLsbD 1, rpta := v.getLsbD 0 }
  | 0x9 => some { x with xwp := v &&& 0xFFC0 }
  | 0xA => some { x with ubase := v }
  | 0xB => some { x with ulim := v }
  | 0xC => some { x with wdog := v, wdogMore := 0 }
  | _ => some x

/-- Registers of the window at offset `i` from 0x020 (R480). -/
def Ctx.windowReg (x : Ctx) (i : Nat) : Word := match i with
  | 0xD => x.pc
  | 0xE => x.wp
  | 0xF => x.sw
  | 0x10 => x.lr
  | _ => x.excReg i

/-- A write through the window. -/
def Ctx.putWindow (x : Ctx) (i : Nat) (v : Word) : Option Ctx := match i with
  | 0xD => some { x with pc := v }
  | 0xE => some { x with wp := v &&& 0xFFC0 }
  | 0xF => some (x.setSw v)
  | 0x10 => some { x with lr := v }
  | _ => x.putExcReg i v

/-- A context is ready, running or suspended: window writes to it are refused (R480). -/
def Core.busyCtx (x : Core) (c : Nat) : Bool :=
  x.ready.getLsbD c || (x.ctx c).suspended.isSome || (x.cur = c && !x.stalled)

/-- SYS_RDY bits a core has (R480). -/
def readyMask (k : Nat) : BitVec 32 := BitVec.ofNat 32 (2 ^ coreContexts k - 1)

/-! ### Core-local registers (R471, R480, R490) -/

/-- SYS_CORE_ID of context `c`. -/
def coreId (k c : Nat) : Word :=
  BitVec.ofNat 16 ((if k < 48 then 0x1 else if k = 48 then 0x2 else 0x3) * 2 ^ 12 + c * 2 ^ 7 + (if k < 48 then k else 0))

/-- Ports 0x000 to 0x05F. -/
def State.readLocal (s : State) (k c port : Nat) : Word :=
  let x := s.core k
  let y := x.ctx c
  match port with
  | 0x010 => BitVec.ofNat 16 (x.gateBase.toNat * 256)
  | 0x011 => BitVec.ofNat 16 c
  | 0x012 => loWord x.ready
  | 0x013 => hiWord x.ready
  | 0x014 => x.irqPend
  | 0x015 => x.irqMask
  | 0x016 => x.irqCtx.setWidth 16
  | 0x018 => y.csel.setWidth 16
  | 0x040 => coreId k c
  | 0x041 => BitVec.ofNat 16 x.cycle
  | 0x042 => x.cycleHi
  | 0x043 => loWord x.mispred
  | 0x044 => x.mispredHi
  | 0x045 => y.iaddr
  | 0x046 => x.iread k y.iaddr
  | 0x050 => y.bmDone.setWidth 16
  | 0x051 => y.bmPoison.setWidth 16
  | 0x052 => y.bmErr.setWidth 16
  | 0x053 => BitVec.ofNat 16 y.moves.length
  | _ =>
    if port < 0x010 then y.excReg port
    else if 0x020 ≤ port && port ≤ 0x030 then (x.ctx y.csel.toNat).windowReg (port - 0x020)
    else 0

/-- A context's IDLE suspension ends (R480, R491). -/
def State.wakeCtx (s : State) (k c : Nat) : State :=
  if ((s.core k).ctx c).suspended = some .idle then s.modCore k fun x => x.resume k c else s

/-- A write of SYS_IDATA that takes effect at a cycle: the word is fetchable 4 cycles later, 8 after the OUT, and ADDR
increments (R453, R471). -/
def State.writeIdata (s : State) (k c cycle : Nat) (v : Word) : State :=
  (s.modCore k fun x => x.later (cycle + 4) (.imem (x.ctx c).iaddr.toNat) v).modCtx k c fun y =>
    { y with iaddr := y.iaddr + 1 }

/-- A write of ports 0x000 to 0x05F by context `c`. -/
def State.writeLocal (s : State) (k c port : Nat) (v : Word) : State :=
  let x := s.core k
  let y := x.ctx c
  match port with
  | 0x010 => if 0x80 ≤ v.toNat / 256 then s.ctxRefused k c else s.setCore k { x with gateBase := v.extractLsb' 8 8 }
  | 0x012 => s.setCore k ({ x with ready := putLo x.ready v &&& readyMask k }.takeUp k)
  | 0x013 => s.setCore k ({ x with ready := putHi x.ready v &&& readyMask k }.takeUp k)
  | 0x015 => s.setCore k { x with irqMask := v }
  | 0x016 => s.setCore k { x with irqCtx := v.setWidth 5 }
  | 0x017 => s.wakeCtx k (v.toNat % 32)
  | 0x018 => s.modCtx k c fun y => { y with csel := v.setWidth 5 }
  | 0x043 => s.setCore k { x with mispred := putLo x.mispred v }
  | 0x044 => s.setCore k { x with mispred := putHi x.mispred v }
  | 0x045 => s.modCtx k c fun y => { y with iaddr := v }
  | 0x046 => s.writeIdata k c x.cycle v
  | 0x050 => s.modCtx k c fun y => { y with bmDone := y.bmDone &&& ~~~v.setWidth 4 }
  | 0x051 => s.modCtx k c fun y => { y with bmPoison := y.bmPoison &&& ~~~v.setWidth 4 }
  | 0x052 => s.modCtx k c fun y => { y with bmErr := y.bmErr &&& ~~~v.setWidth 4 }
  | _ =>
    if port < 0x010 then match y.putExcReg port v with
      | some y1 => s.setCore k (x.setCtx c y1)
      | none => s.ctxRefused k c
    else if 0x020 ≤ port && port ≤ 0x030 then
      let sel := y.csel.toNat
      if x.busyCtx sel then s.ctxRefused k c
      else match (x.ctx sel).putWindow (port - 0x020) v with
        | some y1 => s.setCore k (x.setCtx sel y1)
        | none => s.ctxRefused k c
    else s

/-! ### Mailbox blocks (R495, R498) -/

/-- A register of a block at offset `off`. -/
def Mailbox.read (b : Mailbox) (off : Nat) : Word :=
  if off < 0x20 then b.words.get off 0
  else if off = 0x20 then
    BitVec.ofNat 16 (b2n b.full * 2 ^ 15 + b2n b.collision * 2 ^ 14 + b2n b.wake * 2 ^ 13 + b2n b.fieldRefused * 2 ^ 12 + b.len)
  else if off = 0x23 then BitVec.ofNat 16 (b2n b.wake)
  else 0

/-- A change of the WAKE mode: refused while FULL (R494). -/
def State.mbSetWake (s : State) (i : Nat) (w : Bool) : State :=
  s.modMailbox i fun b => if b.full && b.wake ≠ w then { b with fieldRefused := true } else { b with wake := w }

/-- A message word written by a core that sends (R493, R494). -/
def State.mbWriteWord (s : State) (k c i off : Nat) (v : Word) : State :=
  if off = 0 then s.mbWord0 (.core k c) i (v.setWidth 32)
  else s.modMailbox i fun b => b.putWord off v

/-- A write of a block by core `k`, the sender or the receiver of instance `i`. -/
def State.mbWrite (s : State) (k c i off : Nat) (v : Word) : State :=
  let sends := s.mbSender i = .core k
  if off < 0x20 then (if sends then s.mbWriteWord k c i off v else s)
  else if off = 0x20 then
    s.modMailbox i fun b => { b with
      collision := b.collision && !v.getLsbD 14, fieldRefused := b.fieldRefused && !v.getLsbD 12 }
  else if off = 0x21 then s.mbPost k c i v
  else if off = 0x22 then s.mbRel k c i v
  else if off = 0x23 && sends then s.mbSetWake i (v.getLsbD 0)
  else s

/-- The instance and offset of an engine's port in its mailbox blocks; the blocks of its own position are reserved. -/
def engineBlock (e port : Nat) : Option (Nat × Nat) :=
  let b := (port - 0x100) / 0x28
  let off := (port - 0x100) % 0x28
  if b = 0 then some (64 + e, off)
  else if b = 1 then some (112 + e, off)
  else if b < 6 then (if b - 2 = e % 4 then none else some (instPeer e (b - 2), off))
  else if b < 10 then (if b - 6 = e % 4 then none else some (instPeer (4 * (e / 4) + (b - 6)) (e % 4), off))
  else none

/-! ### Doorbells (R497) -/

/-- Port `i` of a doorbell register's four: LO, HI, enable LO, enable HI. -/
def Core.readDoorbell (x : Core) (reg i : Nat) : Word :=
  if i < 2 then halfWord (x.doorbells.get reg 0) (i = 1) else halfWord (x.doorbellEn.get reg 0) (i = 3)

def Core.writeDoorbell (x : Core) (reg i : Nat) (v : Word) : Core :=
  (if i < 2 then { x with doorbells := x.doorbells.set reg (clearHalf (x.doorbells.get reg 0) (i = 1) v) }
   else { x with doorbellEn := x.doorbellEn.set reg (putHalf (x.doorbellEn.get reg 0) (i = 3) v) } : Core).doorbellLevel

/-! ### Stakes and field books (R502, R510) -/

/-- Ports of the stake block: 0 STK_SEL, 1 STK_ACQ, 2 STK_REL, 3 STK_PEEK. An IN of STK_ACQ or STK_PEEK goes to the
bank (`readStake`); what stands here is what an IOWAIT compares, without an acquisition (log 40). -/
def State.readStakePort (s : State) (k c i : Nat) : Word :=
  let y := (s.core k).ctx c
  let n := stakeNo k y.stkSel
  match i with
  | 0 => y.stkSel
  | 1 => ((s.stake n).acquire (requester k c)).1
  | 3 => (s.stake n).peek
  | _ => 0

def State.writeStakePort (s : State) (k c i : Nat) (v : Word) : State := match i with
  | 0 => if stakeBankOk k (v.toNat / 8192) then s.modCtx k c fun y => { y with stkSel := v &&& 0xE03F } else s.ctxRefused k c
  | 2 => s.writeStkRel k c
  | _ => s

/-- Ports 0x200 to 0x209 of the system controller. -/
def State.readFb (s : State) (c port : Nat) : Word :=
  let x := s.core 48
  let b := s.selBook (s.fbSel c)
  match port with
  | 0x200 => (x.ctx c).fbSel.setWidth 16
  | 0x201 => (b.read false).word.setWidth 16
  | 0x202 => x.fbLatch.extractLsb' 0 16
  | 0x203 => x.fbLatch.extractLsb' 16 16
  | 0x204 => x.fbLatch.extractLsb' 32 16
  | 0x205 => BitVec.ofNat 16 b.rstat
  | 0x206 => BitVec.ofNat 16 b.words.length
  | 0x207 => loWord b.lost
  | 0x208 => hiWord b.lost
  | _ => 0

def State.writeFb (s : State) (c port : Nat) (v : Word) : State :=
  let n := s.fbSel c
  let b := s.selBook n
  match port with
  | 0x200 => if 16 < v.toNat % 32 then s.ctxRefused 48 c else s.modCtx 48 c fun y => { y with fbSel := v.setWidth 5 }
  | 0x207 => s.setBook n { b with lost := clearHalf b.lost false v }
  | 0x208 => s.setBook n { b with lost := clearHalf b.lost true v }
  | 0x209 => s.clearBook (.core 48 c) (v.setWidth 32)
  | _ => s

/-! ### Timetable registers (R307) -/

/-- Register `i` of quarter `q`. -/
def Quarter.readTt (x : Quarter) (i : Nat) : Word := match i with
  | 0x0 => BitVec.ofNat 16 (b2n x.shadowArm * 2 ^ 15 + x.mode.toNat)
  | 0x1 => BitVec.ofNat 16 (b2n x.active * 2 ^ 15 + b2n x.shadowBusy * 2 ^ 14 + b2n x.fieldRefused * 2 ^ 13 +
      b2n x.seam * 2 ^ 12 + b2n x.corrected * 2 ^ 11 + b2n x.integrity * 2 ^ 10)
  | 0x2 => loWord x.swapAt
  | 0x3 => hiWord x.swapAt
  | 0x4 => loWord x.sf
  | 0x5 => hiWord x.sf
  | 0x6 => x.shadowAddr.setWidth 16
  | 0x8 => x.starveLimit.setWidth 16
  | 0x9 => x.starved
  | _ => 0

/-- A swap count at least 2 superframes ahead of the current one (R304). -/
def swapAhead (new sf : BitVec 32) : Bool := decide (2 ≤ (new - sf).toInt)

/-- Interrupt source 3 of the system controller follows STARVED and INTEGRITY (R312, R316, R491). -/
def State.tableLevel (s : State) : State :=
  if (List.range 4).all fun q => (s.quarter q).starved = 0 && !(s.quarter q).integrity then
    s.modCore 48 fun x => { x with irqPend := x.irqPend &&& ~~~8 }
  else s

/-- A write of TT_SWAP_AT (R304). -/
def Quarter.putSwapAt (x : Quarter) (new : BitVec 32) : Quarter :=
  if x.shadowArm || !swapAhead new x.sf then { x with fieldRefused := true } else { x with swapAt := new }

def State.writeTt (s : State) (q i : Nat) (v : Word) : State :=
  let x := s.quarter q
  match i with
  | 0x0 => s.setQuarter q { x with shadowArm := v.getLsbD 15, mode := v.setWidth 2 }
  | 0x1 => s.setQuarter q { x with
      shadowBusy := x.shadowBusy && !v.getLsbD 14, fieldRefused := x.fieldRefused && !v.getLsbD 13
      corrected := x.corrected && !v.getLsbD 11 }
  | 0x2 => s.setQuarter q (x.putSwapAt (putLo x.swapAt v))
  | 0x3 => s.setQuarter q (x.putSwapAt (putHi x.swapAt v))
  | 0x6 => s.setQuarter q { x with shadowAddr := v.setWidth 15 }
  | 0x7 => nextOf (execTtShadowDataWrite q v s) s
  | 0x8 => if v.toNat % 256 = 0 then s.setQuarter q { x with fieldRefused := true }
           else s.setQuarter q { x with starveLimit := v.setWidth 8 }
  | 0x9 => (s.setQuarter q { x with starved := x.starved &&& ~~~v }).tableLevel
  | _ => s

/-! ### DMA channels and timers (R421, R422, R425, R429) -/

/-- Register `i` of a channel. -/
def DmaChannel.readReg (x : DmaChannel) (i : Nat) : Word := match i with
  | 0x00 => BitVec.ofNat 16 (b2n x.shadowArm * 2 ^ 15 + b2n x.auto * 2 ^ 14 + b2n x.en * 2 ^ 13 + x.irqDest.toNat * 2 ^ 11 +
      b2n x.irqEn * 2 ^ 10 + x.trigSrc.toNat * 2 ^ 8 + x.trigSel.toNat)
  | 0x01 => BitVec.ofNat 16 (b2n x.busy * 2 ^ 15 + b2n x.shadowBusy * 2 ^ 14 + b2n x.fieldRefused * 2 ^ 13 +
      b2n x.done * 2 ^ 12 + b2n x.overrun * 2 ^ 11 + x.status.toNat)
  | 0x03 => x.budget
  | 0x04 => BitVec.ofNat 16 x.pend
  | 0x05 => x.count
  | 0x06 => x.resid.setWidth 16
  | 0x07 => (x.resid.extractLsb' 16 8).setWidth 16
  | _ => if 0x10 ≤ i then x.shadow.get (i - 0x10) 0 else 0

/-- Interrupt source 2 of a core follows DONE of the channels that interrupt it (R422, R491). -/
def State.dmaLevel (s : State) (k : Nat) : State :=
  let mine := fun ch =>
    let x := s.channel ch
    x.done && x.irqEn && (if k = 48 then x.irqDest = 0 else decide (x.irqDest ≠ 0) && decide (k / 4 = 3 * (ch / 8) + x.irqDest.toNat - 1))
  if (List.range 32).any mine then s else s.modCore k fun x => { x with irqPend := x.irqPend &&& ~~~4 }

/-- The cores a channel's interrupt reaches (R422). -/
def dmaCores (ch : Nat) (dest : BitVec 2) : List Nat :=
  if dest = 0 then [48] else (List.range 4).map fun i => 12 * (ch / 8) + 4 * (dest.toNat - 1) + i

def State.writeDma (s : State) (ch i : Nat) (v : Word) : State :=
  let x := s.channel ch
  match i with
  | 0x00 => nextOf (execDmaCtlWrite ch v s) s
  | 0x01 =>
    let s1 := s.setChannel ch { x with
      shadowBusy := x.shadowBusy && !v.getLsbD 14, fieldRefused := x.fieldRefused && !v.getLsbD 13
      done := x.done && !v.getLsbD 12, overrun := x.overrun && !v.getLsbD 11 }
    (dmaCores ch x.irqDest).foldl (fun (s : State) k => s.dmaLevel k) s1
  | 0x02 => nextOf (execDmaGoWrite ch v s) s
  | 0x03 => if v = 0 then s.setChannel ch { x with fieldRefused := true } else s.setChannel ch { x with budget := v }
  | _ =>
    if 0x10 ≤ i then
      if x.shadowArm then s.setChannel ch { x with shadowBusy := true }
      else s.setChannel ch { x with shadow := x.shadow.set (i - 0x10) v }
    else s

/-- Register `i` of a timer. -/
def DmaTimer.readReg (x : DmaTimer) (i : Nat) : Word := match i with
  | 0 => BitVec.ofNat 16 (b2n x.en * 2 ^ 15 + b2n x.fieldRefused * 2 ^ 14)
  | 1 => loWord x.period
  | 2 => hiWord x.period
  | _ => 0

/-- A write of PERIOD: changing it while EN is 1 is refused (R429). -/
def DmaTimer.putPeriod (x : DmaTimer) (p : BitVec 32) : DmaTimer :=
  if x.en && p ≠ x.period then { x with fieldRefused := true } else { x with period := p }

def State.writeTimer (s : State) (n i : Nat) (v : Word) : State :=
  let x := s.timers.get n {}
  match i with
  | 0 => nextOf (execDmaTimerCtlWrite n v s) s
  | 1 => { s with timers := s.timers.set n (x.putPeriod (putLo x.period v)) }
  | 2 => { s with timers := s.timers.set n (x.putPeriod (putHi x.period v)) }
  | _ => s

/-! ### The maps (R437, R438) -/

/-- A firmware interface port: this manual does not give it (R437). -/
def isFirmwarePort (k port : Nat) : Bool := 0x800 ≤ port && (k < 48 || (k = 48 && 0x840 ≤ port))

/-- The value of a channel engine's port. -/
def State.readEngine (s : State) (k c port : Nat) : Word :=
  if port < 0x100 then s.readLocal k c port
  else if port < 0x290 then match engineBlock k port with
    | some (i, off) => (s.mailbox i).read off
    | none => 0
  else if port < 0x294 then (s.core k).readDoorbell 0 (port - 0x290)
  else if 0x298 ≤ port && port < 0x29C then s.readStakePort k c (port - 0x298)
  else if 0x400 ≤ port && port < 0x800 && (port - 0x400) / 0x100 = k / 12 then
    (s.channel ((port - 0x400) / 0x20)).readReg (port % 0x20)
  else 0

def State.writeEngine (s : State) (k c port : Nat) (v : Word) : State :=
  if port < 0x100 then s.writeLocal k c port v
  else if port < 0x290 then match engineBlock k port with
    | some (i, off) => s.mbWrite k c i off v
    | none => s
  else if port < 0x294 then s.modCore k fun x => x.writeDoorbell 0 (port - 0x290) v
  else if 0x298 ≤ port && port < 0x29C then s.writeStakePort k c (port - 0x298) v
  else if 0x400 ≤ port && port < 0x800 && (port - 0x400) / 0x100 = k / 12 then
    s.writeDma ((port - 0x400) / 0x20) (port % 0x20) v
  else s

/-- MB_SEL: an instance the system controller has, the secure ones from context 7 alone (R496, R498). -/
def mbSelOk (c sel : Nat) : Bool := sel < 164 && (sel < 160 || c = 7)

/-- The value of a port of the system controller. -/
def State.readSystem (s : State) (c port : Nat) : Word :=
  let y := (s.core 48).ctx c
  if port < 0x100 then s.readLocal 48 c port
  else if port = 0x100 then y.mbSel.setWidth 16
  else if 0x110 ≤ port && port < 0x11C then (s.core 48).readDoorbell ((port - 0x110) / 4) ((port - 0x110) % 4)
  else if 0x120 ≤ port && port < 0x148 then (s.mailbox y.mbSel.toNat).read (port - 0x120)
  else if 0x200 ≤ port && port < 0x20A then s.readFb c port
  else if 0x210 ≤ port && port < 0x214 then s.readStakePort 48 c (port - 0x210)
  else if 0x280 ≤ port && port < 0x284 && c = 7 then (s.core 48).readDoorbell 3 (port - 0x280)
  else if 0x300 ≤ port && port < 0x340 then
    if port % 0x10 = 0xA then s.oaMask ((port - 0x300) / 0x10)
    else (s.quarter ((port - 0x300) / 0x10)).readTt (port % 0x10)
  else if 0x400 ≤ port && port < 0x800 then (s.channel ((port - 0x400) / 0x20)).readReg (port % 0x20)
  else if 0x800 ≤ port && port < 0x840 then (s.timers.get ((port - 0x800) / 4) {}).readReg (port % 4)
  else 0

def State.writeSystem (s : State) (c port : Nat) (v : Word) : State :=
  let y := (s.core 48).ctx c
  if port < 0x100 then s.writeLocal 48 c port v
  else if port = 0x100 then
    if mbSelOk c (v.toNat % 256) then s.modCtx 48 c fun y => { y with mbSel := v.setWidth 8 }
    else s.modMailbox y.mbSel.toNat fun b => { b with fieldRefused := true }
  else if 0x110 ≤ port && port < 0x11C then
    s.modCore 48 fun x => x.writeDoorbell ((port - 0x110) / 4) ((port - 0x110) % 4) v
  else if 0x120 ≤ port && port < 0x148 then s.mbWrite 48 c y.mbSel.toNat (port - 0x120) v
  else if 0x200 ≤ port && port < 0x20A then s.writeFb c port v
  else if 0x210 ≤ port && port < 0x214 then s.writeStakePort 48 c (port - 0x210) v
  else if 0x280 ≤ port && port < 0x284 && c = 7 then s.modCore 48 fun x => x.writeDoorbell 3 (port - 0x280) v
  else if 0x300 ≤ port && port < 0x340 then s.writeTt ((port - 0x300) / 0x10) (port % 0x10) v
  else if 0x400 ≤ port && port < 0x800 then s.writeDma ((port - 0x400) / 0x20) (port % 0x20) v
  else if 0x800 ≤ port && port < 0x840 then s.writeTimer ((port - 0x800) / 4) (port % 4) v
  else s

/-- What an I/O port holds for context `c` of core `k`; a firmware port reads a free word, and a reserved port 0. -/
def State.ioPeek (s : State) (k c port : Nat) : Word :=
  if isFirmwarePort k port then Config.freeWord s.fresh
  else if k < 48 then s.readEngine k c port
  else if k = 48 then s.readSystem c port
  else if port < 0x100 then s.readLocal k c port
  else 0

/-- A write of an I/O port taking effect; a reserved port ignores it, a firmware port keeps it. -/
def State.ioWrite (s : State) (k c port : Nat) (v : Word) : State :=
  if isFirmwarePort k port then s.modCore k fun x => { x with firmware := x.firmware.set port v }
  else if k < 48 then s.writeEngine k c port v
  else if k = 48 then s.writeSystem c port v
  else if port < 0x100 then s.writeLocal k c port v
  else s

/-- What a read of a port changes: the captures of SYS_CYCLE_LO and SYS_MISPRED_LO, SYS_IADDR, a word of a field
book (R471, R509). -/
def State.ioReadEffect (s : State) (k c port : Nat) : State :=
  if isFirmwarePort k port then { s with fresh := s.fresh + 1 }
  else match port with
    | 0x041 => s.modCore k fun x => { x with cycleHi := BitVec.ofNat 16 (x.cycle / 2 ^ 16) }
    | 0x043 => s.modCore k fun x => { x with mispredHi := hiWord x.mispred }
    | 0x046 => s.modCtx k c fun y => { y with iaddr := y.iaddr + 1 }
    | 0x201 => if k = 48 then (s.readRd0 c false).2 else s
    | _ => s

/-- The port is one whose read a stake bank answers. -/
def stakePort (k port : Nat) : Option Bool :=
  let base := if k = 48 then 0x210 else 0x298
  if 49 ≤ k then none else if port = base + 1 then some true else if port = base + 3 then some false else none

/-! ### Commands of single accesses -/

/-- SYS_CYCLE_LO_READ (R471). -/
def execSysCycleLoRead (k : Nat) (mispred : Bool) (s : State) : Ans :=
  .next (
    let c := (s.core k).cur
    let port := if mispred then 0x043 else 0x041
    if s.mayAccess k then (s.ioReadEffect k c port).emit (.coreRead k (s.ioPeek k c port)) else s)

/-- SYS_IDATA_ACCESS (R471): a read returns the word, a write stores it; either increments ADDR. -/
def execSysIdataAccess (k : Nat) (write : Option Word) (s : State) : Ans :=
  .next (
    let c := (s.core k).cur
    if !s.mayAccess k then s
    else match write with
      | some v => s.ioWrite k c 0x046 v
      | none => (s.ioReadEffect k c 0x046).emit (.coreRead k (s.ioPeek k c 0x046)))

/-- SYS_WAKE_WRITE (R491). -/
def execSysWakeWrite (k : Nat) (v : Word) (s : State) : Ans :=
  .next (if s.mayAccess k then s.ioWrite k (s.core k).cur 0x017 v else s)

/-- STAKE_ACQUIRE_READ (R502, R505): the running context waits for the bank's answer. -/
def execStakeAcquireRead (k : Nat) (s : State) : Ans :=
  .next (if k < 49 && s.mayAccess k then s.readStake k true none else s)

/-- STAKE_PEEK_READ (R502, R505). -/
def execStakePeekRead (k : Nat) (s : State) : Ans :=
  .next (if k < 49 && s.mayAccess k then s.readStake k false none else s)

end Sys2Proof.Machine
end

