-- ==== Sys2Proof/Machine/HostReads.lean ====
section
/-! DEFINITION. The answers to the device's reads of host memory (R94, R126, R137, R161, R174, R183, R184, R209, R427),
and a port's entry into D3hot (R599). -/

namespace Sys2Proof.Machine

/-- How a host read ended: data with its poison mark, or a failure. -/
abbrev ReadEnd := Option (List Byte × Bool)

/-- A fetched operand: a poisoned completion is FETCH-POISON, a failed one FETCH-FAULT (R137). -/
def fetchResult : ReadEnd → Except (BitVec 8) (List Byte)
  | some (bs, false) => .ok bs
  | some (_, true) => .error stFetchPoison
  | none => .error stFetchFault

/-- The answer of one read reaches what asked for it. A poisoned ring read has failed (R94). -/
def State.readEnds (s : State) (p : Nat) (r : HostRead) (e : ReadEnd) : State :=
  match r.purpose with
  | .ring q pos => s.ringArrives p q pos (match e with
    | some (bs, false) => some bs
    | _ => none)
  | .header => s.admitArrives p r.addr false (e.map (·.1)) ((e.map (·.2)).getD false)
  | .runList => s.admitArrives p r.addr true (e.map (·.1)) ((e.map (·.2)).getD false)
  | .legs tag n k => s.legsArrive p tag n k (fetchResult e)
  | .cdb tag => s.cdbArrives p tag r.addr (fetchResult e)
  | .operand tag => s.operandArrives p tag (fetchResult e)
  | .stageIn tag pos => s.stageInArrives p tag pos e
  | .stageBack tag => s.stageBackArrives p tag (match e with
    | some (_, false) => true
    | _ => false)
  | .readback tag => s.readbackEnds p tag (match e with
    | some (_, false) => true
    | _ => false)
  | .dma ch pos => s.dmaArrives ch pos e
  | .dmaBack ch => s.dmaBackArrives ch (match e with
    | some (_, false) => true
    | _ => false)
  | .dropped => s

/-- The payload of a read's completion counted (R519, R542). -/
def State.countRead (s : State) (p : Nat) (r : HostRead) (e : ReadEnd) : State := match e with
  | some _ => s.countTlp p 0 r.tenant (tlpBytes r.addr r.len)
  | none => s

/-- The read `id` of a port in flight ends; one that waits for its place goes out (R48). -/
def State.endRead (s : State) (p id : Nat) (e : ReadEnd) : State :=
  match (s.port p).reads.find? fun r => r.id = id && r.sent with
  | none => s
  | some r =>
    ((((s.countRead p r e).modPort p fun x => { x with reads := x.reads.filter fun u => decide (u.id ≠ id) }).sendRead
      p).readEnds p r e)

/-- A data completion carries as many bytes as the read asked for. -/
def State.readLen (s : State) (p id : Nat) : Option Nat := ((s.port p).reads.find? fun r => r.id = id).map (·.len)

/-- HOST_READ_COMPLETION (R137). Data of another length than was asked for, or of no read in flight, answers no read;
its payload counts all the same (R519). -/
def execHostReadCompletion (p id : Nat) (r : HostResp) (s : State) : Ans :=
  .next (match r with
    | .data bs bad => if s.readLen p id = some bs.length then s.endRead p id (some (bs, bad)) else s.hostTlp p 0 (tlpBytes 0 bs.length)
    | .unsupported => s.endRead p id none
    | .abort => s.endRead p id none)

/-- COMPLETION_READBACK (R161): the read-back of an ended traverse is answered, or fails. -/
def execCompletionReadback (p tag : Nat) (ok : Bool) (s : State) : Ans :=
  .next (match (s.port p).reads.find? fun r => r.purpose = .readback tag && r.sent with
    | some r => s.endRead p r.id (if ok then some ([0], false) else none)
    | none => s)

/-- A read not yet sent ends, as one answered with Unsupported Request (R599). -/
def State.endUnsent (s : State) (p : Nat) (r : HostRead) : State :=
  (s.modPort p fun x => { x with reads := x.reads.filter fun u => decide (u.id ≠ r.id) }).readEnds p r none

/-- D3HOT_ENTRY (R59, R599): the runs of DMA channels through the port end, and the reads it has not sent yet. -/
def execD3hotEntry (p : Nat) (s : State) : Ans :=
  .next (
    if s.linked p && (s.port p).configured then
      let s1 := (s.modPort p fun x => { x with d3hot := true }).dmaPortLost p
      ((s1.port p).reads.filter fun r => !r.sent).foldl (fun (s : State) r => s.endUnsent p r) s1
    else s)

/-- HOST_READ_TIMEOUT (R137): none while Device Control 2 disables the completion timeout (R48). -/
def execHostReadTimeout (p id : Nat) (s : State) : Ans :=
  .next (if bitN ((s.port p).cfg 38) 4 then s else s.endRead p id none)

end Sys2Proof.Machine
end

