-- ==== Sys2Proof/Machine/Monument.lean ====
section
/-! DEFINITION. The Monument metering island: taps, meters, readings, checkpoints, log, the metering view
(R514 to R534, R540 to R544). -/

namespace Sys2Proof.Machine

/-! ### Text and numbers -/

/-- Upper-case hex digit of a nibble. -/
def hexDigit (n : Nat) : Byte := BitVec.ofNat 8 (if n < 10 then 0x30 + n else 0x37 + n)

/-- `n` decimal digits of a value, most significant first. -/
def decDigits : Nat → Nat → List Byte
  | 0, _ => []
  | n + 1, v => decDigits n (v / 10) ++ [BitVec.ofNat 8 (0x30 + v % 10)]

/-- The 10-byte packed-decimal field of a counter (R523): byte 0 holds digits 1 and 0. -/
def packed : Nat → Nat → List Byte
  | 0, _ => []
  | n + 1, v => BitVec.ofNat 8 (v % 10 + 16 * (v / 10 % 10)) :: packed n (v / 100)

/-- Counters hold 20 digits (R523). -/
def counterMod : Nat := 10 ^ 20

/-! ### The island -/

/-- The island runs: its rails are up and its crystal oscillates (R517, R588). -/
def Monument.live (m : Monument) : Bool := m.powered && m.crystal

/-- The Monument changed. -/
def State.modMon (s : State) (f : Monument → Monument) : State := { s with mon := f s.mon }

/-- An effect the island makes only while it runs. -/
def State.onMon (s : State) (f : Monument → Monument) : State := if s.mon.live then s.modMon f else s

def Monument.counter (m : Monument) (i : Nat) : Nat := m.counters.get i 0

/-- IMP of a chain (R534). -/
def Monument.impOf (m : Monument) (c : Nat) : Nat := m.imp.get c 1000

/-! ### The log (R530 to R533) -/

/-- The public key, X then Y, of the key generated at sealing (R527, R536); 64 bytes. -/
def Monument.keyBytes (m : Monument) : List Byte :=
  let k := Config.publicKey (Config.signingKey m.keyNo)
  beBytes 32 k.1.toNat ++ beBytes 32 k.2.toNat

/-- Bytes 0 to 47 of a log record (R532). -/
def LogRec.body (r : LogRec) (index : Nat) : List Byte :=
  leBytes 4 index ++ leBytes 2 r.powerups ++ leBytes 6 r.uptime ++ leBytes 1 r.kind ++ leBytes 1 r.item ++ [0, 0] ++
    (r.old ++ List.replicate 16 0).take 16 ++ (r.new ++ List.replicate 16 0).take 16

/-- What CHAIN of record `i` is computed with: the chain before it, or for record 0 the public key (R532). -/
def Monument.prevChain (m : Monument) (i : Nat) : List Byte :=
  if i = 0 then m.keyBytes else match m.log[i - 1]? with
    | some r => r.chain
    | none => []

/-- Commands sent to the log flash (R592). -/
def Monument.flash (m : Monument) (ops : List FlashOp) : Monument := { m with spi := m.spi ++ ops }

/-- A record programmed into the log flash and read back (R531, R533, R535). -/
def Monument.program (m : Monument) (addr : Nat) (bs : List Byte) : Monument :=
  m.flash (progOps 0x02 addr bs ++ [{ op := 0x03, addr, len := bs.length }])

/-- Flash offset of log record `i` (R530). -/
def logOffset (i : Nat) : Nat := 0x50000 + 64 * i

/-- The flash takes the next write: a free bit for each (R533, log 50). -/
def Monument.takes (m : Monument) : Bool := Config.flashTakes m.flashTries

/-- A write has been tried. -/
def Monument.tried (m : Monument) : Monument := { m with flashTries := m.flashTries + 1 }

/-- A log record written, or counted in UNLOGGED when none is free; a flash that does not take it, or read it back, sets
FLASH_FAULT (R533). An unsealed Monument keeps no log: record 0 of a log is SEAL (R536). -/
def Monument.logWith (m : Monument) (taken : Bool) (kind item : Nat) (old new : List Byte) : Monument :=
  if !m.isSealed then m
  else if m.logCap ≤ m.log.length then { m with logFull := true, unlogged := m.unlogged + 1 }
  else
    let i := m.log.length
    let r : LogRec := { powerups := m.powerups, uptime := m.uptimeMs, kind, item, old, new, chain := [] }
    let chain := (sha256 (m.prevChain i ++ r.body i)).take 16
    let m1 := m.program (logOffset i) (r.body i ++ chain)
    if taken then { m1 with log := m.log ++ [{ r with chain }], logFull := m.logCap ≤ i + 1 }
    else { m1 with flashFault := true }

/-- An event logged (R533). -/
def Monument.logEvent (m : Monument) (kind item : Nat) (old new : List Byte) : Monument :=
  m.tried.logWith m.takes kind item old new

/-- CHAIN of record `i` verifies against the record before it (R532). -/
def Monument.chainOk (m : Monument) (i : Nat) : Bool := match m.log[i]? with
  | some r => r.chain = (sha256 (m.prevChain i ++ r.body i)).take 16
  | none => false

/-! ### Meters (R519 to R524, R539) -/

/-- A counter advances; each multiple of 2^30 bytes the selected one passes queues a test pulse, up to 255. -/
def Monument.add (m : Monument) (i n : Nat) : Monument :=
  let old := m.counter i
  let passed := if m.test = some i then (old + n) / 2 ^ 30 - old / 2 ^ 30 else 0
  { m with counters := m.counters.set i ((old + n) % counterMod), pulses := Nat.min 255 (m.pulses + passed) }

/-- One tap's sample: 64 bytes for each step since the one before (R519). -/
def Monument.tapStep (m : Monument) (i count : Nat) : Monument :=
  let steps := (count + 256 - m.taps.get i 0 % 256) % 256
  { m.add i (64 * steps) with taps := m.taps.set i (count % 256) }

/-- The 16 tap counts become the baseline (R520). -/
def Monument.rebaseline (m : Monument) (taps : List Nat) : Monument :=
  { m with taps := (List.range 16).map fun i => (i, taps.getD i 0 % 256), rebase := false }

/-- A tap over `n` cycles of 1 ns: at most one step of 16 dwords in each (R519). -/
def PayloadTap.run (t : PayloadTap) (n : Nat) : PayloadTap :=
  let k := Nat.min n (t.dwords / 16)
  { dwords := t.dwords - 16 * k, count := t.count + BitVec.ofNat 8 k }

/-- Every tap shows all its whole steps: long after the last TLP. -/
def State.settleTaps (s : State) : State := { s with taps := Tab.mapVals s.taps fun t => t.run t.dwords }

/-- The step counts of the taps, direction 0 and 1 of port 0 first. -/
def State.tapCounts (s : State) : List Nat := (List.range 16).map fun i => (s.taps.get i {}).count.toNat

/-- The Monument samples the payload taps (R519, R520): the first sample after the main domain became valid is the
baseline. -/
def Monument.sampleTaps (m : Monument) (counts : List Nat) : Monument :=
  if m.rebase then m.rebaseline counts
  else (List.range 16).foldl (fun (m : Monument) i => m.tapStep i (counts.getD i 0)) m

/-- The taps over `n` of their cycles: the two clocks are unrelated, so a command says how many pass (log 49). -/
def State.runTaps (s : State) (n : Nat) : State := { s with taps := Tab.mapVals s.taps fun t => t.run n }

/-- TAP_SAMPLE (R519, R520): a sample, `cycles` tap cycles after the last; what the taps show is ignored while the
main-domain valid tap is low. DEDUCED (log 49). -/
def execTapSample (cycles : Nat) (s : State) : Ans :=
  .next (
    if !s.railsValid then s
    else (s.runTaps cycles).onMon fun m => m.sampleTaps (s.runTaps cycles).tapCounts)

/-- MAIN_DOMAIN_VALID_RISE (R520): the first sample, `cycles` tap cycles after the rails became valid, is the baseline. -/
def execMainDomainValidRise (cycles : Nat) (s : State) : Ans :=
  .next (
    if !s.railsValid then s
    else if !s.mon.rebase then s
    else (s.runTaps cycles).onMon fun m => m.rebaseline (s.runTaps cycles).tapCounts)

/-- SHELF_PWR_EN as the Monument's pads sense it (R516, R598). -/
def State.padEnable (s : State) (sh : Nat) : Bool :=
  let st := (s.shelf sh).state
  s.railsValid && (st = .powering || st = .spinning || st = .opened || st = .draining || st = .closing)

/-- One shelf's sample (R521): power-good is debounced over 10 samples; a sample counts while the enable is asserted, and
without it once power-good has stayed high for more than 10,000 samples. -/
def Monument.shelfSample (m : Monument) (sh : Nat) (enable pg : Bool) : Monument :=
  let level := m.pgLevel.getLsbD sh
  let run := if pg = level then 0 else m.pgRun.get sh 0 + 1
  let level1 := if run = 10 then pg else level
  let high := if level1 && !enable then m.pgHigh.get sh 0 + 1 else 0
  let bit : BitVec 48 := BitVec.ofNat 48 (2 ^ sh)
  let m1 := { m with
    pgRun := m.pgRun.set sh (if run = 10 then 0 else run), pgHigh := m.pgHigh.set sh high
    pgLevel := if level1 then m.pgLevel ||| bit else m.pgLevel &&& ~~~bit }
  if enable || 10000 < high then m1.add (16 + sh) 1 else m1

/-- SHELF_TIME_SAMPLE (R521): the Monument's millisecond. -/
def execShelfTimeSample (pg : BitVec 48) (s : State) : Ans :=
  .next (s.onMon fun m =>
    (List.range 48).foldl (fun (m : Monument) sh => m.shelfSample sh (s.padEnable sh) (pg.getLsbD sh))
      { m with uptimeMs := m.uptimeMs + 1 })

/-- OVERRATE of a chain, logged at most once an hour (R522, R532). -/
def Monument.overrate (m : Monument) (c : Nat) : Monument :=
  let x := m.s0.get c {}
  let due : Bool := match x.loggedAt with
    | some t => 3600000 ≤ m.uptimeMs - t
    | none => true
  let m1 := { m with s0 := m.s0.set c { x with overrate := true, loggedAt := if due then some m.uptimeMs else x.loggedAt } }
  if due then m1.logEvent 0x07 c [] [] else m1

/-- A high sample of an energy input. -/
def Monument.s0High (m : Monument) (c : Nat) : Monument :=
  let x := m.s0.get c {}
  let good := if x.high = 0 then decide (10 ≤ x.low) else x.good
  let n := x.high + 1
  let stuck := x.stuck || decide (10000 < n)
  let m1 := { m with s0 := m.s0.set c { x with high := n, low := 0, good, stuck } }
  let m2 := if n = 10 && good then m1.add (64 + c) 1 else m1
  let m3 := if n = 1 && !good then m2.overrate c else m2
  if stuck && !x.stuck then m3.logEvent 0x08 c [] [] else m3

/-- A low sample of an energy input. -/
def Monument.s0Low (m : Monument) (c : Nat) : Monument :=
  let x := m.s0.get c {}
  let n := Nat.min 10 (x.low + 1)
  let stuck := x.stuck && decide (n < 10)
  let m1 := { m with s0 := m.s0.set c { x with high := 0, low := n, stuck } }
  let m2 := if 1 ≤ x.high && x.high ≤ 9 then m1.overrate c else m1
  if x.stuck && !stuck then m2.logEvent 0x09 c [] [] else m2

/-- S0_SAMPLE (R522). -/
def execS0Sample (c : Nat) (high : Bool) (s : State) : Ans :=
  .next (if 12 ≤ c then s else s.onMon fun m => if high then m.s0High c else m.s0Low c)

/-- TEST_PULSE_EMIT (R539). -/
def execTestPulseEmit (s : State) : Ans :=
  .next (
    if s.mon.live && 0 < s.mon.pulses then (s.modMon fun m => { m with pulses := m.pulses - 1 }).emit .testPulse else s)

/-! ### Readings (R525 to R528) -/

/-- STATUS of a reading taken now (R526). PARAM_EN is the level of an input pin, free at each reading (log 50). -/
def Monument.statusNow (m : Monument) : Nat :=
  ((List.range 12).foldl (fun n c => n + b2n (m.s0.get c {}).overrate * 2 ^ c + b2n (m.s0.get c {}).stuck * 2 ^ (12 + c)) 0) +
  b2n m.tamper * 2 ^ 24 + b2n m.logFull * 2 ^ 25 + b2n m.flashFault * 2 ^ 26 + b2n m.coreRestart * 2 ^ 27 +
  b2n (Config.paramPin m.samples) * 2 ^ 28

/-- Bytes 0 to 887 of a reading (R526). -/
def Monument.readingBody (m : Monument) (kind : Nat) : List Byte :=
  [1, 0, BitVec.ofNat 8 (b2n m.isSealed), BitVec.ofNat 8 kind] ++ leBytes 4 m.readSeq ++
  leBytes 8 Config.deviceSerial.toNat ++ (m.instr ++ List.replicate 16 0x20).take 16 ++ leBytes 8 m.uptimeMs ++
  leBytes 4 m.powerups ++ leBytes 4 m.log.length ++ leBytes 4 m.paramGen.toNat ++ leBytes 4 m.unlogged ++
  leBytes 4 m.statusNow ++ leBytes 4 m.period ++ ((List.range 12).flatMap fun c => leBytes 4 (m.impOf c)) ++
  List.replicate 16 0 ++ (List.range 76).flatMap fun i => packed 10 (m.counter i)

/-- The last 64 bytes: the ECDSA signature when sealed, else SHA-256 and zeros (R526, R527). -/
def Monument.sign (m : Monument) (body : List Byte) : List Byte :=
  let h := sha256 body
  if m.isSealed then
    let sig := Config.ecdsaSign (Config.signingKey m.keyNo) (BitVec.ofNat 256 (beNat h)) m.signatures
    beBytes 32 sig.1.toNat ++ beBytes 32 sig.2.toNat
  else h ++ List.replicate 32 0

/-- A reading taken (R525): READ_SEQ advances, every counter is frozen, and what STATUS reports since the previous
reading starts again. -/
def Monument.take (m : Monument) (kind : Nat) : Reading × Monument :=
  let m1 := { m with readSeq := m.readSeq + 1 }
  let body := m1.readingBody kind
  let r : Reading :=
    { kind, seq := m1.readSeq, bytes := body ++ m1.sign body, counters := (List.range 76).map m1.counter
      status := BitVec.ofNat 32 m1.statusNow, sigNo := m1.signatures }
  (r, { m1 with
    signatures := m1.signatures + 1, samples := m1.samples + 1, last := some r, sending := m1.sending ++ [r], coreRestart := false
    s0 := Tab.mapVals m1.s0 fun x => { x with overrate := false } })

/-- A reading of a kind. -/
def Monument.takeKind (m : Monument) (kind : Nat) : Monument := (m.take kind).2

/-- Uptime at which the next periodic reading falls due (R525). -/
def Monument.periodicAt (m : Monument) : Nat := m.lastPeriodic + 1000 * m.period

/-- READ_REQUEST (R515, R525, R544): the message in MON-IN is taken; a request takes a reading unless one was taken
within the last second on request or by period, or the periodic reading falls due within the next second: that one
answers it. -/
def execReadRequest (s : State) : Ans :=
  .next (
    let b := s.mailbox instMonIn
    if !s.mon.live || !b.full then s
    else
      let s1 := s.mbRelease instMonIn
      if b.words.get 0 0 ≠ 0x0B01 || b.len ≠ 1 then s1
      else s1.modMon fun m =>
        let recent : Bool := match m.lastRequest with
          | some t => m.uptimeMs - t < 1000
          | none => false
        if recent || m.periodicAt < m.uptimeMs + 1000 then m else { m.takeKind 0x02 with lastRequest := some m.uptimeMs })

/-- PERIODIC_READING (R525): PERIOD seconds after the one before. -/
def execPeriodicReading (s : State) : Ans :=
  .next (s.onMon fun m =>
    if m.uptimeMs < m.periodicAt then m
    else { m.takeKind 0x01 with lastRequest := some m.uptimeMs, lastPeriodic := m.uptimeMs })

/-! ### The metering view (R528, R529, R542, R543) -/

/-- The counts of the TLPs' tenants folded into the view, and their sums compared with the reading's counters. -/
def State.foldCounts (s : State) (counters : List Nat) (seq : Nat) : State :=
  let v := s.view
  let info : Tab Nat := v.hardware.map fun kv => (kv.1, kv.2 % counterMod)
  let total (p d : Nat) : Nat := ((List.range 257).map fun t => info.get (514 * p + 2 * t + d) 0).sum
  let off (p d : Nat) : Bool :=
    let c := counters.getD (2 * p + d) 0
    2 ^ 23 < (if c ≤ total p d then total p d - c else c - total p d)
  let ports := s.ports.map fun kv =>
    (kv.1, { kv.2 with recon := BitVec.ofNat 2 (b2n (off kv.1 0) + 2 * b2n (off kv.1 1)), viewOff := false, viewDown := false })
  { s with ports, view := { v with info, infoSeq := BitVec.ofNat 32 seq } }

/-- A 10-byte packed-decimal field. -/
def unpack (bs : List Byte) : Nat :=
  bs.reverse.foldl (fun n b => n * 100 + (b.toNat / 16) * 10 + b.toNat % 16) 0

/-- The record received is written to the slot the newest record is not in, then named by MON_VIEW_STAT (R529). -/
def State.writeView (s : State) : State :=
  let r := s.view.incoming
  if r.length ≠ 952 then { s with view := { s.view with incoming := [] } }
  else
    let slot := s.view.valid && !s.view.slot
    let status := fieldAt r 56 4
    let isSealed := byteAt r 2 = 1
    let v : MonView := { s.view with
      valid := true, slot, down := false, sealedRec := isSealed, tamper := bitN status 24
      seq := BitVec.ofNat 32 (fieldAt r 4 4), infoSeq := 0, incoming := []
      slot0 := if slot then s.view.slot0 else r, slot1 := if slot then r else s.view.slot1
      publicKey := if isSealed then s.mon.keyBytes else [] }
    ({ s with view := v } : State).foldCounts ((List.range 76).map fun i => unpack ((r.drop (128 + 10 * i)).take 10))
      (fieldAt r 4 4)

/-- Firmware's secure context takes a segment from MON-OUT; the last one completes the record (R528). -/
def State.takeSegment (s : State) : State :=
  let b := s.mailbox instMonOut
  if !b.full || s.mode ≠ .ready then s
  else
    let i := (b.words.get 0 0).toNat / 256
    let bytes := ofWords ((List.range (b.len - 1)).map fun w => b.words.get (w + 1) 0)
    let s1 := s.mbRelease instMonOut
    let s2 : State := { s1 with view := { s1.view with incoming := (if i = 0 then [] else s1.view.incoming) ++ bytes } }
    if i = 15 then s2.writeView else s2

/-- Segment `i` of a reading, as the words after word 0 (R528). -/
def Reading.segment (r : Reading) (i : Nat) : List Word := toWords ((r.bytes.drop (62 * i)).take 62)

/-- The Monument posts the next segment. -/
def State.postSegment (s : State) : State :=
  match s.mon.sending with
  | [] => s
  | r :: rest =>
    let i := s.mon.segment
    let ws := (BitVec.ofNat 16 (i * 256 + 16) : Word) :: r.segment i
    let words : Tab Word := (List.range ws.length).zip ws
    ((s.modMon fun m => { m with
      segment := if i = 15 then 0 else i + 1, sending := if i = 15 then rest else m.sending }).modMailbox instMonOut
        fun b => words.foldl (fun (b : Mailbox) (j, w) => b.putWord j w) b).mbPostLen instMonOut ws.length

/-- MON_OUT_SEGMENT (R528): only while MON-OUT is empty. Firmware takes each segment in READY mode. -/
def execMonOutSegment (s : State) : Ans :=
  .next (
    let s1 := s.takeSegment
    if !s1.mon.live || (s1.mailbox instMonOut).full then s1 else s1.postSegment.takeSegment)

/-- MON_DOWN (R529). -/
def execMonDown (s : State) : Ans :=
  .next (
    if s.mode = .ready then
      { s with view := { s.view with down := true }, ports := Tab.mapVals s.ports fun x => { x with viewDown := true } }
    else s)

/-! ### Checkpoints and power (R524, R531, R585, R588) -/

/-- The checkpoint's signature verifies, or while unsealed its SHA-256 matches (R527, R531). -/
def Checkpoint.valid (c : Checkpoint) (m : Monument) : Bool :=
  let b := c.reading.bytes
  b.length = 952 && b.drop 888 = ({ m with signatures := c.reading.sigNo } : Monument).sign (b.take 888)

/-- Flash offset of a slot of the checkpoint ring (R530). -/
def slotOffset (slot : Nat) : Nat := 0x10000 + 1024 * slot

/-- The sector of a slot holds checkpoints that stand in the way of the next one. -/
def Monument.sectorFull (m : Monument) (slot : Nat) : Bool := m.checkpoints.any fun c => c.1 / 64 = slot / 64

/-- The three other sectors of the ring hold valid checkpoints (R531). -/
def Monument.othersValid (m : Monument) (slot : Nat) : Bool :=
  (List.range 4).all fun i => i = slot / 64 || m.checkpoints.any fun c => c.1 / 64 = i && c.2.valid m

/-- A checkpoint written to the next slot of the ring of four sectors of 64 slots (R531): a sector that the ring comes
back to is erased first, and only when the other three hold valid checkpoints. A flash that does not take it sets
FLASH_FAULT (R533). -/
def Monument.checkpoint (m : Monument) (kind : Nat) : Monument :=
  let (r, m1) := m.take kind
  let slot := m1.nextSlot
  let erase := slot % 64 = 0 && m1.sectorFull slot
  if erase && !m1.othersValid slot then m1
  else
    let m2 := if erase then m1.flash (eraseOps 0xD8 65536 (slotOffset slot) 1) else m1
    let kept := if erase then m1.checkpoints.filter fun c => decide (c.1 / 64 ≠ slot / 64) else m1.checkpoints
    let m3 : Monument := { (m2.program (slotOffset slot) r.bytes).tried with checkpoints := kept, nextSlot := (slot + 1) % 256 }
    if m2.takes then { m3 with checkpoints := Tab.set kept slot { reading := r, tamper := m1.tamper } }
    else { m3 with flashFault := true }

/-- CHECKPOINT_TIMER (R531). -/
def execCheckpointTimer (s : State) : Ans := .next (s.onMon fun m => m.checkpoint 0x04)

/-- POWER_FAIL_SIGNAL (R531, R585): the power-fail checkpoint, after which the rails leave their limits. -/
def execPowerFailSignal (s : State) : Ans :=
  .next (
    if !s.mon.powered then s
    else ((s.onMon fun m => m.checkpoint 0x05).modMon fun m => { m with powered := false }).modCore 49 fun _ => {})

/-- The valid checkpoint with the highest READ_SEQ (R531). -/
def Monument.newest (m : Monument) : Option Checkpoint :=
  (m.checkpoints.filter fun c => c.2.valid m).foldl (fun (best : Option Checkpoint) c => match best with
    | some b => if b.reading.seq ≤ c.2.reading.seq then some c.2 else some b
    | none => some c.2) none

/-- The core starts from mask ROM: the test selection is OFF, and no response goes on (R533, R539). -/
def Monument.restartCore (m : Monument) : Monument := { m with test := none, pulses := 0, uartUntil := 0 }

/-- The samplers restart: a pulse in progress is not counted (R518, R544). -/
def Monument.resetSamplers (m : Monument) : Monument :=
  { m with pgRun := [], pgLevel := 0, pgHigh := [], s0 := Tab.mapVals m.s0 fun x =>
             { overrate := x.overrate, loggedAt := x.loggedAt } }

/-- MONUMENT_POWER_ON (R524, R531): the counting block is loaded from the newest checkpoint. -/
def execMonumentPowerOn (s : State) : Ans :=
  .next ((s.settleTaps.modMon fun m =>
    let c := m.newest
    let clean : Bool := match c with
      | some x => x.reading.kind = 5
      | none => false
    let counters : Tab Nat := match c with
      | some x => (List.range 76).zip x.reading.counters
      | none => []
    let m1 : Monument := { (m.restartCore.resetSamplers.flash [{ op := 0x03, addr := 0x10000, len := 0x40000 }]) with
      powered := true, counters, taps := [], rebase := true, uptimeMs := 0, powerups := m.powerups + 1
      readSeq := if m.isSealed then (c.map (·.reading.seq)).getD m.readSeq else 0
      tamper := (c.map (·.tamper)).getD false, coreRestart := false, last := none, sending := [], segment := 0
      lastRequest := none, lastPeriodic := 0, s0 := [] }
    m1.logEvent 0x05 (if clean then 0 else 1) [] []).modCore 49 fun _ => { inReset := false })

/-- The Monument core starts again from mask ROM; counters go on, and CORE-RESTART is logged. MON_RST_N, item 0, resets
the samplers too (R518, R533, R544). -/
def State.monRestart (s : State) (item : Nat) : State :=
  (s.modMon fun m =>
    let m1 := if item = 0 then m.resetSamplers else m
    ({ m1.restartCore with coreRestart := true } : Monument).logEvent 0x06 item [] []).modCore 49
      fun _ => { inReset := false }

/-- MON_RST_N (R518). -/
def execMonRstN (s : State) : Ans := .next (if s.mon.powered then s.monRestart 0x00 else s)

/-- MONUMENT_CORE_RESTART (R533): after a DOUBLE or a watchdog expiry. -/
def execMonumentCoreRestart (double : Bool) (s : State) : Ans :=
  .next (if s.mon.live then s.monRestart (if double then 0x0F else 0x0C) else s)

/-- MON_TAMPER_N (R541): the first assertion latches. -/
def execMonTamperN (s : State) : Ans :=
  .next (s.onMon fun m => if m.tamper then m else ({ m with tamper := true } : Monument).logEvent 0x03 0 [] [])

/-- MONUMENT_CRYSTAL_STOP (R588). -/
def execMonumentCrystalStop (s : State) : Ans := .next (s.modMon fun m => { m with crystal := false })

/-- MONUMENT_CRYSTAL_RESTART (R588): what the taps counted meanwhile is lost. -/
def execMonumentCrystalRestart (s : State) : Ans :=
  .next (if s.mon.crystal then s else s.settleTaps.modMon fun m => { m with crystal := true, rebase := true })

end Sys2Proof.Machine
end

