-- ==== Sys2Proof/Machine/MonPort.lean ====
section
/-! DEFINITION. The Monument's verification port: commands, parameters, sealing (R534 to R541). Where the manual leaves a
response's layout open, each item stands on a line of its own. -/

namespace Sys2Proof.Machine

/-! ### Lines (R537, R538) -/

/-- A text in ASCII. -/
def ascii (t : String) : List Byte := t.toList.map fun c => BitVec.ofNat 8 c.toNat

/-- Bytes in upper-case hex, in groups of 4 digits separated by spaces (R537). -/
def hexGroups : List Byte → List Byte
  | [] => []
  | [a] => [hexDigit (a.toNat / 16), hexDigit (a.toNat % 16)]
  | a :: b :: t =>
    [hexDigit (a.toNat / 16), hexDigit (a.toNat % 16), hexDigit (b.toNat / 16), hexDigit (b.toNat % 16)] ++
      (if t = [] then [] else 0x20 :: hexGroups t)

/-- A number in decimal without leading zeros. -/
def decNumber (n : Nat) : List Byte :=
  match (decDigits 20 n).dropWhile (· == 0x30) with
  | [] => [0x30]
  | l => l

/-- `n` bytes of a number in hex without spaces, most significant first. -/
def hexNumber (n v : Nat) : List Byte := (beBytes n v).flatMap fun b => [hexDigit (b.toNat / 16), hexDigit (b.toNat % 16)]

/-- A response: its lines and a last line OK or ERR with a code, each ended by CR LF (R537). -/
def response (lines : List (List Byte)) (last : String) : List Byte :=
  (lines ++ [ascii last]).flatMap fun l => l ++ [0x0D, 0x0A]

/-- Milliseconds that `n` characters take: 10 bits each at 115,200 baud (R537). -/
def uartMs (n : Nat) : Nat := n * 10000 / 115200

/-- A response is sent. -/
def State.say (s : State) (lines : List (List Byte)) (last : String) : State :=
  let r := response lines last
  (s.modMon fun m => { m with uartUntil := m.uptimeMs + uartMs r.length }).emit (.uart r)

/-- The port takes a command line: the Monument runs and no response is being sent (R537). -/
def Monument.listens (m : Monument) : Bool := m.live && decide (m.uartUntil ≤ m.uptimeMs)

/-- A command line reaches the Monument; one that comes while a response is being sent is discarded (R537). -/
def State.onPort (s : State) (f : State → State) : State := if s.mon.listens then f s else s

/-- MON_PARAM_EN_N as sampled when a command line ends (R535). -/
def State.sampleEn (s : State) (on : Bool) : State := s.modMon fun m => { m with paramEn := on }

/-! ### Reports -/

/-- The fingerprint: the first 8 bytes of SHA-256 of the public key (R538). -/
def Monument.fingerprint (m : Monument) : List Byte := (sha256 m.keyBytes).take 8

/-- The public key with the state after it: the manual states none while unsealed, so its 64 bytes are free then. -/
def State.portKey (s : State) : List Byte × State := if s.mon.isSealed then (s.mon.keyBytes, s) else s.freeBytes 64

/-- MON_ID (R538). -/
def execMonId (s : State) : Ans :=
  .next (s.onPort fun s =>
    let (key, s1) := s.portKey
    let state := if s.mon.isSealed then ascii "SEALED" else ascii "UNSEALED"
    s1.say [hexGroups (beBytes 8 Config.deviceSerial.toNat), s.mon.instr, ascii "A1", state,
      hexGroups ((sha256 key).take 8)] "OK")

/-- The lines of LAST (R538). -/
def Reading.lines (r : Reading) : List (List Byte) :=
  [decNumber r.seq, hexNumber 1 r.kind, hexGroups (beBytes 4 r.status.toNat)] ++
  (((List.range 76).zip r.counters).map fun (i, c) => ascii "M" ++ decDigits 2 i ++ [0x20] ++ decDigits 20 c) ++
  [hexGroups ((r.bytes.drop 888).take 32), hexGroups ((r.bytes.drop 920).take 32)]

/-- LAST's answer: without a reading yet, no lines. -/
def State.sayLast (s : State) : State := match s.mon.last with
  | some r => s.say r.lines "OK"
  | none => s.say [] "OK"

/-- MON_LAST (R538). -/
def execMonLast (s : State) : Ans := .next (s.onPort fun s => s.sayLast)

/-- MON_READ (R525, R538). -/
def execMonRead (s : State) : Ans := .next (s.onPort fun s => (s.modMon fun m => m.takeKind 0x03).sayLast)

/-- MON_PARAM (R534, R538). -/
def execMonParam (s : State) : Ans :=
  .next (s.onPort fun s =>
    let m := s.mon
    s.say ([ascii "01 INSTR " ++ m.instr, ascii "02 PERIOD " ++ decNumber m.period] ++
      (List.range 12).map fun c => hexNumber 1 (0x10 + c) ++ ascii " IMP" ++ decNumber c ++ [0x20] ++ decNumber (m.impOf c)) "OK")

/-- MON_KEY (R538). -/
def execMonKey (s : State) : Ans :=
  .next (s.onPort fun s =>
    let (key, s1) := s.portKey
    s1.say [hexGroups (key.take 32), hexGroups (key.drop 32)] "OK")

/-- MON_LOG (R532, R538). -/
def execMonLog (i : Nat) (s : State) : Ans :=
  .next (s.onPort fun s => match s.mon.log[i]? with
    | none => s.say [] "ERR STATE"
    | some r =>
      (s.modMon fun m => m.flash [{ op := 0x03, addr := logOffset (i - 1), len := 64 * (if i = 0 then 1 else 2) }]).say [hexGroups (r.body i), hexGroups r.chain, if s.mon.chainOk i then ascii "VALID" else ascii "BROKEN"] "OK")

/-- MON_SYNTAX_ERROR (R538). -/
def execMonSyntaxError (s : State) : Ans := .next (s.onPort fun s => s.say [] "ERR SYNTAX")

/-! ### Parameters, tests, tamper (R534, R535, R539, R541) -/

/-- A parameter's value now, as the 16 bytes a PARAM record holds. -/
def Monument.paramBytes (m : Monument) (n : Nat) : List Byte :=
  if n = 1 then m.instr else if n = 2 then leBytes 4 m.period else leBytes 4 (m.impOf (n - 0x10))

/-- The Monument with a parameter changed; none for a number or value R534 does not allow. -/
def Monument.withParam (m : Monument) (n : Nat) (v : ParamValue) : Option Monument := match v with
  | .text t =>
    if n = 1 && t.length = 16 && t.all (fun c => 0x20 ≤ c.toNat && c.toNat < 0x7F) then some { m with instr := t } else none
  | .number k =>
    if n = 2 && 1 ≤ k && k ≤ 3600 then some { m with period := k }
    else if 0x10 ≤ n && n < 0x1C && 1 ≤ k && k ≤ 100000 then some { m with imp := m.imp.set (n - 0x10) k }
    else none

/-- Why a sealed Monument refuses a change (R535): enable, flash, log; none when it accepts it. -/
def Monument.changeRefused (m : Monument) : Option String :=
  if !m.isSealed then none
  else if !m.paramEn then some "ERR LOCKED"
  else if m.flashFault then some "ERR FLASH"
  else if m.logCap ≤ m.log.length then some "ERR FULL"
  else none

/-- MON_SET (R533 to R535): the record is logged and read back before the value applies; one that cannot be logged is
refused. -/
def execMonSet (n : Nat) (v : ParamValue) (pins : SetPins) (s : State) : Ans :=
  .next (s.onPort fun s =>
    let s0 := s.sampleEn pins.paramEn
    let m := s0.mon
    match m.withParam n v with
    | none => s0.say [] "ERR RANGE"
    | some new => match m.changeRefused with
      | some why => s0.say [] why
      | none =>
        let logged := m.logWith pins.flashOk 0x02 n (m.paramBytes n) (new.paramBytes n)
        if m.isSealed && !pins.flashOk then (s0.modMon fun _ => logged).say [] "ERR FLASH"
        else
        let m1 : Monument := { logged with instr := new.instr, period := new.period, imp := new.imp }
        let m2 := if m.isSealed then { m1 with paramGen := BitVec.ofNat 32 m.log.length } else m1
        (s0.modMon fun _ => m2).say [] "OK")

/-- MON_TEST (R538, R539). -/
def execMonTest (m : Option Nat) (s : State) : Ans :=
  .next (s.onPort fun s => match m with
    | none => (s.modMon fun x => { x with test := none, pulses := 0 }).say [] "OK"
    | some i =>
      if 16 ≤ i then s.say [] "ERR RANGE"
      else (s.modMon fun x => { x with test := some i, pulses := 0 }).say [] "OK")

/-- MON_TAMPER_CLEAR (R541): like a parameter change, it is refused when its record cannot be logged. -/
def execMonTamperClear (paramEn : Bool) (s : State) : Ans :=
  .next (s.onPort fun s =>
    let s0 := s.sampleEn paramEn
    if !s0.mon.tamper then s0.say [] "ERR STATE"
    else match s0.mon.changeRefused with
      | some why => s0.say [] why
      | none =>
        let logged := s0.modMon fun m => m.logEvent 0x04 0 [] []
        if s0.mon.isSealed && !s0.mon.takes then logged.say [] "ERR FLASH"
        else (logged.modMon fun m => { m with tamper := false }).say [] "OK")

/-! ### Sealing (R530, R536) -/

/-- The seal header: DSN, public key, parameters and uptime, signed like a reading. -/
def Monument.sealHeader (m : Monument) : List Byte :=
  let body := leBytes 8 Config.deviceSerial.toNat ++ m.keyBytes ++ m.instr ++ leBytes 4 m.period ++
    ((List.range 12).flatMap fun c => leBytes 4 (m.impOf c)) ++ leBytes 8 m.uptimeMs
  body ++ m.sign body

/-- Every sector of the log flash erased (R530, R536). -/
def Monument.eraseAll (m : Monument) : List FlashOp := eraseOps 0xD8 65536 0 ((logOffset m.logCap) / 65536)

/-- The Monument sealed: flash erased, a key generated, counters and sequences at 0, header and record 0 written. -/
def Monument.sealNow (m : Monument) (key : Nat) : Monument :=
  let m1 : Monument := { m with
    isSealed := true, keyNo := key, counters := [], readSeq := 0, powerups := 0, signatures := 0, log := []
    checkpoints := [], nextSlot := 0, unlogged := 0, logFull := false, flashFault := false, paramGen := 0xFFFFFFFF
    jtagSegment := false }
  let m2 := (m1.flash m1.eraseAll).program 0 m1.sealHeader
  ({ m2 with header := m1.sealHeader, signatures := 1 } : Monument).logWith true 0x01 0 [] []

/-- MON_SEAL (R536, R538). A flash that fails leaves the part unsealed. -/
def execMonSeal (dsn : BitVec 64) (paramEn : Bool) (flashOk : Bool) (s : State) : Ans :=
  .next (s.onPort fun s =>
    let s0 := s.sampleEn paramEn
    if s0.mon.isSealed || dsn ≠ Config.deviceSerial then s0.say [] "ERR STATE"
    else if !paramEn then s0.say [] "ERR LOCKED"
    else if !flashOk then
      (s0.modMon fun m => { m.flash m.eraseAll with flashFault := true, log := [], checkpoints := [], nextSlot := 0 }).say [] "ERR FLASH"
    else
      let s1 := ({ s0 with fresh := s0.fresh + 1 } : State).modMon fun m => m.sealNow s0.fresh
      s1.say [hexGroups s1.mon.fingerprint] "OK")

end Sys2Proof.Machine
end

