-- ==== Sys2Proof/Machine/Outing.lean ====
section
/-! DEFINITION. Shelves, chains and outings (R220 to R247): the planner, power-good, spin-up, closing, and the SPIN leg
(R206, R207, R240). -/

namespace Sys2Proof.Machine

/-! ### Basket and entry of states -/

/-- Every basket entry of a shelf ends SPINUP-TIMEOUT (R204, R229). -/
def State.endBasket (s : State) (sh : Nat) : State :=
  (s.shelf sh).basket.foldl (fun (s : State) (b : BasketEntry) => s.withTrv b.port b.tag fun t =>
      s.legDone t { status := stSpinupTimeout, info := some 1 })
    (s.modShelf sh fun x => { x with basket := [] })

/-- A shelf goes DARK; it may be eligible again (R229, R231). -/
def State.enterDark (s : State) (sh ev : Nat) : State :=
  let c := chainOfShelf sh
  let s1 := (s.enterShelf sh .dark ev 0).rivalsChanged c
  if s1.agedWaits c then s1.ageDrain c else s1

/-- A shelf is retired: every basket entry ends SPINUP-TIMEOUT (R229). -/
def State.retire (s : State) (sh : Nat) : State := (s.endBasket sh).enterShelf sh .retired 0x0E 0

/-! ### Choice (R233 to R235, R237, R244) -/

/-- Age of a basket entry in milliseconds. -/
def State.entryAge (s : State) (b : BasketEntry) : Nat := s.devMs - b.joined

/-- The oldest age in a shelf's basket. -/
def State.oldest (s : State) (sh : Nat) : Nat := ((s.shelf sh).basket.map s.entryAge).foldl Nat.max 0

/-- The expert score of a shelf (R235). -/
def State.score (s : State) (sh : Nat) : Nat :=
  ((s.shelf sh).basket.map fun b => (s.choiceOf sh).weights.get b.port 1 * s.entryAge b).foldl Nat.max 0

/-- The shelf of a list with the largest measure, the lower number on a tie. -/
def bestBy (f : Nat → Nat) (l : List Nat) : Option Nat :=
  l.foldl (fun (best : Option Nat) sh => match best with
    | none => some sh
    | some b => if f b < f sh then some sh else best) none

/-- The planner's choice on a chain. -/
def State.choose (s : State) (c : Nat) : Option Nat :=
  let el := (List.range 4).map (fun i => 4 * c + i) |>.filter s.eligible
  let old := el.filter s.aged
  if old ≠ [] then bestBy s.oldest old
  else if (s.choiceOf (4 * c)).expertChoice then bestBy s.score el
  else bestBy s.oldest el

/-- SPINNING is entered: its spin-up parameters are taken and slot discovery starts (R229, R244, R256). -/
def State.enterSpinning (s : State) (sh : Nat) : State :=
  let o := s.manage.outing
  ((s.modShelf sh fun x => { x with
      useSteps := if o.expertSpin then x.steps else none, useGroup := o.group, useInterval := o.intervalDs
      spinning := false, schedule := [], nextStep := 0, started := [], answered := [], readySlots := []
      sesWait := [], openPending := false }).enterShelf sh .spinning 0x02 0).wantRediscovery (chainOfShelf sh)

/-- Outings a chain may hold (R222). -/
def State.perChain (s : State) : Nat := if s.manage.outing.expertCount then s.manage.outing.count else 1

/-- What a choice on a chain brings into force: the outing choice as set, and the windows accepted (R244, R245). -/
def State.takeChoice (s : State) (c : Nat) : State :=
  let s1 : State := { s with manage := { s.manage with inForce := s.manage.inForce.set c s.manage.outing } }
  (List.range 4).foldl (fun (s : State) i => s.modShelf (4 * c + i) fun x => match x.windowNext with
    | some w => { x with window := w, windowNext := none }
    | none => x) s1

/-- A choice can be made on a chain: it has room for an outing, and none of its shelves is on its way to one (R222, R233). -/
def State.mayChoose (s : State) (c : Nat) : Bool :=
  let shelves := (List.range 4).map fun i => 4 * c + i
  s.mode = .ready && !(shelves.any fun sh => (s.shelf sh).state = .powering || (s.shelf sh).state = .spinning) &&
    (shelves.filter fun sh => (s.shelf sh).holds).length < s.perChain

/-- PLANNER_CHOICE (R231, R233, R244): an outing whose maximum open time has passed drains for a rival whose window has
opened; when the chain has room, what was set comes into force and the chosen shelf is powered; a power-good already high
takes it on to SPINNING (R229). -/
def execPlannerChoice (c : Nat) (s : State) : Ans :=
  if !s.mayChoose c then .next (s.rivalsChanged c)
  else
    let s1 := (s.takeChoice c).rivalsChanged c
    match s1.choose c with
    | none => .next s1
    | some sh =>
      let s2 := (s1.modChain c fun x => { x with gated := false }).modShelf sh fun x => { x with edges := [] }
      let s3 := s2.enterShelf sh .powering 0x01 0
      .next (if (s3.shelf sh).pg then s3.enterSpinning sh else s3)

/-! ### Power faults (R241) -/

/-- SPIN legs of a shelf: every drive without an outcome has lost its outing. -/
def State.spinClosed (s : State) (sh : Nat) : State :=
  (s.trvs.filter fun t => t.stage = .awaiting && legOp t.leg = 0x32 && byteAt t.leg 16 = sh).foldl
    (fun (s : State) t => s.withTrv t.port t.tag fun u => match u.spin.find? fun x => x.2 = .waiting with
      | some (j, _) =>
        s.spinSettle { u with spin := u.spin.map fun x => if x.2 = .waiting && x.1 ≠ j then (x.1, .closed) else x } j .closed
      | none => s) s

/-- Handles of the drives of a shelf. -/
def shelfHandles (sh : Nat) : List Nat := (List.range 96).map (driveHandle sh)

/-- TASK legs aimed at drives of a shelf end OUTING-CLOSED, and no function for those drives is awaited any more. -/
def State.dropShelfTmfs (s : State) (sh : Nat) : State :=
  let ch := chainOfShelf sh
  let mine := (s.chain ch).tmfs.filter fun m => isDriveHandle m.handle && shelfOfHandle m.handle = sh
  mine.foldl (fun (s : State) m => match m.owner with
    | .leg p tag =>
      let (info, s1) := s.freeInfo
      s1.withTrv p tag fun t => s1.legDone t { status := stOutingClosed, info := some (info &&& 0x1FF) }
    | _ => s)
    (s.modChain ch fun x => { x with tmfs := x.tmfs.filter fun m => !(isDriveHandle m.handle && shelfOfHandle m.handle = sh) })

/-- A command of an ENCLOSURE leg on the shelf. -/
def Cmd.enclosureLeg (c : Cmd) (sh : Nat) : Bool := c.handle = enclosureHandle sh && match c.owner with
  | .leg _ _ _ => true
  | _ => false

/-- Every command outstanding to a drive of the shelf, and every ENCLOSURE leg's, ends OUTING-CLOSED with fault code 0x06,
recoveries stop, and TASK and SPIN legs end (R163, R180, R241, R279). -/
def State.endShelfWork (s : State) (sh : Nat) : State :=
  let ch := chainOfShelf sh
  let s1 := (shelfHandles sh).foldl (fun (s : State) h => if (s.handle h).recovery.isSome then s.endRecovery h else s) s
  let s2 := s1.endCmds ch (((s1.chain ch).cmds.filter fun c => c.onShelf sh || c.enclosureLeg sh).map (·.id)) Cmd.powerLost
  (s2.dropShelfTmfs sh).spinClosed sh

/-- A power fault: detail 1 power-good lost, 2 POWER-UNSTABLE (R241). -/
def State.powerFault (s : State) (sh detail : Nat) : State :=
  let was := (s.shelf sh).state
  let s1 := s.modShelf sh fun x => { x with
    state := .holdoff, since := s.devMs, faults := x.faults + 1, spinning := false, schedule := [], openPending := false
    lingering := false, stopping := [], stopSent := false, edges := [] }
  let s2 := if was = .settling then s1 else (s1.endShelfWork sh).lapse sh
  let s3 := if was = .powering || was = .spinning then s2.endBasket sh else s2
  (s3.outingEvent sh 0x08 detail).enterShelf sh .holdoff 0x0D 0

/-- SHELF_PG_FILTERED_EDGE (R225): transitions are counted while SHELF_PWR_EN is asserted and during SETTLING; a fall
that did not hold lets a completed spin-up open (R247). -/
def execShelfPgFilteredEdge (sh : Nat) (level : Bool) (s : State) : Ans :=
  let x := s.shelf sh
  if x.pgFiltered = level then .next s
  else
    let counts := x.powered || x.state = .settling
    let edges := if counts then (x.edges.filter fun t => s.devMs < t + 1000) ++ [s.devMs] else x.edges
    let s1 := s.setShelf sh { x with pgFiltered := level, edges }
    if counts && 4 < edges.length then .next (s1.powerFault sh 2)
    else if level && x.openPending && x.state = .spinning then .next (s1.openShelf sh)
    else .next s1

/-- SHELF_PG_DEBOUNCE_EXPIRY (R224, R225, R229, R241). While the main domain is held only the pin's level changes (R521,
R596, R598). -/
def execShelfPgDebounceExpiry (sh : Nat) (s : State) : Ans :=
  let x := s.shelf sh
  if x.pg = x.pgFiltered then .next s
  else
    let s1 := s.setShelf sh { x with pg := x.pgFiltered }
    if s.held then .next s1
    else if x.pgFiltered then
      match x.state with
      | .powering => .next (s1.enterSpinning sh)
      | .dark => .next (s1.outingEvent sh 0x0C 0)
      | _ => .next s1
    else match x.state with
      | .settling => .next (s1.enterDark sh 0x07)
      | .powering | .spinning | .opened | .draining | .closing => .next (s1.powerFault sh 1)
      | _ => .next s1

/-- POWER_GOOD_TIMEOUT (R225, R229). -/
def execPowerGoodTimeout (sh : Nat) (s : State) : Ans :=
  let x := s.shelf sh
  if x.state ≠ .powering || x.pg then .next s
  else
    let s1 := s.setShelf sh { x with state := .holdoff, faults := x.faults + 1 }
    .next (((s1.endBasket sh).outingEvent sh 0x09 1).enterShelf sh .holdoff 0x0D 0)

/-! ### Spin-up (R238, R239) -/

/-- Populated slots of a shelf: described, and not reported as not installed. -/
def State.populatedSlots (s : State) (sh : Nat) : List Nat :=
  (List.range 96).filter fun j => let h := s.handle (driveHandle sh j); h.described.isSome && h.installed

/-- Slots `GROUP` at a time, `INTERVAL` apart, from an offset. -/
def basicSteps (group interval : Nat) : Nat → Nat → List Nat → List SpinStep
  | 0, _, _ => []
  | n + 1, offset, l =>
    if l = [] then []
    else { offset, method := 1, slots := l.take group } ::
      basicSteps group interval n (offset + interval) (l.drop group)

/-- The schedule of a shelf over a set of slots (R238). -/
def Shelf.plan (x : Shelf) (slots : List Nat) : List SpinStep :=
  match x.useSteps with
  | some steps => steps.map fun st => { st with slots := st.slots.filter slots.contains }
  | none => basicSteps x.useGroup x.useInterval slots.length 0 slots

/-- Spin-up starts over the slots found; without any it is complete (R239). -/
def State.startSpinUp (s : State) (sh : Nat) (slots : List Nat) : State :=
  let x := s.shelf sh
  let x1 := { x with spinning := true, schedule := x.plan slots, nextStep := 0 }
  let s1 := s.setShelf sh x1
  if x1.scheduled = [] then s1.openShelf sh else s1

/-- SLOT_DISCOVERY_COMPLETE (R256, R238): every described, installed slot has an attached target. -/
def execSlotDiscoveryComplete (sh : Nat) (s : State) : Ans :=
  let x := s.shelf sh
  let slots := s.populatedSlots sh
  let all := slots.all fun j => (s.handle (driveHandle sh j)).attached.isSome
  .next (if x.state = .spinning && !x.spinning && all then s.startSpinUp sh slots else s)

/-- SPIN_UP_START_TIMEOUT (R238): spin-up starts with the slots discovered so far; a slot that a step of method SES powers is
populated though no drive answers yet. -/
def execSpinUpStartTimeout (sh : Nat) (s : State) : Ans :=
  let x := s.shelf sh
  let ses := ((x.useSteps.getD []).filter fun st => st.method = 2).flatMap (·.slots)
  let slots := (s.populatedSlots sh).filter fun j => (s.handle (driveHandle sh j)).attached.isSome || j ∈ ses
  .next (if x.state = .spinning && !x.spinning then s.startSpinUp sh slots else s)

/-- One slot of a step is started: by START STOP UNIT, or powered by the step's page 0x02 write and started when its
link comes up (R238). -/
def State.startSlot (s : State) (sh : Nat) (st : SpinStep) (slot : Nat) : State :=
  let h := driveHandle sh slot
  let s1 := s.modShelf sh fun x => { x with started := x.started ++ [slot], answered := x.answered.filter fun j => j ≠ slot }
  match st.owner with
  | some (p, tag) => s1.handOver h (.spinLeg p tag slot false) (cdbStartStop true true) 0 0 []
  | none =>
    if st.method = 2 && (s.handle h).attached.isNone then s1.modShelf sh fun x => { x with sesWait := x.sesWait ++ [slot] }
    else s1.handOver h (.spinUp sh slot false) (cdbStartStop true true) 0 0 []

/-- Bytes of page 0x02 of a shelf's enclosure (SES-4): 8 of header and 4 for every element and overall element. -/
def State.pageTwoLen (s : State) (sh : Nat) : Nat :=
  8 + (((s.chain (chainOfShelf sh)).elements.get (sh % 4) []).map fun e => 4 * (e.2 + 1)).sum

/-- Offsets of the Device Slot and Array Device Slot elements of page 0x02, slot by slot (SES-4). PRESUMED (log 7): element j
of the type is slot j. -/
def slotOffsets : Nat → List (Nat × Nat) → List (Nat × Nat)
  | _, [] => []
  | off, (typ, n) :: rest =>
    (if typ = 0x01 || typ = 0x17 then (List.range n).map fun i => (i, off + 4 * (i + 1)) else []) ++
      slotOffsets (off + 4 * (n + 1)) rest

/-- The planner's page 0x02 (R238): page code, length, the generation code last read, and in each element of the step's slots
SELECT set with DEVICE OFF, bit 4 of byte 3, clear. PRESUMED layout (SES-4, log 7). -/
def State.pageTwo (s : State) (sh : Nat) (slots : List Nat) : List Byte :=
  let x := s.chain (chainOfShelf sh)
  let n := s.pageTwoLen sh
  let gen := (x.generations.get (sh % 4) 0).toNat
  let head : List Byte := [0x02, 0, BitVec.ofNat 8 ((n - 4) / 256), BitVec.ofNat 8 (n - 4)] ++ (leBytes 4 gen).reverse
  let at_ := (slotOffsets 8 (x.elements.get (sh % 4) [])).filter fun e => e.1 ∈ slots
  (List.range n).map fun i => if i < 8 then head.getD i 0 else if at_.any fun e => e.2 = i then 0x80 else 0

/-- SPIN_UP_STEP (R238, R240): the next step's slots are started; a SPIN leg's step on a shelf no longer open finds its
outing closed. -/
def execSpinUpStep (sh : Nat) (s : State) : Ans :=
  let x := s.shelf sh
  match x.schedule[x.nextStep]? with
  | none => .next s
  | some st =>
    let s1 := s.setShelf sh { x with nextStep := x.nextStep + 1 }
    if st.owner.isSome && !x.isOpen then .next (s1.spinClosed sh)
    else if st.owner.isNone && !(x.state = .spinning && x.spinning) then .next s
    else
      let s2 := if st.method = 2 && st.owner.isNone then
          ((s1.modShelf sh fun y => { y with sesWrites := y.sesWrites + 1 }).handOver (enclosureHandle sh) .firmware
            (cdbSendDiag (s.pageTwoLen sh)) 2 (s.pageTwoLen sh) [{ addr := none, len := s.pageTwoLen sh }]).modChain
            (chainOfShelf sh) fun y => y.modLast fun c => { c with payload := s.pageTwo sh st.slots, page2 := true }
        else s1
      .next (st.slots.foldl (fun (s : State) j => s.startSlot sh st j) s2)

/-- A poll of the drive is outstanding. -/
def State.polling (s : State) (sh slot : Nat) : Bool :=
  (s.chain (chainOfShelf sh)).cmds.any fun c => c.handle = driveHandle sh slot && match c.owner with
    | .spinUp _ _ poll | .spinLeg _ _ _ poll => poll
    | _ => false

/-- The SPIN leg that waits for a slot's drive to be ready. -/
def State.spinWaiter (s : State) (sh slot : Nat) : Option Trv :=
  s.trvs.find? fun t => t.stage = .awaiting && legOp t.leg = 0x32 && byteAt t.leg 16 = sh && byteAt t.leg 17 = 1 &&
    t.spin.find slot = some .waiting

/-- TEST_UNIT_READY_POLL (R239): a drive whose START was answered and that is not yet ready is polled. -/
def execTestUnitReadyPoll (sh slot : Nat) (s : State) : Ans :=
  let x := s.shelf sh
  if !(x.answered.contains slot) || s.polling sh slot then .next s
  else if x.state = .spinning && x.spinning then
    .next (if x.readySlots.contains slot then s
      else s.handOver (driveHandle sh slot) (.spinUp sh slot true) cdbTestReady 0 0 [])
  else match s.spinWaiter sh slot with
    | some t =>
      .next (if x.isOpen then s.handOver (driveHandle sh slot) (.spinLeg t.port t.tag slot true) cdbTestReady 0 0 []
        else s.spinSettle t slot .closed)
    | none => .next s

/-- SPIN_UP_TIMEOUT (R239): spin-up completes, with DRIVE-NOT-READY for every slot not ready. -/
def execSpinUpTimeout (sh : Nat) (s : State) : Ans :=
  let x := s.shelf sh
  if x.state ≠ .spinning || !x.spinning || x.nextStep < x.schedule.length then .next s
  else
    let late := x.scheduled.filter fun j => !x.readySlots.contains j
    .next ((late.foldl (fun (s : State) j => s.outingEvent sh 0x0A j) s).openShelf sh)

/-- SPIN_START_TIMEOUT (R207): a drive of a SPIN START leg whose START went out is not ready within 60 s. -/
def execSpinStartTimeout (p tag slot : Nat) (s : State) : Ans :=
  .next (s.withTrv p tag fun t =>
    if t.stage = .awaiting && legOp t.leg = 0x32 && byteAt t.leg 17 = 1 && t.spin.find slot = some .waiting &&
        (s.shelf (byteAt t.leg 16)).started.contains slot then s.spinSettle t slot .notReady
    else s)

/-! ### Open, draining and closing shelves -/

/-- LINGER_EXPIRY (R230). -/
def execLingerExpiry (sh : Nat) (s : State) : Ans :=
  let x := s.shelf sh
  .next (if x.state = .opened && x.lingering && s.work sh = 0 then s.enterClosing sh else s)

/-- MAX_OPEN_EXPIRY (R231). -/
def execMaxOpenExpiry (sh : Nat) (s : State) : Ans :=
  let x := s.shelf sh
  if x.state ≠ .opened then .next s
  else if s.work sh = 0 then .next (s.setShelf sh { x with maxOpenPassed := true })
  else .next (if s.rivalWaits sh then s.drain sh else s)

/-- AGE_LIMIT_PASSED (R231): a basket entry of the shelf has passed the age limit and the shelf is eligible. -/
def execAgeLimitPassed (sh : Nat) (s : State) : Ans :=
  .next (if s.eligible sh && s.aged sh then s.ageDrain (chainOfShelf sh) else s)

/-- OPENING_WINDOW_END (R231, R237). -/
def execOpeningWindowEnd (sh : Nat) (s : State) : Ans :=
  let x := s.shelf sh
  .next (if x.state = .opened && (s.choiceOf sh).expertChoice && x.window.isSome then s.drain sh else s)

/-- DRAIN_LIMIT_EXPIRY (R229): remaining bookings lapse and the outing closes. -/
def execDrainLimitExpiry (sh : Nat) (s : State) : Ans :=
  .next (if (s.shelf sh).state = .draining then s.enterClosing sh else s)

/-- The drives of a shelf that leaves power detach, unrecorded; no command awaits them (R257). -/
def State.unpower (s : State) (sh : Nat) : State :=
  let ch := chainOfShelf sh
  let gone := (shelfHandles sh).filterMap fun h => (s.handle h).attached
  let s1 := (shelfHandles sh).foldl (fun (s : State) h =>
    if (s.handle h).attached.isNone then s
    else s.modHandle h fun x => { x with attached := none, lost := false, recovery := none }) s
  let s2 := s1.modChain ch fun x => { x with
    found := x.found.filter fun a => !gone.contains a
    tmfs := x.tmfs.filter fun m => !(isDriveHandle m.handle && shelfOfHandle m.handle = sh) }
  s2.endCmds ch (((s2.chain ch).cmds.filter fun c => c.onShelf sh).map (·.id)) Cmd.lost

/-- CLOSING_SEQUENCE_DONE (R229, R232): step 3 has begun, and every drive has answered or 30 s have passed. -/
def execClosingSequenceDone (sh : Nat) (s : State) : Ans :=
  let x := s.shelf sh
  if x.state ≠ .closing || !x.stopSent then .next s
  else
    let s1 := (s.setShelf sh { x with faults := 0, stopSent := false, stopping := [], state := .settling }).unpower sh
    let s2 := (s1.spinClosed sh).enterShelf sh .settling 0x06 0
    .next (if (s2.shelf sh).pg then s2 else s2.enterDark sh 0x07)

/-- SETTLING_TIMEOUT (R225, R229): power-good stays high; PG-STUCK, and the shelf is retired. -/
def execSettlingTimeout (sh : Nat) (s : State) : Ans :=
  let x := s.shelf sh
  if x.state ≠ .settling || !x.pg then .next s
  else .next (((s.setShelf sh { x with state := .retired }).outingEvent sh 0x0B 0).retire sh)

/-- HOLDOFF_EXPIRY (R229, R242). -/
def execHoldoffExpiry (sh : Nat) (s : State) : Ans :=
  let x := s.shelf sh
  let o := s.choiceOf sh
  let limit := if o.expertChoice then o.retireCount else 3
  if x.state ≠ .holdoff then .next s
  else .next (if x.faults < limit then s.enterDark sh 0x07 else s.retire sh)

/-! ### SPIN (R206, R207, R240) -/

/-- The steps of a SPIN START: the shelf's schedule over the slots selected, then the slots it names nowhere. -/
def Shelf.spinPlan (x : Shelf) (populated sel : List Nat) (owner : Nat × Nat) : List SpinStep :=
  let named := (x.plan populated).map fun st => { st with slots := st.slots.filter sel.contains, method := 1 }
  let steps := named.filter fun st => st.slots ≠ []
  let rest := sel.filter fun j => !(steps.any fun st => st.slots.contains j)
  let start := match steps.getLast? with
    | some st => st.offset + x.useInterval
    | none => 0
  (steps ++ basicSteps x.useGroup x.useInterval rest.length start rest).map fun st => { st with owner := some owner }

/-- SPIN (R206, R207, R240): STOP goes to every selected drive at once, START by the shelf's schedule. START STOP UNIT has
IMMED 0, and a START's steps follow those of an earlier START on the shelf: DESIGN CHOICES (log 61), R206 and R240 are
silent. -/
def execLegSpin (p tag : Nat) (s : State) : Ans :=
  .next (s.perform p tag 0x32 fun t =>
    let l := t.leg
    let sh := legByte l 16
    let pop := s.populatedSlots sh
    let sel := (spinSlots l).filter pop.contains
    if sel = [] then s.legDone t { status := stOk, info := some 0 }
    else
      let s1 := s.putTrv { t with stage := .awaiting, spin := sel.map fun j => (j, .waiting) }
      if legByte l 17 = 2 then
        sel.foldl (fun (s : State) j =>
          s.handOver (driveHandle sh j) (.spinLeg p tag j false) (cdbStartStop false false) 0 0 []) s1
      else s1.modShelf sh fun x => { x with
        schedule := x.schedule ++ x.spinPlan pop sel (p, tag)
        started := x.started.filter fun j => !sel.contains j, answered := x.answered.filter fun j => !sel.contains j })

end Sys2Proof.Machine
end

