-- ==== Sys2Proof/Machine/Recover.lean ====
section
/-! DEFINITION. Containment from the engines' acknowledgement to its end: discarding, resetting, ending (R117, R365,
R379, R548, R558 to R564, R569), and the fault causes of the device's own blocks (R557). -/

namespace Sys2Proof.Machine

/-! ### Discarding one traverse (R559, R560) -/

/-- A command of a traverse. -/
def CmdOwner.of (p tag : Nat) : CmdOwner → Bool
  | .leg q u _ => q = p && u = tag
  | .gather q u _ => q = p && u = tag
  | .spinLeg q u _ _ => q = p && u = tag
  | _ => false

/-- Its commands are orphaned, its waiting task management functions removed, those sent left to the port. -/
def State.orphanAll (s : State) (p tag : Nat) : State :=
  (List.range 12).foldl (fun (s : State) ch =>
    let s1 := (((s.chain ch).cmds.filter fun c => c.owner.of p tag).foldl (fun (s : State) c => s.orphanCmd ch c) s)
    s1.modChain ch fun x => { x with
      tmfs := (x.tmfs.filter fun m => m.sent || m.owner ≠ .leg p tag).map fun m =>
        if m.owner = .leg p tag then { m with owner := .port } else m }) s

/-- A launch of a traverse. -/
def Launch.of (p tag : Nat) (l : Launch) : Bool := l.port = p && l.tag = tag

/-- Its launches are withdrawn; a recipe that runs issues no further bundle, and of a ROM recipe's effects a part
stands (R365, R603). -/
def State.withdrawLaunches (s : State) (p tag : Nat) : State :=
  (List.range 12).foldl (fun (s : State) e =>
    let x := s.engine e
    let head := x.queue.head?
    let s1 := s.setEngine e { x with
      queue := x.queue.filter fun l => !l.of p tag
      prepared := if (head.map (Launch.of p tag)).getD false then none else x.prepared }
    let s2 := s1.placeLaunches e
    match x.running with
    | none => s2
    | some r =>
      if !r.launch.of p tag then s2
      else match r.launch.recipe with
        | none => s2.engineIdle e
        | some id => if 0x8000 ≤ id || x.ended then (s2.landAll e).engineIdle e
            else (s2.romPart e (s2.romRun id r).2).engineIdle e) s

/-- Its EXEC ends at once; the context is the firmware's again (log 41). -/
def State.stopExec (s : State) (p tag : Nat) : State :=
  (List.range 48).foldl (fun (s : State) k =>
    if (s.core k).exec = some (p, tag) then
      match (s.trv? p tag).bind (·.bound) with
      | some (_, c) => (s.modCore k fun x => { x with exec := none }).modCtx k c fun y =>
          { y with s := true, wdog := 0, wdogMore := 0, wdogDue := false }
      | none => s.modCore k fun x => { x with exec := none }
    else s) s

/-- Its COPY runs stop: one that has not moved its bytes frees the channel, and its place among those that wait. -/
def State.stopCopies (s : State) (p tag : Nat) : State :=
  let s1 : State := { s with copyQueue := s.copyQueue.filter fun j => !(decide (j.port = p) && decide (j.tag = tag)) }
  ((List.range 32).foldl (fun (s : State) ch =>
    let x := s.channel ch
    match x.copy with
    | some j => if j.port = p && j.tag = tag && x.outcome.isNone then s.setChannel ch x.nextRun else s
    | none => s) s1).serveCopies

/-- A host read made for a traverse. -/
def ReadPurpose.of (tag : Nat) : ReadPurpose → Bool
  | .legs u _ _ => u = tag
  | .cdb u => u = tag
  | .operand u => u = tag
  | .stageIn u _ => u = tag
  | .stageBack u => u = tag
  | .readback u => u = tag
  | _ => false

/-- Its writes to a status block that wait for a stack are not made (R559). -/
def State.dropSb (s : State) (p tag : Nat) : State :=
  { s with quarters := Tab.mapVals s.quarters fun x =>
      { x with sbWrites := x.sbWrites.filter fun w => !(decide (w.port = p) && decide (w.tag = tag)) } }

/-- Its reads are awaited no longer and its held writes are not made (R562, R599). -/
def Port.forget (x : Port) (tag : Nat) : Port :=
  { x with heldWrites := x.heldWrites.filter fun w => w.tag ≠ tag }.dropReads fun r => r.purpose.of tag

/-- Its steps of spin-up schedules go (R240). -/
def State.dropSteps (s : State) (p tag : Nat) : State :=
  { s with shelves := Tab.mapVals s.shelves fun x =>
      let stays (t : SpinStep) : Bool := t.owner ≠ some (p, tag)
      { x with schedule := x.schedule.filter stays, nextStep := ((x.schedule.take x.nextStep).filter stays).length } }

/-- A NOTE-REQUEST that waits for the traverse completes ENTRY-INVALID, result 0x03 (R569). -/
def State.failNotes (s : State) (t : Trv) : State :=
  t.notes.foldl (fun (s : State) n => s.completeEntry t.port n.q n.tag n.urgent stEntryInvalid 3 0) s

/-- A traverse is discarded (R559). -/
def State.discardTrv (s : State) (t : Trv) : State :=
  let s1 := s.failNotes t
  let (s3, _) := (s1.leaveBasket t).unbook t
  let s4 := (((s3.withdrawLaunches t.port t.tag).stopExec t.port t.tag).stopCopies t.port t.tag).orphanAll t.port t.tag
  let s5 := ((s4.dropSteps t.port t.tag).dropSb t.port t.tag).modPort t.port fun x => x.forget t.tag
  (s5.release t.port t.tag).dropTrv t.port t.tag

/-! ### DISCARDING (R558, R559) -/

/-- The containment a command speaks of: a port's, or the device's. -/
def State.containOf (s : State) (sc : Option Nat) : Option Containment := match sc with
  | none => s.deviceContain
  | some p => if s.deviceContain.isSome then none else (s.port p).contain

def State.putContain (s : State) (sc : Option Nat) (c : Option Containment) : State := match sc with
  | none => { s with deviceContain := c }
  | some p => s.modPort p fun x => { x with contain := c }

/-- Ports in a containment's scope. -/
def State.scopePorts (s : State) (sc : Option Nat) : List Nat := match sc with
  | none => s.created
  | some p => [p]

/-- A read that admission makes. -/
def HostRead.isAdmission (r : HostRead) : Bool := match r.purpose with
  | .header => true
  | .runList => true
  | _ => false

/-- A port's STARTs that have not ended admission are abandoned; its other entries handed on complete. Answers how many
were abandoned. -/
def State.abandon (s : State) (p : Nat) : State × Nat :=
  let x := s.port p
  let starts := x.handed.filter fun h => entryType h.bytes = 1
  let mine := s.admitting.filter fun a => a.port = p
  let s1 : State := { s with admitting := s.admitting.filter fun a => a.port ≠ p }
  let s2 := s1.setPort p ({ x with handed := x.handed.filter fun h => entryType h.bytes ≠ 1 }.dropReads HostRead.isAdmission)
  let s3 := x.handed.foldl (fun (s : State) _ =>
    let a := nextOf (execNopEntry p s) s
    let b := nextOf (execResumeEntry p a) a
    let c := nextOf (execNoteRequest p b) b
    nextOf (execStartEntry p c) c) s2
  (s3, starts.length + mine.length)

/-- A traverse is discarded in a containment: it is live and has no formed completion. One whose completion waits for
its status block or the read-back of R161 counts as not formed (DESIGN CHOICE, log 60: R117 keeps completions "being formed"). -/
def Trv.discardable (t : Trv) : Bool := t.completion.isNone || t.readback || t.sbLate

/-- Extents a traverse declared in ACCUM mode, if it had placed a RECIPE leg (R379). -/
def Trv.accumExtents (t : Trv) : List Nat :=
  if t.launched then (t.runs.filter fun r => r.mode = .accum).flatMap fun r => (List.range r.count).map fun i => r.first + i
  else []

/-- Every traverse of a port is discarded; how many consumed entries went without completion, and the extents to taint. -/
def State.discardPort (s : State) (p : Nat) : State × Nat × List Nat :=
  let ts := s.trvs.filter fun t => t.port = p && t.discardable
  let s1 := ts.foldl (fun (s : State) t => s.discardTrv ((s.trv? t.port t.tag).getD t)) s
  let (s2, n) := s1.abandon p
  (s2.dmaPortLost p, n + ts.length, ts.flatMap Trv.accumExtents)

/-- CONTAINMENT_DISCARD (R558 to R560): of a port, or of every port. The consumed entries discarded are counted for the
FAULT NOTICE, per port. -/
def execContainmentDiscard (sc : Option Nat) (s : State) : Ans :=
  .next (match s.containOf sc with
    | none => s
    | some c =>
      if c.phase ≠ .stopping then s
      else
        let (s1, taint) := (s.scopePorts sc).foldl (fun (a : State × List Nat) p =>
          let (s2, n, l) := a.1.discardPort p
          (s2.modPort p fun x => { x with discarded := n }, a.2 ++ l)) (s, [])
        (s1.reexamine).putContain sc (some { c with phase := .resetting, taint := c.taint ++ taint }))

/-! ### RESETTING (R54, R548, R561) -/

/-- A port is reset in a containment: its kept completions go with its rings, and with them the traverses they end. -/
def State.containReset (s : State) (p : Nat) (config flr : Bool) : State :=
  let s1 : State := { s with
    collector := s.collector.filter fun r => r.comp.port ≠ p
    released := s.released.filter fun c => c.port ≠ p
    trvs := s.trvs.filter fun t => t.port ≠ p }
  s1.resetPort p config flr

/-- An engine's island is reset and its firmware reloaded: it starts context 0 (R439, R561). -/
def State.resetEngine (s : State) (k : Nat) : State := (s.startEngine k).resetStakes k

/-- CONTAINMENT_RESET (R548, R561): the port reset where R54 asks for it, the reset of a failed engine's island;
`rebuilt` says whether firmware could rebuild a damaged structure from its redundant copy. -/
def execContainmentReset (sc : Option Nat) (rebuilt : Bool) (s : State) : Ans :=
  .next (match s.containOf sc with
    | none => s
    | some c =>
      if c.phase ≠ .resetting then s
      else if (c.cause = 0x11 || c.cause = 0x12) && !rebuilt then s.restart 0x22
      else
        let s1 := match sc with
          | some p => if c.resetBlocks then s.containReset p c.resetConfig c.flr else s
          | none => s
        let s2 := match c.engine with
          | some k => s1.resetEngine k
          | none => s1
        s2.putContain sc (some { c with phase := .ending }))

/-! ### ENDING (R55, R56, R117, R379, R558, R562, R563) -/

/-- Every extent of a port returns to its free pool (R56); the accumulators among them are disarmed (R380). -/
def State.freeExtents (s : State) (p : Nat) : State :=
  let s1 := s.disarmIn fun h => s.ownsExtent p h
  { s1 with extents := s1.extents.map fun r => if r.owner = some p then { r with owner := none, last := some p } else r }

/-- The FAULT NOTICE of a completion queue (R102, R104, R117). -/
def faultNotice (p q : Nat) (count : Nat) (dev : Bool) (epoch : BitVec 16) : Completion :=
  { port := p, cq := q, tag := 0, sq := 0xFFFF, status := stFaultNotice, entry := false, dataMoved := false, sense := false
    dev, result := BitVec.ofNat 64 count, station := 0, detail0 := 0, detail1 := 0, urgent := true, notice := true, epoch
    ends := false, counted := false }

/-- A FAULT NOTICE for each enabled completion queue of a port. -/
def State.queueNotices (s : State) (p : Nat) (dev : Bool) (epoch : BitVec 16) : State :=
  let x := s.port p
  let qs := (List.range x.ap.cqCount).filter fun q => (x.cq q).en
  ({ s with collector := s.collector ++ qs.map fun q =>
      ({ frame := none, engine := none, comp := faultNotice p q x.discarded dev epoch } : CollectorRec) } :
    State).settleNotices

/-- IDLE of each stopped queue sets: the kept completions no longer count against it (R117). -/
def State.settleIdle (s : State) (p : Nat) : State :=
  let free : Completion → Completion := fun c => if c.port = p then { c with counted := false } else c
  let s1 : State := { s with
    collector := s.collector.map fun r => { r with comp := free r.comp }, released := s.released.map free }
  s1.modPort p fun x => { x with
    sqs := Tab.mapVals x.sqs fun y => { y with lacking := 0, stopped := false }
    cqs := Tab.mapVals x.cqs fun y => { y with waiting := y.waiting.map free } }

/-- The end of a port's containment: the epoch, the extents, the notice where its blocks were kept. A port that was
reset is READY again: firmware has loaded its values at the end of the scope (R66, R549). -/
def State.endPort (s : State) (p : Nat) (c : Containment) (notice : Bool) : State :=
  let s1 := if c.resetBlocks && c.phase ≠ .ending then s.containReset p c.resetConfig c.flr else s
  let s2 := if c.resetBlocks then s1.freeExtents p else s1
  let s3 := s2.modPort p fun x => { x with fnEpoch := x.fnEpoch + 1, contain := none, ready := x.configured }
  let s4 := if notice && !c.resetBlocks then s3.queueNotices p false (s3.port p).fnEpoch else s3
  (s4.portEvent p 0).settleIdle p

/-- CONTAINMENT_END (R558): accumulators tainted, the epoch advanced, notices queued. Host-scope causes merged into a
device-scope containment end with it (R564). -/
def execContainmentEnd (sc : Option Nat) (s : State) : Ans :=
  .next (match s.containOf sc with
    | none => s
    | some c =>
      if c.phase ≠ .ending then s
      else
        let s0 := s.taintAll c.taint
        match sc with
        | some p =>
          let s1 := s0.endPort p c true
          s1.containEvent 0x06 c.cause.toNat (2 ^ p) (s1.port p).fnEpoch.toNat [p]
        | none =>
          let epoch := s.devEpoch + 1
          let s1 : State := { s0 with devEpoch := epoch, deviceContain := none }
          let s2 := s1.created.foldl (fun (s : State) p =>
            match (s.port p).contain with
            | some h =>
              let t := s.endPort p h false
              if h.resetBlocks then t else t.queueNotices p true epoch
            | none => ((s.queueNotices p true epoch).portEvent p 0).settleIdle p) s1
          s2.containEvent 0x06 c.cause.toNat 0xFF epoch.toNat s2.created)

/-! ### Causes of the device's own blocks (R557) -/

/-- ENGINE_SILENT (R557): cause 0x14, also of an engine that the boot timeline has started (R564). An island that is
gated or in reset sends no heartbeat. -/
def execEngineSilent (e : Nat) (s : State) : Ans :=
  .next (if e < 48 && !(s.core e).inReset && !(s.core e).gated then s.startDevice 0x14 (some e) else s)

/-- CONTROL_SRAM_ERROR (R557): cause 0x12. -/
def execControlSramError (s : State) : Ans := .next (s.startDevice 0x12 none)

/-- LOCKSTEP_MISMATCH (R557): cause 0x20. -/
def execLockstepMismatch (s : State) : Ans := .next (s.restart 0x20)

end Sys2Proof.Machine
end

