-- ==== Sys2Proof/Machine/Sehar.lean ====
section
/-! DEFINITION. How a Sehar core issues an instruction: delayed writes, checks, delay slots, repeats, exceptions, the
branch predictor, suspension (R436, R448, R452 to R464, R479, R485 to R492). -/

namespace Sys2Proof.Machine

/-! ### Delayed writes (R453) -/

/-- A delayed write among others in the order they land. -/
def insertDelayed (d : Delayed) : List Delayed → List Delayed
  | [] => [d]
  | e :: t => if d.due ≤ e.due then d :: e :: t else e :: insertDelayed d t

/-- A delayed write takes effect. -/
def State.land (s : State) (k : Nat) (d : Delayed) : State := match d.target with
  | .dmem a => s.modCore k fun x => x.setD a d.value
  | .imem a => if a < 0x2000 || k = 49 then s else s.modCore k fun x => x.setI a d.value
  | .lr c => s.modCtx k c fun y => { y with lr := d.value }
  | .wp c => s.modCtx k c fun y => { y with wp := d.value }
  | .sw c => s.modCtx k c fun y => y.setSw d.value
  | .io c port => if port = 0x046 then s.writeIdata k c d.due d.value else s.ioWrite k c port d.value

/-- The writes that have become visible by a cycle take effect, oldest due first. -/
def State.landWrites (s : State) (k : Nat) (now : Nat → Bool) : State :=
  let x := s.core k
  let due := (x.delayed.filter fun d => now d.due).foldr insertDelayed []
  due.foldl (fun (s : State) d => s.land k d) (s.setCore k { x with delayed := x.delayed.filter fun d => !now d.due })

/-- Every write an instruction issued now sees (R453). -/
def State.settle (s : State) (k : Nat) : State :=
  let n := (s.core k).cycle
  (s.landWrites k (· ≤ n)).landWrites k (· ≤ n)

/-- Every earlier write takes effect: SYNC, and a core that issues nothing for a time without a promise. -/
def State.settleAll (s : State) (k : Nat) : State := (s.landWrites k fun _ => true).landWrites k fun _ => true

/-! ### Cycles and the watchdog (R454, R491) -/

/-- Cycles issued in user mode count toward the watchdog, one unit for every 1,024. -/
def Ctx.burn (y : Ctx) (n : Nat) : Ctx :=
  if y.wdog = 0 then y
  else
    let units := (y.wdogCycles + n) / 1024
    let left := y.wdog.toNat + y.wdogMore - units
    if left = 0 then { y with wdog := 0, wdogMore := 0, wdogCycles := 0, wdogDue := true }
    else { y with
      wdog := BitVec.ofNat 16 (Nat.min left 65535), wdogMore := left - 65535, wdogCycles := (y.wdogCycles + n) % 1024 }

/-- Context `c` holds the issue slot for `n` cycles, in user mode or not. -/
def Core.spend (x : Core) (c n : Nat) (user : Bool) : Core :=
  let y : Core := { x with cycle := x.cycle + n }
  if user then y.setCtx c ((y.ctx c).burn n) else y

/-! ### The next instruction (R455, R456, R459, R461, R462) -/

/-- The branch's delay slot has been issued: LR, the return stack, the outcome (R455, R456, R458, R459). `len` is the
slot's length and `at_` its issue cycle. -/
def Core.endSlot (x : Core) (c len at_ : Nat) (d : Delay) : Core :=
  let y := x.ctx c
  let after := y.pc + BitVec.ofNat 16 len
  let x1 := x.setCtx c { y with pc := if d.taken then d.target else after, delay := none }
  let x2 := if d.linkReg then { x1.later (at_ + 1) (.lr c) after with returns := (after :: x1.returns).take 8 } else x1
  if d.mispredict then { x2 with cycle := x2.cycle + 3, mispred := x2.mispred + 1 } else x2

/-- Context `c` goes on after an instruction of `len` words issued at a cycle: out of a delay slot, to the next
repetition, or to the next address. -/
def Core.goOn (x : Core) (c len at_ : Nat) : Core :=
  let y := x.ctx c
  match y.delay, y.rpt with
  | some d, _ => x.endSlot c len at_ d
  | none, some n =>
    if n ≤ 1 then x.setCtx c { y with rpt := none, rptFirst := false, pc := y.pc + BitVec.ofNat 16 len }
    else x.setCtx c { y with rpt := some (n - 1), rptFirst := false }
  | none, none => x.setCtx c { y with pc := y.pc + BitVec.ofNat 16 len }

/-! ### Exceptions (R452, R457, R464, R485, R486, R489, R492) -/

/-- A cause register's value (R485). -/
def Exc.word (e : Exc) : Word := BitVec.ofNat 16 (e.detail * 256 + e.cause)

/-- A halt report and what follows a DOUBLE (R489, R492): a containment, a device restart, or the Monument's own. -/
def State.haltReport (s : State) (k c : Nat) : State :=
  let y := (s.core k).ctx c
  let w1 := s.time32 * 2 ^ 32 + (if k = 48 then 2 else 1) * 2 ^ 24 + (if k = 48 then 0 else k) * 2 ^ 16 + c * 2 ^ 11 +
    y.cause2.toNat % 256
  let w2 := y.epc.toNat * 2 ^ 48 + y.eaddr.toNat * 2 ^ 32 + y.cause.toNat / 256 * 2 ^ 24 + y.cause.toNat % 256 * 2 ^ 16 +
    y.pc.toNat
  if k = 49 then s.monRestart 0x0F
  else
    let s1 := (s.toDevice 0x10 (if k = 48 then 0x30 else 0x40 + k) [w1, w2]).irq 48 4
    if k = 48 then s1.restart 0x20 else s1.startDevice 0x10 (some k)

/-- DOUBLE (R489). -/
def State.double (s : State) (k c : Nat) (e : Exc) : State :=
  (s.modCore k fun x => { x.setCtx c { x.ctx c with cause2 := e.word } with halted := true }).haltReport k c

/-- Exception entry of context `c` (R486): the return address is the branch's in a delay slot, and a repeat saves its
count. -/
def Ctx.enter (y : Ctx) (e : Exc) : Ctx :=
  { y with
    epc := (y.delay.map (·.branch)).getD y.pc, bd := y.delay.isSome, rpta := y.rpt.isSome
    rc := (y.rpt.map (BitVec.ofNat 13)).getD y.rc, cause := e.word, eaddr := e.eaddr
    esw := y.sw, ewp := y.wp, epriv := y.s
    exl := true, s := true, ie := false, wp := y.xwp, pc := 0x0010, delay := none, rpt := none, rptFirst := false
    suspended := none }

/-- The EXEC leg a context runs (R215). -/
def State.execLeg (s : State) (k c : Nat) : Option Trv :=
  (s.core k).exec.bind fun (p, tag) => (s.trv? p tag).bind fun t => if t.bound = some (k, c) then some t else none

/-- The EXEC leg of a core ends. -/
def State.endExec (s : State) (k : Nat) (t : Trv) (r : LegResult) : State :=
  (s.modCore k fun x => { x with exec := none }).legDone t r

/-- An exception of context `c` (R486, R489); one in the user-mode code of an EXEC routine also ends its leg (R216). -/
def State.raise (s : State) (k c : Nat) (e : Exc) : State :=
  let y := (s.core k).ctx c
  if y.exl then s.double k c e
  else
    let s1 := s.modCore k fun x => { (x.dropSw c).setCtx c (y.enter e) with cycle := x.cycle + 8 }
    match y.s, e.cause == 0x0E, s.execLeg k c with
    | false, false, some t =>
      s1.endExec k t { status := stLegInvalid, info := some (BitVec.ofNat 64 (0x80000000 + e.cause)) }
    | _, _, _ => s1

/-- RPT-ILLEGAL before an unrepeatable instruction: at the RPT, neither instruction having any effect (R463). -/
def State.raiseAtRpt (s : State) (k c : Nat) : State :=
  (s.modCtx k c fun y => { y with pc := y.pc - 2, rpt := none, rptFirst := false }).raise k c { cause := 0x07 }

/-! ### Issue (R436, R450 to R455, R463) -/

/-- What an instruction is besides its effect: words, issue cost, whether only supervisor mode may issue it, the I/O
port it names, whether it may stand in a delay slot and be repeated, whether its encoding is reserved. -/
structure Form where
  len : Nat := 2
  cost : Nat := 1
  privileged : Bool := false
  io : Option (Core → Nat) := none
  slotOk : Bool := true
  repeatable : Bool := true
  isReserved : Bool := false

/-- How the context goes on after an instruction's effect. -/
inductive After where
  /-- To the next instruction. -/
  | go
  /-- The effect has set the PC. -/
  | jump
  /-- A branch: to its delay slot. -/
  | slot
  /-- To the next instruction, and on to the next runnable context (SWAP). -/
  | swap
  /-- To the next instruction once the suspension ends (IDLE, reads of stakes). -/
  | sleep (w : Suspend)
  /-- The instruction itself waits (IOWAIT, BMOV). -/
  | hold (w : Suspend)

/-- An instruction's effect on the machine. -/
structure Effect where
  st : State
  after : After := .go

/-- A user-mode fetch outside I-space 0x8000 to 0xFFFF (R436). -/
def Ctx.badFetch (y : Ctx) (len : Nat) : Option Word :=
  if y.s then none
  else if !y.pc.msb then some y.pc
  else if len = 2 && !(y.pc + 1).msb then some (y.pc + 1)
  else none

/-- The checks that come before an instruction's own, in the order of R452. -/
def Form.check (fm : Form) (x : Core) (k : Nat) : Option Exc :=
  let y := x.here
  match y.badFetch fm.len with
  | some a => some { cause := 0x04, eaddr := a }
  | none =>
    if fm.isReserved || (y.delay.isSome && !fm.slotOk) then some { cause := 0x01 }
    else match fm.io with
      | some port =>
        let n := port x
        if !y.s || (k = 48 && x.cur ≠ 7 && 0x280 ≤ n && n < 0x300) then some { cause := 0x03, eaddr := BitVec.ofNat 16 n }
        else none
      | none => if fm.privileged && !y.s then some { cause := 0x02 } else none

/-- PARITY, the last of the causes (R452, R485): a fetched word, else a D-space word the instruction has read; `x` is the
core before it and `y` after it. -/
def Form.parity (fm : Form) (x y : Core) : Option Exc :=
  let words := (List.range fm.len).map fun i => x.here.pc + BitVec.ofNat 16 i
  match words.find? fun a => decide (a.toNat ∈ x.iParity) with
  | some a => some { cause := 0x0B, eaddr := a }
  | none => y.parityHit.map parityD

/-- The instruction has had its effect; `c` and `user` are the issuing context and its mode, `at_` the issue cycle. -/
def State.afterEffect (s : State) (k c len cost at_ : Nat) (user : Bool) : After → State
  | .go => s.modCore k fun x => (x.spend c cost user).goOn c len at_
  | .jump => s.modCore k fun x => x.spend c cost user
  | .slot => s.modCore k fun x =>
      let y := x.spend c cost user
      y.setCtx c { y.ctx c with pc := (y.ctx c).pc + BitVec.ofNat 16 len }
  | .swap =>
    let s1 := s.modCore k fun x =>
      let y := (x.spend c cost user).goOn c len at_
      match y.nextCtx k with
      | some n => { y with cur := n }
      | none => if y.ready.getLsbD c then y else { y with stalled := true }
    if (s1.core k).stalled then s1.settleAll k else s1
  | .sleep w =>
    let s1 := s.modCore k fun x =>
      let y := (x.spend c cost user).goOn c len at_
      if w = .idle then (y.setCtx c { y.ctx c with suspended := some w }).pass k else y
    match w with
    | .idle => if (s1.core k).stalled then s1.settleAll k else s1
    | .stake acquire dest =>
      let s2 := s1.readStake k acquire dest
      if (s2.core k).stalled then s2.settleAll k else s2
    | _ => s1
  | .hold w =>
    let s1 := s.modCore k fun x => x.suspend k w
    if (s1.core k).stalled then s1.settleAll k else s1

/-- The running context stands in an annulled delay slot (R455). -/
def Ctx.inAnnulled (y : Ctx) : Bool := (y.delay.map (·.annulled)).getD false

/-- WATCHDOG comes before the next user-mode instruction (R491). -/
def Ctx.watchdogFirst (y : Ctx) : Bool := y.wdogDue && !y.s && y.delay.isNone && !y.rptFirst

/-- Core `k` issues one instruction from its running context. A core that cannot issue, or must take WATCHDOG first,
changes nothing. -/
def State.attempt (s : State) (k : Nat) (fm : Form) (f : State → Try Effect) : State :=
  if !(k < 50 && (s.core k).running) || (s.core k).here.watchdogFirst then s
  else
    let s0 := s.settle k
    let x := s0.core k
    let y := x.here
    if y.inAnnulled then s0.afterEffect k x.cur fm.len 1 x.cycle (!y.s) .go
    else match fm.check x k with
      | some e => s0.raise k x.cur e
      | none =>
        if y.rpt.isSome && !fm.repeatable then s0.raiseAtRpt k x.cur
        else match f s0 with
          | .error e => s0.raise k x.cur e
          | .ok r => match fm.parity x (r.st.core k) with
            | some e => s0.raise k x.cur e
            | none => r.st.afterEffect k x.cur fm.len fm.cost x.cycle (!y.s) r.after

/-- An instruction whose effect lies in its core alone. -/
def State.seharOp (s : State) (k : Nat) (fm : Form) (f : Core → Try Core) : State :=
  s.attempt k fm fun t => do
    let y ← f (t.core k)
    .ok { st := t.setCore k y }

/-! ### Branches (R455 to R459) -/

/-- Index of the counter of a branch (R458). -/
def Core.predictIndex (x : Core) (pc : Word) : Nat := (pc.setWidth 8 ^^^ x.history).toNat

/-- A counter moved by an outcome, saturating. -/
def bumpCounter (n : Nat) (taken : Bool) : Nat := if taken then Nat.min (n + 1) 3 else n - 1

/-- A branch by its kind: direct, through W[n], or through LR. -/
inductive BranchKind where
  | direct | viaReg | viaLr
  deriving DecidableEq, Repr

/-- The guess is wrong (R458): of a direct branch the direction, through W[n] any taken branch, through LR the direction,
a target that is not the return stack's top, or no prediction because the stack is empty. -/
def Core.wrongGuess (x : Core) (kind : BranchKind) (guess taken : Bool) (target : Word) : Bool := match kind with
  | .direct => guess != taken
  | .viaReg => taken
  | .viaLr => guess != taken || x.returns = [] || (taken && x.returns.head? ≠ some target)

/-- A branch issues: its predictor state moves, every branch through LR pops the return stack (R458, log 44), and its delay
slot is next. -/
def Core.branch (x : Core) (cond : BitVec 4) (annul linkReg : Bool) (kind : BranchKind) (target : Word) : Core :=
  let y := x.here
  let taken := condHolds cond y.flags
  let i := x.predictIndex y.pc
  let n := x.counters.get i 1
  let guess := cond = 0 || decide (2 ≤ n)
  let x1 : Core := if cond = 0 then x else
    { x with counters := x.counters.set i (bumpCounter n taken), history := (x.history <<< 1) ||| BitVec.ofNat 8 (b2n taken) }
  let x2 : Core := if kind = .viaLr then { x1 with returns := x1.returns.tail } else x1
  let d : Delay := { branch := y.pc, target, taken, annulled := annul && !taken, linkReg,
                     mispredict := x.wrongGuess kind guess taken target }
  x2.modHere fun z => { z with delay := some d }

/-- A branch instruction of `len` words; its target is computed from the core. -/
def State.seharBranch (s : State) (k len : Nat) (isReserved : Bool) (cond : BitVec 4) (annul linkReg : Bool)
    (kind : BranchKind) (target : Core → Try Word) : State :=
  s.attempt k { len, slotOk := false, repeatable := false, isReserved } fun t => do
    let x := t.core k
    let a ← target x
    .ok { st := t.setCore k (x.branch cond annul linkReg kind a), after := .slot }

end Sys2Proof.Machine
end

