-- ==== Sys2Proof/Machine/SeharOps.lean ====
section
/-! DEFINITION. The Sehar instructions that compute, move and branch: short forms, long arithmetic, packed decimal,
immediates, branches, calls and RPT (R443 to R450, R455 to R470). -/

namespace Sys2Proof.Machine

/-- A short form. -/
def shortForm : Form := { len := 1 }
/-- A long form of issue cost 1. -/
def longForm : Form := {}
/-- A long form of another issue cost. -/
def longCost (cost : Nat) : Form := { cost }

/-! ### Short forms (R443, R444) -/

/-- SA MOV (R443). -/
def execSSaMov (k : Nat) (d t : BitVec 6) (s : State) : Ans :=
  .next (s.seharOp k shortForm fun x => x.runOne (d.setWidth 8) (t.setWidth 8) fun v f => .ok { r := v, f })

/-- SA ADD (R443). -/
def execSSaAdd (k : Nat) (d t : BitVec 6) (s : State) : Ans := .next (s.seharOp k shortForm fun x => x.runSa d t opAdd)

/-- SA SUB (R443). -/
def execSSaSub (k : Nat) (d t : BitVec 6) (s : State) : Ans := .next (s.seharOp k shortForm fun x => x.runSa d t opSub)

/-- SA AND (R443). -/
def execSSaAnd (k : Nat) (d t : BitVec 6) (s : State) : Ans := .next (s.seharOp k shortForm fun x => x.runSa d t opAnd)

/-- SA OR (R443). -/
def execSSaOr (k : Nat) (d t : BitVec 6) (s : State) : Ans := .next (s.seharOp k shortForm fun x => x.runSa d t opOr)

/-- SA XOR (R443). -/
def execSSaXor (k : Nat) (d t : BitVec 6) (s : State) : Ans := .next (s.seharOp k shortForm fun x => x.runSa d t opXor)

/-- SA CMP (R443): only flags. -/
def execSSaCmp (k : Nat) (d t : BitVec 6) (s : State) : Ans := .next (s.seharOp k shortForm fun x => x.runSaFlags d t opSub)

/-- SB (R444): to its own address plus DISP; never links. -/
def execSSb (k : Nat) (cond : BitVec 4) (annul : Bool) (disp : BitVec 7) (s : State) : Ans :=
  .next (s.seharBranch k 1 false cond annul false .direct fun x => .ok (x.here.pc + disp.signExtend 16))

/-! ### Binary arithmetic and logic (R448, R450) -/

/-- ADD (R448, R450). -/
def execSAdd (k : Nat) (d a b : BitVec 8) (s : State) : Ans := .next (s.seharOp k longForm fun x => x.runLa d a b opAdd)

/-- ADC (R448, R450). -/
def execSAdc (k : Nat) (d a b : BitVec 8) (s : State) : Ans := .next (s.seharOp k longForm fun x => x.runLa d a b opAdc)

/-- SUB (R448, R450). -/
def execSSub (k : Nat) (d a b : BitVec 8) (s : State) : Ans := .next (s.seharOp k longForm fun x => x.runLa d a b opSub)

/-- SBC (R448, R450). -/
def execSSbc (k : Nat) (d a b : BitVec 8) (s : State) : Ans := .next (s.seharOp k longForm fun x => x.runLa d a b opSbc)

/-- AND (R448, R450). -/
def execSAnd (k : Nat) (d a b : BitVec 8) (s : State) : Ans := .next (s.seharOp k longForm fun x => x.runLa d a b opAnd)

/-- OR (R448, R450). -/
def execSOr (k : Nat) (d a b : BitVec 8) (s : State) : Ans := .next (s.seharOp k longForm fun x => x.runLa d a b opOr)

/-- XOR (R448, R450). -/
def execSXor (k : Nat) (d a b : BitVec 8) (s : State) : Ans := .next (s.seharOp k longForm fun x => x.runLa d a b opXor)

/-- BIC (R448, R450). -/
def execSBic (k : Nat) (d a b : BitVec 8) (s : State) : Ans := .next (s.seharOp k longForm fun x => x.runLa d a b opBic)

/-- SHL (R448, R450). -/
def execSShl (k : Nat) (d a b : BitVec 8) (s : State) : Ans := .next (s.seharOp k longForm fun x => x.runLa d a b opShl)

/-- SHR (R448, R450). -/
def execSShr (k : Nat) (d a b : BitVec 8) (s : State) : Ans := .next (s.seharOp k longForm fun x => x.runLa d a b opShr)

/-- SAR (R448, R450). -/
def execSSar (k : Nat) (d a b : BitVec 8) (s : State) : Ans := .next (s.seharOp k longForm fun x => x.runLa d a b opSar)

/-- MOV (R450): no flag changes. -/
def execSMov (k : Nat) (d a : BitVec 8) (s : State) : Ans :=
  .next (s.seharOp k longForm fun x => x.runOne d a fun v f => .ok { r := v, f })

/-- MUL (R450): the low half; C and V when the high half is not 0. -/
def execSMul (k : Nat) (d a b : BitVec 8) (s : State) : Ans := .next (s.seharOp k (longCost 2) fun x => x.runLa d a b opMul)

/-- MULH (R450): the high half. -/
def execSMulh (k : Nat) (d a b : BitVec 8) (s : State) : Ans := .next (s.seharOp k (longCost 2) fun x => x.runLa d a b opMulh)

/-- CMP (R450). -/
def execSCmp (k : Nat) (a b : BitVec 8) (s : State) : Ans := .next (s.seharOp k longForm fun x => x.runLaFlags a b opSub)

/-- TST (R450). -/
def execSTst (k : Nat) (a b : BitVec 8) (s : State) : Ans := .next (s.seharOp k longForm fun x => x.runLaFlags a b opAnd)

/-! ### Packed decimal (R465 to R470) -/

/-- DADD (R466). -/
def execSDadd (k : Nat) (d a b : BitVec 8) (s : State) : Ans := .next (s.seharOp k longForm fun x => x.runDec d a b opDadd)

/-- DADC (R466). -/
def execSDadc (k : Nat) (d a b : BitVec 8) (s : State) : Ans := .next (s.seharOp k longForm fun x => x.runDec d a b opDadc)

/-- DSUB (R466). -/
def execSDsub (k : Nat) (d a b : BitVec 8) (s : State) : Ans := .next (s.seharOp k longForm fun x => x.runDec d a b opDsub)

/-- DSBC (R466). -/
def execSDsbc (k : Nat) (d a b : BitVec 8) (s : State) : Ans := .next (s.seharOp k longForm fun x => x.runDec d a b opDsbc)

/-- DADJ (R467): never DECIMAL-INVALID. -/
def execSDadj (k : Nat) (d a : BitVec 8) (s : State) : Ans :=
  .next (s.seharOp k longForm fun x => x.runOne d a fun v f => .ok (opDadj v f))

/-- DCMP (R466). -/
def execSDcmp (k : Nat) (a b : BitVec 8) (s : State) : Ans := .next (s.seharOp k longForm fun x => x.runDecFlags a b opDsub)

/-- DSHL (R468). -/
def execSDshl (k : Nat) (d a b : BitVec 8) (s : State) : Ans := .next (s.seharOp k longForm fun x => x.runDec d a b opDshl)

/-- DMD (R469). -/
def execSDmd (k : Nat) (d a : BitVec 8) (n : BitVec 6) (s : State) : Ans := .next (s.seharOp k (longCost 4) fun x => x.runDmd d a n)

/-- CVBD (R470). -/
def execSCvbd (k : Nat) (d a : BitVec 8) (n : BitVec 6) (s : State) : Ans := .next (s.seharOp k (longCost 6) fun x => x.runCvbd d a n)

/-- CVDB (R470). -/
def execSCvdb (k : Nat) (d a : BitVec 8) (s : State) : Ans :=
  .next (s.seharOp k (longCost 6) fun x => x.runOne d a fun v f => decimalOr (opCvdb v f))

/-! ### Immediates (R450) -/

/-- MOVI (R450). -/
def execSMovi (k : Nat) (d : BitVec 8) (imm : Word) (s : State) : Ans := .next (s.seharOp k longForm fun x => x.runStore d imm)

/-- ADDI (R447, R450). -/
def execSAddi (k : Nat) (d : BitVec 8) (imm : Word) (s : State) : Ans := .next (s.seharOp k longForm fun x => x.runLi d imm opAdd)

/-- SUBI (R447, R450). -/
def execSSubi (k : Nat) (d : BitVec 8) (imm : Word) (s : State) : Ans := .next (s.seharOp k longForm fun x => x.runLi d imm opSub)

/-- ANDI (R447, R450). -/
def execSAndi (k : Nat) (d : BitVec 8) (imm : Word) (s : State) : Ans := .next (s.seharOp k longForm fun x => x.runLi d imm opAnd)

/-- ORI (R447, R450). -/
def execSOri (k : Nat) (d : BitVec 8) (imm : Word) (s : State) : Ans := .next (s.seharOp k longForm fun x => x.runLi d imm opOr)

/-- XORI (R447, R450). -/
def execSXori (k : Nat) (d : BitVec 8) (imm : Word) (s : State) : Ans := .next (s.seharOp k longForm fun x => x.runLi d imm opXor)

/-- CMPI (R450): only flags. -/
def execSCmpi (k : Nat) (d : BitVec 8) (imm : Word) (s : State) : Ans := .next (s.seharOp k longForm fun x => x.runLiFlags d imm opSub)

/-- TSTI (R450): only flags. -/
def execSTsti (k : Nat) (d : BitVec 8) (imm : Word) (s : State) : Ans := .next (s.seharOp k longForm fun x => x.runLiFlags d imm opAnd)

/-! ### Branches, calls, returns (R445, R455 to R459) -/

/-- The kind of a target. -/
def targetKind : BranchTarget → BranchKind
  | .absolute _ => .direct
  | .reg _ => .viaReg
  | .lr => .viaLr

/-- A target as read at issue (R456). -/
def Core.targetOf (x : Core) : BranchTarget → Try Word
  | .absolute t => .ok t
  | .reg n => do
    let r ← x.source (n.setWidth 8)
    r.core.checkParity
    .ok r.value
  | .lr => .ok x.here.lr

/-- B (R455). -/
def execSB (k : Nat) (cond : BitVec 4) (annul : Bool) (t : BranchTarget) (s : State) : Ans :=
  .next (s.seharBranch k 2 false cond annul false (targetKind t) fun x => x.targetOf t)

/-- CALL (R456); through LR it is reserved (R451). -/
def execSCall (k : Nat) (cond : BitVec 4) (annul : Bool) (t : BranchTarget) (s : State) : Ans :=
  .next (s.seharBranch k 2 (targetKind t = .viaLr) cond annul true (targetKind t) fun x => x.targetOf t)

/-- RET (R456): always, to LR. -/
def execSRet (k : Nat) (s : State) : Ans := .next (s.seharBranch k 2 false 0 false false .viaLr fun x => .ok x.here.lr)

/-- BR (R450). -/
def execSBr (k : Nat) (cond : BitVec 4) (annul : Bool) (disp : Word) (s : State) : Ans :=
  .next (s.seharBranch k 2 false cond annul false .direct fun x => .ok (x.here.pc + disp))

/-- CALLR (R450). -/
def execSCallr (k : Nat) (cond : BitVec 4) (annul : Bool) (disp : Word) (s : State) : Ans :=
  .next (s.seharBranch k 2 false cond annul true .direct fun x => .ok (x.here.pc + disp))

/-! ### RPT (R461 to R464) -/

/-- RPT's count: the immediate, or the operand of mode 00 or 01 (R461). -/
def Core.rptCount (x : Core) (d : BitVec 8) (imm : Word) : Try Nat :=
  if imm ≠ 0 then .ok imm.toNat
  else do
    let r ← x.source d
    if r.value = 0 || 4096 < r.value.toNat then .error { cause := 0x07 }
    else do
      r.core.checkParity
      .ok r.value.toNat

/-- RPT (R461): the count is captured, and the next instruction repeats. -/
def execSRpt (k : Nat) (d : BitVec 8) (imm : Word) (s : State) : Ans :=
  .next (s.attempt k { slotOk := false, repeatable := false, isReserved := rptReserved d imm } fun t => do
    let x := t.core k
    let n ← x.rptCount d imm
    .ok { st := t.setCore k (x.modHere fun y => { y with pc := y.pc + 2, rpt := some n, rptFirst := true }), after := .jump })

end Sys2Proof.Machine
end

