-- ==== Sys2Proof/Machine/SeharSys.lean ====
section
/-! DEFINITION. The Sehar instructions of the system: I/O, block moves, gates, TRAP, RFE, status and link registers,
contexts, interrupts, reserved encodings, and the EXEC leg (R214 to R216, R436, R450, R451, R471 to R475, R479 to
R491). -/

namespace Sys2Proof.Machine

/-! ### IN, OUT, INX, OUTX (R450, R453, R505) -/

/-- A read of a port into a destination: STK_ACQ and STK_PEEK suspend the context until the bank answers. -/
def State.inPort (t : State) (k port : Nat) (d : BitVec 8) : Try Effect := do
  let c := (t.core k).cur
  match stakePort k port with
  | some acquire =>
    let vd ← (t.core k).operand d
    .ok { st := t.setCore k vd.core, after := .sleep (.stake acquire (some vd.addr.toNat)) }
  | none =>
    let a := ((t.core k).ctx c).iaddr
    if port = 0x046 && decide (a.toNat ∈ (t.core k).iParity) then .error { cause := 0x0B, eaddr := a }
    else do
      let t1 := t.ioReadEffect k c port
      let y ← (t1.core k).runStore d (t.ioPeek k c port)
      .ok { st := t1.setCore k y }

/-- A write of a port, which takes effect 4 cycles later (R453). -/
def Core.outPort (x : Core) (port : Nat) (d : BitVec 8) : Try Core := do
  let v ← x.source d
  .ok (v.core.later (x.cycle + 4) (.io x.cur port) v.value)

/-- The port W[n] names (R450): bits [15:12] are ignored. -/
def Core.portOf (n : BitVec 6) (x : Core) : Nat := (x.reg n.toNat).toNat % 4096

/-- W[n] of the running context is read. -/
def State.senseReg (t : State) (k n : Nat) : State := t.modCore k fun x => x.sense (x.regAddr n)

/-- IN (R450). -/
def execSIn (k : Nat) (d : BitVec 8) (port : BitVec 12) (s : State) : Ans :=
  .next (s.attempt k { io := some fun _ => port.toNat } fun t => t.inPort k port.toNat d)

/-- OUT (R450). -/
def execSOut (k : Nat) (d : BitVec 8) (port : BitVec 12) (s : State) : Ans :=
  .next (s.seharOp k { io := some fun _ => port.toNat } fun x => x.outPort port.toNat d)

/-- INX (R450). -/
def execSInx (k : Nat) (d : BitVec 8) (n : BitVec 6) (s : State) : Ans :=
  .next (s.attempt k { io := some (Core.portOf n) } fun t =>
    (t.senseReg k n.toNat).inPort k ((t.core k).portOf n) d)

/-- OUTX (R450). -/
def execSOutx (k : Nat) (d : BitVec 8) (n : BitVec 6) (s : State) : Ans :=
  .next (s.seharOp k { io := some (Core.portOf n) } fun x =>
    (x.sense (x.regAddr n.toNat)).outPort (x.portOf n) d)

/-! ### IOWAIT (R475) -/

/-- The address update of a spec as a write (R446). -/
def Core.updates (x : Core) (sp : BitVec 8) : List (Nat × Word) :=
  let w := x.regAddr sp.toNat
  match sp.toNat / 64 with
  | 2 => [(w.toNat, x.dread w + 1)]
  | 3 => [(w.toNat, x.dread w - 1)]
  | _ => []

/-- IOWAIT (R475): the mask is evaluated once; while the condition does not hold, the context is suspended at the
instruction. -/
def execSIowait (k : Nat) (d : BitVec 8) (port : BitVec 12) (s : State) : Ans :=
  .next (s.attempt k { io := some fun _ => port.toNat, repeatable := false } fun t => do
    let x := t.core k
    let m ← x.source d
    m.core.checkParity
    let t1 : State := if isFirmwarePort k port.toNat then { t with fresh := t.fresh + 1 } else t
    if t.ioPeek k x.cur port.toNat &&& m.value ≠ 0 then .ok { st := t1.setCore k m.core }
    else .ok { st := t1, after := .hold (.iowait port.toNat m.value (x.updates d)) })

/-- IOWAIT_RESUME (R475): the condition holds (for a firmware port, the command says so), the address update lands and
the context goes on. -/
def execIowaitResume (k c : Nat) (s : State) : Ans :=
  .next (
    let x := s.core k
    match (x.ctx c).suspended with
    | some (.iowait port mask updates) =>
      if x.halted || x.inReset || (!isFirmwarePort k port && s.ioPeek k c port &&& mask = 0) then s
      else
        let y := updates.foldl (fun (y : Core) (a, v) => y.putD a v) x
        s.setCore k ((y.goOn c 2 y.cycle).resume k c)
    | _ => s)

/-! ### BMOV (R473, R474) -/

/-- The staging window that holds a D-space word: its end, if any (R435, R438). -/
def windowEnd (k w : Nat) : Option Nat :=
  if k < 48 && 0xC000 ≤ w then some ((w / 0x1000 + 1) * 0x1000)
  else if k = 48 && 0xE000 ≤ w then some ((w / 0x1000 + 1) * 0x1000)
  else none

/-- The place of a descriptor's words 2 and 3. -/
def bmovPlace (phys : Bool) (w2 w3 : Word) : Place :=
  if phys then .phys ((w3.toNat / 2 ^ 14) * 2 ^ 36 + (w3.toNat % 2 ^ 14 * 2 ^ 16 + w2.toNat) * 64)
  else .buf ((w3.toNat % 64 * 2 ^ 16 + w2.toNat) * 65536 + w3.toNat / 64 * 64)

/-- The move a descriptor asks for (R473). -/
def moveOf (w0 w1 w2 w3 : Word) : BlockMove :=
  let phys := w1.getLsbD 14
  { window := w0.toNat, drain := w1.getLsbD 15, tag := bitsOf w1.toNat 9 8, beats := bitsOf w1.toNat 6 0 + 1
    addr := match bmovPlace phys w2 w3 with
      | .buf p => p
      | .phys a => a
      | .host _ => 0
    phys }

/-- A descriptor is not refused (R473). -/
def moveOk (k : Nat) (w1 : Word) (m : BlockMove) (outstanding : List BlockMove) : Bool :=
  bitsOf w1.toNat 13 10 = 0 && !w1.getLsbD 7 && 0xC000 ≤ m.window && m.window % 32 = 0 &&
  (match windowEnd k m.window with
    | some e => m.window + 32 * m.beats ≤ e
    | none => false) &&
  (if m.phys then m.place.inBounds (64 * m.beats)
   else (m.addr + 64 * m.beats - 1) / 65536 < 4 * extentsPerQuarter) &&
  outstanding.all fun o => o.tag ≠ m.tag

/-- Words of D-space from an address. -/
def Core.words (x : Core) (a n : Nat) : List Word := (List.range n).map fun i => x.dread (BitVec.ofNat 16 (a + i))

/-- BMOV with a descriptor read: posted, or refused with ERR and DONE. -/
def Core.postMove (x : Core) (k : Nat) (w1 : Word) (m : BlockMove) : Core :=
  x.modHere fun y =>
    if moveOk k w1 m y.moves then
      { y with moves := y.moves ++ [{ m with data := if m.drain then x.words m.window (32 * m.beats) else [] }] }
    else
      let bit : BitVec 4 := BitVec.ofNat 4 (2 ^ m.tag)
      { y with bmErr := y.bmErr ||| bit, bmDone := y.bmDone ||| bit }

/-- BMOV (R473): with 4 moves outstanding the context waits at the instruction. -/
def execSBmov (k : Nat) (n : BitVec 6) (s : State) : Ans :=
  .next (s.attempt k { privileged := true, repeatable := false } fun t =>
    let x := t.core k
    if 4 ≤ x.here.moves.length then .ok { st := t, after := .hold .bmov }
    else
      let a := x.reg n.toNat
      let w1 := x.dread (a + 1)
      let m := moveOf (x.dread a) w1 (x.dread (a + 2)) (x.dread (a + 3))
      let y := [x.regAddr n.toNat, a, a + 1, a + 2, a + 3].foldl Core.sense x
      .ok { st := t.setCore k (y.postMove k w1 m) })

/-- The words a drain moves: where the window changed since it was posted, each word is its old or its new value (R474). -/
def State.drainWords (s : State) (x : Core) (m : BlockMove) : List Word :=
  (List.range (32 * m.beats)).map fun i =>
    let old := m.data.getD i 0
    let new := x.dread (BitVec.ofNat 16 (m.window + i))
    if Config.freeBit (s.fresh + i) then old else new

/-- The words a fill writes to a window, seen by a drain posted behind it (R474). -/
def BlockMove.filled (d : BlockMove) (window : Nat) (ws : List Word) : BlockMove :=
  if !d.drain then d
  else { d with data := (List.range d.data.length).map fun i =>
    if window ≤ d.window + i && d.window + i < window + ws.length then ws.getD (d.window + i - window) 0 else d.data.getD i 0 }

/-- A fill performed: the window's words, over every older write (R453), POISON when a beat is poisoned; a drain posted
behind it moves these words (R474). -/
def State.doFill (s : State) (k c : Nat) (m : BlockMove) : State :=
  let l := s.marked m.place 0 (64 * m.beats)
  let bad := l.any (·.2)
  let s1 := s.taken m.place (64 * m.beats)
  let ws := toWords (l.map (·.1))
  (s1.modCore k fun x =>
    (List.range ws.length).foldl (fun (x : Core) i => x.putD (m.window + i) (ws.getD i 0)) x).modCtx k c fun y => { y with
      moves := y.moves.map fun d => d.filled m.window ws
      bmPoison := if bad then y.bmPoison ||| BitVec.ofNat 4 (2 ^ m.tag) else y.bmPoison }

/-- A drain performed (R474): a beat with a word of wrong parity is poisoned; of a parity error that the command
reports, the beat is one the manual leaves open (log 38). -/
def State.doDrain (s : State) (k c : Nat) (m : BlockMove) (parity : Bool) : State :=
  let ws := ofWords (s.drainWords (s.core k) m)
  let bad := Config.freeNat s.fresh % m.beats
  let x := s.core k
  let wrong (beat : Nat) : Bool :=
    (parity && beat = bad) || (List.range 32).any fun i => decide (m.window + 32 * beat + i ∈ x.dParity)
  let l := (List.range ws.length).map fun i => (ws.getD i 0, wrong (i / 64))
  let s1 : State := { s with fresh := s.fresh + 32 * m.beats }
  (s1.putMarked m.place 0 l).modCtx k c fun y =>
    if l.any (·.2) then { y with bmPoison := y.bmPoison ||| BitVec.ofNat 4 (2 ^ m.tag) } else y

/-- BLOCK_MOVE_DONE (R474): the oldest move of a context is performed once its stacks are awake (R418); a BMOV that
waited goes on. -/
def execBlockMoveDone (k c : Nat) (parity : Bool) (s : State) : Ans :=
  .next (
    match ((s.core k).ctx c).moves with
    | [] => s
    | m :: _ =>
      let (s0, awake) := s.reach (m.place.quarters (64 * m.beats))
      if !awake then s0
      else
        let s1 := if m.drain then s0.doDrain k c m parity else s0.doFill k c m
        let s2 := s1.modCtx k c fun y =>
          { y with moves := y.moves.drop 1, bmDone := y.bmDone ||| BitVec.ofNat 4 (2 ^ m.tag) }
        let s3 := s2.releaseAfter k c m.tag
        if ((s3.core k).ctx c).suspended = some .bmov then s3.modCore k fun x => x.resume k c else s3)

/-! ### GATE and GRET (R482 to R484) -/

/-- Word `i` of gate `n`'s entry. -/
def Core.gateWord (x : Core) (k n i : Nat) : Word := x.iread k (BitVec.ofNat 16 (x.gateBase.toNat * 256 + 4 * n + i))

/-- A word of gate `n`'s entry with wrong parity. -/
def Core.badGateWord (x : Core) (n : Nat) : Option Word :=
  ((List.range 4).map fun i => (BitVec.ofNat 16 (x.gateBase.toNat * 256 + 4 * n + i) : Word)).find? fun a =>
    decide (a.toNat ∈ x.iParity)

/-- W0 to W[n − 1] are read. -/
def Core.senseRegs (x : Core) (n : Nat) : Core := (List.range n).foldl (fun (y : Core) i => y.sense (x.regAddr i)) x

/-- Step 1 of GATE: the entry is valid and the record free. -/
def Core.gateOk (x : Core) (k n : Nat) : Bool :=
  let target := x.gateWord k n 0
  let args := x.gateWord k n 2
  x.here.gate.isNone && target ≠ 0 && !target.msb && (x.gateWord k n 1).toNat % 64 = 0 && args.toNat / 32 = 0 &&
  args.toNat % 4 < 2 && args.toNat / 4 % 4 < 2 && x.gateWord k n 3 = 0

/-- A pointer pair of a user-mode caller lies in its bounds (R483). -/
def Core.pairOk (x : Core) (p l : Word) : Bool :=
  l = 0 || (x.here.ubase.toNat ≤ p.toNat && p.toNat + l.toNat - 1 ≤ x.here.ulim.toNat)

/-- Step 2 of GATE: the first failing pointer. -/
def Core.badPair (x : Core) (args : Word) (w : Nat → Word) : Option Word :=
  if x.here.s then none
  else if args.toNat % 4 = 1 && !x.pairOk (w 0) (w 1) then some (w 0)
  else if args.toNat / 4 % 4 = 1 && !x.pairOk (w 2) (w 3) then some (w 2)
  else none

/-- The gate entered (R483, steps 3 to 5). -/
def Core.enterGate (x : Core) (k n : Nat) : Core :=
  let gwp := x.gateWord k n 1
  let x1 := (List.range 4).foldl (fun (z : Core) i => z.result (gwp + BitVec.ofNat 16 i) (x.reg i)) (x.dropSw x.cur)
  x1.modHere fun y => { y with
    gate := some { ret := y.pc + 2, wp := y.wp, sw := y.sw, priv := y.s }
    wp := gwp, s := true, ie := (x.gateWord k n 2).getLsbD 4, pc := x.gateWord k n 0 }

/-- The outcome of an EXEC routine that leaves through gate 0 (R216). Where the table gives no residual it is 0: DESIGN
CHOICE (log 41). -/
def execResult (w0 w1 w2 : Word) (moved : Bool) : LegResult :=
  let info : BitVec 64 := BitVec.ofNat 64 (w2.toNat * 65536 + w1.toNat)
  match w0.toNat with
  | 0 => { status := stOk, info := some info, moved }
  | 1 => { status := stOkShort, info := some info, residual := w1.toNat, moved }
  | 2 => { status := stVerifyMismatch, info := some info, moved }
  | n => { status := stLegInvalid, info := some (BitVec.ofNat 64 (0x40000000 + n)), moved }

/-- Every extent of a range is declared WRITE. -/
def Trv.allWrite (t : Trv) (pos n : Nat) : Bool :=
  0 < n && (List.range ((pos + n - 1) / 65536 - pos / 65536 + 1)).all fun i => t.modeOf (pos / 65536 + i) = some .write

/-- The exit gate has been entered (R215, R216): stores still under way land, the data goes back where it is declared WRITE,
and the leg ends with the outcome that W0 to W2 held as the GATE issued (R483); the context is the firmware's again, in gate
0's code (log 41). -/
def State.exitExec (s0 : State) (k : Nat) (t : Trv) (r : Bool → LegResult) : State :=
  let s := s0.settleAll k
  let n := legLen t.leg
  let pos := bufPos (legAddr t.leg)
  let back := t.allWrite pos n
  let s1 := if back then s.writeBuf pos (ofWords ((s.core k).words 0xA000 (n / 2))) false else s
  (s1.modCore k fun x => x.modHere fun y => { y with wdog := 0, wdogMore := 0, wdogDue := false }).endExec k t (r back)

/-- GATE (R483). Gate 0 of an EXEC routine is entered like any other, and ends the leg (R215). -/
def execSGate (k : Nat) (n : BitVec 6) (s : State) : Ans :=
  .next (s.attempt k { cost := 10, slotOk := false, repeatable := false } fun t => do
    let x := t.core k
    let g := n.toNat
    let leg := if g = 0 && !x.here.s then t.execLeg k x.cur else none
    if !x.gateOk k g then .error { cause := 0x08, detail := g }
    else do
      let _ ← x.guardD (x.regAddr 0)
      let _ ← x.guardD (x.regAddr 1)
      let _ ← x.guardD (x.regAddr 2)
      let _ ← x.guardD (x.regAddr 3)
      match x.badPair (x.gateWord k g 2) x.reg with
      | some p => .error { cause := 0x09, detail := g, eaddr := p }
      | none => match x.badGateWord g with
        | some a => .error { cause := 0x0B, eaddr := a }
        | none =>
          (x.senseRegs 4).checkParity
          let t1 := t.setCore k ((x.senseRegs 4).enterGate k g)
          match leg with
          | some l => .ok { st := t1.exitExec k l (execResult (x.reg 0) (x.reg 1) (x.reg 2)), after := .jump }
          | none => .ok { st := t1, after := .jump })

/-- GRET with the record in use (R484). -/
def Core.leaveGate (x : Core) (g : GateRecord) : Core :=
  let x1 := ((x.dropSw x.cur).result g.wp (x.reg 0)).result (g.wp + 1) (x.reg 1)
  x1.modHere fun y => { y with wp := g.wp, ie := g.sw.getLsbD 14, s := g.priv, pc := g.ret, gate := none }

/-- GRET (R484). -/
def execSGret (k : Nat) (s : State) : Ans :=
  .next (s.attempt k { cost := 8, slotOk := false, repeatable := false } fun t => do
    let x := t.core k
    match x.here.gate with
    | none => .error { cause := 0x08, detail := 0xFF }
    | some g =>
      let _ ← x.guardD (x.regAddr 0)
      let _ ← x.guardD (x.regAddr 1)
      let _ ← x.guardD g.wp
      let _ ← x.guardD (g.wp + 1)
      .ok { st := t.setCore k ((x.senseRegs 2).leaveGate g), after := .jump })

/-! ### TRAP and RFE (R450, R487, R488) -/

/-- TRAP (R450): its issue cost is the entry's. -/
def execSTrap (k : Nat) (code : BitVec 8) (s : State) : Ans :=
  .next (s.attempt k { slotOk := false, repeatable := false } fun _ => .error { cause := 0x0D, detail := code.toNat })

/-- The context returned to by RFE (R487). -/
def Ctx.returned (y : Ctx) : Ctx :=
  { y.setSw y.esw with
    s := y.esw.getLsbD 15 && y.epriv, pc := y.epc, wp := y.ewp, exl := false, bd := false, rpta := false
    rpt := if y.rpta && y.rc ≠ 0 then some y.rc.toNat else none, rptFirst := false }

/-- RFE (R487): PRIV-RESTORE when ESW.S exceeds EPRIV. -/
def execSRfe (k : Nat) (s : State) : Ans :=
  .next (s.attempt k { cost := 6, privileged := true, slotOk := false, repeatable := false } fun t =>
    let x := t.core k
    if x.here.esw.getLsbD 15 && !x.here.epriv then .error { cause := 0x0A }
    else .ok { st := t.setCore k ((x.dropSw x.cur).modHere Ctx.returned), after := .jump })

/-! ### Status, link and workspace registers (R441, R453, R460) -/

/-- A source operand on its way to a register of the context, seen 2 or more cycles later. -/
def Core.moveTo (x : Core) (d : BitVec 8) (target : WTarget) (f : Word → Word) : Try Core := do
  let v ← x.source d
  .ok (v.core.later (x.cycle + 2) target (f v.value))

/-- MFSW (R450). -/
def execSMfsw (k : Nat) (d : BitVec 8) (s : State) : Ans := .next (s.seharOp k longForm fun x => x.runStore d x.here.sw)

/-- MTSW (R450, R460). -/
def execSMtsw (k : Nat) (d : BitVec 8) (s : State) : Ans :=
  .next (s.seharOp k { privileged := true } fun x => x.moveTo d (.sw x.cur) id)

/-- MFLR (R450). -/
def execSMflr (k : Nat) (d : BitVec 8) (s : State) : Ans := .next (s.seharOp k longForm fun x => x.runStore d x.here.lr)

/-- MTLR (R450). -/
def execSMtlr (k : Nat) (d : BitVec 8) (s : State) : Ans := .next (s.seharOp k longForm fun x => x.moveTo d (.lr x.cur) id)

/-- MFWP (R450). -/
def execSMfwp (k : Nat) (d : BitVec 8) (s : State) : Ans := .next (s.seharOp k longForm fun x => x.runStore d x.here.wp)

/-- MTWP (R440, R450, R460): bits [5:0] are ignored. -/
def execSMtwp (k : Nat) (d : BitVec 8) (s : State) : Ans :=
  .next (s.seharOp k { privileged := true } fun x => x.moveTo d (.wp x.cur) fun v => v &&& 0xFFC0)

/-! ### Contexts (R450, R479) -/

/-- SWAP (R479). -/
def execSSwap (k : Nat) (s : State) : Ans :=
  .next (s.attempt k { cost := 4, privileged := true, repeatable := false } fun t => .ok { st := t, after := .swap })

/-- IDLE (R450, R491). -/
def execSIdle (k : Nat) (s : State) : Ans :=
  .next (s.attempt k { cost := 4, privileged := true } fun t => .ok { st := t, after := .sleep .idle })

/-- SYNC (R450). -/
def execSSync (k : Nat) (s : State) : Ans := .next (s.attempt k { cost := 4 } fun t => .ok { st := t.settleAll k })

/-! ### Releases of stakes (R502, R505) -/

/-- A context's earlier I/O writes have taken effect: time has passed for every write under way (R505). -/
def State.settleIo (s : State) (k c : Nat) : State :=
  let io (d : Delayed) : Bool := match d.target with
    | .io c' _ => c' = c
    | _ => false
  if (s.core k).delayed.any io then s.settleAll k else s

/-- STAKE_RELEASE_WRITE (R502, R505): after the context's earlier I/O writes. -/
def execStakeReleaseWrite (k : Nat) (s : State) : Ans :=
  .next (
    let c := (s.core k).cur
    if k < 49 && s.mayAccess k then (s.settleIo k c).writeStkRel k c else s)

/-! ### Interrupts and the watchdog (R491) -/

/-- A permitted point for an interrupt (R457, R462). -/
def Ctx.atBoundary (y : Ctx) : Bool := y.delay.isNone && !y.rptFirst

/-- The lowest pending enabled source. -/
def Core.irqSource (x : Core) : Option Nat := (List.range 16).find? fun i => (x.irqPend &&& x.irqMask).getLsbD i

/-- The suspension of a context lets an interrupt in: a stake read is answered first (R505). -/
def Ctx.mayInterrupt (y : Ctx) : Bool := y.ie && !y.exl && match y.suspended with
  | some (.stake _ _) => false
  | some _ => !y.rptFirst
  | none => y.atBoundary

/-- INTERRUPT (R491): SYS_IRQ_CTX takes the lowest pending enabled source with an exception entry; the core switches to
it at the cost of a SWAP. -/
def execInterrupt (k : Nat) (s0 : State) : Ans :=
  .next (
    let s := s0.settle k
    let x := s.core k
    let c := x.irqCtx.toNat
    match x.irqSource with
    | none => s0
    | some src =>
      if 50 ≤ k || x.halted || x.inReset || x.gated || coreContexts k ≤ c || !x.ready.getLsbD c || !(x.ctx c).mayInterrupt ||
          !(x.stalled || x.here.atBoundary) then s0
      else
        let x1 : Core := if c = x.cur && !x.stalled then x else { x with cur := c, cycle := x.cycle + 4, stalled := false }
        (s.setCore k x1).raise k c { cause := 0x0E, detail := src })

/-- WATCHDOG (R491): at the next user-mode instruction boundary. -/
def execWatchdog (k : Nat) (s0 : State) : Ans :=
  .next (
    let s := s0.settle k
    let x := s.core k
    if !(k < 50 && x.running) || !x.here.watchdogFirst then s0
    else (s.modCtx k x.cur fun y => { y with wdogDue := false }).raise k x.cur { cause := 0x0C })

/-! ### Reserved encodings (R451) -/

/-- A reserved encoding (R451), but for what a delay slot forbids: no instruction has it. -/
def isReserved (w1 w2 : Word) : Bool := (Sys2Proof.decodeSehar w1 w2).isNone

/-- RESERVED_ENCODING (R451, R476): RESERVED-OPCODE, for the handler to emulate. -/
def execReservedEncoding (k : Nat) (w1 w2 : Word) (s : State) : Ans :=
  .next (
    if isReserved w1 w2 then s.attempt k { isReserved := true } fun t => .ok { st := t }
    else s)

/-! ### EXEC (R214, R215) -/

/-- Fields of an EXEC leg. -/
def execImage (l : List Byte) : Nat := bufPos (legOperand l)
def execWords (l : List Byte) : Nat := fieldAt l 24 2
def execEntry (l : List Byte) : Nat := fieldAt l 26 2
def execLimit (l : List Byte) : Nat := fieldAt l 28 4

/-- A table without the keys from `lo` to `hi`, then words from `lo`. -/
def loadWords (t : Tab Word) (lo hi : Nat) (ws : List Word) : Tab Word :=
  (List.range ws.length).foldl (fun (t : Tab Word) i => t.set (lo + i) (ws.getD i 0))
    (t.filter fun e => !(decide (lo ≤ e.1) && decide (e.1 ≤ hi)))

/-- Addresses outside a range that has been written. -/
def outside (l : List Nat) (lo hi : Nat) : List Nat := l.filter fun a => !(decide (lo ≤ a) && decide (a ≤ hi))

/-- The routine's context (R215): flags, IE and LR are left open, so they are free values. SYS_WDOG takes LIMIT; what its
16 bits cannot hold follows it (log 42). -/
def Ctx.startExec (y : Ctx) (l : List Byte) (free : Word) (lr : Word) : Ctx :=
  { y.setSw free with
    s := false, pc := BitVec.ofNat 16 (0x8000 + execEntry l), wp := 0xBFC0, lr, ubase := 0xA000, ulim := 0xBFFF
    wdog := BitVec.ofNat 16 (Nat.min (execLimit l) 65535), wdogMore := execLimit l - 65535, wdogCycles := 0
    wdogDue := false, exl := false, rpt := none
    rptFirst := false, delay := none, suspended := none, gate := none, bd := false, rpta := false }

/-- Data that cannot be copied (R215): the image is loaded and D-space zeroed; what of the data the copy left there is
free. -/
def State.spoilExec (s0 : State) (k : Nat) (t : Trv) : State :=
  let l := t.leg
  let s := s0.settleAll k
  let image := toWords (s.readBuf (execImage l) (2 * execWords l))
  let n := legLen l / 2
  let s1 := s.modCore k fun x => { x with
    imem := loadWords x.imem 0x8000 0xFFFF image, iParity := outside x.iParity 0x8000 0xFFFF
    dmem := loadWords x.dmem 0xA000 0xBFFF ((List.range n).map fun i => Config.freeWord (s.fresh + i))
    dParity := outside x.dParity 0xA000 0xBFFF }
  ({ s1 with fresh := s1.fresh + n } : State).legDone t { status := stFetchPoison }

/-- EXEC's image and data loaded and the routine entered (R215). -/
def State.startExec (s : State) (k c : Nat) (t : Trv) : State :=
  let l := t.leg
  let n := legLen l
  let image := toWords (s.readBuf (execImage l) (2 * execWords l))
  let data := toWords (s.readBuf (bufPos (legAddr l)) n)
  let s1 := s.settleAll k
  let free := Config.freeWord s.fresh
  let lr := Config.freeWord (s.fresh + 1)
  let s2 := s1.modCore k fun x =>
    let d := ((loadWords x.dmem 0xA000 0xBFFF data).set 0xBFC0 (BitVec.ofNat 16 (n / 2))).set 0xBFFF 0xBFC0
    ({ x with imem := loadWords x.imem 0x8000 0xFFFF image, iParity := outside x.iParity 0x8000 0xFFFF
              dmem := d, dParity := outside x.dParity 0xA000 0xBFFF, exec := some (t.port, t.tag), cur := c, stalled := false,
              ready := x.ready ||| BitVec.ofNat 32 (2 ^ c) } : Core).setCtx c ((x.ctx c).startExec l free lr)
  ({ s2 with fresh := s2.fresh + 2 } : State).putTrv { t with stage := .awaiting }

/-- EXEC (R214, R215): one at a time on an engine; poison in the image or the data ends it FETCH-POISON, with LEG_INFO as it
was and residual 0, and an image with poison leaves user I-space as it was: DESIGN CHOICES (log 41), R215 and R216 give no
values. -/
def execLegExec (p tag : Nat) (s : State) : Ans :=
  .next (s.perform p tag 0x46 fun t =>
    match t.bound with
    | none => s
    | some (k, c) =>
      let x := s.core k
      let n := legLen t.leg
      if x.exec.isSome || x.halted || x.inReset || x.gated then s
      else s.whenReadable (execImage t.leg) (2 * execWords t.leg) fun s =>
        if s.poisoned (execImage t.leg) (2 * execWords t.leg) then s.legDone t { status := stFetchPoison }
        else s.whenReadable (bufPos (legAddr t.leg)) n fun s =>
          if n ≠ 0 && s.poisoned (bufPos (legAddr t.leg)) n then s.spoilExec k t else s.startExec k c t)

end Sys2Proof.Machine
end

