-- ==== Sys2Proof/Machine/Registers.lean ====
section
/-! DEFINITION. BAR0 of a host port: which offsets are registers, what they read, what writes of them do (R15 to R19,
R61 to R69, R80, R83 to R88, R498, R499, R510, R512, R529, R555, R601). -/

namespace Sys2Proof.Machine

/-! ### Which dwords are registers (R61) -/

/-- A dword of the apportionment view (R80). -/
def isViewReg (off : Nat) : Bool :=
  off < 0x14 || (0x20 ≤ off && off < 0x38) || (0x40 ≤ off && off < 0x58) || (0x100 ≤ off && off < 0x400)

/-- A dword of queue control block `q` (R81 to R88). -/
def Port.isQueueReg (x : Port) (q off : Nat) : Bool :=
  (off < 0x18 && q < x.ap.sqCount) || (0x80 ≤ off && off < 0x98 && q < x.ap.cqCount)

/-- A dword of a mailbox's window (R499). -/
def isMbReg (off : Nat) : Bool := off < 0x94

/-- A dword of the metering view (R529). -/
def isMonReg (off : Nat) : Bool :=
  off < 0x10 || (0x100 ≤ off && off < 0x4B8) || (0x500 ≤ off && off < 0x8B8) || (0x900 ≤ off && off < 0x940) ||
  (0x1000 ≤ off && off < 0x3020)

/-- The dword at a BAR0 offset of port `p` is a register; recovery mode leaves DEV_IDENT and FN_STAT (R555). -/
def State.isReg (s : State) (p off : Nat) : Bool :=
  match s.mode with
  | .recovery _ => off < 0x8 || off = 0x0C
  | _ =>
    off < 0x24 || (0x1000 ≤ off && off < 0x2000 && isViewReg (off - 0x1000)) ||
    (0x10000 ≤ off && off < 0x20000 && (s.port p).isQueueReg ((off - 0x10000) / 256) (off % 256)) ||
    (0x20000 ≤ off && off < 0x21010) || (0x22000 ≤ off && off < 0x22028) ||
    (0x30000 ≤ off && off < 0x30400 && isMbReg (off % 256)) || off = 0x30400 || off = 0x30404 ||
    (0x40000 ≤ off && off < 0x40100 && s.manage.principal = some p && isMbReg (off % 256)) ||
    (0x100000 ≤ off && off < 0x100018) || (0x101000 ≤ off && off < 0x101008) || (0x101010 ≤ off && off < 0x101030) ||
    (0x200000 ≤ off && off < 0x204000 && isMonReg (off - 0x200000))

/-- An access of BAR0 touches a reserved offset: its width or alignment is none of R62's, FB_READ is not read whole, or
one of its dwords is no register. -/
def State.barReserved (s : State) (p off width : Nat) : Bool :=
  !(width = 4 || width = 8) || off % width ≠ 0 || (width = 4 && off / 8 = 0x100000 / 8) || !s.isReg p off ||
  (width = 8 && !s.isReg p (off + 4))

/-! ### What they read -/

/-- FN_STAT (R66). -/
def State.fnStat (s : State) (p : Nat) : Nat :=
  b2n (s.port p).ready * 2 ^ 31 + b2n (s.contained p) * 2 ^ 30 + (s.port p).events.toNat

/-- FN_PORTINFO (R68). -/
def State.portInfo (s : State) (p : Nat) : Nat :=
  (s.port p).clkMode * 2 ^ 20 + b2n (s.manage.principal = some p) * 2 ^ 16 + homeQuarter p * 2 ^ 8 + (s.port p).width * 16 + p

/-- Identity and function control. -/
def State.readFn (s : State) (p off : Nat) : Nat :=
  let x := s.port p
  match off with
  | 0x00 => 0xA1000000
  | 0x04 => 0x4B560960
  | 0x08 => b2n x.bar4En * 2 ^ 8 + x.evtEn.toNat
  | 0x0C => s.fnStat p
  | 0x10 => x.fnEpoch.toNat
  | 0x14 => s.devEpoch.toNat
  | 0x18 => x.unclaimed.toNat
  | 0x1C => s.portInfo p
  | 0x20 => x.bar4Base.toNat
  | _ => 0

/-- The apportionment view (R80). -/
def Port.readView (x : Port) (off : Nat) : Nat :=
  let a := x.ap
  match off with
  | 0x00 => a.gen.toNat
  | 0x04 => a.cqCount * 2 ^ 16 + a.sqCount
  | 0x08 => a.trvQuota
  | 0x0C => a.keys
  | 0x10 => a.bar4Log2 * 2 ^ 16 + a.share
  | 0x30 => a.shelves.toNat % 2 ^ 32
  | 0x34 => a.shelves.toNat / 2 ^ 32
  | _ =>
    if off < 0x30 then a.ext.get ((off - 0x20) / 4) 0
    else if off < 0x58 then
      let e := 2 * ((off - 0x40) / 4)
      (a.slots.get e 0).toNat + (a.slots.get (e + 1) 0).toNat * 2 ^ 16
    else
      let w := (off - 0x100) / 4
      ((a.drives.get (w / 16) 0).toNat / 2 ^ (32 * (w % 16))) % 2 ^ 32

/-- A queue control block (R83 to R88). -/
def State.readQueue (s : State) (p q off : Nat) : Nat :=
  let x := s.port p
  let y := x.sq q
  let z := x.cq q
  match off with
  | 0x00 => y.base.toNat % 2 ^ 32
  | 0x04 => y.base.toNat / 2 ^ 32
  | 0x08 => b2n y.en * 2 ^ 31 + y.cqid * 2 ^ 16 + y.log2
  | 0x0C => b2n (s.sqIdle p q) * 2 ^ 31 + b2n y.scanning * 2 ^ 30 + b2n y.invBusy * 2 ^ 29 + b2n y.fenced * 2 ^ 28 +
      b2n (y.scanning && x.admStall q) * 2 ^ 27 + b2n y.fieldRefused * 2 ^ 16 + y.head
  | 0x14 => y.invHead
  | 0x80 => z.base.toNat % 2 ^ 32
  | 0x84 => z.base.toNat / 2 ^ 32
  | 0x88 => b2n z.en * 2 ^ 31 + z.coal * 2 ^ 24 + z.vector * 2 ^ 16 + z.log2
  | 0x8C => b2n (s.cqIdle p q) * 2 ^ 31 + b2n z.stalled * 2 ^ 30 + b2n z.badHead * 2 ^ 29 + b2n z.fieldRefused * 2 ^ 28 + z.tail
  | 0x90 =>
    let c := x.coalSet q
    b2n (x.vec q).expert * 2 ^ 31 + c.2 * 2 ^ 16 + c.1
  | 0x94 => z.head * 2 ^ 16 + Nat.min z.waiting.length 0xFFFF
  | _ => 0

/-- The MSI-X table and PBA (R69). -/
def Port.readMsix (x : Port) (off : Nat) : Nat :=
  if off < 0x22000 then
    let e := x.msix.get ((off - 0x20000) / 16) {}
    match off % 16 with
    | 0 => e.addr.toNat % 2 ^ 32
    | 4 => e.addr.toNat / 2 ^ 32
    | 8 => e.data.toNat
    | _ => b2n e.masked
  else (List.range 32).foldl (fun n i => n + b2n (decide (8 * (off - 0x22000) + i ∈ x.pba)) * 2 ^ i) 0

/-- The word of a mailbox's window: requests `i`, replies `j` (R499). -/
def State.readMbWindow (s : State) (i j off : Nat) : Nat :=
  let a := s.mailbox i
  let b := s.mailbox j
  let pair := fun (m : Mailbox) (w : Nat) => (m.words.get w 0).toNat + (m.words.get (w + 1) 0).toNat * 2 ^ 16
  if off < 0x40 then pair a (off / 2)
  else if off < 0x80 then pair b ((off - 0x40) / 2)
  else match off with
    | 0x80 => b2n a.full * 2 ^ 31 + b2n a.collision * 2 ^ 30 + b2n a.fieldRefused * 2 ^ 29 + a.len
    | 0x88 => b2n b.full * 2 ^ 31 + b.len
    | 0x90 => b2n a.wake
    | _ => 0

/-- Field book and telemetry registers (R510, R512, R601); FB_READ is the command FB_READ's. -/
def State.readBook (s : State) (p off : Nat) : Nat :=
  let b := (s.port p).book
  match off with
  | 0x100008 => b.rstat
  | 0x10000C => b.words.length
  | 0x100010 => b.lost.toNat
  | 0x101000 => s.devMs % 2 ^ 32
  | 0x101004 => (s.telemetryHigh p none).toNat
  | _ =>
    if off < 0x101010 then 0
    else
      let q := (off - 0x101010) / 8
      if off % 8 = 0 then (s.telemetry (some q)).toNat % 2 ^ 32 else (s.telemetryHigh p (some q)).toNat

/-- A dword of a byte string. -/
def dwordAt (l : List Byte) (i : Nat) : Nat := fieldAt l i 4

/-- A 20-digit packed-decimal count in 16 bytes, least significant digits first (R529). -/
def countBytes (n : Nat) : List Byte :=
  ((List.range 10).map fun i => BitVec.ofNat 8 (n / 100 ^ i % 10 + 16 * (n / 100 ^ i / 10 % 10))) ++ List.replicate 6 0

/-- The metering view of port `p` (R529). -/
def State.readMon (s : State) (p off : Nat) : Nat :=
  let v := s.view
  match off with
  | 0x0 => b2n v.valid * 2 ^ 31 + b2n v.slot * 2 ^ 30 + b2n v.sealedRec * 2 ^ 29 + b2n v.tamper * 2 ^ 28 + b2n v.down * 2 ^ 27
  | 0x4 => v.seq.toNat
  | 0x8 => (s.port p).recon.toNat
  | 0xC => v.infoSeq.toNat
  | _ =>
    if off < 0x500 then dwordAt v.slot0 (off - 0x100)
    else if off < 0x900 then dwordAt v.slot1 (off - 0x500)
    else if off < 0x1000 then dwordAt v.publicKey (off - 0x900)
    else
      let i := (off - 0x1000) / 16
      dwordAt (countBytes (v.info.get (514 * p + i) 0)) (off % 16)

/-- The dword a register of BAR0 holds (R61); a reserved one reads 0 (R17). -/
def State.readBar0 (s : State) (p off : Nat) : BitVec 32 :=
  BitVec.ofNat 32 (
    if !s.isReg p off then 0
    else if off < 0x1000 then s.readFn p off
    else if off < 0x2000 then (s.port p).readView (off - 0x1000)
    else if off < 0x20000 then s.readQueue p ((off - 0x10000) / 256) (off % 256)
    else if off < 0x30000 then (s.port p).readMsix off
    else if off = 0x30400 then (s.port p).hdb.toNat
    else if off = 0x30404 then (s.port p).hdbEn.toNat
    else if off < 0x40000 then s.readMbWindow (4 * p + (off - 0x30000) / 256) (32 + 4 * p + (off - 0x30000) / 256) (off % 256)
    else if off < 0x100000 then s.readMbWindow instSecureReq instSecureRpl (off % 256)
    else if off < 0x200000 then s.readBook p off
    else if (s.port p).viewOff then (if off = 0x200000 then b2n (s.port p).viewDown * 2 ^ 27 else 0)
    else s.readMon p (off - 0x200000))

/-! ### What writes do -/

/-- A dword of identity and function control written (R65 to R67). -/
def State.writeFn (s : State) (p off : Nat) (v : BitVec 32) : State :=
  let x := s.port p
  match off with
  | 0x08 =>
    if v.getLsbD 8 && x.bar4Log2 = 0 then s.fnRefused p
    else s.setPort p { x with bar4En := v.getLsbD 8, evtEn := v.setWidth 6 }
  | 0x0C => s.setPort p { x with events := x.events &&& ~~~v.setWidth 6 }
  | 0x18 => s.setPort p { x with unclaimed := x.unclaimed &&& ~~~v }
  | 0x20 => s.setPort p { x with bar4Base := v.setWidth 22 }
  | _ => s

/-- Half of a ring's base; refused while the queue is enabled (R83). -/
def putBase (base : BitVec 64) (hi : Bool) (v : BitVec 32) : BitVec 64 :=
  (if hi then v ++ base.setWidth 32 else base.extractLsb' 32 32 ++ v) &&& ~~~0xFFF

/-- A dword of a queue control block written (R83 to R88). -/
def State.writeQueue (s : State) (p q off : Nat) (v : BitVec 32) : State :=
  let x := s.port p
  let y := x.sq q
  let z := x.cq q
  match off with
  | 0x08 => s.writeSqCfg p q v
  | 0x0C => s.setPort p (x.setSq q { y with fieldRefused := y.fieldRefused && !v.getLsbD 16 })
  | 0x10 => s.writeSqInv p q v
  | 0x88 => s.writeCqCfg p q v
  | 0x8C => s.setPort p (x.setCq q { z with
      badHead := z.badHead && !v.getLsbD 29, fieldRefused := z.fieldRefused && !v.getLsbD 28 })
  | 0x90 => s.writeVecCoal p q v
  | _ =>
    if off < 0x8 then (if y.en then s.sqRefused p q else s.setPort p (x.setSq q { y with base := putBase y.base (off = 4) v }))
    else if 0x80 ≤ off && off < 0x88 then
      (if z.en then s.cqRefused p q else s.setPort p (x.setCq q { z with base := putBase z.base (off = 0x84) v }))
    else s

/-- A dword of the MSI-X table written (R69, PCI Express Base 5.0). -/
def Port.writeMsix (x : Port) (off : Nat) (v : BitVec 32) : Port :=
  let i := (off - 0x20000) / 16
  let e := x.msix.get i {}
  let e1 : MsixEntry := match off % 16 with
    | 0 => { e with addr := e.addr.extractLsb' 32 32 ++ (v &&& ~~~3) }
    | 4 => { e with addr := v ++ e.addr.setWidth 32 }
    | 8 => { e with data := v }
    | _ => { e with masked := v.getLsbD 0 }
  if off < 0x22000 then { x with msix := x.msix.set i e1 } else x

/-- A dword of a mailbox's window written: `m` the mailbox, `i` its request instance (R494, R499). -/
def State.writeMbWindow (s : State) (p m i off : Nat) (v : BitVec 32) : State :=
  if off = 0 then s.mbWord0 (.port p) i v
  else if off < 0x40 then
    s.modMailbox i fun b => (b.putWord (off / 2) (v.setWidth 16)).putWord (off / 2 + 1) (v.extractLsb' 16 16)
  else match off with
    | 0x80 => s.modMailbox i fun b => { b with
        collision := b.collision && !v.getLsbD 30, fieldRefused := b.fieldRefused && !v.getLsbD 29 }
    | 0x84 => s.mbReqPost p m v
    | 0x8C => s.mbRplRel p m v
    | 0x90 => s.mbSetWake i (v.getLsbD 0)
    | _ => s

/-- Bits of MB_HDB a port has (R499). -/
def State.hdbMask (s : State) (p : Nat) : BitVec 32 := if s.manage.principal = some p then 0x1F1F else 0x0F0F

/-- A dword register of BAR0 written; RO registers ignore it (R15). -/
def State.writeBar0 (s : State) (p off : Nat) (v : BitVec 32) : State :=
  if off < 0x1000 then s.writeFn p off v
  else if off < 0x10000 then s
  else if off < 0x20000 then s.writeQueue p ((off - 0x10000) / 256) (off % 256) v
  else if off < 0x30000 then s.modPort p fun x => x.writeMsix off v
  else if off = 0x30400 then s.modPort p fun x => { x with hdb := x.hdb &&& ~~~v }
  else if off = 0x30404 then s.modPort p fun x => { x with hdbEn := v &&& s.hdbMask p }
  else if off < 0x40000 then s.writeMbWindow p ((off - 0x30000) / 256) (4 * p + (off - 0x30000) / 256) (off % 256) v
  else if off < 0x100000 then s.writeMbWindow p 4 instSecureReq (off % 256) v
  else if off = 0x100010 then s.modPort p fun x => { x with book := { x.book with lost := x.book.lost &&& ~~~v } }
  else if off = 0x100014 then s.clearBook (.port p) v
  else s

/-- REGISTER_WRITE (R15 to R19, R62): by a host port to an offset of BAR0, the lower register of two first, or by the
running context of a Sehar core to an I/O port, after its earlier I/O writes (R505). -/
def execRegisterWrite (by_ : Sender) (addr width : Nat) (v : BitVec 64) (s : State) : Ans :=
  .next (match by_ with
    | .core k c => if s.mayAccess k && (s.core k).cur = c then (s.settleIo k c).ioWrite k c (addr % 4096) (v.setWidth 16) else s
    | .port p =>
      let s0 := s.hostTlp p 0 (tlpBytes addr width)
      if !s.reachable p then s0
      else if s.barReserved p addr width then s0.unclaimed p
      else
        let s1 := s0.writeBar0 p addr (v.setWidth 32)
        if width = 8 then s1.writeBar0 p (addr + 4) (v.extractLsb' 32 32) else s1)

/-- An offset of BAR2 without a doorbell (R63); a doorbell of a queue the port does not hold counts as well, and in
recovery mode every offset (R555). -/
def State.bar2Reserved (s : State) (p off width : Nat) : Bool :=
  let x := s.port p
  s.recovering || !((width = 4 || width = 8) && off % 8 = 0 &&
    ((off < 0x80000 && off / 8 < x.ap.sqCount) || (0x80000 ≤ off && (off - 0x80000) / 8 < x.ap.cqCount)))

/-- RESERVED_OFFSET_ACCESS (R17, R63): a read returns 0; the access is counted, but a read in BAR2 is not. -/
def execReservedOffsetAccess (p bar offset width : Nat) (write : Bool) (s : State) : Ans :=
  .next (
    let s0 := if write then s.hostTlp p 0 (tlpBytes offset width) else s
    let zero := fun (t : State) =>
      if write then t else (t.hostTlp p 1 (tlpBytes offset width)).emit (.readData (List.replicate width 0) false)
    if !s.reachable p then s0
    else if bar = 0 then (if s.barReserved p offset width then zero (s0.unclaimed p) else s0)
    else if bar = 2 then
      (if !write then zero s0 else if s.bar2Reserved p offset width then s0.unclaimed p else s0)
    else s0)

end Sys2Proof.Machine
end

