-- ==== Sys2Proof/Machine/Services.lean ====
section
/-! DEFINITION. Messages a port sends through its mailboxes: shelf parameters and queries, chain queries, span
accumulators, the extent allocator (R245, R276, R376, R377, R403 to R407). -/

namespace Sys2Proof.Machine

/-- The words of a message from index `n` on, which are reserved, are zero. -/
def Service.restZero (v : Service) (n : Nat) : Bool := (v.words.drop n).all (· == 0)

/-! ### Shelves and chains (R245, R276, R501) -/

/-- A message about shelf or chain `i` of `n`: INVALID for a number past the last, NOT-PRINCIPAL without the ownership
asked for, which the secure mailbox waives. -/
def State.servedFor (s : State) (code i n : Nat) (owns : Nat → Bool) (f : Service → State) : State :=
  match s.serving code with
  | none => s
  | some v =>
    if n ≤ i then s.answer [3]
    else match v.port with
      | some p => if owns p then f v else s.answer [2]
      | none => f v

/-- The number a message names in word 1. -/
def State.serviceIndex (s : State) : Nat := (s.service.head?.map fun v => v.word 1).getD 0

/-- Step `i` of a parameter block. -/
def blockStep (b : List Byte) (i : Nat) : SpinStep :=
  let at_ := 16 + 20 * i
  { offset := fieldAt b at_ 2, method := byteAt b (at_ + 2),
    slots := (List.range 96).filter fun j => bitN (byteAt b (at_ + 4 + j / 8)) (j % 8) }

/-- The steps of a parameter block follow the rules of R245. -/
def blockStepsOk (b : List Byte) : Bool :=
  let n := byteAt b 14
  let steps := (List.range n).map (blockStep b)
  1 ≤ n && n ≤ 24 &&
  ((List.range n).all fun i => byteAt b (19 + 20 * i) = 0 && zeroAt b (32 + 20 * i) 4 &&
    (i = 0 || (blockStep b (i - 1)).offset ≤ (blockStep b i).offset)) &&
  (steps.all fun st => st.offset ≤ 6000 && (st.method = 1 || st.method = 2) && st.slots ≠ []) &&
  decide (steps.flatMap (·.slots)).Nodup

/-- A parameter block R245 accepts at the levels of the functions its parts belong to. -/
def State.blockOk (s : State) (b : List Byte) : Bool :=
  let parts := byteAt b 12
  parts < 4 && byteAt b 13 < 2 && byteAt b 15 = 0 && zeroAt b 496 16 &&
  (!bitN parts 0 || s.manage.outing.expertChoice) &&
  (if bitN parts 1 then s.manage.outing.expertSpin && blockStepsOk b else byteAt b 14 = 0)

/-- The parts a parameter block holds are taken; a shelf that no port owns keeps its derived values (R245). -/
def State.takeBlock (s : State) (sh : Nat) (b : List Byte) : State :=
  let parts := byteAt b 12
  let w : BitVec 96 := BitVec.ofNat 96 (fieldAt b 0 12)
  let steps := (List.range (byteAt b 14)).map (blockStep b)
  if !((List.range 8).any fun p => s.ownsShelf p sh) then s else s.modShelf sh fun x => { x with
    windowNext := if bitN parts 0 then some (some (w, bitN (byteAt b 13) 0)) else x.windowNext
    steps := if bitN parts 1 then some steps else x.steps }

/-- SHELF_PARAM (R245): the block lies in an extent of the port, for the secure mailbox the administrative port's
(R501); a stack that sleeps wakes first (R38). -/
def execShelfParam (s : State) : Ans :=
  .next (
    let sh := s.serviceIndex
    s.servedFor 0x0601 sh 48 (fun p => s.ownsShelf p sh) fun v =>
      let a := v.quad 2
      let owned := match (match v.port with | some p => some p | none => s.manage.principal) with
        | some p => s.portRange p a 512
        | none => false
      if !owned || a.toNat % 64 ≠ 0 then s.answer [3]
      else s.whenReadable (bufPos a) 512 fun s =>
        let b := s.readBuf (bufPos a) 512
        if !s.blockOk b then s.answer [3] else (s.takeBlock sh b).answer [0])

/-- SHELF_QUERY (R245). -/
def execShelfQuery (s : State) : Ans :=
  .next (
    let sh := s.serviceIndex
    s.servedFor 0x0602 sh 48 (fun p => s.mayBook p sh) fun _ =>
      let x := s.shelf sh
      s.answer ([0, x.state.code, Nat.min x.basket.length 0xFFFF, s.work sh, x.faults] ++
        twoWords ((s.devMs - x.since) / 1000)))

/-- SHELF_RESTORE (R229, R245). -/
def execShelfRestore (s : State) : Ans :=
  .next (
    let sh := s.serviceIndex
    s.servedFor 0x0603 sh 48 (fun p => s.ownsShelf p sh) fun _ =>
      if (s.shelf sh).state ≠ .retired then s.answer [3]
      else ((s.modShelf sh fun x => { x with faults := 0 }).enterShelf sh .dark 0x0F 0).answer [0])

/-- Lanes of a port that are up, as bits. -/
def SasPort.lanesUp (x : SasPort) : List Nat := (List.range 4).filter fun l => (x.lanes.get l {}).up

/-- CHAIN_QUERY (R276): uncorrectable codewords that brought no lane to its threshold reach the model by no command, so a free
number of them joins the count. -/
def execChainQuery (s : State) : Ans :=
  .next (
    let c := s.serviceIndex
    s.servedFor 0x0701 c 12 (fun p => p ∈ s.chainPorts c) fun _ =>
      let x := s.chain c
      let rate := match x.lanesUp with
        | l :: _ => (x.lanes.get l {}).rate
        | [] => 3
      let out := Nat.min x.cmds.length 4096
      let fec := Nat.min (x.fec + Config.freeNat s.fresh) (2 ^ 32 - 1)
      let s1 : State := ({ s with fresh := s.fresh + 1 } : State).modChain c fun y => { y with fec }
      let rec_ := (s.handles.filter fun h => h.1 / 512 = c && h.2.recovery.isSome).length
      let dead := ((List.range 4).filter fun l => (x.lanes.get l {}).disabled).foldl (fun m l => m + 2 ^ l) 0
      s1.answer ([0, rate * 64 + x.lanesUp.foldl (fun m l => m + 2 ^ l) 0, out, rec_] ++
        twoWords fec ++ twoWords (Nat.min x.linkResets (2 ^ 32 - 1)) ++ [dead]))

/-! ### Span accumulators (R376, R377) -/

/-- The index of the first descriptor a condition fails, with the code; `ok` holds of every index below `n`. -/
def firstBad (n code : Nat) (ok : Nat → Bool) : Option (Nat × Nat) :=
  ((List.range n).find? fun i => !ok i).map fun i => (code, i)

/-- An accumulator descriptor read from buffer memory. -/
structure AccDesc where
  addr : Nat
  handle : Nat
  first : Nat
  unit : Nat
  total : Nat
  deriving DecidableEq, Repr

/-- The descriptor at a buffer position. -/
def State.accDesc (s : State) (pos : Nat) : AccDesc :=
  let b := s.readBuf pos 64
  { addr := bufAddr pos, handle := pos / 65536, first := fieldAt b 0 4 % 2 ^ 22, unit := byteAt b 4, total := fieldAt b 16 2 }

/-- The host's fields of a descriptor are in range and its reserved fields zero, and the accumulator lies in the
descriptor's quarter (R375, R376). -/
def State.accDescOk (s : State) (pos : Nat) : Bool :=
  let b := s.readBuf pos 64
  let d := s.accDesc pos
  let len := fieldAt b 20 4
  fieldAt b 0 4 < 2 ^ 22 && byteAt b 7 = 0 && zeroAt b 24 8 && zeroAt b 48 16 && 1 ≤ d.unit && d.unit ≤ 64 &&
  1 ≤ d.total && fieldAt b 18 2 < 2 ^ 13 && len % 4096 = 0 && 4096 ≤ len && len ≤ d.unit * 65536 &&
  d.first / extentsPerQuarter = d.handle / extentsPerQuarter &&
  (d.first + d.unit - 1) / extentsPerQuarter = d.first / extentsPerQuarter

/-- Every extent of the accumulator satisfies `f`. -/
def AccDesc.allExt (d : AccDesc) (f : Nat → Bool) : Bool := (List.range d.unit).all fun i => f (d.first + i)

/-- The accumulators armed in a quarter. -/
def State.armedIn (s : State) (q : Nat) : Nat := (s.accums.filter fun a => a.first / extentsPerQuarter = q).length

/-- Table places descriptors 0 to `i` need in descriptor `i`'s quarter. -/
def State.newPlaces (s : State) (ds : List AccDesc) (i : Nat) : Nat :=
  match ds[i]? with
  | some d => ((ds.take (i + 1)).filter fun e =>
      e.first / extentsPerQuarter = d.first / extentsPerQuarter && !(s.accums.any fun a => a.desc = e.addr)).length
  | none => 0

/-- Two descriptors of a message share an extent. -/
def sharesExtent (ds : List AccDesc) (i : Nat) : Bool :=
  match ds[i]? with
  | some d => (ds.zipIdx).any fun (e, j) => j ≠ i && overlap d.first d.unit e.first e.unit
  | none => false

/-- The refusal of ACCUM-ARM, in the order of R376: code and word 1. -/
def State.armRefusal (s : State) (p pos n : Nat) : Option (Nat × Nat) :=
  let ds := (List.range n).map fun i => s.accDesc (pos + 64 * i)
  let d (i : Nat) : AccDesc := s.accDesc (pos + 64 * i)
  (firstBad n 3 fun i => s.accDescOk (pos + 64 * i)) <|>
  (firstBad n 3 fun i => s.ownsExtent p (d i).handle && (d i).allExt fun h => s.ownsExtent p h) <|>
  (firstBad n 3 fun i => !sharesExtent ds i &&
    !(s.accums.any fun a => a.desc ≠ (d i).addr && overlap a.first a.unit (d i).first (d i).unit)) <|>
  (if s.contained p then some (1, 0xFFFF) else none) <|>
  (firstBad n 4 fun i => !s.reserved (d i).handle && (d i).allExt fun h => !s.reserved h) <|>
  (firstBad n 5 fun i => s.armedIn ((d i).first / extentsPerQuarter) + s.newPlaces ds i ≤ 16384)

/-- The range of extents [first, first + count) of one quarter zeroed and clean (R377, R402). -/
def State.zeroExtents (s : State) (first count : Nat) : State :=
  let lo := extAddr first 0
  let inside (a : Nat) : Bool := lo ≤ a && a < lo + count * 65536
  { s with mem := s.mem.filter fun c => !inside c.1, poison := s.poison.filter fun b => !inside (64 * b)
           flaws := s.flaws.filter fun x => !inside (64 * x.1) }

/-- One accumulator armed (R377). -/
def State.armOne (s : State) (p : Nat) (zero : Bool) (d : AccDesc) : State :=
  let s1 := if zero then s.zeroExtents d.first d.unit else s
  let s2 := (s1.writePhys (d.addr + 5) [1, 0] false).writePhys (d.addr + 8) (leBytes 8 0) false
  { s2 with accums := (s2.accums.filter fun a => a.desc ≠ d.addr) ++
      [({ desc := d.addr, first := d.first, unit := d.unit, port := p, total := d.total } : Accum)] }

/-- The frame of ACCUM messages: count in range, descriptor address of R98 on a 64-byte boundary, word 6 and the
words after it. -/
def Service.accOk (v : Service) (word6 : Nat) : Bool :=
  let a := v.quad 2
  1 ≤ v.word 1 && v.word 1 ≤ 64 && isBufAddr a && bufAddrOk a && a.toNat % 64 = 0 && v.word 6 ≤ word6 && v.restZero 7

/-- ACCUM-ARM with ZERO is about to zero accumulators through the open arbiter (R377): their stacks wake (R418).
Answers whether they are reachable now; until then the message stays at the front of its mailbox. DESIGN CHOICE (log 63). -/
def State.reachArm (s : State) (zero : Bool) (ds : List AccDesc) : State × Bool :=
  if zero then s.reach (ds.map fun d => d.first / extentsPerQuarter).dedup else (s, true)

/-- ACCUM_ARM (R376, R377): every descriptor or none. -/
def execAccumArm (s : State) : Ans :=
  .next (match s.serving 0x0801 with
    | some v =>
      let n := v.word 1
      let pos := bufPos (v.quad 2)
      match v.port with
      | some p =>
        if !v.accOk 1 then s.answer [3, 0xFFFF]
        else s.whenReadable pos (64 * n) fun s => match s.armRefusal p pos n with
          | some (code, i) => s.answer [code, i]
          | none =>
            let ds := (List.range n).map fun i => s.accDesc (pos + 64 * i)
            let (s1, awake) := s.reachArm (v.word 6 = 1) ds
            if awake then (ds.foldl (fun (s : State) d => s.armOne p (v.word 6 = 1) d) s1).answer [0, 0xFFFF] else s1
      | none => s
    | none => s)

/-- The refusal of ACCUM-DISARM, in the order of R376. -/
def State.disarmRefusal (s : State) (p pos n : Nat) : Option (Nat × Nat) :=
  let armed (i : Nat) : Option Accum := s.accums.find? fun a => a.desc = bufAddr (pos + 64 * i)
  let h (i : Nat) : Nat := (pos + 64 * i) / 65536
  (firstBad n 3 fun i => s.ownsExtent p (h i)) <|>
  (firstBad n 3 fun i => (armed i).isSome) <|>
  (if s.contained p then some (1, 0xFFFF) else none) <|>
  (firstBad n 4 fun i => !s.reserved (h i) && match armed i with
    | some a => (List.range a.unit).all fun k => !s.reserved (a.first + k)
    | none => true)

/-- ACCUM_DISARM (R376, R377). -/
def execAccumDisarm (s : State) : Ans :=
  .next (match s.serving 0x0802 with
    | some v =>
      let n := v.word 1
      let pos := bufPos (v.quad 2)
      match v.port with
      | some p =>
        if !v.accOk 0 then s.answer [3, 0xFFFF]
        else match s.disarmRefusal p pos n with
          | some (code, i) => s.answer [code, i]
          | none =>
            s.whenAwake (bufQuarters pos (64 * n)) fun s => ((List.range n).foldl (fun (s : State) i =>
              let a := bufAddr (pos + 64 * i)
              ({ s with accums := s.accums.filter fun x => x.desc ≠ a } : State).writePhys (a + 5) [0] false) s).answer
              [0, 0xFFFF]
      | none => s
    | none => s)

/-! ### The extent allocator (R401 to R406) -/

/-- Gaps between owned runs, from `cur` to `stop`: first handle and length. -/
def gaps : Nat → Nat → List ExtRun → List (Nat × Nat)
  | cur, stop, [] => if cur < stop then [(cur, stop - cur)] else []
  | cur, stop, r :: t =>
    (if cur < r.first then [(cur, r.first - cur)] else []) ++ gaps (Nat.max cur (r.first + r.count)) stop t

/-- The runs of unowned extents of a quarter, by rising handle. -/
def State.freeRuns (s : State) (q : Nat) : List (Nat × Nat) :=
  let owned := (s.extents.filter fun r => r.owner.isSome && decide (r.first / extentsPerQuarter = q)).insertionSort
    fun a b => decide (a.first ≤ b.first)
  gaps (q * extentsPerQuarter) ((q + 1) * extentsPerQuarter) owned

/-- The longest run of unowned extents of a quarter, up to 4,096 (R404, R406). -/
def State.longestRun (s : State) (q : Nat) : Nat :=
  Nat.min 4096 (((s.freeRuns q).map (·.2)).foldl Nat.max 0)

/-- `n` extents from the runs in their order, the last run's lowest handles only; none when they hold too few. -/
def takeRuns : Nat → List (Nat × Nat) → Option (List (Nat × Nat))
  | 0, _ => some []
  | _ + 1, [] => none
  | n + 1, (f, k) :: t =>
    if n + 1 ≤ k then some [(f, n + 1)] else (takeRuns (n + 1 - k) t).map fun l => (f, k) :: l

/-- The runs of `n` extents of a quarter: under CONTIG the first run long enough; else lowest handles first, or with
`longest` the longest runs first (R404). -/
def State.pickRuns (s : State) (q n : Nat) (contig longest : Bool) : Option (List (Nat × Nat)) :=
  let runs := s.freeRuns q
  if contig then (runs.find? fun r => n ≤ r.2).map fun r => [(r.1, n)]
  else if longest then
    (takeRuns n (runs.insertionSort fun a b => decide (b.2 < a.2) || (a.2 = b.2 && decide (a.1 ≤ b.1)))).map
      fun l => l.insertionSort fun a b => decide (a.1 ≤ b.1)
  else takeRuns n runs

/-- The runs of each quarter in turn; the first quarter that fails is named. Runs past 10 in all fail (R404). -/
def State.pickAll (s : State) (n : Nat) (contig longest : Bool) : List Nat → Nat → Except Nat (List (Nat × Nat))
  | [], _ => .ok []
  | q :: t, room =>
    match s.pickRuns q n contig longest with
    | none => .error q
    | some l =>
      if room < l.length then .error q
      else (s.pickAll n contig longest t (room - l.length)).map (l ++ ·)

/-- Extents a port may still take in a quarter. -/
def State.roomIn (s : State) (p q : Nat) : Nat := (s.port p).ap.ext.get q 0 - s.allocated p q

/-- The ranges of a run that are zeroed before it is handed to a port: extents last owned by another port, or all with
ZERO (R402). -/
def State.toZero (s : State) (p : Nat) (zero : Bool) (r : Nat × Nat) : List (Nat × Nat) :=
  if zero then [r]
  else s.extents.filterMap fun x =>
    match x.last with
    | some o =>
      let lo := Nat.max x.first r.1
      let hi := Nat.min (x.first + x.count) (r.1 + r.2)
      if o ≠ p && lo < hi then some (lo, hi - lo) else none
    | none => none

/-- One run handed to a port, zeroed and clean where R402 says so: a range of one quarter each, in a run of its channel 7
(R420). -/
def State.giveRun (s : State) (p : Nat) (zero : Bool) (r : Nat × Nat) : State :=
  ((s.toZero p zero r).foldl (fun (s : State) (f, k) => (s.zeroExtents f k).firmwareRun (8 * (f / extentsPerQuarter) + 7))
    s).setOwner r.1 r.2 (some p) (some p)

/-- Firmware is about to zero ranges of extents: it does so through channel 7 of their quarters (R402, R420), whose
stacks wake (R418). Answers whether the channels are free and the stacks reachable now; until then the message stays at
the front of its mailbox, and the ones behind it wait (R407). DESIGN CHOICE (log 63). -/
def State.reachZero (s : State) (l : List (Nat × Nat)) : State × Bool :=
  let qs := (l.map fun r => r.1 / extentsPerQuarter).dedup
  let (s1, awake) := s.reach qs
  (s1, awake && qs.all fun q => !(s.channel (8 * q + 7)).busy)

/-- A handle in two words. -/
def handleWords (h : Nat) : List Nat := twoWords h

/-- EXT_ALLOC (R403, R404). A request whose extents must be zeroed waits for the stack and the channel (R402). -/
def execExtAlloc (s : State) : Ans :=
  .next (match s.serving 0x0901 with
    | some v =>
      let q := v.word 1
      let count := v.word 2
      let contig := bitN (v.word 3) 0
      let spread := bitN (v.word 3) 2
      match v.port with
      | some p =>
        if 3 < q || count = 0 || 4096 < count || 7 < v.word 3 || (spread && (q ≠ 0 || count % 4 ≠ 0)) || !v.restZero 4 then
          s.answer [3]
        else if s.contained p then s.answer [1]
        else
          let qs := if spread then [0, 1, 2, 3] else [q]
          let n := if spread then count / 4 else count
          let plan : Except Nat (List (Nat × Nat)) := match qs.find? fun q => s.roomIn p q < n with
            | some q => .error q
            | none => match s.pickAll n contig false qs 10 with
              | .ok l => .ok l
              | .error _ => s.pickAll n contig true qs 10
          match plan with
          | .error q => s.answer ([5, 0] ++ twoWords (s.roomIn p q) ++ [s.longestRun q])
          | .ok l =>
            let zero := bitN (v.word 3) 1
            let (s1, free) := s.reachZero (l.flatMap fun r => s.toZero p zero r)
            if free then
              (l.foldl (fun (s : State) r => s.giveRun p zero r) s1).answer
                ([0, l.length] ++ l.flatMap fun r => handleWords r.1 ++ [r.2])
            else s1
      | none => s
    | none => s)

/-- An extent is declared by a live traverse, or holds its header and legs or its status block (R121, R405). -/
def State.extentBusy (s : State) (h : Nat) : Bool :=
  s.trvs.any fun t => (t.modeOf h).isSome || (isBufAddr t.addr && decide (bufPos t.addr / 65536 = h)) ||
    (isBufAddr t.sb && (decide (bufPos t.sb / 65536 = h) || decide ((bufPos t.sb + 255) / 65536 = h)))

/-- EXT_FREE (R403, R405). -/
def execExtFree (s : State) : Ans :=
  .next (match s.serving 0x0902 with
    | some v =>
      let first := v.word 1 + v.word 2 * 65536
      let count := v.word 3
      match v.port with
      | some p =>
        let hs := List.range' first count
        if 0x40 ≤ v.word 2 || count = 0 || 4096 < count || !v.restZero 4 || !(hs.all fun h => s.ownsExtent p h) then
          s.answer [3]
        else if s.contained p then s.answer [1]
        else if hs.any s.extentBusy then s.answer [4]
        else
          ((s.setOwner first count none (some p)).disarmIn fun h => first ≤ h && h < first + count).answer [0]
      | none => s
    | none => s)

/-- EXT_QUERY (R403, R406). -/
def execExtQuery (s : State) : Ans :=
  .next (match s.serving 0x0903 with
    | some v =>
      let q := v.word 1
      match v.port with
      | some p =>
        if 3 < q || !v.restZero 2 then s.answer [3]
        else s.answer ([0] ++ twoWords (s.allocated p q) ++ twoWords ((s.port p).ap.ext.get q 0) ++ [s.longestRun q])
      | none => s
    | none => s)

end Sys2Proof.Machine
end

