-- ==== Sys2Proof/Machine/SetLevel.lean ====
section
/-! DEFINITION. SET-LEVEL by function: outing choice, shelves per chain, spin-up, link, recovery, timetable, recipes,
stack power, copy (R8 to R10, R243, R244, R274, R275, R308, R360, R418, R419, R431). -/

namespace Sys2Proof.Machine

/-- A SET-LEVEL of a function (R243): `ok` accepts its payload, `f` applies it. -/
def State.klevel (s : State) (src : KilvorSrc) (fn : Nat) (ok : List Byte → Bool) (f : State → List Byte → State) :
    State :=
  s.kfor src 0x06 fun r =>
    if byteAt r.payload 0 ≠ fn then s
    else s.kasked src r (fun b => byteAt b 1 < 2 && zeroAt b 2 2 && 4 ≤ b.length && ok b)
      fun s b => (f s b).kreply src 0 []

/-- The expert level. -/
def isExpert (b : List Byte) : Bool := byteAt b 1 = 1

/-- A field within its range. -/
def fieldIn (b : List Byte) (off n lo hi : Nat) : Bool := lo ≤ fieldAt b off n && fieldAt b off n ≤ hi

/-- The payload of function 0x10. -/
def outingChoiceOk (b : List Byte) : Bool :=
  b.length = (if isExpert b then 44 else 16) && fieldIn b 4 4 0 3600 && fieldIn b 8 4 30 86400 &&
  fieldIn b 12 4 60 604800 &&
  (!isExpert b || (fieldIn b 16 4 1 3600 && fieldIn b 20 4 10 86400 && fieldIn b 24 1 1 15 && zeroAt b 25 7 &&
    ((List.range 8).all fun p => fieldIn b (32 + p) 1 1 16) && fieldIn b 40 4 0 86399999))

/-- SET_LEVEL_OUTING_CHOICE (R10, R243, R244): at the basic level the expert parameters take their derived values, and the
shelves' windows are discarded; all of it governs from the next choice on each chain. -/
def execSetLevelOutingChoice (src : KilvorSrc) (s : State) : Ans :=
  .next (s.klevel src 0x10 outingChoiceOk fun s b =>
    let o := { s.manage.outing with
      expertChoice := isExpert b, lingerS := fieldAt b 4 4, maxOpenS := fieldAt b 8 4, ageLimitS := fieldAt b 12 4 }
    let o1 := if isExpert b then
        { o with
          drainMaxS := fieldAt b 16 4, faultHoldS := fieldAt b 20 4, retireCount := byteAt b 24
          weights := (List.range 8).map fun p => (p, byteAt b (32 + p)), dayOffset := fieldAt b 40 4 }
      else { o with drainMaxS := 60, faultHoldS := 60, retireCount := 3, weights := [], dayOffset := 0 }
    { s with
      manage := { s.manage with outing := o1 }
      shelves := if isExpert b then s.shelves else Tab.mapVals s.shelves fun x => { x with windowNext := some none } })

/-- SET_LEVEL_SHELVES_PER_CHAIN (R243). -/
def execSetLevelShelvesPerChain (src : KilvorSrc) (s : State) : Ans :=
  .next (s.klevel src 0x11 (fun b => b.length = (if isExpert b then 5 else 4) && (!isExpert b || fieldIn b 4 1 1 2))
    fun s b =>
      let o := { s.manage.outing with expertCount := isExpert b, count := if isExpert b then byteAt b 4 else 1 }
      { s with manage := { s.manage with outing := o } })

/-- SET_LEVEL_SPIN_UP (R10, R243): at the basic level the shelves' steps are discarded. -/
def execSetLevelSpinUp (src : KilvorSrc) (s : State) : Ans :=
  .next (s.klevel src 0x12
    (fun b => b.length = 8 && fieldIn b 4 1 1 96 && byteAt b 5 = 0 && fieldIn b 6 2 5 600) fun s b =>
      let o := { s.manage.outing with expertSpin := isExpert b, group := byteAt b 4, intervalDs := fieldAt b 6 2 }
      { s with
        manage := { s.manage with outing := o }
        shelves := if isExpert b then s.shelves else Tab.mapVals s.shelves fun x => { x with steps := none } })

/-- SET_LEVEL_LINK (R274, R275): chains whose link function changes wait for their port-level reset. -/
def execSetLevelLink (src : KilvorSrc) (s : State) : Ans :=
  .next (s.klevel src 0x20
    (fun b => b.length = (if isExpert b then 16 else 4) && (!isExpert b || (List.range 12).all fun c =>
      let v := byteAt b (4 + c)
      v / 16 ≠ 0 && v / 4 % 4 = 0 && v % 4 ≠ 3)) fun s b =>
      let link : Tab (BitVec 8) :=
        if isExpert b then (List.range 12).map fun c => (c, BitVec.ofNat 8 (byteAt b (4 + c))) else []
      let s1 : State := { s with manage := { s.manage with
        sas := { s.manage.sas with expertLink := isExpert b, chainLink := link } } }
      (List.range 12).foldl (fun (s : State) c => s.modChain c fun x =>
        let v := (s.manage.sas.link c).toNat
        { x with linkPending := v / 16 ≠ x.laneEn.toNat || v % 4 ≠ x.maxRate }) s1)

/-- SET_LEVEL_RECOVERY (R274, R275). -/
def execSetLevelRecovery (src : KilvorSrc) (s : State) : Ans :=
  .next (s.klevel src 0x21
    (fun b => b.length = (if isExpert b then 32 else 6) && fieldIn b 4 2 5 3600 &&
      (!isExpert b || (fieldIn b 6 2 1 60 && fieldIn b 8 2 100 10000 && fieldIn b 10 1 0 64 && byteAt b 11 = 0 &&
        fieldIn b 12 2 1 1000 && fieldIn b 14 2 1 256 && (List.range 8).all fun p => fieldIn b (16 + 2 * p) 2 5 3600)))
    fun s b =>
      let r := { s.manage.sas with expertRecovery := isExpert b, cmdTimeoutS := fieldAt b 4 2 }
      let r1 := if isExpert b then
          { r with
            tmfTimeoutS := fieldAt b 6 2, nexusLossMs := fieldAt b 8 2, busyRetries := byteAt b 10
            retryDelayMs := fieldAt b 12 2, handleDepth := fieldAt b 14 2
            portTimeoutS := (List.range 8).map fun p => (p, fieldAt b (16 + 2 * p) 2) }
        else { r with
          tmfTimeoutS := 10, nexusLossMs := 2000, busyRetries := 8, retryDelayMs := 20, handleDepth := 64
          portTimeoutS := [] }
      { s with manage := { s.manage with sas := r1 } })

/-- SET_LEVEL_TIMETABLE (R308): the expert level keeps the active tables; the basic level arms generated ones. -/
def execSetLevelTimetable (src : KilvorSrc) (s : State) : Ans :=
  .next (s.klevel src 0x30 (fun b => b.length = 4) fun s b =>
    let t := { s.manage.timetable with expert := isExpert b, staging := false }
    let s1 : State := { s with manage := { s.manage with timetable := t } }
    if isExpert b || !s.manage.timetable.expert then s1 else s1.regenerate)

/-- SET_LEVEL_RECIPES (R360): at the basic level an engine's slots are erased once no store recipe is queued or running
on it; staging is discarded. -/
def execSetLevelRecipes (src : KilvorSrc) (s : State) : Ans :=
  .next (s.klevel src 0x50 (fun b => b.length = 4) fun s b =>
    let expert := isExpert b
    { s with
      manage := { s.manage with recipesExpert := expert }
      engines := Tab.mapVals s.engines fun x =>
        if expert then x else Engine.erased { x with staging := none, eraseSlots := List.range 16 } })

/-- SET_LEVEL_STACK_POWER (R418, R419): a stack in self-refresh that is disabled wakes. -/
def execSetLevelStackPower (src : KilvorSrc) (s : State) : Ans :=
  .next (s.klevel src 0x60
    (fun b => if isExpert b then
        b.length = 8 && byteAt b 4 / 16 = 0 && byteAt b 4 % 2 = 0 && byteAt b 5 = 0 && fieldIn b 6 2 10 60000
      else b.length = 5 && byteAt b 4 < 2) fun s b =>
      let mask := if isExpert b then byteAt b 4 else if byteAt b 4 = 1 then 0x0E else 0
      let s1 : State := { s with manage := { s.manage with
        stackExpert := isExpert b, stackMask := BitVec.ofNat 8 mask, entryMs := if isExpert b then fieldAt b 6 2 else 1000 } }
      (List.range 4).foldl (fun (s : State) q =>
        if !bitN mask q && (s.quarter q).stack = .selfRefresh then s.wakeStack q else s) s1)

/-- SET_LEVEL_COPY (R431). -/
def execSetLevelCopy (src : KilvorSrc) (s : State) : Ans :=
  .next (s.klevel src 0x61
    (fun b => b.length = (if isExpert b then 12 else 4) &&
      (!isExpert b || (List.range 8).all fun p => fieldIn b (4 + p) 1 1 6)) fun s b =>
      { s with manage := { s.manage with
        copyExpert := isExpert b
        copyMax := if isExpert b then (List.range 8).map fun p => (p, byteAt b (4 + p)) else [] } })

end Sys2Proof.Machine
end

