-- ==== Sys2Proof/Machine/Dispatch.lean ====
section
/-! DEFINITION. The effect of every command: one arm per constructor of Instr, each one direct call of its meaning. -/

namespace Sys2Proof.Machine

def exec (i : Instr) (s : State) : Host.Outcome State Fault Refusal :=
  match i with
  | .registerWrite by_ addr width v => Sys2Proof.Machine.execRegisterWrite by_ addr width v s
  | .reservedOffsetAccess p bar offset width write => Sys2Proof.Machine.execReservedOffsetAccess p bar offset width write s
  | .configRequest p write dword v => Sys2Proof.Machine.execConfigRequest p write dword v s
  | .perstNDeassert slot strap => Sys2Proof.Machine.execPerstNDeassert slot strap s
  | .perstNAssert slot => Sys2Proof.Machine.execPerstNAssert slot s
  | .flr p => Sys2Proof.Machine.execFlr p s
  | .d3hotEntry p => Sys2Proof.Machine.execD3hotEntry p s
  | .d3hotToD0 p => Sys2Proof.Machine.execD3hotToD0 p s
  | .dlDown p => Sys2Proof.Machine.execDlDown p s
  | .pcieLinkUp p => Sys2Proof.Machine.execPcieLinkUp p s
  | .uncorrectableFatalError p => Sys2Proof.Machine.execUncorrectableFatalError p s
  | .hostReadCompletion p id r => Sys2Proof.Machine.execHostReadCompletion p id r s
  | .hostReadTimeout p id => Sys2Proof.Machine.execHostReadTimeout p id s
  | .bar4Access p write offset bytes => Sys2Proof.Machine.execBar4Access p write offset bytes s
  | .sqDoorbell p q => Sys2Proof.Machine.execSqDoorbell p q s
  | .cqHeadDoorbell p q h => Sys2Proof.Machine.execCqHeadDoorbell p q h s
  | .sqEnable p q v => Sys2Proof.Machine.execSqEnable p q v s
  | .sqDisable p q v => Sys2Proof.Machine.execSqDisable p q v s
  | .cqEnable p q v => Sys2Proof.Machine.execCqEnable p q v s
  | .cqDisable p q v => Sys2Proof.Machine.execCqDisable p q v s
  | .sqInvWrite p q v => Sys2Proof.Machine.execSqInvWrite p q v s
  | .sqInvalidation p q => Sys2Proof.Machine.execSqInvalidation p q s
  | .cqVecCoalWrite p q v => Sys2Proof.Machine.execCqVecCoalWrite p q v s
  | .scanTurn p => Sys2Proof.Machine.execScanTurn p s
  | .startEntry p => Sys2Proof.Machine.execStartEntry p s
  | .resumeEntry p => Sys2Proof.Machine.execResumeEntry p s
  | .nopEntry p => Sys2Proof.Machine.execNopEntry p s
  | .noteRequest p => Sys2Proof.Machine.execNoteRequest p s
  | .admission => Sys2Proof.Machine.execAdmission s
  | .bind w => Sys2Proof.Machine.execBind w s
  | .stationStart p tag => Sys2Proof.Machine.execStationStart p tag s
  | .legIssue p tag => Sys2Proof.Machine.execLegIssue p tag s
  | .legIssueExt p tag => Sys2Proof.Machine.execLegIssueExt p tag s
  | .legTask p tag => Sys2Proof.Machine.execLegTask p tag s
  | .legEnclosure p tag => Sys2Proof.Machine.execLegEnclosure p tag s
  | .legStageIn p tag => Sys2Proof.Machine.execLegStageIn p tag s
  | .legStageOut p tag => Sys2Proof.Machine.execLegStageOut p tag s
  | .legCopy p tag => Sys2Proof.Machine.execLegCopy p tag s
  | .legRecipe p tag => Sys2Proof.Machine.execLegRecipe p tag s
  | .legFlushSpan p tag => Sys2Proof.Machine.execLegFlushSpan p tag s
  | .legVerify p tag => Sys2Proof.Machine.execLegVerify p tag s
  | .legGather p tag => Sys2Proof.Machine.execLegGather p tag s
  | .legBook p tag => Sys2Proof.Machine.execLegBook p tag s
  | .legRelease p tag => Sys2Proof.Machine.execLegRelease p tag s
  | .legSpin p tag => Sys2Proof.Machine.execLegSpin p tag s
  | .legGoto p tag => Sys2Proof.Machine.execLegGoto p tag s
  | .legTest p tag => Sys2Proof.Machine.execLegTest p tag s
  | .legWait p tag => Sys2Proof.Machine.execLegWait p tag s
  | .legNote p tag => Sys2Proof.Machine.execLegNote p tag s
  | .legPause p tag => Sys2Proof.Machine.execLegPause p tag s
  | .legExec p tag => Sys2Proof.Machine.execLegExec p tag s
  | .legEnd p tag => Sys2Proof.Machine.execLegEnd p tag s
  | .responseParkExpiry p tag => Sys2Proof.Machine.execResponseParkExpiry p tag s
  | .deadlineExpiry p tag => Sys2Proof.Machine.execDeadlineExpiry p tag s
  | .waitDeadlineExpiry p tag => Sys2Proof.Machine.execWaitDeadlineExpiry p tag s
  | .pauseExpiry p tag => Sys2Proof.Machine.execPauseExpiry p tag s
  | .completionReadback p tag ok => Sys2Proof.Machine.execCompletionReadback p tag ok s
  | .collectorRelease frame => Sys2Proof.Machine.execCollectorRelease frame s
  | .completionPost p => Sys2Proof.Machine.execCompletionPost p s
  | .coalesceTimerExpiry p v => Sys2Proof.Machine.execCoalesceTimerExpiry p v s
  | .msixPendingSend p v => Sys2Proof.Machine.execMsixPendingSend p v s
  | .mctpControl path body => Sys2Proof.Machine.execMctpControl path body s
  | .pldmMonitoring path pldmType sensor => Sys2Proof.Machine.execPldmMonitoring path pldmType sensor s
  | .pldmFirmwareUpdate path r => Sys2Proof.Machine.execPldmFirmwareUpdate path r s
  | .getApportionment src => Sys2Proof.Machine.execGetApportionment src s
  | .stageGrant src => Sys2Proof.Machine.execStageGrant src s
  | .commit src => Sys2Proof.Machine.execCommit src s
  | .discard src => Sys2Proof.Machine.execDiscard src s
  | .setAdmin src => Sys2Proof.Machine.execSetAdmin src s
  | .kilvorUnknownCommand src => Sys2Proof.Machine.execKilvorUnknownCommand src s
  | .setLevelOutingChoice src => Sys2Proof.Machine.execSetLevelOutingChoice src s
  | .setLevelShelvesPerChain src => Sys2Proof.Machine.execSetLevelShelvesPerChain src s
  | .setLevelSpinUp src => Sys2Proof.Machine.execSetLevelSpinUp src s
  | .setLevelLink src => Sys2Proof.Machine.execSetLevelLink src s
  | .setLevelRecovery src => Sys2Proof.Machine.execSetLevelRecovery src s
  | .setLevelTimetable src => Sys2Proof.Machine.execSetLevelTimetable src s
  | .setLevelRecipes src => Sys2Proof.Machine.execSetLevelRecipes src s
  | .setLevelStackPower src => Sys2Proof.Machine.execSetLevelStackPower src s
  | .setLevelCopy src => Sys2Proof.Machine.execSetLevelCopy src s
  | .timetableBegin src => Sys2Proof.Machine.execTimetableBegin src s
  | .timetableRows src => Sys2Proof.Machine.execTimetableRows src s
  | .timetableCommit src => Sys2Proof.Machine.execTimetableCommit src s
  | .timetableAbort src => Sys2Proof.Machine.execTimetableAbort src s
  | .recipeWrite src => Sys2Proof.Machine.execRecipeWrite src s
  | .recipeCommit src => Sys2Proof.Machine.execRecipeCommit src s
  | .recipeErase src => Sys2Proof.Machine.execRecipeErase src s
  | .keyLoad src => Sys2Proof.Machine.execKeyLoad src s
  | .keyGenerate src => Sys2Proof.Machine.execKeyGenerate src s
  | .keyErase src => Sys2Proof.Machine.execKeyErase src s
  | .keyCheck src => Sys2Proof.Machine.execKeyCheck src s
  | .keystoreSealDone => Sys2Proof.Machine.execKeystoreSealDone s
  | .mbReqPost p m v => Sys2Proof.Machine.execMbReqPost p m v s
  | .mbRplRel p m v => Sys2Proof.Machine.execMbRplRel p m v s
  | .mbWakeWord0Write by_ inst v => Sys2Proof.Machine.execMbWakeWord0Write by_ inst v s
  | .mbPost k inst v => Sys2Proof.Machine.execMbPost k inst v s
  | .mbRel k inst v => Sys2Proof.Machine.execMbRel k inst v s
  | .mailboxRequestTake inst => Sys2Proof.Machine.execMailboxRequestTake inst s
  | .shelfParam => Sys2Proof.Machine.execShelfParam s
  | .shelfQuery => Sys2Proof.Machine.execShelfQuery s
  | .shelfRestore => Sys2Proof.Machine.execShelfRestore s
  | .chainQuery => Sys2Proof.Machine.execChainQuery s
  | .accumArm => Sys2Proof.Machine.execAccumArm s
  | .accumDisarm => Sys2Proof.Machine.execAccumDisarm s
  | .extAlloc => Sys2Proof.Machine.execExtAlloc s
  | .extFree => Sys2Proof.Machine.execExtFree s
  | .extQuery => Sys2Proof.Machine.execExtQuery s
  | .sspResponseFrame c tag status info => Sys2Proof.Machine.execSspResponseFrame c tag status info s
  | .taskResponse c tag code => Sys2Proof.Machine.execTaskResponse c tag code s
  | .xferRdy c tag offset len => Sys2Proof.Machine.execXferRdy c tag offset len s
  | .dataFrameReceive l tag offset bytes => Sys2Proof.Machine.execDataFrameReceive l tag offset bytes s
  | .dataFrameSend l tag => Sys2Proof.Machine.execDataFrameSend l tag s
  | .commandFrameSend h => Sys2Proof.Machine.execCommandFrameSend h s
  | .taskSend h => Sys2Proof.Machine.execTaskSend h s
  | .smpResponse c r => Sys2Proof.Machine.execSmpResponse c r s
  | .openReject h tag r => Sys2Proof.Machine.execOpenReject h tag r s
  | .openBackoffExpiry h tag => Sys2Proof.Machine.execOpenBackoffExpiry h tag s
  | .connectionBreak c tags => Sys2Proof.Machine.execConnectionBreak c tags s
  | .commandTimeout c tag => Sys2Proof.Machine.execCommandTimeout c tag s
  | .tmfTimeout c tag => Sys2Proof.Machine.execTmfTimeout c tag s
  | .busyRetryDelayExpiry c id => Sys2Proof.Machine.execBusyRetryDelayExpiry c id s
  | .nexusLossExpiry h => Sys2Proof.Machine.execNexusLossExpiry h s
  | .broadcast c lane prim => Sys2Proof.Machine.execBroadcast c lane prim s
  | .rediscoveryStart c => Sys2Proof.Machine.execRediscoveryStart c s
  | .laneUp c lane rate => Sys2Proof.Machine.execLaneUp c lane rate s
  | .dwordSyncLoss c lane => Sys2Proof.Machine.execDwordSyncLoss c lane s
  | .fecThreshold c lane => Sys2Proof.Machine.execFecThreshold c lane s
  | .portResetAttempt c ok => Sys2Proof.Machine.execPortResetAttempt c ok s
  | .discoveryTimeout c => Sys2Proof.Machine.execDiscoveryTimeout c s
  | .slotDiscoveryComplete sh => Sys2Proof.Machine.execSlotDiscoveryComplete sh s
  | .chainLinkResetApply c => Sys2Proof.Machine.execChainLinkResetApply c s
  | .plannerChoice c => Sys2Proof.Machine.execPlannerChoice c s
  | .shelfPgFilteredEdge sh level => Sys2Proof.Machine.execShelfPgFilteredEdge sh level s
  | .shelfPgDebounceExpiry sh => Sys2Proof.Machine.execShelfPgDebounceExpiry sh s
  | .powerGoodTimeout sh => Sys2Proof.Machine.execPowerGoodTimeout sh s
  | .spinUpStartTimeout sh => Sys2Proof.Machine.execSpinUpStartTimeout sh s
  | .spinUpStep sh => Sys2Proof.Machine.execSpinUpStep sh s
  | .testUnitReadyPoll sh slot => Sys2Proof.Machine.execTestUnitReadyPoll sh slot s
  | .spinUpTimeout sh => Sys2Proof.Machine.execSpinUpTimeout sh s
  | .lingerExpiry sh => Sys2Proof.Machine.execLingerExpiry sh s
  | .maxOpenExpiry sh => Sys2Proof.Machine.execMaxOpenExpiry sh s
  | .ageLimitPassed sh => Sys2Proof.Machine.execAgeLimitPassed sh s
  | .openingWindowEnd sh => Sys2Proof.Machine.execOpeningWindowEnd sh s
  | .drainLimitExpiry sh => Sys2Proof.Machine.execDrainLimitExpiry sh s
  | .closingSequenceDone sh => Sys2Proof.Machine.execClosingSequenceDone sh s
  | .settlingTimeout sh => Sys2Proof.Machine.execSettlingTimeout sh s
  | .holdoffExpiry sh => Sys2Proof.Machine.execHoldoffExpiry sh s
  | .timetableRow q ecc uses asks => Sys2Proof.Machine.execTimetableRow q ecc uses asks s
  | .superframeBoundary q => Sys2Proof.Machine.execSuperframeBoundary q s
  | .seamEnd q => Sys2Proof.Machine.execSeamEnd q s
  | .frameBeacon q count => Sys2Proof.Machine.execFrameBeacon q count s
  | .beaconMissing q => Sys2Proof.Machine.execBeaconMissing q s
  | .beaconAlignment q count delay roundTrips => Sys2Proof.Machine.execBeaconAlignment q count delay roundTrips s
  | .ttShadowDataWrite q v => Sys2Proof.Machine.execTtShadowDataWrite q v s
  | .preparationDone e => Sys2Proof.Machine.execPreparationDone e s
  | .recipeStart e => Sys2Proof.Machine.execRecipeStart e s
  | .hLd e stop vd ag => Sys2Proof.Machine.execHLd e stop vd ag s
  | .hamperLoadLands e => Sys2Proof.Machine.execHamperLoadLands e s
  | .hSt e stop srcP reg ag => Sys2Proof.Machine.execHSt e stop srcP reg ag s
  | .hSta e stop srcP reg ag last row col => Sys2Proof.Machine.execHSta e stop srcP reg ag last row col s
  | .hMac e stop pbase np1 vs col lcc clr => Sys2Proof.Machine.execHMac e stop pbase np1 vs col lcc clr s
  | .hGfOut e stop ps vd => Sys2Proof.Machine.execHGfOut e stop ps vd s
  | .hCld e stop row vs half => Sys2Proof.Machine.execHCld e stop row vs half s
  | .hHsInit e stop h => Sys2Proof.Machine.execHHsInit e stop h s
  | .hUpd e stop h vs sel => Sys2Proof.Machine.execHUpd e stop h vs sel s
  | .hUpdn e stop h vs sel n1 => Sys2Proof.Machine.execHUpdn e stop h vs sel n1 s
  | .hFin e stop h vd crc off => Sys2Proof.Machine.execHFin e stop h vd crc off s
  | .hHsSave e stop h vd => Sys2Proof.Machine.execHHsSave e stop h vd s
  | .hHsRest e stop h vs => Sys2Proof.Machine.execHHsRest e stop h vs s
  | .hCrInit e stop k vs => Sys2Proof.Machine.execHCrInit e stop k vs s
  | .hEnc e stop k vd vs => Sys2Proof.Machine.execHEnc e stop k vd vs s
  | .hDec e stop k vd vs => Sys2Proof.Machine.execHDec e stop k vd vs s
  | .hCrTag e stop k vd off => Sys2Proof.Machine.execHCrTag e stop k vd off s
  | .hCrSave e stop k vd => Sys2Proof.Machine.execHCrSave e stop k vd s
  | .hCrRest e stop k vs => Sys2Proof.Machine.execHCrRest e stop k vs s
  | .hAlXor e stop vd va vb => Sys2Proof.Machine.execHAlXor e stop vd va vb s
  | .hAlAnd e stop vd va vb => Sys2Proof.Machine.execHAlAnd e stop vd va vb s
  | .hAlOr e stop vd va vb => Sys2Proof.Machine.execHAlOr e stop vd va vb s
  | .hAlMov e stop vd va => Sys2Proof.Machine.execHAlMov e stop vd va s
  | .hZero e stop vd => Sys2Proof.Machine.execHZero e stop vd s
  | .hInslc e stop vd off l => Sys2Proof.Machine.execHInslc e stop vd off l s
  | .hNeq e stop bit va vb => Sys2Proof.Machine.execHNeq e stop bit va vb s
  | .hPtest e stop bit va => Sys2Proof.Machine.execHPtest e stop bit va s
  | .hCtNop e stop => Sys2Proof.Machine.execHCtNop e stop s
  | .hLoop e stop level csel endAddr => Sys2Proof.Machine.execHLoop e stop level csel endAddr s
  | .hCtIdle e stop n1 => Sys2Proof.Machine.execHCtIdle e stop n1 s
  | .hAgrst e stop ag => Sys2Proof.Machine.execHAgrst e stop ag s
  | .hCtEnd e stop => Sys2Proof.Machine.execHCtEnd e stop s
  | .recipeEnd e => Sys2Proof.Machine.execRecipeEnd e s
  | .runLimit e => Sys2Proof.Machine.execRunLimit e s
  | .stackSrEntryTimer q => Sys2Proof.Machine.execStackSrEntryTimer q s
  | .srExitComplete q => Sys2Proof.Machine.execSrExitComplete q s
  | .dmaGoWrite ch v => Sys2Proof.Machine.execDmaGoWrite ch v s
  | .dmaCtlWrite ch v => Sys2Proof.Machine.execDmaCtlWrite ch v s
  | .dmaTimerCtlWrite n v => Sys2Proof.Machine.execDmaTimerCtlWrite n v s
  | .dmaTimerFire n => Sys2Proof.Machine.execDmaTimerFire n s
  | .dmaRunStart ch => Sys2Proof.Machine.execDmaRunStart ch s
  | .dmaRunEnd ch => Sys2Proof.Machine.execDmaRunEnd ch s
  | .blockMoveDone k c parity => Sys2Proof.Machine.execBlockMoveDone k c parity s
  | .stakeAcquireRead k => Sys2Proof.Machine.execStakeAcquireRead k s
  | .stakePeekRead k => Sys2Proof.Machine.execStakePeekRead k s
  | .stakeReleaseWrite k => Sys2Proof.Machine.execStakeReleaseWrite k s
  | .stakeBankCycle bank => Sys2Proof.Machine.execStakeBankCycle bank s
  | .fbRead p parityBad => Sys2Proof.Machine.execFbRead p parityBad s
  | .fbRd0Read parityBad => Sys2Proof.Machine.execFbRd0Read parityBad s
  | .fbClear by_ v => Sys2Proof.Machine.execFbClear by_ v s
  | .counterLowHalfRead p ecc => Sys2Proof.Machine.execCounterLowHalfRead p ecc s
  | .sysCycleLoRead k mispred => Sys2Proof.Machine.execSysCycleLoRead k mispred s
  | .sysIdataAccess k write => Sys2Proof.Machine.execSysIdataAccess k write s
  | .sysWakeWrite k v => Sys2Proof.Machine.execSysWakeWrite k v s
  | .interrupt k => Sys2Proof.Machine.execInterrupt k s
  | .watchdog k => Sys2Proof.Machine.execWatchdog k s
  | .iowaitResume k c => Sys2Proof.Machine.execIowaitResume k c s
  | .sSaMov k d sh => Sys2Proof.Machine.execSSaMov k d sh s
  | .sSaAdd k d sh => Sys2Proof.Machine.execSSaAdd k d sh s
  | .sSaSub k d sh => Sys2Proof.Machine.execSSaSub k d sh s
  | .sSaAnd k d sh => Sys2Proof.Machine.execSSaAnd k d sh s
  | .sSaOr k d sh => Sys2Proof.Machine.execSSaOr k d sh s
  | .sSaXor k d sh => Sys2Proof.Machine.execSSaXor k d sh s
  | .sSaCmp k d sh => Sys2Proof.Machine.execSSaCmp k d sh s
  | .sSb k cond annul disp => Sys2Proof.Machine.execSSb k cond annul disp s
  | .sAdd k d a b => Sys2Proof.Machine.execSAdd k d a b s
  | .sAdc k d a b => Sys2Proof.Machine.execSAdc k d a b s
  | .sSub k d a b => Sys2Proof.Machine.execSSub k d a b s
  | .sSbc k d a b => Sys2Proof.Machine.execSSbc k d a b s
  | .sAnd k d a b => Sys2Proof.Machine.execSAnd k d a b s
  | .sOr k d a b => Sys2Proof.Machine.execSOr k d a b s
  | .sXor k d a b => Sys2Proof.Machine.execSXor k d a b s
  | .sBic k d a b => Sys2Proof.Machine.execSBic k d a b s
  | .sShl k d a b => Sys2Proof.Machine.execSShl k d a b s
  | .sShr k d a b => Sys2Proof.Machine.execSShr k d a b s
  | .sSar k d a b => Sys2Proof.Machine.execSSar k d a b s
  | .sMov k d a => Sys2Proof.Machine.execSMov k d a s
  | .sMul k d a b => Sys2Proof.Machine.execSMul k d a b s
  | .sMulh k d a b => Sys2Proof.Machine.execSMulh k d a b s
  | .sCmp k a b => Sys2Proof.Machine.execSCmp k a b s
  | .sTst k a b => Sys2Proof.Machine.execSTst k a b s
  | .sDadd k d a b => Sys2Proof.Machine.execSDadd k d a b s
  | .sDadc k d a b => Sys2Proof.Machine.execSDadc k d a b s
  | .sDsub k d a b => Sys2Proof.Machine.execSDsub k d a b s
  | .sDsbc k d a b => Sys2Proof.Machine.execSDsbc k d a b s
  | .sDadj k d a => Sys2Proof.Machine.execSDadj k d a s
  | .sDcmp k a b => Sys2Proof.Machine.execSDcmp k a b s
  | .sDshl k d a b => Sys2Proof.Machine.execSDshl k d a b s
  | .sDmd k d a n => Sys2Proof.Machine.execSDmd k d a n s
  | .sCvbd k d a n => Sys2Proof.Machine.execSCvbd k d a n s
  | .sCvdb k d a => Sys2Proof.Machine.execSCvdb k d a s
  | .sMovi k d imm => Sys2Proof.Machine.execSMovi k d imm s
  | .sAddi k d imm => Sys2Proof.Machine.execSAddi k d imm s
  | .sSubi k d imm => Sys2Proof.Machine.execSSubi k d imm s
  | .sAndi k d imm => Sys2Proof.Machine.execSAndi k d imm s
  | .sOri k d imm => Sys2Proof.Machine.execSOri k d imm s
  | .sXori k d imm => Sys2Proof.Machine.execSXori k d imm s
  | .sCmpi k d imm => Sys2Proof.Machine.execSCmpi k d imm s
  | .sTsti k d imm => Sys2Proof.Machine.execSTsti k d imm s
  | .sB k cond annul t => Sys2Proof.Machine.execSB k cond annul t s
  | .sCall k cond annul t => Sys2Proof.Machine.execSCall k cond annul t s
  | .sRet k => Sys2Proof.Machine.execSRet k s
  | .sBr k cond annul disp => Sys2Proof.Machine.execSBr k cond annul disp s
  | .sCallr k cond annul disp => Sys2Proof.Machine.execSCallr k cond annul disp s
  | .sRpt k d imm => Sys2Proof.Machine.execSRpt k d imm s
  | .sIn k d port => Sys2Proof.Machine.execSIn k d port s
  | .sOut k sh port => Sys2Proof.Machine.execSOut k sh port s
  | .sInx k d n => Sys2Proof.Machine.execSInx k d n s
  | .sOutx k sh n => Sys2Proof.Machine.execSOutx k sh n s
  | .sIowait k sh port => Sys2Proof.Machine.execSIowait k sh port s
  | .sBmov k n => Sys2Proof.Machine.execSBmov k n s
  | .sGate k n => Sys2Proof.Machine.execSGate k n s
  | .sGret k => Sys2Proof.Machine.execSGret k s
  | .sTrap k code => Sys2Proof.Machine.execSTrap k code s
  | .sRfe k => Sys2Proof.Machine.execSRfe k s
  | .sMfsw k d => Sys2Proof.Machine.execSMfsw k d s
  | .sMtsw k d => Sys2Proof.Machine.execSMtsw k d s
  | .sMflr k d => Sys2Proof.Machine.execSMflr k d s
  | .sMtlr k d => Sys2Proof.Machine.execSMtlr k d s
  | .sSwap k => Sys2Proof.Machine.execSSwap k s
  | .sIdle k => Sys2Proof.Machine.execSIdle k s
  | .sSync k => Sys2Proof.Machine.execSSync k s
  | .sMfwp k d => Sys2Proof.Machine.execSMfwp k d s
  | .sMtwp k d => Sys2Proof.Machine.execSMtwp k d s
  | .reservedEncoding k w1 w2 => Sys2Proof.Machine.execReservedEncoding k w1 w2 s
  | .tapSample cycles => Sys2Proof.Machine.execTapSample cycles s
  | .mainDomainValidRise cycles => Sys2Proof.Machine.execMainDomainValidRise cycles s
  | .shelfTimeSample pg => Sys2Proof.Machine.execShelfTimeSample pg s
  | .s0Sample c high => Sys2Proof.Machine.execS0Sample c high s
  | .testPulseEmit => Sys2Proof.Machine.execTestPulseEmit s
  | .readRequest => Sys2Proof.Machine.execReadRequest s
  | .periodicReading => Sys2Proof.Machine.execPeriodicReading s
  | .monOutSegment => Sys2Proof.Machine.execMonOutSegment s
  | .monDown => Sys2Proof.Machine.execMonDown s
  | .checkpointTimer => Sys2Proof.Machine.execCheckpointTimer s
  | .powerFailSignal => Sys2Proof.Machine.execPowerFailSignal s
  | .monumentPowerOn => Sys2Proof.Machine.execMonumentPowerOn s
  | .monRstN => Sys2Proof.Machine.execMonRstN s
  | .monumentCoreRestart double => Sys2Proof.Machine.execMonumentCoreRestart double s
  | .monTamperN => Sys2Proof.Machine.execMonTamperN s
  | .monumentCrystalStop => Sys2Proof.Machine.execMonumentCrystalStop s
  | .monId => Sys2Proof.Machine.execMonId s
  | .monRead => Sys2Proof.Machine.execMonRead s
  | .monLast => Sys2Proof.Machine.execMonLast s
  | .monParam => Sys2Proof.Machine.execMonParam s
  | .monSet n v pins => Sys2Proof.Machine.execMonSet n v pins s
  | .monLog idx => Sys2Proof.Machine.execMonLog idx s
  | .monKey => Sys2Proof.Machine.execMonKey s
  | .monSeal dsn paramEn flashOk => Sys2Proof.Machine.execMonSeal dsn paramEn flashOk s
  | .monTest m => Sys2Proof.Machine.execMonTest m s
  | .monTamperClear paramEn => Sys2Proof.Machine.execMonTamperClear paramEn s
  | .monSyntaxError => Sys2Proof.Machine.execMonSyntaxError s
  | .cxRstNAssert => Sys2Proof.Machine.execCxRstNAssert s
  | .cxRstNDeassert adminSel smbAddr bootRcvy => Sys2Proof.Machine.execCxRstNDeassert adminSel smbAddr bootRcvy s
  | .bootStage r => Sys2Proof.Machine.execBootStage r s
  | .containmentDiscard sc => Sys2Proof.Machine.execContainmentDiscard sc s
  | .containmentReset sc rebuilt => Sys2Proof.Machine.execContainmentReset sc rebuilt s
  | .containmentEnd sc => Sys2Proof.Machine.execContainmentEnd sc s
  | .engineSilent e => Sys2Proof.Machine.execEngineSilent e s
  | .controlSramError => Sys2Proof.Machine.execControlSramError s
  | .lockstepMismatch => Sys2Proof.Machine.execLockstepMismatch s
  | .mainRailsValid => Sys2Proof.Machine.execMainRailsValid s
  | .mainRailFault => Sys2Proof.Machine.execMainRailFault s
  | .devRefclkLoss => Sys2Proof.Machine.execDevRefclkLoss s
  | .sasRefclkLoss => Sys2Proof.Machine.execSasRefclkLoss s
  | .pcieRefclkLoss p => Sys2Proof.Machine.execPcieRefclkLoss p s
  | .sensorUpdate temps => Sys2Proof.Machine.execSensorUpdate temps s
  | .islandGating idx => Sys2Proof.Machine.execIslandGating idx s
  | .spinStartTimeout p tag slot => Sys2Proof.Machine.execSpinStartTimeout p tag slot s
  | .devRefclkReturn => Sys2Proof.Machine.execDevRefclkReturn s
  | .sasRefclkReturn => Sys2Proof.Machine.execSasRefclkReturn s
  | .monumentCrystalRestart => Sys2Proof.Machine.execMonumentCrystalRestart s

end Sys2Proof.Machine
end

