-- ==== Sys2Proof/Machine/Step.lean ====
section
/-! DEFINITION. One step of the block: the command at the front of its queue, or one millisecond of quiet. -/

namespace Sys2Proof.Machine

/-- With nothing to do the device millisecond counter advances (R157, R512, R601), unless the main domain is held in
reset or unpowered (R548). DESIGN CHOICE (log entry 3). -/
def State.idle (s : State) : State := match s.mode with
  | .off | .reset | .tripped => s
  | _ => { s with devMs := s.devMs + 1 }

/-- One step: the front command is run on the state with the queue's rest. -/
def step (s : State) : Host.Outcome State Fault Refusal :=
  match s.pending with
  | [] => .next s.idle
  | c :: rest => exec c { s with pending := rest }

/-- The command a table word spells, put at the front of the queue; no word spells one (Decode). -/
def State.withFetchWord (s : State) (nbits w : Nat) : State :=
  match Sys2Proof.decodeTableWord nbits w with
  | some c => { s with pending := c :: s.pending }
  | none => s

end Sys2Proof.Machine
end

