-- ==== Sys2Proof/Safety.lean ====
section
/-! DEFINITION. The terms the statements use: the invariant of every state, where a traverse stands at a leg, where an
engine or a core stands before an instruction, and which command belongs to which op, request or function. -/

namespace Sys2Proof.Machine

/-- The invariant of every state: buffer memory is in canonical form. -/
def State.Inv (s : State) : Prop := Memory.wf s.mem = true

/-- A safe run of `n` steps: each of them answers a next state. -/
def State.SafeFor : Nat → State → Prop
  | 0, _ => True
  | n + 1, s => ∃ t, step s = .next t ∧ t.SafeFor n

/-- The traverse `tag` of port `p` stands at a leg with the opcode, counted and checked, on the party that owns the
leg's chain, and the leg's shelf has not lost power (R35, R163, R167): the leg's own command performs it. -/
def AtLeg (s : State) (p tag op : Nat) (v : Trv) : Prop :=
  s.trv? p tag = some v ∧ v.state = .running ∧ v.stage = .ready ∧ legOp v.leg = op ∧
  (∀ c, s.legChain v.leg = some c → c = v.party) ∧ s.shelfGone v.leg = false

/-- An op command of a hamper engine: the engine, STOP, the op (R325). -/
def hamperCommand : Instr → Option (Nat × Bool × HOp)
  | .hLd e stop vd ag => some (e, stop, .ld vd ag)
  | .hSt e stop srcP reg ag => some (e, stop, .st srcP reg ag)
  | .hSta e stop srcP reg ag last row col => some (e, stop, .sta srcP reg ag last row col)
  | .hMac e stop pb np vs col lcc clr => some (e, stop, .mac pb np vs col lcc clr)
  | .hGfOut e stop ps vd => some (e, stop, .gfOut ps vd)
  | .hCld e stop row vs half => some (e, stop, .cld row vs half)
  | .hHsInit e stop h => some (e, stop, .hsInit h)
  | .hUpd e stop h vs sel => some (e, stop, .upd h vs sel)
  | .hUpdn e stop h vs sel n => some (e, stop, .updn h vs sel n)
  | .hFin e stop h vd crc off => some (e, stop, .fin h vd crc off)
  | .hHsSave e stop h vd => some (e, stop, .hsSave h vd)
  | .hHsRest e stop h vs => some (e, stop, .hsRest h vs)
  | .hCrInit e stop k vs => some (e, stop, .crInit k vs)
  | .hEnc e stop k vd vs => some (e, stop, .enc k vd vs)
  | .hDec e stop k vd vs => some (e, stop, .dec k vd vs)
  | .hCrTag e stop k vd off => some (e, stop, .crTag k vd off)
  | .hCrSave e stop k vd => some (e, stop, .crSave k vd)
  | .hCrRest e stop k vs => some (e, stop, .crRest k vs)
  | .hAlXor e stop vd va vb => some (e, stop, .alXor vd va vb)
  | .hAlAnd e stop vd va vb => some (e, stop, .alAnd vd va vb)
  | .hAlOr e stop vd va vb => some (e, stop, .alOr vd va vb)
  | .hAlMov e stop vd va => some (e, stop, .alMov vd va)
  | .hZero e stop vd => some (e, stop, .zero vd)
  | .hInslc e stop vd off l => some (e, stop, .inslc vd off l)
  | .hNeq e stop bit va vb => some (e, stop, .neq bit va vb)
  | .hPtest e stop bit va => some (e, stop, .ptest bit va)
  | .hCtNop e stop => some (e, stop, .nop)
  | .hLoop e stop level csel endAddr => some (e, stop, .loop level csel endAddr)
  | .hCtIdle e stop n => some (e, stop, .idle n)
  | .hAgrst e stop ag => some (e, stop, .agrst ag)
  | .hCtEnd e stop => some (e, stop, .endOp)
  | _ => none

/-- Engine `e`, in state `x`, runs a store recipe whose bundle at hand is this one op and does not fault; nothing is on
its way to a register and no loop level is active. -/
def SoleOp (s : State) (e : Nat) (x : Engine) (op : HOp) : Prop :=
  s.engine e = x ∧ x.ended = false ∧ x.bundle = [] ∧ x.lands = [] ∧ x.loop0.active = false ∧ x.loop1.active = false ∧
  s.cycleNow e = true ∧
  ∃ im, x.image = some im ∧ bundleAt im.words x.bundleAddr = some [op] ∧ x.bundleFault e im.words [op] = none

/-- A command that carries out a change of the apportionment, with its Kilvor command code (R73). -/
def changeCommand : Instr → Option (KilvorSrc × Nat)
  | .stageGrant src => some (src, 0x02)
  | .commit src => some (src, 0x03)
  | .discard src => some (src, 0x04)
  | _ => none

/-- A command that carries out a SET-LEVEL, with its function (R243). -/
def levelCommand : Instr → Option (KilvorSrc × Nat)
  | .setLevelOutingChoice src => some (src, 0x10)
  | .setLevelShelvesPerChain src => some (src, 0x11)
  | .setLevelSpinUp src => some (src, 0x12)
  | .setLevelLink src => some (src, 0x20)
  | .setLevelRecovery src => some (src, 0x21)
  | .setLevelTimetable src => some (src, 0x30)
  | .setLevelRecipes src => some (src, 0x50)
  | .setLevelStackPower src => some (src, 0x60)
  | .setLevelCopy src => some (src, 0x61)
  | _ => none

/-- A command that carries out a LOAD-TIMETABLE, with its operation (R309). -/
def tableCommand : Instr → Option (KilvorSrc × Nat)
  | .timetableBegin src => some (src, 1)
  | .timetableRows src => some (src, 2)
  | .timetableCommit src => some (src, 3)
  | .timetableAbort src => some (src, 4)
  | _ => none

/-- A payload of LOAD-TIMETABLE has the form of its operation (R309): ROWS names a quarter, a first row and a count of rows
that the payload holds, COMMIT a CRC, the others nothing. -/
def tableForm (b : List Byte) : Bool :=
  if byteAt b 0 = 2 then
    byteAt b 1 < 4 && 1 ≤ fieldAt b 4 2 && fieldAt b 4 2 ≤ 64 && fieldAt b 2 2 + fieldAt b 4 2 ≤ 4096 &&
      zeroAt b 6 2 && b.length = 8 + 16 * fieldAt b 4 2
  else b.length = 8 && zeroAt b 1 (if byteAt b 0 = 3 then 3 else 7)

/-- The request at hand is served without waiting: the buffer memory that an INDIRECT one names for its payload and its reply
lies in stacks that are ACTIVE, and its payload reads without an error (R418, R410, R501). -/
def State.kAwake (s : State) (src : KilvorSrc) : Bool := match src, s.service with
  | .service, v :: _ => v.mctp.isSome || v.word 2 ≠ 1 ||
      ((bufQuarters (bufPos (v.quad 7)) 4096 ++ bufQuarters (bufPos (v.quad 3)) (v.word 1)).all fun q =>
        (s.quarter q).stack = .active) && s.flaws.all fun x => !inBuf (bufPos (v.quad 3)) (v.word 1) x.1
  | _, _ => true

/-- The principal asks for a load operation: command code, operation, payload (R309, R358). -/
def LoadRequest (s : State) (src : KilvorSrc) (code op : Nat) (b : List Byte) : Prop :=
  ∃ r, s.kreq src = some r ∧ r.sound = true ∧ r.code = code ∧ s.isPrincipal r = true ∧ r.payload = b ∧ byteAt b 0 = op ∧
    s.kAwake src = true

/-- The principal asks for a SET-LEVEL of a function with a payload whose level and reserved bytes are in order
(R243). -/
def LevelRequest (s : State) (src : KilvorSrc) (fn : Nat) (b : List Byte) : Prop :=
  LoadRequest s src 0x06 fn b ∧ byteAt b 1 < 2 ∧ zeroAt b 2 2 = true

/-- The principal asks for a key operation on an entry that exists (R390). -/
def KeyRequest (s : State) (src : KilvorSrc) (op len : Nat) (r : KReq) : Prop :=
  s.kreq src = some r ∧ r.sound = true ∧ r.code = 0x09 ∧ s.isPrincipal r = true ∧ byteAt r.payload 0 = op ∧
  r.payload.length = len ∧ byteAt r.payload 1 < 8 ∧
  fieldAt r.payload 2 2 < (s.port (byteAt r.payload 1)).ap.keys ∧
  (src = .service → (s.manage.keyReply.any fun w => w.1 = .service) = false) ∧ s.kAwake src = true

/-- A command that issues a Sehar instruction whose effect lies in its core, with its core, form and effect. -/
def seharCommand : Instr → Option (Nat × Form × (Core → Try Core))
  | .sSaMov k d n => some (k, shortForm, fun x => x.runOne (d.setWidth 8) (n.setWidth 8) fun v f => .ok { r := v, f })
  | .sSaAdd k d n => some (k, shortForm, fun x => x.runSa d n opAdd)
  | .sSaSub k d n => some (k, shortForm, fun x => x.runSa d n opSub)
  | .sSaAnd k d n => some (k, shortForm, fun x => x.runSa d n opAnd)
  | .sSaOr k d n => some (k, shortForm, fun x => x.runSa d n opOr)
  | .sSaXor k d n => some (k, shortForm, fun x => x.runSa d n opXor)
  | .sSaCmp k d n => some (k, shortForm, fun x => x.runSaFlags d n opSub)
  | .sAdd k d a b => some (k, longForm, fun x => x.runLa d a b opAdd)
  | .sAdc k d a b => some (k, longForm, fun x => x.runLa d a b opAdc)
  | .sSub k d a b => some (k, longForm, fun x => x.runLa d a b opSub)
  | .sSbc k d a b => some (k, longForm, fun x => x.runLa d a b opSbc)
  | .sAnd k d a b => some (k, longForm, fun x => x.runLa d a b opAnd)
  | .sOr k d a b => some (k, longForm, fun x => x.runLa d a b opOr)
  | .sXor k d a b => some (k, longForm, fun x => x.runLa d a b opXor)
  | .sBic k d a b => some (k, longForm, fun x => x.runLa d a b opBic)
  | .sShl k d a b => some (k, longForm, fun x => x.runLa d a b opShl)
  | .sShr k d a b => some (k, longForm, fun x => x.runLa d a b opShr)
  | .sSar k d a b => some (k, longForm, fun x => x.runLa d a b opSar)
  | .sMov k d a => some (k, longForm, fun x => x.runOne d a fun v f => .ok { r := v, f })
  | .sMul k d a b => some (k, longCost 2, fun x => x.runLa d a b opMul)
  | .sMulh k d a b => some (k, longCost 2, fun x => x.runLa d a b opMulh)
  | .sCmp k a b => some (k, longForm, fun x => x.runLaFlags a b opSub)
  | .sTst k a b => some (k, longForm, fun x => x.runLaFlags a b opAnd)
  | .sDadd k d a b => some (k, longForm, fun x => x.runDec d a b opDadd)
  | .sDadc k d a b => some (k, longForm, fun x => x.runDec d a b opDadc)
  | .sDsub k d a b => some (k, longForm, fun x => x.runDec d a b opDsub)
  | .sDsbc k d a b => some (k, longForm, fun x => x.runDec d a b opDsbc)
  | .sDadj k d a => some (k, longForm, fun x => x.runOne d a fun v f => .ok (opDadj v f))
  | .sDcmp k a b => some (k, longForm, fun x => x.runDecFlags a b opDsub)
  | .sDshl k d a b => some (k, longForm, fun x => x.runDec d a b opDshl)
  | .sDmd k d a n => some (k, longCost 4, fun x => x.runDmd d a n)
  | .sCvbd k d a n => some (k, longCost 6, fun x => x.runCvbd d a n)
  | .sCvdb k d a => some (k, longCost 6, fun x => x.runOne d a fun v f => decimalOr (opCvdb v f))
  | .sMovi k d imm => some (k, longForm, fun x => x.runStore d imm)
  | .sAddi k d imm => some (k, longForm, fun x => x.runLi d imm opAdd)
  | .sSubi k d imm => some (k, longForm, fun x => x.runLi d imm opSub)
  | .sAndi k d imm => some (k, longForm, fun x => x.runLi d imm opAnd)
  | .sOri k d imm => some (k, longForm, fun x => x.runLi d imm opOr)
  | .sXori k d imm => some (k, longForm, fun x => x.runLi d imm opXor)
  | .sCmpi k d imm => some (k, longForm, fun x => x.runLiFlags d imm opSub)
  | .sTsti k d imm => some (k, longForm, fun x => x.runLiFlags d imm opAnd)
  | .sOut k d port => some (k, { io := some fun _ => port.toNat }, fun x => x.outPort port.toNat d)
  | .sOutx k d n => some (k, { io := some (Core.portOf n) }, fun x => (x.sense (x.regAddr n.toNat)).outPort (x.portOf n) d)
  | .sMfsw k d => some (k, longForm, fun x => x.runStore d x.here.sw)
  | .sMtsw k d => some (k, { privileged := true }, fun x => x.moveTo d (.sw x.cur) id)
  | .sMflr k d => some (k, longForm, fun x => x.runStore d x.here.lr)
  | .sMtlr k d => some (k, longForm, fun x => x.moveTo d (.lr x.cur) id)
  | .sMfwp k d => some (k, longForm, fun x => x.runStore d x.here.wp)
  | .sMtwp k d => some (k, { privileged := true }, fun x => x.moveTo d (.wp x.cur) fun v => v &&& 0xFFC0)
  | _ => none

/-- A command that issues an instruction with decimal operands, which may be DECIMAL-INVALID (R466). -/
def decimalCommand : Instr → Bool
  | .sDadd .. | .sDadc .. | .sDsub .. | .sDsbc .. | .sDcmp .. | .sDshl .. | .sDmd .. | .sCvdb .. => true
  | _ => false

/-- Core `k` issues an instruction of a form, which passes the checks that come before its own (R452): `x` is the core
as the instruction finds it, every write it sees in place (R453). No word of the instruction has wrong parity; what a
wrong parity in the words it reads does, `Form.parity` says of the core after it. -/
def Issues (s : State) (k : Nat) (fm : Form) (x : Core) : Prop :=
  k < 50 ∧ (s.core k).running = true ∧ (s.core k).here.watchdogFirst = false ∧ (s.settle k).core k = x ∧
  x.here.inAnnulled = false ∧ fm.check x k = none ∧ (x.here.rpt = none ∨ fm.repeatable = true) ∧
  fm.parity x x = none

/-- Core `k`, found as `x`, has become `y` by an instruction of a form, and its context goes on. -/
def State.ran (s : State) (k : Nat) (fm : Form) (x y : Core) : State :=
  ((s.settle k).setCore k y).afterEffect k x.cur fm.len fm.cost x.cycle (!x.here.s) .go

/-- The same for a branch of `len` words: its delay slot comes next (R455). -/
def State.branched (s : State) (k len : Nat) (x y : Core) : State :=
  ((s.settle k).setCore k y).afterEffect k x.cur len 1 x.cycle (!x.here.s) .slot

end Sys2Proof.Machine
end

