-- ==== Sys2Proof/Certificates/Slice0/Obligations.lean ====
section
/-! DEFINITION. What is stated about this device: its queue and reset state, its commands family by family, the
memory's form, the core and its registers. A clause stands for every state and operand that meets its hypotheses; a
value or an order that the model chose is named with its log entry. -/
open Sys2Proof Sys2Proof.Machine

/-! ### The queue of commands, and the reset state -/

/-- One step runs the command at the front of the queue on the state with the queue's rest. With an empty queue the
block idles: one millisecond passes, or nothing at all while the main domain is held in reset, tripped or unpowered
(the model's choice, log entry 3). -/
def Obligations.StepRunsFrontCommand : Prop :=
  (∀ (s : State) (c : Instr) (rest : List Instr), s.pending = c :: rest →
    step s = exec c { s with pending := rest }) ∧
  (∀ s : State, s.pending = [] → (s.mode = .off ∨ s.mode = .reset ∨ s.mode = .tripped) → step s = .next s) ∧
  (∀ s : State, s.pending = [] → s.mode ≠ .off → s.mode ≠ .reset → s.mode ≠ .tripped →
    step s = .next { s with devMs := s.devMs + 1 })

/-- No command ends in a fault or a refusal, and none gets stuck: this manual gives every command an effect. What here
is the model's choice is told in log entries 1, 2. -/
def Obligations.EveryCommandAnswersNext : Prop :=
  (∀ (c : Instr) (s : State), ∃ t : State, exec c s = .next t) ∧ (∀ s : State, ∃ t, step s = .next t)

/-- What cold reset leaves (R549, R556): the epochs, the millisecond counter, FN_STAT and FN_CTL, disabled queues,
dark shelves, every quarter's TT_CTL.MODE at START with the start table in its active bank, empty books, mailboxes and
memory. What here is the model's choice is told in log entries 5, 8. -/
def Obligations.ColdResetLeaves : Prop :=
  State.reset.devEpoch = 0 ∧ State.reset.devMs = 0 ∧ State.reset.pending = [] ∧ State.reset.trvs = [] ∧
  State.reset.deviceBook.words = [] ∧
  (∀ p, (State.reset.port p).fnEpoch = 0 ∧ (State.reset.port p).events = 0 ∧ (State.reset.port p).evtEn = 0 ∧
    (State.reset.port p).ready = false ∧ (State.reset.port p).bar4En = false) ∧
  (∀ p q, ((State.reset.port p).sq q).en = false ∧ ((State.reset.port p).cq q).en = false) ∧
  (∀ sh, (State.reset.shelf sh).state = .dark) ∧
  (∀ q n, (State.reset.quarter q).mode = 1 ∧ bankRow (State.reset.quarter q).activeBank n = startRow n) ∧
  (∀ i, (State.reset.mailbox i).full = false) ∧ (∀ a, memByte State.reset.mem a = 0)

/-- The memory of the reset state has the canonical form. What here is the model's choice is told in log entry 12. -/
def Obligations.MemoryFormAtReset : Prop := Memory.wf State.reset.mem = true

/-- THE MEMORY KEEPS ITS FORM: from every state whose buffer memory is in canonical form, every step leaves it so.
What here is the model's choice is told in log entry 12. -/
def Obligations.MemoryFormKeptByEveryStep : Prop :=
  ∀ s t : State, Memory.wf s.mem = true → step s = .next t → Memory.wf t.mem = true

/-- THE QUEUE IS FIRST IN, FIRST OUT: a step takes one command from the front, and no command's effect touches those
that wait behind it. What here is the model's choice is told in log entry 4. -/
def Obligations.QueueIsFirstInFirstOut : Prop := ∀ s t : State, step s = .next t → t.pending = s.pending.tail

/-! ### Submission and completion queues -/

/-- Completions on their way to the host (R37, R69, R106, R108, R111, R161). What here is the model's choice is told
in log entries 1, 13, 14, 60. -/
def Obligations.CompletionsReachTheHost : Prop :=
  -- COMPLETION_POST: the oldest completion of the port is written to slot TAIL of its ring, with the ring's phase
  (∀ (s : State) (p : Nat) (c : Completion) (rest : List Completion),
    s.released = c :: rest → c.port = p → ((s.port p).cq c.cq).stalled = false →
    (s.port p).canPost c.cq c.notice = true →
    ∃ t : State, exec (.completionPost p) s = .next t ∧ t.released = rest ∧ t.mem = s.mem ∧
      Output.hostWrite p (((s.port p).cq c.cq).base.toNat + 32 * ((s.port p).cq c.cq).tail)
        (c.bytes (if c.notice then 0 else ((s.port p).sq c.sq).head) (if c.notice then c.epoch else (s.port p).fnEpoch)
          ((s.port p).cq c.cq).phase) false false ∈ t.out ∧
      ((t.port p).cq c.cq).tail =
        (if ((s.port p).cq c.cq).tail + 1 = 2 ^ ((s.port p).cq c.cq).log2 then 0 else ((s.port p).cq c.cq).tail + 1) ∧
      ((t.port p).cq c.cq).unreturned = ((s.port p).cq c.cq).unreturned + 1) ∧
  -- COMPLETION_POST without ring space: the completion waits at its queue
  (∀ (s : State) (p : Nat) (c : Completion) (rest : List Completion),
    s.released = c :: rest → c.port = p → (s.port p).canPost c.cq c.notice = false →
    ∃ t : State, exec (.completionPost p) s = .next t ∧ t.released = rest ∧ t.out = s.out ∧
      ((t.port p).cq c.cq).waiting = ((s.port p).cq c.cq).waiting ++ [c]) ∧
  -- COLLECTOR_RELEASE: the records of a frame, once all have arrived and no earlier frame's are held
  (∀ (s : State) (frame : Nat), (∀ q, q < 4 → (frame + collectorDelay q + 1) * 256 ≤ (s.quarter q).absRow) →
    (∀ r ∈ s.collector, ∀ g, r.frame = some g → frame ≤ g) →
    exec (.collectorRelease frame) s = .next { s with
      released := s.released ++ (frameOrder (s.collector.filter fun r => r.frame = some frame)).map (·.comp)
      collector := s.collector.filter fun r => r.frame ≠ some frame }) ∧
  (∀ (s : State) (frame q : Nat), q < 4 → (s.quarter q).absRow < (frame + collectorDelay q + 1) * 256 →
    exec (.collectorRelease frame) s = .next s) ∧
  -- COALESCE_TIMER_EXPIRY: the message is sent, or pends while it cannot be sent, and the count returns to 0
  (∀ (s : State) (p v : Nat), ((s.port p).vec v).timerOn = true →
    ∃ t : State, exec (.coalesceTimerExpiry p v) s = .next t ∧ ((t.port p).vec v).count = 0 ∧
      ((t.port p).vec v).timerOn = false ∧ t.mem = s.mem ∧
      ((s.port p).canSend v = true →
        Output.msix p v ((s.port p).msix.get v {}).addr ((s.port p).msix.get v {}).data ∈ t.out) ∧
      ((s.port p).canSend v = false → v ∈ (t.port p).pba ∧ t.out = s.out)) ∧
  -- MSIX_PENDING_SEND: the held message goes out and its pending bit clears
  (∀ (s : State) (p v : Nat), v ∈ (s.port p).pba → (s.port p).canSend v = true →
    ∃ t : State, exec (.msixPendingSend p v) s = .next t ∧ (t.port p).pba = setMember (s.port p).pba v false ∧
      t.out = .msix p v ((s.port p).msix.get v {}).addr ((s.port p).msix.get v {}).data :: s.out ∧ t.mem = s.mem) ∧
  -- COMPLETION_READBACK: the completion is formed; a failed read-back makes it DELIVERY-UNCONFIRMED
  (∀ (s : State) (p tag : Nat) (ok : Bool) (r : HostRead) (v : Trv) (c : Completion),
    (s.port p).reads.find? (fun r => r.purpose = .readback tag && r.sent) = some r →
    (s.port p).reads.find? (fun u => u.id = r.id && u.sent) = some r →
    s.trv? p tag = some v → v.readback = true → v.completion = some c → v.sbLate = false →
    ∃ (t : State) (u : Trv) (x : CollectorRec), exec (.completionReadback p tag ok) s = .next t ∧ t.mem = s.mem ∧
      t.trv? p tag = some u ∧ u.readback = false ∧ u.bound = none ∧ u.completion = some x.comp ∧
      t.collector = s.collector ++ [x] ∧ x.engine = v.bound.map (·.1) ∧
      x.comp = (if ok then c else { c with status := stDeliveryUnconfirmed, result := 0, detail0 := 0, detail1 := 0 }))

/-- Doorbells, configuration and invalidation of queues, and the scan's turns (R63, R84 to R88, R94 to R96, R107, R112
to R116). What here is the model's choice is told in log entries 1, 13. -/
def Obligations.QueuesAreConfiguredAndScanned : Prop :=
  -- SQ_DOORBELL: a scan starts, or the one in progress runs one more pass
  (∀ (s : State) (p q : Nat), s.barOpen p = true → q < (s.port p).ap.sqCount → s.contained p = false →
    ((s.port p).sq q).en = true →
    exec (.sqDoorbell p q) s = .next ((s.hostTlp p 0 4).setPort p ((s.port p).setSq q
      (if ((s.port p).sq q).scanning then { (s.port p).sq q with rescan := true }
       else { (s.port p).sq q with scanning := true, rescan := false })))) ∧
  -- CQ_HEAD_DOORBELL: slots returned, or BAD_HEAD for a head that returns more than was posted; a containment
  -- ignores it
  (∀ (s : State) (p q : Nat) (h : BitVec 16), s.barOpen p = true → q < (s.port p).ap.cqCount →
    s.contained p = true → exec (.cqHeadDoorbell p q h) s = .next (s.hostTlp p 0 4)) ∧
  (∀ (s : State) (p q : Nat) (h : BitVec 16), s.barOpen p = true → s.contained p = false →
    q < (s.port p).ap.cqCount → ((s.port p).cq q).en = true →
    h.toNat < 2 ^ ((s.port p).cq q).log2 → ((s.port p).cq q).waiting = [] →
    (h.toNat + 2 ^ ((s.port p).cq q).log2 - ((s.port p).cq q).head) % 2 ^ ((s.port p).cq q).log2 ≤
      ((s.port p).cq q).unreturned →
    exec (.cqHeadDoorbell p q h) s = .next ((s.hostTlp p 0 4).setPort p ((s.port p).setCq q { (s.port p).cq q with
      head := h.toNat
      unreturned := ((s.port p).cq q).unreturned -
        (h.toNat + 2 ^ ((s.port p).cq q).log2 - ((s.port p).cq q).head) % 2 ^ ((s.port p).cq q).log2 }))) ∧
  (∀ (s : State) (p q : Nat) (h : BitVec 16), s.barOpen p = true → s.contained p = false → q < (s.port p).ap.cqCount →
    ((s.port p).cq q).en = true →
    2 ^ ((s.port p).cq q).log2 ≤ h.toNat →
    exec (.cqHeadDoorbell p q h) s =
      .next ((s.hostTlp p 0 4).setPort p ((s.port p).setCq q { (s.port p).cq q with badHead := true }))) ∧
  -- SQ_ENABLE: HEAD 0, phase 1, an empty cache; the completion queue it names must be enabled
  (∀ (s : State) (p q : Nat) (v : BitVec 32), s.barOpen p = true → v.getLsbD 31 = true → q < (s.port p).ap.sqCount →
    bitsOf v.toNat 23 16 < (s.port p).ap.cqCount → 4 ≤ bitsOf v.toNat 4 0 → bitsOf v.toNat 4 0 ≤ 16 →
    ((s.port p).sq q).en = false → s.sqIdle p q = true → ((s.port p).cq (bitsOf v.toNat 23 16)).en = true →
    exec (.sqEnable p q v) s = .next ((s.hostTlp p 0 4).setPort p ((s.port p).setSq q { (s.port p).sq q with
      en := true, cqid := bitsOf v.toNat 23 16, log2 := bitsOf v.toNat 4 0, head := 0, phase := true, cache := []
      scanning := false, rescan := false, filling := false }))) ∧
  (∀ (s : State) (p q : Nat) (v : BitVec 32), s.barOpen p = true → v.getLsbD 31 = true → q < (s.port p).ap.sqCount →
    bitsOf v.toNat 23 16 < (s.port p).ap.cqCount → 4 ≤ bitsOf v.toNat 4 0 → bitsOf v.toNat 4 0 ≤ 16 →
    ((s.port p).sq q).en = false → ((s.port p).cq (bitsOf v.toNat 23 16)).en = false →
    exec (.sqEnable p q v) s = .next ((s.hostTlp p 0 4).sqRefused p q)) ∧
  -- SQ_DISABLE: the scan and its ring reads stop and the cache is dropped
  (∀ (s : State) (p q : Nat) (v : BitVec 32), s.barOpen p = true → v.getLsbD 31 = false → q < (s.port p).ap.sqCount →
    bitsOf v.toNat 23 16 < (s.port p).ap.cqCount → 4 ≤ bitsOf v.toNat 4 0 → bitsOf v.toNat 4 0 ≤ 16 →
    ((s.port p).sq q).en = true → ((s.port p).sq q).cqid = bitsOf v.toNat 23 16 →
    ((s.port p).sq q).log2 = bitsOf v.toNat 4 0 →
    exec (.sqDisable p q v) s = .next ((s.hostTlp p 0 4).setPort p
      (((s.port p).setSq q { (s.port p).sq q with
        en := false, scanning := false, rescan := false, cache := [], filling := false }).dropRing q))) ∧
  -- CQ_ENABLE: TAIL and HEAD 0, nothing outstanding, phase 1
  (∀ (s : State) (p q : Nat) (v : BitVec 32), s.barOpen p = true → v.getLsbD 31 = true → q < (s.port p).ap.cqCount →
    bitsOf v.toNat 23 16 < (s.port p).ap.cqCount → 4 ≤ bitsOf v.toNat 4 0 → bitsOf v.toNat 4 0 ≤ 16 →
    ((s.port p).cq q).en = false →
    exec (.cqEnable p q v) s = .next ((s.hostTlp p 0 4).setPort p ((s.port p).setCq q { (s.port p).cq q with
      en := true, coal := bitsOf v.toNat 25 24, vector := bitsOf v.toNat 23 16, log2 := bitsOf v.toNat 4 0
      tail := 0, head := 0, unreturned := 0, phase := true }))) ∧
  -- CQ_DISABLE: only an idle queue is disabled; otherwise FIELD_REFUSED sets
  (∀ (s : State) (p q : Nat) (v : BitVec 32), s.barOpen p = true → v.getLsbD 31 = false → q < (s.port p).ap.cqCount →
    bitsOf v.toNat 23 16 < (s.port p).ap.cqCount → 4 ≤ bitsOf v.toNat 4 0 → bitsOf v.toNat 4 0 ≤ 16 →
    ((s.port p).cq q).en = true → ((s.port p).cq q).vector = bitsOf v.toNat 23 16 →
    ((s.port p).cq q).log2 = bitsOf v.toNat 4 0 →
    exec (.cqDisable p q v) s = .next (if s.cqIdle p q then (s.hostTlp p 0 4).setPort p ((s.port p).setCq q { (s.port p).cq q with
        en := false, coal := bitsOf v.toNat 25 24, vector := bitsOf v.toNat 23 16, log2 := bitsOf v.toNat 4 0 })
      else (s.hostTlp p 0 4).cqRefused p q)) ∧
  -- CQ_VEC_COAL_WRITE: an expert vector takes the written threshold and time at its next message
  (∀ (s : State) (p q : Nat) (v : BitVec 32), s.barOpen p = true → q < (s.port p).ap.cqCount → v.getLsbD 31 = true →
    ((s.port p).vec q).expert = true → 1 ≤ bitsOf v.toNat 8 0 → bitsOf v.toNat 8 0 ≤ 256 →
    exec (.cqVecCoalWrite p q v) s = .next ((s.hostTlp p 0 4).setPort p ((s.port p).setVec q { (s.port p).vec q with
      thresh := bitsOf v.toNat 8 0, timerUs := bitsOf v.toNat 25 16
      held := if ((s.port p).vec q).count = 0 then none else some ((s.port p).coalNow q) }))) ∧
  -- SQ_INV_WRITE and SQ_INVALIDATION: INV_BUSY until the cache is dropped and HEAD reported
  (∀ (s : State) (p q : Nat) (v : BitVec 32), s.barOpen p = true → q < (s.port p).ap.sqCount → v.getLsbD 0 = true →
    exec (.sqInvWrite p q v) s =
      .next ((s.hostTlp p 0 4).setPort p ((s.port p).setSq q { (s.port p).sq q with invBusy := true }))) ∧
  (∀ (s : State) (p q : Nat), ((s.port p).sq q).invBusy = true →
    exec (.sqInvalidation p q) s = .next (s.setPort p (((s.port p).setSq q { (s.port p).sq q with
      cache := [], filling := false, invHead := ((s.port p).sq q).head, invBusy := false }).dropRing q))) ∧
  -- SCAN_TURN: the queue whose turn it is reads up to 8 entries of its ring, in pieces no longer than the Max Read
  -- Request Size and within 4 KiB, or hands on what its cache holds
  (∀ (s : State) (p q n a : Nat), (s.port p).d3hot = false → s.contained p = false →
    (s.port p).reads.any HostRead.isRing = false → (s.port p).nextTurn = some q → ((s.port p).sq q).cache = [] →
    (s.port p).canRead = true → n = 64 * Nat.min 8 (2 ^ ((s.port p).sq q).log2 - ((s.port p).sq q).head) →
    a = ((s.port p).sq q).base.toNat + 64 * ((s.port p).sq q).head →
    exec (.scanTurn p) s = .next ((cut (s.port p).mrrs a n).foldl
      (fun (t : State) r => t.issueRead p r.1 r.2 (.ring q (r.1 - a)))
      (s.setPort p { (s.port p).setSq q { (s.port p).sq q with
        filling := true, fill := List.replicate n 0, fillLen := n } with turn := q }))) ∧
  (∀ (s : State) (p q : Nat) (e : List Byte), (s.port p).d3hot = false → s.contained p = false →
    (s.port p).reads.any HostRead.isRing = false → (s.port p).nextTurn = some q → ((s.port p).sq q).cache = [e] →
    exec (.scanTurn p) s = .next (s.setPort p { (s.port p).setSq q ((s.port p).sq q).consume with
      turn := (q + 1) % 256, handed := (s.port p).handed ++ [{ q, bytes := e }] }))

/-- The four entry types (R100, R101): accepted, and turned away. What here is the model's choice is told in log
entries 1, 60. -/
def Obligations.EntriesAreTaken : Prop :=
  -- START: it goes to admission, or completes ENTRY-INVALID for a tag in use
  (∀ (s : State) (p : Nat) (h : Handed) (rest : List Handed), (s.port p).handed = h :: rest →
    entryType h.bytes = 1 → entryOk h.bytes = true → s.tagUsed p (entryTag h.bytes) = false →
    s.foreign p (entryAddr h.bytes 8) 64 = false → s.foreign p (entryAddr h.bytes 16) 256 = false →
    ∃ t : State, exec (.startEntry p) s = .next t ∧ (t.port p).handed = rest ∧ t.collector = s.collector ∧
    t.mem = s.mem ∧
      t.admitting = s.admitting ++ [{ port := p, q := h.q, entry := h.bytes, since := s.devMs, order := s.seqNo }]) ∧
  (∀ (s : State) (p : Nat) (h : Handed) (rest : List Handed), (s.port p).handed = h :: rest →
    entryType h.bytes = 1 → entryOk h.bytes = true → s.tagUsed p (entryTag h.bytes) = true →
    ∃ t c, exec (.startEntry p) s = .next t ∧ t.admitting = s.admitting ∧
      t.collector = s.collector ++ [c] ∧ c.comp.status = stEntryInvalid ∧ c.comp.result = 2 ∧
      c.comp.tag = entryTag h.bytes) ∧
  -- RESUME: a held traverse at the station named is ready again
  (∀ (s : State) (p : Nat) (h : Handed) (rest : List Handed) (v : Trv), (s.port p).handed = h :: rest →
    entryType h.bytes = 2 → entryOk h.bytes = true → s.trv? p (entryTarget h.bytes) = some v → v.state = .held →
    v.station = entryStation h.bytes →
    ∃ t c, exec (.resumeEntry p) s = .next t ∧ (t.port p).handed = rest ∧
      t.trvs = (s.putTrv { v.toReady with released := some v.station }).trvs ∧
      t.collector = s.collector ++ [c] ∧ c.comp.status = stOk ∧ t.mem = s.mem) ∧
  -- NOP: it completes OK
  (∀ (s : State) (p : Nat) (h : Handed) (rest : List Handed), (s.port p).handed = h :: rest →
    entryType h.bytes = 3 → entryOk h.bytes = true →
    ∃ t c, exec (.nopEntry p) s = .next t ∧ (t.port p).handed = rest ∧ t.trvs = s.trvs ∧ t.mem = s.mem ∧
      t.collector = s.collector ++ [c] ∧ c.comp.status = stOk ∧ c.comp.tag = entryTag h.bytes) ∧
  -- NOTE-REQUEST: a running traverse keeps it until its next leg start, park or end
  (∀ (s : State) (p : Nat) (h : Handed) (rest : List Handed) (v : Trv), (s.port p).handed = h :: rest →
    entryType h.bytes = 4 → entryOk h.bytes = true → s.trv? p (entryTarget h.bytes) = some v → v.state = .running →
    ∃ t : State, exec (.noteRequest p) s = .next t ∧ (t.port p).handed = rest ∧ t.collector = s.collector ∧
    t.mem = s.mem ∧
      t.trvs = (s.putTrv { v with notes := v.notes ++
        [{ q := h.q, tag := entryTag h.bytes, urgent := entryUrgent h.bytes }] }).trvs)

/-! ### Traverses: admission, binding, timers, stations -/

/-- ADMISSION (R38, R126, R129): the START whose turn it is has its quota checked, then its header read; a failed read
and a full quota are refusals that complete the entry. A traverse that becomes live (R120, R127, R128): with NOWAIT
clear it is pending until its extents can be reserved; it takes its budget, deadline, priority, tenant and status
block from entry and header. What here is the model's choice is told in log entries 9, 47, 54. -/
def Obligations.StartsAreAdmitted : Prop :=
  -- the header is read from host memory
  (∀ (s : State) (a : Admitting), s.nextAdmit = some a → a.fault = none → a.header = none →
    s.liveCount a.port < (s.port a.port).ap.trvQuota → isBufAddr (entryAddr a.entry 8) = false →
    (s.port a.port).canRead = true →
    exec .admission s = .next
      ((s.putAdmit a { a with reading := true }).issueRead a.port (entryAddr a.entry 8).toNat 64 .header)) ∧
  -- the header has come: its checks, and those of its run list, are made
  (∀ (s : State) (a : Admitting) (h : List Byte), s.nextAdmit = some a → a.fault = none → a.header = some h →
    exec .admission s = .next (s.admitHeader a h)) ∧
  -- all checks passed, with the runs in the header: the traverse becomes live
  (∀ (s : State) (a : Admitting) (h : List Byte) (runs : List Run), s.nextAdmit = some a → a.fault = none →
    a.header = some h → headerOk h = true → hdrList h = false → s.foreign a.port (hdrSb h) 256 = false →
    runsOk (chunks 8 (hdrRuns h) (h.drop 32)) = true → runs = (chunks 8 (hdrRuns h) (h.drop 32)).map runOf →
    (∀ r ∈ runs, ∀ i, i < r.count → s.ownsExtent a.port (r.first + i) = true) →
    exec .admission s = .next (s.goLive a h runs)) ∧
  -- a header in buffer memory is read at once, and the checks follow; one that names no run makes the traverse live
  (∀ (s u : State) (a : Admitting) (h : List Byte), s.nextAdmit = some a → a.fault = none → a.header = none →
    s.liveCount a.port < (s.port a.port).ap.trvQuota → isBufAddr (entryAddr a.entry 8) = true →
    s.readable (bufPos (entryAddr a.entry 8)) 64 = (u, true) →
    s.poisoned (bufPos (entryAddr a.entry 8)) 64 = false → h = s.readBuf (bufPos (entryAddr a.entry 8)) 64 →
    headerOk h = true → hdrList h = false → hdrRuns h = 0 → s.foreign a.port (hdrSb h) 256 = false →
    exec .admission s =
      .next ((u.putAdmit a { a with header := some h }).goLive { a with header := some h } h [])) ∧
  -- a stack that sleeps wakes first
  (∀ (s u : State) (a : Admitting), s.nextAdmit = some a → a.fault = none → a.header = none →
    s.liveCount a.port < (s.port a.port).ap.trvQuota → isBufAddr (entryAddr a.entry 8) = true →
    s.readable (bufPos (entryAddr a.entry 8)) 64 = (u, false) →
    exec .admission s = .next u ∧ u.admitting = s.admitting ∧ u.trvs = s.trvs ∧ u.mem = s.mem) ∧
  -- a header of another form is refused ENTRY-INVALID
  (∀ (s : State) (a : Admitting) (h : List Byte), s.nextAdmit = some a → a.fault = none → a.header = some h →
    headerOk h = false → exec .admission s = .next (s.admitRefuse a stEntryInvalid)) ∧
  -- the quota is full: ADMISSION-REFUSED, and nothing becomes live
  (∀ (s : State) (a : Admitting), s.nextAdmit = some a → a.fault = none → a.header = none →
    (s.port a.port).ap.trvQuota ≤ s.liveCount a.port →
    ∃ t c, exec .admission s = .next t ∧ t.trvs = s.trvs ∧ t.reservations = s.reservations ∧ t.mem = s.mem ∧
      t.admitting = s.admitting.erase a ∧ t.collector = s.collector ++ [c] ∧ c.comp.status = stAdmissionRefused ∧
      c.comp.tag = entryTag a.entry) ∧
  -- a read of its header or run list failed
  (∀ (s : State) (a : Admitting) (st : BitVec 8), s.nextAdmit = some a → a.fault = some st →
    exec .admission s = .next (s.admitRefuse a st)) ∧
  (∀ (s : State) (a : Admitting) (h : List Byte) (runs : List Run), hdrNowait h = false →
    s.trv? a.port (entryTag a.entry) = none →
    ∃ v, (s.goLive a h runs).trv? a.port (entryTag a.entry) = some v ∧ v.runs = runs ∧
      v.budget = (if hdrBudget h = 0 then 65536 else hdrBudget h) ∧
      v.deadline = (if hdrDeadline h = 0 then none else some (a.since + hdrDeadline h)) ∧
      v.prio = byteAt a.entry 5 ∧ v.tenant = byteAt a.entry 4 ∧ v.station = 0 ∧
      v.sb = (if entryAddr a.entry 16 = 0 then hdrSb h else entryAddr a.entry 16) ∧
      (v.state = .pending ∨ v.state = .ready) ∧ (s.goLive a h runs).mem = s.mem)

/-- BIND (R34, R131, R133, R413, R557): a ready traverse is bound to the engine of its set with the most free
subchannels, or joins a ready list when none is free; an engine takes the head of its party's list. -/
def Obligations.ReadyTraversesAreBound : Prop :=
  (∀ (s : State) (p tag e : Nat) (v : Trv), s.trv? p tag = some v → v.state = .ready → v.readyParty = none →
    s.contained p = false → s.bestEngine v.engineSet = some e →
    s.stacksReady v (quarterOfParty (partyOfEngine e)) = true →
    exec (.bind (.traverse p tag)) s = .next (s.bindTo v e)) ∧
  (∀ (s : State) (p tag : Nat) (v : Trv), s.trv? p tag = some v → v.state = .ready → v.readyParty = none →
    s.contained p = false → s.bestEngine v.engineSet = none →
    exec (.bind (.traverse p tag)) s = .next (({ s with seqNo := s.seqNo + 1 } : State).putTrv
      { v with readyParty := some (s.listParty v), readyAt := s.devMs, readySeq := s.seqNo })) ∧
  (∀ (s : State) (e : Nat) (v : Trv), s.readyHead (partyOfEngine e) = some v → (s.busySubs e).length < 32 →
    s.stacksReady v (quarterOfParty (partyOfEngine e)) = true →
    exec (.bind (.engine e)) s = .next (s.bindTo v e)) ∧
  -- bound: the lowest free subchannel, the state RUNNING
  (∀ (s : State) (v : Trv) (e : Nat), v ∈ s.trvs → (s.busySubs e).length < 32 → s.entryLost v = false →
    ∃ u, u ∈ (s.bindTo v e).trvs ∧ u.port = v.port ∧ u.tag = v.tag ∧ u.state = .running ∧
      (∃ c, u.bound = some (e, c) ∧ c < 32 ∧ c ∉ s.busySubs e ∧ ∀ d, d < c → d ∈ s.busySubs e) ∧
      (s.bindTo v e).mem = s.mem) ∧
  -- parked state that is poisoned is a CONTROL-POISON event and a fault of the device
  (∀ (s : State) (v : Trv) (e n : Nat), (s.busySubs e).length < 32 → v.entry = some n → n < 65536 →
    s.entryLost v = true →
    ∃ b, b ∈ entryBeats n ∧ b ∈ s.poison ∧ s.bindTo v e = (s.beatEvent 0x04 b).startDevice 0x11 none)

/-- The timers of a traverse (R134, R151, R154, R211, R213). What here is the model's choice is told in log entries
16, 17, 22. -/
def Obligations.TraverseTimersExpire : Prop :=
  -- RESPONSE_PARK_EXPIRY: the traverse gives up its subchannel to others that wait
  (∀ (s : State) (p tag e c : Nat) (v : Trv), s.trv? p tag = some v → v.bound = some (e, c) → v.state = .running →
    v.stage = .awaiting → waitsParked (legOp v.leg) = true → s.readyList (partyOfEngine e) ≠ [] →
    exec (.responseParkExpiry p tag) s = .next (s.park v .responseParked)) ∧
  -- DEADLINE_EXPIRY: a pending traverse is refused, a held one ends WAIT-TIMEOUT, a running one is marked
  (∀ (s : State) (p tag d : Nat) (v : Trv), s.trv? p tag = some v → v.deadline = some d → v.state = .pending →
    exec (.deadlineExpiry p tag) s = .next (s.endTrv { v with lastStatus := stAdmissionRefused, residual := 0 }
      { status := stAdmissionRefused, station := 0, entry := true })) ∧
  (∀ (s : State) (p tag d : Nat) (v : Trv), s.trv? p tag = some v → v.deadline = some d → v.state = .held →
    exec (.deadlineExpiry p tag) s = .next (s.endAt v stWaitTimeout (groupLen (v.group.take 1)))) ∧
  (∀ (s : State) (p tag d : Nat) (v : Trv), s.trv? p tag = some v → v.deadline = some d → v.state = .running →
    exec (.deadlineExpiry p tag) s = .next (s.putTrv { v with deadlinePassed := true })) ∧
  -- WAIT_DEADLINE_EXPIRY: WAIT-TIMEOUT with LEG_INFO 5
  (∀ (s : State) (p tag : Nat) (v : Trv), s.trv? p tag = some v → v.state = .waiting →
    exec (.waitDeadlineExpiry p tag) s = .next (s.endAt { v with legInfo := 5 } stWaitTimeout 0)) ∧
  -- PAUSE_EXPIRY: the PAUSE leg ends OK
  (∀ (s : State) (p tag : Nat) (v : Trv), s.trv? p tag = some v → v.state = .pausing →
    exec (.pauseExpiry p tag) s = .next (s.legDone v { status := stOk }))

/-- STATION_START (R136, R146, R149, R151, R167): the leg is fetched; a HOLD leg not yet released parks the traverse;
a leg past the budget ends it LEG-BUDGET; a passed deadline ends it WAIT-TIMEOUT; otherwise the leg is counted. What
here is the model's choice is told in log entries 17, 18. -/
def Obligations.StationsStart : Prop :=
  -- a station in host memory not fetched yet: one read of its fetch group
  (∀ (s : State) (p tag : Nat) (v : Trv), s.trv? p tag = some v → v.state = .running → v.bound.isSome = true →
    v.fetching = false → v.stage = .fresh → v.run = [] → v.fetched = [] → isBufAddr v.addr = false →
    (s.port v.port).canRead = true →
    exec (.stationStart p tag) s = .next
      ((s.putTrv { v with fetching := true, groupBase := v.station }).issueRead v.port (v.legAddrAt v.station)
        (32 * v.groupCount v.station) (.legs v.tag v.station (v.groupCount v.station)))) ∧
  -- the deadline has passed
  (∀ (s : State) (p tag : Nat) (v : Trv) (b : List Byte), s.trv? p tag = some v → v.state = .running →
    v.bound.isSome = true → v.fetching = false → v.stage = .fresh → v.run = [] →
    v.fetched.find v.station = some (.leg b) → v.deadlinePassed = true →
    exec (.stationStart p tag) s = .next (s.endAt v stWaitTimeout (groupLen [b]))) ∧
  -- HOLD
  (∀ (s : State) (p tag : Nat) (v : Trv) (b : List Byte), s.trv? p tag = some v → v.state = .running →
    v.bound.isSome = true → v.fetching = false → v.stage = .fresh → v.run = [] →
    v.fetched.find v.station = some (.leg b) → v.deadlinePassed = false → legHold b = true →
    v.released ≠ some v.station → v.sb = 0 →
    exec (.stationStart p tag) s = .next (s.park { v with state := .held, group := [b] } .held)) ∧
  -- the budget is exhausted
  (∀ (s : State) (p tag : Nat) (v : Trv) (b : List Byte), s.trv? p tag = some v → v.state = .running →
    v.bound.isSome = true → v.fetching = false → v.stage = .fresh → v.run = [] →
    v.fetched.find v.station = some (.leg b) → v.deadlinePassed = false → legHold b = false →
    v.groupHere = .got [b] → v.budget < v.legs + 1 →
    exec (.stationStart p tag) s = .next (s.endAt { v with
      group := [b], fetched := v.fetched.filter fun f => v.groupBase ≤ f.1 && f.1 < v.groupBase + 4 }
      stLegBudget (groupLen [b]))) ∧
  -- counted and checked: an END leg without waiters or notes is ready to be performed
  (∀ (s : State) (p tag : Nat) (v : Trv) (b : List Byte), s.trv? p tag = some v → v.state = .running →
    v.bound.isSome = true → v.fetching = false → v.stage = .fresh → v.run = [] →
    v.fetched.find v.station = some (.leg b) → v.deadlinePassed = false → legFlags b = 0 → b.length = 32 →
    legOp b = 0x47 → zeroAt b 2 30 = true → v.groupHere = .got [b] → v.legs + 1 ≤ v.budget → v.notes = [] →
    s.waitersOn p tag (some (v.station, 1)) = [] →
    ∃ t u, exec (.stationStart p tag) s = .next t ∧ t.trv? p tag = some u ∧ u.stage = .ready ∧ u.legs = v.legs + 1 ∧
      u.group = [b] ∧ t.mem = s.mem)

/-! ### Legs -/

/-- The end of a leg (R139 to R142, R156, R168, R170): OK with NEXT, or of a GOTO, which ignores it, goes on to the
next station, or to where a GOTO or TEST leads, with the status and LEG_INFO recorded; OK without NEXT, and any status
that does not continue, ends the traverse with that status at this station. Past the last station RESIDUAL stays as it
was: the model's choice (log entry 61). A bound traverse whose leg ended OK and continues keeps running, and nothing
else of the device changes. -/
def Obligations.LegEndsContinueOrEnd : Prop :=
  (∀ (v : Trv) (r : LegResult), r.status = stOk → r.sense = [] →
    (legNext (v.group.getLastD []) = true ∨ legOp v.leg = 0x40) →
    legOp v.leg ≠ 0x47 → r.jump.getD (v.station + v.group.length) ≤ maxStation →
    ∃ u, v.afterLeg r = (u, none) ∧ u.station = r.jump.getD (v.station + v.group.length) ∧ u.stage = .fresh ∧
      u.group = [] ∧ u.released = none ∧ u.legInfo = r.info.getD v.legInfo ∧ u.residual = v.residual ∧
      u.shortCount = v.shortCount ∧
      u.lastStatus = (if keepsLast (legOp v.leg) then v.lastStatus else stOk)) ∧
  (∀ (v : Trv) (r : LegResult), continuing r.status (shortOkOf v.leg) = false →
    ∃ u, v.afterLeg r = (u, some (r.ending v.station v.sb)) ∧ u.lastStatus = r.status ∧ u.station = v.station ∧
      u.legInfo = r.info.getD v.legInfo ∧ u.residual = r.residual) ∧
  (∀ (v : Trv) (r : LegResult), r.status = stOk → (legNext (v.group.getLastD []) = false ∨ legOp v.leg = 0x47) →
    legOp v.leg ≠ 0x40 → ∃ u, v.afterLeg r = (u, some (r.ending v.station v.sb))) ∧
  (∀ (v : Trv) (r : LegResult), r.status = stOk → (legNext (v.group.getLastD []) = true ∨ legOp v.leg = 0x40) →
    legOp v.leg ≠ 0x47 → maxStation < r.jump.getD (v.station + v.group.length) →
    ∃ u, v.afterLeg r = (u, some { status := stLegInvalid, station := v.station }) ∧ u.lastStatus = stLegInvalid ∧
      u.residual = v.residual) ∧
  (∀ (s : State) (p tag : Nat) (v : Trv) (r : LegResult), s.trv? p tag = some v → v.bound.isSome = true →
    r.status = stOk → r.sense = [] → (legNext (v.group.getLastD []) = true ∨ legOp v.leg = 0x40) →
    legOp v.leg ≠ 0x47 →
    r.jump.getD (v.station + v.group.length) ≤ maxStation →
    s.legDone v r = s.putTrv (v.afterLeg r).1 ∧ (s.legDone v r).mem = s.mem ∧ (s.legDone v r).out = s.out ∧
    (s.legDone v r).reservations = s.reservations)

/-- The control legs (R150 to R154, R208 to R213, R217). What here is the model's choice is told in log entries 10,
16. -/
def Obligations.ControlLegsAct : Prop :=
  -- GOTO: it continues at STATION; one that leads to another GOTO is LEG-INVALID
  (∀ (s : State) (p tag : Nat) (v : Trv) (b : List Byte), AtLeg s p tag 0x40 v → v.fetching = false →
    v.fetched.find (fieldAt v.leg 16 4) = some (.leg b) →
    exec (.legGoto p tag) s = .next (s.legDone v
      (if legOp b = 0x40 then { status := stLegInvalid } else { status := stOk, jump := some (fieldAt v.leg 16 4) }))) ∧
  -- TEST on the last status or LEG_INFO: a condition that holds skips one station
  (∀ (s : State) (p tag : Nat) (v : Trv), AtLeg s p tag 0x41 v → testReads (legByte v.leg 16) = false →
    exec (.legTest p tag) s = .next (s.legDone { v with operand := none } {
      status := stOk
      jump := if testHolds (legByte v.leg 16) (fieldAt v.leg 24 8) v.lastStatus.toNat v.legInfo.toNat 0
        then some (v.station + 2) else none })) ∧
  -- TEST on host memory reads its operand; on buffer memory it is compared at once, its stack awake
  (∀ (s : State) (p tag : Nat) (v : Trv), AtLeg s p tag 0x41 v → testReads (legByte v.leg 16) = true →
    isBufAddr (legAddr v.leg) = false → (s.port p).canRead = true →
    exec (.legTest p tag) s = .next ((s.putTrv { v with stage := .awaiting }).issueRead p (legAddr v.leg).toNat
      (8 / 2 ^ legByte v.leg 17) (.operand tag))) ∧
  (∀ (s u : State) (p tag : Nat) (v : Trv), AtLeg s p tag 0x41 v → testReads (legByte v.leg 16) = true →
    isBufAddr (legAddr v.leg) = true → s.readable (bufPos (legAddr v.leg)) (8 / 2 ^ legByte v.leg 17) = (u, true) →
    s.poisoned (bufPos (legAddr v.leg)) (8 / 2 ^ legByte v.leg 17) = false →
    exec (.legTest p tag) s = .next (u.testEnds v
      (leNat (s.readBuf (bufPos (legAddr v.leg)) (8 / 2 ^ legByte v.leg 17))))) ∧
  -- WAIT: OK when the tag is not live, ended or at the station; WAIT-CIRCLE for a cycle; otherwise the traverse parks
  (∀ (s : State) (p tag : Nat) (v : Trv), AtLeg s p tag 0x42 v → s.trv? p (fieldAt v.leg 16 2) = none →
    exec (.legWait p tag) s = .next (s.legDone v { status := stOk, info := some 2 })) ∧
  (∀ (s : State) (p tag : Nat) (v u : Trv), AtLeg s p tag 0x42 v → s.trv? p (fieldAt v.leg 16 2) = some u →
    u.state ≠ .ended → u.standsAt (fieldAt v.leg 20 4) = false → v.deadlinePassed = false →
    exec (.legWait p tag) s = .next (if s.waitsFor p (s.trvs.length + 1) (fieldAt v.leg 16 2) tag then
        s.legDone v { status := stCircle, info := some 4 }
      else s.park { v with waitOn := some { tag := fieldAt v.leg 16 2, station := fieldAt v.leg 20 4 } } .waiting)) ∧
  (∀ (s : State) (p tag : Nat) (v u : Trv), AtLeg s p tag 0x42 v → s.trv? p (fieldAt v.leg 16 2) = some u →
    u.state ≠ .ended → u.standsAt (fieldAt v.leg 20 4) = true →
    exec (.legWait p tag) s = .next (s.legDone v { status := stOk, info := some 3 })) ∧
  -- WAIT, PAUSE and BOOK that would park after the traverse's deadline end it WAIT-TIMEOUT
  (∀ (s : State) (p tag : Nat) (v : Trv), AtLeg s p tag 0x45 v → v.deadlinePassed = true →
    exec (.legPause p tag) s = .next (s.endAt { v with state := .pausing } stWaitTimeout 0)) ∧
  -- NOTE: a record with the code of the leg, then OK
  (∀ (s : State) (p tag : Nat) (v : Trv), AtLeg s p tag 0x44 v →
    exec (.legNote p tag) s = .next ((s.writeRecord v 0x02 (fieldAt v.leg 16 2)).1.legDone
      (s.writeRecord v 0x02 (fieldAt v.leg 16 2)).2 { status := stOk })) ∧
  -- PAUSE: the traverse parks
  (∀ (s : State) (p tag : Nat) (v : Trv), AtLeg s p tag 0x45 v → v.deadlinePassed = false →
    exec (.legPause p tag) s = .next (s.park v .pausing)) ∧
  -- END: the traverse ends OK
  (∀ (s : State) (p tag : Nat) (v : Trv), AtLeg s p tag 0x47 v →
    exec (.legEnd p tag) s = .next (s.legDone v { status := stOk }))

/-- BOOK and RELEASE (R135, R204, R205, R554). What here is the model's choice is told in log entries 23, 61. -/
def Obligations.OutingLegsBookAndRelease : Prop :=
  -- BOOK of a shelf without an enclosure, the chain's discovery over: OUTING-CLOSED, LEG_INFO 3
  (∀ (s : State) (p tag : Nat) (v : Trv), AtLeg s p tag 0x30 v → s.populated (legByte v.leg 16) = false →
    (s.chain (chainOfShelf (legByte v.leg 16))).discovering = false →
    exec (.legBook p tag) s = .next (s.legDone v { status := stOutingClosed, info := some 3 })) ∧
  -- BOOK of an open shelf: a booking, LEG_INFO 0
  (∀ (s : State) (p tag : Nat) (v : Trv), AtLeg s p tag 0x30 v → s.populated (legByte v.leg 16) = true →
    (v.bookings.any fun b => b.shelf = legByte v.leg 16 && !b.lapsed) = false →
    (s.shelf (legByte v.leg 16)).state = .opened → v.bookingsFull (legByte v.leg 16) = false →
    exec (.legBook p tag) s = .next
      (((s.putTrv (v.withBooking (legByte v.leg 16))).workChanged (legByte v.leg 16)).withTrv p tag fun u =>
        ((s.putTrv (v.withBooking (legByte v.leg 16))).workChanged (legByte v.leg 16)).legDone u
          { status := stOk, info := some 0 })) ∧
  -- BOOK of a dark shelf, or of one whose chain is still being discovered: the traverse joins its basket and parks
  -- there
  (∀ (s : State) (p tag : Nat) (v : Trv), AtLeg s p tag 0x30 v →
    (s.populated (legByte v.leg 16) = true ∨ (s.chain (chainOfShelf (legByte v.leg 16))).discovering = true) →
    (v.bookings.any fun b => b.shelf = legByte v.leg 16 && !b.lapsed) = false →
    (s.shelf (legByte v.leg 16)).state = .dark → bitN (legByte v.leg 17) 0 = false →
    v.bookingsFull (legByte v.leg 16) = false → v.sb = 0 → v.deadlinePassed = false →
    exec (.legBook p tag) s = .next
      ((((s.modShelf (legByte v.leg 16) fun x =>
          { x with basket := x.basket ++ [{ port := p, tag, joined := s.devMs }] }).park
        { v with state := .basket (legByte v.leg 16) } (.basket (legByte v.leg 16)))).rivalsChanged
        (chainOfShelf (legByte v.leg 16)))) ∧
  -- BOOK with NOWAIT of a shelf that is not open: OUTING-CLOSED, LEG_INFO 2
  (∀ (s : State) (p tag : Nat) (v : Trv), AtLeg s p tag 0x30 v → s.populated (legByte v.leg 16) = true →
    (v.bookings.any fun b => b.shelf = legByte v.leg 16 && !b.lapsed) = false →
    (s.shelf (legByte v.leg 16)).state ≠ .opened → (s.shelf (legByte v.leg 16)).state ≠ .retired →
    bitN (legByte v.leg 17) 0 = true →
    exec (.legBook p tag) s = .next (s.legDone v { status := stOutingClosed, info := some 2 })) ∧
  -- RELEASE: OK, LEG_INFO 1 if a booking was held, and the outing's work falls
  (∀ (s : State) (p tag : Nat) (v : Trv), AtLeg s p tag 0x31 v →
    v.bookings = [] →
    exec (.legRelease p tag) s = .next ((s.putTrv v).legDone v { status := stOk, info := some 0 })) ∧
  (∀ (s : State) (p tag : Nat) (v : Trv), AtLeg s p tag 0x31 v →
    (v.bookings.any fun b => b.shelf = legByte v.leg 16 && !b.lapsed) = true →
    exec (.legRelease p tag) s = .next
      (((s.putTrv { v with bookings := v.bookings.filter fun b => b.shelf ≠ legByte v.leg 16 }).workChanged
        (legByte v.leg 16)).withTrv p tag fun u =>
      ((s.putTrv { v with bookings := v.bookings.filter fun b => b.shelf ≠ legByte v.leg 16 }).workChanged
        (legByte v.leg 16)).legDone u { status := stOk, info := some 1 }))

/-- The device legs on the party that owns their chain (R171 to R180, R190, R191, R196, R197, R381): commands and task
management functions are handed to the wide port, and the traverse awaits them. What here is the model's choice is
told in log entries 7, 19, 47. -/
def Obligations.DeviceLegsHandOver : Prop :=
  -- ISSUE: the 16 bytes of the leg are the CDB
  (∀ (s : State) (p tag : Nat) (v : Trv), AtLeg s p tag 0x10 v →
    exec (.legIssue p tag) s = .next (s.issue v (v.leg.drop 16))) ∧
  (∀ (s : State) (v : Trv) (cdb : List Byte), (s.handle (legHandle v.leg)).attached.isSome = true →
    ∃ c, (s.issue v cdb).chain (chainOfHandle (legHandle v.leg)) =
        { s.chain (chainOfHandle (legHandle v.leg)) with
          cmds := (s.chain (chainOfHandle (legHandle v.leg))).cmds ++ [c]
          nextId := (s.chain (chainOfHandle (legHandle v.leg))).nextId + 1 } ∧
      c.handle = legHandle v.leg ∧ c.cdb = cdb ∧ c.dir = legDir v.leg ∧ c.len = (v.group.map legLen).sum ∧
      c.owner = .leg v.port v.tag v.station ∧ c.sent = false ∧ (s.issue v cdb).mem = s.mem) ∧
  -- ISSUE-EXT: the CDB is read first
  (∀ (s u : State) (p tag : Nat) (v : Trv), AtLeg s p tag 0x11 v → isBufAddr (legOperand v.leg) = true →
    s.readable (bufPos (legOperand v.leg)) (legByte v.leg 24) = (u, true) →
    s.poisoned (bufPos (legOperand v.leg)) (legByte v.leg 24) = false →
    exec (.legIssueExt p tag) s =
      .next (u.issue v (s.readBuf (bufPos (legOperand v.leg)) (legByte v.leg 24)))) ∧
  -- TASK: a function that names a command already sent goes out; one that names none ends OK, NOT-SENT
  (∀ (s : State) (p tag : Nat) (v : Trv), AtLeg s p tag 0x12 v → namesOne (legByte v.leg 16) = false →
    (s.handle (legHandle v.leg)).attached.isSome = true →
    exec (.legTask p tag) s = .next ((s.putTrv { v with stage := .awaiting }).sendTmf (legHandle v.leg)
      (legByte v.leg 16) none (.leg p tag))) ∧
  -- ENCLOSURE: a diagnostic page read or written through the shelf's enclosure services handle
  (∀ (s : State) (p tag : Nat) (v : Trv), AtLeg s p tag 0x13 v →
    (s.handle (enclosureHandle (legByte v.leg 16))).attached.isSome = true →
    ∃ t c, exec (.legEnclosure p tag) s = .next t ∧
      (t.chain (chainOfHandle (enclosureHandle (legByte v.leg 16)))).cmds.getLast? = some c ∧
      c.handle = enclosureHandle (legByte v.leg 16) ∧ c.len = legLen v.leg ∧
      c.dir = (if legByte v.leg 18 = 1 then 1 else 2) ∧ t.mem = s.mem ∧
      t.trvs = (s.putTrv { v with stage := .awaiting }).trvs) ∧
  (∀ (s : State) (p tag : Nat) (v : Trv), AtLeg s p tag 0x13 v →
    (s.handle (enclosureHandle (legByte v.leg 16))).attached = none →
    exec (.legEnclosure p tag) s = .next (s.legDone { v with stage := .awaiting }
      { status := stLinkLost, info := some (issueInfo 0 4 []), residual := legLen v.leg })) ∧
  -- FLUSH-SPAN: FLUSHING sets and the accumulator's write is issued; TAINTED and a short count end it
  (∀ (s : State) (p tag : Nat) (v : Trv), AtLeg s p tag 0x24 v →
    (s.accums.any fun a => a.desc = bufAddr (flushDesc v.leg)) = true →
    bitN (accState (s.readBuf (flushDesc v.leg) 64)) 1 = false →
    accCount (s.readBuf (flushDesc v.leg) 64) = accTotal (s.readBuf (flushDesc v.leg) 64) →
    (s.handle (accHandle (s.readBuf (flushDesc v.leg) 64))).attached.isSome = true →
    exec (.legFlushSpan p tag) s = .next
      ((((s.putTrv { v with stage := .awaiting, flushing := some (bufAddr (flushDesc v.leg)) }).setFlushing
        (bufAddr (flushDesc v.leg)) true).handOver (accHandle (s.readBuf (flushDesc v.leg) 64))
        (.leg p tag v.station) (accCdb (s.readBuf (flushDesc v.leg) 64)) 2
        (accLength (s.readBuf (flushDesc v.leg) 64))
        [{ addr := some (accFirst (s.readBuf (flushDesc v.leg) 64) * 65536)
           len := accLength (s.readBuf (flushDesc v.leg) 64) }]).modChain
        (chainOfHandle (accHandle (s.readBuf (flushDesc v.leg) 64))) fun x => x.modLast fun c =>
          { c with flush := some (bufAddr (flushDesc v.leg)) })) ∧
  (∀ (s : State) (p tag : Nat) (v : Trv), AtLeg s p tag 0x24 v →
    (s.accums.any fun a => a.desc = bufAddr (flushDesc v.leg)) = true →
    bitN (accState (s.readBuf (flushDesc v.leg) 64)) 1 = true →
    exec (.legFlushSpan p tag) s = .next (s.flushEnds v stTainted 0x11 0)) ∧
  -- GATHER of one descriptor: its command is handed over
  (∀ (s : State) (p tag : Nat) (v : Trv), AtLeg s p tag 0x26 v → legByte v.leg 17 = 1 → legByte v.leg 16 = 1 →
    (s.handle (legHandle (v.descriptor s 0))).attached.isSome = true →
    chainOfHandle (legHandle (v.descriptor s 0)) < 12 →
    ∃ t g u, exec (.legGather p tag) s = .next t ∧ t.mem = s.mem ∧ t.trv? p tag = some u ∧ u.gather = some g ∧
      g.k = 1 ∧ g.n = 1 ∧ g.arrived = [] ∧ u.stage = .awaiting ∧
      (t.chain (chainOfHandle (legHandle (v.descriptor s 0)))).cmds =
        (s.chain (chainOfHandle (legHandle (v.descriptor s 0)))).cmds ++
        [{ id := (s.chain (chainOfHandle (legHandle (v.descriptor s 0)))).nextId, handle := legHandle (v.descriptor s 0)
           owner := .gather p tag 0, cdb := (v.descriptor s 0).drop 16, dir := 1, len := legLen (v.descriptor s 0)
           segments := [{ addr := some (bufPos (legAddr (v.descriptor s 0))), len := legLen (v.descriptor s 0) }] }])

/-- STAGE-IN and STAGE-OUT (R181 to R184). What here is the model's choice is told in log entry 15. -/
def Obligations.StageLegsMoveData : Prop :=
  -- STAGE-IN: the host range is read in requests of at most the Max Read Request Size
  (∀ (s : State) (p tag : Nat) (v : Trv), AtLeg s p tag 0x20 v → (s.port p).canRead = true →
    exec (.legStageIn p tag) s = .next ((cut (s.port p).mrrs (fieldAt v.leg 16 8) (v.group.map legLen).sum).foldl
      (fun (s : State) (a : Nat × Nat) => s.issueRead p a.1 a.2 (.stageIn tag (a.1 - fieldAt v.leg 16 8)))
      (s.putTrv { v with stage := .awaiting, staged := 0, poisonBeats := [], stageFault := none }))) ∧
  (∀ (s : State) (p tag : Nat) (v : Trv), AtLeg s p tag 0x20 v → (s.port p).canRead = false →
    exec (.legStageIn p tag) s = .next (s.legDone v
      { status := stFetchFault, info := some 0, residual := (v.group.map legLen).sum })) ∧
  -- one request, once answered, ends it OK: its bytes are stored from the group's first segment on
  (∀ (s : State) (p tag : Nat) (v : Trv) (bs : List Byte), AtLeg s p tag 0x20 v → (s.port p).canRead = true →
    (s.port p).inFlight < (s.port p).tagLimit →
    (∀ r ∈ (s.port p).reads, r.id ≠ s.seqNo ∧ ∀ pos, r.purpose ≠ .stageIn tag pos) →
    cut (s.port p).mrrs (fieldAt v.leg 16 8) (v.group.map legLen).sum = [(fieldAt v.leg 16 8, bs.length)] →
    ∃ t, exec (.legStageIn p tag) s = .next t ∧
      Output.hostRead p s.seqNo (fieldAt v.leg 16 8) bs.length ∈ t.out ∧
      exec (.hostReadCompletion p s.seqNo (.data bs false)) t = .next
        ((((t.countTlp p 0 (t.tenantOf p tag) (tlpBytes (fieldAt v.leg 16 8) bs.length)).modPort p (fun x =>
          { x with reads := x.reads.filter fun u => decide (u.id ≠ s.seqNo) })).sendRead p).placeBytes
            (segmentsOf v.group) 0 bs false |>.legDone
          { v with stage := .awaiting, staged := bs.length, bytes := v.bytes + bs.length, poisonBeats := []
                   stageFault := none }
          { status := stOk, info := some 0, moved := true })) ∧
  -- STAGE-OUT without READBACK ends OK as soon as its writes are made, when no beat of it is poisoned
  (∀ (s : State) (p tag : Nat) (v : Trv), AtLeg s p tag 0x21 v → bitN (legByte v.leg 24) 0 = false →
    ((segmentBeats (segmentsOf v.group) 0 (v.group.map legLen).sum).any fun b => b ∈ s.poison) = false →
    exec (.legStageOut p tag) s = .next
      ((((cut (s.port p).mps (fieldAt v.leg 16 8) (v.group.map legLen).sum).foldl
        (fun (s' : State) (a : Nat × Nat) => s'.hostWrite p tag a.1
          (s'.segmentBytes (segmentsOf v.group) (a.1 - fieldAt v.leg 16 8) a.2) (s.port p).relaxed
          (s'.segmentPoison (segmentsOf v.group) (a.1 - fieldAt v.leg 16 8) a.2)) s).met (fun b => decide
            (b ∈ segmentBeats (segmentsOf v.group) 0 (v.group.map legLen).sum))).legDone
        { v with stage := .awaiting, bytes := v.bytes + (v.group.map legLen).sum
                 wrote := some (fieldAt v.leg 16 8 + (v.group.map legLen).sum - 1), poisonBeats := [] }
        { status := stOk, info := some 0, moved := true })) ∧
  -- with READBACK the last byte is read back
  (∀ (s : State) (p tag : Nat) (v : Trv), AtLeg s p tag 0x21 v → (s.port p).canRead = true →
    (s.port p).inFlight < (s.port p).tagLimit → bitN (legByte v.leg 24) 0 = true →
    ∃ t u, exec (.legStageOut p tag) s = .next t ∧ t.mem = s.mem ∧ t.trv? p tag = some u ∧ u.stage = .awaiting ∧
      u.bytes = v.bytes + (v.group.map legLen).sum ∧
      (∃ id, Output.hostRead p id (fieldAt v.leg 16 8 + (v.group.map legLen).sum - 1) 1 ∈ t.out))

/-- A host range is cut into TLPs (R182): together they cover it in order, none passes the maximum, and none crosses a
4 KiB boundary. -/
def Obligations.HostRangesAreCut : Prop :=
  ∀ max addr len : Nat, 128 ≤ max → ((cut max addr len).map (·.2)).sum = len ∧
    (∀ x ∈ cut max addr len, 1 ≤ x.2 ∧ x.2 ≤ max ∧ x.1 / 4096 = (x.1 + x.2 - 1) / 4096) ∧
    (cut max addr len).IsChain (fun x y => y.1 = x.1 + x.2) ∧
    ((cut max addr len).head?.map (·.1)).getD addr = addr

/-! ### SAS ports -/

/-- Commands at a wide port: sent under a tag, answered, retried, timed out (R171, R173, R176, R252, R259 to R263,
R267). What here is the model's choice is told in log entries 7, 16, 19, 62. -/
def Obligations.CommandsAreSentAndAnswered : Prop :=
  -- COMMAND_FRAME_SEND: the first command of the handle's FIFO leaves under a tag below 4,096 that no other holds
  (∀ (s : State) (h : Nat) (c : Cmd), s.nextCommand h = some c → (s.handle h).attached.isSome = true → c.tag = none →
    c.timing = false → ∃ t tag d, exec (.commandFrameSend h) s = .next t ∧ t.mem = s.mem ∧ t.trvs = s.trvs ∧
      t.out = .sspCommand (chainOfHandle h) h tag c.cdb c.dir c.len :: s.out ∧
      d ∈ (t.chain (chainOfHandle h)).cmds ∧ d = { c with
        tag := some tag, sent := true, timing := true, startedMs := s.devMs, limitS := s.timeoutOf c
        retryLimit := s.manage.sas.busyRetries } ∧
      ((s.chain (chainOfHandle h)).freeTags ≠ [] → tag ∈ (s.chain (chainOfHandle h)).freeTags)) ∧
  (∀ (s : State) (h : Nat) (c : Cmd), s.nextCommand h = some c → (s.handle h).attached = none →
    exec (.commandFrameSend h) s = .next (s.endCmd (chainOfHandle h) c c.lost false)) ∧
  -- SSP_RESPONSE_FRAME: BUSY and TASK SET FULL before any data may be retried; other statuses end the command
  (∀ (s : State) (c tag : Nat) (x : Cmd) (status : BitVec 8) (info : List Byte), (s.chain c).byTag tag = some x →
    x.sent = true → x.answer = none → s.mayRetry x status = true →
    exec (.sspResponseFrame c tag status info) s = .next (s.putCmd c { x with
      tag := none, sent := false, timing := false, retrying := true, retries := x.retries + 1, ready := none })) ∧
  (∀ (s : State) (c tag : Nat) (x : Cmd) (status : BitVec 8) (info : List Byte), (s.chain c).byTag tag = some x →
    x.sent = true → x.answer = none → s.mayRetry x status = false → s.landed c x = true →
    exec (.sspResponseFrame c tag status info) s =
      .next ((s.endCmd c { x with answer := some (status, info), timing := false } x.aborted false).recoverySettle
        x.handle)) ∧
  -- and wait until the data received for it has landed
  (∀ (s : State) (c tag : Nat) (x : Cmd) (status : BitVec 8) (info : List Byte), (s.chain c).byTag tag = some x →
    x.sent = true → x.answer = none → s.mayRetry x status = false → s.landed c x = false →
    exec (.sspResponseFrame c tag status info) s =
      .next (s.putCmd c { x with answer := some (status, info), timing := false })) ∧
  -- a command that holds its answer ends as the status says
  (∀ (x : Cmd) (e : LegEnd) (b : Bool) (status : BitVec 8) (info : List Byte), x.answer = some (status, info) →
    x.why = .none → x.ending e b = (x.byStatus status info, false)) ∧
  -- GOOD with every byte moved is OK, with fewer OK-SHORT, with an overrun DEVICE-CHECK with fault code 2
  (∀ (x : Cmd) (info : List Byte), x.why = .none →
    (x.overrun = true → (x.byStatus 0 info).status = stDeviceCheck ∧ (x.byStatus 0 info).fault = 2) ∧
    (x.overrun = false → x.moved < x.len →
      (x.byStatus 0 info).status = stOkShort ∧ (x.byStatus 0 info).residual = x.len - x.moved) ∧
    (x.overrun = false → x.len ≤ x.moved → (x.byStatus 0 info).status = stOk)) ∧
  (∀ (x : Cmd) (status : BitVec 8) (info : List Byte), x.why = .none → status ≠ 0 →
    (x.byStatus status info).status = stDeviceCheck ∧ (x.byStatus status info).scsi = status ∧
    (x.byStatus status info).sense = (if status = 0x02 then info else [])) ∧
  -- BUSY_RETRY_DELAY_EXPIRY: the command may be sent again
  (∀ (s : State) (c id : Nat) (x : Cmd), (s.chain c).byId id = some x → x.retrying = true →
    exec (.busyRetryDelayExpiry c id) s = .next (s.putCmd c { x with retrying := false })) ∧
  -- COMMAND_TIMEOUT, once its CMD_TIMEOUT_S has run: recovery of the handle starts at step 1
  (∀ (s : State) (c tag : Nat) (x : Cmd), (s.chain c).byTag tag = some x → x.timing = true →
    x.startedMs + 1000 * x.limitS ≤ s.devMs → (s.handle x.handle).lost = false →
    exec (.commandTimeout c tag) s =
      .next ((s.putCmd c { x with timing := false }).startRecovery x.handle 1 [x.id]))

/-- Task management functions: sent under their own tags, answered, timed out (R175 to R177, R259, R267 to R270). What
here is the model's choice is told in log entries 16, 19. -/
def Obligations.TaskFunctionsRun : Prop :=
  -- TASK_SEND: it leaves under the lowest free tag from 0x1000 on
  (∀ (s : State) (h : Nat) (m : Tmf), s.nextTmf h = some m → (s.handle h).attached.isSome = true →
    (∃ p tag, m.owner = .leg p tag) → namesOne m.function = false → m.managed = none →
    m.tag = none → (∀ n ∈ (s.chain (chainOfHandle h)).tmfs, n.tag ≠ some 0x1000 ∧ n.turn = none) →
    ∃ t : State, exec (.taskSend h) s = .next t ∧ t.mem = s.mem ∧
      t.out = .sspTask (chainOfHandle h) h 0x1000 m.function 0 :: s.out ∧
      { m with tag := some 0x1000, sent := true } ∈ (t.chain (chainOfHandle h)).tmfs) ∧
  -- TASK_RESPONSE to a TASK leg's QUERY: the leg ends with the response code, OK when the function is complete or
  -- succeeded
  (∀ (s : State) (c tag p u : Nat) (code : BitVec 8) (m : Tmf),
    (s.chain c).tmfs.find? (fun m => m.tag = some tag) = some m → m.owner = .leg p u → m.function = 0x80 →
    exec (.taskResponse c tag code) s = .next ((s.modChain c fun x => x.dropTmf m).withTrv p u fun v =>
      (s.modChain c fun x => x.dropTmf m).legDone v
        { status := if code = 0 || code = 8 then stOk else stDeviceCheck
          info := some (BitVec.ofNat 64 code.toNat) })) ∧
  -- TMF_TIMEOUT of a function of the port's own: recovery at step 2
  (∀ (s : State) (c tag : Nat) (m : Tmf) (x : Cmd) (i : Nat),
    (s.chain c).tmfs.find? (fun m => m.tag = some tag && m.sent) = some m → m.owner = .port → m.managed = some i →
    m.function = 1 → (s.chain c).byId i = some x → (s.handle m.handle).lost = false →
    exec (.tmfTimeout c tag) s = .next ((s.modChain c fun x => x.dropTmf m).startRecovery m.handle 2 [])) ∧
  -- TMF_TIMEOUT of a TASK leg: DEVICE-TIMEOUT
  (∀ (s : State) (c tag p u : Nat) (m : Tmf),
    (s.chain c).tmfs.find? (fun m => m.tag = some tag && m.sent) = some m → m.owner = .leg p u →
    ∃ info, info &&& 0xFF = info ∧ exec (.tmfTimeout c tag) s = .next
      (((s.modChain c fun x => x.dropTmf m).freeInfo.2).withTrv p u fun v =>
        ((s.modChain c fun x => x.dropTmf m).freeInfo.2).legDone v { status := stDeviceTimeout, info := some info }))

/-- Data of a command (R144, R173, R179, R264 to R266, R288, R560): what is requested is read ahead in the port's
slots and sent, what is received fills the elastic buffer against its lane's credit and lands in the command's
segments beat by beat, a poisoned beat is not sent, and an orphaned command receives nothing. The beats of one slot
and the share of credits among the lanes are the model's (log entries 1, 15 and 62). -/
def Obligations.CommandDataMoves : Prop :=
  (∀ (s : State) (c tag offset len : Nat) (x : Cmd), (s.chain c).byTag tag = some x → x.sent = true →
    x.orphan = false → x.answer = none → x.why = .none → x.dir = 2 →
    exec (.xferRdy c tag offset len) s = .next (s.putCmd c { x with
      sawData := true, overrun := x.overrun || decide (x.len < offset + len)
      ready := if Nat.min len (x.len - offset) = 0 then none else some (offset, Nat.min len (x.len - offset))
      ahead := (x.payload.drop offset).take (Nat.min len (x.len - offset)), stopped := false, pulls := [] })) ∧
  (∀ (s : State) (c tag offset len : Nat) (x : Cmd), (s.chain c).byTag tag = some x → x.sent = true →
    x.orphan = false → x.answer = none → x.why = .none → x.dir = 1 →
    exec (.xferRdy c tag offset len) s = .next (s.abortCmd c { x with sawData := true } .wrongDir)) ∧
  -- a slot's READ asks for the command's next beat
  (∀ (s : State) (q lane c pos n : Nat) (y : Quarter) (uses : List LaneUse) (w : RowWork) (x : Cmd),
    (s.chain c).reader = some x → x.nextRead = (some pos, n) → posQuarter pos = q → w.mayRead (0x10 + c) = true →
    y.asleep = false →
    (s.drainSlot q y uses w lane c).1.mem = s.mem ∧
    (s.drainSlot q y uses w lane c).2.reads =
      w.reads ++ [(0x10 + c, bufAddr (pos / 64 * 64), findingIn uses lane)] ∧
    { x with pulls := x.pulls ++ [{ beat := bufAddr (pos / 64 * 64), lo := pos % 64, n }] } ∈
      ((s.drainSlot q y uses w lane c).1.chain c).cmds) ∧
  -- the beat joins what is read ahead when it arrives, and a poisoned one stops the transfer
  (∀ (y : SasPort) (x : Cmd) (addr lo n off m : Nat) (d : List Byte), y.cmds.find? (fun e => e.awaits addr) = some x →
    x.pulls = [{ beat := addr, lo, n }] → x.ready = some (off, m) →
    { x with pulls := [], ahead := x.ahead ++ clearSelect x.clear (off + x.ahead.length) ((d.drop lo).take n) } ∈
      (y.arrives addr d false).cmds ∧
    { x with stopped := true, pulls := [] } ∈ (y.arrives addr d true).cmds) ∧
  -- what is read ahead goes out in frames of at most 1,024 bytes
  (∀ (s : State) (c lane tag off n : Nat) (x : Cmd), (s.chain c).byTag tag = some x → x.ready = some (off, n) →
    x.orphan = false → x.why = .none → x.opening = false → ((s.chain c).lanes.get lane {}).up = true →
    (s.handle x.handle).lost = false → x.ahead ≠ [] → (x.stopped = true → 1024 < x.ahead.length) →
    exec (.dataFrameSend ⟨c, lane⟩ tag) s = .next (((s.modChain c fun y => y.carry lane x.handle tag).emit
      (.sspData c lane tag (x.ahead.take 1024))).putCmd c { x with
      moved := Nat.min x.len (x.moved + Nat.min 1024 x.ahead.length)
      ahead := x.ahead.drop (Nat.min 1024 x.ahead.length)
      ready := if n = Nat.min 1024 x.ahead.length then none
        else some (off + Nat.min 1024 x.ahead.length, n - Nat.min 1024 x.ahead.length) })) ∧
  -- and once the bytes before a poisoned beat have gone, the command is aborted
  (∀ (s : State) (c lane tag off n : Nat) (x : Cmd), (s.chain c).byTag tag = some x → x.ready = some (off, n) →
    x.orphan = false → x.why = .none → x.opening = false → ((s.chain c).lanes.get lane {}).up = true →
    (s.handle x.handle).lost = false → x.stopped = true → x.ahead = [] →
    ∃ t : State, exec (.dataFrameSend ⟨c, lane⟩ tag) s = .next t ∧ t.out = s.out ∧
      t = s.abortCmd c { x with moved := Nat.min x.len x.moved, ready := none, ahead := [] } .poison) ∧
  -- a lane that is down, and a target that is lost, send nothing
  (∀ (s : State) (c lane tag off n : Nat) (x : Cmd), (s.chain c).byTag tag = some x → x.ready = some (off, n) →
    x.orphan = false → x.why = .none →
    (((s.chain c).lanes.get lane {}).up = false ∨ (s.handle x.handle).lost = true) →
    exec (.dataFrameSend ⟨c, lane⟩ tag) s = .next s) ∧
  -- a received frame of at most 1,024 bytes takes a slot of the buffer
  (∀ (s : State) (c lane tag offset : Nat) (bytes : List Byte) (x : Cmd), (s.chain c).byTag tag = some x →
    x.sent = true → x.orphan = false → x.answer = none → x.dir = 1 → ((s.chain c).lanes.get lane {}).up = true →
    ((s.chain c).lanes.get lane {}).credits ≠ 0 → bytes.length ≤ 1024 →
    exec (.dataFrameReceive ⟨c, lane⟩ tag offset bytes) s = .next (((s.modChain c fun y => y.carry lane x.handle tag).modChain
      c fun y => y.receive lane { tag, offset, bytes := bytes.take (x.len - offset) }).putCmd c { x with
      sawData := true, moved := Nat.min x.len (x.moved + (bytes.take (x.len - offset)).length)
      overrun := x.overrun || decide (x.len < offset + bytes.length) })) ∧
  (∀ (s : State) (c lane tag offset : Nat) (bytes : List Byte), ((s.chain c).lanes.get lane {}).credits = 0 →
    exec (.dataFrameReceive ⟨c, lane⟩ tag offset bytes) s = .next s) ∧
  (∀ (s : State) (c lane tag offset : Nat) (bytes : List Byte), 1024 < bytes.length →
    exec (.dataFrameReceive ⟨c, lane⟩ tag offset bytes) s = .next s) ∧
  -- and leaves it for its segments beat by beat: a whole beat as the slot's WRITE, or to the quarter it belongs to
  (∀ (s : State) (q lane c id pos : Nat) (bs : List Byte) (y : Quarter) (w : RowWork),
    (s.chain c).nextFill = some (id, pos, bs) → lane < 10 → posQuarter pos = q → y.asleep = false → bs.length = 64 →
    s.fillSlot q y w lane c = (s.modChain c SasPort.filled,
      w.store lane (bufAddr pos) (beatOf bs) (checkFor (beatOf bs) false) false (some (c, id)))) ∧
  (∀ (s : State) (q lane c id pos : Nat) (bs : List Byte) (y : Quarter) (w : RowWork),
    (s.chain c).nextFill = some (id, pos, bs) → 10 ≤ lane → posQuarter pos ≠ q →
    laneRoute lane = route q (posQuarter pos) → bs.length = 64 →
    (s.fillSlot q y w lane c).1 = s.modChain c SasPort.filled ∧
    (s.fillSlot q y w lane c).2.launches = w.launches ++ [{ lane, cmd := some (c, id), beat := {
      quarter := posQuarter pos, dest := .write (bufAddr pos), data := beatOf bs, check := checkFor (beatOf bs) false } }]) ∧
  (∀ (s : State) (c lane tag offset : Nat) (bytes : List Byte) (x : Cmd), (s.chain c).byTag tag = some x →
    x.orphan = true → exec (.dataFrameReceive ⟨c, lane⟩ tag offset bytes) s = .next s) ∧
  -- what no reserved cell takes to another quarter crosses as a beat of requester 15 (R313, R319)
  (∀ (s : State) (q c id pos : Nat) (bs : List Byte) (o : OpenAsk), c / 3 = q →
    (∀ i, 3 * q + i < c → (s.chain (3 * q + i)).nextFill = none) → (s.chain c).nextFill = some (id, pos, bs) →
    posQuarter pos ≠ q → (s.quarter q).openBuffers.get 15 [] = [] → o.req = 15 →
    s.openTurn q o = some { use := .launch (fillBeat pos bs), cmd := some (c, id) } ∧
    s.turnTaken q 15 = s.modChain c SasPort.filled)

/-- Reachability of a target (R258, R262, R270, R602): OPEN_REJECT, its back-off, broken connections, nexus loss. What
here is the model's choice is told in log entries 16, 19, 20. -/
def Obligations.TargetsAreLostAndFound : Prop :=
  -- OPEN_REJECT of a connection for DATA frames: the port opens again, or the command is lost
  (∀ (s : State) (h tag : Nat) (c : Cmd),
    ((s.chain (chainOfHandle h)).tmfs.any fun m => m.handle = h && m.tag = some tag && m.sent) = false →
    (s.chain (chainOfHandle h)).cmds.find? (fun c => c.handle = h && c.tag = some tag && c.sent) = some c →
    c.ready.isSome = true →
    exec (.openReject h tag .retry) s = .next (s.putCmd (chainOfHandle h) { c with
      opening := true, backoff := nextBackoff c.backoff })) ∧
  (∀ (s : State) (h tag : Nat) (c : Cmd),
    ((s.chain (chainOfHandle h)).tmfs.any fun m => m.handle = h && m.tag = some tag && m.sent) = false →
    (s.chain (chainOfHandle h)).cmds.find? (fun c => c.handle = h && c.tag = some tag && c.sent) = some c →
    c.ready.isSome = true →
    exec (.openReject h tag .noDestination) s = .next
      (((s.putCmd (chainOfHandle h) c).loseTarget h).wantRediscovery (chainOfHandle h))) ∧
  (∀ (s : State) (h tag : Nat) (c : Cmd),
    ((s.chain (chainOfHandle h)).tmfs.any fun m => m.handle = h && m.tag = some tag && m.sent) = false →
    (s.chain (chainOfHandle h)).cmds.find? (fun c => c.handle = h && c.tag = some tag && c.sent) = some c →
    c.ready.isSome = true →
    exec (.openReject h tag .wrongDestination) s =
      .next ((s.endCmd (chainOfHandle h) c c.lost false).wantRediscovery (chainOfHandle h))) ∧
  -- of a connection for the next COMMAND frame: it keeps its tag and its place, and its timeout runs
  (∀ (s : State) (h tag : Nat) (c : Cmd),
    ((s.chain (chainOfHandle h)).tmfs.any fun m => m.handle = h && m.tag = some tag && m.sent) = false →
    ((s.chain (chainOfHandle h)).cmds.any fun c => c.handle = h && c.tag = some tag && c.sent) = false →
    s.nextCommand h = some c → (s.handle h).attached.isSome = true →
    exec (.openReject h tag .retry) s = .next ((s.openFor c).1.putCmd (chainOfHandle h) { (s.openFor c).2 with
      opening := true, backoff := nextBackoff (s.openFor c).2.backoff })) ∧
  (∀ (s : State) (h tag r : Nat) (c : Cmd),
    ((s.chain (chainOfHandle h)).tmfs.any fun m => m.handle = h && m.tag = some tag && m.sent) = false →
    ((s.chain (chainOfHandle h)).cmds.any fun c => c.handle = h && c.tag = some tag && c.sent) = false →
    s.nextCommand h = some c → (s.handle h).attached.isSome = true →
    nextRate (s.openFor c).2.rate ((s.openFor c).1.chain (chainOfHandle h)).topRate = some r →
    exec (.openReject h tag .rateNotSupported) s =
      .next ((s.openFor c).1.putCmd (chainOfHandle h) { (s.openFor c).2 with rate := r })) ∧
  -- OPEN_BACKOFF_EXPIRY: the port opens again
  (∀ (s : State) (h tag : Nat) (c : Cmd), c ∈ (s.chain (chainOfHandle h)).cmds → c.handle = h → c.tag = some tag →
    ∃ t : State, exec (.openBackoffExpiry h tag) s = .next t ∧ t.mem = s.mem ∧
      { c with opening := false } ∈ (t.chain (chainOfHandle h)).cmds ∧
      ∀ d ∈ (t.chain (chainOfHandle h)).cmds, d.handle = h → d.tag = some tag → d.opening = false) ∧
  -- CONNECTION_BREAK: the lane holds no connection, and the command whose DATA frames it carried is aborted
  (∀ (s : State) (c tag : Nat) (x : Cmd), (s.chain c).byTag tag = some x → x.sent = true → x.answer = none →
    x.why = .none → x.orphan = false → (s.handle x.handle).lost = false →
    ∃ s1 : State, exec (.connectionBreak c [tag]) s = .next (s1.abortCmd c x .broken) ∧ s1.mem = s.mem ∧
      (s1.chain c).cmds = (s.chain c).cmds ∧ ∀ i, tag ∉ (s1.chain c).carried i) ∧
  -- it ends with LINK-INTERRUPTED where its abort has no answer and recovery ends it
  (∀ (x : Cmd), x.why = .broken → (x.cut x.aborted).1.fault = 7 ∧ (x.cut x.aborted).1.status = stDeviceCheck) ∧
  (∀ (s : State) (h : Nat), (s.handle h).lost = true →
    exec (.nexusLossExpiry h) s = .next (s.detach h)) ∧
  -- a detached handle whose chain has no command: no target, not lost, and buffer memory untouched
  (∀ (s : State) (h : Nat), (s.chain (chainOfHandle h)).cmds = [] →
    ((s.detach h).handle h).attached = none ∧ ((s.detach h).handle h).lost = false ∧ (s.detach h).mem = s.mem)

/-- Discovery and broadcasts (R251 to R257, R267, R273). What here is the model's choice is told in log entry 20. -/
def Obligations.ChainsAreDiscovered : Prop :=
  -- SMP_RESPONSE: a slot's descriptor; a target attaches where a descriptor lists its address
  (∀ (s : State) (c pos slot : Nat) (addrs : List (BitVec 64)) (installed : Bool), c < 12 → pos < 4 → slot < 96 →
    (s.chain c).found = [] → (∀ a, (s.handle (driveHandle (4 * c + pos) slot)).attached = some a → a ∈ addrs) →
    exec (.smpResponse c (.slot pos slot addrs installed)) s =
      .next (s.modHandle (driveHandle (4 * c + pos) slot) fun x => { x with described := some addrs, installed })) ∧
  (∀ (s : State) (c h : Nat) (sas : BitVec 64), c < 12 → (s.chain c).found = [] → s.describing c sas = [h] →
    isDriveHandle h = true → (s.handle h).attached = none → s.slotDiscovery h = true →
    slotOfHandle h ∉ (s.shelf (shelfOfHandle h)).sesWait →
    ∃ t : State, exec (.smpResponse c (.target sas)) s = .next t ∧ (t.handle h).attached = some sas ∧
      (t.handle h).lost = false ∧ (t.chain c).found = [sas] ∧ t.mem = s.mem ∧
      ((s.chain c).descent = [] → Output.probe c sas cdbInquiry ∈ t.out)) ∧
  -- an address that no descriptor lists any more is lost, and stays attached until its nexus loss time ends
  (∀ (s : State) (c pos slot : Nat) (a : BitVec 64), c < 12 → pos < 4 → slot < 96 → (s.chain c).found = [] →
    (s.handle (driveHandle (4 * c + pos) slot)).attached = some a →
    (s.handle (driveHandle (4 * c + pos) slot)).lost = false →
    ∃ t : State, exec (.smpResponse c (.noSlot pos slot)) s = .next t ∧
      (t.handle (driveHandle (4 * c + pos) slot)).attached = some a ∧
      (t.handle (driveHandle (4 * c + pos) slot)).lost = true) ∧
  -- the end of a chain's discovery, by its last answer or its timeout; an entry for a shelf that has no enclosure
  -- ends
  (∀ (s : State) (c : Nat), (s.chain c).discovering = true →
    (∀ i, i < 4 → (s.shelf (4 * c + i)).basket = [] ∧ (s.shelf (4 * c + i)).maxOpenPassed = false) →
    ∃ t u : State, exec (.smpResponse c .finished) s = .next t ∧ exec (.discoveryTimeout c) s = .next u ∧
      t.chain c = { s.chain c with discovering := false, discovered := true, fromTop := false } ∧
      u.chain c = { s.chain c with discovering := false, discovered := true } ∧ t.mem = s.mem ∧ u.mem = s.mem) ∧
  (∀ (s : State) (sh : Nat) (b : BasketEntry), s.populated sh = false → (s.shelf sh).basket = [b] →
    s.emptyShelf sh = (s.modShelf sh fun x => { x with basket := [] }).withTrv b.port b.tag fun t =>
      (s.modShelf sh fun x => { x with basket := [] }).legDone t { status := stOutingClosed, info := some 3 }) ∧
  -- BROADCAST (CHANGE) while none may start is counted; otherwise it is recorded at once
  (∀ (s : State) (c lane t0 : Nat), (s.chain c).lastRediscovery = some t0 → s.devMs < t0 + 100 →
    exec (.broadcast c lane 1) s = .next (s.setChain c { s.chain c with
      rediscover := (s.chain c).rediscover.max .concerned, pendingBroadcast := (s.chain c).pendingBroadcast + 1, lastPrim := (1, lane) })) ∧
  (∀ (s : State) (c lane : Nat), exec (.broadcast c lane 4) s = .next (s.broadcastEvent c 4 1 lane)) ∧
  -- BROADCAST (SES): page 0x02 of every enclosure is read
  (∀ (s : State) (c lane : Nat), (s.chain c).enclosures = [] →
    exec (.broadcast c lane 2) s = .next (s.broadcastEvent c 2 1 lane)) ∧
  (∀ (s : State) (c lane pos : Nat) (id : BitVec 64), (s.chain c).enclosures = [(pos, id)] →
    exec (.broadcast c lane 2) s = .next ((s.broadcastEvent c 2 1 lane).readPage (512 * c + 384 + pos) 2)) ∧
  -- REDISCOVERY_START: every expander of the chain is discovered again, at most once per 100 ms
  (∀ (s : State) (c : Nat), (s.chain c).rediscover = .chain → (s.chain c).lastRediscovery = none →
    (s.chain c).pendingBroadcast = 0 →
    ∃ t : State, exec (.rediscoveryStart c) s = .next t ∧ (t.chain c).rediscover = .none ∧
      (t.chain c).lastRediscovery = some s.devMs ∧ t.out.length = s.out.length + (s.chain c).expanders.length ∧
      t.mem = s.mem)

/-- Lanes and port-level resets (R253, R271, R272, R275). What here is the model's choice is told in log entries 21,
28. -/
def Obligations.LanesComeAndGo : Prop :=
  -- LANE_UP: the first lane starts start-up discovery
  (∀ (s : State) (c lane : Nat) (rate : BitVec 2), s.sasRuns = true →
    ((s.chain c).lanes.get lane {}).up = false → ((s.chain c).lanes.get lane {}).disabled = false →
    (s.chain c).laneEn.getLsbD lane = true → (s.chain c).maxRate ≤ rate.toNat → rate ≠ 3 →
    ∃ t : State, exec (.laneUp c lane rate) s = .next t ∧ ((t.chain c).lanes.get lane {}).up = true ∧
      ((t.chain c).lanes.get lane {}).rate = rate.toNat ∧
      (t.chain c).discovering = ((s.chain c).discovering || !(s.chain c).discovered) ∧ t.mem = s.mem ∧
      Output.identify c lane (Config.sasAddress c) ∈ t.out) ∧
  -- DWORD_SYNC_LOSS: the lane goes down and is link-reset, until the fourth reset within 10 s disables it
  (∀ (s : State) (c lane : Nat), ((s.chain c).lanes.get lane {}).up = true →
    ((s.chain c).lanes.get lane {}).resets = [] →
    ∃ t : State, exec (.dwordSyncLoss c lane) s = .next t ∧ ((t.chain c).lanes.get lane {}).up = false ∧
      ((t.chain c).lanes.get lane {}).disabled = ((s.chain c).lanes.get lane {}).disabled ∧
      ((t.chain c).lanes.get lane {}).resets = [s.devMs] ∧ Output.sasReset c lane ∈ t.out) ∧
  (∀ (s : State) (c lane t1 t2 t3 : Nat), ((s.chain c).lanes.get lane {}).up = true →
    ((s.chain c).lanes.get lane {}).resets = [t1, t2, t3] → s.devMs < t1 + 10000 → s.devMs < t2 + 10000 →
    s.devMs < t3 + 10000 →
    ∃ t : State, exec (.dwordSyncLoss c lane) s = .next t ∧ ((t.chain c).lanes.get lane {}).up = false ∧
      ((t.chain c).lanes.get lane {}).disabled = true) ∧
  -- FEC_THRESHOLD: as the loss of dword synchronisation, on a lane at 22.5 Gbit/s
  (∀ (s : State) (c lane : Nat), ((s.chain c).lanes.get lane {}).up = true →
    ((s.chain c).lanes.get lane {}).rate = 0 → ((s.chain c).lanes.get lane {}).resets = [] →
    ∃ t : State, exec (.fecThreshold c lane) s = .next t ∧ ((t.chain c).lanes.get lane {}).up = false ∧
      Output.sasReset c lane ∈ t.out ∧ (t.chain c).fec = Nat.min ((s.chain c).fec + 17) (2 ^ 32 - 1)) ∧
  -- PORT_RESET_ATTEMPT: a success ends the disabling of lanes and asks for a rediscovery
  (∀ (s : State) (c : Nat), s.sasRuns = true → (s.chain c).anyLane = false →
    ∃ t : State, exec (.portResetAttempt c true) s = .next t ∧ (t.chain c).rediscover = .top ∧
      (∀ i, ((t.chain c).lanes.get i {}).disabled = false) ∧ Output.sasReset c 4 ∈ t.out ∧ t.mem = s.mem) ∧
  -- CHAIN_LINK_RESET_APPLY: the link function takes effect once no shelf of the chain holds an outing
  (∀ (s : State) (c : Nat), (s.chain c).linkPending = true → (s.chain c).anyLane = false →
    (∀ i, i < 4 → (s.shelf (4 * c + i)).holds = false) → s.manage.sas.expertLink = true →
    ∃ t : State, exec (.chainLinkResetApply c) s = .next t ∧ t.chain c = { s.chain c with
        linkPending := false, laneEn := (s.manage.sas.chainLink.get c 0xF0).extractLsb' 4 4
        maxRate := (s.manage.sas.chainLink.get c 0xF0).toNat % 4, lanes := [], rediscover := .top } ∧
      t.out = .sasReset c 4 :: s.out ∧ t.mem = s.mem) ∧
  -- and takes the port down: every handle of the chain is lost
  (∀ (s : State) (c : Nat), (s.chain c).linkPending = true → (s.chain c).anyLane = true →
    (∀ i, i < 4 → (s.shelf (4 * c + i)).holds = false) →
    ∃ t : State, exec (.chainLinkResetApply c) s = .next t ∧ (t.chain c).lanes = [] ∧
      ∀ h, chainOfHandle h = c → (s.handle h).attached.isSome = true → (t.handle h).lost = true)

/-! ### Shelves and outings -/

/-- An outing begins (R224, R225, R229, R233, R241): the planner's choice, power-good and its limits. What here is the
model's choice is told in log entries 16, 23. -/
def Obligations.OutingsBegin : Prop :=
  -- PLANNER_CHOICE: what was set comes into force, the chosen shelf of a chain with room goes POWERING, its SAS
  -- port wakes
  (∀ (s : State) (c sh : Nat), s.mode = .ready →
    (∀ i, i < 4 → (s.shelf (4 * c + i)).holds = false) → 1 ≤ s.perChain → (s.takeChoice c).choose c = some sh →
    (s.shelf sh).pg = false →
    ∃ t : State, exec (.plannerChoice c) s = .next t ∧ t.manage.inForce.find c = some s.manage.outing ∧
    (t.shelf sh).state = .powering ∧ (t.shelf sh).since = s.devMs ∧
      (t.shelf sh).edges = [] ∧ (t.chain c).gated = false ∧ t.trvs = s.trvs ∧ t.mem = s.mem) ∧
  -- the choice is an eligible shelf of the chain
  (∀ (s : State) (c sh : Nat), s.choose c = some sh → s.eligible sh = true ∧ sh / 4 = c) ∧
  -- SHELF_PG_FILTERED_EDGE: a transition is counted while the shelf is powered; more than four in 1 s are a fault
  (∀ (s : State) (sh : Nat) (level : Bool), (s.shelf sh).pgFiltered ≠ level → (s.shelf sh).state = .powering →
    (s.shelf sh).edges = [] →
    exec (.shelfPgFilteredEdge sh level) s =
      .next (s.setShelf sh { s.shelf sh with pgFiltered := level, edges := [s.devMs] })) ∧
  (∀ (s : State) (sh a b c d : Nat) (level : Bool), (s.shelf sh).pgFiltered ≠ level → (s.shelf sh).state = .opened →
    (s.shelf sh).edges = [a, b, c, d] → s.devMs < a + 1000 → s.devMs < b + 1000 → s.devMs < c + 1000 →
    s.devMs < d + 1000 →
    ∃ t : State, exec (.shelfPgFilteredEdge sh level) s = .next (t.powerFault sh 2) ∧
    t = s.setShelf sh { s.shelf sh with
      pgFiltered := level, edges := [a, b, c, d, s.devMs] }) ∧
  -- SHELF_PG_DEBOUNCE_EXPIRY: power-good brings a powering shelf to SPINNING; its loss on an open shelf is a power
  -- fault
  (∀ (s : State) (sh : Nat), s.held = false → (s.shelf sh).pg = false → (s.shelf sh).pgFiltered = true →
    (s.shelf sh).state = .powering →
    ∃ t : State, exec (.shelfPgDebounceExpiry sh) s = .next t ∧ (t.shelf sh).state = .spinning ∧
    (t.shelf sh).pg = true ∧
      (t.shelf sh).spinning = false ∧ (t.chain (chainOfShelf sh)).rediscover = (s.chain (chainOfShelf sh)).rediscover.max .chain ∧
      t.mem = s.mem) ∧
  (∀ (s : State) (sh : Nat), s.held = false → (s.shelf sh).pg = true → (s.shelf sh).pgFiltered = false →
    (s.shelf sh).state = .opened →
    exec (.shelfPgDebounceExpiry sh) s =
      .next ((s.setShelf sh { s.shelf sh with pg := false }).powerFault sh 1)) ∧
  -- while the device is held in reset only the level is followed
  (∀ (s : State) (sh : Nat), s.held = true → (s.shelf sh).pg ≠ (s.shelf sh).pgFiltered →
    exec (.shelfPgDebounceExpiry sh) s = .next (s.setShelf sh { s.shelf sh with pg := (s.shelf sh).pgFiltered })) ∧
  -- POWER_GOOD_TIMEOUT: the shelf is held off and the fault is counted
  (∀ (s : State) (sh : Nat), (s.shelf sh).state = .powering → (s.shelf sh).pg = false → (s.shelf sh).basket = [] →
    ∃ t : State, exec (.powerGoodTimeout sh) s = .next t ∧ (t.shelf sh).state = .holdoff ∧
      (t.shelf sh).faults = (s.shelf sh).faults + 1 ∧ t.trvs = s.trvs ∧ t.mem = s.mem)

/-- Spin-up (R207, R238 to R240, R256): it starts over the slots found, step by step; an answered START is polled; the
last ready slot or the time limit opens the shelf. What here is the model's choice is told in log entries 7, 23, 61.
-/
def Obligations.SpinUpRuns : Prop :=
  (∀ (s : State) (sh : Nat), (s.shelf sh).state = .spinning → (s.shelf sh).spinning = false →
    (∀ j ∈ s.populatedSlots sh, (s.handle (driveHandle sh j)).attached.isSome = true) →
    exec (.slotDiscoveryComplete sh) s = .next (s.startSpinUp sh (s.populatedSlots sh))) ∧
  (∀ (s : State) (sh : Nat), (s.shelf sh).state = .spinning → (s.shelf sh).spinning = false →
    (∀ j ∈ s.populatedSlots sh, (s.handle (driveHandle sh j)).attached.isSome = true) → s.populatedSlots sh ≠ [] →
    (s.shelf sh).useSteps = none → 1 ≤ (s.shelf sh).useGroup →
    ∃ t : State, exec (.slotDiscoveryComplete sh) s = .next t ∧ (t.shelf sh).spinning = true ∧
      (t.shelf sh).state = .spinning ∧ (t.shelf sh).nextStep = 0 ∧
      (t.shelf sh).schedule.flatMap (·.slots) = s.populatedSlots sh ∧ t.mem = s.mem ∧ t.trvs = s.trvs) ∧
  (∀ (s : State) (sh : Nat), (s.shelf sh).state = .spinning → (s.shelf sh).spinning = false →
    exec (.spinUpStartTimeout sh) s = .next (s.startSpinUp sh
      ((s.populatedSlots sh).filter fun j => (s.handle (driveHandle sh j)).attached.isSome ||
        j ∈ (((s.shelf sh).useSteps.getD []).filter fun st => st.method = 2).flatMap (·.slots)))) ∧
  -- the schedule of a basic spin-up names every slot once, GROUP at a time, INTERVAL apart
  (∀ (s : State) (sh : Nat) (slots : List Nat), (s.shelf sh).useSteps = none → 1 ≤ (s.shelf sh).useGroup →
    slots ≠ [] →
    ((s.startSpinUp sh slots).shelf sh).schedule.flatMap (·.slots) = slots ∧
    (∀ st ∈ ((s.startSpinUp sh slots).shelf sh).schedule, st.slots.length ≤ (s.shelf sh).useGroup ∧ st.method = 1) ∧
    ((s.startSpinUp sh slots).shelf sh).spinning = true) ∧
  -- SPIN_UP_STEP: START STOP UNIT goes to every slot of the next step
  (∀ (s : State) (sh j : Nat) (st : SpinStep), (s.shelf sh).schedule[(s.shelf sh).nextStep]? = some st →
    (s.shelf sh).state = .spinning → (s.shelf sh).spinning = true → st.owner = none → st.method = 1 → st.slots = [j] →
    ∃ t : State, exec (.spinUpStep sh) s = .next t ∧ (t.shelf sh).nextStep = (s.shelf sh).nextStep + 1 ∧
      (t.shelf sh).started = (s.shelf sh).started ++ [j] ∧ t.mem = s.mem ∧
      (t.chain (chainOfHandle (driveHandle sh j))).cmds = (s.chain (chainOfHandle (driveHandle sh j))).cmds ++
        [{ id := (s.chain (chainOfHandle (driveHandle sh j))).nextId, handle := driveHandle sh j
           owner := .spinUp sh j false, cdb := cdbStartStop true true, dir := 0, len := 0, segments := [] }]) ∧
  -- TEST_UNIT_READY_POLL
  (∀ (s : State) (sh slot : Nat), (s.shelf sh).answered.contains slot = true → s.polling sh slot = false →
    (s.shelf sh).state = .spinning → (s.shelf sh).spinning = true → (s.shelf sh).readySlots.contains slot = false →
    exec (.testUnitReadyPoll sh slot) s =
      .next (s.handOver (driveHandle sh slot) (.spinUp sh slot true) cdbTestReady 0 0 [])) ∧
  -- the GOOD answer to the poll of the last slot that is not ready opens the shelf
  (∀ (s : State) (sh slot tag : Nat) (x : Cmd) (info : List Byte), slot < 96 →
    (s.chain (chainOfHandle (driveHandle sh slot))).byTag tag = some x → x.handle = driveHandle sh slot →
    x.owner = .spinUp sh slot true → x.sent = true → x.orphan = false → x.answer = none → x.why = .none →
    x.overrun = false → x.len ≤ x.moved → s.landed (chainOfHandle (driveHandle sh slot)) x = true →
    (s.shelf sh).state = .spinning → (s.shelf sh).spinning = true → slot ∉ (s.shelf sh).readySlots →
    (∀ j ∈ (s.shelf sh).scheduled, j ∈ (s.shelf sh).readySlots ∨ j = slot) →
    ∃ s1 : State, exec (.sspResponseFrame (chainOfHandle (driveHandle sh slot)) tag 0 info) s =
        .next (((s1.openShelf sh).closingAdvance sh).recoverySettle (driveHandle sh slot)) ∧
      (s1.shelf sh).readySlots = (s.shelf sh).readySlots ++ [slot] ∧ s1.trvs = s.trvs ∧
      ∀ i, i ≠ sh → s1.shelf i = s.shelf i) ∧
  -- SPIN_UP_TIMEOUT: the shelf opens with the slots that are ready, the others recorded
  (∀ (s : State) (sh : Nat), (s.shelf sh).state = .spinning → (s.shelf sh).spinning = true →
    (s.shelf sh).schedule.length ≤ (s.shelf sh).nextStep →
    exec (.spinUpTimeout sh) s = .next ((((s.shelf sh).scheduled.filter fun j =>
      !(s.shelf sh).readySlots.contains j).foldl (fun (s : State) j => s.outingEvent sh 0x0A j) s).openShelf sh)) ∧
  (∀ (s : State) (sh : Nat), (s.shelf sh).pgFiltered = true → (s.shelf sh).basket = [] → s.work sh = 0 →
    s.manage.outing.lingerS ≠ 0 → s.agedWaits (chainOfShelf sh) = false →
    ((s.openShelf sh).shelf sh).state = .opened ∧ ((s.openShelf sh).shelf sh).openedAt = s.devMs ∧
    ((s.openShelf sh).shelf sh).lingering = true ∧ (s.openShelf sh).mem = s.mem) ∧
  -- SPIN_START_TIMEOUT: the drive's outcome is that it is not ready
  (∀ (s : State) (p tag slot : Nat) (v : Trv), s.trv? p tag = some v → v.stage = .awaiting → legOp v.leg = 0x32 →
    byteAt v.leg 17 = 1 → v.spin.find slot = some .waiting →
    (s.shelf (byteAt v.leg 16)).started.contains slot = true →
    exec (.spinStartTimeout p tag slot) s = .next (s.spinSettle v slot .notReady)) ∧
  -- SPIN: without a populated slot it ends OK at once; START follows the shelf's schedule
  (∀ (s : State) (p tag : Nat) (v : Trv), AtLeg s p tag 0x32 v →
    (spinSlots v.leg).filter (s.populatedSlots (legByte v.leg 16)).contains = [] →
    exec (.legSpin p tag) s = .next (s.legDone v { status := stOk, info := some 0 })) ∧
  (∀ (s : State) (p tag : Nat) (v : Trv), AtLeg s p tag 0x32 v → legByte v.leg 17 = 1 →
    (spinSlots v.leg).filter (s.populatedSlots (legByte v.leg 16)).contains ≠ [] →
    ∃ t u, exec (.legSpin p tag) s = .next t ∧ t.trv? p tag = some u ∧ u.stage = .awaiting ∧ t.mem = s.mem ∧
      u.spin = ((spinSlots v.leg).filter (s.populatedSlots (legByte v.leg 16)).contains).map (fun j => (j, .waiting)) ∧
      (t.shelf (legByte v.leg 16)).schedule = (s.shelf (legByte v.leg 16)).schedule ++
        (s.shelf (legByte v.leg 16)).spinPlan (s.populatedSlots (legByte v.leg 16))
          ((spinSlots v.leg).filter (s.populatedSlots (legByte v.leg 16)).contains) (p, tag)) ∧
  -- SPIN STOP goes out at once, and the last drive's outcome ends the leg
  (∀ (s : State) (p tag j : Nat) (v : Trv), AtLeg s p tag 0x32 v → legByte v.leg 17 = 2 →
    (spinSlots v.leg).filter (s.populatedSlots (legByte v.leg 16)).contains = [j] →
    exec (.legSpin p tag) s = .next ((s.putTrv { v with stage := .awaiting, spin := [(j, .waiting)] }).handOver
      (driveHandle (legByte v.leg 16) j) (.spinLeg p tag j false) (cdbStartStop false false) 0 0 [])) ∧
  (∀ (s : State) (j : Nat) (v : Trv), v.spin = [(j, .waiting)] → byteAt v.leg 17 = 2 →
    s.spinSettle v j .reached = (s.modShelf (byteAt v.leg 16) (fun x => x.spun j false)).legDone { v with spin := [] }
      { status := stOk, info := some 1 })

/-- An outing ends (R225, R229 to R232, R237, R242). A power fault of an open shelf (R203, R229, R241): the shelf is
held off and the fault counted, the bookings on it lapse, and no command or task function to its drives stays
outstanding: a leg that waits for one ends OUTING-CLOSED. What here is the model's choice is told in log entries 16,
23. -/
def Obligations.OutingsEnd : Prop :=
  -- LINGER_EXPIRY: the outing without work closes, and with no ready drive step 3 begins at once
  (∀ (s : State) (sh : Nat), (s.shelf sh).state = .opened → (s.shelf sh).lingering = true → s.work sh = 0 →
    exec (.lingerExpiry sh) s = .next (s.enterClosing sh)) ∧
  (∀ (s : State) (sh : Nat), (s.shelf sh).readySlots = [] → (s.chain (chainOfShelf sh)).cmds = [] →
    ((s.enterClosing sh).shelf sh).state = .closing ∧ ((s.enterClosing sh).shelf sh).stopSent = true ∧
    (s.enterClosing sh).work sh = 0 ∧ (s.enterClosing sh).mem = s.mem) ∧
  -- MAX_OPEN_EXPIRY: with work and another shelf waiting the outing drains
  (∀ (s : State) (sh : Nat), (s.shelf sh).state = .opened → s.work sh ≠ 0 → s.rivalWaits sh = true →
    exec (.maxOpenExpiry sh) s = .next (s.drain sh)) ∧
  (∀ (s : State) (sh : Nat), (s.shelf sh).state = .opened → s.work sh = 0 →
    exec (.maxOpenExpiry sh) s = .next (s.setShelf sh { s.shelf sh with maxOpenPassed := true })) ∧
  -- AGE_LIMIT_PASSED: the chain's longest-open outing drains for an eligible shelf
  (∀ (s : State) (sh o : Nat), s.eligible sh = true → s.aged sh = true → s.longestOpen (chainOfShelf sh) = some o →
    (s.shelf o).state = .opened → exec (.ageLimitPassed sh) s = .next (s.drain o)) ∧
  -- OPENING_WINDOW_END
  (∀ (s : State) (sh : Nat), (s.shelf sh).state = .opened → (s.choiceOf sh).expertChoice = true →
    (s.shelf sh).window.isSome = true → exec (.openingWindowEnd sh) s = .next (s.drain sh)) ∧
  -- an outing that drains with work stays open to it
  (∀ (s : State) (sh : Nat), s.work sh ≠ 0 → ((s.drain sh).shelf sh).state = .draining ∧ (s.drain sh).mem = s.mem) ∧
  -- DRAIN_LIMIT_EXPIRY
  (∀ (s : State) (sh : Nat), (s.shelf sh).state = .draining →
    exec (.drainLimitExpiry sh) s = .next (s.enterClosing sh)) ∧
  -- CLOSING_SEQUENCE_DONE: power goes off; the drives detach; the shelf settles until power-good has fallen
  (∀ (s : State) (sh : Nat), (s.shelf sh).state = .closing → (s.shelf sh).stopSent = true → (s.shelf sh).pg = true →
    (s.chain (chainOfShelf sh)).cmds = [] → s.trvs = [] →
    ∃ t : State, exec (.closingSequenceDone sh) s = .next t ∧ (t.shelf sh).state = .settling ∧
    (t.shelf sh).faults = 0 ∧
      t.mem = s.mem ∧ ∀ j, j < 96 → (t.handle (driveHandle sh j)).attached = none) ∧
  -- SETTLING_TIMEOUT: power-good stuck high retires the shelf
  (∀ (s : State) (sh : Nat), (s.shelf sh).state = .settling → (s.shelf sh).pg = true → (s.shelf sh).basket = [] →
    ∃ t : State, exec (.settlingTimeout sh) s = .next t ∧ (t.shelf sh).state = .retired ∧ t.mem = s.mem) ∧
  -- HOLDOFF_EXPIRY: back to DARK, or retired after too many faults
  (∀ (s : State) (sh : Nat), (s.shelf sh).state = .holdoff → (s.choiceOf sh).expertChoice = false →
    (s.shelf sh).faults < 3 → exec (.holdoffExpiry sh) s = .next (s.enterDark sh 0x07)) ∧
  (∀ (s : State) (sh : Nat), (s.shelf sh).state = .holdoff → (s.choiceOf sh).expertChoice = false →
    3 ≤ (s.shelf sh).faults → exec (.holdoffExpiry sh) s = .next (s.retire sh)) ∧
  (∀ (s : State) (sh detail : Nat), sh < 48 → (s.shelf sh).state = .opened → (s.chain (chainOfShelf sh)).cmds = [] →
    (s.chain (chainOfShelf sh)).tmfs = [] → (∀ t ∈ s.trvs, t.stage ≠ .awaiting) →
    ((s.powerFault sh detail).shelf sh).state = .holdoff ∧
    ((s.powerFault sh detail).shelf sh).faults = (s.shelf sh).faults + 1 ∧
    (∀ t ∈ (s.powerFault sh detail).trvs, ∀ b ∈ t.bookings, b.shelf = sh → b.lapsed = true) ∧
    (s.powerFault sh detail).mem = s.mem) ∧
  -- with commands of the firmware and of the shelf's schedules, and functions of recoveries and of the port,
  -- outstanding
  (∀ (s : State) (sh detail : Nat), sh < 48 → (s.shelf sh).state = .opened →
    (∀ d ∈ (s.chain (chainOfShelf sh)).cmds, d.answer = none ∧ (d.owner = .firmware ∨
      (∃ slot poll, d.owner = .spinUp sh slot poll) ∨ ∃ slot stop, d.owner = .closing sh slot stop)) →
    (∀ m ∈ (s.chain (chainOfShelf sh)).tmfs, m.owner = .recovery ∨ m.owner = .port) →
    (∀ t ∈ s.trvs, t.stage = .awaiting → legOp t.leg ≠ 0x32) →
    ((s.powerFault sh detail).shelf sh).state = .holdoff ∧
    ((s.powerFault sh detail).shelf sh).faults = (s.shelf sh).faults + 1 ∧
    (∀ t ∈ (s.powerFault sh detail).trvs, ∀ b ∈ t.bookings, b.shelf = sh → b.lapsed = true) ∧
    (∀ d ∈ ((s.powerFault sh detail).chain (chainOfShelf sh)).cmds, d.onShelf sh = false) ∧
    ∀ m ∈ ((s.powerFault sh detail).chain (chainOfShelf sh)).tmfs,
      isDriveHandle m.handle = true → shelfOfHandle m.handle ≠ sh) ∧
  -- the command of a leg that waits for it ends the leg OUTING-CLOSED
  (∀ (s : State) (c : Cmd) (p tag station : Nat) (v : Trv), c.orphan = false → c.owner = .leg p tag station →
    s.trv? p tag = some v → v.run = [] → v.station = station → v.stage = .awaiting →
    s.deliverEnd c c.powerLost false = s.legDone { v with flushing := none } c.powerLost.result ∧
    c.powerLost.result.status = stOutingClosed) ∧
  -- so do a TASK leg's function and a SPIN leg that waits for a drive
  (∀ (s : State) (sh p tag : Nat) (m : Tmf) (v : Trv), (s.chain (chainOfShelf sh)).tmfs = [m] →
    isDriveHandle m.handle = true → shelfOfHandle m.handle = sh → m.owner = .leg p tag → s.trv? p tag = some v →
    ∃ (s1 : State) (info : BitVec 64), s.dropShelfTmfs sh = s1.legDone v { status := stOutingClosed, info := some info } ∧
      (s1.chain (chainOfShelf sh)).tmfs = [] ∧ s1.trvs = s.trvs ∧ s1.mem = s.mem) ∧
  (∀ (s : State) (sh j : Nat) (v : Trv), s.trvs = [v] → v.stage = .awaiting → legOp v.leg = 0x32 →
    byteAt v.leg 16 = sh → v.spin = [(j, .waiting)] →
    ∃ (s1 : State) (info : BitVec 64), s.spinClosed sh = s1.legDone { v with spin := [] } { status := stOutingClosed, info := some info } ∧
      s1.trvs = s.trvs ∧ s1.mem = s.mem)

/-! ### DMA and the host's answers -/

/-- DMA channels and timers (R18, R421 to R425, R428 to R431). A host read ends once (R137): a completion of the
length asked for, or a failure, reaches what asked for it, and the read is no longer awaited; anything else answers no
read, which is the model's choice (log entry 1). -/
def Obligations.DmaChannelsAndHostReadsRun : Prop :=
  -- DMA_GO_WRITE: an enabled idle channel is busy; a busy one counts the trigger; past 255 OVERRUN sets
  (∀ (s : State) (ch : Nat) (v : Word), ch < 32 → v.getLsbD 0 = true → (s.channel ch).en = true →
    exec (.dmaGoWrite ch v) s = .next (s.setChannel ch
      (if (s.channel ch).busy = false then { s.channel ch with busy := true }
       else if (s.channel ch).pend < 255 then { s.channel ch with pend := (s.channel ch).pend + 1 }
       else { s.channel ch with overrun := true }))) ∧
  (∀ (s : State) (ch : Nat) (v : Word), (s.channel ch).en = false → exec (.dmaGoWrite ch v) s = .next s) ∧
  -- DMA_CTL_WRITE: the fields as written; clearing EN empties PEND; a reserved source is refused whole
  (∀ (s : State) (ch : Nat) (v : Word), ch < 32 → v.extractLsb' 8 2 = 0#2 → (s.channel ch).busy = false →
    exec (.dmaCtlWrite ch v) s = .next (s.setChannel ch { s.channel ch with
      shadowArm := v.getLsbD 15, auto := v.getLsbD 14, en := v.getLsbD 13, irqDest := v.extractLsb' 11 2
      irqEn := v.getLsbD 10, trigSrc := 0, trigSel := v.extractLsb' 0 5
      pend := if v.getLsbD 13 then (s.channel ch).pend else 0 })) ∧
  (∀ (s : State) (ch : Nat) (v : Word), ch < 32 → v.extractLsb' 8 2 = 3#2 →
    exec (.dmaCtlWrite ch v) s = .next (s.setChannel ch { s.channel ch with fieldRefused := true })) ∧
  -- DMA_RUN_START: an invalid first descriptor ends the run with DESC-INVALID and its whole length outstanding
  (∀ (s : State) (ch : Nat), ch < 32 → (s.channel ch).busy = true → (s.channel ch).outcome = none →
    (s.channel ch).reading = false → (s.channel ch).copy = none → (s.channel ch).desc = [] →
    (s.channel ch).shadowArm = true → s.descOk (descBytes (s.channel ch).shadow) = false →
    exec (.dmaRunStart ch) s = .next (s.setChannel ch { (s.channel ch).handOver with
      outcome := some (6, dLen (descBytes (s.channel ch).shadow)), reading := false })) ∧
  -- DMA_RUN_START of a fill of the stacks: the pattern is written from the first byte, and the run has ended
  (∀ (s : State) (ch : Nat) (d : List Byte) (pos : Nat), ch < 32 → (s.channel ch).busy = true →
    (s.channel ch).outcome = none → (s.channel ch).reading = false → (s.channel ch).copy = none →
    (s.channel ch).desc = [] → (s.channel ch).shadowArm = true → descBytes (s.channel ch).shadow = d →
    s.descOk d = true → dFill d = true → dStop d = false → dChain d = false → dDst d = some (.buf pos) →
    (∀ q, (s.quarter q).stack = .active) →
    ∃ t u, exec (.dmaRunStart ch) s = .next t ∧ t.channel ch = u ∧ u.outcome = some (0, 0) ∧ u.written = dLen d ∧
      u.shadowArm = false ∧ t.out = s.out ∧
      t.mem = ((s.reach ((Place.buf pos).quarters (dLen d))).1.putMarked (.buf pos) 0
        (fillBytes (d.take 8) (dLen d))).mem) ∧
  -- DMA_RUN_END: status, residual, DONE and COUNT; the next run is the shadow's or a pending trigger's
  (∀ (s : State) (ch st resid : Nat), (s.channel ch).outcome = some (st, resid) → st ≠ 0 →
    (s.channel ch).copy = none → (s.channel ch).irqEn = false → s.copyQueue = [] →
    exec (.dmaRunEnd ch) s = .next (s.setChannel ch { (s.channel ch).nextRun with
      status := BitVec.ofNat 4 st, resid := BitVec.ofNat 24 resid, done := true
      count := (s.channel ch).count + 1 })) ∧
  -- DMA_TIMER_CTL_WRITE: EN with PERIOD 0 is refused
  (∀ (s : State) (n : Nat) (v : Word), n < 16 → v.getLsbD 15 = true → (s.timers.get n {}).period ≠ 0 →
    exec (.dmaTimerCtlWrite n v) s = .next { s with timers := s.timers.set n { s.timers.get n {} with
      en := true, fieldRefused := (s.timers.get n {}).fieldRefused && !v.getLsbD 14 } }) ∧
  (∀ (s : State) (n : Nat) (v : Word), n < 16 → v.getLsbD 15 = true → (s.timers.get n {}).period = 0 →
    (s.timers.get n {}).en = false →
    exec (.dmaTimerCtlWrite n v) s =
      .next { s with timers := s.timers.set n { s.timers.get n {} with fieldRefused := true } }) ∧
  -- DMA_TIMER_FIRE: every channel that selects the timer is triggered
  (∀ (s : State) (n : Nat), n < 16 → (s.timers.get n {}).en = true →
    exec (.dmaTimerFire n) s = .next (((List.range 32).filter fun d =>
      (s.channel d).trigSrc = 1 && (s.channel d).trigSel.toNat = n).foldl (fun (s : State) d => s.trigger d) s)) ∧
  -- COPY: the leg's job waits for a channel of its source's quarter
  (∀ (s : State) (p tag : Nat) (v : Trv), AtLeg s p tag 0x22 v → s.copyQueue = [] →
    s.copyChannel { port := p, tag, src := bufPos (legAddr v.leg), dst := fieldAt v.leg 16 8 % 2 ^ 38
                    len := legLen v.leg, stop := bitN (legByte v.leg 24) 0 } = none →
    exec (.legCopy p tag) s = .next { (s.putTrv { v with stage := .awaiting }) with copyQueue :=
      [{ port := p, tag, src := bufPos (legAddr v.leg), dst := fieldAt v.leg 16 8 % 2 ^ 38, len := legLen v.leg
         stop := bitN (legByte v.leg 24) 0 }] }) ∧
  (∀ (s : State) (p id : Nat) (r : HostRead) (bs : List Byte) (bad : Bool),
    (s.port p).reads.find? (fun r => r.id = id) = some r → r.sent = true → bs.length = r.len →
    exec (.hostReadCompletion p id (.data bs bad)) s = .next ((((s.countTlp p 0 r.tenant
      (tlpBytes r.addr r.len)).modPort p fun x =>
        { x with reads := x.reads.filter fun u => decide (u.id ≠ id) }).sendRead p).readEnds p r (some (bs, bad)))) ∧
  (∀ (s : State) (p id : Nat) (r : HostRead) (bs : List Byte) (bad : Bool),
    (s.port p).reads.find? (fun r => r.id = id) = some r → bs.length ≠ r.len →
    exec (.hostReadCompletion p id (.data bs bad)) s = .next (s.hostTlp p 0 (tlpBytes 0 bs.length))) ∧
  (∀ (s : State) (p id : Nat) (r : HostRead), bitN ((s.port p).cfg 38) 4 = false →
    (s.port p).reads.find? (fun r => r.id = id && r.sent) = some r →
    exec (.hostReadTimeout p id) s = .next (((s.modPort p fun x =>
      { x with reads := x.reads.filter fun u => decide (u.id ≠ id) }).sendRead p).readEnds p r none) ∧
    exec (.hostReadCompletion p id .abort) s = exec (.hostReadTimeout p id) s ∧
    exec (.hostReadCompletion p id .unsupported) s = exec (.hostReadTimeout p id) s) ∧
  (∀ (s : State) (p id : Nat), (s.port p).reads.find? (fun r => r.id = id && r.sent) = none →
    exec (.hostReadTimeout p id) s = .next s) ∧
  -- none times out while Device Control 2 disables the completion timeout
  (∀ (s : State) (p id : Nat), bitN ((s.port p).cfg 38) 4 = true → exec (.hostReadTimeout p id) s = .next s) ∧
  -- at most so many reads are in flight as the tags enabled allow; the others wait
  (∀ (s : State) (p addr len : Nat) (why : ReadPurpose), (s.port p).tagLimit ≤ (s.port p).inFlight →
    (s.issueRead p addr len why).out = s.out ∧
    ((s.issueRead p addr len why).port p).reads = (s.port p).reads ++
      [{ id := s.seqNo, addr, len, purpose := why, sent := false, tenant := s.readTenant p why }]) ∧
  -- a fetched operand that is poisoned is FETCH-POISON, one that failed FETCH-FAULT
  (∀ bs, fetchResult (some (bs, false)) = .ok bs ∧ fetchResult (some (bs, true)) = .error stFetchPoison ∧
    fetchResult none = .error stFetchFault)

/-! ### Host ports -/

/-- Resets and link events of a host port (R46, R47, R52, R54, R59, R71, R557, R588, R599). A containment of host
scope begins (R54, R114, R117, R557, R558, R567): the port's queues stop, its ring reads are no longer awaited, a
CONTAIN-START event with the cause goes to the device's and the port's field books, and no other port, no traverse and
no memory changes. A second cause on the port merges into the first, and one while the device restarts begins the
restart again. What here is the model's choice is told in log entries 6, 27, 28. -/
def Obligations.HostPortsAreReset : Prop :=
  -- PERST_N_DEASSERT samples straps not sampled since power-on, and the ports of the arrangement exist
  (∀ (s : State) (strap : BitVec 2), (s.port 0).perst = true → s.bif0 = none → s.railsValid = true → strap ≠ 3#2 →
    ∃ t : State, exec (.perstNDeassert 0 strap) s = .next t ∧ (t.port 0).perst = false ∧ t.bif0 = some strap ∧
      t.mem = s.mem ∧ t.trvs = s.trvs ∧
      ∀ p, (t.port p).created = ((s.port p).created || (arrangement 0 strap).contains p)) ∧
  (∀ (s : State) (slot : Nat) (strap : BitVec 2), slot < 8 → slot ≠ 0 → slot ≠ 4 → (s.port slot).perst = true →
    exec (.perstNDeassert slot strap) s = .next (s.setPort slot { s.port slot with perst := false })) ∧
  -- PERST_N_ASSERT: link and configuration gone, port reset containment with cause 0x05
  (∀ (s : State) (slot : Nat), slot < 8 → (s.port slot).perst = false →
    exec (.perstNAssert slot) s = .next (((s.modPort slot fun x =>
      { x with perst := true, configured := false, ready := false }).linkGone slot).startHost slot 0x05 true true)) ∧
  -- FLR: cause 0x01; at the administrative port the staged changes are discarded
  (∀ (s : State) (p : Nat), (s.port p).created = true → (s.port p).linkUp = true → (s.port p).configured = true →
    exec (.flr p) s = .next ((s.flrStaged p).startHost p 0x01 true false)) ∧
  (∀ (s : State) (p : Nat), s.manage.principal = some p → (s.flrStaged p).manage.staged = [] ∧
    (s.flrStaged p).manage.timetable.staging = false ∧ (∀ e, ((s.flrStaged p).engine e).staging = none) ∧
    (s.flrStaged p).ports = s.ports ∧ (s.flrStaged p).mem = s.mem) ∧
  (∀ (s : State) (p : Nat), s.manage.principal ≠ some p → s.flrStaged p = s) ∧
  -- D3HOT_ENTRY and D3HOT_TO_D0: writes are held, then made, and the port is reset with cause 0x02
  (∀ (s : State) (p : Nat), (s.port p).created = true → (s.port p).linkUp = true → (s.port p).configured = true →
    (∀ r ∈ (s.port p).reads, r.sent = true) →
    exec (.d3hotEntry p) s = .next ((s.modPort p fun x => { x with d3hot := true }).dmaPortLost p)) ∧
  -- a read that has not gone out ends
  (∀ (s : State) (p : Nat) (r : HostRead), (s.port p).created = true → (s.port p).linkUp = true →
    (s.port p).configured = true → (s.port p).reads.filter (fun r => !r.sent) = [r] →
    ∃ s1 : State, exec (.d3hotEntry p) s = .next (s1.readEnds p r none) ∧ (s1.port p).d3hot = true ∧
      (s1.port p).reads = (s.port p).reads.filter fun u => decide (u.id ≠ r.id)) ∧
  (∀ (s : State) (p : Nat), (s.port p).created = true → (s.port p).linkUp = true → (s.port p).d3hot = true →
    exec (.d3hotToD0 p) s =
      .next (((s.modPort p fun x => { x with d3hot := false }).releaseHeld p).startHost p 0x02 true false)) ∧
  -- DL_DOWN and the loss of the reference clock: cause 0x03
  (∀ (s : State) (p : Nat), (s.port p).created = true → (s.port p).linkUp = true →
    exec (.dlDown p) s = .next ((s.linkGone p).startHost p 0x03 true false) ∧
    exec (.pcieRefclkLoss p) s = .next ((s.linkGone p).startHost p 0x03 true false)) ∧
  -- UNCORRECTABLE_FATAL_ERROR: cause 0x04, and the port's blocks are not reset
  (∀ (s : State) (p : Nat), (s.port p).created = true → (s.port p).linkUp = true →
    exec (.uncorrectableFatalError p) s = .next (s.startHost p 0x04 false false)) ∧
  -- PCIE_LINK_UP: the link is up in D0, and the held writes go out
  (∀ (s : State) (p : Nat), (s.port p).created = true → (s.port p).perst = false → (s.port p).linkUp = false →
    (s.port p).clkMode ≤ 2 → s.mode = .ready → (s.port p).heldWrites = [] →
    exec (.pcieLinkUp p) s = .next (s.setPort p { s.port p with linkUp := true, d3hot := false, heldWrites := [] })) ∧
  (∀ (s : State) (p cause : Nat) (reset config : Bool), s.mode = .ready → (s.port p).created = true →
    (s.port p).contain = none → s.deviceContain = none →
    ∃ t, s.startHost p cause reset config = t ∧
      (t.port p).contain = some { cause := BitVec.ofNat 8 cause, phase := .stopping, resetBlocks := reset
                                  resetConfig := config, flr := decide (cause = 0x01) } ∧
      (∀ q, ((t.port p).sq q).en = false) ∧ (∀ r ∈ (t.port p).reads, r.isRing = false) ∧
      (t.port p).book = (s.port p).book.accept 0x05 0x30 (devicePayload s cause (2 ^ p) 0) ∧
      t.deviceBook = s.deviceBook.accept 0x05 0x30 (devicePayload s cause (2 ^ p) 0) ∧
      (∀ r, r ≠ p → t.port r = s.port r) ∧ t.trvs = s.trvs ∧ t.mem = s.mem) ∧
  (∀ (s : State) (p cause : Nat) (c : Containment) (reset config : Bool), s.mode = .ready →
    (s.port p).created = true → (s.port p).contain = some c →
    s.startHost p cause reset config = s.setPort p
      { s.port p with contain := some (c.merge reset config (decide (cause = 0x01))) } ∧
    (c.merge reset config (decide (cause = 0x01))).cause = c.cause) ∧
  (∀ (s : State) (p cause : Nat) (reset config : Bool), s.restarting = true → (s.port p).created = true →
    s.startHost p cause reset config = s.restart 0x22)

/-- Configuration space and BAR4 (R4, R5, R49, R52, R64, R411, R418). What here is the model's choice is told in log
entries 6, 46, 47. -/
def Obligations.ConfigurationAndBarFourAnswer : Prop :=
  -- CONFIG_REQUEST: retry status until the port is configured; then the dword, whose first names the device
  (∀ (s : State) (p d : Nat) (w : Bool) (v : BitVec 32), (s.port p).created = true → (s.port p).linkUp = true →
    d < 1024 → (s.port p).configured = false →
    exec (.configRequest p w d v) s = .next ((if w then s.hostTlp p 0 4 else s).emit (.retryStatus p))) ∧
  (∀ (s : State) (p d : Nat) (v : BitVec 32), (s.port p).created = true → (s.port p).linkUp = true → d < 1024 →
    (s.port p).configured = true →
    exec (.configRequest p false d v) s =
      .next ((s.hostTlp p 1 4).emit (.readData (leBytes 4 ((s.port p).readConfig d).toNat) false))) ∧
  (∀ x : Port, x.readConfig 0 = 0x09601F6B#32) ∧
  (∀ (s : State) (p d : Nat) (v : BitVec 32), (s.port p).created = true → (s.port p).linkUp = true → d < 1024 →
    (s.port p).configured = true → configMask (s.port p) d = 0 →
    exec (.configRequest p true d v) s = .next (s.hostTlp p 0 4)) ∧
  (∀ (s : State) (p d : Nat) (v : BitVec 32), (s.port p).created = true → (s.port p).linkUp = true → d < 1024 →
    (s.port p).configured = true → configMask (s.port p) d ≠ 0 →
    exec (.configRequest p true d v) s = .next ((s.hostTlp p 0 4).setPort p { (s.hostTlp p 0 4).port p with
      config := (s.port p).config.set d (v &&& configMask (s.port p) d) })) ∧
  -- BAR4_ACCESS through the window of an owned extent, and of one that is not
  (∀ (s : State) (p offset : Nat) (bytes : List Byte), (s.port p).created = true → (s.port p).linkUp = true →
    s.mode = .ready → bytes ≠ [] → (s.port p).bar4Log2 ≠ 0 → offset + bytes.length ≤ 2 ^ (s.port p).bar4Log2 →
    (s.port p).bar4En = true → offset % 65536 + bytes.length ≤ 65536 →
    s.ownsExtent p ((s.port p).bar4Base.toNat + offset / 65536) = true →
    (s.quarter (((s.port p).bar4Base.toNat + offset / 65536) / extentsPerQuarter)).reachable = true →
    ∃ t : State, exec (.bar4Access p true offset bytes) s = .next t ∧ t.out = s.out ∧ t.trvs = s.trvs ∧
      t.mem = putBytes s.mem (((s.port p).bar4Base.toNat + offset / 65536) * 65536 + offset % 65536) bytes) ∧
  (∀ (s : State) (p offset : Nat) (bytes : List Byte), (s.port p).created = true → (s.port p).linkUp = true →
    s.mode = .ready → bytes ≠ [] → (s.port p).bar4Log2 ≠ 0 → offset + bytes.length ≤ 2 ^ (s.port p).bar4Log2 →
    (s.port p).bar4En = true → offset % 65536 + bytes.length ≤ 65536 →
    s.ownsExtent p ((s.port p).bar4Base.toNat + offset / 65536) = true →
    (s.quarter (((s.port p).bar4Base.toNat + offset / 65536) / extentsPerQuarter)).reachable = true →
    ∃ t : State, exec (.bar4Access p false offset bytes) s = .next t ∧ t.mem = s.mem ∧ t.trvs = s.trvs ∧
      t.out = .readData (s.readBuf (((s.port p).bar4Base.toNat + offset / 65536) * 65536 + offset % 65536) bytes.length)
        (s.poisoned (((s.port p).bar4Base.toNat + offset / 65536) * 65536 + offset % 65536) bytes.length) :: s.out) ∧
  (∀ (s : State) (p offset : Nat) (bytes : List Byte), (s.port p).created = true → (s.port p).linkUp = true →
    s.mode = .ready → bytes ≠ [] → (s.port p).bar4Log2 ≠ 0 → offset + bytes.length ≤ 2 ^ (s.port p).bar4Log2 →
    (s.port p).bar4En = true → offset % 65536 + bytes.length ≤ 65536 →
    s.ownsExtent p ((s.port p).bar4Base.toNat + offset / 65536) = false →
    exec (.bar4Access p true offset bytes) s = .next ((s.hostTlp p 0 (tlpBytes offset bytes.length)).unclaimed p) ∧
    exec (.bar4Access p false offset bytes) s =
      .next ((s.bar4Answer p offset (List.replicate bytes.length 0) false).unclaimed p)) ∧
  -- one to a stack in self-refresh waits, and the stack wakes
  (∀ (s : State) (p offset q : Nat) (w : Bool) (bytes : List Byte), (s.port p).created = true →
    (s.port p).linkUp = true → s.mode = .ready → bytes ≠ [] → (s.port p).bar4Log2 ≠ 0 →
    offset + bytes.length ≤ 2 ^ (s.port p).bar4Log2 → (s.port p).bar4En = true →
    offset % 65536 + bytes.length ≤ 65536 → s.ownsExtent p ((s.port p).bar4Base.toNat + offset / 65536) = true →
    q = ((s.port p).bar4Base.toNat + offset / 65536) / extentsPerQuarter → (s.quarter q).stack = .selfRefresh →
    ∃ t : State, exec (.bar4Access p w offset bytes) s = .next t ∧ t.mem = s.mem ∧ t.out = s.out ∧
      (t.quarter q).stack = .exiting ∧
      (t.quarter q).bar4 = (s.quarter q).bar4 ++ [{ port := p, write := w, offset, bytes }])

/-! ### Hamper engines -/

/-- Every op command joins the bundle at hand when it is that bundle's next op, and with STOP on its last op the
bundle issues (R325, R326); an op that is not the bundle's next changes nothing. It covers every constructor listed in
hamperCommand. What here is the model's choice is told in log entry 1. -/
def Obligations.OpsJoinTheBundle : Prop :=
  (∀ (s : State) (c : Instr) (e : Nat) (stop : Bool) (op : HOp) (im : Image) (ops : List HOp),
    hamperCommand c = some (e, stop, op) → (s.engine e).image = some im → (s.engine e).ended = false →
    s.cycleNow e = true → bundleAt im.words (s.engine e).bundleAddr = some ops →
    ops[(s.engine e).bundle.length]? = some op →
    stop = decide ((s.engine e).bundle.length + 1 = ops.length) →
    exec c s = .next (if stop then s.issueBundle e im ops
      else s.setEngine e { s.engine e with bundle := (s.engine e).bundle ++ [op] })) ∧
  (∀ (s : State) (c : Instr) (e : Nat) (stop : Bool) (op : HOp) (im : Image) (ops : List HOp),
    hamperCommand c = some (e, stop, op) → (s.engine e).image = some im →
    bundleAt im.words (s.engine e).bundleAddr = some ops → ops[(s.engine e).bundle.length]? ≠ some op →
    exec c s = .next s) ∧
  -- a legal bundle has at most one op per unit and one use of each generator
  (∀ (ws : List (BitVec 32)) (a : Nat) (ops : List HOp), bundleAt ws a = some ops → 1 ≤ ops.length ∧ ops.length ≤ 7 ∧
    (ops.map HOp.unit).Nodup ∧ (ops.filterMap HOp.gen).Nodup)

/-- The memory ops (R328, R329, R335, R336): a load takes its slot and lands after 64 cycles, a store is accepted in
its slot, an ACCUMULATE joins the path to its quarter; the generator advances. A write reaches its beat alone. Galois
field ops (R330, R336): MAC accumulates scaled beats, GF OUT moves a P register, CLD loads coefficients. What here is
the model's choice is told in log entries 15, 16. -/
def Obligations.MemoryAndGaloisOpsTakeEffect : Prop :=
  (∀ (s : State) (e : Nat) (x : Engine) (vd : BitVec 5) (ag : BitVec 3), SoleOp s e x (.ld vd ag) →
    exec (.hLd e true vd ag) s = .next ((((s.modQuarter (quarterOfParty e) fun q =>
        { q with rowUsed := q.slotLane e 1 :: q.rowUsed }).met fun b => decide (b = (x.agen ag).addr / 64)).setEngine e { x with
      ag := x.ag.set ag.toNat (x.agen ag).advance
      lands := [{ cycle := x.cycle + 64, what := .v vd.toNat
                    { data := s.readBeat (x.agen ag).addr, poison := decide ((x.agen ag).addr / 64 ∈ s.poison) } true }]
      cycle := x.cycle + 1, bundle := [], bundleAddr := x.bundleAddr + 1 }).nextBundle e)) ∧
  (∀ (s : State) (e : Nat) (x : Engine) (reg : BitVec 5) (ag : BitVec 3), SoleOp s e x (.st false reg ag) →
    exec (.hSt e true false reg ag) s = .next (((s.modQuarter (quarterOfParty e) fun q =>
        { q with
          rowUsed := q.slotLane e 2 :: q.rowUsed
          rowStores := q.rowStores ++ [{ lane := q.slotLane e 2, addr := (x.agen ag).addr, data := (x.vr reg).data
                                         poison := (x.vr reg).poison, engine := e }] }).setEngine e
      { x with
        ag := x.ag.set ag.toNat (x.agen ag).advance
        cycle := x.cycle + 1, bundle := [], bundleAddr := x.bundleAddr + 1 }).nextBundle e)) ∧
  (∀ (s : State) (e : Nat) (x : Engine) (reg : BitVec 5) (ag : BitVec 3), SoleOp s e x (.st true reg ag) →
    exec (.hSt e true true reg ag) s = .next (((s.modQuarter (quarterOfParty e) fun q =>
        { q with
          rowUsed := q.slotLane e 2 :: q.rowUsed
          rowStores := q.rowStores ++
            [{ lane := q.slotLane e 2, addr := (x.agen ag).addr, data := (x.pr reg.toNat).data
               poison := (x.pr reg.toNat).poison, engine := e }] }).setEngine e
      { x with
        ag := x.ag.set ag.toNat (x.agen ag).advance
        cycle := x.cycle + 1, bundle := [], bundleAddr := x.bundleAddr + 1 }).nextBundle e)) ∧
  (∀ (s : State) (e : Nat) (x : Engine) (reg : BitVec 5) (ag : BitVec 3) (last : Bool) (row : BitVec 4)
      (col : BitVec 7), SoleOp s e x (.sta true reg ag last row col) →
    exec (.hSta e true true reg ag last row col) s = .next ((s.setEngine e { x with
      ag := x.ag.set ag.toNat (x.agen ag).advance
      sta := x.sta.set (staPath e (x.agen ag).quarter) (x.sta.get (staPath e (x.agen ag).quarter) [] ++
        [{ addr := (x.agen ag).addr, coef := x.coefAt row.toNat col.toNat, data := (x.pr reg.toNat).data
           poison := (x.pr reg.toNat).poison || x.rowPoison row.toNat, last }])
      cycle := x.cycle + 1, bundle := [], bundleAddr := x.bundleAddr + 1 }).nextBundle e)) ∧
  -- a write whose row has come writes its beat and no other byte
  (∀ (s : State) (q addr : Nat) (l : RowLand) (d : BitVec 512) (p bad : Bool) (a : Nat), (s.quarter q).lands = [l] →
    l.due ≤ (s.quarter q).absRow → l.what = .write addr d p bad → addr % 64 = 0 → a < addr ∨ addr + 64 ≤ a →
    memByte (s.landRow q).mem a = memByte s.mem a) ∧
  (∀ (s : State) (q addr i : Nat) (l : RowLand) (d : BitVec 512) (p bad : Bool), s.Inv → (s.quarter q).lands = [l] →
    l.due ≤ (s.quarter q).absRow → l.what = .write addr d p bad → addr % 64 = 0 → i < 64 →
    memByte (s.landRow q).mem (addr + i) = (d >>> (8 * i)).setWidth 8) ∧
  (∀ (s : State) (e : Nat) (x : Engine) (pb : BitVec 4) (vs : BitVec 5) (col : BitVec 7) (clr : Bool),
    SoleOp s e x (.mac pb 0 vs col false clr) → ∀ r : PReg,
    r = (if clr then { data := beatOf (gfScale (x.coefAt pb.toNat col.toNat) (beatBytes (x.vr vs).data))
                       poison := (x.vr vs).poison || x.rowPoison pb.toNat }
      else { data := beatOf (xorBytes (beatBytes (x.prNow pb.toNat).data)
               (gfScale (x.coefAt pb.toNat col.toNat) (beatBytes (x.vr vs).data)))
             poison := (x.prNow pb.toNat).poison || ((x.vr vs).poison || x.rowPoison pb.toNat) }) →
    exec (.hMac e true pb 0 vs col false clr) s = .next ((s.setEngine e { x with
      pNow := x.pNow.set pb.toNat r, lands := [{ cycle := x.cycle + 4, what := .p pb.toNat r }]
      cycle := x.cycle + 1, bundle := [], bundleAddr := x.bundleAddr + 1 }).nextBundle e)) ∧
  (∀ (s : State) (e : Nat) (x : Engine) (ps : BitVec 4) (vd : BitVec 5), SoleOp s e x (.gfOut ps vd) →
    exec (.hGfOut e true ps vd) s = .next ((s.setEngine e { x with
      lands := [{ cycle := x.cycle + 4, what := .v vd.toNat
                    { data := (x.pr ps.toNat).data, poison := (x.pr ps.toNat).poison } false }]
      cycle := x.cycle + 1, bundle := [], bundleAddr := x.bundleAddr + 1 }).nextBundle e)) ∧
  (∀ (s : State) (e : Nat) (x : Engine) (row : BitVec 4) (vs : BitVec 5), SoleOp s e x (.cld row vs false) →
    exec (.hCld e true row vs false) s = .next ((s.setEngine e { x with
      lands := [{ cycle := x.cycle + 4, what := .coef row.toNat
                    ((List.range 64).map fun i => (i, (beatBytes (x.vr vs).data).getD i 0)) (x.vr vs).poison }]
      cycle := x.cycle + 1, bundle := [], bundleAddr := x.bundleAddr + 1 }).nextBundle e)) ∧
  (∀ (s : State) (e : Nat) (x : Engine) (row : BitVec 4) (vs : BitVec 5), SoleOp s e x (.cld row vs true) →
    exec (.hCld e true row vs true) s = .next ((s.setEngine e { x with
      lands := [{ cycle := x.cycle + 4, what := .coef row.toNat
                    ((List.range 32).map fun i => (64 + i, (beatBytes (x.vr vs).data).getD i 0)) (x.vr vs).poison }]
      cycle := x.cycle + 1, bundle := [], bundleAddr := x.bundleAddr + 1 }).nextBundle e))

/-- Hash and cipher ops (R331 to R333, R336). What here is the model's choice is told in log entry 36. -/
def Obligations.HashAndCipherOpsTakeEffect : Prop :=
  (∀ (s : State) (e : Nat) (x : Engine) (h : BitVec 2), SoleOp s e x (.hsInit h) →
    exec (.hHsInit e true h) s = .next ((s.setEngine e { x with
      h := x.h.set h.toNat { init := true, sha := shaInit }
      cycle := x.cycle + 1, bundle := [], bundleAddr := x.bundleAddr + 1 }).nextBundle e)) ∧
  (∀ (s : State) (e : Nat) (x : Engine) (h sel : BitVec 2) (vs : BitVec 5), SoleOp s e x (.upd h vs sel) →
    exec (.hUpd e true h vs sel) s = .next ((s.setEngine e { x with
      h := x.h.set h.toNat ((x.lane h).absorb sel (beatBytes (x.vr vs).data) (x.vr vs).poison)
      cycle := x.cycle + 1, bundle := [], bundleAddr := x.bundleAddr + 1 }).nextBundle e)) ∧
  (∀ (s : State) (e : Nat) (x : Engine) (h sel : BitVec 2) (vs : BitVec 5) (n1 : BitVec 6),
    SoleOp s e x (.updn h vs sel n1) →
    exec (.hUpdn e true h vs sel n1) s = .next ((s.setEngine e { x with
      h := x.h.set h.toNat
        ((x.lane h).absorb sel ((beatBytes (x.vr vs).data).take (n1.toNat + 1)) (x.vr vs).poison)
      cycle := x.cycle + 1, bundle := [], bundleAddr := x.bundleAddr + 1 }).nextBundle e)) ∧
  (∀ (s : State) (e : Nat) (x : Engine) (h : BitVec 2) (vd : BitVec 5) (crc : Bool) (off : BitVec 3),
    SoleOp s e x (.fin h vd crc off) →
    exec (.hFin e true h vd crc off) s = .next ((s.setEngine e { x with
      lands := [{ cycle := x.cycle + 1, what := .vBytes vd.toNat (8 * off.toNat)
                    (if crc then leBytes 8 (x.lane h).crc.toNat else shaFinal (x.lane h).sha (x.lane h).buf (x.lane h).count)
                    (x.lane h).poison }]
      cycle := x.cycle + 1, bundle := [], bundleAddr := x.bundleAddr + 1 }).nextBundle e)) ∧
  (∀ (s : State) (e : Nat) (x : Engine) (h : BitVec 2) (vd : BitVec 5), SoleOp s e x (.hsSave h vd) →
    exec (.hHsSave e true h vd) s = .next ((s.setEngine e { x with
      lands := [{ cycle := x.cycle + 1, what := .v vd.toNat
                    { data := beatOf (x.lane h).bytes, poison := (x.lane h).poison } false }]
      cycle := x.cycle + 1, bundle := [], bundleAddr := x.bundleAddr + 1 }).nextBundle e)) ∧
  -- HS REST: state, CRC and byte count come back; the bytes not yet compressed are free
  (∀ (s : State) (e : Nat) (x : Engine) (h : BitVec 2) (vs : BitVec 5), SoleOp s e x (.hsRest h vs) →
    ∃ (t : State) (l : HashLane), exec (.hHsRest e true h vs) s = .next (t.nextBundle e) ∧
      t.engine e = { x with h := x.h.set h.toNat l, cycle := x.cycle + 1, bundle := [], bundleAddr := x.bundleAddr + 1 } ∧
      l.init = true ∧ l.sha = beWords ((beatBytes (x.vr vs).data).take 32) ∧
      l.count = fieldAt (beatBytes (x.vr vs).data) 32 8 ∧
      l.crc = BitVec.ofNat 64 (fieldAt (beatBytes (x.vr vs).data) 40 8) ∧ l.buf.length = l.count % 64 ∧
      l.poison = (x.vr vs).poison ∧ t.mem = s.mem) ∧
  (∀ (s : State) (e : Nat) (x : Engine) (k : BitVec 2) (vs : BitVec 5), SoleOp s e x (.crInit k vs) →
    exec (.hCrInit e true k vs) s = .next ((s.setEngine e { x with
      k := x.k.set k.toNat { gcmInit (gcmIv ((beatBytes (x.vr vs).data).take 16)
        (fieldAt (beatBytes (x.vr vs).data) 16 2)) with poison := (x.vr vs).poison, readyAt := x.cycle + 14 }
      cycle := x.cycle + 1, bundle := [], bundleAddr := x.bundleAddr + 1 }).nextBundle e)) ∧
  (∀ (s : State) (e : Nat) (x : Engine) (k : BitVec 2) (vd vs : BitVec 5), SoleOp s e x (.enc k vd vs) →
    exec (.hEnc e true k vd vs) s = .next ((s.setEngine e { x.cipher x x.cycle true k vd vs with
      cycle := x.cycle + 1, bundle := [], bundleAddr := x.bundleAddr + 1 }).nextBundle e)) ∧
  (∀ (s : State) (e : Nat) (x : Engine) (k : BitVec 2) (vd vs : BitVec 5), SoleOp s e x (.dec k vd vs) →
    exec (.hDec e true k vd vs) s = .next ((s.setEngine e { x.cipher x x.cycle false k vd vs with
      cycle := x.cycle + 1, bundle := [], bundleAddr := x.bundleAddr + 1 }).nextBundle e)) ∧
  (∀ (s : State) (e : Nat) (x : Engine) (k : BitVec 2) (vd : BitVec 5) (off : BitVec 3), SoleOp s e x (.crTag k vd off) →
    exec (.hCrTag e true k vd off) s = .next ((s.setEngine e { x with
      lands := [{ cycle := x.cycle + 14, what := .vBytes vd.toNat (8 * off.toNat) (gcmTag x.keys (x.ctx k))
                    (x.ctx k).poison }]
      cycle := x.cycle + 1, bundle := [], bundleAddr := x.bundleAddr + 1 }).nextBundle e)) ∧
  (∀ (s : State) (e : Nat) (x : Engine) (k : BitVec 2) (vd : BitVec 5), SoleOp s e x (.crSave k vd) →
    exec (.hCrSave e true k vd) s = .next ((s.setEngine e { x with
      lands := [{ cycle := x.cycle + 14, what := .v vd.toNat
                    { data := packCtx (x.ctx k), poison := (x.ctx k).poison, sealedBy := true } false }]
      cycle := x.cycle + 1, bundle := [], bundleAddr := x.bundleAddr + 1 }).nextBundle e)) ∧
  (∀ (s : State) (e : Nat) (x : Engine) (k : BitVec 2) (vs : BitVec 5), SoleOp s e x (.crRest k vs) →
    exec (.hCrRest e true k vs) s = .next ((s.setEngine e { x with
      k := x.k.set k.toNat (unpackCtx (x.v.get vs.toNat {}).data (x.v.get vs.toNat {}).poison (x.cycle + 14))
      cycle := x.cycle + 1, bundle := [], bundleAddr := x.bundleAddr + 1 }).nextBundle e)) ∧
  -- INIT and REST without a key fault, and a REST of a register no SAVE sealed
  (∀ (x : Engine) (k : BitVec 2) (vs : BitVec 5), x.running.bind (·.key) = none →
    x.badKey (.crInit k vs) = true ∧ x.badKey (.crRest k vs) = true) ∧
  (∀ (x : Engine) (k : BitVec 2) (vs : BitVec 5), (x.v.get vs.toNat {}).sealedBy = false →
    x.badKey (.crRest k vs) = true ∧ ∀ i, x.vr i = { x.v.get i.toNat {} with
      data := if (x.v.get i.toNat {}).sealedBy then 0 else (x.v.get i.toNat {}).data })

/-- Arithmetic and control ops (R334, R336, R339, R340, R343). -/
def Obligations.ArithmeticAndControlOpsTakeEffect : Prop :=
  (∀ (s : State) (e : Nat) (x : Engine) (vd va vb : BitVec 5),
    (SoleOp s e x (.alXor vd va vb) → exec (.hAlXor e true vd va vb) s = .next ((s.setEngine e { x with
      lands := [{ cycle := x.cycle + 1, what := .v vd.toNat
                    { data := (x.vr va).data ^^^ (x.vr vb).data, poison := (x.vr va).poison || (x.vr vb).poison } false }]
      cycle := x.cycle + 1, bundle := [], bundleAddr := x.bundleAddr + 1 }).nextBundle e)) ∧
    (SoleOp s e x (.alAnd vd va vb) → exec (.hAlAnd e true vd va vb) s = .next ((s.setEngine e { x with
      lands := [{ cycle := x.cycle + 1, what := .v vd.toNat
                    { data := (x.vr va).data &&& (x.vr vb).data, poison := (x.vr va).poison || (x.vr vb).poison } false }]
      cycle := x.cycle + 1, bundle := [], bundleAddr := x.bundleAddr + 1 }).nextBundle e)) ∧
    (SoleOp s e x (.alOr vd va vb) → exec (.hAlOr e true vd va vb) s = .next ((s.setEngine e { x with
      lands := [{ cycle := x.cycle + 1, what := .v vd.toNat
                    { data := (x.vr va).data ||| (x.vr vb).data, poison := (x.vr va).poison || (x.vr vb).poison } false }]
      cycle := x.cycle + 1, bundle := [], bundleAddr := x.bundleAddr + 1 }).nextBundle e))) ∧
  (∀ (s : State) (e : Nat) (x : Engine) (vd va : BitVec 5),
    (SoleOp s e x (.alMov vd va) → exec (.hAlMov e true vd va) s = .next ((s.setEngine e { x with
      lands := [{ cycle := x.cycle + 1, what := .v vd.toNat { x.vr va with sealedBy := false } false }]
      cycle := x.cycle + 1, bundle := [], bundleAddr := x.bundleAddr + 1 }).nextBundle e)) ∧
    (SoleOp s e x (.zero vd) → exec (.hZero e true vd) s = .next ((s.setEngine e { x with
      lands := [{ cycle := x.cycle + 1, what := .v vd.toNat {} false }]
      cycle := x.cycle + 1, bundle := [], bundleAddr := x.bundleAddr + 1 }).nextBundle e))) ∧
  (∀ (s : State) (e : Nat) (x : Engine) (vd off : BitVec 5) (l : Bool), SoleOp s e x (.inslc vd off l) →
    exec (.hInslc e true vd off l) s = .next ((s.setEngine e { x with
      lands := [{ cycle := x.cycle + 1, what := .vBytes vd.toNat (2 * off.toNat)
                    (leBytes 2 (if l then x.loop1.lc else x.loop0.lc)) false }]
      cycle := x.cycle + 1, bundle := [], bundleAddr := x.bundleAddr + 1 }).nextBundle e)) ∧
  -- NEQ and PTEST set a bit of the result and never clear one
  (∀ (s : State) (e : Nat) (x : Engine) (bit : BitVec 6) (va vb : BitVec 5), SoleOp s e x (.neq bit va vb) →
    exec (.hNeq e true bit va vb) s = .next ((s.setEngine e { x with
      res := if (x.vr va).data = (x.vr vb).data then x.res else x.res ||| 1#64 <<< bit.toNat
      cycle := x.cycle + 1, bundle := [], bundleAddr := x.bundleAddr + 1 }).nextBundle e)) ∧
  (∀ (s : State) (e : Nat) (x : Engine) (bit : BitVec 6) (va : BitVec 5), SoleOp s e x (.ptest bit va) →
    exec (.hPtest e true bit va) s = .next ((s.setEngine e { x with
      res := if (x.vr va).poison then x.res ||| 1#64 <<< bit.toNat else x.res
      cycle := x.cycle + 1, bundle := [], bundleAddr := x.bundleAddr + 1 }).nextBundle e)) ∧
  (∀ (s : State) (e : Nat) (x : Engine), SoleOp s e x .nop →
    exec (.hCtNop e true) s = .next ((s.setEngine e { x with
      cycle := x.cycle + 1, bundle := [], bundleAddr := x.bundleAddr + 1 }).nextBundle e)) ∧
  (∀ (s : State) (e : Nat) (x : Engine) (n1 : BitVec 12), SoleOp s e x (.idle n1) →
    exec (.hCtIdle e true n1) s = .next ((s.setEngine e { x with
      cycle := x.cycle + n1.toNat + 2, bundle := [], bundleAddr := x.bundleAddr + 1 }).nextBundle e)) ∧
  (∀ (s : State) (e : Nat) (x : Engine) (ag : BitVec 3), SoleOp s e x (.agrst ag) →
    exec (.hAgrst e true ag) s = .next ((s.setEngine e { x with
      ag := x.ag.set ag.toNat (x.agStart.get ag.toNat {})
      cycle := x.cycle + 1, bundle := [], bundleAddr := x.bundleAddr + 1 }).nextBundle e)) ∧
  (∀ (s : State) (e : Nat) (x : Engine), SoleOp s e x .endOp →
    exec (.hCtEnd e true) s = .next (s.setEngine e { x with
      ended := true, cycle := x.cycle + 1, bundle := [], bundleAddr := x.bundleAddr + 1 })) ∧
  -- LOOP: the level is active with count, and its body starts after the bundle that follows it
  (∀ (s : State) (e : Nat) (x : Engine) (im : Image) (csel : BitVec 3) (stop : BitVec 12), x.image = some im →
    SoleOp s e x (.loop false csel stop) → stop.toNat ≠ x.bundleAddr →
    exec (.hLoop e true false csel stop) s = .next ((s.setEngine e { x with
      loop0 := { lc := 0, active := true, count := x.counts.get csel.toNat 0, start := loopStart im.words x.bundleAddr
                 stop := stop.toNat }
      cycle := x.cycle + 1, bundle := [], bundleAddr := x.bundleAddr + 1 }).nextBundle e)) ∧
  -- the bundle at a level's END repeats the body until its count is reached
  (∀ (x : Engine) (here next : Nat), x.loop1.active = false → x.loop0.active = true → x.loop0.stop = here →
    x.loopNext here next = (if x.loop0.lc + 1 < x.loop0.count
      then ({ x with loop0 := { x.loop0 with lc := x.loop0.lc + 1 } }, x.loop0.start)
      else ({ x with loop0 := { x.loop0 with active := false } }, next))) ∧
  -- the same of level 1, whose last pass leaves the bundle to level 0; any other bundle is followed by the next
  (∀ (s : State) (e : Nat) (x : Engine) (im : Image) (csel : BitVec 3) (stop : BitVec 12), x.image = some im →
    SoleOp s e x (.loop true csel stop) → stop.toNat ≠ x.bundleAddr →
    exec (.hLoop e true true csel stop) s = .next ((s.setEngine e { x with
      loop1 := { lc := 0, active := true, count := x.counts.get csel.toNat 0, start := loopStart im.words x.bundleAddr
                 stop := stop.toNat }
      cycle := x.cycle + 1, bundle := [], bundleAddr := x.bundleAddr + 1 }).nextBundle e)) ∧
  (∀ (x : Engine) (here next : Nat), x.loop1.active = true → x.loop1.stop = here →
    x.loopNext here next = (if x.loop1.lc + 1 < x.loop1.count
      then ({ x with loop1 := { x.loop1 with lc := x.loop1.lc + 1 } }, x.loop1.start)
      else Engine.loopNext { x with loop1 := { x.loop1 with active := false } } here next)) ∧
  (∀ (x : Engine) (here next : Nat), (x.loop1.active = true → x.loop1.stop ≠ here) →
    (x.loop0.active = true → x.loop0.stop ≠ here) → x.loopNext here next = (x, next))

/-- Recipes are launched, prepared, started and ended (R188, R192, R193, R323, R324, R336, R342, R343, R350 to R360,
R604). What here is the model's choice is told in log entries 16, 35, 36, 37. -/
def Obligations.RecipesRunToTheirEnd : Prop :=
  -- RECIPE and VERIFY: a launch joins the queue of the traverse's engine
  (∀ (s : State) (p tag : Nat) (v : Trv), AtLeg s p tag 0x23 v →
    exec (.legRecipe p tag) s = .next (((s.putTrv { v with stage := .awaiting }).modEngine v.party fun x =>
      { x with queue := x.queue ++ [{ port := p, tag, recipe := some (fieldAt v.leg 16 2), key := fieldAt v.leg 18 2
                                      addr := bufPos (legAddr v.leg), len := legLen v.leg }] }).placeLaunches v.party)) ∧
  (∀ (s : State) (p tag : Nat) (v : Trv), AtLeg s p tag 0x25 v →
    exec (.legVerify p tag) s = .next (((s.putTrv { v with stage := .awaiting }).modEngine v.party fun x =>
      { x with queue := x.queue ++ [{ port := p, tag, recipe := none, key := 0xFFFF, addr := bufPos (legAddr v.leg)
                                      len := legLen v.leg, ref := bufPos (legOperand v.leg)
                                      mode := legByte v.leg 24 }] }).placeLaunches v.party)) ∧
  -- PREPARATION_DONE: the launch at the front is prepared, or ends its leg with a recipe fault
  (∀ (s : State) (e : Nat) (l : Launch) (rest : List Launch) (v : Trv) (pr : Prepared), (s.engine e).prepared = none →
    (s.engine e).queue = l :: rest → s.trv? l.port l.tag = some v → (s.met (s.prepBeat v l)).prepare e v l = .ok pr →
    exec (.preparationDone e) s =
      .next ((s.met (s.prepBeat v l)).setEngine e { s.engine e with prepared := some pr })) ∧
  (∀ (s : State) (e code : Nat) (l : Launch) (rest : List Launch) (v : Trv), (s.engine e).prepared = none →
    (s.engine e).queue = l :: rest → s.trv? l.port l.tag = some v →
    (s.met (s.prepBeat v l)).prepare e v l = .error (.fault code) →
    exec (.preparationDone e) s = .next
      ((((s.met (s.prepBeat v l)).setEngine e { s.engine e with queue := rest }).placeLaunches e).launchEnds l
        (faultResult l 0xFFFF 0 0 code))) ∧
  -- RECIPE_START, on a frame boundary: the prepared launch at the head runs; a store recipe of another profile faults
  (∀ (s : State) (e : Nat) (l : Launch) (rest : List Launch) (pr : Prepared), (s.engine e).running = none →
    (s.engine e).prepared = some pr → (s.engine e).queue = l :: rest → (s.engine e).profileNext = none →
    pr.launch.isStore = false → pr.launch.key = 0xFFFF → (s.quarter (quarterOfParty e)).absRow % 256 = 0 →
    exec (.recipeStart e) s = .next
      ((s.setEngine e (({ s.engine e with queue := rest, prepared := none } : Engine).startRom pr
        (s.quarter (quarterOfParty e)).absRow)).placeLaunches e)) ∧
  (∀ (s : State) (e : Nat) (l : Launch) (rest : List Launch) (pr : Prepared) (im : Image),
    (s.engine e).running = none → (s.engine e).prepared = some pr → (s.engine e).queue = l :: rest →
    (s.engine e).profileNext = none → pr.launch.isStore = true → pr.launch.key = 0xFFFF →
    (s.engine e).slots.find (pr.launch.recipe.getD 0 % 16) = some im → im.profile = (s.engine e).profile →
    (s.quarter (quarterOfParty e)).absRow % 256 = 0 →
    exec (.recipeStart e) s = .next (((s.setEngine e
      (({ s.engine e with queue := rest, prepared := none } : Engine).startStore pr im
        (s.quarter (quarterOfParty e)).absRow)).placeLaunches e).nextBundle e)) ∧
  (∀ (s : State) (e : Nat), (s.quarter (quarterOfParty e)).absRow % 256 ≠ 0 → exec (.recipeStart e) s = .next s) ∧
  (∀ (s : State) (e : Nat) (l : Launch) (rest : List Launch) (pr : Prepared) (im : Image),
    (s.engine e).running = none → (s.engine e).prepared = some pr → (s.engine e).queue = l :: rest →
    (s.engine e).profileNext = none → pr.launch.isStore = true →
    (s.engine e).slots.find (pr.launch.recipe.getD 0 % 16) = some im → im.profile ≠ (s.engine e).profile →
    (s.quarter (quarterOfParty e)).absRow % 256 = 0 →
    exec (.recipeStart e) s = .next
      (((s.setEngine e { s.engine e with queue := rest, prepared := none }).placeLaunches e).launchEnds pr.launch
        (faultResult pr.launch 0xFFFF 0 0 6))) ∧
  -- HAMPER_LOAD_LANDS
  (∀ (s : State) (e : Nat) (l : Land), (s.engine e).lands = [l] → l.what.isLoad = true →
    l.cycle ≤ (s.engine e).cycle →
    exec (.hamperLoadLands e) s = .next (s.landDue e l.cycle)) ∧
  -- RECIPE_END of a store recipe: OK with its result as LEG_INFO
  (∀ (s : State) (e id : Nat) (pr : Prepared), (s.engine e).running = some pr → pr.launch.recipe = some id →
    0x8000 ≤ id → (s.engine e).ended = true → (s.engine e).late = none → s.staDone e = true →
    exec (.recipeEnd e) s = .next (((s.landAll e).engineIdle e).launchEnds pr.launch
      { status := stOk, info := some (s.engine e).res })) ∧
  -- of a recipe that a fault stopped: the fault's result, once everything issued before has taken effect
  (∀ (s : State) (e id : Nat) (pr : Prepared) (r : LegResult), (s.engine e).running = some pr →
    pr.launch.recipe = some id → (s.engine e).ended = true → (s.engine e).late = some r →
    exec (.recipeEnd e) s = .next (if s.staDone e then ((s.landAll e).engineIdle e).launchEnds pr.launch r else s)) ∧
  (∀ (s : State) (e : Nat) (pr : Prepared), (s.engine e).running = some pr → pr.launch.recipe = none →
    exec (.recipeEnd e) s =
      .next (((s.met (verifyBeat pr.launch)).engineIdle e).launchEnds pr.launch (s.verifyResult pr.launch))) ∧
  -- RUN_LIMIT: fault code 8 with the bundle address and the loop counts
  (∀ (s : State) (e id : Nat) (pr : Prepared), (s.engine e).running = some pr → pr.launch.recipe = some id →
    0x8000 ≤ id → (s.engine e).ended = false →
    (s.engine e).startRow + 2 ^ 30 ≤ (s.quarter (quarterOfParty e)).absRow →
    ∃ t : State, exec (.runLimit e) s = .next (t.finishRecipe e) ∧ t.engine e = { s.engine e with
        ended := true, bundle := []
        late := some (faultResult pr.launch (s.engine e).bundleAddr (s.engine e).loop0.lc (s.engine e).loop1.lc 8) } ∧
      t.trvs = s.trvs ∧ t.mem = s.mem) ∧
  (∀ (l : Launch) (addr lc0 lc1 code : Nat), (faultResult l addr lc0 lc1 code).residual = l.len ∧
    (faultResult l addr lc0 lc1 code).status = (if code = 6 then stRecipeProfile else stRecipeFault)) ∧
  -- a launch with a key starts with the key that was prepared, and knows whether it was erased since
  (∀ (s : State) (e : Nat) (l : Launch) (rest : List Launch) (pr : Prepared) (k : BitVec 256),
    (s.engine e).running = none → (s.engine e).prepared = some pr → (s.engine e).queue = l :: rest →
    (s.engine e).profileNext = none → pr.launch.isStore = false → pr.launch.key ≠ 0xFFFF → pr.key = some k →
    (s.quarter (quarterOfParty e)).absRow % 256 = 0 →
    exec (.recipeStart e) s = .next
      ((s.setEngine e { ({ s.engine e with queue := rest, prepared := none } : Engine).startRom pr
        (s.quarter (quarterOfParty e)).absRow with
        keyErased := s.manage.keys.find (4096 * pr.launch.port + pr.launch.key) != some k }).placeLaunches e)) ∧
  -- RECIPE_END of a ROM recipe: its stores and accumulates go out with an OK result, or its fault stops it
  (∀ (s : State) (e id res : Nat) (pr : Prepared) (effects : List RomEffect), (s.engine e).running = some pr →
    pr.launch.recipe = some id → id < 0x8000 → (s.engine e).ended = false → s.romRun id pr = (res, effects) →
    s.romFaults id e pr (s.engine e).keyErased = [] → s.romFaults id e pr false = [] →
    exec (.recipeEnd e) s = .next ((effects.foldl (State.romEffect e)
      (({ s with fresh := s.fresh + 1 } : State).met (romBeat id pr.block pr.used))).stopRecipe e
        { status := stOk, info := some (BitVec.ofNat 64 res) })) ∧
  (∀ (s : State) (e id code i j : Nat) (pr : Prepared), (s.engine e).running = some pr →
    pr.launch.recipe = some id → id < 0x8000 → (s.engine e).ended = false →
    s.romFaults id e pr (s.engine e).keyErased = [(code, i, j)] → s.romFaults id e pr false = [(code, i, j)] →
    exec (.recipeEnd e) s = .next (((({ s with fresh := s.fresh + 1 } : State).met (romBeat id pr.block pr.used)).romPart e
      (s.romRun id pr).2).stopRecipe e (faultResult pr.launch 0xFFFE i j code))) ∧
  -- RUN_LIMIT of a ROM recipe
  (∀ (s : State) (e id : Nat) (pr : Prepared), (s.engine e).running = some pr → pr.launch.recipe = some id →
    id < 0x8000 → (s.engine e).ended = false →
    (s.engine e).startRow + 2 ^ 30 ≤ (s.quarter (quarterOfParty e)).absRow →
    exec (.runLimit e) s = .next ((s.romPart e (s.romRun id pr).2).stopRecipe e
      (faultResult pr.launch 0xFFFE 0xFFFF 0xFFFF 8)))

/-! ### The timetable and stack power -/

/-- Rows, boundaries, seams, beacons and shadow writes (R26 to R28, R280, R285, R304 to R307, R312). Stack power
states (R415 to R418): a quiet stack enters through tables of open cells at the basic level and at once at the expert
level; stack 0 never does; the exit completes through full tables, or at once. What here is the model's choice is told
in log entries 16, 32, 47. -/
def Obligations.TimetablesAndStacksAdvance : Prop :=
  -- TIMETABLE_ROW: a row in which nothing moves only counts
  (∀ (s : State) (q : Nat), s.held = false → (s.quarter q).row < 4096 → s.bundleDue q = false →
    ((s.quarter q).seam = true → (s.quarter q).row < 1024) → (s.quarter q).flights = [] →
    (s.quarter q).deliveries = [] → (s.quarter q).lands = [] → (s.quarter q).rowStores = [] →
    (∀ e, (s.engine e).sta = []) → (∀ c, (s.chain c).rx = [] ∧ (s.chain c).reader = none ∧
      ∀ d ∈ (s.chain c).cmds, d.answer = none) → s.collector = [] →
    ∃ t : State, exec (.timetableRow q .clean [] []) s = .next t ∧ (t.quarter q).row = (s.quarter q).row + 1 ∧
      (t.quarter q).absRow = (s.quarter q).absRow + 1 ∧ t.mem = s.mem ∧ t.out = s.out ∧ t.engines = s.engines) ∧
  (∀ (s : State) (q : Nat) (uses : List LaneUse) (asks : List OpenAsk), s.held = false → (s.quarter q).row < 4096 →
    s.bundleDue q = false → ((s.quarter q).seam = true → (s.quarter q).row < 1024) →
    exec (.timetableRow q .clean uses asks) s = .next (((((s.rowWork q uses asks).1.rowEffect q
      (s.rowWork q uses asks).2).collectorCell q).nextRow q).settleAnswers)) ∧
  -- one whose engines have a bundle still to issue waits for it, one past the last row for the boundary, one past
  -- row 1,023
  -- of a seam for its end, and none runs while the device is held in reset
  (∀ (s : State) (q : Nat) (ecc : RowEcc) (uses : List LaneUse) (asks : List OpenAsk),
    s.held = true ∨ s.bundleDue q = true ∨ 4096 ≤ (s.quarter q).row ∨
      ((s.quarter q).seam = true ∧ 1024 ≤ (s.quarter q).row) → exec (.timetableRow q ecc uses asks) s = .next s) ∧
  -- an uncorrectable row restarts the device
  (∀ (s : State) (q : Nat) (uses : List LaneUse) (asks : List OpenAsk), s.held = false → (s.quarter q).row < 4096 →
    s.bundleDue q = false → ((s.quarter q).seam = true → (s.quarter q).row < 1024) →
    exec (.timetableRow q .uncorrectable uses asks) s =
      .next ((s.integrityFailure q 1 (s.quarter q).row).restart 0x21)) ∧
  -- a READ answers 64 rows on, a WRITE shows after 2 rows and an ACCUMULATE after 8
  (∀ (s : State) (q : Nat) (u : RowWrite),
    ((s.rowEffect q { writes := [u] }).quarter q).lands = (s.quarter q).lands ++
      [{ due := (s.quarter q).absRow + 2, what := u.what, cmd := u.cmd, engine := u.engine }]) ∧
  (∀ (s : State) (q : Nat) (b : AccumBeat),
    ((s.rowEffect q { accums := [b] }).quarter q).lands = (s.quarter q).lands ++
      [{ due := (s.quarter q).absRow + 8, what := .accum b, engine := b.engine }]) ∧
  -- two writes of one row land in the order of their lanes, whatever owner they have
  (∀ (s : State) (q : Nat) (u v : RowWrite), v.lane < u.lane →
    ((s.rowEffect q { writes := [u, v] }).quarter q).lands = (s.quarter q).lands ++
      [{ due := (s.quarter q).absRow + 2, what := v.what, cmd := v.cmd, engine := v.engine },
       { due := (s.quarter q).absRow + 2, what := u.what, cmd := u.cmd, engine := u.engine }]) ∧
  -- a contribution is counted 24 rows after its cell, 16 after it shows
  (∀ (s : State) (q : Nat) (l : RowLand) (b : AccumBeat), (s.quarter q).lands = [l] →
    l.due ≤ (s.quarter q).absRow → l.what = .accum b → b.last = true →
    ((s.landRow q).quarter q).lands = [{ due := l.due + 16, what := .count b.addr, engine := l.engine }]) ∧
  -- SUPERFRAME_BOUNDARY, after the last row: the count goes on and row 0 follows; an armed swap happens exactly at
  -- its count
  (∀ (s : State) (q : Nat), (s.quarter q).row < 4096 → exec (.superframeBoundary q) s = .next s) ∧
  (∀ (s : State) (q : Nat), s.held = false → q ≠ 0 → 4096 ≤ (s.quarter q).row → (s.quarter q).shadowArm = false →
    exec (.superframeBoundary q) s = .next (s.setQuarter q { s.quarter q with
      sf := (s.quarter q).sf + 1, row := 0, beaconSeen := false })) ∧
  (∀ (s : State) (q : Nat), s.held = false → q ≠ 0 → 4096 ≤ (s.quarter q).row → (s.quarter q).shadowArm = true →
    (s.quarter q).swapAt = (s.quarter q).sf + 1 →
    exec (.superframeBoundary q) s = .next ((s.setQuarter q { s.quarter q with
      sf := (s.quarter q).sf + 1, row := 0, beaconSeen := false }).swap q)) ∧
  -- quarter 0's boundary sends the beacon upward and downward
  (∀ s : State, s.held = false → 4096 ≤ (s.quarter 0).row → (s.quarter 0).shadowArm = false →
    ∃ t : State, exec (.superframeBoundary 0) s = .next t ∧ (t.quarter 0).sf = (s.quarter 0).sf + 1 ∧
      (t.quarter 0).row = 0 ∧ t.frame = (s.quarter 0).absRow / 256 ∧ t.mem = s.mem ∧
      (t.quarter 1).beacons = (s.quarter 1).beacons ++ [((s.quarter 0).sf + 1, 0)] ∧
      (t.quarter 3).beacons = (s.quarter 3).beacons ++ [((s.quarter 0).sf + 1, 0)] ∧
      (t.quarter 2).beacons = (s.quarter 2).beacons) ∧
  -- SEAM_END, after row 1,023: the seam is over and the new bank governs alone
  (∀ (s : State) (q : Nat), (s.quarter q).seam = true → 1024 ≤ (s.quarter q).row → (s.quarter q).stack = .active →
    exec (.seamEnd q) s = .next (s.setQuarter q { s.quarter q with seam := false, oldBank := [] }).generateDue) ∧
  -- a stack that a wake reached before its tables of open cells were made is ACTIVE under the full ones
  (∀ (s : State) (q : Nat), (s.quarter q).seam = true → 1024 ≤ (s.quarter q).row → (s.quarter q).stack = .entering →
    (s.quarter q).waking = true → (s.quarter q).armedKind ≠ .openCells →
    exec (.seamEnd q) s = .next (s.setQuarter q { s.quarter q with
      seam := false, oldBank := [], stack := .active, waking := false }).generateDue) ∧
  (∀ (s : State) (q : Nat), (s.quarter q).row < 1024 → exec (.seamEnd q) s = .next s) ∧
  -- FRAME_BEACON with the quarter's own count is noted, and quarter 1 relays it; another count, or none, restarts
  -- the device
  (∀ (s : State) (q d : Nat) (rest : List (BitVec 32 × Nat)), (s.quarter q).aligned = true → q ≠ 1 →
    (s.quarter q).beacons = ((s.quarter q).sf, d) :: rest →
    exec (.frameBeacon q (s.quarter q).sf) s =
      .next (s.setQuarter q { s.quarter q with beacons := rest, beaconSeen := true })) ∧
  (∀ (s : State) (d : Nat) (rest : List (BitVec 32 × Nat)), (s.quarter 1).aligned = true →
    (s.quarter 1).beacons = ((s.quarter 1).sf, d) :: rest →
    exec (.frameBeacon 1 (s.quarter 1).sf) s = .next ((s.setQuarter 1 { s.quarter 1 with beacons := rest, beaconSeen := true }).beaconTo 2
      (s.quarter 1).sf (s.quarter 1).beaconDelay)) ∧
  (∀ (s : State) (q d : Nat) (n : BitVec 32) (rest : List (BitVec 32 × Nat)), (s.quarter q).aligned = true →
    n ≠ (s.quarter q).sf → (s.quarter q).beacons = (n, d) :: rest →
    exec (.frameBeacon q n) s = .next ((s.integrityFailure q 2 0).restart 0x21)) ∧
  (∀ (s : State) (q : Nat), q ≠ 0 → (s.quarter q).aligned = true → (s.quarter q).beaconSeen = false →
    (s.quarter q).beaconDelay + 16 ≤ (s.quarter q).row →
    exec (.beaconMissing q) s = .next ((s.integrityFailure q 3 0).restart 0x21)) ∧
  -- BEACON_ALIGNMENT: half the largest of 64 round trips is added to the delay, and the row follows from it
  (∀ (s : State) (q row delay : Nat) (n : BitVec 32) (rest : List (BitVec 32 × Nat)) (trips : List Nat),
    s.mode = .boot row → q ≠ 0 → (s.quarter q).aligned = false → (s.quarter q).beacons = (n, delay) :: rest →
    trips.length = 64 →
    ∃ t : State, exec (.beaconAlignment q n delay trips) s = .next t ∧ (t.quarter q).aligned = true ∧
    (t.quarter q).sf = n ∧
      (t.quarter q).beaconDelay = delay + trips.foldl (fun m r => Nat.max m (r / 2)) 0 ∧
      (t.quarter q).row = (t.quarter q).beaconDelay ∧
      (t.quarter q).absRow = n.toNat * 4096 + (t.quarter q).beaconDelay ∧
      t.mem = s.mem ∧ ∀ r, r ≠ q → r ≠ 2 → t.quarter r = s.quarter r) ∧
  -- TT_SHADOW_DATA_WRITE: one word of the shadow bank, and the address steps on; refused while a swap is armed
  (∀ (s : State) (q : Nat) (v : Word), (s.quarter q).shadowArm = true →
    exec (.ttShadowDataWrite q v) s = .next (s.setQuarter q { s.quarter q with shadowBusy := true })) ∧
  (∀ (s : State) (q : Nat) (v : Word), (s.quarter q).shadowArm = false →
    ∃ t : State, exec (.ttShadowDataWrite q v) s = .next t ∧ (t.quarter q).shadowAddr = (s.quarter q).shadowAddr + 1 ∧
      (∀ n, bankRow (t.quarter q).activeBank n = bankRow (s.quarter q).activeBank n) ∧
      (∀ n, n ≠ (s.quarter q).shadowAddr.toNat / 8 →
        bankRow (t.quarter q).shadowBank n = bankRow (s.quarter q).shadowBank n) ∧ t.mem = s.mem) ∧
  (∀ (s : State) (q : Nat), q ≠ 0 → s.manage.stackMask.getLsbD q = true → (s.quarter q).stack = .active →
    s.quiet q = true → s.dmaAddresses q = false → s.manage.timetable.expert = false →
    exec (.stackSrEntryTimer q) s =
      .next (s.setQuarter q { s.quarter q with stack := .entering, waking := false }).regenerate) ∧
  (∀ (s : State) (q : Nat), q ≠ 0 → s.manage.stackMask.getLsbD q = true → (s.quarter q).stack = .active →
    s.quiet q = true → s.dmaAddresses q = false → s.manage.timetable.expert = true → (s.quarter q).openTables = true →
    exec (.stackSrEntryTimer q) s = .next (s.enterSelfRefresh q)) ∧
  (∀ s : State, exec (.stackSrEntryTimer 0) s = .next s) ∧
  (∀ (s : State) (q : Nat), s.manage.stackMask.getLsbD q = false → exec (.stackSrEntryTimer q) s = .next s) ∧
  (∀ (s : State) (q : Nat), ((s.enterSelfRefresh q).quarter q).stack = .selfRefresh ∧
    (s.enterSelfRefresh q).mem = s.mem ∧ (s.enterSelfRefresh q).poison = s.poison) ∧
  (∀ (s : State) (q : Nat), (s.quarter q).stack = .exiting → (s.quarter q).waking = true →
    s.manage.timetable.expert = true → (s.quarter q).bar4 = [] → (s.quarter q).sbWrites = [] →
    ∃ t : State, exec (.srExitComplete q) s = .next t ∧ (t.quarter q).stack = .active ∧ (t.quarter q).waking = false ∧
      t.mem = s.mem) ∧
  (∀ (s : State) (q : Nat), (s.quarter q).stack = .exiting → (s.quarter q).waking = true →
    s.manage.timetable.expert = false →
    exec (.srExitComplete q) s = .next
      ((((s.setQuarter q { s.quarter q with waking := false }).memoryEvent q 0x06 0x3FFFFF 0).regenerate.serveBar4
        q).serveSb q)) ∧
  -- a part of a status block whose stack sleeps waits for it
  (∀ (s : State) (t : Trv) (off q : Nat) (bs : List Byte), isBufAddr t.sb = true → t.sb ≠ 0 →
    (s.reach (bufQuarters (bufPos t.sb + off) bs.length)).1.sbQuarter t (bufPos t.sb + off) bs.length = some q →
    (s.writeSb t off bs).2 = { t with sbLate := true } ∧ (s.writeSb t off bs).1.mem = s.mem ∧
    ((s.writeSb t off bs).1.quarter q).sbWrites = (s.quarter q).sbWrites ++
      [{ port := t.port, tag := t.tag, pos := bufPos t.sb + off, bytes := bs }]) ∧
  -- the BAR4 accesses that waited are served, port by port in turn
  (∀ (s : State) (q : Nat) (r : Bar4Req), (s.quarter q).bar4 = [r] → (s.port r.port).created = true →
    (s.port r.port).linkUp = true → r.port < 8 →
    s.serveBar4 q = (s.setQuarter q { s.quarter q with bar4 := [], bar4Turn := (r.port + 1) % 8 }).bar4 r.port r.write
      r.offset r.bytes)

/-! ### Mailboxes -/

/-- Posts, releases and WAKE writes of the mailboxes (R493, R494, R497 to R499). The reply a service posts (R500): its
words from word 0, FULL, and the port's notice. What here is the model's choice is told in log entries 46, 55. -/
def Obligations.MailboxesCarryMessages : Prop :=
  -- MB_REQ_POST: LEN is latched, FULL sets and the system controller's doorbell rings; LEN 0 or above 32 is refused
  (∀ (s : State) (p m : Nat) (v : BitVec 32), s.barOpen p = true → p < 8 → m < 4 → 1 ≤ bitsOf v.toNat 5 0 →
    bitsOf v.toNat 5 0 ≤ 32 →
    exec (.mbReqPost p m v) s = .next (((s.hostTlp p 0 4).setMailbox (4 * p + m) { s.mailbox (4 * p + m) with
      full := true, len := bitsOf v.toNat 5 0
      collision := (s.mailbox (4 * p + m)).collision || (s.mailbox (4 * p + m)).full }).ringCore 48 0 (4 * p + m))) ∧
  (∀ (s : State) (p m : Nat) (v : BitVec 32), s.barOpen p = true → m < 4 →
    (bitsOf v.toNat 5 0 = 0 ∨ 32 < bitsOf v.toNat 5 0) →
    exec (.mbReqPost p m v) s =
      .next ((s.hostTlp p 0 4).setMailbox (4 * p + m) { s.mailbox (4 * p + m) with fieldRefused := true })) ∧
  (∀ (s : State) (p : Nat) (v : BitVec 32), s.barOpen p = true → s.manage.principal ≠ some p →
    exec (.mbReqPost p 4 v) s = .next ((s.hostTlp p 0 4).unclaimed p) ∧
    exec (.mbRplRel p 4 v) s = .next ((s.hostTlp p 0 4).unclaimed p)) ∧
  -- MB_RPL_REL: a full reply is empty again; releasing an empty one changes nothing
  (∀ (s : State) (p m : Nat) (v : BitVec 32), s.barOpen p = true → p < 8 → m < 4 → v.getLsbD 0 = true →
    exec (.mbRplRel p m v) s = .next (if (s.mailbox (32 + 4 * p + m)).full
      then (s.hostTlp p 0 4).setMailbox (32 + 4 * p + m) { s.mailbox (32 + 4 * p + m) with full := false }
      else s.hostTlp p 0 4)) ∧
  -- MB_WAKE_WORD0_WRITE by a port: words 0 and 1; in WAKE mode a post of LEN 32
  (∀ (s : State) (p inst : Nat) (v : BitVec 32), s.barOpen p = true → inst < 32 → inst / 4 = p →
    (s.mailbox inst).wake = false →
    exec (.mbWakeWord0Write (.port p) inst v) s = .next ((s.hostTlp p 0 4).setMailbox inst
      (((s.mailbox inst).putWord 0 (v.setWidth 16)).putWord 1 (v.extractLsb' 16 16)))) ∧
  (∀ (s : State) (p inst : Nat) (v : BitVec 32), s.barOpen p = true → inst < 32 → inst / 4 = p →
    (s.mailbox inst).wake = true →
    (s.mailbox inst).full = false →
    ∃ t : State, exec (.mbWakeWord0Write (.port p) inst v) s = .next t ∧ (t.mailbox inst).full = true ∧
      (t.mailbox inst).len = 32 ∧ (t.mailbox inst).words.get 0 0 = v.setWidth 16 ∧
      (t.mailbox inst).collision = (s.mailbox inst).collision ∧ t.mem = s.mem) ∧
  -- in recovery the BARs answer nothing else (R555)
  (∀ (s : State) (p m : Nat) (v : BitVec 32), s.reachable p = true → s.recovering = true →
    exec (.mbReqPost p m v) s = .next ((s.hostTlp p 0 4).unclaimed p) ∧
    exec (.mbRplRel p m v) s = .next ((s.hostTlp p 0 4).unclaimed p)) ∧
  -- MB_POST and MB_REL by the core at that end, in supervisor mode
  (∀ (s : State) (k inst : Nat) (v : Word), s.mayAccess k = false →
    exec (.mbPost k inst v) s = .next s ∧ exec (.mbRel k inst v) s = .next s) ∧
  (∀ (s : State) (inst : Nat) (v : Word), s.mayAccess 48 = true → inst < 32 → v.getLsbD 0 = true →
    (s.mailbox inst).full = true →
    exec (.mbRel 48 inst v) s = .next ((s.setMailbox inst { s.mailbox inst with full := false }).ringHost (inst / 4)
      (8 + inst % 4))) ∧
  (∀ (s : State) (inst : Nat) (v : Word), s.mayAccess 48 = true → 32 ≤ inst → inst < 64 → 1 ≤ bitsOf v.toNat 5 0 →
    bitsOf v.toNat 5 0 ≤ 32 →
    exec (.mbPost 48 inst v) s = .next ((s.setMailbox inst { s.mailbox inst with
      full := true, len := bitsOf v.toNat 5 0
      collision := (s.mailbox inst).collision || (s.mailbox inst).full }).ringHost ((inst - 32) / 4) (inst % 4))) ∧
  (∀ (s : State) (k inst : Nat) (v : Word), s.mbSender inst ≠ .core k → exec (.mbPost k inst v) s = .next s) ∧
  (∀ (s : State) (k inst : Nat) (v : Word), s.mayAccess k = true → s.mbSender inst = .core k →
    mbMayUse k (s.core k).cur inst = true → 1 ≤ bitsOf v.toNat 5 0 → bitsOf v.toNat 5 0 ≤ 32 →
    exec (.mbPost k inst v) s = .next ((s.setMailbox inst { s.mailbox inst with
      full := true, len := bitsOf v.toNat 5 0
      collision := (s.mailbox inst).collision || (s.mailbox inst).full }).mbRing inst)) ∧
  (∀ (s : State) (k inst : Nat) (v : Word), s.mayAccess k = true → s.mbReceiver inst = .core k →
    mbMayUse k (s.core k).cur inst = true → 32 ≤ inst → inst ≠ instSecureReq → v.getLsbD 0 = true →
    (s.mailbox inst).full = true →
    exec (.mbRel k inst v) s = .next (s.setMailbox inst { s.mailbox inst with full := false })) ∧
  -- MB_WAKE_WORD0_WRITE by a core: word 0; in WAKE mode a post of LEN 32, and the receiving engine's clocks run again
  (∀ (s : State) (k c inst : Nat) (v : BitVec 32), s.mayAccess k = true → (s.core k).cur = c →
    s.mbSender inst = .core k → mbMayUse k c inst = true → (s.mailbox inst).wake = false →
    exec (.mbWakeWord0Write (.core k c) inst v) s =
      .next (s.setMailbox inst ((s.mailbox inst).putWord 0 (v.setWidth 16)))) ∧
  (∀ (s : State) (k c j inst : Nat) (v : BitVec 32), s.mayAccess k = true → (s.core k).cur = c →
    s.mbSender inst = .core k → mbMayUse k c inst = true → (s.mailbox inst).wake = true →
    s.mbReceiver inst = .core j → j < 48 →
    ∃ t : State, exec (.mbWakeWord0Write (.core k c) inst v) s = .next t ∧ (t.mailbox inst).full = true ∧
      (t.mailbox inst).len = 32 ∧ (t.mailbox inst).words.get 0 0 = v.setWidth 16 ∧
      (t.mailbox inst).collision = ((s.mailbox inst).collision || (s.mailbox inst).full) ∧
      (t.core j).gated = false ∧ t.mem = s.mem) ∧
  -- MAILBOX_REQUEST_TAKE: the request is copied and released, and joins the service queue or is answered INVALID
  (∀ (s : State) (inst : Nat), s.mode = .ready → inst < 32 → (s.mailbox inst).full = true →
    (s.mailbox (32 + inst)).full = false → (∀ v ∈ s.service, v.inst ≠ inst) → (s.mailbox inst).collision = false →
    mbAccepts inst (((List.range (s.mailbox inst).len).map fun w => (s.mailbox inst).words.get w 0).headD 0).toNat = true →
    ∃ t : State, exec (.mailboxRequestTake inst) s = .next t ∧ (t.mailbox inst).full = false ∧ t.mem = s.mem ∧
      t.service = s.service ++ [{ inst, words := (List.range (s.mailbox inst).len).map fun w =>
        (s.mailbox inst).words.get w 0, order := s.seqNo }]) ∧
  (∀ (s : State) (inst : Nat), s.mode = .ready → inst < 32 → (s.mailbox inst).full = true →
    (s.mailbox (32 + inst)).full = false → (∀ v ∈ s.service, v.inst ≠ inst) → (s.mailbox inst).collision = true →
    exec (.mailboxRequestTake inst) s = .next ((s.mbRelease inst).postReply inst [3])) ∧
  (∀ (s : State) (inst : Nat) (words : List Nat), inst < 32 → words ≠ [] → words.length ≤ 32 →
    ((s.postReply inst words).mailbox (32 + inst)).full = true ∧
    ((s.postReply inst words).mailbox (32 + inst)).len = words.length ∧
    (∀ w, w < words.length → ((s.postReply inst words).mailbox (32 + inst)).words.get w 0 =
      BitVec.ofNat 16 (words.getD w 0)) ∧
    (∀ i, i ≠ 32 + inst → (s.postReply inst words).mailbox i = s.mailbox i) ∧
    ((s.postReply inst words).port (inst / 4)).hdb.getLsbD (inst % 4) = true ∧
    (s.postReply inst words).mem = s.mem ∧ (s.postReply inst words).service = s.service)

/-! ### The management principal -/

/-- Kilvor requests (R71 to R74, R77, R80, R600): a change asked by anyone but the principal is NOT-PRINCIPAL, a
payload of another form INVALID; otherwise it takes effect and is answered 0. What here is the model's choice is told
in log entry 31. -/
def Obligations.KilvorRequestsAreServed : Prop :=
  (∀ (s : State) (c : Instr) (src : KilvorSrc) (code : Nat) (r : KReq), changeCommand c = some (src, code) →
    s.kreq src = some r → s.kAwake src = true → r.sound = true → r.code = code → s.isPrincipal r = false →
    exec c s = .next (s.kreply src 2 [])) ∧
  -- GET_APPORTIONMENT answers any sender with the view of the port named and the profiles
  (∀ (s : State) (src : KilvorSrc) (r : KReq) (p : Byte), s.kreq src = some r → s.kAwake src = true →
    r.sound = true → r.code = 0x01 →
    r.payload = [p] → (s.port p.toNat).created = true →
    ∃ data, exec (.getApportionment src) s = .next (s.kreply src 0 data) ∧ data.length = 1036 ∧
      fieldAt data 0 4 = (s.port p.toNat).ap.gen.toNat) ∧
  -- STAGE_GRANT: the grant is staged in place of an earlier one of its class, port and index
  (∀ (s : State) (src : KilvorSrc) (r : KReq), s.kreq src = some r → s.kAwake src = true → r.sound = true →
    r.code = 0x02 →
    s.isPrincipal r = true → s.grantOk r.payload = true → byteAt r.payload 0 ≠ 0xB →
    exec (.stageGrant src) s = .next (({ s with manage := { s.manage with
      staged := s.manage.staged.filter (fun h => !(h.cls = byteAt r.payload 0 && h.port = byteAt r.payload 1 &&
          h.index = byteAt r.payload 2)) ++
        [{ cls := byteAt r.payload 0, port := byteAt r.payload 1, index := byteAt r.payload 2,
           value := r.payload.drop 4 }] } } : State).kreply src 0 [])) ∧
  -- COMMIT: BUSY in a containment, OVER-CAPACITY, IN-USE, or everything staged at once
  (∀ (s : State) (src : KilvorSrc) (r : KReq), s.kreq src = some r → s.kAwake src = true → r.sound = true →
    r.code = 0x03 →
    s.isPrincipal r = true → r.payload = [] → s.commitWaits src = false →
    exec (.commit src) s = .next (
      if s.anyContain then s.kreply src 1 []
      else if s.totalsOk = false then s.kreply src 5 []
      else if (List.range 8).any (fun p => !s.withdrawOk p) then s.kreply src 4 []
      else s.commitNow.kreply src 0 [])) ∧
  (∀ s : State, s.commitNow.manage.staged = [] ∧ s.commitNow.mem = s.mem) ∧
  -- one received over MCTP after an action still to be served takes its place behind it
  (∀ (s : State) (path : MctpPath) (body : List Byte) (r : KReq), s.kreq (.mctp path body) = some r → r.sound = true →
    r.code = 0x03 → s.isPrincipal r = true → r.payload = [] → s.commitWaits (.mctp path body) = true →
    ∃ t : State, exec (.commit (.mctp path body)) s = .next t ∧ t.out = s.out ∧ t.manage = s.manage ∧
    t.ports = s.ports ∧
      t.service = s.service ++ [{ inst := instMctp, words := [3], order := s.seqNo, mctp := some (path, body) }]) ∧
  -- an INDIRECT request whose reply area lies in a stack that sleeps waits for it
  (∀ (s : State) (c : Instr) (code q : Nat) (r : KReq) (v : Service) (rest : List Service),
    changeCommand c = some (.service, code) → s.kreq .service = some r → r.sound = true → r.code = code →
    s.service = v :: rest → v.mctp = none → s.replyArea v = true → q ∈ bufQuarters (bufPos (v.quad 7)) 4096 →
    (s.quarter q).stack = .selfRefresh →
    ∃ t : State, exec c s = .next t ∧ t.service = s.service ∧ (t.quarter q).stack = .exiting ∧ t.mem = s.mem ∧
      t.out = s.out) ∧
  -- DISCARD
  (∀ (s : State) (src : KilvorSrc) (r : KReq), s.kreq src = some r → s.kAwake src = true → r.sound = true →
    r.code = 0x04 →
    s.isPrincipal r = true → r.payload = [] →
    exec (.discard src) s =
      .next (({ s with manage := { s.manage with staged := [] } } : State).kreply src 0 [])) ∧
  -- SET_ADMIN from the BMC names a created port, or 0xFF for itself; a port is refused
  (∀ (s : State) (src : KilvorSrc) (r : KReq) (p : Byte), s.kreq src = some r → s.kAwake src = true →
    r.sound = true → r.code = 0x05 →
    r.sender = none → r.payload = [p] → p.toNat < 8 → (s.port p.toNat).created = true →
    exec (.setAdmin src) s = .next ((s.setPrincipal (some p.toNat)).kreply src 0 [])) ∧
  (∀ (s : State) (src : KilvorSrc) (r : KReq) (p : Nat), s.kreq src = some r → s.kAwake src = true →
    r.sound = true → r.code = 0x05 →
    r.sender = some p → exec (.setAdmin src) s = .next (s.kreply src 2 [])) ∧
  (∀ (s : State) (p : Option Nat), (s.setPrincipal p).manage.principal = p ∧ (s.setPrincipal p).mem = s.mem ∧
    (p ≠ s.manage.principal → (s.setPrincipal p).manage.staged = [])) ∧
  -- KILVOR_UNKNOWN_COMMAND
  (∀ (s : State) (src : KilvorSrc) (r : KReq), s.kreq src = some r → s.kAwake src = true → r.sound = true →
    9 < r.code →
    exec (.kilvorUnknownCommand src) s = .next (s.kreply src 3 [])) ∧
  -- a payload of another form is INVALID
  (∀ (s : State) (c : Instr) (src : KilvorSrc) (code : Nat) (r : KReq), changeCommand c = some (src, code) →
    s.kreq src = some r → s.kAwake src = true → r.sound = true → r.code = code → s.isPrincipal r = true →
    (code = 2 → s.grantOk r.payload = false) → (code ≠ 2 → r.payload ≠ []) →
    exec c s = .next (s.kreply src 3 [])) ∧
  (∀ (s : State) (src : KilvorSrc) (r : KReq), s.kreq src = some r → s.kAwake src = true → r.sound = true →
    r.code = 0x01 → (r.payload.length ≠ 1 ∨ (s.port (byteAt r.payload 0)).created = false) →
    exec (.getApportionment src) s = .next (s.kreply src 3 [])) ∧
  (∀ (s : State) (src : KilvorSrc) (r : KReq), s.kreq src = some r → s.kAwake src = true → r.sound = true →
    r.code = 0x05 → r.sender = none → (r.payload.length ≠ 1 ∨ (byteAt r.payload 0 ≠ 0xFF ∧
      (8 ≤ byteAt r.payload 0 ∨ (s.port (byteAt r.payload 0)).created = false))) →
    exec (.setAdmin src) s = .next (s.kreply src 3 [])) ∧
  (∀ (s : State) (src : KilvorSrc) (r : KReq), s.kreq src = some r → s.kAwake src = true → r.sound = true →
    r.code = 0x05 → r.sender = none → r.payload = [0xFF] →
    exec (.setAdmin src) s = .next ((s.setPrincipal none).kreply src 0 [])) ∧
  -- a profile of an engine is staged for no port
  (∀ (s : State) (src : KilvorSrc) (r : KReq), s.kreq src = some r → s.kAwake src = true → r.sound = true →
    r.code = 0x02 → s.isPrincipal r = true → s.grantOk r.payload = true → byteAt r.payload 0 = 0xB →
    exec (.stageGrant src) s = .next (({ s with manage := { s.manage with
      staged := s.manage.staged.filter (fun h => !(h.cls = 0xB && h.port = 0 && h.index = byteAt r.payload 2)) ++
        [{ cls := 0xB, port := 0, index := byteAt r.payload 2, value := r.payload.drop 4 }] } } : State).kreply src 0 []))

/-- SET-LEVEL (R8 to R10, R243, R274, R275, R308, R360, R419, R431): each function takes its parameters from the
principal's payload and answers 0; the basic level brings derived values back. What here is the model's choice is told
in log entry 29. -/
def Obligations.LevelsAreSet : Prop :=
  (∀ (s : State) (c : Instr) (src : KilvorSrc) (fn : Nat) (r : KReq), levelCommand c = some (src, fn) →
    s.kreq src = some r → s.kAwake src = true → r.sound = true → r.code = 0x06 → byteAt r.payload 0 = fn →
    s.isPrincipal r = false →
    exec c s = .next (s.kreply src 2 [])) ∧
  -- function 0x10
  (∀ (s : State) (src : KilvorSrc) (b : List Byte), LevelRequest s src 0x10 b → outingChoiceOk b = true →
    isExpert b = false →
    exec (.setLevelOutingChoice src) s = .next (({ s with
      manage := { s.manage with outing := { s.manage.outing with
      expertChoice := false, lingerS := fieldAt b 4 4, maxOpenS := fieldAt b 8 4, ageLimitS := fieldAt b 12 4,
      drainMaxS := 60, faultHoldS := 60, retireCount := 3, weights := [], dayOffset := 0 } },
      shelves := Tab.mapVals s.shelves fun x => { x with windowNext := some none } } : State).kreply src 0 [])) ∧
  -- function 0x11
  (∀ (s : State) (src : KilvorSrc) (b : List Byte), LevelRequest s src 0x11 b → isExpert b = true → b.length = 5 →
    1 ≤ byteAt b 4 → byteAt b 4 ≤ 2 →
    exec (.setLevelShelvesPerChain src) s = .next (({ s with manage := { s.manage with outing := { s.manage.outing with
      expertCount := true, count := byteAt b 4 } } } : State).kreply src 0 [])) ∧
  -- function 0x12
  (∀ (s : State) (src : KilvorSrc) (b : List Byte), LevelRequest s src 0x12 b → b.length = 8 → 1 ≤ byteAt b 4 →
    byteAt b 4 ≤ 96 → byteAt b 5 = 0 → 5 ≤ fieldAt b 6 2 → fieldAt b 6 2 ≤ 600 →
    exec (.setLevelSpinUp src) s = .next (({ s with
      manage := { s.manage with outing := { s.manage.outing with
      expertSpin := isExpert b, group := byteAt b 4, intervalDs := fieldAt b 6 2 } },
      shelves := if isExpert b then s.shelves else Tab.mapVals s.shelves fun x => { x with steps := none } } :
        State).kreply src 0 [])) ∧
  -- function 0x20: a chain whose link function changes waits for its port-level reset
  (∀ (s : State) (src : KilvorSrc) (b : List Byte), LevelRequest s src 0x20 b → isExpert b = false → b.length = 4 →
    ∃ t : State, exec (.setLevelLink src) s = .next (t.kreply src 0 []) ∧ t.manage.sas.expertLink = false ∧
      t.manage.sas.chainLink = [] ∧ t.mem = s.mem ∧ t.trvs = s.trvs ∧
      ∀ c, c < 12 → t.chain c = { s.chain c with
        linkPending := decide (15 ≠ (s.chain c).laneEn.toNat) || decide (0 ≠ (s.chain c).maxRate) }) ∧
  -- function 0x21
  (∀ (s : State) (src : KilvorSrc) (b : List Byte), LevelRequest s src 0x21 b → isExpert b = false → b.length = 6 →
    5 ≤ fieldAt b 4 2 → fieldAt b 4 2 ≤ 3600 →
    exec (.setLevelRecovery src) s = .next (({ s with manage := { s.manage with sas := { s.manage.sas with
      expertRecovery := false, cmdTimeoutS := fieldAt b 4 2, tmfTimeoutS := 10, nexusLossMs := 2000, busyRetries := 8
      retryDelayMs := 20, handleDepth := 64, portTimeoutS := [] } } } : State).kreply src 0 [])) ∧
  -- function 0x30: the expert level keeps the tables
  (∀ (s : State) (src : KilvorSrc) (b : List Byte), LevelRequest s src 0x30 b → b.length = 4 → isExpert b = true →
    exec (.setLevelTimetable src) s = .next (({ s with manage := { s.manage with timetable :=
      { s.manage.timetable with expert := true, staging := false } } } : State).kreply src 0 [])) ∧
  -- function 0x50
  (∀ (s : State) (src : KilvorSrc) (b : List Byte), LevelRequest s src 0x50 b → b.length = 4 → isExpert b = true →
    exec (.setLevelRecipes src) s =
      .next (({ s with manage := { s.manage with recipesExpert := true } } : State).kreply src 0 [])) ∧
  -- function 0x60
  (∀ (s : State) (src : KilvorSrc) (b : List Byte), LevelRequest s src 0x60 b → b.length = 5 → isExpert b = false →
    byteAt b 4 = 1 → (s.quarter 0).stack ≠ .selfRefresh →
    exec (.setLevelStackPower src) s = .next (({ s with manage := { s.manage with
      stackExpert := false, stackMask := 0x0E, entryMs := 1000 } } : State).kreply src 0 [])) ∧
  (∀ (s : State) (q : Nat), (s.quarter q).stack = .selfRefresh → ((s.wakeStack q).quarter q).stack = .exiting ∧
    (s.wakeStack q).mem = s.mem) ∧
  -- function 0x61
  (∀ (s : State) (src : KilvorSrc) (b : List Byte), LevelRequest s src 0x61 b → b.length = 4 → isExpert b = false →
    exec (.setLevelCopy src) s =
      .next (({ s with manage := { s.manage with copyExpert := false, copyMax := [] } } : State).kreply src 0 [])) ∧
  -- a level other than 0 and 1, a reserved byte set or a payload cut short is INVALID
  (∀ (s : State) (c : Instr) (src : KilvorSrc) (fn : Nat) (b : List Byte), levelCommand c = some (src, fn) →
    LoadRequest s src 0x06 fn b → (2 ≤ byteAt b 1 ∨ zeroAt b 2 2 = false ∨ b.length < 4) →
    exec c s = .next (s.kreply src 3 [])) ∧
  -- the other level of each function: 0x10 expert
  (∀ (s : State) (src : KilvorSrc) (b : List Byte), LevelRequest s src 0x10 b → outingChoiceOk b = true →
    isExpert b = true →
    exec (.setLevelOutingChoice src) s = .next (({ s with
      manage := { s.manage with outing := { s.manage.outing with
      expertChoice := true, lingerS := fieldAt b 4 4, maxOpenS := fieldAt b 8 4, ageLimitS := fieldAt b 12 4,
      drainMaxS := fieldAt b 16 4, faultHoldS := fieldAt b 20 4, retireCount := byteAt b 24,
      weights := (List.range 8).map fun p => (p, byteAt b (32 + p)), dayOffset := fieldAt b 40 4 } } } : State).kreply
        src 0 [])) ∧
  -- 0x11 basic
  (∀ (s : State) (src : KilvorSrc) (b : List Byte), LevelRequest s src 0x11 b → isExpert b = false → b.length = 4 →
    exec (.setLevelShelvesPerChain src) s = .next (({ s with manage := { s.manage with outing := { s.manage.outing with
      expertCount := false, count := 1 } } } : State).kreply src 0 [])) ∧
  -- 0x20 expert: each chain's lanes and rate limit
  (∀ (s : State) (src : KilvorSrc) (b : List Byte), LevelRequest s src 0x20 b → isExpert b = true → b.length = 16 →
    (∀ c, c < 12 → 16 ≤ byteAt b (4 + c) ∧ byteAt b (4 + c) / 4 % 4 = 0 ∧ byteAt b (4 + c) % 4 ≠ 3) →
    ∃ t : State, exec (.setLevelLink src) s = .next (t.kreply src 0 []) ∧ t.manage.sas.expertLink = true ∧
      t.mem = s.mem ∧ t.trvs = s.trvs ∧
      ∀ c, c < 12 → (t.manage.sas.link c).toNat = byteAt b (4 + c) ∧ t.chain c = { s.chain c with
        linkPending := decide (byteAt b (4 + c) / 16 ≠ (s.chain c).laneEn.toNat) ||
          decide (byteAt b (4 + c) % 4 ≠ (s.chain c).maxRate) }) ∧
  -- 0x21 expert
  (∀ (s : State) (src : KilvorSrc) (b : List Byte), LevelRequest s src 0x21 b → isExpert b = true → b.length = 32 →
    5 ≤ fieldAt b 4 2 → fieldAt b 4 2 ≤ 3600 → 1 ≤ fieldAt b 6 2 → fieldAt b 6 2 ≤ 60 → 100 ≤ fieldAt b 8 2 →
    fieldAt b 8 2 ≤ 10000 → byteAt b 10 ≤ 64 → byteAt b 11 = 0 → 1 ≤ fieldAt b 12 2 → fieldAt b 12 2 ≤ 1000 →
    1 ≤ fieldAt b 14 2 → fieldAt b 14 2 ≤ 256 →
    (∀ p, p < 8 → 5 ≤ fieldAt b (16 + 2 * p) 2 ∧ fieldAt b (16 + 2 * p) 2 ≤ 3600) →
    exec (.setLevelRecovery src) s = .next (({ s with manage := { s.manage with sas := { s.manage.sas with
      expertRecovery := true, cmdTimeoutS := fieldAt b 4 2, tmfTimeoutS := fieldAt b 6 2, nexusLossMs := fieldAt b 8 2
      busyRetries := byteAt b 10, retryDelayMs := fieldAt b 12 2, handleDepth := fieldAt b 14 2
      portTimeoutS := (List.range 8).map fun p => (p, fieldAt b (16 + 2 * p) 2) } } } : State).kreply src 0 [])) ∧
  -- 0x30 basic: from the expert level the firmware generates the tables again
  (∀ (s : State) (src : KilvorSrc) (b : List Byte), LevelRequest s src 0x30 b → b.length = 4 → isExpert b = false →
    exec (.setLevelTimetable src) s = .next ((if s.manage.timetable.expert then
        ({ s with manage := { s.manage with timetable :=
          { s.manage.timetable with expert := false, staging := false } } } : State).regenerate
      else { s with manage := { s.manage with timetable :=
        { s.manage.timetable with expert := false, staging := false } } }).kreply src 0 [])) ∧
  -- 0x50 basic: staging ends and every slot is erased, those that a launch names when it ends
  (∀ (s : State) (src : KilvorSrc) (b : List Byte), LevelRequest s src 0x50 b → b.length = 4 → isExpert b = false →
    exec (.setLevelRecipes src) s = .next (({ s with
      manage := { s.manage with recipesExpert := false }
      engines := Tab.mapVals s.engines fun x =>
        Engine.erased { x with staging := none, eraseSlots := List.range 16 } } : State).kreply src 0 [])) ∧
  -- 0x60 expert, and basic with stack power off: a stack that no longer may sleep wakes
  (∀ (s : State) (src : KilvorSrc) (b : List Byte), LevelRequest s src 0x60 b → b.length = 8 → isExpert b = true →
    byteAt b 4 < 16 → byteAt b 4 % 2 = 0 → byteAt b 5 = 0 → 10 ≤ fieldAt b 6 2 → fieldAt b 6 2 ≤ 60000 →
    (∀ q, q < 4 → (s.quarter q).stack ≠ .selfRefresh) →
    exec (.setLevelStackPower src) s = .next (({ s with manage := { s.manage with
      stackExpert := true, stackMask := BitVec.ofNat 8 (byteAt b 4), entryMs := fieldAt b 6 2 } } : State).kreply
        src 0 [])) ∧
  (∀ (s : State) (src : KilvorSrc) (b : List Byte), LevelRequest s src 0x60 b → b.length = 5 → isExpert b = false →
    byteAt b 4 = 0 → (∀ q, q < 4 → (s.quarter q).stack ≠ .selfRefresh) →
    exec (.setLevelStackPower src) s = .next (({ s with manage := { s.manage with
      stackExpert := false, stackMask := 0, entryMs := 1000 } } : State).kreply src 0 [])) ∧
  -- 0x61 expert
  (∀ (s : State) (src : KilvorSrc) (b : List Byte), LevelRequest s src 0x61 b → b.length = 12 → isExpert b = true →
    (∀ p, p < 8 → 1 ≤ byteAt b (4 + p) ∧ byteAt b (4 + p) ≤ 6) →
    exec (.setLevelCopy src) s = .next (({ s with manage := { s.manage with
      copyExpert := true, copyMax := (List.range 8).map fun p => (p, byteAt b (4 + p)) } } : State).kreply src 0 []))

/-- Loads of tables, recipes and keys (R309, R310, R357 to R360, R365, R390 to R392). What here is the model's choice
is told in log entries 29, 34, 58. -/
def Obligations.TablesRecipesAndKeysAreLoaded : Prop :=
  -- LOAD-TIMETABLE: BEGIN copies the active banks into the shadow banks and opens staging
  (∀ (s : State) (src : KilvorSrc) (b : List Byte), LoadRequest s src 0x07 1 b → b.length = 8 → zeroAt b 1 7 = true →
    s.manage.timetable.expert = true → (∀ q, q < 4 → (s.quarter q).shadowArm = false) →
    ∃ t : State, exec (.timetableBegin src) s = .next (t.kreply src 0 []) ∧ t.manage.timetable.staging = true ∧
    t.mem = s.mem ∧
      ∀ q, q < 4 → (t.quarter q).shadowBank = (s.quarter q).activeBank ∧
        (t.quarter q).activeBank = (s.quarter q).activeBank) ∧
  -- at the basic level BEGIN is INVALID
  (∀ (s : State) (src : KilvorSrc) (b : List Byte), LoadRequest s src 0x07 1 b → b.length = 8 → zeroAt b 1 7 = true →
    s.manage.timetable.expert = false → exec (.timetableBegin src) s = .next (s.kreply src 3 [])) ∧
  -- ROWS: the rows are written to the shadow bank of the quarter named
  (∀ (s : State) (src : KilvorSrc) (b : List Byte), LoadRequest s src 0x07 2 b → b.length = 24 → byteAt b 1 < 4 →
    fieldAt b 4 2 = 1 → fieldAt b 2 2 < 4096 → zeroAt b 6 2 = true → s.manage.timetable.expert = true →
    s.manage.timetable.staging = true → (∀ q, q < 4 → (s.quarter q).shadowArm = false) →
    exec (.timetableRows src) s = .next ((s.setQuarter (byteAt b 1) ((s.quarter (byteAt b 1)).setShadow
      (putRow (s.quarter (byteAt b 1)).shadowBank (fieldAt b 2 2) (BitVec.ofNat 128 (fieldAt b 8 16))))).kreply src 0 [])) ∧
  -- COMMIT: a check that fails is named; else the CRC; else every quarter is armed four superframes ahead
  (∀ (s : State) (src : KilvorSrc) (b : List Byte), LoadRequest s src 0x07 3 b → b.length = 8 → zeroAt b 1 3 = true →
    s.manage.timetable.expert = true → s.manage.timetable.staging = true →
    (∀ q, q < 4 → (s.quarter q).shadowArm = false) →
    ∃ (t : State) (st : Nat) (data : List Byte), exec (.timetableCommit src) s = .next (t.kreply src st data) ∧
      match tableFailure s.shadowTables s.activeTables (fun e => (s.engine e).committed) with
      | some (k, q, n) =>
        t = s ∧ st = 3 ∧ data = [0] ++ leBytes 1 k ++ leBytes 1 q ++ [0] ++ leBytes 2 n ++ [0, 0]
      | none =>
        if crc32 ((List.range 4).flatMap fun q => bankBytes (s.shadowTables q)) = BitVec.ofNat 32 (fieldAt b 4 4) then
          st = 0 ∧ data = [0, 0, 0, 0] ++ leBytes 4 ((s.quarter 0).sf + 4).toNat ∧
          t.manage.timetable.staging = false ∧
          t.mem = s.mem ∧ ∀ q, q < 4 → (t.quarter q).shadowArm = true ∧ (t.quarter q).swapAt = (s.quarter 0).sf + 4
        else t = s ∧ st = 3 ∧ data = [0, 0x0F, 0, 0, 0, 0, 0, 0]) ∧
  -- ABORT closes staging
  (∀ (s : State) (src : KilvorSrc) (b : List Byte), LoadRequest s src 0x07 4 b → b.length = 8 → zeroAt b 1 7 = true →
    s.manage.timetable.expert = true → s.manage.timetable.staging = true →
    (∀ q, q < 4 → (s.quarter q).shadowArm = false) →
    exec (.timetableAbort src) s = .next ((s.setStaging false).kreply src 0 [])) ∧
  -- LOAD-RECIPE: a WRITE at OFFSET 0 opens staging for the slot
  (∀ (s : State) (src : KilvorSrc) (b : List Byte), LoadRequest s src 0x08 1 b → s.manage.recipesExpert = true →
    byteAt b 1 < 12 → byteAt b 2 < 16 → byteAt b 3 = 0 → b.length = 12 → fieldAt b 4 2 = 0 → fieldAt b 6 2 = 4 →
    ∃ x : Engine, exec (.recipeWrite src) s = .next ((s.setEngine (byteAt b 1) x).kreply src 0 []) ∧
      (x.staging.map (·.slot)) = some (byteAt b 2) ∧ x.slots = (s.engine (byteAt b 1)).slots ∧
      ∀ i, i < 4 → (x.staging.bind fun g => g.bytes.find i) = some (b.getD (8 + i) 0)) ∧
  -- COMMIT of a slot no launch names: the staged image becomes its content
  (∀ (s : State) (src : KilvorSrc) (b : List Byte) (g : Staging), LoadRequest s src 0x08 2 b →
    s.manage.recipesExpert = true → byteAt b 1 < 12 → byteAt b 2 < 16 → byteAt b 3 = 0 → b.length = 8 →
    zeroAt b 4 4 = true → (s.engine (byteAt b 1)).namesSlot (byteAt b 2) = false →
    (s.engine (byteAt b 1)).staging = some g → g.slot = byteAt b 2 → imageOk g.bytes = true →
    exec (.recipeCommit src) s = .next ((s.setEngine (byteAt b 1) { s.engine (byteAt b 1) with
      slots := (s.engine (byteAt b 1)).slots.set (byteAt b 2) (imageOf g.bytes)
      eraseSlots := (s.engine (byteAt b 1)).eraseSlots.erase (byteAt b 2), staging := none }).kreply src 0 [])) ∧
  (∀ (s : State) (src : KilvorSrc) (b : List Byte), LoadRequest s src 0x08 2 b → s.manage.recipesExpert = true →
    byteAt b 1 < 12 → byteAt b 2 < 16 → byteAt b 3 = 0 → b.length = 8 → zeroAt b 4 4 = true →
    (s.engine (byteAt b 1)).namesSlot (byteAt b 2) = true →
    exec (.recipeCommit src) s = .next (s.kreply src 1 [])) ∧
  -- ERASE
  (∀ (s : State) (src : KilvorSrc) (b : List Byte), LoadRequest s src 0x08 3 b → s.manage.recipesExpert = true →
    byteAt b 1 < 12 → byteAt b 2 < 16 → byteAt b 3 = 0 → b.length = 8 → zeroAt b 4 4 = true →
    (s.engine (byteAt b 1)).namesSlot (byteAt b 2) = false →
    exec (.recipeErase src) s = .next ((s.setEngine (byteAt b 1) { s.engine (byteAt b 1) with
      slots := (s.engine (byteAt b 1)).slots.erase (byteAt b 2) }).kreply src 0 [])) ∧
  -- KEY-OP: an empty entry is filled, and the reply waits for the sealed copy; a full one is IN-USE
  (∀ (s : State) (src : KilvorSrc) (r : KReq), KeyRequest s src 1 36 r → r.keyPath = true →
    s.manage.keys.find (keyEntry r.payload) = none →
    exec (.keyLoad src) s = .next (s.keyChanged src (keyEntry r.payload)
      (some (BitVec.ofNat 256 (beNat (r.payload.drop 4)))))) ∧
  (∀ (s : State) (src : KilvorSrc) (r : KReq) (k : BitVec 256), KeyRequest s src 1 36 r → r.keyPath = true →
    s.manage.keys.find (keyEntry r.payload) = some k →
    exec (.keyLoad src) s = .next (s.kreply src 4 (keyData (some k)))) ∧
  (∀ (s : State) (src : KilvorSrc) (r : KReq), KeyRequest s src 1 36 r → r.keyPath = false →
    exec (.keyLoad src) s = .next (s.kreply src 2 [])) ∧
  (∀ (s : State) (src : KilvorSrc) (r : KReq), KeyRequest s src 2 4 r →
    s.manage.keys.find (keyEntry r.payload) = none →
    ∃ (t : State) (key : BitVec 256), exec (.keyGenerate src) s = .next t ∧
    t.manage.keys = s.manage.keys.set (keyEntry r.payload) key ∧
      t.manage.keyReply = s.manage.keyReply ++ [(src, keyData (some key))] ∧ t.flash = s.flash ∧ t.mem = s.mem) ∧
  (∀ (s : State) (src : KilvorSrc) (r : KReq), KeyRequest s src 3 4 r →
    exec (.keyErase src) s = .next
      ((s.markErased fun k => k = keyEntry r.payload).keyChanged src (keyEntry r.payload) none)) ∧
  (∀ (s : State) (src : KilvorSrc) (r : KReq), KeyRequest s src 4 4 r →
    exec (.keyCheck src) s = .next (s.kreply src 0 (keyData (s.manage.keys.find (keyEntry r.payload))))) ∧
  -- KEYSTORE_SEAL_DONE: the sealed copy holds the store, and the oldest operation is answered
  (∀ (s : State) (src : KilvorSrc) (data : List Byte) (rest : List (KilvorSrc × List Byte)),
    s.manage.keyReply = (src, data) :: rest → s.kAwake src = true →
    exec .keystoreSealDone s = .next ((({ s with
      flash := { s.flash with keys := s.manage.keys, keyCopy := !s.flash.keyCopy }
      manage := { s.manage with keyReply := rest } } : State).spi
        (sealOps s.manage.keys (!s.flash.keyCopy))).kreply src 0 data)) ∧
  -- any operation of LOAD-TIMETABLE: a payload of another form is INVALID, and so is one at the basic level; with a swap
  -- armed, or but for BEGIN with staging closed, it is BUSY
  (∀ (s : State) (c : Instr) (src : KilvorSrc) (op : Nat) (b : List Byte), tableCommand c = some (src, op) →
    LoadRequest s src 0x07 op b → (tableForm b = false ∨ s.manage.timetable.expert = false) →
    exec c s = .next (s.kreply src 3 [])) ∧
  (∀ (s : State) (c : Instr) (src : KilvorSrc) (op q : Nat) (b : List Byte), tableCommand c = some (src, op) →
    LoadRequest s src 0x07 op b → tableForm b = true → s.manage.timetable.expert = true → q < 4 →
    (s.quarter q).shadowArm = true →
    exec c s = .next (s.kreply src 1 [])) ∧
  (∀ (s : State) (c : Instr) (src : KilvorSrc) (op : Nat) (b : List Byte), tableCommand c = some (src, op) →
    LoadRequest s src 0x07 op b → tableForm b = true → s.manage.timetable.expert = true → op ≠ 1 →
    s.manage.timetable.staging = false →
    exec c s = .next (s.kreply src 1 [])) ∧
  -- KEY_GENERATE of an entry that holds a key is IN-USE and says which key it holds
  (∀ (s : State) (src : KilvorSrc) (r : KReq) (k : BitVec 256), KeyRequest s src 2 4 r →
    s.manage.keys.find (keyEntry r.payload) = some k →
    exec (.keyGenerate src) s = .next (s.kreply src 4 (keyData (some k))))

/-- MCTP control, PLDM monitoring and firmware update (R4, R72, R552, R555): the principal's request for DEV_IDENT is
answered with it (which request that is, is the model's choice, log 60). What here is the model's choice is told in
log entries 30, 31. -/
def Obligations.ManagementPathsAnswer : Prop :=
  (∀ (s : State) (path : MctpPath) (body : List Byte), s.mode = .ready → path ≠ .secure → s.addressed path = true →
    exec (.mctpControl path body) s = .next ((s.mctpData path 0 (tlpBytes 0 body.length)).mctpSay path
      (if s.pathPrincipal path && Config.asksIdent body then leBytes 8 0x4B560960A1000000 else Config.mctpReply body))) ∧
  -- the secure mailbox carries no MCTP control message
  (∀ (s : State) (body : List Byte), s.mode = .ready →
    exec (.mctpControl .secure body) s = .next (s.emit (.mctpReply .secure [2]))) ∧
  -- a message to another SMBus address is not for the device
  (∀ (s : State) (a : BitVec 7) (body : List Byte), a ≠ s.smbusAddr →
    exec (.mctpControl (.smbus a) body) s = .next s) ∧
  (∀ (s : State) (path : MctpPath) (body : List Byte) (why : Nat), s.mode = .recovery why → s.addressed path = true →
    exec (.mctpControl path body) s = .next (if path.isSmbus then s.emit (.mctpReply path
        (if s.pathPrincipal path && Config.asksIdent body then leBytes 8 0x4B560960A1000000 else Config.mctpReply body))
      else s.mctpData path 0 (tlpBytes 0 body.length))) ∧
  (∀ (s : State) (path : MctpPath) (typ sensor : Nat), s.mode = .ready → path ≠ .secure → s.addressed path = true →
    (typ = 0 ∨ typ = 2) →
    exec (.pldmMonitoring path typ sensor) s = .next
      ((s.mctpData path 0 (4 * Config.pldmDwords (leBytes 1 typ ++ leBytes 1 sensor))).mctpSay path (Config.mctpReply
        (leBytes 1 typ ++ leBytes 1 sensor ++ leBytes 2 (BitVec.ofInt 16 (s.sensors.get sensor 0)).toNat ++
          leBytes 1 (sensorState sensor (s.sensors.get sensor 0)))))) ∧
  -- a write goes to the inactive slot, never past its 12 MiB; activation restarts the device
  (∀ (s : State) (path : MctpPath) (off : Nat) (bs : List Byte), s.mode = .ready → s.pathPrincipal path = true →
    s.addressed path = true → off + bs.length ≤ 12 * 2 ^ 20 →
    ∃ t : State, exec (.pldmFirmwareUpdate path (.write off bs)) s = .next (t.mctpSay path (Config.mctpReply [0])) ∧
      t.mem = s.mem ∧ t.trvs = s.trvs ∧ t.flash = { s.flash with images := t.flash.images } ∧
      (∀ a, (a < slotBase (!s.flash.active) + off ∨ slotBase (!s.flash.active) + off + bs.length ≤ a) →
        t.flash.images.find a = s.flash.images.find a) ∧
      ∀ i, i < bs.length → t.flash.images.find (slotBase (!s.flash.active) + off + i) = some (bs.getD i 0)) ∧
  (∀ (s : State) (path : MctpPath) (f : Flash), s.mode = .ready → s.pathPrincipal path = true →
    s.addressed path = true → f = { s.flash with pending := some (!s.flash.active), dirKnown := true } →
    exec (.pldmFirmwareUpdate path .activate) s = .next
      (((({ s.mctpData path 0 (4 * Config.pldmDwords PldmReq.activate.tag) with flash := f } : State).spi
        f.directoryOps).mctpSay path (Config.mctpReply [1])).restart 0x23)) ∧
  (∀ (s : State) (path : MctpPath), s.mode = .ready → s.pathPrincipal path = true → s.addressed path = true →
    s.flash.svnMin.toNat < s.flash.svn.toNat →
    exec (.pldmFirmwareUpdate path .raiseSvn) s = .next
      (({ s.mctpData path 0 (4 * Config.pldmDwords PldmReq.raiseSvn.tag) with
        flash := { s.flash with svnMin := s.flash.svn } } : State).mctpSay path (Config.mctpReply [2]))) ∧
  (∀ (s : State) (path : MctpPath) (r : PldmReq), s.mode = .ready → s.pathPrincipal path = false →
    s.addressed path = true →
    exec (.pldmFirmwareUpdate path r) s =
      .next ((s.mctpData path 0 (4 * Config.pldmDwords r.tag)).mctpSay path [2]))

/-! ### Messages of the ports -/

/-- Shelf and chain messages (R245, R276, R501). What here is the model's choice is told in log entry 39. -/
def Obligations.ShelfAndChainMessagesAreServed : Prop :=
  -- SHELF-PARAM: an accepted block sets what its PARTS name
  (∀ (s : State) (v : Service) (p : Nat), s.serving 0x0601 = some v → v.port = some p → v.word 1 < 48 →
    s.serviceIndex = v.word 1 → s.ownsShelf p (v.word 1) = true → s.portRange p (v.quad 2) 512 = true →
    (v.quad 2).toNat % 64 = 0 → s.readable (bufPos (v.quad 2)) 512 = (s, true) →
    s.blockOk (s.readBuf (bufPos (v.quad 2)) 512) = true → byteAt (s.readBuf (bufPos (v.quad 2)) 512) 12 = 1 → p < 8 →
    exec .shelfParam s = .next ((s.setShelf (v.word 1) { s.shelf (v.word 1) with
      windowNext := some (some (BitVec.ofNat 96 (fieldAt (s.readBuf (bufPos (v.quad 2)) 512) 0 12),
        bitN (byteAt (s.readBuf (bufPos (v.quad 2)) 512) 13) 0)) }).answer [0])) ∧
  -- one whose block lies in a stack that sleeps waits for it
  (∀ (s : State) (v : Service) (p : Nat), s.serving 0x0601 = some v → v.port = some p → v.word 1 < 48 →
    s.serviceIndex = v.word 1 → s.ownsShelf p (v.word 1) = true → s.portRange p (v.quad 2) 512 = true →
    (v.quad 2).toNat % 64 = 0 → (s.readable (bufPos (v.quad 2)) 512).2 = false →
    ∃ t : State, exec .shelfParam s = .next t ∧ t.service = s.service ∧ t.shelves = s.shelves ∧ t.mem = s.mem) ∧
  (∀ (s : State) (v : Service) (p : Nat), s.serving 0x0601 = some v → v.port = some p → v.word 1 < 48 →
    s.serviceIndex = v.word 1 → s.ownsShelf p (v.word 1) = false → exec .shelfParam s = .next (s.answer [2])) ∧
  -- SHELF-QUERY
  (∀ (s : State) (v : Service) (p : Nat), s.serving 0x0602 = some v → v.port = some p → v.word 1 < 48 →
    s.serviceIndex = v.word 1 → s.mayBook p (v.word 1) = true →
    exec .shelfQuery s = .next (s.answer ([0, (s.shelf (v.word 1)).state.code,
      Nat.min (s.shelf (v.word 1)).basket.length 0xFFFF, s.work (v.word 1), (s.shelf (v.word 1)).faults] ++
      twoWords ((s.devMs - (s.shelf (v.word 1)).since) / 1000)))) ∧
  -- SHELF-RESTORE: a retired shelf is dark again with no faults; another state is INVALID
  (∀ (s : State) (v : Service) (p : Nat), s.serving 0x0603 = some v → v.port = some p → v.word 1 < 48 →
    s.serviceIndex = v.word 1 → s.ownsShelf p (v.word 1) = true → (s.shelf (v.word 1)).state = .retired →
    exec .shelfRestore s =
      .next (((s.setShelf (v.word 1) { s.shelf (v.word 1) with faults := 0 }).enterShelf (v.word 1) .dark 0x0F 0).answer
        [0])) ∧
  (∀ (s : State) (v : Service) (p : Nat), s.serving 0x0603 = some v → v.port = some p → v.word 1 < 48 →
    s.serviceIndex = v.word 1 → s.ownsShelf p (v.word 1) = true → (s.shelf (v.word 1)).state ≠ .retired →
    exec .shelfRestore s = .next (s.answer [3])) ∧
  -- CHAIN-QUERY
  (∀ (s : State) (v : Service) (p : Nat), s.serving 0x0701 = some v → v.port = some p → v.word 1 < 12 →
    s.serviceIndex = v.word 1 → p ∈ s.chainPorts (v.word 1) →
    ∃ (t : State) (rate up busy fec dead : Nat), exec .chainQuery s = .next (t.answer
        ([0, rate * 64 + up, Nat.min (s.chain (v.word 1)).cmds.length 4096, busy] ++ twoWords fec ++
          twoWords (Nat.min (s.chain (v.word 1)).linkResets (2 ^ 32 - 1)) ++ [dead])) ∧
      Nat.min (s.chain (v.word 1)).fec (2 ^ 32 - 1) ≤ fec ∧ fec < 2 ^ 32 ∧ t.mem = s.mem ∧ t.service = s.service) ∧
  (∀ (s : State) (v : Service) (p : Nat), s.serving 0x0701 = some v → v.port = some p → v.word 1 < 12 →
    s.serviceIndex = v.word 1 → p ∉ s.chainPorts (v.word 1) → exec .chainQuery s = .next (s.answer [2])) ∧
  -- SHELF-PARAM with a spin-up schedule, or both; a block out of order is INVALID
  (∀ (s : State) (v : Service) (p : Nat), s.serving 0x0601 = some v → v.port = some p → v.word 1 < 48 →
    s.serviceIndex = v.word 1 → s.ownsShelf p (v.word 1) = true → s.portRange p (v.quad 2) 512 = true →
    (v.quad 2).toNat % 64 = 0 → s.readable (bufPos (v.quad 2)) 512 = (s, true) →
    exec .shelfParam s = .next (if s.blockOk (s.readBuf (bufPos (v.quad 2)) 512) = true
      then (s.takeBlock (v.word 1) (s.readBuf (bufPos (v.quad 2)) 512)).answer [0]
      else s.answer [3])) ∧
  (∀ (s : State) (p sh : Nat) (b : List Byte), p < 8 → s.ownsShelf p sh = true → bitN (byteAt b 12) 1 = true →
    ((s.takeBlock sh b).shelf sh).steps = some ((List.range (byteAt b 14)).map (blockStep b)) ∧ (s.takeBlock sh b).trvs = s.trvs ∧
    (s.takeBlock sh b).mem = s.mem) ∧
  (∀ (s : State) (v : Service) (p : Nat), s.serving 0x0602 = some v → v.port = some p → v.word 1 < 48 →
    s.serviceIndex = v.word 1 → s.mayBook p (v.word 1) = false → exec .shelfQuery s = .next (s.answer [2]))

/-- Accumulator and extent messages (R376, R377, R401 to R406): refused as a whole with the first condition that
fails, or done for every descriptor or extent named. What here is the model's choice is told in log entry 39. -/
def Obligations.AccumulatorAndExtentMessagesAreServed : Prop :=
  (∀ (s t : State) (v : Service) (p : Nat), s.serving 0x0801 = some v → v.port = some p → v.accOk 1 = true →
    s.readable (bufPos (v.quad 2)) (64 * v.word 1) = (t, true) →
    t.armRefusal p (bufPos (v.quad 2)) (v.word 1) = none → v.word 6 = 0 →
    exec .accumArm s = .next ((((List.range (v.word 1)).map fun i => t.accDesc (bufPos (v.quad 2) + 64 * i)).foldl
      (fun (s : State) d => s.armOne p false d) t).answer [0, 0xFFFF])) ∧
  -- it waits until the stacks of the descriptors are reachable
  (∀ (s : State) (v : Service) (p : Nat), s.serving 0x0801 = some v → v.port = some p → v.accOk 1 = true →
    (s.readable (bufPos (v.quad 2)) (64 * v.word 1)).2 = false →
    ∃ t : State, exec .accumArm s = .next t ∧ t.service = s.service ∧ t.accums = s.accums ∧ t.mem = s.mem) ∧
  -- with ZERO it waits until the stacks of the accumulators are reachable
  (∀ (s t : State) (v : Service) (p : Nat) (ds : List AccDesc), s.serving 0x0801 = some v → v.port = some p →
    v.accOk 1 = true → s.readable (bufPos (v.quad 2)) (64 * v.word 1) = (t, true) →
    t.armRefusal p (bufPos (v.quad 2)) (v.word 1) = none → v.word 6 = 1 →
    ds = (List.range (v.word 1)).map (fun i => t.accDesc (bufPos (v.quad 2) + 64 * i)) →
    exec .accumArm s = .next (if (t.reachArm true ds).2 then
        (ds.foldl (fun (s : State) d => s.armOne p true d) (t.reachArm true ds).1).answer [0, 0xFFFF]
      else (t.reachArm true ds).1)) ∧
  (∀ (s t : State) (v : Service) (p code i : Nat), s.serving 0x0801 = some v → v.port = some p → v.accOk 1 = true →
    s.readable (bufPos (v.quad 2)) (64 * v.word 1) = (t, true) →
    t.armRefusal p (bufPos (v.quad 2)) (v.word 1) = some (code, i) →
    exec .accumArm s = .next (t.answer [code, i])) ∧
  (∀ (s : State) (p : Nat) (d : AccDesc),
    (s.armOne p false d).accums = (s.accums.filter fun a => a.desc ≠ d.addr) ++
      [{ desc := d.addr, first := d.first, unit := d.unit, port := p, total := d.total }] ∧
    (s.armOne p false d).trvs = s.trvs ∧
    ∀ a, (a < d.addr + 5 ∨ d.addr + 16 ≤ a) → (s.armOne p false d).stackByte a = s.stackByte a) ∧
  (∀ (s : State) (v : Service) (p : Nat), s.serving 0x0802 = some v → v.port = some p → v.accOk 0 = true →
    s.disarmRefusal p (bufPos (v.quad 2)) (v.word 1) = none →
    s.reach (bufQuarters (bufPos (v.quad 2)) (64 * v.word 1)) = (s, true) →
    exec .accumDisarm s = .next (((List.range (v.word 1)).foldl (fun (s : State) i =>
      ({ s with accums := s.accums.filter (fun x => x.desc ≠ bufAddr (bufPos (v.quad 2) + 64 * i)) } : State).writePhys
        (bufAddr (bufPos (v.quad 2) + 64 * i) + 5) [0] false) s).answer [0, 0xFFFF])) ∧
  (∀ (s : State) (v : Service) (p code i : Nat), s.serving 0x0802 = some v → v.port = some p → v.accOk 0 = true →
    s.disarmRefusal p (bufPos (v.quad 2)) (v.word 1) = some (code, i) →
    exec .accumDisarm s = .next (s.answer [code, i])) ∧
  -- EXT-ALLOC of a contiguous run: the first run long enough; BUSY in a containment
  (∀ (s : State) (v : Service) (p : Nat) (r : Nat × Nat), s.serving 0x0901 = some v → v.port = some p → v.word 1 ≤ 3 →
    1 ≤ v.word 2 → v.word 2 ≤ 4096 → v.word 3 = 1 → v.restZero 4 = true → s.contained p = false →
    v.word 2 ≤ s.roomIn p (v.word 1) → s.pickRuns (v.word 1) (v.word 2) true false = some [r] →
    exec .extAlloc s = .next (if (s.reachZero (s.toZero p false r)).2 then
        ((s.reachZero (s.toZero p false r)).1.giveRun p false r).answer ([0, 1] ++ handleWords r.1 ++ [r.2])
      else (s.reachZero (s.toZero p false r)).1)) ∧
  (∀ (s : State) (v : Service) (p : Nat), s.serving 0x0901 = some v → v.port = some p → v.word 1 ≤ 3 →
    1 ≤ v.word 2 → v.word 2 ≤ 4096 → v.word 3 = 1 → v.restZero 4 = true → s.contained p = true →
    exec .extAlloc s = .next (s.answer [1])) ∧
  (∀ (s : State) (p h : Nat) (zero : Bool) (r : Nat × Nat), r.1 ≤ h → h < r.1 + r.2 → h < 4 * extentsPerQuarter →
    (s.giveRun p zero r).ownsExtent p h = true) ∧
  -- EXT-FREE: the extents belong to no port, and accumulators in them are disarmed
  (∀ (s : State) (v : Service) (p : Nat), s.serving 0x0902 = some v → v.port = some p → v.word 2 < 0x40 →
    1 ≤ v.word 3 → v.word 3 ≤ 4096 → v.restZero 4 = true →
    (∀ h ∈ List.range' (v.word 1 + v.word 2 * 65536) (v.word 3), s.ownsExtent p h = true ∧ s.extentBusy h = false) →
    s.contained p = false →
    exec .extFree s = .next (((s.setOwner (v.word 1 + v.word 2 * 65536) (v.word 3) none (some p)).disarmIn fun h =>
      decide (v.word 1 + v.word 2 * 65536 ≤ h) && decide (h < v.word 1 + v.word 2 * 65536 + v.word 3)).answer [0])) ∧
  (∀ (s : State) (first count p h : Nat), first ≤ h → h < first + count →
    (s.setOwner first count none (some p)).extOwner h = none) ∧
  -- EXT-QUERY
  (∀ (s : State) (v : Service) (p : Nat), s.serving 0x0903 = some v → v.port = some p → v.word 1 ≤ 3 →
    v.restZero 2 = true →
    exec .extQuery s = .next (s.answer ([0] ++ twoWords (s.allocated p (v.word 1)) ++
      twoWords ((s.port p).ap.ext.get (v.word 1) 0) ++ [s.longestRun (v.word 1)]))) ∧
  -- EXT-ALLOC with any flags: the runs picked in the quarter named, or a quarter's share of them in each
  (∀ (s : State) (v : Service) (p n : Nat) (qs : List Nat) (l : List (Nat × Nat)), s.serving 0x0901 = some v →
    v.port = some p → v.word 1 ≤ 3 → 1 ≤ v.word 2 → v.word 2 ≤ 4096 → v.word 3 ≤ 7 → v.restZero 4 = true →
    (bitN (v.word 3) 2 = true → v.word 1 = 0 ∧ v.word 2 % 4 = 0) → s.contained p = false →
    qs = (if bitN (v.word 3) 2 = true then [0, 1, 2, 3] else [v.word 1]) →
    n = (if bitN (v.word 3) 2 = true then v.word 2 / 4 else v.word 2) → (∀ q ∈ qs, n ≤ s.roomIn p q) →
    (s.pickAll n (bitN (v.word 3) 0) false qs 10 = .ok l ∨
      (s.pickAll n (bitN (v.word 3) 0) false qs 10).toOption = none ∧
        s.pickAll n (bitN (v.word 3) 0) true qs 10 = .ok l) →
    exec .extAlloc s = .next (
      if (s.reachZero (l.flatMap fun r => s.toZero p (bitN (v.word 3) 1) r)).2 then
        (l.foldl (fun (s : State) r => s.giveRun p (bitN (v.word 3) 1) r)
          (s.reachZero (l.flatMap fun r => s.toZero p (bitN (v.word 3) 1) r)).1).answer
          ([0, l.length] ++ l.flatMap fun r => handleWords r.1 ++ [r.2])
      else (s.reachZero (l.flatMap fun r => s.toZero p (bitN (v.word 3) 1) r)).1)) ∧
  -- short of extents: OVER-CAPACITY with what there is; a form out of order is INVALID
  (∀ (s : State) (v : Service) (p : Nat), s.serving 0x0901 = some v → v.port = some p → v.word 1 ≤ 3 →
    1 ≤ v.word 2 → v.word 2 ≤ 4096 → v.word 3 < 4 → v.restZero 4 = true → s.contained p = false →
    s.roomIn p (v.word 1) < v.word 2 →
    exec .extAlloc s = .next (s.answer ([5, 0] ++ twoWords (s.roomIn p (v.word 1)) ++ [s.longestRun (v.word 1)]))) ∧
  (∀ (s : State) (v : Service) (p : Nat), s.serving 0x0901 = some v → v.port = some p →
    (3 < v.word 1 ∨ v.word 2 = 0 ∨ 4096 < v.word 2 ∨ 7 < v.word 3 ∨ v.restZero 4 = false ∨
      (bitN (v.word 3) 2 = true ∧ (v.word 1 ≠ 0 ∨ v.word 2 % 4 ≠ 0))) →
    exec .extAlloc s = .next (s.answer [3])) ∧
  -- EXT-FREE: an extent of another port or no extent INVALID, BUSY in a containment, one in use IN-USE
  (∀ (s : State) (v : Service) (p h : Nat), s.serving 0x0902 = some v → v.port = some p →
    h ∈ List.range' (v.word 1 + v.word 2 * 65536) (v.word 3) → s.ownsExtent p h = false →
    exec .extFree s = .next (s.answer [3])) ∧
  (∀ (s : State) (v : Service) (p : Nat), s.serving 0x0902 = some v → v.port = some p → v.word 2 < 0x40 →
    1 ≤ v.word 3 → v.word 3 ≤ 4096 → v.restZero 4 = true →
    (∀ h ∈ List.range' (v.word 1 + v.word 2 * 65536) (v.word 3), s.ownsExtent p h = true) →
    s.contained p = true → exec .extFree s = .next (s.answer [1])) ∧
  (∀ (s : State) (v : Service) (p h : Nat), s.serving 0x0902 = some v → v.port = some p → v.word 2 < 0x40 →
    1 ≤ v.word 3 → v.word 3 ≤ 4096 → v.restZero 4 = true →
    (∀ h ∈ List.range' (v.word 1 + v.word 2 * 65536) (v.word 3), s.ownsExtent p h = true) →
    s.contained p = false → h ∈ List.range' (v.word 1 + v.word 2 * 65536) (v.word 3) → s.extentBusy h = true →
    exec .extFree s = .next (s.answer [4]))

/-! ### Field books and telemetry -/

/-- Reads and clears of field books, and the telemetry counters (R507 to R512, R601). What here is the model's choice
is told in log entries 24, 55. -/
def Obligations.FieldBooksAreRead : Prop :=
  -- an accepted packet stands behind those before it, header first, and SEQ counts it
  (∀ (b : FieldBook) (typ src : Nat) (payload : List Nat), b.words.length + payload.length + 1 ≤ 1024 →
    (b.accept typ src payload).words = b.words ++ { data := fbHeader typ (payload.length + 1) src b.seq, sop := true } ::
      payload.map (fun w => { data := BitVec.ofNat 64 w, sop := false }) ∧
    (b.accept typ src payload).seq = b.seq + 1 ∧ (b.accept typ src payload).lost.toNat = b.lost.toNat) ∧
  -- a full book overwrites its oldest words and counts them
  (∀ (b : FieldBook) (typ src : Nat) (payload : List Nat), payload.length < 1024 → b.words.length ≤ 1024 →
    (b.accept typ src payload).words.length ≤ 1024 ∧
    (b.accept typ src payload).lost.toNat =
      Nat.min (b.lost.toNat + (b.words.length + payload.length + 1 - 1024)) (2 ^ 32 - 1)) ∧
  -- FB_READ by the host: the word at the front, or IDLE with 0
  (∀ (s : State) (p : Nat) (bad : Bool), s.barOpen p = true →
    exec (.fbRead p bad) s = .next (((s.modPort p fun x =>
      { x with book := ((s.port p).book.read bad).book }).hostTlp p 1 8).emit
      (.readData (leBytes 8 ((s.port p).book.read bad).word.toNat) false))) ∧
  -- in recovery its offset answers 0 and counts as unclaimed (R555)
  (∀ (s : State) (p : Nat) (bad : Bool), s.reachable p = true → s.recovering = true →
    exec (.fbRead p bad) s = .next (((s.unclaimed p).hostTlp p 1 8).emit (.readData (List.replicate 8 0) false))) ∧
  (∀ (b : FieldBook) (bad : Bool), b.left = 0 → b.words = [] → (b.read bad).word = 0 ∧ (b.read bad).book.idle = true ∧
    (b.read bad).book.lost.toNat = b.lost.toNat) ∧
  (∀ (b : FieldBook) (bad : Bool) (w : FbWord) (rest : List FbWord), b.left = 0 → b.words = w :: rest → w.sop = true →
    (b.read bad).word = w.data ∧ (b.read bad).book.words = rest ∧ (b.read bad).book.idle = false ∧
    (b.read bad).book.poison = bad ∧ (b.read bad).book.torn = false ∧
    (b.read bad).book.left = bitsOf w.data.toNat 55 52 - 1) ∧
  -- inside a packet: the next word, or TORN when it was overwritten
  (∀ (b : FieldBook) (bad : Bool) (w : FbWord) (rest : List FbWord), b.left ≠ 0 → b.stolen = false →
    b.words = w :: rest → (b.read bad).word = w.data ∧ (b.read bad).book.words = rest ∧
      (b.read bad).book.poison = (b.poison || bad) ∧ (b.read bad).book.left = b.left - 1) ∧
  (∀ (b : FieldBook) (bad : Bool), b.left ≠ 0 → b.stolen = true →
    (b.read bad).word = 0 ∧ (b.read bad).book.torn = true ∧ (b.read bad).book.left = 0 ∧
    (b.read bad).book.words = b.words) ∧
  -- FB_RD0_READ: bits [15:0] go to the core, the others are latched
  (∀ (s : State) (bad : Bool), s.mayAccess 48 = true → (s.core 48).cur = 0 →
    ∃ t : State, exec (.fbRd0Read bad) s = .next (t.emit (.coreRead 48 (((s.selBook (s.fbSel 0)).read bad).word.setWidth 16))) ∧
      (t.core 48).fbLatch = ((s.selBook (s.fbSel 0)).read bad).word.extractLsb' 16 48 ∧
      t.selBook (s.fbSel 0) = ((s.selBook (s.fbSel 0)).read bad).book ∧ t.mem = s.mem) ∧
  -- FB_CLEAR: the book is empty, the reader at a packet start; SEQ goes on
  (∀ (s : State) (p : Nat) (v : BitVec 32), s.barOpen p = true → v.getLsbD 0 = true →
    exec (.fbClear (.port p) v) s = .next
      ((s.hostTlp p 0 4).modPort p fun x => { x with book := x.book.clear })) ∧
  (∀ (s : State) (v : BitVec 32), s.mayAccess 48 = true → (s.core 48).cur = 0 → v.getLsbD 0 = true →
    exec (.fbClear (.core 48 0) v) s = .next
      ((s.setBook (s.fbSel 0) (s.selBook (s.fbSel 0)).clear).noticeLevel)) ∧
  (∀ b : FieldBook, b.clear.words = [] ∧ b.clear.left = 0 ∧ b.clear.seq = b.seq ∧ b.clear.lost = b.lost) ∧
  -- COUNTER_LOW_HALF_READ: the low half is returned, the high half latched for the port
  (∀ (s : State) (p : Nat) (ecc : Option Nat), s.barOpen p = true →
    exec (.counterLowHalfRead p ecc) s = .next (((s.modPort p fun x => { x with
      latches := x.latches.set (latchNo ecc) ((s.telemetry ecc).extractLsb' 32 32) }).hostTlp p 1 4).emit
        (.readData (leBytes 4 ((s.telemetry ecc).toNat % 2 ^ 32)) false)))

/-! ### The Monument -/

/-- Meters (R514 to R524, R539): each tap step adds 64 bytes modulo 2^8 steps, each powered shelf a millisecond, each
energy pulse of at least 10 samples one; counters run modulo 10^20 and only these samples advance them. What here is
the model's choice is told in log entries 49, 52. -/
def Obligations.MetersCount : Prop :=
  -- TAP_SAMPLE: a first sample is the baseline; then 64 bytes a step
  -- the taps show at most one whole step of 64 bytes a tap cycle; the command says how many cycles pass between
  -- samples
  (∀ (t : PayloadTap) (n : Nat), (t.run n).dwords = t.dwords - 16 * Nat.min n (t.dwords / 16) ∧
    (t.run n).count = t.count + BitVec.ofNat 8 (Nat.min n (t.dwords / 16))) ∧
  (∀ (s s1 : State) (n : Nat), s.railsValid = true → s.mon.live = true → s.mon.rebase = true →
    s1 = { s with taps := Tab.mapVals s.taps fun t => t.run n } →
    exec (.tapSample n) s = .next (s1.modMon fun m => m.rebaseline s1.tapCounts)) ∧
  (∀ (m : Monument) (steps : List Nat) (i : Nat), i < 16 →
    (m.rebaseline steps).taps.get i 0 = steps.getD i 0 % 256 ∧ (m.rebaseline steps).counters = m.counters) ∧
  (∀ (s s1 : State) (n : Nat), s.railsValid = true → s.mon.live = true → s.mon.rebase = false →
    s1 = { s with taps := Tab.mapVals s.taps fun t => t.run n } →
    ∃ m : Monument, exec (.tapSample n) s = .next { s1 with mon := m } ∧
      (∀ i, i < 16 → m.counter i = (s.mon.counter i +
        64 * ((s1.tapCounts.getD i 0 + 256 - s.mon.taps.get i 0 % 256) % 256)) % 10 ^ 20 ∧
        m.taps.get i 0 = s1.tapCounts.getD i 0 % 256) ∧
      (∀ i, 16 ≤ i → m.counter i = s.mon.counter i) ∧ m.uptimeMs = s.mon.uptimeMs ∧ m.log = s.mon.log) ∧
  (∀ (s : State) (n : Nat), s.railsValid = false → exec (.tapSample n) s = .next s) ∧
  -- MAIN_DOMAIN_VALID_RISE
  (∀ (s s1 : State) (n : Nat), s.railsValid = true → s.mon.live = true → s.mon.rebase = true →
    s1 = { s with taps := Tab.mapVals s.taps fun t => t.run n } →
    exec (.mainDomainValidRise n) s = .next (s1.modMon fun m => m.rebaseline s1.tapCounts)) ∧
  -- SHELF_TIME_SAMPLE: uptime, and a millisecond for each shelf whose enable is asserted
  (∀ (s : State) (pg : BitVec 48), s.mon.live = true → (∀ sh, s.mon.pgHigh.get sh 0 = 0) →
    ∃ m : Monument, exec (.shelfTimeSample pg) s = .next { s with mon := m } ∧ m.uptimeMs = s.mon.uptimeMs + 1 ∧
      (∀ sh, sh < 48 → m.counter (16 + sh) =
        if s.padEnable sh then (s.mon.counter (16 + sh) + 1) % 10 ^ 20 else s.mon.counter (16 + sh)) ∧
      (∀ i, (i < 16 ∨ 64 ≤ i) → m.counter i = s.mon.counter i)) ∧
  -- S0_SAMPLE: the tenth high sample of a good pulse counts it
  (∀ (s : State) (c : Nat) (x : S0Input), c < 12 → s.mon.live = true → s.mon.s0.get c {} = x → x.high = 9 →
    x.good = true →
    ∃ m : Monument, exec (.s0Sample c true) s = .next { s with mon := m } ∧
      m.counter (64 + c) = (s.mon.counter (64 + c) + 1) % 10 ^ 20 ∧ (m.s0.get c {}).high = 10 ∧
      ∀ i, i ≠ 64 + c → m.counter i = s.mon.counter i) ∧
  (∀ (s : State) (c : Nat), c < 12 → s.mon.live = true → (s.mon.s0.get c {}).high = 0 →
    (s.mon.s0.get c {}).stuck = false →
    exec (.s0Sample c false) s = .next (s.modMon fun m => { m with s0 := m.s0.set c { m.s0.get c {} with
      high := 0, low := Nat.min 10 ((m.s0.get c {}).low + 1), stuck := false } })) ∧
  -- TEST_PULSE_EMIT
  (∀ s : State, s.mon.live = true → 0 < s.mon.pulses →
    exec .testPulseEmit s = .next ((s.modMon fun m => { m with pulses := m.pulses - 1 }).emit .testPulse)) ∧
  -- a counter that advances keeps every other
  (∀ (m : Monument) (i n j : Nat), (m.add i n).counter i = (m.counter i + n) % 10 ^ 20 ∧
    (j ≠ i → (m.add i n).counter j = m.counter j))

/-- Readings, checkpoints and power of the Monument (R518, R524 to R533, R541, R544, R585, R588). The log (R530 to
R533): records are appended, never changed; a full log counts what it could not hold, and a record that the flash does
not take sets FLASH_FAULT. What here is the model's choice is told in log entries 50, 52. -/
def Obligations.ReadingsAndCheckpointsAreTaken : Prop :=
  -- a reading: READ_SEQ advances, 952 bytes, every counter frozen; no counter changes
  (∀ (m : Monument) (kind : Nat), (m.take kind).1.seq = m.readSeq + 1 ∧ (m.take kind).2.readSeq = m.readSeq + 1 ∧
    (m.take kind).1.counters = (List.range 76).map m.counter ∧ (m.take kind).2.counters = m.counters ∧
    (m.take kind).2.last = some (m.take kind).1 ∧ (m.take kind).2.log = m.log) ∧
  -- READ_REQUEST: not more than one a second
  (∀ s : State, s.mon.live = true → (s.mailbox 162).full = true → (s.mailbox 162).words.get 0 0 = 0x0B01#16 →
    (s.mailbox 162).len = 1 → s.mon.lastRequest = none → s.mon.uptimeMs + 1000 ≤ s.mon.periodicAt →
    ∃ t : State, exec .readRequest s = .next t ∧ (t.mailbox 162).full = false ∧ t.mem = s.mem ∧
      t.mon = { s.mon.takeKind 0x02 with lastRequest := some s.mon.uptimeMs }) ∧
  (∀ (s : State) (at_ : Nat), s.mon.live = true → (s.mailbox 162).full = true →
    (s.mailbox 162).words.get 0 0 = 0x0B01#16 → (s.mailbox 162).len = 1 → s.mon.lastRequest = some at_ →
    s.mon.uptimeMs < at_ + 1000 →
    ∃ t : State, exec .readRequest s = .next t ∧ (t.mailbox 162).full = false ∧ t.mon = s.mon) ∧
  -- one asked for in the second of a periodic reading is that reading
  (∀ s : State, s.mon.live = true → (s.mailbox 162).full = true → (s.mailbox 162).words.get 0 0 = 0x0B01#16 →
    (s.mailbox 162).len = 1 → s.mon.periodicAt < s.mon.uptimeMs + 1000 →
    ∃ t : State, exec .readRequest s = .next t ∧ (t.mailbox 162).full = false ∧ t.mon = s.mon) ∧
  -- PERIODIC_READING, every PERIOD seconds
  (∀ s : State, s.mon.live = true → s.mon.periodicAt ≤ s.mon.uptimeMs → exec .periodicReading s =
    .next (s.modMon fun m => { m.takeKind 0x01 with lastRequest := some m.uptimeMs, lastPeriodic := m.uptimeMs })) ∧
  (∀ s : State, s.mon.uptimeMs < s.mon.periodicAt → exec .periodicReading s = .next s) ∧
  -- MON_OUT_SEGMENT: the next segment goes through MON-OUT while it is empty
  (∀ s : State, s.mon.live = true → (s.mailbox 163).full = false → s.mode ≠ .ready → s.mon.sending ≠ [] →
    exec .monOutSegment s = .next s.postSegment) ∧
  (∀ (s : State) (r : Reading) (rest : List Reading), s.mon.sending = r :: rest → s.mon.segment < 15 →
    s.postSegment.mon = { s.mon with segment := s.mon.segment + 1 } ∧ s.postSegment.mem = s.mem) ∧
  -- MON_DOWN
  (∀ s : State, s.mode = .ready → exec .monDown s = .next { s with
    view := { s.view with down := true }, ports := Tab.mapVals s.ports fun x => { x with viewDown := true } }) ∧
  -- CHECKPOINT_TIMER and POWER_FAIL_SIGNAL
  (∀ s : State, s.mon.live = true → ∃ m : Monument,
    exec .checkpointTimer s = .next { s with mon := m } ∧ m = s.mon.checkpoint 0x04 ∧ m.counters = s.mon.counters ∧
    m.readSeq = s.mon.readSeq + 1) ∧
  (∀ s : State, s.mon.live = true → exec .powerFailSignal s = .next
    ((s.modMon fun m => { m.checkpoint 0x05 with powered := false }).modCore 49 fun _ => {})) ∧
  -- a ring of 256 slots in four sectors: the slot's sector is erased when the ring comes back to it; a slot that
  -- the flash
  -- does not take sets FLASH_FAULT
  (∀ (m : Monument) (kind : Nat), (m.nextSlot % 64 ≠ 0 ∨ m.sectorFull m.nextSlot = false) →
    (m.checkpoint kind).checkpoints = (if m.takes
      then Tab.set m.checkpoints m.nextSlot { reading := (m.take kind).1, tamper := m.tamper } else m.checkpoints) ∧
    (m.checkpoint kind).flashFault = (m.flashFault || !m.takes) ∧
    (m.checkpoint kind).nextSlot = (m.nextSlot + 1) % 256 ∧ (m.checkpoint kind).counters = m.counters) ∧
  (∀ (m : Monument) (kind : Nat), m.nextSlot % 64 = 0 → m.sectorFull m.nextSlot = true →
    (m.takeKind kind).othersValid m.nextSlot = false →
    (m.checkpoint kind).checkpoints = m.checkpoints ∧ (m.checkpoint kind).nextSlot = m.nextSlot ∧
    (m.checkpoint kind).spi = m.spi) ∧
  (∀ (m : Monument) (kind : Nat), m.nextSlot % 64 = 0 → m.sectorFull m.nextSlot = true →
    (m.takeKind kind).othersValid m.nextSlot = true →
    (m.checkpoint kind).checkpoints = (if m.takes
      then Tab.set (m.checkpoints.filter fun c => decide (c.1 / 64 ≠ m.nextSlot / 64)) m.nextSlot
        { reading := (m.take kind).1, tamper := m.tamper }
      else m.checkpoints.filter fun c => decide (c.1 / 64 ≠ m.nextSlot / 64))) ∧
  -- MONUMENT_POWER_ON: the counting block comes back from the newest checkpoint
  (∀ (s : State) (c : Checkpoint), s.mon.newest = some c →
    ∃ t : State, exec .monumentPowerOn s = .next t ∧ t.mon.powered = true ∧ t.mon.rebase = true ∧ t.mon.uptimeMs = 0 ∧
      t.mon.powerups = s.mon.powerups + 1 ∧ t.mon.tamper = c.tamper ∧ t.mem = s.mem ∧
      t.mon.counters = (List.range 76).zip c.reading.counters ∧
      t.mon.readSeq = (if s.mon.isSealed = true then c.reading.seq else 0)) ∧
  (∀ s : State, s.mon.newest = none →
    ∃ t : State, exec .monumentPowerOn s = .next t ∧ t.mon.powered = true ∧ t.mon.rebase = true ∧ t.mon.uptimeMs = 0 ∧
      t.mon.powerups = s.mon.powerups + 1 ∧ t.mon.tamper = false ∧ t.mem = s.mem ∧ t.mon.counters = []) ∧
  -- MON_RST_N and MONUMENT_CORE_RESTART: the counters go on
  (∀ s : State, s.mon.powered = true → exec .monRstN s = .next (s.monRestart 0x00)) ∧
  (∀ (s : State) (double : Bool), s.mon.live = true →
    exec (.monumentCoreRestart double) s = .next (s.monRestart (if double then 0x0F else 0x0C))) ∧
  (∀ (s : State) (item : Nat), (s.monRestart item).mon.counters = s.mon.counters ∧
    (s.monRestart item).mon.uptimeMs = s.mon.uptimeMs ∧ (s.monRestart item).mon.coreRestart = true) ∧
  -- MON_TAMPER_N latches once
  (∀ s : State, s.mon.live = true → s.mon.tamper = false → exec .monTamperN s =
    .next (s.modMon fun m => ({ m with tamper := true } : Monument).logEvent 0x03 0 [] [])) ∧
  (∀ s : State, s.mon.tamper = true → exec .monTamperN s = .next s) ∧
  -- the crystal
  (∀ s : State, exec .monumentCrystalStop s = .next (s.modMon fun m => { m with crystal := false })) ∧
  (∀ s : State, s.mon.crystal = false →
    exec .monumentCrystalRestart s = .next (s.settleTaps.modMon fun m => { m with crystal := true, rebase := true })) ∧
  (∀ (m : Monument) (kind item : Nat) (old new : List Byte), ∃ l, (m.logEvent kind item old new).log = m.log ++ l ∧
    l.length ≤ 1) ∧
  (∀ (m : Monument) (kind item : Nat) (old new : List Byte), m.isSealed = true → m.log.length < m.logCap →
    (m.takes = true → ∃ r, (m.logEvent kind item old new).log = m.log ++ [r] ∧ r.kind = kind ∧ r.item = item ∧
      r.old = old ∧ r.new = new ∧ r.uptime = m.uptimeMs ∧ r.powerups = m.powerups ∧
      (m.logEvent kind item old new).chainOk m.log.length = true) ∧
    (m.takes = false → (m.logEvent kind item old new).log = m.log ∧
      (m.logEvent kind item old new).flashFault = true)) ∧
  (∀ (m : Monument) (kind item : Nat) (old new : List Byte), m.isSealed = true → m.logCap ≤ m.log.length →
    (m.logEvent kind item old new).log = m.log ∧ (m.logEvent kind item old new).unlogged = m.unlogged + 1 ∧
    (m.logEvent kind item old new).logFull = true)

/-- The verification port (R534 to R541): reports leave the metering as it is, and a change of a sealed Monument needs
MON_PARAM_EN_N asserted. What here is the model's choice is told in log entries 50, 51. -/
def Obligations.VerificationPortAnswers : Prop :=
  (∀ s : State, s.mon.listens = true → s.mon.isSealed = true →
    exec .monId s = .next (s.say [hexGroups (beBytes 8 Config.deviceSerial.toNat), s.mon.instr, ascii "A1",
      ascii "SEALED", hexGroups s.mon.fingerprint] "OK") ∧
    exec .monKey s = .next (s.say [hexGroups (s.mon.keyBytes.take 32), hexGroups (s.mon.keyBytes.drop 32)] "OK")) ∧
  (∀ (s : State) (r : Reading), s.mon.listens = true → s.mon.last = some r →
    exec .monLast s = .next (s.say r.lines "OK")) ∧
  (∀ s : State, s.mon.listens = true → s.mon.last = none → exec .monLast s = .next (s.say [] "OK")) ∧
  (∀ s : State, s.mon.listens = true →
    exec .monRead s = .next ((s.modMon fun m => m.takeKind 0x03).say (s.mon.take 0x03).1.lines "OK")) ∧
  (∀ s : State, s.mon.listens = true → ∃ lines : List (List Byte), exec .monParam s = .next (s.say lines "OK") ∧
    lines.length = 14) ∧
  (∀ (s : State) (i : Nat) (r : LogRec), s.mon.listens = true → s.mon.log[i]? = some r →
    exec (.monLog i) s = .next ((s.modMon fun m => m.flash
      [{ op := 0x03, addr := logOffset (i - 1), len := 64 * (if i = 0 then 1 else 2) }]).say [hexGroups (r.body i), hexGroups r.chain,
      if s.mon.chainOk i then ascii "VALID" else ascii "BROKEN"] "OK")) ∧
  (∀ s : State, s.mon.listens = true → exec .monSyntaxError s = .next (s.say [] "ERR SYNTAX")) ∧
  -- MON_SET: an unsealed Monument takes the value; a sealed one logs it first, and only while the enable is asserted
  (∀ (s : State) (k : Nat) (en ok : Bool), s.mon.listens = true → s.mon.isSealed = false → 1 ≤ k → k ≤ 3600 →
    exec (.monSet 2 (.number k) ⟨en, ok⟩) s =
      .next ((s.modMon fun m => { m with period := k, paramEn := en }).say [] "OK")) ∧
  (∀ (s : State) (k : Nat) (ok : Bool), s.mon.listens = true → s.mon.isSealed = true → 1 ≤ k → k ≤ 3600 →
    exec (.monSet 2 (.number k) ⟨false, ok⟩) s = .next ((s.sampleEn false).say [] "ERR LOCKED")) ∧
  (∀ (s : State) (k : Nat), s.mon.listens = true → s.mon.isSealed = true → s.mon.flashFault = false →
    s.mon.log.length < s.mon.logCap → 1 ≤ k → k ≤ 3600 →
    ∃ m : Monument, exec (.monSet 2 (.number k) ⟨true, true⟩) s = .next (({ s with mon := m } : State).say [] "OK") ∧ m.period = k ∧
      m.paramGen = BitVec.ofNat 32 s.mon.log.length ∧ m.log.length = s.mon.log.length + 1 ∧
      m.counters = s.mon.counters) ∧
  -- a record the flash does not take sets FLASH_FAULT and changes nothing else
  (∀ (s : State) (k : Nat), s.mon.listens = true → s.mon.isSealed = true → s.mon.flashFault = false →
    s.mon.log.length < s.mon.logCap → 1 ≤ k → k ≤ 3600 →
    ∃ ops, exec (.monSet 2 (.number k) ⟨true, false⟩) s = .next ((s.modMon fun m => { m with
      paramEn := true, flashFault := true, spi := m.spi ++ ops }).say [] "ERR FLASH")) ∧
  (∀ (s : State) (k : Nat) (en ok : Bool), s.mon.listens = true → (k = 0 ∨ 3600 < k) →
    exec (.monSet 2 (.number k) ⟨en, ok⟩) s = .next ((s.sampleEn en).say [] "ERR RANGE")) ∧
  -- the other keys: 1 the installation's 16 characters, 0x10 to 0x1B the pulse constants
  (∀ (s : State) (t : List Byte) (en ok : Bool), s.mon.listens = true → s.mon.isSealed = false → t.length = 16 →
    (∀ c ∈ t, 0x20 ≤ c.toNat ∧ c.toNat < 0x7F) →
    exec (.monSet 1 (.text t) ⟨en, ok⟩) s =
      .next ((s.modMon fun m => { m with instr := t, paramEn := en }).say [] "OK")) ∧
  (∀ (s : State) (n k : Nat) (en ok : Bool), s.mon.listens = true → s.mon.isSealed = false → 0x10 ≤ n → n < 0x1C →
    1 ≤ k → k ≤ 100000 →
    exec (.monSet n (.number k) ⟨en, ok⟩) s =
      .next ((s.modMon fun m => { m with imp := m.imp.set (n - 0x10) k, paramEn := en }).say [] "OK")) ∧
  -- MON_TEST
  (∀ s : State, s.mon.listens = true → exec (.monTest none) s =
    .next ((s.modMon fun m => { m with test := none, pulses := 0 }).say [] "OK")) ∧
  (∀ (s : State) (i : Nat), s.mon.listens = true → 16 ≤ i →
    exec (.monTest (some i)) s = .next (s.say [] "ERR RANGE")) ∧
  (∀ (s : State) (i : Nat), s.mon.listens = true → i < 16 → exec (.monTest (some i)) s =
    .next ((s.modMon fun m => { m with test := some i, pulses := 0 }).say [] "OK")) ∧
  -- MON_TAMPER_CLEAR
  (∀ (s : State) (en : Bool), s.mon.listens = true → s.mon.tamper = true → s.mon.isSealed = false →
    exec (.monTamperClear en) s =
      .next ((s.modMon fun m => { m with paramEn := en, tamper := false, flashTries := m.flashTries + 1 }).say [] "OK")) ∧
  (∀ s : State, s.mon.listens = true → s.mon.tamper = true → s.mon.isSealed = true → s.mon.flashFault = false →
    s.mon.log.length < s.mon.logCap →
    ∃ t : State, exec (.monTamperClear true) s = .next (t.say [] (if s.mon.takes then "OK" else "ERR FLASH")) ∧
      t.mon.tamper = !s.mon.takes ∧ t.mon.log.length = s.mon.log.length + (if s.mon.takes then 1 else 0)) ∧
  -- a line received while a response is being sent is discarded
  (∀ s : State, s.mon.listens = false → exec .monId s = .next s ∧ exec .monRead s = .next s ∧
    ∀ (n : Nat) (v : ParamValue) (pins : SetPins), exec (.monSet n v pins) s = .next s) ∧
  -- MON_SEAL: counters and sequences at 0, a log whose record 0 is SEAL; a second sealing is refused
  (∀ s : State, s.mon.listens = true → s.mon.isSealed = false → 1 ≤ s.mon.logCap →
    ∃ (t : State) (lines : List (List Byte)), exec (.monSeal Config.deviceSerial true true) s = .next (t.say lines "OK") ∧ t.mon.isSealed = true ∧
      t.mon.counters = [] ∧ t.mon.readSeq = 0 ∧ t.mon.powerups = 0 ∧ t.mon.log.length = 1 ∧
      (∀ r ∈ t.mon.log, r.kind = 0x01) ∧ t.mon.jtagSegment = false ∧ t.mem = s.mem) ∧
  (∀ (s : State) (dsn : BitVec 64) (en ok : Bool), s.mon.listens = true → s.mon.isSealed = true →
    exec (.monSeal dsn en ok) s = .next ((s.sampleEn en).say [] "ERR STATE")) ∧
  (∀ s : State, s.mon.listens = true → s.mon.isSealed = false →
    ∃ m : Monument, exec (.monSeal Config.deviceSerial true false) s = .next (({ s with mon := m } : State).say [] "ERR FLASH") ∧
      m.isSealed = false ∧ m.flashFault = true ∧ m.log = [] ∧ m.checkpoints = [])

/-! ### Sehar cores -/

/-- An instruction whose effect lies in its core (R436, R442 to R454, R465 to R470): on workspace registers it
completes with the result the rules give; when its operands are evaluated without an exception it has its effect and
the context goes on; with one, or after a word of wrong parity, it has none and the exception is raised. Operand specs
(R440, R446, R447): the register itself, the word it points at, and the same with the pointer incremented after or
decremented before the access; in user mode every access lies in UBASE to ULIM, or is D-BOUNDS. It covers every
constructor listed in seharCommand. What here is the model's choice is told in log entry 43. -/
def Obligations.CoreInstructionsRunOrRaise : Prop :=
  (∀ (s : State) (c : Instr) (k : Nat) (fm : Form) (f : Core → Try Core) (x y : Core),
    seharCommand c = some (k, fm, f) → Issues s k fm x → f x = .ok y → fm.parity x y = none →
    exec c s = .next (s.ran k fm x y)) ∧
  (∀ (s : State) (c : Instr) (k : Nat) (fm : Form) (f : Core → Try Core) (x y : Core) (e : Exc),
    seharCommand c = some (k, fm, f) → Issues s k fm x → f x = .ok y → fm.parity x y = some e →
    exec c s = .next ((s.settle k).raise k x.cur e)) ∧
  (∀ (s : State) (c : Instr) (k : Nat) (fm : Form) (f : Core → Try Core) (x : Core) (e : Exc),
    seharCommand c = some (k, fm, f) → Issues s k fm x → f x = .error e →
    exec c s = .next ((s.settle k).raise k x.cur e)) ∧
  -- the short forms on W[d] and W[n]
  (∀ (s : State) (k : Nat) (x : Core) (d n : BitVec 6), Issues s k shortForm x → x.dParity = [] →
    x.mayReach (x.regAddr d.toNat) = true → x.mayReach (x.regAddr n.toNat) = true →
    exec (.sSaMov k d n) s = .next (s.ran k shortForm x (x.finish (x.regAddr d.toNat)
      { r := x.reg n.toNat, f := x.here.flags })) ∧
    exec (.sSaCmp k d n) s = .next (s.ran k shortForm x
      (x.setFlags (opSub (x.reg d.toNat) (x.reg n.toNat) x.here.flags).f)) ∧
    exec (.sSaAdd k d n) s = .next (s.ran k shortForm x (x.finish (x.regAddr d.toNat)
      (opAdd (x.reg d.toNat) (x.reg n.toNat) x.here.flags))) ∧
    exec (.sSaSub k d n) s = .next (s.ran k shortForm x (x.finish (x.regAddr d.toNat)
      (opSub (x.reg d.toNat) (x.reg n.toNat) x.here.flags))) ∧
    exec (.sSaAnd k d n) s = .next (s.ran k shortForm x (x.finish (x.regAddr d.toNat)
      (opAnd (x.reg d.toNat) (x.reg n.toNat) x.here.flags))) ∧
    exec (.sSaOr k d n) s = .next (s.ran k shortForm x (x.finish (x.regAddr d.toNat)
      (opOr (x.reg d.toNat) (x.reg n.toNat) x.here.flags))) ∧
    exec (.sSaXor k d n) s = .next (s.ran k shortForm x (x.finish (x.regAddr d.toNat)
      (opXor (x.reg d.toNat) (x.reg n.toNat) x.here.flags)))) ∧
  -- the long forms on W[d], W[a] and W[b]
  (∀ (s : State) (k : Nat) (x : Core) (d a b : BitVec 6), Issues s k longForm x → x.dParity = [] →
    x.mayReach (x.regAddr d.toNat) = true → x.mayReach (x.regAddr a.toNat) = true →
    x.mayReach (x.regAddr b.toNat) = true →
    exec (.sAdd k (0#2 ++ d) (0#2 ++ a) (0#2 ++ b)) s = .next (s.ran k longForm x (x.finish (x.regAddr d.toNat)
      (opAdd (x.reg a.toNat) (x.reg b.toNat) x.here.flags))) ∧
    exec (.sAdc k (0#2 ++ d) (0#2 ++ a) (0#2 ++ b)) s = .next (s.ran k longForm x (x.finish (x.regAddr d.toNat)
      (opAdc (x.reg a.toNat) (x.reg b.toNat) x.here.flags))) ∧
    exec (.sSub k (0#2 ++ d) (0#2 ++ a) (0#2 ++ b)) s = .next (s.ran k longForm x (x.finish (x.regAddr d.toNat)
      (opSub (x.reg a.toNat) (x.reg b.toNat) x.here.flags))) ∧
    exec (.sSbc k (0#2 ++ d) (0#2 ++ a) (0#2 ++ b)) s = .next (s.ran k longForm x (x.finish (x.regAddr d.toNat)
      (opSbc (x.reg a.toNat) (x.reg b.toNat) x.here.flags))) ∧
    exec (.sAnd k (0#2 ++ d) (0#2 ++ a) (0#2 ++ b)) s = .next (s.ran k longForm x (x.finish (x.regAddr d.toNat)
      (opAnd (x.reg a.toNat) (x.reg b.toNat) x.here.flags))) ∧
    exec (.sOr k (0#2 ++ d) (0#2 ++ a) (0#2 ++ b)) s = .next (s.ran k longForm x (x.finish (x.regAddr d.toNat)
      (opOr (x.reg a.toNat) (x.reg b.toNat) x.here.flags))) ∧
    exec (.sXor k (0#2 ++ d) (0#2 ++ a) (0#2 ++ b)) s = .next (s.ran k longForm x (x.finish (x.regAddr d.toNat)
      (opXor (x.reg a.toNat) (x.reg b.toNat) x.here.flags))) ∧
    exec (.sBic k (0#2 ++ d) (0#2 ++ a) (0#2 ++ b)) s = .next (s.ran k longForm x (x.finish (x.regAddr d.toNat)
      (opBic (x.reg a.toNat) (x.reg b.toNat) x.here.flags))) ∧
    exec (.sShl k (0#2 ++ d) (0#2 ++ a) (0#2 ++ b)) s = .next (s.ran k longForm x (x.finish (x.regAddr d.toNat)
      (opShl (x.reg a.toNat) (x.reg b.toNat) x.here.flags))) ∧
    exec (.sShr k (0#2 ++ d) (0#2 ++ a) (0#2 ++ b)) s = .next (s.ran k longForm x (x.finish (x.regAddr d.toNat)
      (opShr (x.reg a.toNat) (x.reg b.toNat) x.here.flags))) ∧
    exec (.sSar k (0#2 ++ d) (0#2 ++ a) (0#2 ++ b)) s = .next (s.ran k longForm x (x.finish (x.regAddr d.toNat)
      (opSar (x.reg a.toNat) (x.reg b.toNat) x.here.flags))) ∧
    exec (.sMov k (0#2 ++ d) (0#2 ++ a)) s = .next (s.ran k longForm x (x.finish (x.regAddr d.toNat)
      { r := x.reg a.toNat, f := x.here.flags })) ∧
    exec (.sCmp k (0#2 ++ a) (0#2 ++ b)) s = .next (s.ran k longForm x
      (x.setFlags (opSub (x.reg a.toNat) (x.reg b.toNat) x.here.flags).f)) ∧
    exec (.sTst k (0#2 ++ a) (0#2 ++ b)) s = .next (s.ran k longForm x
      (x.setFlags (opAnd (x.reg a.toNat) (x.reg b.toNat) x.here.flags).f))) ∧
  (∀ (s : State) (k : Nat) (x : Core) (d a b : BitVec 6), Issues s k (longCost 2) x → x.dParity = [] →
    x.mayReach (x.regAddr d.toNat) = true → x.mayReach (x.regAddr a.toNat) = true →
    x.mayReach (x.regAddr b.toNat) = true →
    exec (.sMul k (0#2 ++ d) (0#2 ++ a) (0#2 ++ b)) s = .next (s.ran k (longCost 2) x (x.finish (x.regAddr d.toNat)
      (opMul (x.reg a.toNat) (x.reg b.toNat) x.here.flags))) ∧
    exec (.sMulh k (0#2 ++ d) (0#2 ++ a) (0#2 ++ b)) s = .next (s.ran k (longCost 2) x (x.finish (x.regAddr d.toNat)
      (opMulh (x.reg a.toNat) (x.reg b.toNat) x.here.flags)))) ∧
  -- the immediate forms on W[d]
  (∀ (s : State) (k : Nat) (x : Core) (d : BitVec 6) (imm : Word), Issues s k longForm x → x.dParity = [] →
    x.mayReach (x.regAddr d.toNat) = true →
    exec (.sAddi k (0#2 ++ d) imm) s = .next (s.ran k longForm x (x.finish (x.regAddr d.toNat)
      (opAdd (x.reg d.toNat) imm x.here.flags))) ∧
    exec (.sSubi k (0#2 ++ d) imm) s = .next (s.ran k longForm x (x.finish (x.regAddr d.toNat)
      (opSub (x.reg d.toNat) imm x.here.flags))) ∧
    exec (.sAndi k (0#2 ++ d) imm) s = .next (s.ran k longForm x (x.finish (x.regAddr d.toNat)
      (opAnd (x.reg d.toNat) imm x.here.flags))) ∧
    exec (.sOri k (0#2 ++ d) imm) s = .next (s.ran k longForm x (x.finish (x.regAddr d.toNat)
      (opOr (x.reg d.toNat) imm x.here.flags))) ∧
    exec (.sXori k (0#2 ++ d) imm) s = .next (s.ran k longForm x (x.finish (x.regAddr d.toNat)
      (opXor (x.reg d.toNat) imm x.here.flags))) ∧
    exec (.sMovi k (0#2 ++ d) imm) s = .next (s.ran k longForm x (x.result (x.regAddr d.toNat) imm)) ∧
    exec (.sCmpi k (0#2 ++ d) imm) s = .next (s.ran k longForm x
      (x.setFlags (opSub (x.reg d.toNat) imm x.here.flags).f)) ∧
    exec (.sTsti k (0#2 ++ d) imm) s = .next (s.ran k longForm x
      (x.setFlags (opAnd (x.reg d.toNat) imm x.here.flags).f))) ∧
  -- status, link and workspace registers: a write is seen by the instruction 2 cycles later
  (∀ (s : State) (k : Nat) (x : Core) (d : BitVec 6), Issues s k longForm x → x.dParity = [] →
    x.mayReach (x.regAddr d.toNat) = true →
    exec (.sMfsw k (0#2 ++ d)) s = .next (s.ran k longForm x (x.result (x.regAddr d.toNat) x.here.sw)) ∧
    exec (.sMflr k (0#2 ++ d)) s = .next (s.ran k longForm x (x.result (x.regAddr d.toNat) x.here.lr)) ∧
    exec (.sMfwp k (0#2 ++ d)) s = .next (s.ran k longForm x (x.result (x.regAddr d.toNat) x.here.wp)) ∧
    exec (.sMtlr k (0#2 ++ d)) s = .next (s.ran k longForm x (x.later (x.cycle + 2) (.lr x.cur) (x.reg d.toNat)))) ∧
  (∀ (s : State) (k : Nat) (x : Core) (d : BitVec 6), Issues s k { privileged := true } x → x.dParity = [] →
    exec (.sMtsw k (0#2 ++ d)) s = .next (s.ran k { privileged := true } x
      (x.later (x.cycle + 2) (.sw x.cur) (x.reg d.toNat))) ∧
    exec (.sMtwp k (0#2 ++ d)) s = .next (s.ran k { privileged := true } x
      (x.later (x.cycle + 2) (.wp x.cur) (x.reg d.toNat &&& 0xFFC0)))) ∧
  -- OUT and OUTX: the port takes W[d] 4 cycles later
  (∀ (s : State) (k : Nat) (x : Core) (d : BitVec 6) (port : BitVec 12), Issues s k { io := some fun _ => port.toNat } x →
    x.dParity = [] →
    exec (.sOut k (0#2 ++ d) port) s = .next (s.ran k { io := some fun _ => port.toNat } x
      (x.later (x.cycle + 4) (.io x.cur port.toNat) (x.reg d.toNat)))) ∧
  (∀ (s : State) (k : Nat) (x : Core) (d n : BitVec 6), Issues s k { io := some (Core.portOf n) } x → x.dParity = [] →
    exec (.sOutx k (0#2 ++ d) n) s = .next (s.ran k { io := some (Core.portOf n) } x
      (x.later (x.cycle + 4) (.io x.cur ((x.reg n.toNat).toNat % 4096)) (x.reg d.toNat)))) ∧
  -- in every operand mode an instruction that computes no decimal completes in supervisor mode
  (∀ (s : State) (c : Instr) (k : Nat) (fm : Form) (f : Core → Try Core) (x : Core),
    seharCommand c = some (k, fm, f) → Issues s k fm x → x.here.s = true → x.dParity = [] → decimalCommand c = false →
    ∃ y, exec c s = .next (s.ran k fm x y)) ∧
  -- words as the encoding tables write them, and the operands they spell
  (decodeSehar 0x1085 0 = some (.sa 1 2 5) ∧ decodeSehar 0x71FE 0 = some (.sb 1 true 0x7E) ∧
    decodeSehar 0x8281 0x02C3 = some (.la 2 0x81 0x02 0xC3) ∧
    decodeSehar 0xA045 0x1234 = some (.li 0x20 0x45 0x1234) ∧
    decodeSehar 0xB02C 0x0400 = some (.lb true 2 true (.absolute 0x0400)) ∧
    decodeSehar 0xB102 0xFFFE = none ∧ decodeSehar 0xC103 0x0298 = some (.lp 0x41 0x03 0x298) ∧
    decodeSehar 0xD003 0 = none) ∧
  (∀ w1 w2 : Word, w1.msb = false → (decodeSehar w1 w2).isSome = true) ∧
  -- outside a delay slot and a repeat the PC moves on by the instruction's words and the cycles by its cost
  (∀ (s : State) (k : Nat) (fm : Form) (x y : Core), y.here.delay = none → y.here.rpt = none → y.here.wdog = 0 →
    y.cur = x.cur →
    (s.ran k fm x y).core k = ({ y with cycle := y.cycle + fm.cost } : Core).modHere fun z =>
      { z with pc := z.pc + BitVec.ofNat 16 fm.len }) ∧
  (∀ (s : State) (k : Nat) (fm : Form) (x y : Core), (s.ran k fm x y).mem = (s.settle k).mem ∧
    (s.ran k fm x y).ports = (s.settle k).ports ∧ (s.ran k fm x y).trvs = (s.settle k).trvs ∧
    ∀ j, j ≠ k → (s.ran k fm x y).core j = (s.settle k).core j) ∧
  (∀ (x : Core) (n : BitVec 6), x.mayReach (x.regAddr n.toNat) = true →
    x.operand (0#2 ++ n) = .ok { addr := x.regAddr n.toNat, value := x.reg n.toNat, core := x }) ∧
  (∀ (x : Core) (n : BitVec 6), x.dParity = [] → x.mayReach (x.regAddr n.toNat) = true →
    x.mayReach (x.reg n.toNat) = true →
    x.operand (1#2 ++ n) = .ok { addr := x.reg n.toNat, value := x.dread (x.reg n.toNat), core := x } ∧
    x.operand (2#2 ++ n) = .ok { addr := x.reg n.toNat, value := x.dread (x.reg n.toNat)
                                 core := x.putNow (x.regAddr n.toNat) (x.reg n.toNat + 1) }) ∧
  (∀ (x : Core) (n : BitVec 6), x.dParity = [] → x.mayReach (x.regAddr n.toNat) = true →
    x.mayReach (x.reg n.toNat - 1) = true →
    x.operand (3#2 ++ n) = .ok { addr := x.reg n.toNat - 1
                                 value := (x.putNow (x.regAddr n.toNat) (x.reg n.toNat - 1)).dread (x.reg n.toNat - 1)
                                 core := x.putNow (x.regAddr n.toNat) (x.reg n.toNat - 1) }) ∧
  (∀ (x : Core) (sp : BitVec 8), x.mayReach (x.regAddr sp.toNat) = false →
    x.operand sp = .error { cause := 0x05, eaddr := x.regAddr sp.toNat }) ∧
  (∀ (x : Core) (a : Word), x.here.s = false →
    (x.mayReach a = true ↔ x.here.ubase.toNat ≤ a.toNat ∧ a.toNat ≤ x.here.ulim.toNat)) ∧
  -- a word of wrong parity that the instruction reads is noted
  (∀ (x : Core) (n : BitVec 6), x.parityHit = none → x.mayReach (x.regAddr n.toNat) = true →
    (x.regAddr n.toNat).toNat ∈ x.dParity →
    ∃ o, x.source (0#2 ++ n) = .ok o ∧ o.value = x.reg n.toNat ∧ o.core.parityHit = some (x.regAddr n.toNat)) ∧
  (∀ (fm : Form) (x y : Core) (a : Word), x.iParity = [] → y.parityHit = some a →
    fm.parity x y = some { cause := 0x0B, detail := 1, eaddr := a }) ∧
  -- a computed result is seen 3 cycles after its instruction, and with it the flags of the operation
  (∀ (x : Core) (d a b : BitVec 6) (op : Op2), x.here.s = true → x.dParity = [] →
    x.runLa (0#2 ++ d) (0#2 ++ a) (0#2 ++ b) op = .ok (((x.supersede (x.regAddr d.toNat).toNat).later (x.cycle + 3)
      (.dmem (x.regAddr d.toNat).toNat) (op (x.reg a.toNat) (x.reg b.toNat) x.here.flags).r).setFlags
        (op (x.reg a.toNat) (x.reg b.toNat) x.here.flags).f)) ∧
  (∀ (x : Core) (d n : BitVec 6) (op : Op2), x.here.s = true → x.dParity = [] →
    x.runSa d n op = .ok (((x.supersede (x.regAddr d.toNat).toNat).later (x.cycle + 3)
      (.dmem (x.regAddr d.toNat).toNat) (op (x.reg d.toNat) (x.reg n.toNat) x.here.flags).r).setFlags
        (op (x.reg d.toNat) (x.reg n.toNat) x.here.flags).f)) ∧
  -- an instruction's word is not overridden by an older write: of a suspended instruction, or still under way
  (∀ (x : Core) (a c : Nat), ((x.supersede a).ctx c).suspended = (x.ctx c).suspended.map (Suspend.without a) ∧
    (x.supersede a).dmem = x.dmem ∧ (x.supersede a).delayed = x.delayed) ∧
  (∀ (x : Core) (a v : Word), (x.putNow a v).dread a = v ∧ (∀ d ∈ (x.putNow a v).delayed, d.target ≠ .dmem a.toNat) ∧
    ∀ b, b ≠ a → (x.putNow a v).dread b = x.dread b)

/-- Binary results and flags (R448, R450): the sum, difference, logic result, shift or product of the operands; C is
the carry or the absence of a borrow, V the signed overflow, H the carry or no-borrow out of bit 3, N the sign, Z
zero; ADC and SBC only ever clear Z. Condition codes (R449). -/
def Obligations.ArithmeticFollowsTheRules : Prop :=
  (∀ (a b : Word) (f : Flags), (opAdd a b f).r = a + b ∧ (opAdd a b f).f.z = (a + b == 0) ∧
    (opAdd a b f).f.n = (a + b).msb ∧ (opAdd a b f).f.c = decide (65536 ≤ a.toNat + b.toNat) ∧
    (opAdd a b f).f.v = decide ((a + b).toInt ≠ a.toInt + b.toInt) ∧
    (opAdd a b f).f.h = decide (16 ≤ a.toNat % 16 + b.toNat % 16)) ∧
  (∀ (a b : Word) (f : Flags), (opAdc a b f).r = a + b + BitVec.ofNat 16 (flagBit f.c) ∧
    (opAdc a b f).f.c = decide (65536 ≤ a.toNat + b.toNat + flagBit f.c) ∧
    (opAdc a b f).f.z = (f.z && (opAdc a b f).r == 0) ∧ (opAdc a b f).f.n = (opAdc a b f).r.msb ∧
    (opAdc a b f).f.v = decide ((opAdc a b f).r.toInt ≠ a.toInt + b.toInt + flagBit f.c) ∧
    (opAdc a b f).f.h = decide (16 ≤ a.toNat % 16 + b.toNat % 16 + flagBit f.c)) ∧
  (∀ (a b : Word) (f : Flags), (opSub a b f).r = a - b ∧ (opSub a b f).f.z = (a == b) ∧
    (opSub a b f).f.n = (a - b).msb ∧ (opSub a b f).f.c = decide (b.toNat ≤ a.toNat) ∧
    (opSub a b f).f.v = decide ((a - b).toInt ≠ a.toInt - b.toInt) ∧
    (opSub a b f).f.h = decide (b.toNat % 16 ≤ a.toNat % 16)) ∧
  (∀ (a b : Word) (f : Flags), (opSbc a b f).r = a - b - BitVec.ofNat 16 (1 - flagBit f.c) ∧
    (opSbc a b f).f.c = decide (b.toNat + (1 - flagBit f.c) ≤ a.toNat) ∧
    (opSbc a b f).f.z = (f.z && (opSbc a b f).r == 0) ∧ (opSbc a b f).f.n = (opSbc a b f).r.msb ∧
    (opSbc a b f).f.v = decide ((opSbc a b f).r.toInt + (1 - flagBit f.c : Nat) ≠ a.toInt - b.toInt) ∧
    (opSbc a b f).f.h = decide (b.toNat % 16 + (1 - flagBit f.c) ≤ a.toNat % 16)) ∧
  (∀ (a b : Word) (f : Flags), ∀ c ∈ [opAnd a b f, opOr a b f, opXor a b f, opBic a b f, opMulh a b f],
    c.f.n = c.r.msb ∧ c.f.z = (c.r == 0) ∧ c.f.c = false ∧ c.f.v = false ∧ c.f.h = f.h) ∧
  (∀ (a b : Word) (f : Flags), (opAnd a b f).r = a &&& b ∧ (opOr a b f).r = a ||| b ∧ (opXor a b f).r = a ^^^ b ∧
    (opBic a b f).r = a &&& ~~~b) ∧
  (∀ (a b : Word) (f : Flags), (opMulh a b f).r.toNat * 65536 + (opMul a b f).r.toNat = a.toNat * b.toNat ∧
    (opMul a b f).f.c = decide (65536 ≤ a.toNat * b.toNat) ∧ (opMul a b f).f.v = (opMul a b f).f.c ∧
    (opMul a b f).f.n = (opMul a b f).r.msb ∧ (opMul a b f).f.z = ((opMul a b f).r == 0) ∧
    (opMul a b f).f.h = f.h) ∧
  -- shifts: by the low four bits; C is the last bit shifted out, 0 for a count of 0
  (∀ (a b : Word) (f : Flags), (opShl a b f).r = a <<< (b.toNat % 16) ∧ (opShr a b f).r = a >>> (b.toNat % 16) ∧
    (opSar a b f).r = a.sshiftRight (b.toNat % 16) ∧
    (opShl a b f).f.c = (decide (b.toNat % 16 ≠ 0) && a.getLsbD (16 - b.toNat % 16)) ∧
    (opShr a b f).f.c = (decide (b.toNat % 16 ≠ 0) && a.getLsbD (b.toNat % 16 - 1)) ∧
    (opSar a b f).f.c = (opShr a b f).f.c) ∧
  (∀ (a b : Word) (f : Flags), ∀ c ∈ [opShl a b f, opShr a b f, opSar a b f],
    c.f.n = c.r.msb ∧ c.f.z = (c.r == 0) ∧ c.f.v = false ∧ c.f.h = f.h) ∧
  -- the sixteen condition codes
  (∀ f : Flags, condHolds 0x0 f = true ∧ (condHolds 0x1 f = true ↔ f.z = true) ∧
    (condHolds 0x2 f = true ↔ f.z = false) ∧ (condHolds 0x3 f = true ↔ f.c = true) ∧
    (condHolds 0x4 f = true ↔ f.c = false) ∧ (condHolds 0x5 f = true ↔ f.n = true) ∧
    (condHolds 0x6 f = true ↔ f.n = false) ∧ (condHolds 0x7 f = true ↔ f.v = true) ∧
    (condHolds 0x8 f = true ↔ f.v = false) ∧ (condHolds 0x9 f = true ↔ f.c = true ∧ f.z = false) ∧
    (condHolds 0xA f = true ↔ f.c = false ∨ f.z = true) ∧ (condHolds 0xB f = true ↔ f.n = f.v) ∧
    (condHolds 0xC f = true ↔ f.n ≠ f.v) ∧ (condHolds 0xD f = true ↔ f.z = false ∧ f.n = f.v) ∧
    (condHolds 0xE f = true ↔ f.z = true ∨ f.n ≠ f.v) ∧ (condHolds 0xF f = true ↔ f.h = true))

/-- Packed decimal (R465 to R470): four digits, base 10,000; a digit above 9 is DECIMAL-INVALID. -/
def Obligations.DecimalsFollowTheRules : Prop :=
  (∀ n, n < 10000 → decValue (toDecimal n) = n ∧ isDecimal (toDecimal n) = true) ∧
  (∀ (a b : Word) (f : Flags), isDecimal a = true → isDecimal b = true → ∃ c, opDadd a b f = some c ∧
    isDecimal c.r = true ∧ decValue c.r + 10000 * flagBit c.f.c = decValue a + decValue b ∧ c.f.n = false ∧
    c.f.v = false ∧ c.f.z = (c.r == 0) ∧ c.f.h = decide (10 ≤ digit a 0 + digit b 0)) ∧
  (∀ (a b : Word) (f : Flags), isDecimal a = true → isDecimal b = true → ∃ c, opDadc a b f = some c ∧
    isDecimal c.r = true ∧ decValue c.r + 10000 * flagBit c.f.c = decValue a + decValue b + flagBit f.c ∧
    c.f.n = false ∧ c.f.v = false ∧ c.f.z = (f.z && c.r == 0) ∧
    c.f.h = decide (10 ≤ digit a 0 + digit b 0 + flagBit f.c)) ∧
  (∀ (a b : Word) (f : Flags), isDecimal a = true → isDecimal b = true → ∃ c, opDsub a b f = some c ∧
    isDecimal c.r = true ∧ decValue c.r + decValue b + 10000 * flagBit c.f.c = decValue a + 10000 ∧ c.f.n = false ∧
    c.f.v = false ∧ c.f.z = (c.r == 0) ∧ c.f.h = decide (digit b 0 ≤ digit a 0)) ∧
  (∀ (a b : Word) (f : Flags), isDecimal a = true → isDecimal b = true → ∃ c, opDsbc a b f = some c ∧
    isDecimal c.r = true ∧
    decValue c.r + decValue b + (1 - flagBit f.c) + 10000 * flagBit c.f.c = decValue a + 10000 ∧ c.f.n = false ∧
    c.f.v = false ∧ c.f.z = (f.z && c.r == 0) ∧ c.f.h = decide (digit b 0 + (1 - flagBit f.c) ≤ digit a 0)) ∧
  (∀ (a b : Word) (f : Flags), (isDecimal a = false ∨ isDecimal b = false) → opDadd a b f = none ∧
    opDadc a b f = none ∧ opDsub a b f = none ∧ opDsbc a b f = none ∧ opDshl a b f = none) ∧
  (∀ (a b : Word) (f : Flags), isDecimal a = true → isDecimal b = true → ∃ c, opDshl a b f = some c ∧
    c.r = (a &&& 0x0FFF) * 16 + b >>> 12 ∧ decValue c.r = decValue a % 1000 * 10 + decValue b / 1000 ∧
    c.f.c = decide (digit a 3 ≠ 0) ∧ c.f.n = false ∧ c.f.z = (c.r == 0) ∧ c.f.v = false ∧ c.f.h = f.h) ∧
  (∀ (a : Word) (f : Flags), (opDadj a f).r = toDecimal (decValue a % 10000) ∧
    (opDadj a f).f.c = decide (10000 ≤ decValue a) ∧ (opDadj a f).f.h = decide (10 ≤ digit a 0) ∧
    (opDadj a f).f.n = false ∧ (opDadj a f).f.v = false ∧ (opDadj a f).f.z = ((opDadj a f).r == 0)) ∧
  (∀ f : Flags, (opDadj 0x009C f).r = 0x0102 ∧ (opDadj 0x009C f).f.c = false ∧ (opDadj 0x009C f).f.h = true) ∧
  (∀ (d a t : Word) (f : Flags), isDecimal d = true → isDecimal a = true → digit t 0 < 10 → digit t 3 < 10 →
    ∃ c w, opDmd d a t f = some (c, w) ∧ decValue c.r + 10000 * digit w 3 =
      decValue d + decValue a * digit t 0 + digit t 3 ∧ isDecimal c.r = true ∧ w.toNat % 4096 = t.toNat % 4096 ∧
      c.f.z = (c.r == 0) ∧ c.f.c = decide (digit w 3 ≠ 0) ∧ c.f.h = c.f.c ∧ c.f.n = false ∧ c.f.v = false) ∧
  (∀ (d a t : Word) (f : Flags), (isDecimal d = false ∨ isDecimal a = false ∨ 10 ≤ digit t 0 ∨ 10 ≤ digit t 3) →
    opDmd d a t f = none) ∧
  (∀ (a : Word) (f : Flags), decValue (opCvbd a f).1.r + 10000 * (opCvbd a f).2.toNat = a.toNat ∧
    isDecimal (opCvbd a f).1.r = true ∧ (opCvbd a f).2.toNat ≤ 6 ∧ (opCvbd a f).1.f.z = (a == 0) ∧
    (opCvbd a f).1.f.c = decide ((opCvbd a f).2 ≠ 0) ∧ (opCvbd a f).1.f.n = false ∧ (opCvbd a f).1.f.v = false ∧
    (opCvbd a f).1.f.h = f.h) ∧
  (∀ (a : Word) (f : Flags), isDecimal a = true → ∃ c, opCvdb a f = some c ∧ c.r.toNat = decValue a ∧
    decValue a ≤ 9999 ∧ c.f.z = (c.r == 0) ∧ c.f.n = false ∧ c.f.c = false ∧ c.f.v = false ∧ c.f.h = f.h) ∧
  (∀ (a : Word) (f : Flags), isDecimal a = false → opCvdb a f = none) ∧
  -- each on W[d], W[a] and W[b], or W[n], with decimal operands
  (∀ (s : State) (k : Nat) (x : Core) (d a b : BitVec 6), Issues s k longForm x → x.dParity = [] →
    x.mayReach (x.regAddr d.toNat) = true → x.mayReach (x.regAddr a.toNat) = true →
    x.mayReach (x.regAddr b.toNat) = true → isDecimal (x.reg a.toNat) = true → isDecimal (x.reg b.toNat) = true →
    (∃ c, opDadd (x.reg a.toNat) (x.reg b.toNat) x.here.flags = some c ∧
      exec (.sDadd k (0#2 ++ d) (0#2 ++ a) (0#2 ++ b)) s = .next (s.ran k longForm x (x.finish (x.regAddr d.toNat) c))) ∧
    (∃ c, opDadc (x.reg a.toNat) (x.reg b.toNat) x.here.flags = some c ∧
      exec (.sDadc k (0#2 ++ d) (0#2 ++ a) (0#2 ++ b)) s = .next (s.ran k longForm x (x.finish (x.regAddr d.toNat) c))) ∧
    (∃ c, opDsub (x.reg a.toNat) (x.reg b.toNat) x.here.flags = some c ∧
      exec (.sDsub k (0#2 ++ d) (0#2 ++ a) (0#2 ++ b)) s = .next (s.ran k longForm x (x.finish (x.regAddr d.toNat) c))) ∧
    (∃ c, opDsbc (x.reg a.toNat) (x.reg b.toNat) x.here.flags = some c ∧
      exec (.sDsbc k (0#2 ++ d) (0#2 ++ a) (0#2 ++ b)) s = .next (s.ran k longForm x (x.finish (x.regAddr d.toNat) c))) ∧
    (∃ c, opDshl (x.reg a.toNat) (x.reg b.toNat) x.here.flags = some c ∧
      exec (.sDshl k (0#2 ++ d) (0#2 ++ a) (0#2 ++ b)) s = .next (s.ran k longForm x (x.finish (x.regAddr d.toNat) c))) ∧
    (∃ c, opDsub (x.reg a.toNat) (x.reg b.toNat) x.here.flags = some c ∧
      exec (.sDcmp k (0#2 ++ a) (0#2 ++ b)) s = .next (s.ran k longForm x (x.setFlags c.f)))) ∧
  (∀ (s : State) (k : Nat) (x : Core) (d a b : BitVec 6), Issues s k longForm x → x.dParity = [] →
    x.mayReach (x.regAddr d.toNat) = true → x.mayReach (x.regAddr a.toNat) = true →
    x.mayReach (x.regAddr b.toNat) = true → isDecimal (x.reg a.toNat) = false →
    exec (.sDadd k (0#2 ++ d) (0#2 ++ a) (0#2 ++ b)) s = .next ((s.settle k).raise k x.cur { cause := 0x06 }) ∧
    exec (.sDadc k (0#2 ++ d) (0#2 ++ a) (0#2 ++ b)) s = .next ((s.settle k).raise k x.cur { cause := 0x06 }) ∧
    exec (.sDsub k (0#2 ++ d) (0#2 ++ a) (0#2 ++ b)) s = .next ((s.settle k).raise k x.cur { cause := 0x06 }) ∧
    exec (.sDsbc k (0#2 ++ d) (0#2 ++ a) (0#2 ++ b)) s = .next ((s.settle k).raise k x.cur { cause := 0x06 }) ∧
    exec (.sDshl k (0#2 ++ d) (0#2 ++ a) (0#2 ++ b)) s = .next ((s.settle k).raise k x.cur { cause := 0x06 })) ∧
  (∀ (s : State) (k : Nat) (x : Core) (d a : BitVec 6), Issues s k longForm x → x.dParity = [] →
    x.mayReach (x.regAddr d.toNat) = true → x.mayReach (x.regAddr a.toNat) = true →
    exec (.sDadj k (0#2 ++ d) (0#2 ++ a)) s = .next (s.ran k longForm x (x.finish (x.regAddr d.toNat)
      (opDadj (x.reg a.toNat) x.here.flags)))) ∧
  (∀ (s : State) (k : Nat) (x : Core) (d a n : BitVec 6), Issues s k (longCost 4) x → x.dParity = [] →
    x.mayReach (x.regAddr d.toNat) = true → x.mayReach (x.regAddr a.toNat) = true →
    x.mayReach (x.regAddr n.toNat) = true → isDecimal (x.reg d.toNat) = true → isDecimal (x.reg a.toNat) = true →
    digit (x.reg n.toNat) 0 < 10 → digit (x.reg n.toNat) 3 < 10 →
    ∃ c w, opDmd (x.reg d.toNat) (x.reg a.toNat) (x.reg n.toNat) x.here.flags = some (c, w) ∧
      exec (.sDmd k (0#2 ++ d) (0#2 ++ a) n) s = .next (s.ran k (longCost 4) x
        ((x.finish (x.regAddr d.toNat) c).result (x.regAddr n.toNat) w))) ∧
  (∀ (s : State) (k : Nat) (x : Core) (d a n : BitVec 6), Issues s k (longCost 6) x → x.dParity = [] →
    x.mayReach (x.regAddr d.toNat) = true → x.mayReach (x.regAddr a.toNat) = true →
    x.mayReach (x.regAddr n.toNat) = true →
    exec (.sCvbd k (0#2 ++ d) (0#2 ++ a) n) s = .next (s.ran k (longCost 6) x
      ((x.finish (x.regAddr d.toNat) (opCvbd (x.reg a.toNat) x.here.flags).1).result (x.regAddr n.toNat)
        (opCvbd (x.reg a.toNat) x.here.flags).2)) ∧
    (isDecimal (x.reg a.toNat) = true → ∃ c, opCvdb (x.reg a.toNat) x.here.flags = some c ∧
      exec (.sCvdb k (0#2 ++ d) (0#2 ++ a)) s = .next (s.ran k (longCost 6) x (x.finish (x.regAddr d.toNat) c))))

/-- Branches, calls, returns and RPT (R444, R445, R455 to R464): the delay slot, the target, LR, the repetitions, and
what the branch predictor counts; that an untaken branch through LR pops the return stack too is log entry 44. What
else is the model's choice is told in log entry 43. -/
def Obligations.BranchesAndRepeatsRun : Prop :=
  (∀ (s : State) (k : Nat) (x : Core) (cond : BitVec 4) (annul : Bool) (disp : BitVec 7),
    Issues s k { len := 1, slotOk := false, repeatable := false } x →
    exec (.sSb k cond annul disp) s =
      .next (s.branched k 1 x (x.branch cond annul false .direct (x.here.pc + disp.signExtend 16)))) ∧
  (∀ (s : State) (k : Nat) (x : Core) (cond : BitVec 4) (annul : Bool),
    Issues s k { len := 2, slotOk := false, repeatable := false } x →
    (∀ t, exec (.sB k cond annul (.absolute t)) s = .next (s.branched k 2 x (x.branch cond annul false .direct t))) ∧
    (∀ t, exec (.sCall k cond annul (.absolute t)) s = .next (s.branched k 2 x (x.branch cond annul true .direct t))) ∧
    (∀ n : BitVec 6, x.mayReach (x.regAddr n.toNat) = true → x.dParity = [] →
      exec (.sB k cond annul (.reg n)) s = .next (s.branched k 2 x (x.branch cond annul false .viaReg (x.reg n.toNat))) ∧
      exec (.sCall k cond annul (.reg n)) s = .next (s.branched k 2 x (x.branch cond annul true .viaReg (x.reg n.toNat)))) ∧
    exec (.sB k cond annul .lr) s = .next (s.branched k 2 x (x.branch cond annul false .viaLr x.here.lr)) ∧
    exec (.sRet k) s = .next (s.branched k 2 x (x.branch 0 false false .viaLr x.here.lr)) ∧
    (∀ disp, exec (.sBr k cond annul disp) s =
      .next (s.branched k 2 x (x.branch cond annul false .direct (x.here.pc + disp)))) ∧
    (∀ disp, exec (.sCallr k cond annul disp) s =
      .next (s.branched k 2 x (x.branch cond annul true .direct (x.here.pc + disp))))) ∧
  -- the delay slot comes first; it is annulled when the branch asks for it and is not taken
  (∀ (x : Core) (cond : BitVec 4) (annul link : Bool) (kind : BranchKind) (t : Word),
    ∃ d, (x.branch cond annul link kind t).here.delay = some d ∧ d.taken = condHolds cond x.here.flags ∧
    d.target = t ∧
      d.branch = x.here.pc ∧ d.linkReg = link ∧ d.annulled = (annul && !condHolds cond x.here.flags)) ∧
  -- after the slot: the target, or the address after the slot, which a call puts in LR
  (∀ (x : Core) (len at_ : Nat) (d : Delay), x.here.delay = some d → d.mispredict = false → d.linkReg = false →
    x.goOn x.cur len at_ = x.modHere fun y =>
      { y with pc := if d.taken then d.target else y.pc + BitVec.ofNat 16 len, delay := none }) ∧
  -- a misprediction costs 3 cycles and is counted; every branch through LR pops the return stack, and one that
  -- finds it
  -- empty has no prediction
  (∀ (x : Core) (len at_ : Nat) (d : Delay), x.here.delay = some d →
    (x.goOn x.cur len at_).cycle = x.cycle + (if d.mispredict then 3 else 0) ∧
    (x.goOn x.cur len at_).mispred = x.mispred + (if d.mispredict then 1 else 0)) ∧
  (∀ (x : Core) (cond : BitVec 4) (annul link : Bool) (kind : BranchKind) (t : Word),
    (x.branch cond annul link kind t).returns = if kind = .viaLr then x.returns.tail else x.returns) ∧
  (∀ (x : Core) (cond : BitVec 4) (annul link : Bool) (t : Word), x.returns = [] →
    ∃ d, (x.branch cond annul link .viaLr t).here.delay = some d ∧ d.mispredict = true) ∧
  (∀ (x : Core) (annul link : Bool) (t : Word), x.returns.head? = some t →
    ∃ d, (x.branch 0 annul link .viaLr t).here.delay = some d ∧ d.mispredict = false) ∧
  (∀ (x : Core) (len at_ : Nat) (d : Delay), x.here.delay = some d → d.mispredict = false → d.linkReg = true →
    (x.goOn x.cur len at_).delayed = x.delayed ++
      [{ due := at_ + 1, target := .lr x.cur, value := x.here.pc + BitVec.ofNat 16 len }]) ∧
  -- RPT: the next instruction runs as often as the count says
  (∀ (s : State) (k : Nat) (x : Core) (imm : Word), imm ≠ 0 → imm.toNat ≤ 4096 →
    Issues s k { slotOk := false, repeatable := false } x →
    ∃ t : State, exec (.sRpt k 0 imm) s = .next t ∧ (t.core k).cur = x.cur ∧ (t.core k).here.rpt = some imm.toNat ∧
      (t.core k).here.pc = x.here.pc + 2 ∧ t.mem = (s.settle k).mem) ∧
  (∀ (s : State) (k : Nat) (x : Core) (n : BitVec 6), Issues s k { slotOk := false, repeatable := false } x →
    x.dParity = [] → x.mayReach (x.regAddr n.toNat) = true → x.reg n.toNat ≠ 0 → (x.reg n.toNat).toNat ≤ 4096 →
    ∃ t : State, exec (.sRpt k (0#2 ++ n) 0) s = .next t ∧ (t.core k).here.rpt = some (x.reg n.toNat).toNat ∧
      (t.core k).here.pc = x.here.pc + 2 ∧ t.mem = (s.settle k).mem) ∧
  (∀ (x : Core) (len at_ n : Nat), x.here.delay = none → x.here.rpt = some n → 1 < n →
    x.goOn x.cur len at_ = x.modHere fun y => { y with rpt := some (n - 1), rptFirst := false }) ∧
  (∀ (x : Core) (len at_ n : Nat), x.here.delay = none → x.here.rpt = some n → n ≤ 1 →
    x.goOn x.cur len at_ = x.modHere fun y =>
      { y with rpt := none, rptFirst := false, pc := y.pc + BitVec.ofNat 16 len }) ∧
  -- the condition codes are pairs of opposites, but for ALWAYS and the half carry
  (∀ (f : Flags) (c : BitVec 4), c.toNat = 1 ∨ c.toNat = 3 ∨ c.toNat = 5 ∨ c.toNat = 7 ∨ c.toNat = 9 ∨ c.toNat = 11 ∨
    c.toNat = 13 → condHolds c f = !condHolds (c + 1) f)

/-- Exceptions (R452, R485 to R489): the registers an entry saves and sets, what RFE brings back, and DOUBLE. What
here is the model's choice is told in log entry 45. -/
def Obligations.ExceptionsEnterAndReturn : Prop :=
  (∀ (s : State) (k c : Nat) (e : Exc), ((s.core k).ctx c).exl = false → s.execLeg k c = none →
    s.raise k c e = s.modCore k fun x => { (x.dropSw c).setCtx c ((x.ctx c).enter e) with cycle := x.cycle + 8 }) ∧
  (∀ (y : Ctx) (e : Exc), y.delay = none → (y.enter e).epc = y.pc ∧ (y.enter e).bd = false) ∧
  (∀ (y : Ctx) (e : Exc) (d : Delay), y.delay = some d → (y.enter e).epc = d.branch ∧ (y.enter e).bd = true) ∧
  (∀ (y : Ctx) (e : Exc), (y.enter e).esw = y.sw ∧ (y.enter e).ewp = y.wp ∧ (y.enter e).epriv = y.s ∧
    (y.enter e).cause = e.word ∧ (y.enter e).eaddr = e.eaddr ∧ (y.enter e).exl = true ∧ (y.enter e).s = true ∧
    (y.enter e).ie = false ∧ (y.enter e).wp = y.xwp ∧ (y.enter e).pc = 0x0010#16 ∧ (y.enter e).flags = y.flags ∧
    (y.enter e).lr = y.lr) ∧
  -- an exception while EXL is 1 halts the core
  (∀ (s : State) (k c : Nat) (e : Exc), ((s.core k).ctx c).exl = true →
    s.raise k c e = (s.modCore k fun x =>
      { x.setCtx c { x.ctx c with cause2 := e.word } with halted := true }).haltReport k c) ∧
  -- TRAP n, a reserved encoding, and WATCHDOG
  (∀ (s : State) (k : Nat) (x : Core) (code : BitVec 8), Issues s k { slotOk := false, repeatable := false } x →
    exec (.sTrap k code) s = .next ((s.settle k).raise k x.cur { cause := 0x0D, detail := code.toNat })) ∧
  (∀ (s : State) (k : Nat) (w1 w2 : Word), k < 50 → (s.core k).running = true →
    (s.core k).here.watchdogFirst = false → ((s.settle k).core k).here.inAnnulled = false →
    ((s.settle k).core k).here.s = true → isReserved w1 w2 = true →
    exec (.reservedEncoding k w1 w2) s = .next ((s.settle k).raise k ((s.settle k).core k).cur { cause := 0x01 })) ∧
  (∀ (s : State) (k : Nat), k < 50 → (s.settle k).core k = s.core k → (s.core k).running = true →
    (s.core k).here.watchdogFirst = true →
    exec (.watchdog k) s = .next (((s.settle k).modCtx k (s.core k).cur fun y => { y with wdogDue := false }).raise k
      (s.core k).cur { cause := 0x0C })) ∧
  -- RFE: back to EPC with SW and WP as saved, and not to supervisor mode from user mode
  (∀ (s : State) (k : Nat) (x : Core),
    Issues s k { cost := 6, privileged := true, slotOk := false, repeatable := false } x →
    (x.here.esw.getLsbD 15 = false ∨ x.here.epriv = true) →
    ∃ t : State, exec (.sRfe k) s = .next t ∧ t.mem = (s.settle k).mem ∧ (t.core k).cur = x.cur ∧
      (t.core k).here.pc = x.here.epc ∧ (t.core k).here.wp = x.here.ewp ∧ (t.core k).here.exl = false) ∧
  (∀ (s : State) (k : Nat) (x : Core),
    Issues s k { cost := 6, privileged := true, slotOk := false, repeatable := false } x →
    x.here.esw.getLsbD 15 = true → x.here.epriv = false →
    exec (.sRfe k) s = .next ((s.settle k).raise k x.cur { cause := 0x0A })) ∧
  -- entry and RFE bring back the interrupted context
  (∀ (y : Ctx) (e : Exc), y.delay = none → y.rpt = none →
    (y.enter e).returned.pc = y.pc ∧ (y.enter e).returned.wp = y.wp ∧ (y.enter e).returned.s = y.s ∧
    (y.enter e).returned.ie = y.ie ∧ (y.enter e).returned.flags = y.flags ∧ (y.enter e).returned.exl = false ∧
    (y.enter e).returned.rpt = none ∧ (y.enter e).returned.lr = y.lr) ∧
  (∀ (y : Ctx) (e : Exc) (n : Nat), y.delay = none → y.rpt = some n → 1 ≤ n → n ≤ 4096 →
    (y.enter e).returned.rpt = some n ∧ (y.enter e).returned.pc = y.pc)

/-- I/O instructions, block moves and gates (R437, R450, R453, R471 to R475, R482 to R484, R505). What here is the
model's choice is told in log entries 38, 40, 41, 43. -/
def Obligations.SystemInstructionsRun : Prop :=
  -- IN and INX of a port a stake bank does not answer
  (∀ (s : State) (k : Nat) (d : BitVec 8) (port : BitVec 12) (x y : Core), Issues s k { io := some fun _ => port.toNat } x →
    stakePort k port.toNat = none → x.iParity = [] →
    (((s.settle k).ioReadEffect k x.cur port.toNat).core k).runStore d ((s.settle k).ioPeek k x.cur port.toNat) = .ok y →
    y.parityHit = none →
    exec (.sIn k d port) s = .next ((((s.settle k).ioReadEffect k x.cur port.toNat).setCore k y).afterEffect k x.cur 2 1
      x.cycle (!x.here.s) .go)) ∧
  (∀ (s : State) (k : Nat) (d : BitVec 8) (n : BitVec 6) (x y : Core), Issues s k { io := some (Core.portOf n) } x →
    stakePort k (x.portOf n) = none → x.iParity = [] → x.dParity = [] →
    (((s.settle k).ioReadEffect k x.cur (x.portOf n)).core k).runStore d ((s.settle k).ioPeek k x.cur (x.portOf n)) =
      .ok y →
    exec (.sInx k d n) s = .next ((((s.settle k).ioReadEffect k x.cur (x.portOf n)).setCore k y).afterEffect k x.cur 2 1
      x.cycle (!x.here.s) .go)) ∧
  (∀ (s : State) (k : Nat) (d : BitVec 6) (port : BitVec 12) (x : Core), Issues s k { io := some fun _ => port.toNat } x →
    stakePort k port.toNat = none → x.iParity = [] →
    exec (.sIn k (0#2 ++ d) port) s = .next ((((s.settle k).ioReadEffect k x.cur port.toNat).modCore k fun y =>
      y.result (x.regAddr d.toNat) ((s.settle k).ioPeek k x.cur port.toNat)).afterEffect k x.cur 2 1 x.cycle
        (!x.here.s) .go)) ∧
  (∀ (s : State) (k : Nat) (d n : BitVec 6) (x : Core), Issues s k { io := some (Core.portOf n) } x →
    stakePort k (x.portOf n) = none → x.iParity = [] → x.dParity = [] →
    exec (.sInx k (0#2 ++ d) n) s = .next ((((s.settle k).ioReadEffect k x.cur (x.portOf n)).modCore k fun y =>
      y.result (x.regAddr d.toNat) ((s.settle k).ioPeek k x.cur (x.portOf n))).afterEffect k x.cur 2 1 x.cycle
        (!x.here.s) .go)) ∧
  -- a stake read suspends the context until its bank answers
  (∀ (s : State) (k : Nat) (d : BitVec 6) (port : BitVec 12) (x : Core), Issues s k { io := some fun _ => port.toNat } x →
    stakePort k port.toNat = some true →
    exec (.sIn k (0#2 ++ d) port) s = .next (((s.settle k).setCore k x).afterEffect k x.cur 2 1 x.cycle (!x.here.s)
      (.sleep (.stake true (some (x.regAddr d.toNat).toNat))))) ∧
  -- a port is reached in supervisor mode only
  (∀ (fm : Form) (x : Core) (k : Nat) (port : Core → Nat), fm.io = some port → fm.isReserved = false →
    fm.slotOk = true →
    x.here.s = false → x.here.badFetch fm.len = none →
    fm.check x k = some { cause := 0x03, eaddr := BitVec.ofNat 16 (port x) }) ∧
  -- IOWAIT whose condition holds, and one that waits
  (∀ (s : State) (k : Nat) (d : BitVec 6) (port : BitVec 12) (x : Core),
    Issues s k { io := some fun _ => port.toNat, repeatable := false } x → isFirmwarePort k port.toNat = false →
    x.dParity = [] → (s.settle k).ioPeek k x.cur port.toNat &&& x.reg d.toNat ≠ 0 →
    exec (.sIowait k (0#2 ++ d) port) s =
      .next (((s.settle k).setCore k x).afterEffect k x.cur 2 1 x.cycle (!x.here.s) .go)) ∧
  (∀ (s : State) (k : Nat) (d : BitVec 8) (port : BitVec 12) (x : Core) (m : Operand),
    Issues s k { io := some fun _ => port.toNat, repeatable := false } x → isFirmwarePort k port.toNat = false →
    x.source d = .ok m → m.core.parityHit = none → (s.settle k).ioPeek k x.cur port.toNat &&& m.value ≠ 0 →
    exec (.sIowait k d port) s = .next (((s.settle k).setCore k m.core).afterEffect k x.cur 2 1 x.cycle (!x.here.s) .go)) ∧
  (∀ (s : State) (k : Nat) (d : BitVec 8) (port : BitVec 12) (x : Core) (m : Operand),
    Issues s k { io := some fun _ => port.toNat, repeatable := false } x → isFirmwarePort k port.toNat = false →
    x.source d = .ok m → m.core.parityHit = none → (s.settle k).ioPeek k x.cur port.toNat &&& m.value = 0 →
    exec (.sIowait k d port) s = .next ((s.settle k).afterEffect k x.cur 2 1 x.cycle (!x.here.s)
      (.hold (.iowait port.toNat m.value (x.updates d))))) ∧
  (∀ (s : State) (k c port : Nat) (mask : Word) (updates : List (Nat × Word)),
    ((s.core k).ctx c).suspended = some (.iowait port mask updates) →
    (s.core k).halted = false → (s.core k).inReset = false → isFirmwarePort k port = false →
    s.ioPeek k c port &&& mask ≠ 0 →
    exec (.iowaitResume k c) s = .next (s.setCore k (((updates.foldl (fun (y : Core) u => y.putD u.1 u.2)
      (s.core k)).goOn c 2 (s.core k).cycle).resume k c))) ∧
  (∀ (s : State) (k c port : Nat) (mask : Word) (updates : List (Nat × Word)),
    ((s.core k).ctx c).suspended = some (.iowait port mask updates) → isFirmwarePort k port = false →
    s.ioPeek k c port &&& mask = 0 → exec (.iowaitResume k c) s = .next s) ∧
  -- BMOV posts a move, at most four at a time; BLOCK_MOVE_DONE performs the oldest
  (∀ (s : State) (k : Nat) (n : BitVec 6) (x : Core), Issues s k { privileged := true, repeatable := false } x →
    x.here.moves.length < 4 → x.dParity = [] →
    exec (.sBmov k n) s = .next (((s.settle k).setCore k (x.postMove k (x.dread (x.reg n.toNat + 1))
      (moveOf (x.dread (x.reg n.toNat)) (x.dread (x.reg n.toNat + 1)) (x.dread (x.reg n.toNat + 2))
        (x.dread (x.reg n.toNat + 3))))).afterEffect k x.cur 2 1 x.cycle (!x.here.s) .go)) ∧
  (∀ (s : State) (k : Nat) (n : BitVec 6) (x : Core), Issues s k { privileged := true, repeatable := false } x →
    4 ≤ x.here.moves.length →
    exec (.sBmov k n) s = .next ((s.settle k).afterEffect k x.cur 2 1 x.cycle (!x.here.s) (.hold .bmov))) ∧
  (∀ (s : State) (k c : Nat) (parity : Bool) (m : BlockMove) (rest : List BlockMove),
    ((s.core k).ctx c).moves = m :: rest → m.drain = false → m.window + 32 * m.beats ≤ 65536 →
    (∀ q, (s.quarter q).stack = .active) → s.flaws = [] →
      s.marked m.place 0 (64 * m.beats) = (s.marked m.place 0 (64 * m.beats)).map (fun b => (b.1, false)) →
    ((s.core k).ctx c).suspended = none →
    ∃ t : State, exec (.blockMoveDone k c parity) s = .next t ∧ t.mem = s.mem ∧
      ((t.core k).ctx c).moves = rest.map (fun d => d.filled m.window
        (toWords ((s.marked m.place 0 (64 * m.beats)).map (·.1)))) ∧
      (∀ i, i < 32 * m.beats → (t.core k).dread (BitVec.ofNat 16 (m.window + i)) =
        (toWords ((s.marked m.place 0 (64 * m.beats)).map (·.1))).getD i 0) ∧
      (∀ d ∈ (t.core k).delayed, ∀ i, i < 32 * m.beats → d.target ≠ .dmem (m.window + i)) ∧
      ((t.core k).ctx c).bmDone = ((s.core k).ctx c).bmDone ||| BitVec.ofNat 4 (2 ^ m.tag) ∧
      ((t.core k).ctx c).bmPoison = ((s.core k).ctx c).bmPoison) ∧
  -- GATE through a valid entry, and through one that is not
  (∀ (s : State) (k : Nat) (n : BitVec 6) (x : Core), Issues s k { cost := 10, slotOk := false, repeatable := false } x →
    (∀ i, i < 4 → x.mayReach (x.regAddr i) = true) → x.gateOk k n.toNat = true →
    x.badPair (x.gateWord k n.toNat 2) x.reg = none → x.iParity = [] → x.dParity = [] →
    (n = 0 → x.here.s = false → (s.settle k).execLeg k x.cur = none) →
    exec (.sGate k n) s = .next (((s.settle k).setCore k (x.enterGate k n.toNat)).afterEffect k x.cur 2 10 x.cycle
      (!x.here.s) .jump)) ∧
  -- gate 0 of an EXEC routine ends its leg with what W0 to W2 hold as the GATE issues
  (∀ (s : State) (k : Nat) (x : Core) (v : Trv), Issues s k { cost := 10, slotOk := false, repeatable := false } x →
    x.here.s = false → (s.settle k).execLeg k x.cur = some v → (∀ i, i < 4 → x.mayReach (x.regAddr i) = true) →
    x.gateOk k 0 = true → x.badPair (x.gateWord k 0 2) x.reg = none → x.iParity = [] → x.dParity = [] →
    exec (.sGate k 0) s = .next ((((s.settle k).setCore k (x.enterGate k 0)).exitExec k v
      (execResult (x.reg 0) (x.reg 1) (x.reg 2))).afterEffect k x.cur 2 10 x.cycle true .jump)) ∧
  (∀ (x : Core) (k n : Nat), (x.enterGate k n).here.s = true ∧ (x.enterGate k n).here.pc = x.gateWord k n 0 ∧
    (x.enterGate k n).here.wp = x.gateWord k n 1 ∧ (x.enterGate k n).here.gate =
      some { ret := x.here.pc + 2, wp := x.here.wp, sw := x.here.sw, priv := x.here.s }) ∧
  (∀ (s : State) (k : Nat) (n : BitVec 6) (x : Core), Issues s k { cost := 10, slotOk := false, repeatable := false } x →
    x.gateOk k n.toNat = false →
    exec (.sGate k n) s = .next ((s.settle k).raise k x.cur { cause := 0x08, detail := n.toNat })) ∧
  -- GRET: back behind the GATE, in the mode it came from; without a record GATE-INVALID
  (∀ (s : State) (k : Nat) (x : Core) (g : GateRecord), Issues s k { cost := 8, slotOk := false, repeatable := false } x →
    x.here.s = true → x.here.gate = some g → x.dParity = [] →
    exec (.sGret k) s = .next (((s.settle k).setCore k (x.leaveGate g)).afterEffect k x.cur 2 8 x.cycle false .jump)) ∧
  (∀ (x : Core) (g : GateRecord), (x.leaveGate g).here.pc = g.ret ∧ (x.leaveGate g).here.wp = g.wp ∧
    (x.leaveGate g).here.s = g.priv ∧ (x.leaveGate g).here.ie = g.sw.getLsbD 14 ∧ (x.leaveGate g).here.gate = none) ∧
  (∀ (s : State) (k : Nat) (x : Core), Issues s k { cost := 8, slotOk := false, repeatable := false } x →
    x.here.gate = none →
    exec (.sGret k) s = .next ((s.settle k).raise k x.cur { cause := 0x08, detail := 0xFF }))

/-- Contexts, interrupts and the EXEC leg (R214 to R216, R450, R479 to R481, R491). What here is the model's choice is
told in log entries 41, 42, 45. -/
def Obligations.ContextsSwitch : Prop :=
  -- SWAP and IDLE: to the next runnable context in ascending number
  (∀ (s : State) (k : Nat) (x : Core), Issues s k { cost := 4, privileged := true, repeatable := false } x →
    exec (.sSwap k) s = .next ((s.settle k).afterEffect k x.cur 2 4 x.cycle (!x.here.s) .swap)) ∧
  (∀ (s : State) (k : Nat) (x : Core), Issues s k { cost := 4, privileged := true } x →
    exec (.sIdle k) s = .next ((s.settle k).afterEffect k x.cur 2 4 x.cycle (!x.here.s) (.sleep .idle))) ∧
  (∀ (x : Core) (k c : Nat), x.nextCtx k = some c → c ≠ x.cur ∧ c < coreContexts k ∧ x.runnable c = true) ∧
  (∀ (x : Core) (k : Nat), x.nextCtx k = none → ∀ c, c < coreContexts k → c ≠ x.cur → x.runnable c = false) ∧
  -- SYNC: every delayed write has landed
  (∀ (s : State) (k : Nat) (x : Core), Issues s k { cost := 4 } x →
    exec (.sSync k) s = .next (((s.settle k).settleAll k).afterEffect k x.cur 2 4 x.cycle (!x.here.s) .go)) ∧
  -- INTERRUPT: the lowest pending enabled source enters the context SYS_IRQ_CTX names
  (∀ (s : State) (k src : Nat), k < 50 → s.settle k = s → (s.core k).irqSource = some src →
    (s.core k).halted = false → (s.core k).inReset = false → (s.core k).gated = false →
    (s.core k).irqCtx.toNat < coreContexts k → (s.core k).ready.getLsbD (s.core k).irqCtx.toNat = true →
    ((s.core k).ctx (s.core k).irqCtx.toNat).mayInterrupt = true → (s.core k).stalled = false →
    (s.core k).here.atBoundary = true → (s.core k).cur = (s.core k).irqCtx.toNat →
    exec (.interrupt k) s = .next ((s.setCore k (s.core k)).raise k (s.core k).cur { cause := 0x0E, detail := src })) ∧
  (∀ (x : Core) (i : Nat), x.irqSource = some i → i < 16 ∧ x.irqPend.getLsbD i = true ∧ x.irqMask.getLsbD i = true ∧
    ∀ j, j < i → (x.irqPend &&& x.irqMask).getLsbD j = false) ∧
  -- EXEC: image and data are loaded and the routine runs in user mode inside its window
  (∀ (s : State) (p tag k c : Nat) (v : Trv), AtLeg s p tag 0x46 v → v.bound = some (k, c) → (s.core k).exec = none →
    (s.core k).halted = false → (s.core k).inReset = false → (s.core k).gated = false →
    (∀ q, (s.quarter q).stack = .active) → s.flaws = [] →
    s.poisoned (execImage v.leg) (2 * execWords v.leg) = false →
    s.poisoned (bufPos (legAddr v.leg)) (legLen v.leg) = false →
    ∃ t : State, exec (.legExec p tag) s = .next t ∧ (t.core k).exec = some (p, tag) ∧ (t.core k).cur = c ∧
      (t.core k).here.s = false ∧ (t.core k).here.pc = BitVec.ofNat 16 (0x8000 + execEntry v.leg) ∧
      (t.core k).here.ubase = 0xA000#16 ∧ (t.core k).here.ulim = 0xBFFF#16 ∧ (t.core k).here.wp = 0xBFC0#16) ∧
  (∀ (s : State) (p tag k c : Nat) (v : Trv), AtLeg s p tag 0x46 v → v.bound = some (k, c) → (s.core k).exec = none →
    (s.core k).halted = false → (s.core k).inReset = false → (s.core k).gated = false →
    (∀ q, (s.quarter q).stack = .active) → s.flaws = [] → s.poisoned (execImage v.leg) (2 * execWords v.leg) = true →
    exec (.legExec p tag) s = .next (s.legDone v { status := stFetchPoison })) ∧
  (∀ (s : State) (p tag k c : Nat) (v : Trv), AtLeg s p tag 0x46 v → v.bound = some (k, c) → (s.core k).exec.isSome →
    exec (.legExec p tag) s = .next s) ∧
  (∀ (w1 w2 : Word) (moved : Bool), (execResult 0 w1 w2 moved).status = stOk ∧
    (execResult 1 w1 w2 moved).status = stOkShort ∧ (execResult 1 w1 w2 moved).residual = w1.toNat ∧
    (execResult 2 w1 w2 moved).status = stVerifyMismatch)

/-! ### Single accesses of a core, stakes -/

/-- Accesses a core makes to its system registers (R453, R471, R480, R491). Stakes (R502 to R505): a free one is
granted, an owned one names its owner, a release by another changes nothing; the bank takes releases before reads.
What here is the model's choice is told in log entries 43, 46. -/
def Obligations.CoreRegistersAndStakesAreAccessed : Prop :=
  -- SYS_CYCLE_LO_READ: the high half is captured with the low half
  (∀ (s : State) (k : Nat), s.mayAccess k = true → exec (.sysCycleLoRead k false) s =
    .next ((s.setCore k { s.core k with cycleHi := BitVec.ofNat 16 ((s.core k).cycle / 2 ^ 16) }).emit
      (.coreRead k (BitVec.ofNat 16 (s.core k).cycle)))) ∧
  (∀ (s : State) (k : Nat), s.mayAccess k = true → exec (.sysCycleLoRead k true) s =
    .next ((s.setCore k { s.core k with mispredHi := (s.core k).mispred.extractLsb' 16 16 }).emit
      (.coreRead k ((s.core k).mispred.setWidth 16)))) ∧
  -- SYS_IDATA_ACCESS: a read and a write each step SYS_IADDR on
  (∀ (s : State) (k : Nat), s.mayAccess k = true → exec (.sysIdataAccess k none) s =
    .next ((s.modCtx k (s.core k).cur fun y => { y with iaddr := y.iaddr + 1 }).emit
      (.coreRead k ((s.core k).iread k (s.core k).here.iaddr)))) ∧
  (∀ (s : State) (k : Nat) (v : Word), s.mayAccess k = true →
    ∃ t : State, exec (.sysIdataAccess k (some v)) s = .next t ∧ (t.core k).here.iaddr = (s.core k).here.iaddr + 1 ∧
      (t.core k).delayed = (s.core k).delayed ++
        [{ due := (s.core k).cycle + 4, target := .imem (s.core k).here.iaddr.toNat, value := v }] ∧ t.mem = s.mem) ∧
  -- SYS_WAKE_WRITE ends an IDLE
  (∀ (s : State) (k : Nat) (v : Word), s.mayAccess k = true →
    ((s.core k).ctx (v.toNat % 32)).suspended = some .idle →
    exec (.sysWakeWrite k v) s = .next (s.modCore k fun x => x.resume k (v.toNat % 32))) ∧
  (∀ (s : State) (k : Nat) (v : Word), s.mayAccess k = true →
    ((s.core k).ctx (v.toNat % 32)).suspended = none → exec (.sysWakeWrite k v) s = .next s) ∧
  -- in user mode no port is reached
  (∀ (s : State) (k : Nat) (v : Word), (s.core k).here.s = false → exec (.sysWakeWrite k v) s = .next s ∧
    exec (.sysIdataAccess k none) s = .next s ∧ exec (.sysCycleLoRead k true) s = .next s) ∧
  (∀ (s : State) (k : Nat), k < 49 → s.mayAccess k = true →
    exec (.stakeAcquireRead k) s = .next (s.readStake k true none) ∧
    exec (.stakePeekRead k) s = .next (s.readStake k false none) ∧
    exec (.stakeReleaseWrite k) s = .next ((s.settleIo k (s.core k).cur).writeStkRel k (s.core k).cur)) ∧
  -- a release comes after the context's earlier I/O writes
  (∀ (s : State) (k c : Nat), (∀ d ∈ (s.core k).delayed, ∀ port, d.target ≠ .io c port) → s.settleIo k c = s) ∧
  (∀ (s : State) (k c port : Nat) (d : Delayed), d ∈ (s.core k).delayed → d.target = .io c port →
    s.settleIo k c = s.settleAll k) ∧
  (∀ (s : State) (k : Nat), k < 49 → ∃ why, (s.readStake k true none).stakeAsks =
      s.stakeAsks.set (stakeNo k (s.core k).here.stkSel / 64)
        (s.stakeAsks.get (stakeNo k (s.core k).here.stkSel / 64) [] ++
          [.acquire (requester k (s.core k).cur) (stakeNo k (s.core k).here.stkSel)]) ∧
      (((s.readStake k true none).core k).ctx (s.core k).cur).suspended = some why ∧
      (s.readStake k true none).mem = s.mem) ∧
  (∀ (x : Stake) (r : Nat), x.owner = none → (x.acquire r).2 = { x with owner := some r } ∧
    (x.acquire r).1 = BitVec.ofNat 16 (b2n x.stale * 2 ^ 14 + r)) ∧
  (∀ (x : Stake) (r o : Nat), x.owner = some o → (x.acquire r).2 = x ∧
    (x.acquire r).1 = BitVec.ofNat 16 ((if o = r then 3 else 2) * 2 ^ 14 + o)) ∧
  (∀ (x : Stake), x.peek = BitVec.ofNat 16 (b2n x.owner.isSome * 2 ^ 15 + b2n x.stale * 2 ^ 14 + x.owner.getD 0)) ∧
  (∀ (s : State) (bank r n : Nat), (s.stake n).owner = some r →
    s.applyRelease bank (.release r n []) = s.setStake n {}) ∧
  (∀ (s : State) (bank r n : Nat), (s.stake n).owner ≠ some r → s.applyRelease bank (.release r n []) = s) ∧
  -- STAKE_BANK_CYCLE
  (∀ (s : State) (bank r n : Nat), bank < 5 → s.stakeAsks.get bank [] = [.acquire r n] →
    exec (.stakeBankCycle bank) s = .next
      ((({ s with stakeAsks := s.stakeAsks.set bank [] } : State).setStake n ((s.stake n).acquire r).2).answerStake r
        ((s.stake n).acquire r).1)) ∧
  (∀ (s : State) (bank q r n : Nat), bank < 5 → q ≠ r → (s.stake n).owner = some q →
    s.stakeAsks.get bank [] = [.acquire r n, .release q n []] →
    ∃ t : State, exec (.stakeBankCycle bank) s = .next t ∧ (t.stake n).owner = some r ∧ (t.stake n).stale = false ∧
      t.mem = s.mem)

/-! ### Registers of a host port -/

/-- Writes of BAR0 (R15 to R19, R62, R65 to R67, R496, R505, R555) and accesses of reserved offsets (R17, R63): what
each register takes, that an offset without one is counted alone, and that a core's access has the rights of its
running context. What here is the model's choice is told in log entry 46. -/
def Obligations.HostRegistersAreWritten : Prop :=
  -- FN_STAT event bits are cleared by writing 1, and no other way
  (∀ (s s0 : State) (p : Nat) (v : BitVec 64), s0 = s.hostTlp p 0 4 → s.reachable p = true → s.mode = .ready →
    exec (.registerWrite (.port p) 0x0C 4 v) s =
      .next (s0.setPort p { s0.port p with events := (s0.port p).events &&& ~~~v.setWidth 6 })) ∧
  -- FN_CTL: enables as written; BAR4_EN without a window is refused whole
  (∀ (s s0 : State) (p : Nat) (v : BitVec 64), s0 = s.hostTlp p 0 4 → s.reachable p = true → s.mode = .ready →
    v.getLsbD 8 = false →
    exec (.registerWrite (.port p) 0x08 4 v) s =
      .next (s0.setPort p { s0.port p with bar4En := false, evtEn := v.setWidth 6 })) ∧
  (∀ (s : State) (p : Nat) (v : BitVec 64), s.reachable p = true → s.mode = .ready → v.getLsbD 8 = true →
    (s.port p).bar4Log2 = 0 →
    exec (.registerWrite (.port p) 0x08 4 v) s = .next ((s.hostTlp p 0 4).fnRefused p)) ∧
  -- read-only registers ignore writes
  (∀ (s : State) (p off : Nat) (v : BitVec 64), s.reachable p = true → s.mode = .ready →
    off ∈ [0x00, 0x04, 0x10, 0x14, 0x1C, 0x1000, 0x1004] →
    exec (.registerWrite (.port p) off 4 v) s = .next (s.hostTlp p 0 4)) ∧
  -- an offset without a register, or a width no access has, is counted and has no effect
  (∀ (s : State) (p off width : Nat) (v : BitVec 64), s.reachable p = true → s.barReserved p off width = true →
    exec (.registerWrite (.port p) off width v) s = .next ((s.hostTlp p 0 (tlpBytes off width)).unclaimed p) ∧
    exec (.reservedOffsetAccess p 0 off width true) s = .next ((s.hostTlp p 0 (tlpBytes off width)).unclaimed p) ∧
    exec (.reservedOffsetAccess p 0 off width false) s =
      .next (((s.unclaimed p).hostTlp p 1 (tlpBytes off width)).emit (.readData (List.replicate width 0) false))) ∧
  (∀ (s : State) (p off width : Nat), s.reachable p = true → s.bar2Reserved p off width = true →
    exec (.reservedOffsetAccess p 2 off width true) s = .next ((s.hostTlp p 0 (tlpBytes off width)).unclaimed p)) ∧
  (∀ (s : State) (p off width : Nat), s.reachable p = true →
    exec (.reservedOffsetAccess p 2 off width false) s =
      .next ((s.hostTlp p 1 (tlpBytes off width)).emit (.readData (List.replicate width 0) false))) ∧
  -- a transaction's data is whole dwords, and in recovery mode every offset but three is reserved
  (∀ addr n : Nat, addr % 4 + n ≤ tlpBytes addr n ∧ tlpBytes addr n < addr % 4 + n + 4 ∧ tlpBytes addr n % 4 = 0) ∧
  (∀ (s : State) (p off width why : Nat), s.mode = .recovery why → s.bar2Reserved p off width = true ∧
    (8 ≤ off → off ≠ 0x0C → s.barReserved p off width = true)) ∧
  -- each brings a TLP, whose bytes are counted while the port's link is up
  (∀ (s : State) (p d n : Nat), (s.port p).created = true → (s.port p).linkUp = true →
    (s.hostTlp p d n).view.hardware.get (514 * p + 512 + d) 0 = s.view.hardware.get (514 * p + 512 + d) 0 + n ∧
    ((s.hostTlp p d n).taps.get (2 * p + d) {}).dwords = (s.taps.get (2 * p + d) {}).dwords + n / 4 ∧
    (s.hostTlp p d n).ports = s.ports ∧ (s.hostTlp p d n).mem = s.mem) ∧
  (∀ (s : State) (p : Nat), (s.port p).unclaimed ≠ BitVec.allOnes 32 →
    ((s.unclaimed p).port p).unclaimed = (s.port p).unclaimed + 1 ∧ ((s.unclaimed p).port p).events.getLsbD 4 = true ∧
    (s.unclaimed p).mem = s.mem ∧ ∀ r, r ≠ p → (s.unclaimed p).port r = s.port r) ∧
  (∀ (s : State) (p : Nat), (s.port p).unclaimed = BitVec.allOnes 32 → s.unclaimed p = s) ∧
  -- a core writes the I/O port its running context names
  (∀ (s : State) (k port : Nat) (v : BitVec 64), s.mayAccess k = true → port < 4096 →
    exec (.registerWrite (.core k (s.core k).cur) port 2 v) s =
      .next ((s.settleIo k (s.core k).cur).ioWrite k (s.core k).cur port (v.setWidth 16))) ∧
  (∀ (s : State) (port : Nat) (v : BitVec 64), s.mayAccess 48 = true → (s.core 48).cur ≠ 7 → 0x280 ≤ port →
    port < 0x300 →
    exec (.registerWrite (.core 48 (s.core 48).cur) port 2 v) s = .next (s.settleIo 48 (s.core 48).cur)) ∧
  (∀ (s : State) (k c port : Nat) (v : BitVec 64), s.mayAccess k = false →
    exec (.registerWrite (.core k c) port 2 v) s = .next s) ∧
  -- a 64-bit write is its two registers, the lower first
  (∀ (s : State) (p off : Nat) (v : BitVec 64), s.reachable p = true → s.barReserved p off 8 = false →
    exec (.registerWrite (.port p) off 8 v) s =
      .next (((s.hostTlp p 0 8).writeBar0 p off (v.setWidth 32)).writeBar0 p (off + 4) (v.extractLsb' 32 32)))

/-! ### Faults, power and start-up -/

/-- Containment (R54 to R56, R102, R104, R117, R548, R557 to R564): discarding, resetting and ending, each phase once
and in this order, and the causes of the device's own blocks. A device restart (R548, R565, R566, R569): DEV_EPOCH
counts, the boot timeline runs again, traverses, queues, memory and mailboxes are gone; the fourth within 600 s of the
first of three enters recovery mode. What here is the model's choice is told in log entries 25, 27. -/
def Obligations.ContainmentsRunToTheirEnd : Prop :=
  -- CONTAINMENT_DISCARD: no traverse of the port stays, and RESETTING follows
  (∀ (s : State) (p : Nat) (c : Containment), s.deviceContain = none → (s.port p).contain = some c →
    c.phase = .stopping → s.trvs = [] → s.admitting = [] → (s.port p).handed = [] → s.dma = [] →
    ∃ t d, exec (.containmentDiscard (some p)) s = .next t ∧ (t.port p).contain = some d ∧ d.phase = .resetting ∧
      d.cause = c.cause ∧ (t.port p).discarded = 0 ∧ t.trvs = [] ∧ t.mem = s.mem) ∧
  (∀ (s : State) (p : Nat) (c : Containment), s.deviceContain = none → (s.port p).contain = some c →
    c.phase ≠ .stopping → exec (.containmentDiscard (some p)) s = .next s) ∧
  (∀ (s : State) (v : Trv), ∀ w ∈ (s.discardTrv v).trvs, w.port ≠ v.port ∨ w.tag ≠ v.tag) ∧
  -- CONTAINMENT_RESET: a port whose cause resets its blocks is reset; a structure that cannot be rebuilt restarts
  -- the device
  (∀ (s : State) (p : Nat) (c : Containment) (rebuilt : Bool), s.deviceContain = none → (s.port p).contain = some c →
    c.phase = .resetting → c.cause = 0x04#8 → c.resetBlocks = false → c.engine = none →
    exec (.containmentReset (some p) rebuilt) s =
      .next (s.setPort p { s.port p with contain := some { c with phase := .ending } })) ∧
  (∀ (s : State) (p : Nat) (c : Containment) (rebuilt : Bool), s.deviceContain = none → (s.port p).contain = some c →
    c.phase = .resetting → c.cause = 0x01#8 → c.resetBlocks = true → c.engine = none →
    exec (.containmentReset (some p) rebuilt) s =
      .next ((s.containReset p c.resetConfig c.flr).modPort p fun x => { x with contain := some { c with phase := .ending } })) ∧
  (∀ (s : State) (c : Containment), s.deviceContain = some c → c.phase = .resetting → c.cause = 0x12#8 →
    exec (.containmentReset none false) s = .next (s.restart 0x22)) ∧
  -- CONTAINMENT_END: FN_EPOCH counts, the containment is over
  (∀ (s : State) (p : Nat) (c : Containment), s.deviceContain = none → (s.port p).contain = some c →
    c.phase = .ending →
    c.taint = [] → c.resetBlocks = true → s.extents = [] → s.accums = [] → s.released = [] → s.collector = [] →
    (s.port p).cqs = [] → (s.port p).sqs = [] →
    ∃ t : State, exec (.containmentEnd (some p)) s = .next t ∧ (t.port p).contain = none ∧
      (t.port p).fnEpoch = (s.port p).fnEpoch + 1 ∧ t.devEpoch = s.devEpoch ∧ t.mem = s.mem) ∧
  -- ENGINE_SILENT, CONTROL_SRAM_ERROR, LOCKSTEP_MISMATCH
  (∀ (s : State) (e : Nat), e < 48 → (s.core e).inReset = false → (s.core e).gated = false →
    exec (.engineSilent e) s = .next (s.startDevice 0x14 (some e))) ∧
  (∀ s : State, exec .controlSramError s = .next (s.startDevice 0x12 none)) ∧
  (∀ s : State, exec .lockstepMismatch s = .next (s.restart 0x20)) ∧
  (∀ (s : State) (cause : Nat) (engine : Option Nat), s.mode = .ready → s.anyContain = false →
    ∃ d, (s.startDevice cause engine).deviceContain = some d ∧ d.phase = .stopping ∧ d.cause = BitVec.ofNat 8 cause ∧
      d.resetBlocks = false ∧ d.engine = engine ∧ (s.startDevice cause engine).mem = s.mem ∧
      (s.startDevice cause engine).trvs = s.trvs) ∧
  (∀ (s : State) (cause : Nat) (engine : Option Nat), s.mode = .ready → s.anyContain = true →
    s.startDevice cause engine = s.restart 0x22) ∧
  -- a cause of either scope during a device restart begins it again
  (∀ (s : State) (row cause p : Nat) (engine : Option Nat) (reset config : Bool), s.mode = .boot row →
    s.restarts ≠ [] →
    s.startDevice cause engine = s.restart 0x22 ∧
    ((s.port p).created = true → s.startHost p cause reset config = s.restart 0x22)) ∧
  -- the engine that failed starts again with the firmware of the image
  (∀ (s : State) (k : Nat), ((s.resetEngine k).core k).inReset = false ∧ (s.resetEngine k).mem = s.mem ∧
    ((s.resetEngine k).core k).imem =
      (List.range 0x6000).map fun i => (0x2000 + i, Config.firmwareWord s.image k (0x2000 + i))) ∧
  (∀ (s : State) (cause : Nat), s.mode = .ready →
    (s.restart cause).devEpoch = s.devEpoch + 1 ∧ (s.restart cause).trvs = [] ∧ (s.restart cause).mem = [] ∧
    (s.restart cause).mailboxes = [] ∧ (s.restart cause).devMs = s.devMs ∧ (s.restart cause).mon = s.mon ∧
    (s.restart cause).flash = s.flash ∧ (s.restart cause).pending = s.pending) ∧
  (∀ (s : State) (cause : Nat), s.mode = .ready → s.restarts = [] → (s.restart cause).mode = .boot 0 ∧
    (s.restart cause).restarts = [s.devMs]) ∧
  (∀ (s : State) (cause a b c : Nat), s.mode = .ready → s.restarts = [a, b, c] → s.devMs ≤ a + 600000 →
    s.devMs ≤ b + 600000 → s.devMs ≤ c + 600000 → (s.restart cause).mode = .recovery 4) ∧
  (∀ (s : State) (cause a b c : Nat), s.mode = .ready → s.restarts = [a, b, c] → a + 600000 < s.devMs →
    b + 600000 < s.devMs → (s.restart cause).mode = .boot 0) ∧
  (∀ (s : State) (cause p : Nat), s.mode = .ready → ((s.restart cause).port p).fnEpoch = (s.port p).fnEpoch ∧
    ((s.restart cause).port p).ap = (s.port p).ap ∧ ((s.restart cause).port p).ready = false) ∧
  -- a restart during the timeline counts as well; a port's book is empty, and the link functions stay in force
  (∀ (s : State) (cause row p : Nat), s.mode = .boot row → (s.restart cause).devEpoch = s.devEpoch + 1 ∧
    (s.restart cause).trvs = [] ∧ ((s.restart cause).port p).fnEpoch = (s.port p).fnEpoch) ∧
  (∀ (s : State) (cause c : Nat), s.mode = .ready → c < 12 →
    ((s.restart cause).chain c).laneEn = (s.manage.sas.link c).extractLsb' 4 4 ∧
    ((s.restart cause).chain c).maxRate = (s.manage.sas.link c).toNat % 4 ∧
    (s.restart cause).manage.sas = s.manage.sas)

/-- Power, clocks and temperatures (R546, R548, R555, R584, R588, R595, R596, R598): what each pin, rail, clock and
reading does to the device. What here is the model's choice is told in log entry 26. -/
def Obligations.PowerAndClocksActOnTheDevice : Prop :=
  -- CX_RST_N
  (∀ s : State, s.mode = .ready → exec .cxRstNAssert s = .next (s.cold .reset)) ∧
  (∀ (s : State) (m : DeviceMode), (s.cold m).mode = m ∧ (s.cold m).mem = [] ∧ (s.cold m).trvs = [] ∧
    (s.cold m).devMs = 0 ∧ (s.cold m).devEpoch = 0 ∧ (s.cold m).mon = s.mon ∧ (s.cold m).flash = s.flash ∧
    (s.cold m).pending = s.pending ∧ ∀ p, ((s.cold m).port p).fnEpoch = 0) ∧
  (∀ (s : State) (sel : BitVec 4) (smb : BitVec 2), s.mode = .reset → s.railsValid = true → s.tooHot = false →
    s.bif0 ≠ some 3#2 → s.bif1 ≠ some 3#2 →
    exec (.cxRstNDeassert sel smb false) s = .next { s with
      mode := .boot 0, thermTrip := false, waitClock := !s.devClk, adminSel := sel
      manage := { s.manage with smbAddr := smb } }) ∧
  (∀ (s : State) (sel : BitVec 4) (smb : BitVec 2), s.mode = .reset → s.railsValid = true → s.tooHot = false →
    ∃ t : State, exec (.cxRstNDeassert sel smb true) s = .next t ∧ t.mode = .recovery 1 ∧
      (t.core 48).inReset = false ∧ t.flash = s.flash ∧ t.mem = s.mem) ∧
  (∀ (s : State) (sel : BitVec 4) (smb : BitVec 2) (rcvy : Bool), s.mode = .reset → s.railsValid = true →
    s.tooHot = true → exec (.cxRstNDeassert sel smb rcvy) s = .next { s with mode := .tripped }) ∧
  -- rails
  (∀ s : State, s.railsValid = false →
    exec .mainRailsValid s = .next { s with railsValid := true, mode := .reset, taps := [] }) ∧
  (∀ s : State, s.railsValid = true → ∃ t : State, exec .mainRailFault s = .next t ∧ t.mode = .off ∧
    t.railsValid = false ∧
    t.mem = [] ∧ t.mon = { s.mon with rebase := true } ∧ t.flash = s.flash ∧ t.bif0 = none ∧ t.bif1 = none) ∧
  -- clocks
  (∀ s : State, s.devClk = true → s.restarting = false →
    exec .devRefclkLoss s = .next (({ s with devClk := false } : State).restart 0x21)) ∧
  (∀ s : State, s.devClk = true → s.restarting = true → ∃ t : State, exec .devRefclkLoss s = .next t ∧
    t.mode = .boot 0 ∧ t.waitClock = true ∧ t.devEpoch = s.devEpoch ∧ t.restarts = s.restarts ∧ t.trvs = []) ∧
  (∀ s : State, exec .devRefclkReturn s = .next { s with devClk := true, waitClock := false }) ∧
  (∀ s : State, s.sasClk = true → (∀ c, c < 12 → (s.chain c).anyLane = false) →
    exec .sasRefclkLoss s = .next { s with sasClk := false }) ∧
  (∀ s : State, exec .sasRefclkReturn s = .next { s with sasClk := true }) ∧
  -- SENSOR_UPDATE: readings below every fatal threshold change nothing else; a fatal one trips the device
  (∀ (s : State) (temps : List Int), s.railsValid = true → (∀ t ∈ temps, t < 105) →
    (∀ x ∈ s.sensors, fatalReading x.1 x.2 = false) →
    ∃ now, exec (.sensorUpdate temps) s = .next { s with sensors := now } ∧
      ∀ i, i < 10 → now.get (i + 1) 0 = if i < temps.length then temps.getD i 0 else s.sensors.get (i + 1) 0) ∧
  (∀ (s : State) (temps : List Int), s.railsValid = true → s.thermTrip = false → s.mode = .ready →
    115 ≤ temps.getD 0 0 →
    ∃ t : State, exec (.sensorUpdate temps) s = .next (t.emit .thermTrip) ∧ t.mode = .tripped ∧ t.thermTrip = true ∧
      t.mem = []) ∧
  -- ISLAND_GATING: only an idle island is gated
  (∀ (s : State) (party : Nat), s.mode = .ready → s.partyIdle party = true →
    ∃ t : State, exec (.islandGating (.engines party)) s = .next t ∧ t.mem = s.mem ∧
      (∀ j, j < 4 → (t.core (4 * party + j)).gated = true) ∧
      ∀ k, (k < 4 * party ∨ 4 * party + 4 ≤ k) → t.core k = s.core k) ∧
  (∀ (s : State) (party : Nat), s.partyIdle party = false → exec (.islandGating (.engines party)) s = .next s) ∧
  (∀ (s : State) (c : Nat), s.mode = .ready → s.chainIdle c = true → exec (.islandGating (.sasPort c)) s =
    .next (s.setChain c { s.chain c with gated := true }))

/-- The boot timeline (R70, R76, R551 to R556, R561): one row after another, each a BOOT-STAGE event, to READY mode.
What here is the model's choice is told in log entries 25, 53. -/
def Obligations.BootStagesComplete : Prop :=
  (∀ (s : State) (r : BootReport) (row : Nat), s.mode = .boot row → s.waitClock = true →
    exec (.bootStage r) s = .next s) ∧
  (∀ (s : State) (r : BootReport) (row : Nat), s.mode = .boot row → s.waitClock = false →
    exec (.bootStage r) s = .next (s.bootRow r (row + 1))) ∧
  (∀ (s : State) (r : BootReport), (s.bootRow r 1).mode = .boot 1 ∧ ((s.bootRow r 1).core 48).inReset = false) ∧
  (∀ (s : State) (r : BootReport), (s.bootRow r 2).flash = if s.flash.dirKnown then s.flash
    else s.flash.readDirectory ((List.range 16).map fun i => r.directory.getD i 0xFF)) ∧
  (∀ (s : State) (r : BootReport), r.trained = false → (s.bootRow r 3).mode = .recovery 3) ∧
  (∀ (s : State) (r : BootReport), (s.bootRow r 4).mode = .boot 4 ∧
    (∀ a, isExtentAddr a = true → memByte (s.bootRow r 4).mem a = 0) ∧ (s.bootRow r 4).extents = []) ∧
  -- images: the key, then the signature, the device, the SVN; an image no slot of which is accepted is recovery mode
  (∀ (f : Flash) (b : Bool) (r : ImageReport), f.imageCode b r = 0 ↔ f.keyOk b r = true ∧ f.sigOk b r = true ∧
    fieldAt (f.header b r) 0 4 = 0x4B56494D ∧ byteAt (f.header b r) 4 = 1 ∧
    fieldAt (f.header b r) 8 4 ≤ 12 * 2 ^ 20 - 512 ∧ byteAt (f.header b r) 5 = 0xA1 ∧
    f.svnMin.toNat ≤ fieldAt (f.header b r) 6 2) ∧
  (∀ (f : Flash) (b : Bool) (r : ImageReport),
    (f.keyOk b r = true ↔ sha384 (((f.header b r).drop 112).take 96) = Config.fusedKeyHash) ∧
    f.sigOk b r = verify384 (((f.header b r).drop 112).take 96) (((f.header b r).drop 16).take 96)
      (sha384 ((f.header b r).take 16 ++ f.body b r))) ∧
  (∀ (s : State) (r : BootReport), s.flash.imageCode false r.slotA ≠ 0 → s.flash.imageCode true r.slotB ≠ 0 →
    (s.bootRow r 5).mode = .recovery 2) ∧
  (∀ (s : State) (r : BootReport), s.flash.pending = some true → s.flash.active = false →
    (s.bootRow r 5).mode = (if s.flash.imageCode true r.slotB = 0 ∨ s.flash.imageCode false r.slotA = 0 then .boot 5
      else .recovery 2) ∧
    (s.bootRow r 5).flash =
      if s.flash.imageCode true r.slotB = 0 then
        { s.flash with active := true, pending := none, dirSeq := s.flash.dirSeq + 1, dirKnown := true
                       imageLen := fieldAt (s.flash.header true r.slotB) 8 4
                       svn := BitVec.ofNat 16 (fieldAt (s.flash.header true r.slotB) 6 2) }
      else if s.flash.imageCode false r.slotA = 0 then
        { s.flash with imageLen := fieldAt (s.flash.header false r.slotA) 8 4
                       svn := BitVec.ofNat 16 (fieldAt (s.flash.header false r.slotA) 6 2) }
      else s.flash) ∧
  -- the key store comes from its sealed copy, or is empty
  (∀ (s : State) (r : BootReport), (s.bootRow r 6).mode = .boot 6 ∧
    (s.bootRow r 6).manage.keys = if r.keysOk then s.flash.keys else []) ∧
  -- the engines start with the firmware of the image
  (∀ (s : State) (r : BootReport) (k : Nat), k < 48 → (s.bootRow r 7).mode = .boot 7 ∧ (s.bootRow r 7).core k =
    { inReset := false
      imem := (List.range 0x6000).map fun i => (0x2000 + i, Config.firmwareWord s.image k (0x2000 + i)) }) ∧
  -- the first tables wait for every quarter's alignment, and are in force after their swap
  (∀ (s : State) (r : BootReport) (q : Nat), q < 4 → (s.quarter q).aligned = false → s.bootRow r 8 = s) ∧
  (∀ (s : State) (r : BootReport), (∀ q, q < 4 → (s.quarter q).aligned = true ∧ (s.quarter q).active = true) →
    s.swapBusy = false → (s.bootRow r 8).mode = .boot 8 ∧ ∀ q, q < 4 → ((s.bootRow r 8).quarter q).mode = 0) ∧
  (∀ (s : State) (r : BootReport), (s.bootRow r 9).mode = .ready) ∧
  -- an entry with a reserved value leaves its port untrained
  (∀ (s : State) (r : BootReport) (p : Nat), ((portEntry r p).all fun b => b = 0xFF) = false →
    entryReserved (portEntry r p) = true →
    ((s.configurePort r p).port p).clkMode = 3 ∧ ((s.configurePort r p).port p).linkUp = false ∧
    (s.configurePort r p).mem = s.mem) ∧
  (∀ (s : State) (p : Nat), (s.port p).perst = false → (s.port p).configured = false → (s.port p).clkMode ≤ 2 →
    ((s.openPort p true).port p).ready = true ∧ ((s.openPort p true).port p).configured = true ∧
    (s.openPort p true).mem = s.mem) ∧
  (∀ s : State, s.apportioned = true → s.apportionBasic = s) ∧
  (∀ (s : State) (p : Nat), s.apportioned = false → s.created = [p] →
    ((s.apportionBasic).port p).ap = basicRecord 1 0 ∧ s.apportionBasic.apportioned = true) ∧
  ((basicRecord 1 0).sqCount = 256 ∧ (basicRecord 1 0).trvQuota = 65536 ∧ (basicRecord 1 0).share = 256 ∧
    (basicRecord 1 0).shelves = BitVec.allOnes 48)
end

