-- ==== Sys2Proof/Laws/Exec.lean ====
section
/-! SUPPORT. What each command is sent to: one equation for each arm of `exec`. -/

namespace Sys2Proof.Machine

variable (st : State)

@[simp] theorem exec_registerWrite (by_ : Sender) (addr : Nat) (width : Nat) (v : BitVec 64) : exec (.registerWrite by_ addr width v) st = execRegisterWrite by_ addr width v st := rfl
@[simp] theorem exec_reservedOffsetAccess (p : Nat) (bar : Nat) (offset : Nat) (width : Nat) (write : Bool) : exec (.reservedOffsetAccess p bar offset width write) st = execReservedOffsetAccess p bar offset width write st := rfl
@[simp] theorem exec_configRequest (p : Nat) (write : Bool) (dword : Nat) (v : BitVec 32) : exec (.configRequest p write dword v) st = execConfigRequest p write dword v st := rfl
@[simp] theorem exec_perstNDeassert (slot : Nat) (strap : BitVec 2) : exec (.perstNDeassert slot strap) st = execPerstNDeassert slot strap st := rfl
@[simp] theorem exec_perstNAssert (slot : Nat) : exec (.perstNAssert slot) st = execPerstNAssert slot st := rfl
@[simp] theorem exec_flr (p : Nat) : exec (.flr p) st = execFlr p st := rfl
@[simp] theorem exec_d3hotEntry (p : Nat) : exec (.d3hotEntry p) st = execD3hotEntry p st := rfl
@[simp] theorem exec_d3hotToD0 (p : Nat) : exec (.d3hotToD0 p) st = execD3hotToD0 p st := rfl
@[simp] theorem exec_dlDown (p : Nat) : exec (.dlDown p) st = execDlDown p st := rfl
@[simp] theorem exec_pcieLinkUp (p : Nat) : exec (.pcieLinkUp p) st = execPcieLinkUp p st := rfl
@[simp] theorem exec_uncorrectableFatalError (p : Nat) : exec (.uncorrectableFatalError p) st = execUncorrectableFatalError p st := rfl
@[simp] theorem exec_hostReadCompletion (p : Nat) (id : Nat) (r : HostResp) : exec (.hostReadCompletion p id r) st = execHostReadCompletion p id r st := rfl
@[simp] theorem exec_hostReadTimeout (p : Nat) (id : Nat) : exec (.hostReadTimeout p id) st = execHostReadTimeout p id st := rfl
@[simp] theorem exec_bar4Access (p : Nat) (write : Bool) (offset : Nat) (bytes : List Byte) : exec (.bar4Access p write offset bytes) st = execBar4Access p write offset bytes st := rfl
@[simp] theorem exec_sqDoorbell (p : Nat) (q : Nat) : exec (.sqDoorbell p q) st = execSqDoorbell p q st := rfl
@[simp] theorem exec_cqHeadDoorbell (p : Nat) (q : Nat) (h : BitVec 16) : exec (.cqHeadDoorbell p q h) st = execCqHeadDoorbell p q h st := rfl
@[simp] theorem exec_sqEnable (p : Nat) (q : Nat) (v : BitVec 32) : exec (.sqEnable p q v) st = execSqEnable p q v st := rfl
@[simp] theorem exec_sqDisable (p : Nat) (q : Nat) (v : BitVec 32) : exec (.sqDisable p q v) st = execSqDisable p q v st := rfl
@[simp] theorem exec_cqEnable (p : Nat) (q : Nat) (v : BitVec 32) : exec (.cqEnable p q v) st = execCqEnable p q v st := rfl
@[simp] theorem exec_cqDisable (p : Nat) (q : Nat) (v : BitVec 32) : exec (.cqDisable p q v) st = execCqDisable p q v st := rfl
@[simp] theorem exec_sqInvWrite (p : Nat) (q : Nat) (v : BitVec 32) : exec (.sqInvWrite p q v) st = execSqInvWrite p q v st := rfl
@[simp] theorem exec_sqInvalidation (p : Nat) (q : Nat) : exec (.sqInvalidation p q) st = execSqInvalidation p q st := rfl
@[simp] theorem exec_cqVecCoalWrite (p : Nat) (q : Nat) (v : BitVec 32) : exec (.cqVecCoalWrite p q v) st = execCqVecCoalWrite p q v st := rfl
@[simp] theorem exec_scanTurn (p : Nat) : exec (.scanTurn p) st = execScanTurn p st := rfl
@[simp] theorem exec_startEntry (p : Nat) : exec (.startEntry p) st = execStartEntry p st := rfl
@[simp] theorem exec_resumeEntry (p : Nat) : exec (.resumeEntry p) st = execResumeEntry p st := rfl
@[simp] theorem exec_nopEntry (p : Nat) : exec (.nopEntry p) st = execNopEntry p st := rfl
@[simp] theorem exec_noteRequest (p : Nat) : exec (.noteRequest p) st = execNoteRequest p st := rfl
@[simp] theorem exec_admission : exec .admission st = execAdmission st := rfl
@[simp] theorem exec_bind (w : BindWho) : exec (.bind w) st = execBind w st := rfl
@[simp] theorem exec_stationStart (p : Nat) (tag : Nat) : exec (.stationStart p tag) st = execStationStart p tag st := rfl
@[simp] theorem exec_legIssue (p : Nat) (tag : Nat) : exec (.legIssue p tag) st = execLegIssue p tag st := rfl
@[simp] theorem exec_legIssueExt (p : Nat) (tag : Nat) : exec (.legIssueExt p tag) st = execLegIssueExt p tag st := rfl
@[simp] theorem exec_legTask (p : Nat) (tag : Nat) : exec (.legTask p tag) st = execLegTask p tag st := rfl
@[simp] theorem exec_legEnclosure (p : Nat) (tag : Nat) : exec (.legEnclosure p tag) st = execLegEnclosure p tag st := rfl
@[simp] theorem exec_legStageIn (p : Nat) (tag : Nat) : exec (.legStageIn p tag) st = execLegStageIn p tag st := rfl
@[simp] theorem exec_legStageOut (p : Nat) (tag : Nat) : exec (.legStageOut p tag) st = execLegStageOut p tag st := rfl
@[simp] theorem exec_legCopy (p : Nat) (tag : Nat) : exec (.legCopy p tag) st = execLegCopy p tag st := rfl
@[simp] theorem exec_legRecipe (p : Nat) (tag : Nat) : exec (.legRecipe p tag) st = execLegRecipe p tag st := rfl
@[simp] theorem exec_legFlushSpan (p : Nat) (tag : Nat) : exec (.legFlushSpan p tag) st = execLegFlushSpan p tag st := rfl
@[simp] theorem exec_legVerify (p : Nat) (tag : Nat) : exec (.legVerify p tag) st = execLegVerify p tag st := rfl
@[simp] theorem exec_legGather (p : Nat) (tag : Nat) : exec (.legGather p tag) st = execLegGather p tag st := rfl
@[simp] theorem exec_legBook (p : Nat) (tag : Nat) : exec (.legBook p tag) st = execLegBook p tag st := rfl
@[simp] theorem exec_legRelease (p : Nat) (tag : Nat) : exec (.legRelease p tag) st = execLegRelease p tag st := rfl
@[simp] theorem exec_legSpin (p : Nat) (tag : Nat) : exec (.legSpin p tag) st = execLegSpin p tag st := rfl
@[simp] theorem exec_legGoto (p : Nat) (tag : Nat) : exec (.legGoto p tag) st = execLegGoto p tag st := rfl
@[simp] theorem exec_legTest (p : Nat) (tag : Nat) : exec (.legTest p tag) st = execLegTest p tag st := rfl
@[simp] theorem exec_legWait (p : Nat) (tag : Nat) : exec (.legWait p tag) st = execLegWait p tag st := rfl
@[simp] theorem exec_legNote (p : Nat) (tag : Nat) : exec (.legNote p tag) st = execLegNote p tag st := rfl
@[simp] theorem exec_legPause (p : Nat) (tag : Nat) : exec (.legPause p tag) st = execLegPause p tag st := rfl
@[simp] theorem exec_legExec (p : Nat) (tag : Nat) : exec (.legExec p tag) st = execLegExec p tag st := rfl
@[simp] theorem exec_legEnd (p : Nat) (tag : Nat) : exec (.legEnd p tag) st = execLegEnd p tag st := rfl
@[simp] theorem exec_responseParkExpiry (p : Nat) (tag : Nat) : exec (.responseParkExpiry p tag) st = execResponseParkExpiry p tag st := rfl
@[simp] theorem exec_deadlineExpiry (p : Nat) (tag : Nat) : exec (.deadlineExpiry p tag) st = execDeadlineExpiry p tag st := rfl
@[simp] theorem exec_waitDeadlineExpiry (p : Nat) (tag : Nat) : exec (.waitDeadlineExpiry p tag) st = execWaitDeadlineExpiry p tag st := rfl
@[simp] theorem exec_pauseExpiry (p : Nat) (tag : Nat) : exec (.pauseExpiry p tag) st = execPauseExpiry p tag st := rfl
@[simp] theorem exec_completionReadback (p : Nat) (tag : Nat) (ok : Bool) : exec (.completionReadback p tag ok) st = execCompletionReadback p tag ok st := rfl
@[simp] theorem exec_collectorRelease (frame : Nat) : exec (.collectorRelease frame) st = execCollectorRelease frame st := rfl
@[simp] theorem exec_completionPost (p : Nat) : exec (.completionPost p) st = execCompletionPost p st := rfl
@[simp] theorem exec_coalesceTimerExpiry (p : Nat) (v : Nat) : exec (.coalesceTimerExpiry p v) st = execCoalesceTimerExpiry p v st := rfl
@[simp] theorem exec_msixPendingSend (p : Nat) (v : Nat) : exec (.msixPendingSend p v) st = execMsixPendingSend p v st := rfl
@[simp] theorem exec_mctpControl (path : MctpPath) (body : List Byte) : exec (.mctpControl path body) st = execMctpControl path body st := rfl
@[simp] theorem exec_pldmMonitoring (path : MctpPath) (pldmType : Nat) (sensor : Nat) : exec (.pldmMonitoring path pldmType sensor) st = execPldmMonitoring path pldmType sensor st := rfl
@[simp] theorem exec_pldmFirmwareUpdate (path : MctpPath) (r : PldmReq) : exec (.pldmFirmwareUpdate path r) st = execPldmFirmwareUpdate path r st := rfl
@[simp] theorem exec_getApportionment (src : KilvorSrc) : exec (.getApportionment src) st = execGetApportionment src st := rfl
@[simp] theorem exec_stageGrant (src : KilvorSrc) : exec (.stageGrant src) st = execStageGrant src st := rfl
@[simp] theorem exec_commit (src : KilvorSrc) : exec (.commit src) st = execCommit src st := rfl
@[simp] theorem exec_discard (src : KilvorSrc) : exec (.discard src) st = execDiscard src st := rfl
@[simp] theorem exec_setAdmin (src : KilvorSrc) : exec (.setAdmin src) st = execSetAdmin src st := rfl
@[simp] theorem exec_kilvorUnknownCommand (src : KilvorSrc) : exec (.kilvorUnknownCommand src) st = execKilvorUnknownCommand src st := rfl
@[simp] theorem exec_setLevelOutingChoice (src : KilvorSrc) : exec (.setLevelOutingChoice src) st = execSetLevelOutingChoice src st := rfl
@[simp] theorem exec_setLevelShelvesPerChain (src : KilvorSrc) : exec (.setLevelShelvesPerChain src) st = execSetLevelShelvesPerChain src st := rfl
@[simp] theorem exec_setLevelSpinUp (src : KilvorSrc) : exec (.setLevelSpinUp src) st = execSetLevelSpinUp src st := rfl
@[simp] theorem exec_setLevelLink (src : KilvorSrc) : exec (.setLevelLink src) st = execSetLevelLink src st := rfl
@[simp] theorem exec_setLevelRecovery (src : KilvorSrc) : exec (.setLevelRecovery src) st = execSetLevelRecovery src st := rfl
@[simp] theorem exec_setLevelTimetable (src : KilvorSrc) : exec (.setLevelTimetable src) st = execSetLevelTimetable src st := rfl
@[simp] theorem exec_setLevelRecipes (src : KilvorSrc) : exec (.setLevelRecipes src) st = execSetLevelRecipes src st := rfl
@[simp] theorem exec_setLevelStackPower (src : KilvorSrc) : exec (.setLevelStackPower src) st = execSetLevelStackPower src st := rfl
@[simp] theorem exec_setLevelCopy (src : KilvorSrc) : exec (.setLevelCopy src) st = execSetLevelCopy src st := rfl
@[simp] theorem exec_timetableBegin (src : KilvorSrc) : exec (.timetableBegin src) st = execTimetableBegin src st := rfl
@[simp] theorem exec_timetableRows (src : KilvorSrc) : exec (.timetableRows src) st = execTimetableRows src st := rfl
@[simp] theorem exec_timetableCommit (src : KilvorSrc) : exec (.timetableCommit src) st = execTimetableCommit src st := rfl
@[simp] theorem exec_timetableAbort (src : KilvorSrc) : exec (.timetableAbort src) st = execTimetableAbort src st := rfl
@[simp] theorem exec_recipeWrite (src : KilvorSrc) : exec (.recipeWrite src) st = execRecipeWrite src st := rfl
@[simp] theorem exec_recipeCommit (src : KilvorSrc) : exec (.recipeCommit src) st = execRecipeCommit src st := rfl
@[simp] theorem exec_recipeErase (src : KilvorSrc) : exec (.recipeErase src) st = execRecipeErase src st := rfl
@[simp] theorem exec_keyLoad (src : KilvorSrc) : exec (.keyLoad src) st = execKeyLoad src st := rfl
@[simp] theorem exec_keyGenerate (src : KilvorSrc) : exec (.keyGenerate src) st = execKeyGenerate src st := rfl
@[simp] theorem exec_keyErase (src : KilvorSrc) : exec (.keyErase src) st = execKeyErase src st := rfl
@[simp] theorem exec_keyCheck (src : KilvorSrc) : exec (.keyCheck src) st = execKeyCheck src st := rfl
@[simp] theorem exec_keystoreSealDone : exec .keystoreSealDone st = execKeystoreSealDone st := rfl
@[simp] theorem exec_mbReqPost (p : Nat) (m : Nat) (v : BitVec 32) : exec (.mbReqPost p m v) st = execMbReqPost p m v st := rfl
@[simp] theorem exec_mbRplRel (p : Nat) (m : Nat) (v : BitVec 32) : exec (.mbRplRel p m v) st = execMbRplRel p m v st := rfl
@[simp] theorem exec_mbWakeWord0Write (by_ : Sender) (inst : Nat) (v : BitVec 32) : exec (.mbWakeWord0Write by_ inst v) st = execMbWakeWord0Write by_ inst v st := rfl
@[simp] theorem exec_mbPost (k : Nat) (inst : Nat) (v : Word) : exec (.mbPost k inst v) st = execMbPost k inst v st := rfl
@[simp] theorem exec_mbRel (k : Nat) (inst : Nat) (v : Word) : exec (.mbRel k inst v) st = execMbRel k inst v st := rfl
@[simp] theorem exec_mailboxRequestTake (inst : Nat) : exec (.mailboxRequestTake inst) st = execMailboxRequestTake inst st := rfl
@[simp] theorem exec_shelfParam : exec .shelfParam st = execShelfParam st := rfl
@[simp] theorem exec_shelfQuery : exec .shelfQuery st = execShelfQuery st := rfl
@[simp] theorem exec_shelfRestore : exec .shelfRestore st = execShelfRestore st := rfl
@[simp] theorem exec_chainQuery : exec .chainQuery st = execChainQuery st := rfl
@[simp] theorem exec_accumArm : exec .accumArm st = execAccumArm st := rfl
@[simp] theorem exec_accumDisarm : exec .accumDisarm st = execAccumDisarm st := rfl
@[simp] theorem exec_extAlloc : exec .extAlloc st = execExtAlloc st := rfl
@[simp] theorem exec_extFree : exec .extFree st = execExtFree st := rfl
@[simp] theorem exec_extQuery : exec .extQuery st = execExtQuery st := rfl
@[simp] theorem exec_sspResponseFrame (c : Nat) (tag : Nat) (status : BitVec 8) (info : List Byte) : exec (.sspResponseFrame c tag status info) st = execSspResponseFrame c tag status info st := rfl
@[simp] theorem exec_taskResponse (c : Nat) (tag : Nat) (code : BitVec 8) : exec (.taskResponse c tag code) st = execTaskResponse c tag code st := rfl
@[simp] theorem exec_xferRdy (c : Nat) (tag : Nat) (offset : Nat) (len : Nat) : exec (.xferRdy c tag offset len) st = execXferRdy c tag offset len st := rfl
@[simp] theorem exec_dataFrameReceive (l : SasLane) (tag : Nat) (offset : Nat) (bytes : List Byte) : exec (.dataFrameReceive l tag offset bytes) st = execDataFrameReceive l tag offset bytes st := rfl
@[simp] theorem exec_dataFrameSend (l : SasLane) (tag : Nat) : exec (.dataFrameSend l tag) st = execDataFrameSend l tag st := rfl
@[simp] theorem exec_commandFrameSend (h : Nat) : exec (.commandFrameSend h) st = execCommandFrameSend h st := rfl
@[simp] theorem exec_taskSend (h : Nat) : exec (.taskSend h) st = execTaskSend h st := rfl
@[simp] theorem exec_smpResponse (c : Nat) (r : SmpReport) : exec (.smpResponse c r) st = execSmpResponse c r st := rfl
@[simp] theorem exec_openReject (h : Nat) (tag : Nat) (r : RejectReason) : exec (.openReject h tag r) st = execOpenReject h tag r st := rfl
@[simp] theorem exec_openBackoffExpiry (h : Nat) (tag : Nat) : exec (.openBackoffExpiry h tag) st = execOpenBackoffExpiry h tag st := rfl
@[simp] theorem exec_connectionBreak (c : Nat) (tags : List Nat) : exec (.connectionBreak c tags) st = execConnectionBreak c tags st := rfl
@[simp] theorem exec_commandTimeout (c : Nat) (tag : Nat) : exec (.commandTimeout c tag) st = execCommandTimeout c tag st := rfl
@[simp] theorem exec_tmfTimeout (c : Nat) (tag : Nat) : exec (.tmfTimeout c tag) st = execTmfTimeout c tag st := rfl
@[simp] theorem exec_busyRetryDelayExpiry (c : Nat) (id : Nat) : exec (.busyRetryDelayExpiry c id) st = execBusyRetryDelayExpiry c id st := rfl
@[simp] theorem exec_nexusLossExpiry (h : Nat) : exec (.nexusLossExpiry h) st = execNexusLossExpiry h st := rfl
@[simp] theorem exec_broadcast (c : Nat) (lane : Nat) (prim : BitVec 8) : exec (.broadcast c lane prim) st = execBroadcast c lane prim st := rfl
@[simp] theorem exec_rediscoveryStart (c : Nat) : exec (.rediscoveryStart c) st = execRediscoveryStart c st := rfl
@[simp] theorem exec_laneUp (c : Nat) (lane : Nat) (rate : BitVec 2) : exec (.laneUp c lane rate) st = execLaneUp c lane rate st := rfl
@[simp] theorem exec_dwordSyncLoss (c : Nat) (lane : Nat) : exec (.dwordSyncLoss c lane) st = execDwordSyncLoss c lane st := rfl
@[simp] theorem exec_fecThreshold (c : Nat) (lane : Nat) : exec (.fecThreshold c lane) st = execFecThreshold c lane st := rfl
@[simp] theorem exec_portResetAttempt (c : Nat) (ok : Bool) : exec (.portResetAttempt c ok) st = execPortResetAttempt c ok st := rfl
@[simp] theorem exec_discoveryTimeout (c : Nat) : exec (.discoveryTimeout c) st = execDiscoveryTimeout c st := rfl
@[simp] theorem exec_slotDiscoveryComplete (sh : Nat) : exec (.slotDiscoveryComplete sh) st = execSlotDiscoveryComplete sh st := rfl
@[simp] theorem exec_chainLinkResetApply (c : Nat) : exec (.chainLinkResetApply c) st = execChainLinkResetApply c st := rfl
@[simp] theorem exec_plannerChoice (c : Nat) : exec (.plannerChoice c) st = execPlannerChoice c st := rfl
@[simp] theorem exec_shelfPgFilteredEdge (sh : Nat) (level : Bool) : exec (.shelfPgFilteredEdge sh level) st = execShelfPgFilteredEdge sh level st := rfl
@[simp] theorem exec_shelfPgDebounceExpiry (sh : Nat) : exec (.shelfPgDebounceExpiry sh) st = execShelfPgDebounceExpiry sh st := rfl
@[simp] theorem exec_powerGoodTimeout (sh : Nat) : exec (.powerGoodTimeout sh) st = execPowerGoodTimeout sh st := rfl
@[simp] theorem exec_spinUpStartTimeout (sh : Nat) : exec (.spinUpStartTimeout sh) st = execSpinUpStartTimeout sh st := rfl
@[simp] theorem exec_spinUpStep (sh : Nat) : exec (.spinUpStep sh) st = execSpinUpStep sh st := rfl
@[simp] theorem exec_testUnitReadyPoll (sh : Nat) (slot : Nat) : exec (.testUnitReadyPoll sh slot) st = execTestUnitReadyPoll sh slot st := rfl
@[simp] theorem exec_spinUpTimeout (sh : Nat) : exec (.spinUpTimeout sh) st = execSpinUpTimeout sh st := rfl
@[simp] theorem exec_lingerExpiry (sh : Nat) : exec (.lingerExpiry sh) st = execLingerExpiry sh st := rfl
@[simp] theorem exec_maxOpenExpiry (sh : Nat) : exec (.maxOpenExpiry sh) st = execMaxOpenExpiry sh st := rfl
@[simp] theorem exec_ageLimitPassed (sh : Nat) : exec (.ageLimitPassed sh) st = execAgeLimitPassed sh st := rfl
@[simp] theorem exec_openingWindowEnd (sh : Nat) : exec (.openingWindowEnd sh) st = execOpeningWindowEnd sh st := rfl
@[simp] theorem exec_drainLimitExpiry (sh : Nat) : exec (.drainLimitExpiry sh) st = execDrainLimitExpiry sh st := rfl
@[simp] theorem exec_closingSequenceDone (sh : Nat) : exec (.closingSequenceDone sh) st = execClosingSequenceDone sh st := rfl
@[simp] theorem exec_settlingTimeout (sh : Nat) : exec (.settlingTimeout sh) st = execSettlingTimeout sh st := rfl
@[simp] theorem exec_holdoffExpiry (sh : Nat) : exec (.holdoffExpiry sh) st = execHoldoffExpiry sh st := rfl
@[simp] theorem exec_timetableRow (q : Nat) (ecc : RowEcc) (uses : List LaneUse) (asks : List OpenAsk) : exec (.timetableRow q ecc uses asks) st = execTimetableRow q ecc uses asks st := rfl
@[simp] theorem exec_superframeBoundary (q : Nat) : exec (.superframeBoundary q) st = execSuperframeBoundary q st := rfl
@[simp] theorem exec_seamEnd (q : Nat) : exec (.seamEnd q) st = execSeamEnd q st := rfl
@[simp] theorem exec_frameBeacon (q : Nat) (count : BitVec 32) : exec (.frameBeacon q count) st = execFrameBeacon q count st := rfl
@[simp] theorem exec_beaconMissing (q : Nat) : exec (.beaconMissing q) st = execBeaconMissing q st := rfl
@[simp] theorem exec_beaconAlignment (q : Nat) (count : BitVec 32) (delay : Nat) (roundTrips : List Nat) : exec (.beaconAlignment q count delay roundTrips) st = execBeaconAlignment q count delay roundTrips st := rfl
@[simp] theorem exec_ttShadowDataWrite (q : Nat) (v : Word) : exec (.ttShadowDataWrite q v) st = execTtShadowDataWrite q v st := rfl
@[simp] theorem exec_preparationDone (e : Nat) : exec (.preparationDone e) st = execPreparationDone e st := rfl
@[simp] theorem exec_recipeStart (e : Nat) : exec (.recipeStart e) st = execRecipeStart e st := rfl
@[simp] theorem exec_hLd (e : Nat) (stop : Bool) (vd : BitVec 5) (ag : BitVec 3) : exec (.hLd e stop vd ag) st = execHLd e stop vd ag st := rfl
@[simp] theorem exec_hamperLoadLands (e : Nat) : exec (.hamperLoadLands e) st = execHamperLoadLands e st := rfl
@[simp] theorem exec_hSt (e : Nat) (stop : Bool) (srcP : Bool) (reg : BitVec 5) (ag : BitVec 3) : exec (.hSt e stop srcP reg ag) st = execHSt e stop srcP reg ag st := rfl
@[simp] theorem exec_hSta (e : Nat) (stop : Bool) (srcP : Bool) (reg : BitVec 5) (ag : BitVec 3) (last : Bool) (row : BitVec 4) (col : BitVec 7) : exec (.hSta e stop srcP reg ag last row col) st = execHSta e stop srcP reg ag last row col st := rfl
@[simp] theorem exec_hMac (e : Nat) (stop : Bool) (pbase : BitVec 4) (np1 : BitVec 4) (vs : BitVec 5) (col : BitVec 7) (lcc : Bool) (clr : Bool) : exec (.hMac e stop pbase np1 vs col lcc clr) st = execHMac e stop pbase np1 vs col lcc clr st := rfl
@[simp] theorem exec_hGfOut (e : Nat) (stop : Bool) (ps : BitVec 4) (vd : BitVec 5) : exec (.hGfOut e stop ps vd) st = execHGfOut e stop ps vd st := rfl
@[simp] theorem exec_hCld (e : Nat) (stop : Bool) (row : BitVec 4) (vs : BitVec 5) (half : Bool) : exec (.hCld e stop row vs half) st = execHCld e stop row vs half st := rfl
@[simp] theorem exec_hHsInit (e : Nat) (stop : Bool) (h : BitVec 2) : exec (.hHsInit e stop h) st = execHHsInit e stop h st := rfl
@[simp] theorem exec_hUpd (e : Nat) (stop : Bool) (h : BitVec 2) (vs : BitVec 5) (sel : BitVec 2) : exec (.hUpd e stop h vs sel) st = execHUpd e stop h vs sel st := rfl
@[simp] theorem exec_hUpdn (e : Nat) (stop : Bool) (h : BitVec 2) (vs : BitVec 5) (sel : BitVec 2) (n1 : BitVec 6) : exec (.hUpdn e stop h vs sel n1) st = execHUpdn e stop h vs sel n1 st := rfl
@[simp] theorem exec_hFin (e : Nat) (stop : Bool) (h : BitVec 2) (vd : BitVec 5) (crc : Bool) (off : BitVec 3) : exec (.hFin e stop h vd crc off) st = execHFin e stop h vd crc off st := rfl
@[simp] theorem exec_hHsSave (e : Nat) (stop : Bool) (h : BitVec 2) (vd : BitVec 5) : exec (.hHsSave e stop h vd) st = execHHsSave e stop h vd st := rfl
@[simp] theorem exec_hHsRest (e : Nat) (stop : Bool) (h : BitVec 2) (vs : BitVec 5) : exec (.hHsRest e stop h vs) st = execHHsRest e stop h vs st := rfl
@[simp] theorem exec_hCrInit (e : Nat) (stop : Bool) (k : BitVec 2) (vs : BitVec 5) : exec (.hCrInit e stop k vs) st = execHCrInit e stop k vs st := rfl
@[simp] theorem exec_hEnc (e : Nat) (stop : Bool) (k : BitVec 2) (vd : BitVec 5) (vs : BitVec 5) : exec (.hEnc e stop k vd vs) st = execHEnc e stop k vd vs st := rfl
@[simp] theorem exec_hDec (e : Nat) (stop : Bool) (k : BitVec 2) (vd : BitVec 5) (vs : BitVec 5) : exec (.hDec e stop k vd vs) st = execHDec e stop k vd vs st := rfl
@[simp] theorem exec_hCrTag (e : Nat) (stop : Bool) (k : BitVec 2) (vd : BitVec 5) (off : BitVec 3) : exec (.hCrTag e stop k vd off) st = execHCrTag e stop k vd off st := rfl
@[simp] theorem exec_hCrSave (e : Nat) (stop : Bool) (k : BitVec 2) (vd : BitVec 5) : exec (.hCrSave e stop k vd) st = execHCrSave e stop k vd st := rfl
@[simp] theorem exec_hCrRest (e : Nat) (stop : Bool) (k : BitVec 2) (vs : BitVec 5) : exec (.hCrRest e stop k vs) st = execHCrRest e stop k vs st := rfl
@[simp] theorem exec_hAlXor (e : Nat) (stop : Bool) (vd : BitVec 5) (va : BitVec 5) (vb : BitVec 5) : exec (.hAlXor e stop vd va vb) st = execHAlXor e stop vd va vb st := rfl
@[simp] theorem exec_hAlAnd (e : Nat) (stop : Bool) (vd : BitVec 5) (va : BitVec 5) (vb : BitVec 5) : exec (.hAlAnd e stop vd va vb) st = execHAlAnd e stop vd va vb st := rfl
@[simp] theorem exec_hAlOr (e : Nat) (stop : Bool) (vd : BitVec 5) (va : BitVec 5) (vb : BitVec 5) : exec (.hAlOr e stop vd va vb) st = execHAlOr e stop vd va vb st := rfl
@[simp] theorem exec_hAlMov (e : Nat) (stop : Bool) (vd : BitVec 5) (va : BitVec 5) : exec (.hAlMov e stop vd va) st = execHAlMov e stop vd va st := rfl
@[simp] theorem exec_hZero (e : Nat) (stop : Bool) (vd : BitVec 5) : exec (.hZero e stop vd) st = execHZero e stop vd st := rfl
@[simp] theorem exec_hInslc (e : Nat) (stop : Bool) (vd : BitVec 5) (off : BitVec 5) (l : Bool) : exec (.hInslc e stop vd off l) st = execHInslc e stop vd off l st := rfl
@[simp] theorem exec_hNeq (e : Nat) (stop : Bool) (bit : BitVec 6) (va : BitVec 5) (vb : BitVec 5) : exec (.hNeq e stop bit va vb) st = execHNeq e stop bit va vb st := rfl
@[simp] theorem exec_hPtest (e : Nat) (stop : Bool) (bit : BitVec 6) (va : BitVec 5) : exec (.hPtest e stop bit va) st = execHPtest e stop bit va st := rfl
@[simp] theorem exec_hCtNop (e : Nat) (stop : Bool) : exec (.hCtNop e stop) st = execHCtNop e stop st := rfl
@[simp] theorem exec_hLoop (e : Nat) (stop : Bool) (level : Bool) (csel : BitVec 3) (endAddr : BitVec 12) : exec (.hLoop e stop level csel endAddr) st = execHLoop e stop level csel endAddr st := rfl
@[simp] theorem exec_hCtIdle (e : Nat) (stop : Bool) (n1 : BitVec 12) : exec (.hCtIdle e stop n1) st = execHCtIdle e stop n1 st := rfl
@[simp] theorem exec_hAgrst (e : Nat) (stop : Bool) (ag : BitVec 3) : exec (.hAgrst e stop ag) st = execHAgrst e stop ag st := rfl
@[simp] theorem exec_hCtEnd (e : Nat) (stop : Bool) : exec (.hCtEnd e stop) st = execHCtEnd e stop st := rfl
@[simp] theorem exec_recipeEnd (e : Nat) : exec (.recipeEnd e) st = execRecipeEnd e st := rfl
@[simp] theorem exec_runLimit (e : Nat) : exec (.runLimit e) st = execRunLimit e st := rfl
@[simp] theorem exec_stackSrEntryTimer (q : Nat) : exec (.stackSrEntryTimer q) st = execStackSrEntryTimer q st := rfl
@[simp] theorem exec_srExitComplete (q : Nat) : exec (.srExitComplete q) st = execSrExitComplete q st := rfl
@[simp] theorem exec_dmaGoWrite (ch : Nat) (v : Word) : exec (.dmaGoWrite ch v) st = execDmaGoWrite ch v st := rfl
@[simp] theorem exec_dmaCtlWrite (ch : Nat) (v : Word) : exec (.dmaCtlWrite ch v) st = execDmaCtlWrite ch v st := rfl
@[simp] theorem exec_dmaTimerCtlWrite (n : Nat) (v : Word) : exec (.dmaTimerCtlWrite n v) st = execDmaTimerCtlWrite n v st := rfl
@[simp] theorem exec_dmaTimerFire (n : Nat) : exec (.dmaTimerFire n) st = execDmaTimerFire n st := rfl
@[simp] theorem exec_dmaRunStart (ch : Nat) : exec (.dmaRunStart ch) st = execDmaRunStart ch st := rfl
@[simp] theorem exec_dmaRunEnd (ch : Nat) : exec (.dmaRunEnd ch) st = execDmaRunEnd ch st := rfl
@[simp] theorem exec_blockMoveDone (k : Nat) (c : Nat) (parity : Bool) : exec (.blockMoveDone k c parity) st = execBlockMoveDone k c parity st := rfl
@[simp] theorem exec_stakeAcquireRead (k : Nat) : exec (.stakeAcquireRead k) st = execStakeAcquireRead k st := rfl
@[simp] theorem exec_stakePeekRead (k : Nat) : exec (.stakePeekRead k) st = execStakePeekRead k st := rfl
@[simp] theorem exec_stakeReleaseWrite (k : Nat) : exec (.stakeReleaseWrite k) st = execStakeReleaseWrite k st := rfl
@[simp] theorem exec_stakeBankCycle (bank : Nat) : exec (.stakeBankCycle bank) st = execStakeBankCycle bank st := rfl
@[simp] theorem exec_fbRead (p : Nat) (parityBad : Bool) : exec (.fbRead p parityBad) st = execFbRead p parityBad st := rfl
@[simp] theorem exec_fbRd0Read (parityBad : Bool) : exec (.fbRd0Read parityBad) st = execFbRd0Read parityBad st := rfl
@[simp] theorem exec_fbClear (by_ : Sender) (v : BitVec 32) : exec (.fbClear by_ v) st = execFbClear by_ v st := rfl
@[simp] theorem exec_counterLowHalfRead (p : Nat) (ecc : Option Nat) : exec (.counterLowHalfRead p ecc) st = execCounterLowHalfRead p ecc st := rfl
@[simp] theorem exec_sysCycleLoRead (k : Nat) (mispred : Bool) : exec (.sysCycleLoRead k mispred) st = execSysCycleLoRead k mispred st := rfl
@[simp] theorem exec_sysIdataAccess (k : Nat) (write : Option Word) : exec (.sysIdataAccess k write) st = execSysIdataAccess k write st := rfl
@[simp] theorem exec_sysWakeWrite (k : Nat) (v : Word) : exec (.sysWakeWrite k v) st = execSysWakeWrite k v st := rfl
@[simp] theorem exec_interrupt (k : Nat) : exec (.interrupt k) st = execInterrupt k st := rfl
@[simp] theorem exec_watchdog (k : Nat) : exec (.watchdog k) st = execWatchdog k st := rfl
@[simp] theorem exec_iowaitResume (k : Nat) (c : Nat) : exec (.iowaitResume k c) st = execIowaitResume k c st := rfl
@[simp] theorem exec_sSaMov (k : Nat) (d : BitVec 6) (sh : BitVec 6) : exec (.sSaMov k d sh) st = execSSaMov k d sh st := rfl
@[simp] theorem exec_sSaAdd (k : Nat) (d : BitVec 6) (sh : BitVec 6) : exec (.sSaAdd k d sh) st = execSSaAdd k d sh st := rfl
@[simp] theorem exec_sSaSub (k : Nat) (d : BitVec 6) (sh : BitVec 6) : exec (.sSaSub k d sh) st = execSSaSub k d sh st := rfl
@[simp] theorem exec_sSaAnd (k : Nat) (d : BitVec 6) (sh : BitVec 6) : exec (.sSaAnd k d sh) st = execSSaAnd k d sh st := rfl
@[simp] theorem exec_sSaOr (k : Nat) (d : BitVec 6) (sh : BitVec 6) : exec (.sSaOr k d sh) st = execSSaOr k d sh st := rfl
@[simp] theorem exec_sSaXor (k : Nat) (d : BitVec 6) (sh : BitVec 6) : exec (.sSaXor k d sh) st = execSSaXor k d sh st := rfl
@[simp] theorem exec_sSaCmp (k : Nat) (d : BitVec 6) (sh : BitVec 6) : exec (.sSaCmp k d sh) st = execSSaCmp k d sh st := rfl
@[simp] theorem exec_sSb (k : Nat) (cond : BitVec 4) (annul : Bool) (disp : BitVec 7) : exec (.sSb k cond annul disp) st = execSSb k cond annul disp st := rfl
@[simp] theorem exec_sAdd (k : Nat) (d : BitVec 8) (a : BitVec 8) (b : BitVec 8) : exec (.sAdd k d a b) st = execSAdd k d a b st := rfl
@[simp] theorem exec_sAdc (k : Nat) (d : BitVec 8) (a : BitVec 8) (b : BitVec 8) : exec (.sAdc k d a b) st = execSAdc k d a b st := rfl
@[simp] theorem exec_sSub (k : Nat) (d : BitVec 8) (a : BitVec 8) (b : BitVec 8) : exec (.sSub k d a b) st = execSSub k d a b st := rfl
@[simp] theorem exec_sSbc (k : Nat) (d : BitVec 8) (a : BitVec 8) (b : BitVec 8) : exec (.sSbc k d a b) st = execSSbc k d a b st := rfl
@[simp] theorem exec_sAnd (k : Nat) (d : BitVec 8) (a : BitVec 8) (b : BitVec 8) : exec (.sAnd k d a b) st = execSAnd k d a b st := rfl
@[simp] theorem exec_sOr (k : Nat) (d : BitVec 8) (a : BitVec 8) (b : BitVec 8) : exec (.sOr k d a b) st = execSOr k d a b st := rfl
@[simp] theorem exec_sXor (k : Nat) (d : BitVec 8) (a : BitVec 8) (b : BitVec 8) : exec (.sXor k d a b) st = execSXor k d a b st := rfl
@[simp] theorem exec_sBic (k : Nat) (d : BitVec 8) (a : BitVec 8) (b : BitVec 8) : exec (.sBic k d a b) st = execSBic k d a b st := rfl
@[simp] theorem exec_sShl (k : Nat) (d : BitVec 8) (a : BitVec 8) (b : BitVec 8) : exec (.sShl k d a b) st = execSShl k d a b st := rfl
@[simp] theorem exec_sShr (k : Nat) (d : BitVec 8) (a : BitVec 8) (b : BitVec 8) : exec (.sShr k d a b) st = execSShr k d a b st := rfl
@[simp] theorem exec_sSar (k : Nat) (d : BitVec 8) (a : BitVec 8) (b : BitVec 8) : exec (.sSar k d a b) st = execSSar k d a b st := rfl
@[simp] theorem exec_sMov (k : Nat) (d : BitVec 8) (a : BitVec 8) : exec (.sMov k d a) st = execSMov k d a st := rfl
@[simp] theorem exec_sMul (k : Nat) (d : BitVec 8) (a : BitVec 8) (b : BitVec 8) : exec (.sMul k d a b) st = execSMul k d a b st := rfl
@[simp] theorem exec_sMulh (k : Nat) (d : BitVec 8) (a : BitVec 8) (b : BitVec 8) : exec (.sMulh k d a b) st = execSMulh k d a b st := rfl
@[simp] theorem exec_sCmp (k : Nat) (a : BitVec 8) (b : BitVec 8) : exec (.sCmp k a b) st = execSCmp k a b st := rfl
@[simp] theorem exec_sTst (k : Nat) (a : BitVec 8) (b : BitVec 8) : exec (.sTst k a b) st = execSTst k a b st := rfl
@[simp] theorem exec_sDadd (k : Nat) (d : BitVec 8) (a : BitVec 8) (b : BitVec 8) : exec (.sDadd k d a b) st = execSDadd k d a b st := rfl
@[simp] theorem exec_sDadc (k : Nat) (d : BitVec 8) (a : BitVec 8) (b : BitVec 8) : exec (.sDadc k d a b) st = execSDadc k d a b st := rfl
@[simp] theorem exec_sDsub (k : Nat) (d : BitVec 8) (a : BitVec 8) (b : BitVec 8) : exec (.sDsub k d a b) st = execSDsub k d a b st := rfl
@[simp] theorem exec_sDsbc (k : Nat) (d : BitVec 8) (a : BitVec 8) (b : BitVec 8) : exec (.sDsbc k d a b) st = execSDsbc k d a b st := rfl
@[simp] theorem exec_sDadj (k : Nat) (d : BitVec 8) (a : BitVec 8) : exec (.sDadj k d a) st = execSDadj k d a st := rfl
@[simp] theorem exec_sDcmp (k : Nat) (a : BitVec 8) (b : BitVec 8) : exec (.sDcmp k a b) st = execSDcmp k a b st := rfl
@[simp] theorem exec_sDshl (k : Nat) (d : BitVec 8) (a : BitVec 8) (b : BitVec 8) : exec (.sDshl k d a b) st = execSDshl k d a b st := rfl
@[simp] theorem exec_sDmd (k : Nat) (d : BitVec 8) (a : BitVec 8) (n : BitVec 6) : exec (.sDmd k d a n) st = execSDmd k d a n st := rfl
@[simp] theorem exec_sCvbd (k : Nat) (d : BitVec 8) (a : BitVec 8) (n : BitVec 6) : exec (.sCvbd k d a n) st = execSCvbd k d a n st := rfl
@[simp] theorem exec_sCvdb (k : Nat) (d : BitVec 8) (a : BitVec 8) : exec (.sCvdb k d a) st = execSCvdb k d a st := rfl
@[simp] theorem exec_sMovi (k : Nat) (d : BitVec 8) (imm : Word) : exec (.sMovi k d imm) st = execSMovi k d imm st := rfl
@[simp] theorem exec_sAddi (k : Nat) (d : BitVec 8) (imm : Word) : exec (.sAddi k d imm) st = execSAddi k d imm st := rfl
@[simp] theorem exec_sSubi (k : Nat) (d : BitVec 8) (imm : Word) : exec (.sSubi k d imm) st = execSSubi k d imm st := rfl
@[simp] theorem exec_sAndi (k : Nat) (d : BitVec 8) (imm : Word) : exec (.sAndi k d imm) st = execSAndi k d imm st := rfl
@[simp] theorem exec_sOri (k : Nat) (d : BitVec 8) (imm : Word) : exec (.sOri k d imm) st = execSOri k d imm st := rfl
@[simp] theorem exec_sXori (k : Nat) (d : BitVec 8) (imm : Word) : exec (.sXori k d imm) st = execSXori k d imm st := rfl
@[simp] theorem exec_sCmpi (k : Nat) (d : BitVec 8) (imm : Word) : exec (.sCmpi k d imm) st = execSCmpi k d imm st := rfl
@[simp] theorem exec_sTsti (k : Nat) (d : BitVec 8) (imm : Word) : exec (.sTsti k d imm) st = execSTsti k d imm st := rfl
@[simp] theorem exec_sB (k : Nat) (cond : BitVec 4) (annul : Bool) (t : BranchTarget) : exec (.sB k cond annul t) st = execSB k cond annul t st := rfl
@[simp] theorem exec_sCall (k : Nat) (cond : BitVec 4) (annul : Bool) (t : BranchTarget) : exec (.sCall k cond annul t) st = execSCall k cond annul t st := rfl
@[simp] theorem exec_sRet (k : Nat) : exec (.sRet k) st = execSRet k st := rfl
@[simp] theorem exec_sBr (k : Nat) (cond : BitVec 4) (annul : Bool) (disp : Word) : exec (.sBr k cond annul disp) st = execSBr k cond annul disp st := rfl
@[simp] theorem exec_sCallr (k : Nat) (cond : BitVec 4) (annul : Bool) (disp : Word) : exec (.sCallr k cond annul disp) st = execSCallr k cond annul disp st := rfl
@[simp] theorem exec_sRpt (k : Nat) (d : BitVec 8) (imm : Word) : exec (.sRpt k d imm) st = execSRpt k d imm st := rfl
@[simp] theorem exec_sIn (k : Nat) (d : BitVec 8) (port : BitVec 12) : exec (.sIn k d port) st = execSIn k d port st := rfl
@[simp] theorem exec_sOut (k : Nat) (sh : BitVec 8) (port : BitVec 12) : exec (.sOut k sh port) st = execSOut k sh port st := rfl
@[simp] theorem exec_sInx (k : Nat) (d : BitVec 8) (n : BitVec 6) : exec (.sInx k d n) st = execSInx k d n st := rfl
@[simp] theorem exec_sOutx (k : Nat) (sh : BitVec 8) (n : BitVec 6) : exec (.sOutx k sh n) st = execSOutx k sh n st := rfl
@[simp] theorem exec_sIowait (k : Nat) (sh : BitVec 8) (port : BitVec 12) : exec (.sIowait k sh port) st = execSIowait k sh port st := rfl
@[simp] theorem exec_sBmov (k : Nat) (n : BitVec 6) : exec (.sBmov k n) st = execSBmov k n st := rfl
@[simp] theorem exec_sGate (k : Nat) (n : BitVec 6) : exec (.sGate k n) st = execSGate k n st := rfl
@[simp] theorem exec_sGret (k : Nat) : exec (.sGret k) st = execSGret k st := rfl
@[simp] theorem exec_sTrap (k : Nat) (code : BitVec 8) : exec (.sTrap k code) st = execSTrap k code st := rfl
@[simp] theorem exec_sRfe (k : Nat) : exec (.sRfe k) st = execSRfe k st := rfl
@[simp] theorem exec_sMfsw (k : Nat) (d : BitVec 8) : exec (.sMfsw k d) st = execSMfsw k d st := rfl
@[simp] theorem exec_sMtsw (k : Nat) (d : BitVec 8) : exec (.sMtsw k d) st = execSMtsw k d st := rfl
@[simp] theorem exec_sMflr (k : Nat) (d : BitVec 8) : exec (.sMflr k d) st = execSMflr k d st := rfl
@[simp] theorem exec_sMtlr (k : Nat) (d : BitVec 8) : exec (.sMtlr k d) st = execSMtlr k d st := rfl
@[simp] theorem exec_sSwap (k : Nat) : exec (.sSwap k) st = execSSwap k st := rfl
@[simp] theorem exec_sIdle (k : Nat) : exec (.sIdle k) st = execSIdle k st := rfl
@[simp] theorem exec_sSync (k : Nat) : exec (.sSync k) st = execSSync k st := rfl
@[simp] theorem exec_sMfwp (k : Nat) (d : BitVec 8) : exec (.sMfwp k d) st = execSMfwp k d st := rfl
@[simp] theorem exec_sMtwp (k : Nat) (d : BitVec 8) : exec (.sMtwp k d) st = execSMtwp k d st := rfl
@[simp] theorem exec_reservedEncoding (k : Nat) (w1 : Word) (w2 : Word) : exec (.reservedEncoding k w1 w2) st = execReservedEncoding k w1 w2 st := rfl
@[simp] theorem exec_tapSample (cycles : Nat) : exec (.tapSample cycles) st = execTapSample cycles st := rfl
@[simp] theorem exec_mainDomainValidRise (cycles : Nat) : exec (.mainDomainValidRise cycles) st = execMainDomainValidRise cycles st := rfl
@[simp] theorem exec_shelfTimeSample (pg : BitVec 48) : exec (.shelfTimeSample pg) st = execShelfTimeSample pg st := rfl
@[simp] theorem exec_s0Sample (c : Nat) (high : Bool) : exec (.s0Sample c high) st = execS0Sample c high st := rfl
@[simp] theorem exec_testPulseEmit : exec .testPulseEmit st = execTestPulseEmit st := rfl
@[simp] theorem exec_readRequest : exec .readRequest st = execReadRequest st := rfl
@[simp] theorem exec_periodicReading : exec .periodicReading st = execPeriodicReading st := rfl
@[simp] theorem exec_monOutSegment : exec .monOutSegment st = execMonOutSegment st := rfl
@[simp] theorem exec_monDown : exec .monDown st = execMonDown st := rfl
@[simp] theorem exec_checkpointTimer : exec .checkpointTimer st = execCheckpointTimer st := rfl
@[simp] theorem exec_powerFailSignal : exec .powerFailSignal st = execPowerFailSignal st := rfl
@[simp] theorem exec_monumentPowerOn : exec .monumentPowerOn st = execMonumentPowerOn st := rfl
@[simp] theorem exec_monRstN : exec .monRstN st = execMonRstN st := rfl
@[simp] theorem exec_monumentCoreRestart (double : Bool) : exec (.monumentCoreRestart double) st = execMonumentCoreRestart double st := rfl
@[simp] theorem exec_monTamperN : exec .monTamperN st = execMonTamperN st := rfl
@[simp] theorem exec_monumentCrystalStop : exec .monumentCrystalStop st = execMonumentCrystalStop st := rfl
@[simp] theorem exec_monId : exec .monId st = execMonId st := rfl
@[simp] theorem exec_monRead : exec .monRead st = execMonRead st := rfl
@[simp] theorem exec_monLast : exec .monLast st = execMonLast st := rfl
@[simp] theorem exec_monParam : exec .monParam st = execMonParam st := rfl
@[simp] theorem exec_monSet (n : Nat) (v : ParamValue) (pins : SetPins) : exec (.monSet n v pins) st = execMonSet n v pins st := rfl
@[simp] theorem exec_monLog (idx : Nat) : exec (.monLog idx) st = execMonLog idx st := rfl
@[simp] theorem exec_monKey : exec .monKey st = execMonKey st := rfl
@[simp] theorem exec_monSeal (dsn : BitVec 64) (paramEn : Bool) (flashOk : Bool) : exec (.monSeal dsn paramEn flashOk) st = execMonSeal dsn paramEn flashOk st := rfl
@[simp] theorem exec_monTest (m : Option Nat) : exec (.monTest m) st = execMonTest m st := rfl
@[simp] theorem exec_monTamperClear (paramEn : Bool) : exec (.monTamperClear paramEn) st = execMonTamperClear paramEn st := rfl
@[simp] theorem exec_monSyntaxError : exec .monSyntaxError st = execMonSyntaxError st := rfl
@[simp] theorem exec_cxRstNAssert : exec .cxRstNAssert st = execCxRstNAssert st := rfl
@[simp] theorem exec_cxRstNDeassert (adminSel : BitVec 4) (smbAddr : BitVec 2) (bootRcvy : Bool) : exec (.cxRstNDeassert adminSel smbAddr bootRcvy) st = execCxRstNDeassert adminSel smbAddr bootRcvy st := rfl
@[simp] theorem exec_bootStage (r : BootReport) : exec (.bootStage r) st = execBootStage r st := rfl
@[simp] theorem exec_containmentDiscard (sc : Option Nat) : exec (.containmentDiscard sc) st = execContainmentDiscard sc st := rfl
@[simp] theorem exec_containmentReset (sc : Option Nat) (rebuilt : Bool) : exec (.containmentReset sc rebuilt) st = execContainmentReset sc rebuilt st := rfl
@[simp] theorem exec_containmentEnd (sc : Option Nat) : exec (.containmentEnd sc) st = execContainmentEnd sc st := rfl
@[simp] theorem exec_engineSilent (e : Nat) : exec (.engineSilent e) st = execEngineSilent e st := rfl
@[simp] theorem exec_controlSramError : exec .controlSramError st = execControlSramError st := rfl
@[simp] theorem exec_lockstepMismatch : exec .lockstepMismatch st = execLockstepMismatch st := rfl
@[simp] theorem exec_mainRailsValid : exec .mainRailsValid st = execMainRailsValid st := rfl
@[simp] theorem exec_mainRailFault : exec .mainRailFault st = execMainRailFault st := rfl
@[simp] theorem exec_devRefclkLoss : exec .devRefclkLoss st = execDevRefclkLoss st := rfl
@[simp] theorem exec_sasRefclkLoss : exec .sasRefclkLoss st = execSasRefclkLoss st := rfl
@[simp] theorem exec_pcieRefclkLoss (p : Nat) : exec (.pcieRefclkLoss p) st = execPcieRefclkLoss p st := rfl
@[simp] theorem exec_sensorUpdate (temps : List Int) : exec (.sensorUpdate temps) st = execSensorUpdate temps st := rfl
@[simp] theorem exec_islandGating (idx : GateIsland) : exec (.islandGating idx) st = execIslandGating idx st := rfl
@[simp] theorem exec_spinStartTimeout (p : Nat) (tag : Nat) (slot : Nat) : exec (.spinStartTimeout p tag slot) st = execSpinStartTimeout p tag slot st := rfl
@[simp] theorem exec_devRefclkReturn : exec .devRefclkReturn st = execDevRefclkReturn st := rfl
@[simp] theorem exec_sasRefclkReturn : exec .sasRefclkReturn st = execSasRefclkReturn st := rfl
@[simp] theorem exec_monumentCrystalRestart : exec .monumentCrystalRestart st = execMonumentCrystalRestart st := rfl

end Sys2Proof.Machine
end

