-- ==== Sys2Proof/Laws/Tab.lean ====
section
/-! SUPPORT. Reading a table after a write to it. -/

namespace Sys2Proof

/-- The entry just written is found. -/
@[simp] theorem Tab.find_set_self {α : Type} (t : Tab α) (k : Nat) (a : α) : (t.set k a).find k = some a := by
  induction t with
  | nil => simp [Tab.set, Tab.find]
  | cons h t ih =>
    obtain ⟨j, b⟩ := h
    simp only [Tab.set]
    split
    · simp [Tab.find]
    · split
      · simp [Tab.find]
      · rename_i h1 h2
        simp [Tab.find, Ne.symm h2, ih]

/-- A write leaves every other entry as it was. -/
theorem Tab.find_set_other {α : Type} (t : Tab α) {k j : Nat} (a : α) (h : j ≠ k) : (t.set k a).find j = t.find j := by
  induction t with
  | nil => simp [Tab.set, Tab.find, Ne.symm h]
  | cons e t ih =>
    obtain ⟨i, b⟩ := e
    simp only [Tab.set]
    split
    · simp [Tab.find, Ne.symm h]
    · split
      · rename_i h1 h2
        subst h2
        simp [Tab.find, Ne.symm h]
      · simp only [Tab.find, ih]

/-- What a write makes of every entry. -/
theorem Tab.find_set {α : Type} (t : Tab α) (k j : Nat) (a : α) :
    (t.set k a).find j = if j = k then some a else t.find j := by
  by_cases h : j = k
  · subst h; simp
  · simp [h, Tab.find_set_other t a h]

@[simp] theorem Tab.get_set_self {α : Type} (t : Tab α) (k : Nat) (a d : α) : (t.set k a).get k d = a := by
  simp [Tab.get]

theorem Tab.get_set {α : Type} (t : Tab α) (k j : Nat) (a d : α) :
    (t.set k a).get j d = if j = k then a else t.get j d := by
  by_cases h : j = k
  · subst h; simp
  · simp [Tab.get, Tab.find_set_other t a h, h]

/-- Of two writes to one key the later stands. -/
@[simp] theorem Tab.set_set {α : Type} (t : Tab α) (k : Nat) (a b : α) : (t.set k a).set k b = t.set k b := by
  induction t with
  | nil => simp [Tab.set]
  | cons e t ih =>
    obtain ⟨j, c⟩ := e
    simp only [Tab.set]
    split
    · simp [Tab.set]
    · split
      · simp [Tab.set]
      · rename_i h1 h2
        simp [Tab.set, h1, h2, ih]

/-- An erased entry is gone. -/
@[simp] theorem Tab.find_erase_self {α : Type} (t : Tab α) (k : Nat) : (t.erase k).find k = none := by
  induction t with
  | nil => rfl
  | cons e t ih =>
    obtain ⟨j, b⟩ := e
    simp only [Tab.erase]
    split
    · exact ih
    · rename_i h
      simp [Tab.find, h, ih]

/-- Erasing leaves every other entry as it was. -/
theorem Tab.find_erase_other {α : Type} (t : Tab α) {k j : Nat} (h : j ≠ k) : (t.erase k).find j = t.find j := by
  induction t with
  | nil => rfl
  | cons e t ih =>
    obtain ⟨i, b⟩ := e
    simp only [Tab.erase]
    split
    · rename_i h1
      subst h1
      simp [Tab.find, Ne.symm h, ih]
    · simp only [Tab.find, ih]

end Sys2Proof
end

