-- ==== Sys2Proof/Laws/State.lean ====
section
/-! SUPPORT. What each named update of the state changes, and that it changes nothing else: one lemma per field. -/

namespace Sys2Proof.Machine

variable (s : State) (i j : Nat)

/-! ### `setPort` -/

@[simp] theorem State.setPort_port_self (x : Port) : (s.setPort i x).port i = x := Tab.get_set_self s.ports i x _
theorem State.setPort_port (x : Port) : (s.setPort i x).port j = if j = i then x else s.port j := Tab.get_set s.ports i j x _
@[simp] theorem State.setPort_port_other (x : Port) (h : j ≠ i) : (s.setPort i x).port j = s.port j := by simp [State.setPort_port, h]
@[simp] theorem State.setPort_mode (x : Port) : (s.setPort i x).mode = s.mode := rfl
@[simp] theorem State.setPort_devClk (x : Port) : (s.setPort i x).devClk = s.devClk := rfl
@[simp] theorem State.setPort_sasClk (x : Port) : (s.setPort i x).sasClk = s.sasClk := rfl
@[simp] theorem State.setPort_railsValid (x : Port) : (s.setPort i x).railsValid = s.railsValid := rfl
@[simp] theorem State.setPort_devMs (x : Port) : (s.setPort i x).devMs = s.devMs := rfl
@[simp] theorem State.setPort_devEpoch (x : Port) : (s.setPort i x).devEpoch = s.devEpoch := rfl
@[simp] theorem State.setPort_bif0 (x : Port) : (s.setPort i x).bif0 = s.bif0 := rfl
@[simp] theorem State.setPort_bif1 (x : Port) : (s.setPort i x).bif1 = s.bif1 := rfl
@[simp] theorem State.setPort_adminSel (x : Port) : (s.setPort i x).adminSel = s.adminSel := rfl
@[simp] theorem State.setPort_apportioned (x : Port) : (s.setPort i x).apportioned = s.apportioned := rfl
@[simp] theorem State.setPort_restarts (x : Port) : (s.setPort i x).restarts = s.restarts := rfl
@[simp] theorem State.setPort_waitClock (x : Port) : (s.setPort i x).waitClock = s.waitClock := rfl
@[simp] theorem State.setPort_deviceContain (x : Port) : (s.setPort i x).deviceContain = s.deviceContain := rfl
@[simp] theorem State.setPort_thermTrip (x : Port) : (s.setPort i x).thermTrip = s.thermTrip := rfl
@[simp] theorem State.setPort_sensors (x : Port) : (s.setPort i x).sensors = s.sensors := rfl
@[simp] theorem State.setPort_flash (x : Port) : (s.setPort i x).flash = s.flash := rfl
@[simp] theorem State.setPort_trvs (x : Port) : (s.setPort i x).trvs = s.trvs := rfl
@[simp] theorem State.setPort_seqNo (x : Port) : (s.setPort i x).seqNo = s.seqNo := rfl
@[simp] theorem State.setPort_admitting (x : Port) : (s.setPort i x).admitting = s.admitting := rfl
@[simp] theorem State.setPort_reservations (x : Port) : (s.setPort i x).reservations = s.reservations := rfl
@[simp] theorem State.setPort_extents (x : Port) : (s.setPort i x).extents = s.extents := rfl
@[simp] theorem State.setPort_accums (x : Port) : (s.setPort i x).accums = s.accums := rfl
@[simp] theorem State.setPort_mem (x : Port) : (s.setPort i x).mem = s.mem := rfl
@[simp] theorem State.setPort_parked (x : Port) : (s.setPort i x).parked = s.parked := rfl
@[simp] theorem State.setPort_poison (x : Port) : (s.setPort i x).poison = s.poison := rfl
@[simp] theorem State.setPort_flaws (x : Port) : (s.setPort i x).flaws = s.flaws := rfl
@[simp] theorem State.setPort_shelves (x : Port) : (s.setPort i x).shelves = s.shelves := rfl
@[simp] theorem State.setPort_handles (x : Port) : (s.setPort i x).handles = s.handles := rfl
@[simp] theorem State.setPort_chains (x : Port) : (s.setPort i x).chains = s.chains := rfl
@[simp] theorem State.setPort_quarters (x : Port) : (s.setPort i x).quarters = s.quarters := rfl
@[simp] theorem State.setPort_engines (x : Port) : (s.setPort i x).engines = s.engines := rfl
@[simp] theorem State.setPort_dma (x : Port) : (s.setPort i x).dma = s.dma := rfl
@[simp] theorem State.setPort_timers (x : Port) : (s.setPort i x).timers = s.timers := rfl
@[simp] theorem State.setPort_copyQueue (x : Port) : (s.setPort i x).copyQueue = s.copyQueue := rfl
@[simp] theorem State.setPort_cores (x : Port) : (s.setPort i x).cores = s.cores := rfl
@[simp] theorem State.setPort_mailboxes (x : Port) : (s.setPort i x).mailboxes = s.mailboxes := rfl
@[simp] theorem State.setPort_service (x : Port) : (s.setPort i x).service = s.service := rfl
@[simp] theorem State.setPort_stakes (x : Port) : (s.setPort i x).stakes = s.stakes := rfl
@[simp] theorem State.setPort_stakeAsks (x : Port) : (s.setPort i x).stakeAsks = s.stakeAsks := rfl
@[simp] theorem State.setPort_deviceBook (x : Port) : (s.setPort i x).deviceBook = s.deviceBook := rfl
@[simp] theorem State.setPort_sasBooks (x : Port) : (s.setPort i x).sasBooks = s.sasBooks := rfl
@[simp] theorem State.setPort_collector (x : Port) : (s.setPort i x).collector = s.collector := rfl
@[simp] theorem State.setPort_released (x : Port) : (s.setPort i x).released = s.released := rfl
@[simp] theorem State.setPort_frame (x : Port) : (s.setPort i x).frame = s.frame := rfl
@[simp] theorem State.setPort_manage (x : Port) : (s.setPort i x).manage = s.manage := rfl
@[simp] theorem State.setPort_mon (x : Port) : (s.setPort i x).mon = s.mon := rfl
@[simp] theorem State.setPort_view (x : Port) : (s.setPort i x).view = s.view := rfl
@[simp] theorem State.setPort_taps (x : Port) : (s.setPort i x).taps = s.taps := rfl
@[simp] theorem State.setPort_fresh (x : Port) : (s.setPort i x).fresh = s.fresh := rfl
@[simp] theorem State.setPort_out (x : Port) : (s.setPort i x).out = s.out := rfl
@[simp] theorem State.setPort_pending (x : Port) : (s.setPort i x).pending = s.pending := rfl
@[simp] theorem State.setPort_shelf (x : Port) : (s.setPort i x).shelf j = s.shelf j := rfl
@[simp] theorem State.setPort_handle (x : Port) : (s.setPort i x).handle j = s.handle j := rfl
@[simp] theorem State.setPort_chain (x : Port) : (s.setPort i x).chain j = s.chain j := rfl
@[simp] theorem State.setPort_quarter (x : Port) : (s.setPort i x).quarter j = s.quarter j := rfl
@[simp] theorem State.setPort_engine (x : Port) : (s.setPort i x).engine j = s.engine j := rfl
@[simp] theorem State.setPort_channel (x : Port) : (s.setPort i x).channel j = s.channel j := rfl
@[simp] theorem State.setPort_core (x : Port) : (s.setPort i x).core j = s.core j := rfl
@[simp] theorem State.setPort_mailbox (x : Port) : (s.setPort i x).mailbox j = s.mailbox j := rfl
@[simp] theorem State.modPort_eq (f : Port → Port) : s.modPort i f = s.setPort i (f (s.port i)) := rfl

/-! ### `setShelf` -/

@[simp] theorem State.setShelf_shelf_self (x : Shelf) : (s.setShelf i x).shelf i = x := Tab.get_set_self s.shelves i x _
theorem State.setShelf_shelf (x : Shelf) : (s.setShelf i x).shelf j = if j = i then x else s.shelf j := Tab.get_set s.shelves i j x _
@[simp] theorem State.setShelf_shelf_other (x : Shelf) (h : j ≠ i) : (s.setShelf i x).shelf j = s.shelf j := by simp [State.setShelf_shelf, h]
@[simp] theorem State.setShelf_mode (x : Shelf) : (s.setShelf i x).mode = s.mode := rfl
@[simp] theorem State.setShelf_devClk (x : Shelf) : (s.setShelf i x).devClk = s.devClk := rfl
@[simp] theorem State.setShelf_sasClk (x : Shelf) : (s.setShelf i x).sasClk = s.sasClk := rfl
@[simp] theorem State.setShelf_railsValid (x : Shelf) : (s.setShelf i x).railsValid = s.railsValid := rfl
@[simp] theorem State.setShelf_devMs (x : Shelf) : (s.setShelf i x).devMs = s.devMs := rfl
@[simp] theorem State.setShelf_devEpoch (x : Shelf) : (s.setShelf i x).devEpoch = s.devEpoch := rfl
@[simp] theorem State.setShelf_bif0 (x : Shelf) : (s.setShelf i x).bif0 = s.bif0 := rfl
@[simp] theorem State.setShelf_bif1 (x : Shelf) : (s.setShelf i x).bif1 = s.bif1 := rfl
@[simp] theorem State.setShelf_adminSel (x : Shelf) : (s.setShelf i x).adminSel = s.adminSel := rfl
@[simp] theorem State.setShelf_apportioned (x : Shelf) : (s.setShelf i x).apportioned = s.apportioned := rfl
@[simp] theorem State.setShelf_restarts (x : Shelf) : (s.setShelf i x).restarts = s.restarts := rfl
@[simp] theorem State.setShelf_waitClock (x : Shelf) : (s.setShelf i x).waitClock = s.waitClock := rfl
@[simp] theorem State.setShelf_deviceContain (x : Shelf) : (s.setShelf i x).deviceContain = s.deviceContain := rfl
@[simp] theorem State.setShelf_thermTrip (x : Shelf) : (s.setShelf i x).thermTrip = s.thermTrip := rfl
@[simp] theorem State.setShelf_sensors (x : Shelf) : (s.setShelf i x).sensors = s.sensors := rfl
@[simp] theorem State.setShelf_flash (x : Shelf) : (s.setShelf i x).flash = s.flash := rfl
@[simp] theorem State.setShelf_ports (x : Shelf) : (s.setShelf i x).ports = s.ports := rfl
@[simp] theorem State.setShelf_trvs (x : Shelf) : (s.setShelf i x).trvs = s.trvs := rfl
@[simp] theorem State.setShelf_seqNo (x : Shelf) : (s.setShelf i x).seqNo = s.seqNo := rfl
@[simp] theorem State.setShelf_admitting (x : Shelf) : (s.setShelf i x).admitting = s.admitting := rfl
@[simp] theorem State.setShelf_reservations (x : Shelf) : (s.setShelf i x).reservations = s.reservations := rfl
@[simp] theorem State.setShelf_extents (x : Shelf) : (s.setShelf i x).extents = s.extents := rfl
@[simp] theorem State.setShelf_accums (x : Shelf) : (s.setShelf i x).accums = s.accums := rfl
@[simp] theorem State.setShelf_mem (x : Shelf) : (s.setShelf i x).mem = s.mem := rfl
@[simp] theorem State.setShelf_parked (x : Shelf) : (s.setShelf i x).parked = s.parked := rfl
@[simp] theorem State.setShelf_poison (x : Shelf) : (s.setShelf i x).poison = s.poison := rfl
@[simp] theorem State.setShelf_flaws (x : Shelf) : (s.setShelf i x).flaws = s.flaws := rfl
@[simp] theorem State.setShelf_handles (x : Shelf) : (s.setShelf i x).handles = s.handles := rfl
@[simp] theorem State.setShelf_chains (x : Shelf) : (s.setShelf i x).chains = s.chains := rfl
@[simp] theorem State.setShelf_quarters (x : Shelf) : (s.setShelf i x).quarters = s.quarters := rfl
@[simp] theorem State.setShelf_engines (x : Shelf) : (s.setShelf i x).engines = s.engines := rfl
@[simp] theorem State.setShelf_dma (x : Shelf) : (s.setShelf i x).dma = s.dma := rfl
@[simp] theorem State.setShelf_timers (x : Shelf) : (s.setShelf i x).timers = s.timers := rfl
@[simp] theorem State.setShelf_copyQueue (x : Shelf) : (s.setShelf i x).copyQueue = s.copyQueue := rfl
@[simp] theorem State.setShelf_cores (x : Shelf) : (s.setShelf i x).cores = s.cores := rfl
@[simp] theorem State.setShelf_mailboxes (x : Shelf) : (s.setShelf i x).mailboxes = s.mailboxes := rfl
@[simp] theorem State.setShelf_service (x : Shelf) : (s.setShelf i x).service = s.service := rfl
@[simp] theorem State.setShelf_stakes (x : Shelf) : (s.setShelf i x).stakes = s.stakes := rfl
@[simp] theorem State.setShelf_stakeAsks (x : Shelf) : (s.setShelf i x).stakeAsks = s.stakeAsks := rfl
@[simp] theorem State.setShelf_deviceBook (x : Shelf) : (s.setShelf i x).deviceBook = s.deviceBook := rfl
@[simp] theorem State.setShelf_sasBooks (x : Shelf) : (s.setShelf i x).sasBooks = s.sasBooks := rfl
@[simp] theorem State.setShelf_collector (x : Shelf) : (s.setShelf i x).collector = s.collector := rfl
@[simp] theorem State.setShelf_released (x : Shelf) : (s.setShelf i x).released = s.released := rfl
@[simp] theorem State.setShelf_frame (x : Shelf) : (s.setShelf i x).frame = s.frame := rfl
@[simp] theorem State.setShelf_manage (x : Shelf) : (s.setShelf i x).manage = s.manage := rfl
@[simp] theorem State.setShelf_mon (x : Shelf) : (s.setShelf i x).mon = s.mon := rfl
@[simp] theorem State.setShelf_view (x : Shelf) : (s.setShelf i x).view = s.view := rfl
@[simp] theorem State.setShelf_taps (x : Shelf) : (s.setShelf i x).taps = s.taps := rfl
@[simp] theorem State.setShelf_fresh (x : Shelf) : (s.setShelf i x).fresh = s.fresh := rfl
@[simp] theorem State.setShelf_out (x : Shelf) : (s.setShelf i x).out = s.out := rfl
@[simp] theorem State.setShelf_pending (x : Shelf) : (s.setShelf i x).pending = s.pending := rfl
@[simp] theorem State.setShelf_port (x : Shelf) : (s.setShelf i x).port j = s.port j := rfl
@[simp] theorem State.setShelf_handle (x : Shelf) : (s.setShelf i x).handle j = s.handle j := rfl
@[simp] theorem State.setShelf_chain (x : Shelf) : (s.setShelf i x).chain j = s.chain j := rfl
@[simp] theorem State.setShelf_quarter (x : Shelf) : (s.setShelf i x).quarter j = s.quarter j := rfl
@[simp] theorem State.setShelf_engine (x : Shelf) : (s.setShelf i x).engine j = s.engine j := rfl
@[simp] theorem State.setShelf_channel (x : Shelf) : (s.setShelf i x).channel j = s.channel j := rfl
@[simp] theorem State.setShelf_core (x : Shelf) : (s.setShelf i x).core j = s.core j := rfl
@[simp] theorem State.setShelf_mailbox (x : Shelf) : (s.setShelf i x).mailbox j = s.mailbox j := rfl
@[simp] theorem State.modShelf_eq (f : Shelf → Shelf) : s.modShelf i f = s.setShelf i (f (s.shelf i)) := rfl

/-! ### `setHandle` -/

@[simp] theorem State.setHandle_handle_self (x : Handle) : (s.setHandle i x).handle i = x := Tab.get_set_self s.handles i x _
theorem State.setHandle_handle (x : Handle) : (s.setHandle i x).handle j = if j = i then x else s.handle j := Tab.get_set s.handles i j x _
@[simp] theorem State.setHandle_handle_other (x : Handle) (h : j ≠ i) : (s.setHandle i x).handle j = s.handle j := by simp [State.setHandle_handle, h]
@[simp] theorem State.setHandle_mode (x : Handle) : (s.setHandle i x).mode = s.mode := rfl
@[simp] theorem State.setHandle_devClk (x : Handle) : (s.setHandle i x).devClk = s.devClk := rfl
@[simp] theorem State.setHandle_sasClk (x : Handle) : (s.setHandle i x).sasClk = s.sasClk := rfl
@[simp] theorem State.setHandle_railsValid (x : Handle) : (s.setHandle i x).railsValid = s.railsValid := rfl
@[simp] theorem State.setHandle_devMs (x : Handle) : (s.setHandle i x).devMs = s.devMs := rfl
@[simp] theorem State.setHandle_devEpoch (x : Handle) : (s.setHandle i x).devEpoch = s.devEpoch := rfl
@[simp] theorem State.setHandle_bif0 (x : Handle) : (s.setHandle i x).bif0 = s.bif0 := rfl
@[simp] theorem State.setHandle_bif1 (x : Handle) : (s.setHandle i x).bif1 = s.bif1 := rfl
@[simp] theorem State.setHandle_adminSel (x : Handle) : (s.setHandle i x).adminSel = s.adminSel := rfl
@[simp] theorem State.setHandle_apportioned (x : Handle) : (s.setHandle i x).apportioned = s.apportioned := rfl
@[simp] theorem State.setHandle_restarts (x : Handle) : (s.setHandle i x).restarts = s.restarts := rfl
@[simp] theorem State.setHandle_waitClock (x : Handle) : (s.setHandle i x).waitClock = s.waitClock := rfl
@[simp] theorem State.setHandle_deviceContain (x : Handle) : (s.setHandle i x).deviceContain = s.deviceContain := rfl
@[simp] theorem State.setHandle_thermTrip (x : Handle) : (s.setHandle i x).thermTrip = s.thermTrip := rfl
@[simp] theorem State.setHandle_sensors (x : Handle) : (s.setHandle i x).sensors = s.sensors := rfl
@[simp] theorem State.setHandle_flash (x : Handle) : (s.setHandle i x).flash = s.flash := rfl
@[simp] theorem State.setHandle_ports (x : Handle) : (s.setHandle i x).ports = s.ports := rfl
@[simp] theorem State.setHandle_trvs (x : Handle) : (s.setHandle i x).trvs = s.trvs := rfl
@[simp] theorem State.setHandle_seqNo (x : Handle) : (s.setHandle i x).seqNo = s.seqNo := rfl
@[simp] theorem State.setHandle_admitting (x : Handle) : (s.setHandle i x).admitting = s.admitting := rfl
@[simp] theorem State.setHandle_reservations (x : Handle) : (s.setHandle i x).reservations = s.reservations := rfl
@[simp] theorem State.setHandle_extents (x : Handle) : (s.setHandle i x).extents = s.extents := rfl
@[simp] theorem State.setHandle_accums (x : Handle) : (s.setHandle i x).accums = s.accums := rfl
@[simp] theorem State.setHandle_mem (x : Handle) : (s.setHandle i x).mem = s.mem := rfl
@[simp] theorem State.setHandle_parked (x : Handle) : (s.setHandle i x).parked = s.parked := rfl
@[simp] theorem State.setHandle_poison (x : Handle) : (s.setHandle i x).poison = s.poison := rfl
@[simp] theorem State.setHandle_flaws (x : Handle) : (s.setHandle i x).flaws = s.flaws := rfl
@[simp] theorem State.setHandle_shelves (x : Handle) : (s.setHandle i x).shelves = s.shelves := rfl
@[simp] theorem State.setHandle_chains (x : Handle) : (s.setHandle i x).chains = s.chains := rfl
@[simp] theorem State.setHandle_quarters (x : Handle) : (s.setHandle i x).quarters = s.quarters := rfl
@[simp] theorem State.setHandle_engines (x : Handle) : (s.setHandle i x).engines = s.engines := rfl
@[simp] theorem State.setHandle_dma (x : Handle) : (s.setHandle i x).dma = s.dma := rfl
@[simp] theorem State.setHandle_timers (x : Handle) : (s.setHandle i x).timers = s.timers := rfl
@[simp] theorem State.setHandle_copyQueue (x : Handle) : (s.setHandle i x).copyQueue = s.copyQueue := rfl
@[simp] theorem State.setHandle_cores (x : Handle) : (s.setHandle i x).cores = s.cores := rfl
@[simp] theorem State.setHandle_mailboxes (x : Handle) : (s.setHandle i x).mailboxes = s.mailboxes := rfl
@[simp] theorem State.setHandle_service (x : Handle) : (s.setHandle i x).service = s.service := rfl
@[simp] theorem State.setHandle_stakes (x : Handle) : (s.setHandle i x).stakes = s.stakes := rfl
@[simp] theorem State.setHandle_stakeAsks (x : Handle) : (s.setHandle i x).stakeAsks = s.stakeAsks := rfl
@[simp] theorem State.setHandle_deviceBook (x : Handle) : (s.setHandle i x).deviceBook = s.deviceBook := rfl
@[simp] theorem State.setHandle_sasBooks (x : Handle) : (s.setHandle i x).sasBooks = s.sasBooks := rfl
@[simp] theorem State.setHandle_collector (x : Handle) : (s.setHandle i x).collector = s.collector := rfl
@[simp] theorem State.setHandle_released (x : Handle) : (s.setHandle i x).released = s.released := rfl
@[simp] theorem State.setHandle_frame (x : Handle) : (s.setHandle i x).frame = s.frame := rfl
@[simp] theorem State.setHandle_manage (x : Handle) : (s.setHandle i x).manage = s.manage := rfl
@[simp] theorem State.setHandle_mon (x : Handle) : (s.setHandle i x).mon = s.mon := rfl
@[simp] theorem State.setHandle_view (x : Handle) : (s.setHandle i x).view = s.view := rfl
@[simp] theorem State.setHandle_taps (x : Handle) : (s.setHandle i x).taps = s.taps := rfl
@[simp] theorem State.setHandle_fresh (x : Handle) : (s.setHandle i x).fresh = s.fresh := rfl
@[simp] theorem State.setHandle_out (x : Handle) : (s.setHandle i x).out = s.out := rfl
@[simp] theorem State.setHandle_pending (x : Handle) : (s.setHandle i x).pending = s.pending := rfl
@[simp] theorem State.setHandle_port (x : Handle) : (s.setHandle i x).port j = s.port j := rfl
@[simp] theorem State.setHandle_shelf (x : Handle) : (s.setHandle i x).shelf j = s.shelf j := rfl
@[simp] theorem State.setHandle_chain (x : Handle) : (s.setHandle i x).chain j = s.chain j := rfl
@[simp] theorem State.setHandle_quarter (x : Handle) : (s.setHandle i x).quarter j = s.quarter j := rfl
@[simp] theorem State.setHandle_engine (x : Handle) : (s.setHandle i x).engine j = s.engine j := rfl
@[simp] theorem State.setHandle_channel (x : Handle) : (s.setHandle i x).channel j = s.channel j := rfl
@[simp] theorem State.setHandle_core (x : Handle) : (s.setHandle i x).core j = s.core j := rfl
@[simp] theorem State.setHandle_mailbox (x : Handle) : (s.setHandle i x).mailbox j = s.mailbox j := rfl
@[simp] theorem State.modHandle_eq (f : Handle → Handle) : s.modHandle i f = s.setHandle i (f (s.handle i)) := rfl

/-! ### `setChain` -/

@[simp] theorem State.setChain_chain_self (x : SasPort) : (s.setChain i x).chain i = x := Tab.get_set_self s.chains i x _
theorem State.setChain_chain (x : SasPort) : (s.setChain i x).chain j = if j = i then x else s.chain j := Tab.get_set s.chains i j x _
@[simp] theorem State.setChain_chain_other (x : SasPort) (h : j ≠ i) : (s.setChain i x).chain j = s.chain j := by simp [State.setChain_chain, h]
@[simp] theorem State.setChain_mode (x : SasPort) : (s.setChain i x).mode = s.mode := rfl
@[simp] theorem State.setChain_devClk (x : SasPort) : (s.setChain i x).devClk = s.devClk := rfl
@[simp] theorem State.setChain_sasClk (x : SasPort) : (s.setChain i x).sasClk = s.sasClk := rfl
@[simp] theorem State.setChain_railsValid (x : SasPort) : (s.setChain i x).railsValid = s.railsValid := rfl
@[simp] theorem State.setChain_devMs (x : SasPort) : (s.setChain i x).devMs = s.devMs := rfl
@[simp] theorem State.setChain_devEpoch (x : SasPort) : (s.setChain i x).devEpoch = s.devEpoch := rfl
@[simp] theorem State.setChain_bif0 (x : SasPort) : (s.setChain i x).bif0 = s.bif0 := rfl
@[simp] theorem State.setChain_bif1 (x : SasPort) : (s.setChain i x).bif1 = s.bif1 := rfl
@[simp] theorem State.setChain_adminSel (x : SasPort) : (s.setChain i x).adminSel = s.adminSel := rfl
@[simp] theorem State.setChain_apportioned (x : SasPort) : (s.setChain i x).apportioned = s.apportioned := rfl
@[simp] theorem State.setChain_restarts (x : SasPort) : (s.setChain i x).restarts = s.restarts := rfl
@[simp] theorem State.setChain_waitClock (x : SasPort) : (s.setChain i x).waitClock = s.waitClock := rfl
@[simp] theorem State.setChain_deviceContain (x : SasPort) : (s.setChain i x).deviceContain = s.deviceContain := rfl
@[simp] theorem State.setChain_thermTrip (x : SasPort) : (s.setChain i x).thermTrip = s.thermTrip := rfl
@[simp] theorem State.setChain_sensors (x : SasPort) : (s.setChain i x).sensors = s.sensors := rfl
@[simp] theorem State.setChain_flash (x : SasPort) : (s.setChain i x).flash = s.flash := rfl
@[simp] theorem State.setChain_ports (x : SasPort) : (s.setChain i x).ports = s.ports := rfl
@[simp] theorem State.setChain_trvs (x : SasPort) : (s.setChain i x).trvs = s.trvs := rfl
@[simp] theorem State.setChain_seqNo (x : SasPort) : (s.setChain i x).seqNo = s.seqNo := rfl
@[simp] theorem State.setChain_admitting (x : SasPort) : (s.setChain i x).admitting = s.admitting := rfl
@[simp] theorem State.setChain_reservations (x : SasPort) : (s.setChain i x).reservations = s.reservations := rfl
@[simp] theorem State.setChain_extents (x : SasPort) : (s.setChain i x).extents = s.extents := rfl
@[simp] theorem State.setChain_accums (x : SasPort) : (s.setChain i x).accums = s.accums := rfl
@[simp] theorem State.setChain_mem (x : SasPort) : (s.setChain i x).mem = s.mem := rfl
@[simp] theorem State.setChain_parked (x : SasPort) : (s.setChain i x).parked = s.parked := rfl
@[simp] theorem State.setChain_poison (x : SasPort) : (s.setChain i x).poison = s.poison := rfl
@[simp] theorem State.setChain_flaws (x : SasPort) : (s.setChain i x).flaws = s.flaws := rfl
@[simp] theorem State.setChain_shelves (x : SasPort) : (s.setChain i x).shelves = s.shelves := rfl
@[simp] theorem State.setChain_handles (x : SasPort) : (s.setChain i x).handles = s.handles := rfl
@[simp] theorem State.setChain_quarters (x : SasPort) : (s.setChain i x).quarters = s.quarters := rfl
@[simp] theorem State.setChain_engines (x : SasPort) : (s.setChain i x).engines = s.engines := rfl
@[simp] theorem State.setChain_dma (x : SasPort) : (s.setChain i x).dma = s.dma := rfl
@[simp] theorem State.setChain_timers (x : SasPort) : (s.setChain i x).timers = s.timers := rfl
@[simp] theorem State.setChain_copyQueue (x : SasPort) : (s.setChain i x).copyQueue = s.copyQueue := rfl
@[simp] theorem State.setChain_cores (x : SasPort) : (s.setChain i x).cores = s.cores := rfl
@[simp] theorem State.setChain_mailboxes (x : SasPort) : (s.setChain i x).mailboxes = s.mailboxes := rfl
@[simp] theorem State.setChain_service (x : SasPort) : (s.setChain i x).service = s.service := rfl
@[simp] theorem State.setChain_stakes (x : SasPort) : (s.setChain i x).stakes = s.stakes := rfl
@[simp] theorem State.setChain_stakeAsks (x : SasPort) : (s.setChain i x).stakeAsks = s.stakeAsks := rfl
@[simp] theorem State.setChain_deviceBook (x : SasPort) : (s.setChain i x).deviceBook = s.deviceBook := rfl
@[simp] theorem State.setChain_sasBooks (x : SasPort) : (s.setChain i x).sasBooks = s.sasBooks := rfl
@[simp] theorem State.setChain_collector (x : SasPort) : (s.setChain i x).collector = s.collector := rfl
@[simp] theorem State.setChain_released (x : SasPort) : (s.setChain i x).released = s.released := rfl
@[simp] theorem State.setChain_frame (x : SasPort) : (s.setChain i x).frame = s.frame := rfl
@[simp] theorem State.setChain_manage (x : SasPort) : (s.setChain i x).manage = s.manage := rfl
@[simp] theorem State.setChain_mon (x : SasPort) : (s.setChain i x).mon = s.mon := rfl
@[simp] theorem State.setChain_view (x : SasPort) : (s.setChain i x).view = s.view := rfl
@[simp] theorem State.setChain_taps (x : SasPort) : (s.setChain i x).taps = s.taps := rfl
@[simp] theorem State.setChain_fresh (x : SasPort) : (s.setChain i x).fresh = s.fresh := rfl
@[simp] theorem State.setChain_out (x : SasPort) : (s.setChain i x).out = s.out := rfl
@[simp] theorem State.setChain_pending (x : SasPort) : (s.setChain i x).pending = s.pending := rfl
@[simp] theorem State.setChain_port (x : SasPort) : (s.setChain i x).port j = s.port j := rfl
@[simp] theorem State.setChain_shelf (x : SasPort) : (s.setChain i x).shelf j = s.shelf j := rfl
@[simp] theorem State.setChain_handle (x : SasPort) : (s.setChain i x).handle j = s.handle j := rfl
@[simp] theorem State.setChain_quarter (x : SasPort) : (s.setChain i x).quarter j = s.quarter j := rfl
@[simp] theorem State.setChain_engine (x : SasPort) : (s.setChain i x).engine j = s.engine j := rfl
@[simp] theorem State.setChain_channel (x : SasPort) : (s.setChain i x).channel j = s.channel j := rfl
@[simp] theorem State.setChain_core (x : SasPort) : (s.setChain i x).core j = s.core j := rfl
@[simp] theorem State.setChain_mailbox (x : SasPort) : (s.setChain i x).mailbox j = s.mailbox j := rfl
@[simp] theorem State.modChain_eq (f : SasPort → SasPort) : s.modChain i f = s.setChain i (f (s.chain i)) := rfl

/-! ### `setQuarter` -/

@[simp] theorem State.setQuarter_quarter_self (x : Quarter) : (s.setQuarter i x).quarter i = x := Tab.get_set_self s.quarters i x _
theorem State.setQuarter_quarter (x : Quarter) : (s.setQuarter i x).quarter j = if j = i then x else s.quarter j := Tab.get_set s.quarters i j x _
@[simp] theorem State.setQuarter_quarter_other (x : Quarter) (h : j ≠ i) : (s.setQuarter i x).quarter j = s.quarter j := by simp [State.setQuarter_quarter, h]
@[simp] theorem State.setQuarter_mode (x : Quarter) : (s.setQuarter i x).mode = s.mode := rfl
@[simp] theorem State.setQuarter_devClk (x : Quarter) : (s.setQuarter i x).devClk = s.devClk := rfl
@[simp] theorem State.setQuarter_sasClk (x : Quarter) : (s.setQuarter i x).sasClk = s.sasClk := rfl
@[simp] theorem State.setQuarter_railsValid (x : Quarter) : (s.setQuarter i x).railsValid = s.railsValid := rfl
@[simp] theorem State.setQuarter_devMs (x : Quarter) : (s.setQuarter i x).devMs = s.devMs := rfl
@[simp] theorem State.setQuarter_devEpoch (x : Quarter) : (s.setQuarter i x).devEpoch = s.devEpoch := rfl
@[simp] theorem State.setQuarter_bif0 (x : Quarter) : (s.setQuarter i x).bif0 = s.bif0 := rfl
@[simp] theorem State.setQuarter_bif1 (x : Quarter) : (s.setQuarter i x).bif1 = s.bif1 := rfl
@[simp] theorem State.setQuarter_adminSel (x : Quarter) : (s.setQuarter i x).adminSel = s.adminSel := rfl
@[simp] theorem State.setQuarter_apportioned (x : Quarter) : (s.setQuarter i x).apportioned = s.apportioned := rfl
@[simp] theorem State.setQuarter_restarts (x : Quarter) : (s.setQuarter i x).restarts = s.restarts := rfl
@[simp] theorem State.setQuarter_waitClock (x : Quarter) : (s.setQuarter i x).waitClock = s.waitClock := rfl
@[simp] theorem State.setQuarter_deviceContain (x : Quarter) : (s.setQuarter i x).deviceContain = s.deviceContain := rfl
@[simp] theorem State.setQuarter_thermTrip (x : Quarter) : (s.setQuarter i x).thermTrip = s.thermTrip := rfl
@[simp] theorem State.setQuarter_sensors (x : Quarter) : (s.setQuarter i x).sensors = s.sensors := rfl
@[simp] theorem State.setQuarter_flash (x : Quarter) : (s.setQuarter i x).flash = s.flash := rfl
@[simp] theorem State.setQuarter_ports (x : Quarter) : (s.setQuarter i x).ports = s.ports := rfl
@[simp] theorem State.setQuarter_trvs (x : Quarter) : (s.setQuarter i x).trvs = s.trvs := rfl
@[simp] theorem State.setQuarter_seqNo (x : Quarter) : (s.setQuarter i x).seqNo = s.seqNo := rfl
@[simp] theorem State.setQuarter_admitting (x : Quarter) : (s.setQuarter i x).admitting = s.admitting := rfl
@[simp] theorem State.setQuarter_reservations (x : Quarter) : (s.setQuarter i x).reservations = s.reservations := rfl
@[simp] theorem State.setQuarter_extents (x : Quarter) : (s.setQuarter i x).extents = s.extents := rfl
@[simp] theorem State.setQuarter_accums (x : Quarter) : (s.setQuarter i x).accums = s.accums := rfl
@[simp] theorem State.setQuarter_mem (x : Quarter) : (s.setQuarter i x).mem = s.mem := rfl
@[simp] theorem State.setQuarter_parked (x : Quarter) : (s.setQuarter i x).parked = s.parked := rfl
@[simp] theorem State.setQuarter_poison (x : Quarter) : (s.setQuarter i x).poison = s.poison := rfl
@[simp] theorem State.setQuarter_flaws (x : Quarter) : (s.setQuarter i x).flaws = s.flaws := rfl
@[simp] theorem State.setQuarter_shelves (x : Quarter) : (s.setQuarter i x).shelves = s.shelves := rfl
@[simp] theorem State.setQuarter_handles (x : Quarter) : (s.setQuarter i x).handles = s.handles := rfl
@[simp] theorem State.setQuarter_chains (x : Quarter) : (s.setQuarter i x).chains = s.chains := rfl
@[simp] theorem State.setQuarter_engines (x : Quarter) : (s.setQuarter i x).engines = s.engines := rfl
@[simp] theorem State.setQuarter_dma (x : Quarter) : (s.setQuarter i x).dma = s.dma := rfl
@[simp] theorem State.setQuarter_timers (x : Quarter) : (s.setQuarter i x).timers = s.timers := rfl
@[simp] theorem State.setQuarter_copyQueue (x : Quarter) : (s.setQuarter i x).copyQueue = s.copyQueue := rfl
@[simp] theorem State.setQuarter_cores (x : Quarter) : (s.setQuarter i x).cores = s.cores := rfl
@[simp] theorem State.setQuarter_mailboxes (x : Quarter) : (s.setQuarter i x).mailboxes = s.mailboxes := rfl
@[simp] theorem State.setQuarter_service (x : Quarter) : (s.setQuarter i x).service = s.service := rfl
@[simp] theorem State.setQuarter_stakes (x : Quarter) : (s.setQuarter i x).stakes = s.stakes := rfl
@[simp] theorem State.setQuarter_stakeAsks (x : Quarter) : (s.setQuarter i x).stakeAsks = s.stakeAsks := rfl
@[simp] theorem State.setQuarter_deviceBook (x : Quarter) : (s.setQuarter i x).deviceBook = s.deviceBook := rfl
@[simp] theorem State.setQuarter_sasBooks (x : Quarter) : (s.setQuarter i x).sasBooks = s.sasBooks := rfl
@[simp] theorem State.setQuarter_collector (x : Quarter) : (s.setQuarter i x).collector = s.collector := rfl
@[simp] theorem State.setQuarter_released (x : Quarter) : (s.setQuarter i x).released = s.released := rfl
@[simp] theorem State.setQuarter_frame (x : Quarter) : (s.setQuarter i x).frame = s.frame := rfl
@[simp] theorem State.setQuarter_manage (x : Quarter) : (s.setQuarter i x).manage = s.manage := rfl
@[simp] theorem State.setQuarter_mon (x : Quarter) : (s.setQuarter i x).mon = s.mon := rfl
@[simp] theorem State.setQuarter_view (x : Quarter) : (s.setQuarter i x).view = s.view := rfl
@[simp] theorem State.setQuarter_taps (x : Quarter) : (s.setQuarter i x).taps = s.taps := rfl
@[simp] theorem State.setQuarter_fresh (x : Quarter) : (s.setQuarter i x).fresh = s.fresh := rfl
@[simp] theorem State.setQuarter_out (x : Quarter) : (s.setQuarter i x).out = s.out := rfl
@[simp] theorem State.setQuarter_pending (x : Quarter) : (s.setQuarter i x).pending = s.pending := rfl
@[simp] theorem State.setQuarter_port (x : Quarter) : (s.setQuarter i x).port j = s.port j := rfl
@[simp] theorem State.setQuarter_shelf (x : Quarter) : (s.setQuarter i x).shelf j = s.shelf j := rfl
@[simp] theorem State.setQuarter_handle (x : Quarter) : (s.setQuarter i x).handle j = s.handle j := rfl
@[simp] theorem State.setQuarter_chain (x : Quarter) : (s.setQuarter i x).chain j = s.chain j := rfl
@[simp] theorem State.setQuarter_engine (x : Quarter) : (s.setQuarter i x).engine j = s.engine j := rfl
@[simp] theorem State.setQuarter_channel (x : Quarter) : (s.setQuarter i x).channel j = s.channel j := rfl
@[simp] theorem State.setQuarter_core (x : Quarter) : (s.setQuarter i x).core j = s.core j := rfl
@[simp] theorem State.setQuarter_mailbox (x : Quarter) : (s.setQuarter i x).mailbox j = s.mailbox j := rfl
@[simp] theorem State.modQuarter_eq (f : Quarter → Quarter) : s.modQuarter i f = s.setQuarter i (f (s.quarter i)) := rfl

/-! ### `setEngine` -/

@[simp] theorem State.setEngine_engine_self (x : Engine) : (s.setEngine i x).engine i = x := Tab.get_set_self s.engines i x _
theorem State.setEngine_engine (x : Engine) : (s.setEngine i x).engine j = if j = i then x else s.engine j := Tab.get_set s.engines i j x _
@[simp] theorem State.setEngine_engine_other (x : Engine) (h : j ≠ i) : (s.setEngine i x).engine j = s.engine j := by simp [State.setEngine_engine, h]
@[simp] theorem State.setEngine_mode (x : Engine) : (s.setEngine i x).mode = s.mode := rfl
@[simp] theorem State.setEngine_devClk (x : Engine) : (s.setEngine i x).devClk = s.devClk := rfl
@[simp] theorem State.setEngine_sasClk (x : Engine) : (s.setEngine i x).sasClk = s.sasClk := rfl
@[simp] theorem State.setEngine_railsValid (x : Engine) : (s.setEngine i x).railsValid = s.railsValid := rfl
@[simp] theorem State.setEngine_devMs (x : Engine) : (s.setEngine i x).devMs = s.devMs := rfl
@[simp] theorem State.setEngine_devEpoch (x : Engine) : (s.setEngine i x).devEpoch = s.devEpoch := rfl
@[simp] theorem State.setEngine_bif0 (x : Engine) : (s.setEngine i x).bif0 = s.bif0 := rfl
@[simp] theorem State.setEngine_bif1 (x : Engine) : (s.setEngine i x).bif1 = s.bif1 := rfl
@[simp] theorem State.setEngine_adminSel (x : Engine) : (s.setEngine i x).adminSel = s.adminSel := rfl
@[simp] theorem State.setEngine_apportioned (x : Engine) : (s.setEngine i x).apportioned = s.apportioned := rfl
@[simp] theorem State.setEngine_restarts (x : Engine) : (s.setEngine i x).restarts = s.restarts := rfl
@[simp] theorem State.setEngine_waitClock (x : Engine) : (s.setEngine i x).waitClock = s.waitClock := rfl
@[simp] theorem State.setEngine_deviceContain (x : Engine) : (s.setEngine i x).deviceContain = s.deviceContain := rfl
@[simp] theorem State.setEngine_thermTrip (x : Engine) : (s.setEngine i x).thermTrip = s.thermTrip := rfl
@[simp] theorem State.setEngine_sensors (x : Engine) : (s.setEngine i x).sensors = s.sensors := rfl
@[simp] theorem State.setEngine_flash (x : Engine) : (s.setEngine i x).flash = s.flash := rfl
@[simp] theorem State.setEngine_ports (x : Engine) : (s.setEngine i x).ports = s.ports := rfl
@[simp] theorem State.setEngine_trvs (x : Engine) : (s.setEngine i x).trvs = s.trvs := rfl
@[simp] theorem State.setEngine_seqNo (x : Engine) : (s.setEngine i x).seqNo = s.seqNo := rfl
@[simp] theorem State.setEngine_admitting (x : Engine) : (s.setEngine i x).admitting = s.admitting := rfl
@[simp] theorem State.setEngine_reservations (x : Engine) : (s.setEngine i x).reservations = s.reservations := rfl
@[simp] theorem State.setEngine_extents (x : Engine) : (s.setEngine i x).extents = s.extents := rfl
@[simp] theorem State.setEngine_accums (x : Engine) : (s.setEngine i x).accums = s.accums := rfl
@[simp] theorem State.setEngine_mem (x : Engine) : (s.setEngine i x).mem = s.mem := rfl
@[simp] theorem State.setEngine_parked (x : Engine) : (s.setEngine i x).parked = s.parked := rfl
@[simp] theorem State.setEngine_poison (x : Engine) : (s.setEngine i x).poison = s.poison := rfl
@[simp] theorem State.setEngine_flaws (x : Engine) : (s.setEngine i x).flaws = s.flaws := rfl
@[simp] theorem State.setEngine_shelves (x : Engine) : (s.setEngine i x).shelves = s.shelves := rfl
@[simp] theorem State.setEngine_handles (x : Engine) : (s.setEngine i x).handles = s.handles := rfl
@[simp] theorem State.setEngine_chains (x : Engine) : (s.setEngine i x).chains = s.chains := rfl
@[simp] theorem State.setEngine_quarters (x : Engine) : (s.setEngine i x).quarters = s.quarters := rfl
@[simp] theorem State.setEngine_dma (x : Engine) : (s.setEngine i x).dma = s.dma := rfl
@[simp] theorem State.setEngine_timers (x : Engine) : (s.setEngine i x).timers = s.timers := rfl
@[simp] theorem State.setEngine_copyQueue (x : Engine) : (s.setEngine i x).copyQueue = s.copyQueue := rfl
@[simp] theorem State.setEngine_cores (x : Engine) : (s.setEngine i x).cores = s.cores := rfl
@[simp] theorem State.setEngine_mailboxes (x : Engine) : (s.setEngine i x).mailboxes = s.mailboxes := rfl
@[simp] theorem State.setEngine_service (x : Engine) : (s.setEngine i x).service = s.service := rfl
@[simp] theorem State.setEngine_stakes (x : Engine) : (s.setEngine i x).stakes = s.stakes := rfl
@[simp] theorem State.setEngine_stakeAsks (x : Engine) : (s.setEngine i x).stakeAsks = s.stakeAsks := rfl
@[simp] theorem State.setEngine_deviceBook (x : Engine) : (s.setEngine i x).deviceBook = s.deviceBook := rfl
@[simp] theorem State.setEngine_sasBooks (x : Engine) : (s.setEngine i x).sasBooks = s.sasBooks := rfl
@[simp] theorem State.setEngine_collector (x : Engine) : (s.setEngine i x).collector = s.collector := rfl
@[simp] theorem State.setEngine_released (x : Engine) : (s.setEngine i x).released = s.released := rfl
@[simp] theorem State.setEngine_frame (x : Engine) : (s.setEngine i x).frame = s.frame := rfl
@[simp] theorem State.setEngine_manage (x : Engine) : (s.setEngine i x).manage = s.manage := rfl
@[simp] theorem State.setEngine_mon (x : Engine) : (s.setEngine i x).mon = s.mon := rfl
@[simp] theorem State.setEngine_view (x : Engine) : (s.setEngine i x).view = s.view := rfl
@[simp] theorem State.setEngine_taps (x : Engine) : (s.setEngine i x).taps = s.taps := rfl
@[simp] theorem State.setEngine_fresh (x : Engine) : (s.setEngine i x).fresh = s.fresh := rfl
@[simp] theorem State.setEngine_out (x : Engine) : (s.setEngine i x).out = s.out := rfl
@[simp] theorem State.setEngine_pending (x : Engine) : (s.setEngine i x).pending = s.pending := rfl
@[simp] theorem State.setEngine_port (x : Engine) : (s.setEngine i x).port j = s.port j := rfl
@[simp] theorem State.setEngine_shelf (x : Engine) : (s.setEngine i x).shelf j = s.shelf j := rfl
@[simp] theorem State.setEngine_handle (x : Engine) : (s.setEngine i x).handle j = s.handle j := rfl
@[simp] theorem State.setEngine_chain (x : Engine) : (s.setEngine i x).chain j = s.chain j := rfl
@[simp] theorem State.setEngine_quarter (x : Engine) : (s.setEngine i x).quarter j = s.quarter j := rfl
@[simp] theorem State.setEngine_channel (x : Engine) : (s.setEngine i x).channel j = s.channel j := rfl
@[simp] theorem State.setEngine_core (x : Engine) : (s.setEngine i x).core j = s.core j := rfl
@[simp] theorem State.setEngine_mailbox (x : Engine) : (s.setEngine i x).mailbox j = s.mailbox j := rfl
@[simp] theorem State.modEngine_eq (f : Engine → Engine) : s.modEngine i f = s.setEngine i (f (s.engine i)) := rfl

/-! ### `setChannel` -/

@[simp] theorem State.setChannel_channel_self (x : DmaChannel) : (s.setChannel i x).channel i = x := Tab.get_set_self s.dma i x _
theorem State.setChannel_channel (x : DmaChannel) : (s.setChannel i x).channel j = if j = i then x else s.channel j := Tab.get_set s.dma i j x _
@[simp] theorem State.setChannel_channel_other (x : DmaChannel) (h : j ≠ i) : (s.setChannel i x).channel j = s.channel j := by simp [State.setChannel_channel, h]
@[simp] theorem State.setChannel_mode (x : DmaChannel) : (s.setChannel i x).mode = s.mode := rfl
@[simp] theorem State.setChannel_devClk (x : DmaChannel) : (s.setChannel i x).devClk = s.devClk := rfl
@[simp] theorem State.setChannel_sasClk (x : DmaChannel) : (s.setChannel i x).sasClk = s.sasClk := rfl
@[simp] theorem State.setChannel_railsValid (x : DmaChannel) : (s.setChannel i x).railsValid = s.railsValid := rfl
@[simp] theorem State.setChannel_devMs (x : DmaChannel) : (s.setChannel i x).devMs = s.devMs := rfl
@[simp] theorem State.setChannel_devEpoch (x : DmaChannel) : (s.setChannel i x).devEpoch = s.devEpoch := rfl
@[simp] theorem State.setChannel_bif0 (x : DmaChannel) : (s.setChannel i x).bif0 = s.bif0 := rfl
@[simp] theorem State.setChannel_bif1 (x : DmaChannel) : (s.setChannel i x).bif1 = s.bif1 := rfl
@[simp] theorem State.setChannel_adminSel (x : DmaChannel) : (s.setChannel i x).adminSel = s.adminSel := rfl
@[simp] theorem State.setChannel_apportioned (x : DmaChannel) : (s.setChannel i x).apportioned = s.apportioned := rfl
@[simp] theorem State.setChannel_restarts (x : DmaChannel) : (s.setChannel i x).restarts = s.restarts := rfl
@[simp] theorem State.setChannel_waitClock (x : DmaChannel) : (s.setChannel i x).waitClock = s.waitClock := rfl
@[simp] theorem State.setChannel_deviceContain (x : DmaChannel) : (s.setChannel i x).deviceContain = s.deviceContain := rfl
@[simp] theorem State.setChannel_thermTrip (x : DmaChannel) : (s.setChannel i x).thermTrip = s.thermTrip := rfl
@[simp] theorem State.setChannel_sensors (x : DmaChannel) : (s.setChannel i x).sensors = s.sensors := rfl
@[simp] theorem State.setChannel_flash (x : DmaChannel) : (s.setChannel i x).flash = s.flash := rfl
@[simp] theorem State.setChannel_ports (x : DmaChannel) : (s.setChannel i x).ports = s.ports := rfl
@[simp] theorem State.setChannel_trvs (x : DmaChannel) : (s.setChannel i x).trvs = s.trvs := rfl
@[simp] theorem State.setChannel_seqNo (x : DmaChannel) : (s.setChannel i x).seqNo = s.seqNo := rfl
@[simp] theorem State.setChannel_admitting (x : DmaChannel) : (s.setChannel i x).admitting = s.admitting := rfl
@[simp] theorem State.setChannel_reservations (x : DmaChannel) : (s.setChannel i x).reservations = s.reservations := rfl
@[simp] theorem State.setChannel_extents (x : DmaChannel) : (s.setChannel i x).extents = s.extents := rfl
@[simp] theorem State.setChannel_accums (x : DmaChannel) : (s.setChannel i x).accums = s.accums := rfl
@[simp] theorem State.setChannel_mem (x : DmaChannel) : (s.setChannel i x).mem = s.mem := rfl
@[simp] theorem State.setChannel_parked (x : DmaChannel) : (s.setChannel i x).parked = s.parked := rfl
@[simp] theorem State.setChannel_poison (x : DmaChannel) : (s.setChannel i x).poison = s.poison := rfl
@[simp] theorem State.setChannel_flaws (x : DmaChannel) : (s.setChannel i x).flaws = s.flaws := rfl
@[simp] theorem State.setChannel_shelves (x : DmaChannel) : (s.setChannel i x).shelves = s.shelves := rfl
@[simp] theorem State.setChannel_handles (x : DmaChannel) : (s.setChannel i x).handles = s.handles := rfl
@[simp] theorem State.setChannel_chains (x : DmaChannel) : (s.setChannel i x).chains = s.chains := rfl
@[simp] theorem State.setChannel_quarters (x : DmaChannel) : (s.setChannel i x).quarters = s.quarters := rfl
@[simp] theorem State.setChannel_engines (x : DmaChannel) : (s.setChannel i x).engines = s.engines := rfl
@[simp] theorem State.setChannel_timers (x : DmaChannel) : (s.setChannel i x).timers = s.timers := rfl
@[simp] theorem State.setChannel_copyQueue (x : DmaChannel) : (s.setChannel i x).copyQueue = s.copyQueue := rfl
@[simp] theorem State.setChannel_cores (x : DmaChannel) : (s.setChannel i x).cores = s.cores := rfl
@[simp] theorem State.setChannel_mailboxes (x : DmaChannel) : (s.setChannel i x).mailboxes = s.mailboxes := rfl
@[simp] theorem State.setChannel_service (x : DmaChannel) : (s.setChannel i x).service = s.service := rfl
@[simp] theorem State.setChannel_stakes (x : DmaChannel) : (s.setChannel i x).stakes = s.stakes := rfl
@[simp] theorem State.setChannel_stakeAsks (x : DmaChannel) : (s.setChannel i x).stakeAsks = s.stakeAsks := rfl
@[simp] theorem State.setChannel_deviceBook (x : DmaChannel) : (s.setChannel i x).deviceBook = s.deviceBook := rfl
@[simp] theorem State.setChannel_sasBooks (x : DmaChannel) : (s.setChannel i x).sasBooks = s.sasBooks := rfl
@[simp] theorem State.setChannel_collector (x : DmaChannel) : (s.setChannel i x).collector = s.collector := rfl
@[simp] theorem State.setChannel_released (x : DmaChannel) : (s.setChannel i x).released = s.released := rfl
@[simp] theorem State.setChannel_frame (x : DmaChannel) : (s.setChannel i x).frame = s.frame := rfl
@[simp] theorem State.setChannel_manage (x : DmaChannel) : (s.setChannel i x).manage = s.manage := rfl
@[simp] theorem State.setChannel_mon (x : DmaChannel) : (s.setChannel i x).mon = s.mon := rfl
@[simp] theorem State.setChannel_view (x : DmaChannel) : (s.setChannel i x).view = s.view := rfl
@[simp] theorem State.setChannel_taps (x : DmaChannel) : (s.setChannel i x).taps = s.taps := rfl
@[simp] theorem State.setChannel_fresh (x : DmaChannel) : (s.setChannel i x).fresh = s.fresh := rfl
@[simp] theorem State.setChannel_out (x : DmaChannel) : (s.setChannel i x).out = s.out := rfl
@[simp] theorem State.setChannel_pending (x : DmaChannel) : (s.setChannel i x).pending = s.pending := rfl
@[simp] theorem State.setChannel_port (x : DmaChannel) : (s.setChannel i x).port j = s.port j := rfl
@[simp] theorem State.setChannel_shelf (x : DmaChannel) : (s.setChannel i x).shelf j = s.shelf j := rfl
@[simp] theorem State.setChannel_handle (x : DmaChannel) : (s.setChannel i x).handle j = s.handle j := rfl
@[simp] theorem State.setChannel_chain (x : DmaChannel) : (s.setChannel i x).chain j = s.chain j := rfl
@[simp] theorem State.setChannel_quarter (x : DmaChannel) : (s.setChannel i x).quarter j = s.quarter j := rfl
@[simp] theorem State.setChannel_engine (x : DmaChannel) : (s.setChannel i x).engine j = s.engine j := rfl
@[simp] theorem State.setChannel_core (x : DmaChannel) : (s.setChannel i x).core j = s.core j := rfl
@[simp] theorem State.setChannel_mailbox (x : DmaChannel) : (s.setChannel i x).mailbox j = s.mailbox j := rfl
@[simp] theorem State.modChannel_eq (f : DmaChannel → DmaChannel) : s.modChannel i f = s.setChannel i (f (s.channel i)) := rfl

/-! ### `setCore` -/

@[simp] theorem State.setCore_core_self (x : Core) : (s.setCore i x).core i = x := Tab.get_set_self s.cores i x _
theorem State.setCore_core (x : Core) : (s.setCore i x).core j = if j = i then x else s.core j := Tab.get_set s.cores i j x _
@[simp] theorem State.setCore_core_other (x : Core) (h : j ≠ i) : (s.setCore i x).core j = s.core j := by simp [State.setCore_core, h]
@[simp] theorem State.setCore_mode (x : Core) : (s.setCore i x).mode = s.mode := rfl
@[simp] theorem State.setCore_devClk (x : Core) : (s.setCore i x).devClk = s.devClk := rfl
@[simp] theorem State.setCore_sasClk (x : Core) : (s.setCore i x).sasClk = s.sasClk := rfl
@[simp] theorem State.setCore_railsValid (x : Core) : (s.setCore i x).railsValid = s.railsValid := rfl
@[simp] theorem State.setCore_devMs (x : Core) : (s.setCore i x).devMs = s.devMs := rfl
@[simp] theorem State.setCore_devEpoch (x : Core) : (s.setCore i x).devEpoch = s.devEpoch := rfl
@[simp] theorem State.setCore_bif0 (x : Core) : (s.setCore i x).bif0 = s.bif0 := rfl
@[simp] theorem State.setCore_bif1 (x : Core) : (s.setCore i x).bif1 = s.bif1 := rfl
@[simp] theorem State.setCore_adminSel (x : Core) : (s.setCore i x).adminSel = s.adminSel := rfl
@[simp] theorem State.setCore_apportioned (x : Core) : (s.setCore i x).apportioned = s.apportioned := rfl
@[simp] theorem State.setCore_restarts (x : Core) : (s.setCore i x).restarts = s.restarts := rfl
@[simp] theorem State.setCore_waitClock (x : Core) : (s.setCore i x).waitClock = s.waitClock := rfl
@[simp] theorem State.setCore_deviceContain (x : Core) : (s.setCore i x).deviceContain = s.deviceContain := rfl
@[simp] theorem State.setCore_thermTrip (x : Core) : (s.setCore i x).thermTrip = s.thermTrip := rfl
@[simp] theorem State.setCore_sensors (x : Core) : (s.setCore i x).sensors = s.sensors := rfl
@[simp] theorem State.setCore_flash (x : Core) : (s.setCore i x).flash = s.flash := rfl
@[simp] theorem State.setCore_ports (x : Core) : (s.setCore i x).ports = s.ports := rfl
@[simp] theorem State.setCore_trvs (x : Core) : (s.setCore i x).trvs = s.trvs := rfl
@[simp] theorem State.setCore_seqNo (x : Core) : (s.setCore i x).seqNo = s.seqNo := rfl
@[simp] theorem State.setCore_admitting (x : Core) : (s.setCore i x).admitting = s.admitting := rfl
@[simp] theorem State.setCore_reservations (x : Core) : (s.setCore i x).reservations = s.reservations := rfl
@[simp] theorem State.setCore_extents (x : Core) : (s.setCore i x).extents = s.extents := rfl
@[simp] theorem State.setCore_accums (x : Core) : (s.setCore i x).accums = s.accums := rfl
@[simp] theorem State.setCore_mem (x : Core) : (s.setCore i x).mem = s.mem := rfl
@[simp] theorem State.setCore_parked (x : Core) : (s.setCore i x).parked = s.parked := rfl
@[simp] theorem State.setCore_poison (x : Core) : (s.setCore i x).poison = s.poison := rfl
@[simp] theorem State.setCore_flaws (x : Core) : (s.setCore i x).flaws = s.flaws := rfl
@[simp] theorem State.setCore_shelves (x : Core) : (s.setCore i x).shelves = s.shelves := rfl
@[simp] theorem State.setCore_handles (x : Core) : (s.setCore i x).handles = s.handles := rfl
@[simp] theorem State.setCore_chains (x : Core) : (s.setCore i x).chains = s.chains := rfl
@[simp] theorem State.setCore_quarters (x : Core) : (s.setCore i x).quarters = s.quarters := rfl
@[simp] theorem State.setCore_engines (x : Core) : (s.setCore i x).engines = s.engines := rfl
@[simp] theorem State.setCore_dma (x : Core) : (s.setCore i x).dma = s.dma := rfl
@[simp] theorem State.setCore_timers (x : Core) : (s.setCore i x).timers = s.timers := rfl
@[simp] theorem State.setCore_copyQueue (x : Core) : (s.setCore i x).copyQueue = s.copyQueue := rfl
@[simp] theorem State.setCore_mailboxes (x : Core) : (s.setCore i x).mailboxes = s.mailboxes := rfl
@[simp] theorem State.setCore_service (x : Core) : (s.setCore i x).service = s.service := rfl
@[simp] theorem State.setCore_stakes (x : Core) : (s.setCore i x).stakes = s.stakes := rfl
@[simp] theorem State.setCore_stakeAsks (x : Core) : (s.setCore i x).stakeAsks = s.stakeAsks := rfl
@[simp] theorem State.setCore_deviceBook (x : Core) : (s.setCore i x).deviceBook = s.deviceBook := rfl
@[simp] theorem State.setCore_sasBooks (x : Core) : (s.setCore i x).sasBooks = s.sasBooks := rfl
@[simp] theorem State.setCore_collector (x : Core) : (s.setCore i x).collector = s.collector := rfl
@[simp] theorem State.setCore_released (x : Core) : (s.setCore i x).released = s.released := rfl
@[simp] theorem State.setCore_frame (x : Core) : (s.setCore i x).frame = s.frame := rfl
@[simp] theorem State.setCore_manage (x : Core) : (s.setCore i x).manage = s.manage := rfl
@[simp] theorem State.setCore_mon (x : Core) : (s.setCore i x).mon = s.mon := rfl
@[simp] theorem State.setCore_view (x : Core) : (s.setCore i x).view = s.view := rfl
@[simp] theorem State.setCore_taps (x : Core) : (s.setCore i x).taps = s.taps := rfl
@[simp] theorem State.setCore_fresh (x : Core) : (s.setCore i x).fresh = s.fresh := rfl
@[simp] theorem State.setCore_out (x : Core) : (s.setCore i x).out = s.out := rfl
@[simp] theorem State.setCore_pending (x : Core) : (s.setCore i x).pending = s.pending := rfl
@[simp] theorem State.setCore_port (x : Core) : (s.setCore i x).port j = s.port j := rfl
@[simp] theorem State.setCore_shelf (x : Core) : (s.setCore i x).shelf j = s.shelf j := rfl
@[simp] theorem State.setCore_handle (x : Core) : (s.setCore i x).handle j = s.handle j := rfl
@[simp] theorem State.setCore_chain (x : Core) : (s.setCore i x).chain j = s.chain j := rfl
@[simp] theorem State.setCore_quarter (x : Core) : (s.setCore i x).quarter j = s.quarter j := rfl
@[simp] theorem State.setCore_engine (x : Core) : (s.setCore i x).engine j = s.engine j := rfl
@[simp] theorem State.setCore_channel (x : Core) : (s.setCore i x).channel j = s.channel j := rfl
@[simp] theorem State.setCore_mailbox (x : Core) : (s.setCore i x).mailbox j = s.mailbox j := rfl
@[simp] theorem State.modCore_eq (f : Core → Core) : s.modCore i f = s.setCore i (f (s.core i)) := rfl

/-! ### `setMailbox` -/

@[simp] theorem State.setMailbox_mailbox_self (x : Mailbox) : (s.setMailbox i x).mailbox i = x := Tab.get_set_self s.mailboxes i x _
theorem State.setMailbox_mailbox (x : Mailbox) : (s.setMailbox i x).mailbox j = if j = i then x else s.mailbox j := Tab.get_set s.mailboxes i j x _
@[simp] theorem State.setMailbox_mailbox_other (x : Mailbox) (h : j ≠ i) : (s.setMailbox i x).mailbox j = s.mailbox j := by simp [State.setMailbox_mailbox, h]
@[simp] theorem State.setMailbox_mode (x : Mailbox) : (s.setMailbox i x).mode = s.mode := rfl
@[simp] theorem State.setMailbox_devClk (x : Mailbox) : (s.setMailbox i x).devClk = s.devClk := rfl
@[simp] theorem State.setMailbox_sasClk (x : Mailbox) : (s.setMailbox i x).sasClk = s.sasClk := rfl
@[simp] theorem State.setMailbox_railsValid (x : Mailbox) : (s.setMailbox i x).railsValid = s.railsValid := rfl
@[simp] theorem State.setMailbox_devMs (x : Mailbox) : (s.setMailbox i x).devMs = s.devMs := rfl
@[simp] theorem State.setMailbox_devEpoch (x : Mailbox) : (s.setMailbox i x).devEpoch = s.devEpoch := rfl
@[simp] theorem State.setMailbox_bif0 (x : Mailbox) : (s.setMailbox i x).bif0 = s.bif0 := rfl
@[simp] theorem State.setMailbox_bif1 (x : Mailbox) : (s.setMailbox i x).bif1 = s.bif1 := rfl
@[simp] theorem State.setMailbox_adminSel (x : Mailbox) : (s.setMailbox i x).adminSel = s.adminSel := rfl
@[simp] theorem State.setMailbox_apportioned (x : Mailbox) : (s.setMailbox i x).apportioned = s.apportioned := rfl
@[simp] theorem State.setMailbox_restarts (x : Mailbox) : (s.setMailbox i x).restarts = s.restarts := rfl
@[simp] theorem State.setMailbox_waitClock (x : Mailbox) : (s.setMailbox i x).waitClock = s.waitClock := rfl
@[simp] theorem State.setMailbox_deviceContain (x : Mailbox) : (s.setMailbox i x).deviceContain = s.deviceContain := rfl
@[simp] theorem State.setMailbox_thermTrip (x : Mailbox) : (s.setMailbox i x).thermTrip = s.thermTrip := rfl
@[simp] theorem State.setMailbox_sensors (x : Mailbox) : (s.setMailbox i x).sensors = s.sensors := rfl
@[simp] theorem State.setMailbox_flash (x : Mailbox) : (s.setMailbox i x).flash = s.flash := rfl
@[simp] theorem State.setMailbox_ports (x : Mailbox) : (s.setMailbox i x).ports = s.ports := rfl
@[simp] theorem State.setMailbox_trvs (x : Mailbox) : (s.setMailbox i x).trvs = s.trvs := rfl
@[simp] theorem State.setMailbox_seqNo (x : Mailbox) : (s.setMailbox i x).seqNo = s.seqNo := rfl
@[simp] theorem State.setMailbox_admitting (x : Mailbox) : (s.setMailbox i x).admitting = s.admitting := rfl
@[simp] theorem State.setMailbox_reservations (x : Mailbox) : (s.setMailbox i x).reservations = s.reservations := rfl
@[simp] theorem State.setMailbox_extents (x : Mailbox) : (s.setMailbox i x).extents = s.extents := rfl
@[simp] theorem State.setMailbox_accums (x : Mailbox) : (s.setMailbox i x).accums = s.accums := rfl
@[simp] theorem State.setMailbox_mem (x : Mailbox) : (s.setMailbox i x).mem = s.mem := rfl
@[simp] theorem State.setMailbox_parked (x : Mailbox) : (s.setMailbox i x).parked = s.parked := rfl
@[simp] theorem State.setMailbox_poison (x : Mailbox) : (s.setMailbox i x).poison = s.poison := rfl
@[simp] theorem State.setMailbox_flaws (x : Mailbox) : (s.setMailbox i x).flaws = s.flaws := rfl
@[simp] theorem State.setMailbox_shelves (x : Mailbox) : (s.setMailbox i x).shelves = s.shelves := rfl
@[simp] theorem State.setMailbox_handles (x : Mailbox) : (s.setMailbox i x).handles = s.handles := rfl
@[simp] theorem State.setMailbox_chains (x : Mailbox) : (s.setMailbox i x).chains = s.chains := rfl
@[simp] theorem State.setMailbox_quarters (x : Mailbox) : (s.setMailbox i x).quarters = s.quarters := rfl
@[simp] theorem State.setMailbox_engines (x : Mailbox) : (s.setMailbox i x).engines = s.engines := rfl
@[simp] theorem State.setMailbox_dma (x : Mailbox) : (s.setMailbox i x).dma = s.dma := rfl
@[simp] theorem State.setMailbox_timers (x : Mailbox) : (s.setMailbox i x).timers = s.timers := rfl
@[simp] theorem State.setMailbox_copyQueue (x : Mailbox) : (s.setMailbox i x).copyQueue = s.copyQueue := rfl
@[simp] theorem State.setMailbox_cores (x : Mailbox) : (s.setMailbox i x).cores = s.cores := rfl
@[simp] theorem State.setMailbox_service (x : Mailbox) : (s.setMailbox i x).service = s.service := rfl
@[simp] theorem State.setMailbox_stakes (x : Mailbox) : (s.setMailbox i x).stakes = s.stakes := rfl
@[simp] theorem State.setMailbox_stakeAsks (x : Mailbox) : (s.setMailbox i x).stakeAsks = s.stakeAsks := rfl
@[simp] theorem State.setMailbox_deviceBook (x : Mailbox) : (s.setMailbox i x).deviceBook = s.deviceBook := rfl
@[simp] theorem State.setMailbox_sasBooks (x : Mailbox) : (s.setMailbox i x).sasBooks = s.sasBooks := rfl
@[simp] theorem State.setMailbox_collector (x : Mailbox) : (s.setMailbox i x).collector = s.collector := rfl
@[simp] theorem State.setMailbox_released (x : Mailbox) : (s.setMailbox i x).released = s.released := rfl
@[simp] theorem State.setMailbox_frame (x : Mailbox) : (s.setMailbox i x).frame = s.frame := rfl
@[simp] theorem State.setMailbox_manage (x : Mailbox) : (s.setMailbox i x).manage = s.manage := rfl
@[simp] theorem State.setMailbox_mon (x : Mailbox) : (s.setMailbox i x).mon = s.mon := rfl
@[simp] theorem State.setMailbox_view (x : Mailbox) : (s.setMailbox i x).view = s.view := rfl
@[simp] theorem State.setMailbox_taps (x : Mailbox) : (s.setMailbox i x).taps = s.taps := rfl
@[simp] theorem State.setMailbox_fresh (x : Mailbox) : (s.setMailbox i x).fresh = s.fresh := rfl
@[simp] theorem State.setMailbox_out (x : Mailbox) : (s.setMailbox i x).out = s.out := rfl
@[simp] theorem State.setMailbox_pending (x : Mailbox) : (s.setMailbox i x).pending = s.pending := rfl
@[simp] theorem State.setMailbox_port (x : Mailbox) : (s.setMailbox i x).port j = s.port j := rfl
@[simp] theorem State.setMailbox_shelf (x : Mailbox) : (s.setMailbox i x).shelf j = s.shelf j := rfl
@[simp] theorem State.setMailbox_handle (x : Mailbox) : (s.setMailbox i x).handle j = s.handle j := rfl
@[simp] theorem State.setMailbox_chain (x : Mailbox) : (s.setMailbox i x).chain j = s.chain j := rfl
@[simp] theorem State.setMailbox_quarter (x : Mailbox) : (s.setMailbox i x).quarter j = s.quarter j := rfl
@[simp] theorem State.setMailbox_engine (x : Mailbox) : (s.setMailbox i x).engine j = s.engine j := rfl
@[simp] theorem State.setMailbox_channel (x : Mailbox) : (s.setMailbox i x).channel j = s.channel j := rfl
@[simp] theorem State.setMailbox_core (x : Mailbox) : (s.setMailbox i x).core j = s.core j := rfl

/-! ### `emit` -/

@[simp] theorem State.emit_mode (o : Output) : (s.emit o).mode = s.mode := rfl
@[simp] theorem State.emit_devClk (o : Output) : (s.emit o).devClk = s.devClk := rfl
@[simp] theorem State.emit_sasClk (o : Output) : (s.emit o).sasClk = s.sasClk := rfl
@[simp] theorem State.emit_railsValid (o : Output) : (s.emit o).railsValid = s.railsValid := rfl
@[simp] theorem State.emit_devMs (o : Output) : (s.emit o).devMs = s.devMs := rfl
@[simp] theorem State.emit_devEpoch (o : Output) : (s.emit o).devEpoch = s.devEpoch := rfl
@[simp] theorem State.emit_bif0 (o : Output) : (s.emit o).bif0 = s.bif0 := rfl
@[simp] theorem State.emit_bif1 (o : Output) : (s.emit o).bif1 = s.bif1 := rfl
@[simp] theorem State.emit_adminSel (o : Output) : (s.emit o).adminSel = s.adminSel := rfl
@[simp] theorem State.emit_apportioned (o : Output) : (s.emit o).apportioned = s.apportioned := rfl
@[simp] theorem State.emit_restarts (o : Output) : (s.emit o).restarts = s.restarts := rfl
@[simp] theorem State.emit_waitClock (o : Output) : (s.emit o).waitClock = s.waitClock := rfl
@[simp] theorem State.emit_deviceContain (o : Output) : (s.emit o).deviceContain = s.deviceContain := rfl
@[simp] theorem State.emit_thermTrip (o : Output) : (s.emit o).thermTrip = s.thermTrip := rfl
@[simp] theorem State.emit_sensors (o : Output) : (s.emit o).sensors = s.sensors := rfl
@[simp] theorem State.emit_flash (o : Output) : (s.emit o).flash = s.flash := rfl
@[simp] theorem State.emit_ports (o : Output) : (s.emit o).ports = s.ports := rfl
@[simp] theorem State.emit_trvs (o : Output) : (s.emit o).trvs = s.trvs := rfl
@[simp] theorem State.emit_seqNo (o : Output) : (s.emit o).seqNo = s.seqNo := rfl
@[simp] theorem State.emit_admitting (o : Output) : (s.emit o).admitting = s.admitting := rfl
@[simp] theorem State.emit_reservations (o : Output) : (s.emit o).reservations = s.reservations := rfl
@[simp] theorem State.emit_extents (o : Output) : (s.emit o).extents = s.extents := rfl
@[simp] theorem State.emit_accums (o : Output) : (s.emit o).accums = s.accums := rfl
@[simp] theorem State.emit_mem (o : Output) : (s.emit o).mem = s.mem := rfl
@[simp] theorem State.emit_parked (o : Output) : (s.emit o).parked = s.parked := rfl
@[simp] theorem State.emit_poison (o : Output) : (s.emit o).poison = s.poison := rfl
@[simp] theorem State.emit_flaws (o : Output) : (s.emit o).flaws = s.flaws := rfl
@[simp] theorem State.emit_shelves (o : Output) : (s.emit o).shelves = s.shelves := rfl
@[simp] theorem State.emit_handles (o : Output) : (s.emit o).handles = s.handles := rfl
@[simp] theorem State.emit_chains (o : Output) : (s.emit o).chains = s.chains := rfl
@[simp] theorem State.emit_quarters (o : Output) : (s.emit o).quarters = s.quarters := rfl
@[simp] theorem State.emit_engines (o : Output) : (s.emit o).engines = s.engines := rfl
@[simp] theorem State.emit_dma (o : Output) : (s.emit o).dma = s.dma := rfl
@[simp] theorem State.emit_timers (o : Output) : (s.emit o).timers = s.timers := rfl
@[simp] theorem State.emit_copyQueue (o : Output) : (s.emit o).copyQueue = s.copyQueue := rfl
@[simp] theorem State.emit_cores (o : Output) : (s.emit o).cores = s.cores := rfl
@[simp] theorem State.emit_mailboxes (o : Output) : (s.emit o).mailboxes = s.mailboxes := rfl
@[simp] theorem State.emit_service (o : Output) : (s.emit o).service = s.service := rfl
@[simp] theorem State.emit_stakes (o : Output) : (s.emit o).stakes = s.stakes := rfl
@[simp] theorem State.emit_stakeAsks (o : Output) : (s.emit o).stakeAsks = s.stakeAsks := rfl
@[simp] theorem State.emit_deviceBook (o : Output) : (s.emit o).deviceBook = s.deviceBook := rfl
@[simp] theorem State.emit_sasBooks (o : Output) : (s.emit o).sasBooks = s.sasBooks := rfl
@[simp] theorem State.emit_collector (o : Output) : (s.emit o).collector = s.collector := rfl
@[simp] theorem State.emit_released (o : Output) : (s.emit o).released = s.released := rfl
@[simp] theorem State.emit_frame (o : Output) : (s.emit o).frame = s.frame := rfl
@[simp] theorem State.emit_manage (o : Output) : (s.emit o).manage = s.manage := rfl
@[simp] theorem State.emit_mon (o : Output) : (s.emit o).mon = s.mon := rfl
@[simp] theorem State.emit_view (o : Output) : (s.emit o).view = s.view := rfl
@[simp] theorem State.emit_taps (o : Output) : (s.emit o).taps = s.taps := rfl
@[simp] theorem State.emit_fresh (o : Output) : (s.emit o).fresh = s.fresh := rfl
@[simp] theorem State.emit_pending (o : Output) : (s.emit o).pending = s.pending := rfl
@[simp] theorem State.emit_port (o : Output) : (s.emit o).port j = s.port j := rfl
@[simp] theorem State.emit_shelf (o : Output) : (s.emit o).shelf j = s.shelf j := rfl
@[simp] theorem State.emit_handle (o : Output) : (s.emit o).handle j = s.handle j := rfl
@[simp] theorem State.emit_chain (o : Output) : (s.emit o).chain j = s.chain j := rfl
@[simp] theorem State.emit_quarter (o : Output) : (s.emit o).quarter j = s.quarter j := rfl
@[simp] theorem State.emit_engine (o : Output) : (s.emit o).engine j = s.engine j := rfl
@[simp] theorem State.emit_channel (o : Output) : (s.emit o).channel j = s.channel j := rfl
@[simp] theorem State.emit_core (o : Output) : (s.emit o).core j = s.core j := rfl
@[simp] theorem State.emit_mailbox (o : Output) : (s.emit o).mailbox j = s.mailbox j := rfl

@[simp] theorem State.emit_out (o : Output) : (s.emit o).out = o :: s.out := rfl

/-! ### `putTrv` -/

@[simp] theorem State.putTrv_mode (t : Trv) : (s.putTrv t).mode = s.mode := rfl
@[simp] theorem State.putTrv_devClk (t : Trv) : (s.putTrv t).devClk = s.devClk := rfl
@[simp] theorem State.putTrv_sasClk (t : Trv) : (s.putTrv t).sasClk = s.sasClk := rfl
@[simp] theorem State.putTrv_railsValid (t : Trv) : (s.putTrv t).railsValid = s.railsValid := rfl
@[simp] theorem State.putTrv_devMs (t : Trv) : (s.putTrv t).devMs = s.devMs := rfl
@[simp] theorem State.putTrv_devEpoch (t : Trv) : (s.putTrv t).devEpoch = s.devEpoch := rfl
@[simp] theorem State.putTrv_bif0 (t : Trv) : (s.putTrv t).bif0 = s.bif0 := rfl
@[simp] theorem State.putTrv_bif1 (t : Trv) : (s.putTrv t).bif1 = s.bif1 := rfl
@[simp] theorem State.putTrv_adminSel (t : Trv) : (s.putTrv t).adminSel = s.adminSel := rfl
@[simp] theorem State.putTrv_apportioned (t : Trv) : (s.putTrv t).apportioned = s.apportioned := rfl
@[simp] theorem State.putTrv_restarts (t : Trv) : (s.putTrv t).restarts = s.restarts := rfl
@[simp] theorem State.putTrv_waitClock (t : Trv) : (s.putTrv t).waitClock = s.waitClock := rfl
@[simp] theorem State.putTrv_deviceContain (t : Trv) : (s.putTrv t).deviceContain = s.deviceContain := rfl
@[simp] theorem State.putTrv_thermTrip (t : Trv) : (s.putTrv t).thermTrip = s.thermTrip := rfl
@[simp] theorem State.putTrv_sensors (t : Trv) : (s.putTrv t).sensors = s.sensors := rfl
@[simp] theorem State.putTrv_flash (t : Trv) : (s.putTrv t).flash = s.flash := rfl
@[simp] theorem State.putTrv_ports (t : Trv) : (s.putTrv t).ports = s.ports := rfl
@[simp] theorem State.putTrv_seqNo (t : Trv) : (s.putTrv t).seqNo = s.seqNo := rfl
@[simp] theorem State.putTrv_admitting (t : Trv) : (s.putTrv t).admitting = s.admitting := rfl
@[simp] theorem State.putTrv_reservations (t : Trv) : (s.putTrv t).reservations = s.reservations := rfl
@[simp] theorem State.putTrv_extents (t : Trv) : (s.putTrv t).extents = s.extents := rfl
@[simp] theorem State.putTrv_accums (t : Trv) : (s.putTrv t).accums = s.accums := rfl
@[simp] theorem State.putTrv_mem (t : Trv) : (s.putTrv t).mem = s.mem := rfl
@[simp] theorem State.putTrv_parked (t : Trv) : (s.putTrv t).parked = s.parked := rfl
@[simp] theorem State.putTrv_poison (t : Trv) : (s.putTrv t).poison = s.poison := rfl
@[simp] theorem State.putTrv_flaws (t : Trv) : (s.putTrv t).flaws = s.flaws := rfl
@[simp] theorem State.putTrv_shelves (t : Trv) : (s.putTrv t).shelves = s.shelves := rfl
@[simp] theorem State.putTrv_handles (t : Trv) : (s.putTrv t).handles = s.handles := rfl
@[simp] theorem State.putTrv_chains (t : Trv) : (s.putTrv t).chains = s.chains := rfl
@[simp] theorem State.putTrv_quarters (t : Trv) : (s.putTrv t).quarters = s.quarters := rfl
@[simp] theorem State.putTrv_engines (t : Trv) : (s.putTrv t).engines = s.engines := rfl
@[simp] theorem State.putTrv_dma (t : Trv) : (s.putTrv t).dma = s.dma := rfl
@[simp] theorem State.putTrv_timers (t : Trv) : (s.putTrv t).timers = s.timers := rfl
@[simp] theorem State.putTrv_copyQueue (t : Trv) : (s.putTrv t).copyQueue = s.copyQueue := rfl
@[simp] theorem State.putTrv_cores (t : Trv) : (s.putTrv t).cores = s.cores := rfl
@[simp] theorem State.putTrv_mailboxes (t : Trv) : (s.putTrv t).mailboxes = s.mailboxes := rfl
@[simp] theorem State.putTrv_service (t : Trv) : (s.putTrv t).service = s.service := rfl
@[simp] theorem State.putTrv_stakes (t : Trv) : (s.putTrv t).stakes = s.stakes := rfl
@[simp] theorem State.putTrv_stakeAsks (t : Trv) : (s.putTrv t).stakeAsks = s.stakeAsks := rfl
@[simp] theorem State.putTrv_deviceBook (t : Trv) : (s.putTrv t).deviceBook = s.deviceBook := rfl
@[simp] theorem State.putTrv_sasBooks (t : Trv) : (s.putTrv t).sasBooks = s.sasBooks := rfl
@[simp] theorem State.putTrv_collector (t : Trv) : (s.putTrv t).collector = s.collector := rfl
@[simp] theorem State.putTrv_released (t : Trv) : (s.putTrv t).released = s.released := rfl
@[simp] theorem State.putTrv_frame (t : Trv) : (s.putTrv t).frame = s.frame := rfl
@[simp] theorem State.putTrv_manage (t : Trv) : (s.putTrv t).manage = s.manage := rfl
@[simp] theorem State.putTrv_mon (t : Trv) : (s.putTrv t).mon = s.mon := rfl
@[simp] theorem State.putTrv_view (t : Trv) : (s.putTrv t).view = s.view := rfl
@[simp] theorem State.putTrv_taps (t : Trv) : (s.putTrv t).taps = s.taps := rfl
@[simp] theorem State.putTrv_fresh (t : Trv) : (s.putTrv t).fresh = s.fresh := rfl
@[simp] theorem State.putTrv_out (t : Trv) : (s.putTrv t).out = s.out := rfl
@[simp] theorem State.putTrv_pending (t : Trv) : (s.putTrv t).pending = s.pending := rfl
@[simp] theorem State.putTrv_port (t : Trv) : (s.putTrv t).port j = s.port j := rfl
@[simp] theorem State.putTrv_shelf (t : Trv) : (s.putTrv t).shelf j = s.shelf j := rfl
@[simp] theorem State.putTrv_handle (t : Trv) : (s.putTrv t).handle j = s.handle j := rfl
@[simp] theorem State.putTrv_chain (t : Trv) : (s.putTrv t).chain j = s.chain j := rfl
@[simp] theorem State.putTrv_quarter (t : Trv) : (s.putTrv t).quarter j = s.quarter j := rfl
@[simp] theorem State.putTrv_engine (t : Trv) : (s.putTrv t).engine j = s.engine j := rfl
@[simp] theorem State.putTrv_channel (t : Trv) : (s.putTrv t).channel j = s.channel j := rfl
@[simp] theorem State.putTrv_core (t : Trv) : (s.putTrv t).core j = s.core j := rfl
@[simp] theorem State.putTrv_mailbox (t : Trv) : (s.putTrv t).mailbox j = s.mailbox j := rfl

/-! ### `dropTrv` -/

@[simp] theorem State.dropTrv_mode (p tag : Nat) : (s.dropTrv p tag).mode = s.mode := rfl
@[simp] theorem State.dropTrv_devClk (p tag : Nat) : (s.dropTrv p tag).devClk = s.devClk := rfl
@[simp] theorem State.dropTrv_sasClk (p tag : Nat) : (s.dropTrv p tag).sasClk = s.sasClk := rfl
@[simp] theorem State.dropTrv_railsValid (p tag : Nat) : (s.dropTrv p tag).railsValid = s.railsValid := rfl
@[simp] theorem State.dropTrv_devMs (p tag : Nat) : (s.dropTrv p tag).devMs = s.devMs := rfl
@[simp] theorem State.dropTrv_devEpoch (p tag : Nat) : (s.dropTrv p tag).devEpoch = s.devEpoch := rfl
@[simp] theorem State.dropTrv_bif0 (p tag : Nat) : (s.dropTrv p tag).bif0 = s.bif0 := rfl
@[simp] theorem State.dropTrv_bif1 (p tag : Nat) : (s.dropTrv p tag).bif1 = s.bif1 := rfl
@[simp] theorem State.dropTrv_adminSel (p tag : Nat) : (s.dropTrv p tag).adminSel = s.adminSel := rfl
@[simp] theorem State.dropTrv_apportioned (p tag : Nat) : (s.dropTrv p tag).apportioned = s.apportioned := rfl
@[simp] theorem State.dropTrv_restarts (p tag : Nat) : (s.dropTrv p tag).restarts = s.restarts := rfl
@[simp] theorem State.dropTrv_waitClock (p tag : Nat) : (s.dropTrv p tag).waitClock = s.waitClock := rfl
@[simp] theorem State.dropTrv_deviceContain (p tag : Nat) : (s.dropTrv p tag).deviceContain = s.deviceContain := rfl
@[simp] theorem State.dropTrv_thermTrip (p tag : Nat) : (s.dropTrv p tag).thermTrip = s.thermTrip := rfl
@[simp] theorem State.dropTrv_sensors (p tag : Nat) : (s.dropTrv p tag).sensors = s.sensors := rfl
@[simp] theorem State.dropTrv_flash (p tag : Nat) : (s.dropTrv p tag).flash = s.flash := rfl
@[simp] theorem State.dropTrv_ports (p tag : Nat) : (s.dropTrv p tag).ports = s.ports := rfl
@[simp] theorem State.dropTrv_seqNo (p tag : Nat) : (s.dropTrv p tag).seqNo = s.seqNo := rfl
@[simp] theorem State.dropTrv_admitting (p tag : Nat) : (s.dropTrv p tag).admitting = s.admitting := rfl
@[simp] theorem State.dropTrv_reservations (p tag : Nat) : (s.dropTrv p tag).reservations = s.reservations := rfl
@[simp] theorem State.dropTrv_extents (p tag : Nat) : (s.dropTrv p tag).extents = s.extents := rfl
@[simp] theorem State.dropTrv_accums (p tag : Nat) : (s.dropTrv p tag).accums = s.accums := rfl
@[simp] theorem State.dropTrv_mem (p tag : Nat) : (s.dropTrv p tag).mem = s.mem := rfl
@[simp] theorem State.dropTrv_parked (p tag : Nat) : (s.dropTrv p tag).parked = s.parked := rfl
@[simp] theorem State.dropTrv_poison (p tag : Nat) : (s.dropTrv p tag).poison = s.poison := rfl
@[simp] theorem State.dropTrv_flaws (p tag : Nat) : (s.dropTrv p tag).flaws = s.flaws := rfl
@[simp] theorem State.dropTrv_shelves (p tag : Nat) : (s.dropTrv p tag).shelves = s.shelves := rfl
@[simp] theorem State.dropTrv_handles (p tag : Nat) : (s.dropTrv p tag).handles = s.handles := rfl
@[simp] theorem State.dropTrv_chains (p tag : Nat) : (s.dropTrv p tag).chains = s.chains := rfl
@[simp] theorem State.dropTrv_quarters (p tag : Nat) : (s.dropTrv p tag).quarters = s.quarters := rfl
@[simp] theorem State.dropTrv_engines (p tag : Nat) : (s.dropTrv p tag).engines = s.engines := rfl
@[simp] theorem State.dropTrv_dma (p tag : Nat) : (s.dropTrv p tag).dma = s.dma := rfl
@[simp] theorem State.dropTrv_timers (p tag : Nat) : (s.dropTrv p tag).timers = s.timers := rfl
@[simp] theorem State.dropTrv_copyQueue (p tag : Nat) : (s.dropTrv p tag).copyQueue = s.copyQueue := rfl
@[simp] theorem State.dropTrv_cores (p tag : Nat) : (s.dropTrv p tag).cores = s.cores := rfl
@[simp] theorem State.dropTrv_mailboxes (p tag : Nat) : (s.dropTrv p tag).mailboxes = s.mailboxes := rfl
@[simp] theorem State.dropTrv_service (p tag : Nat) : (s.dropTrv p tag).service = s.service := rfl
@[simp] theorem State.dropTrv_stakes (p tag : Nat) : (s.dropTrv p tag).stakes = s.stakes := rfl
@[simp] theorem State.dropTrv_stakeAsks (p tag : Nat) : (s.dropTrv p tag).stakeAsks = s.stakeAsks := rfl
@[simp] theorem State.dropTrv_deviceBook (p tag : Nat) : (s.dropTrv p tag).deviceBook = s.deviceBook := rfl
@[simp] theorem State.dropTrv_sasBooks (p tag : Nat) : (s.dropTrv p tag).sasBooks = s.sasBooks := rfl
@[simp] theorem State.dropTrv_collector (p tag : Nat) : (s.dropTrv p tag).collector = s.collector := rfl
@[simp] theorem State.dropTrv_released (p tag : Nat) : (s.dropTrv p tag).released = s.released := rfl
@[simp] theorem State.dropTrv_frame (p tag : Nat) : (s.dropTrv p tag).frame = s.frame := rfl
@[simp] theorem State.dropTrv_manage (p tag : Nat) : (s.dropTrv p tag).manage = s.manage := rfl
@[simp] theorem State.dropTrv_mon (p tag : Nat) : (s.dropTrv p tag).mon = s.mon := rfl
@[simp] theorem State.dropTrv_view (p tag : Nat) : (s.dropTrv p tag).view = s.view := rfl
@[simp] theorem State.dropTrv_taps (p tag : Nat) : (s.dropTrv p tag).taps = s.taps := rfl
@[simp] theorem State.dropTrv_fresh (p tag : Nat) : (s.dropTrv p tag).fresh = s.fresh := rfl
@[simp] theorem State.dropTrv_out (p tag : Nat) : (s.dropTrv p tag).out = s.out := rfl
@[simp] theorem State.dropTrv_pending (p tag : Nat) : (s.dropTrv p tag).pending = s.pending := rfl
@[simp] theorem State.dropTrv_port (p tag : Nat) : (s.dropTrv p tag).port j = s.port j := rfl
@[simp] theorem State.dropTrv_shelf (p tag : Nat) : (s.dropTrv p tag).shelf j = s.shelf j := rfl
@[simp] theorem State.dropTrv_handle (p tag : Nat) : (s.dropTrv p tag).handle j = s.handle j := rfl
@[simp] theorem State.dropTrv_chain (p tag : Nat) : (s.dropTrv p tag).chain j = s.chain j := rfl
@[simp] theorem State.dropTrv_quarter (p tag : Nat) : (s.dropTrv p tag).quarter j = s.quarter j := rfl
@[simp] theorem State.dropTrv_engine (p tag : Nat) : (s.dropTrv p tag).engine j = s.engine j := rfl
@[simp] theorem State.dropTrv_channel (p tag : Nat) : (s.dropTrv p tag).channel j = s.channel j := rfl
@[simp] theorem State.dropTrv_core (p tag : Nat) : (s.dropTrv p tag).core j = s.core j := rfl
@[simp] theorem State.dropTrv_mailbox (p tag : Nat) : (s.dropTrv p tag).mailbox j = s.mailbox j := rfl

/-! ### `countTlp` -/

@[simp] theorem State.countTlp_mode (p d tenant n : Nat) : (s.countTlp p d tenant n).mode = s.mode := rfl
@[simp] theorem State.countTlp_devClk (p d tenant n : Nat) : (s.countTlp p d tenant n).devClk = s.devClk := rfl
@[simp] theorem State.countTlp_sasClk (p d tenant n : Nat) : (s.countTlp p d tenant n).sasClk = s.sasClk := rfl
@[simp] theorem State.countTlp_railsValid (p d tenant n : Nat) : (s.countTlp p d tenant n).railsValid = s.railsValid := rfl
@[simp] theorem State.countTlp_devMs (p d tenant n : Nat) : (s.countTlp p d tenant n).devMs = s.devMs := rfl
@[simp] theorem State.countTlp_devEpoch (p d tenant n : Nat) : (s.countTlp p d tenant n).devEpoch = s.devEpoch := rfl
@[simp] theorem State.countTlp_bif0 (p d tenant n : Nat) : (s.countTlp p d tenant n).bif0 = s.bif0 := rfl
@[simp] theorem State.countTlp_bif1 (p d tenant n : Nat) : (s.countTlp p d tenant n).bif1 = s.bif1 := rfl
@[simp] theorem State.countTlp_adminSel (p d tenant n : Nat) : (s.countTlp p d tenant n).adminSel = s.adminSel := rfl
@[simp] theorem State.countTlp_apportioned (p d tenant n : Nat) : (s.countTlp p d tenant n).apportioned = s.apportioned := rfl
@[simp] theorem State.countTlp_restarts (p d tenant n : Nat) : (s.countTlp p d tenant n).restarts = s.restarts := rfl
@[simp] theorem State.countTlp_waitClock (p d tenant n : Nat) : (s.countTlp p d tenant n).waitClock = s.waitClock := rfl
@[simp] theorem State.countTlp_deviceContain (p d tenant n : Nat) : (s.countTlp p d tenant n).deviceContain = s.deviceContain := rfl
@[simp] theorem State.countTlp_thermTrip (p d tenant n : Nat) : (s.countTlp p d tenant n).thermTrip = s.thermTrip := rfl
@[simp] theorem State.countTlp_sensors (p d tenant n : Nat) : (s.countTlp p d tenant n).sensors = s.sensors := rfl
@[simp] theorem State.countTlp_flash (p d tenant n : Nat) : (s.countTlp p d tenant n).flash = s.flash := rfl
@[simp] theorem State.countTlp_ports (p d tenant n : Nat) : (s.countTlp p d tenant n).ports = s.ports := rfl
@[simp] theorem State.countTlp_trvs (p d tenant n : Nat) : (s.countTlp p d tenant n).trvs = s.trvs := rfl
@[simp] theorem State.countTlp_seqNo (p d tenant n : Nat) : (s.countTlp p d tenant n).seqNo = s.seqNo := rfl
@[simp] theorem State.countTlp_admitting (p d tenant n : Nat) : (s.countTlp p d tenant n).admitting = s.admitting := rfl
@[simp] theorem State.countTlp_reservations (p d tenant n : Nat) : (s.countTlp p d tenant n).reservations = s.reservations := rfl
@[simp] theorem State.countTlp_extents (p d tenant n : Nat) : (s.countTlp p d tenant n).extents = s.extents := rfl
@[simp] theorem State.countTlp_accums (p d tenant n : Nat) : (s.countTlp p d tenant n).accums = s.accums := rfl
@[simp] theorem State.countTlp_mem (p d tenant n : Nat) : (s.countTlp p d tenant n).mem = s.mem := rfl
@[simp] theorem State.countTlp_parked (p d tenant n : Nat) : (s.countTlp p d tenant n).parked = s.parked := rfl
@[simp] theorem State.countTlp_poison (p d tenant n : Nat) : (s.countTlp p d tenant n).poison = s.poison := rfl
@[simp] theorem State.countTlp_flaws (p d tenant n : Nat) : (s.countTlp p d tenant n).flaws = s.flaws := rfl
@[simp] theorem State.countTlp_shelves (p d tenant n : Nat) : (s.countTlp p d tenant n).shelves = s.shelves := rfl
@[simp] theorem State.countTlp_handles (p d tenant n : Nat) : (s.countTlp p d tenant n).handles = s.handles := rfl
@[simp] theorem State.countTlp_chains (p d tenant n : Nat) : (s.countTlp p d tenant n).chains = s.chains := rfl
@[simp] theorem State.countTlp_quarters (p d tenant n : Nat) : (s.countTlp p d tenant n).quarters = s.quarters := rfl
@[simp] theorem State.countTlp_engines (p d tenant n : Nat) : (s.countTlp p d tenant n).engines = s.engines := rfl
@[simp] theorem State.countTlp_dma (p d tenant n : Nat) : (s.countTlp p d tenant n).dma = s.dma := rfl
@[simp] theorem State.countTlp_timers (p d tenant n : Nat) : (s.countTlp p d tenant n).timers = s.timers := rfl
@[simp] theorem State.countTlp_copyQueue (p d tenant n : Nat) : (s.countTlp p d tenant n).copyQueue = s.copyQueue := rfl
@[simp] theorem State.countTlp_cores (p d tenant n : Nat) : (s.countTlp p d tenant n).cores = s.cores := rfl
@[simp] theorem State.countTlp_mailboxes (p d tenant n : Nat) : (s.countTlp p d tenant n).mailboxes = s.mailboxes := rfl
@[simp] theorem State.countTlp_service (p d tenant n : Nat) : (s.countTlp p d tenant n).service = s.service := rfl
@[simp] theorem State.countTlp_stakes (p d tenant n : Nat) : (s.countTlp p d tenant n).stakes = s.stakes := rfl
@[simp] theorem State.countTlp_stakeAsks (p d tenant n : Nat) : (s.countTlp p d tenant n).stakeAsks = s.stakeAsks := rfl
@[simp] theorem State.countTlp_deviceBook (p d tenant n : Nat) : (s.countTlp p d tenant n).deviceBook = s.deviceBook := rfl
@[simp] theorem State.countTlp_sasBooks (p d tenant n : Nat) : (s.countTlp p d tenant n).sasBooks = s.sasBooks := rfl
@[simp] theorem State.countTlp_collector (p d tenant n : Nat) : (s.countTlp p d tenant n).collector = s.collector := rfl
@[simp] theorem State.countTlp_released (p d tenant n : Nat) : (s.countTlp p d tenant n).released = s.released := rfl
@[simp] theorem State.countTlp_frame (p d tenant n : Nat) : (s.countTlp p d tenant n).frame = s.frame := rfl
@[simp] theorem State.countTlp_manage (p d tenant n : Nat) : (s.countTlp p d tenant n).manage = s.manage := rfl
@[simp] theorem State.countTlp_mon (p d tenant n : Nat) : (s.countTlp p d tenant n).mon = s.mon := rfl
@[simp] theorem State.countTlp_fresh (p d tenant n : Nat) : (s.countTlp p d tenant n).fresh = s.fresh := rfl
@[simp] theorem State.countTlp_out (p d tenant n : Nat) : (s.countTlp p d tenant n).out = s.out := rfl
@[simp] theorem State.countTlp_pending (p d tenant n : Nat) : (s.countTlp p d tenant n).pending = s.pending := rfl
@[simp] theorem State.countTlp_port (p d tenant n : Nat) : (s.countTlp p d tenant n).port j = s.port j := rfl
@[simp] theorem State.countTlp_shelf (p d tenant n : Nat) : (s.countTlp p d tenant n).shelf j = s.shelf j := rfl
@[simp] theorem State.countTlp_handle (p d tenant n : Nat) : (s.countTlp p d tenant n).handle j = s.handle j := rfl
@[simp] theorem State.countTlp_chain (p d tenant n : Nat) : (s.countTlp p d tenant n).chain j = s.chain j := rfl
@[simp] theorem State.countTlp_quarter (p d tenant n : Nat) : (s.countTlp p d tenant n).quarter j = s.quarter j := rfl
@[simp] theorem State.countTlp_engine (p d tenant n : Nat) : (s.countTlp p d tenant n).engine j = s.engine j := rfl
@[simp] theorem State.countTlp_channel (p d tenant n : Nat) : (s.countTlp p d tenant n).channel j = s.channel j := rfl
@[simp] theorem State.countTlp_core (p d tenant n : Nat) : (s.countTlp p d tenant n).core j = s.core j := rfl
@[simp] theorem State.countTlp_mailbox (p d tenant n : Nat) : (s.countTlp p d tenant n).mailbox j = s.mailbox j := rfl

/-! ### `hostTlp` -/

@[simp] theorem State.hostTlp_mode (p d n : Nat) : (s.hostTlp p d n).mode = s.mode := by unfold State.hostTlp; split <;> rfl
@[simp] theorem State.hostTlp_devClk (p d n : Nat) : (s.hostTlp p d n).devClk = s.devClk := by unfold State.hostTlp; split <;> rfl
@[simp] theorem State.hostTlp_sasClk (p d n : Nat) : (s.hostTlp p d n).sasClk = s.sasClk := by unfold State.hostTlp; split <;> rfl
@[simp] theorem State.hostTlp_railsValid (p d n : Nat) : (s.hostTlp p d n).railsValid = s.railsValid := by unfold State.hostTlp; split <;> rfl
@[simp] theorem State.hostTlp_devMs (p d n : Nat) : (s.hostTlp p d n).devMs = s.devMs := by unfold State.hostTlp; split <;> rfl
@[simp] theorem State.hostTlp_devEpoch (p d n : Nat) : (s.hostTlp p d n).devEpoch = s.devEpoch := by unfold State.hostTlp; split <;> rfl
@[simp] theorem State.hostTlp_bif0 (p d n : Nat) : (s.hostTlp p d n).bif0 = s.bif0 := by unfold State.hostTlp; split <;> rfl
@[simp] theorem State.hostTlp_bif1 (p d n : Nat) : (s.hostTlp p d n).bif1 = s.bif1 := by unfold State.hostTlp; split <;> rfl
@[simp] theorem State.hostTlp_adminSel (p d n : Nat) : (s.hostTlp p d n).adminSel = s.adminSel := by unfold State.hostTlp; split <;> rfl
@[simp] theorem State.hostTlp_apportioned (p d n : Nat) : (s.hostTlp p d n).apportioned = s.apportioned := by unfold State.hostTlp; split <;> rfl
@[simp] theorem State.hostTlp_restarts (p d n : Nat) : (s.hostTlp p d n).restarts = s.restarts := by unfold State.hostTlp; split <;> rfl
@[simp] theorem State.hostTlp_waitClock (p d n : Nat) : (s.hostTlp p d n).waitClock = s.waitClock := by unfold State.hostTlp; split <;> rfl
@[simp] theorem State.hostTlp_deviceContain (p d n : Nat) : (s.hostTlp p d n).deviceContain = s.deviceContain := by unfold State.hostTlp; split <;> rfl
@[simp] theorem State.hostTlp_thermTrip (p d n : Nat) : (s.hostTlp p d n).thermTrip = s.thermTrip := by unfold State.hostTlp; split <;> rfl
@[simp] theorem State.hostTlp_sensors (p d n : Nat) : (s.hostTlp p d n).sensors = s.sensors := by unfold State.hostTlp; split <;> rfl
@[simp] theorem State.hostTlp_flash (p d n : Nat) : (s.hostTlp p d n).flash = s.flash := by unfold State.hostTlp; split <;> rfl
@[simp] theorem State.hostTlp_ports (p d n : Nat) : (s.hostTlp p d n).ports = s.ports := by unfold State.hostTlp; split <;> rfl
@[simp] theorem State.hostTlp_trvs (p d n : Nat) : (s.hostTlp p d n).trvs = s.trvs := by unfold State.hostTlp; split <;> rfl
@[simp] theorem State.hostTlp_seqNo (p d n : Nat) : (s.hostTlp p d n).seqNo = s.seqNo := by unfold State.hostTlp; split <;> rfl
@[simp] theorem State.hostTlp_admitting (p d n : Nat) : (s.hostTlp p d n).admitting = s.admitting := by unfold State.hostTlp; split <;> rfl
@[simp] theorem State.hostTlp_reservations (p d n : Nat) : (s.hostTlp p d n).reservations = s.reservations := by unfold State.hostTlp; split <;> rfl
@[simp] theorem State.hostTlp_extents (p d n : Nat) : (s.hostTlp p d n).extents = s.extents := by unfold State.hostTlp; split <;> rfl
@[simp] theorem State.hostTlp_accums (p d n : Nat) : (s.hostTlp p d n).accums = s.accums := by unfold State.hostTlp; split <;> rfl
@[simp] theorem State.hostTlp_mem (p d n : Nat) : (s.hostTlp p d n).mem = s.mem := by unfold State.hostTlp; split <;> rfl
@[simp] theorem State.hostTlp_parked (p d n : Nat) : (s.hostTlp p d n).parked = s.parked := by unfold State.hostTlp; split <;> rfl
@[simp] theorem State.hostTlp_poison (p d n : Nat) : (s.hostTlp p d n).poison = s.poison := by unfold State.hostTlp; split <;> rfl
@[simp] theorem State.hostTlp_flaws (p d n : Nat) : (s.hostTlp p d n).flaws = s.flaws := by unfold State.hostTlp; split <;> rfl
@[simp] theorem State.hostTlp_shelves (p d n : Nat) : (s.hostTlp p d n).shelves = s.shelves := by unfold State.hostTlp; split <;> rfl
@[simp] theorem State.hostTlp_handles (p d n : Nat) : (s.hostTlp p d n).handles = s.handles := by unfold State.hostTlp; split <;> rfl
@[simp] theorem State.hostTlp_chains (p d n : Nat) : (s.hostTlp p d n).chains = s.chains := by unfold State.hostTlp; split <;> rfl
@[simp] theorem State.hostTlp_quarters (p d n : Nat) : (s.hostTlp p d n).quarters = s.quarters := by unfold State.hostTlp; split <;> rfl
@[simp] theorem State.hostTlp_engines (p d n : Nat) : (s.hostTlp p d n).engines = s.engines := by unfold State.hostTlp; split <;> rfl
@[simp] theorem State.hostTlp_dma (p d n : Nat) : (s.hostTlp p d n).dma = s.dma := by unfold State.hostTlp; split <;> rfl
@[simp] theorem State.hostTlp_timers (p d n : Nat) : (s.hostTlp p d n).timers = s.timers := by unfold State.hostTlp; split <;> rfl
@[simp] theorem State.hostTlp_copyQueue (p d n : Nat) : (s.hostTlp p d n).copyQueue = s.copyQueue := by unfold State.hostTlp; split <;> rfl
@[simp] theorem State.hostTlp_cores (p d n : Nat) : (s.hostTlp p d n).cores = s.cores := by unfold State.hostTlp; split <;> rfl
@[simp] theorem State.hostTlp_mailboxes (p d n : Nat) : (s.hostTlp p d n).mailboxes = s.mailboxes := by unfold State.hostTlp; split <;> rfl
@[simp] theorem State.hostTlp_service (p d n : Nat) : (s.hostTlp p d n).service = s.service := by unfold State.hostTlp; split <;> rfl
@[simp] theorem State.hostTlp_stakes (p d n : Nat) : (s.hostTlp p d n).stakes = s.stakes := by unfold State.hostTlp; split <;> rfl
@[simp] theorem State.hostTlp_stakeAsks (p d n : Nat) : (s.hostTlp p d n).stakeAsks = s.stakeAsks := by unfold State.hostTlp; split <;> rfl
@[simp] theorem State.hostTlp_deviceBook (p d n : Nat) : (s.hostTlp p d n).deviceBook = s.deviceBook := by unfold State.hostTlp; split <;> rfl
@[simp] theorem State.hostTlp_sasBooks (p d n : Nat) : (s.hostTlp p d n).sasBooks = s.sasBooks := by unfold State.hostTlp; split <;> rfl
@[simp] theorem State.hostTlp_collector (p d n : Nat) : (s.hostTlp p d n).collector = s.collector := by unfold State.hostTlp; split <;> rfl
@[simp] theorem State.hostTlp_released (p d n : Nat) : (s.hostTlp p d n).released = s.released := by unfold State.hostTlp; split <;> rfl
@[simp] theorem State.hostTlp_frame (p d n : Nat) : (s.hostTlp p d n).frame = s.frame := by unfold State.hostTlp; split <;> rfl
@[simp] theorem State.hostTlp_manage (p d n : Nat) : (s.hostTlp p d n).manage = s.manage := by unfold State.hostTlp; split <;> rfl
@[simp] theorem State.hostTlp_mon (p d n : Nat) : (s.hostTlp p d n).mon = s.mon := by unfold State.hostTlp; split <;> rfl
@[simp] theorem State.hostTlp_fresh (p d n : Nat) : (s.hostTlp p d n).fresh = s.fresh := by unfold State.hostTlp; split <;> rfl
@[simp] theorem State.hostTlp_out (p d n : Nat) : (s.hostTlp p d n).out = s.out := by unfold State.hostTlp; split <;> rfl
@[simp] theorem State.hostTlp_pending (p d n : Nat) : (s.hostTlp p d n).pending = s.pending := by unfold State.hostTlp; split <;> rfl
@[simp] theorem State.hostTlp_port (p d n : Nat) : (s.hostTlp p d n).port j = s.port j := by unfold State.hostTlp; split <;> rfl
@[simp] theorem State.hostTlp_shelf (p d n : Nat) : (s.hostTlp p d n).shelf j = s.shelf j := by unfold State.hostTlp; split <;> rfl
@[simp] theorem State.hostTlp_handle (p d n : Nat) : (s.hostTlp p d n).handle j = s.handle j := by unfold State.hostTlp; split <;> rfl
@[simp] theorem State.hostTlp_chain (p d n : Nat) : (s.hostTlp p d n).chain j = s.chain j := by unfold State.hostTlp; split <;> rfl
@[simp] theorem State.hostTlp_quarter (p d n : Nat) : (s.hostTlp p d n).quarter j = s.quarter j := by unfold State.hostTlp; split <;> rfl
@[simp] theorem State.hostTlp_engine (p d n : Nat) : (s.hostTlp p d n).engine j = s.engine j := by unfold State.hostTlp; split <;> rfl
@[simp] theorem State.hostTlp_channel (p d n : Nat) : (s.hostTlp p d n).channel j = s.channel j := by unfold State.hostTlp; split <;> rfl
@[simp] theorem State.hostTlp_core (p d n : Nat) : (s.hostTlp p d n).core j = s.core j := by unfold State.hostTlp; split <;> rfl
@[simp] theorem State.hostTlp_mailbox (p d n : Nat) : (s.hostTlp p d n).mailbox j = s.mailbox j := by unfold State.hostTlp; split <;> rfl

/-! ### `collect` -/

@[simp] theorem State.collect_mode (e : Option Nat) (c : Completion) : (s.collect e c).mode = s.mode := rfl
@[simp] theorem State.collect_devClk (e : Option Nat) (c : Completion) : (s.collect e c).devClk = s.devClk := rfl
@[simp] theorem State.collect_sasClk (e : Option Nat) (c : Completion) : (s.collect e c).sasClk = s.sasClk := rfl
@[simp] theorem State.collect_railsValid (e : Option Nat) (c : Completion) : (s.collect e c).railsValid = s.railsValid := rfl
@[simp] theorem State.collect_devMs (e : Option Nat) (c : Completion) : (s.collect e c).devMs = s.devMs := rfl
@[simp] theorem State.collect_devEpoch (e : Option Nat) (c : Completion) : (s.collect e c).devEpoch = s.devEpoch := rfl
@[simp] theorem State.collect_bif0 (e : Option Nat) (c : Completion) : (s.collect e c).bif0 = s.bif0 := rfl
@[simp] theorem State.collect_bif1 (e : Option Nat) (c : Completion) : (s.collect e c).bif1 = s.bif1 := rfl
@[simp] theorem State.collect_adminSel (e : Option Nat) (c : Completion) : (s.collect e c).adminSel = s.adminSel := rfl
@[simp] theorem State.collect_apportioned (e : Option Nat) (c : Completion) : (s.collect e c).apportioned = s.apportioned := rfl
@[simp] theorem State.collect_restarts (e : Option Nat) (c : Completion) : (s.collect e c).restarts = s.restarts := rfl
@[simp] theorem State.collect_waitClock (e : Option Nat) (c : Completion) : (s.collect e c).waitClock = s.waitClock := rfl
@[simp] theorem State.collect_deviceContain (e : Option Nat) (c : Completion) : (s.collect e c).deviceContain = s.deviceContain := rfl
@[simp] theorem State.collect_thermTrip (e : Option Nat) (c : Completion) : (s.collect e c).thermTrip = s.thermTrip := rfl
@[simp] theorem State.collect_sensors (e : Option Nat) (c : Completion) : (s.collect e c).sensors = s.sensors := rfl
@[simp] theorem State.collect_flash (e : Option Nat) (c : Completion) : (s.collect e c).flash = s.flash := rfl
@[simp] theorem State.collect_ports (e : Option Nat) (c : Completion) : (s.collect e c).ports = s.ports := rfl
@[simp] theorem State.collect_trvs (e : Option Nat) (c : Completion) : (s.collect e c).trvs = s.trvs := rfl
@[simp] theorem State.collect_seqNo (e : Option Nat) (c : Completion) : (s.collect e c).seqNo = s.seqNo := rfl
@[simp] theorem State.collect_admitting (e : Option Nat) (c : Completion) : (s.collect e c).admitting = s.admitting := rfl
@[simp] theorem State.collect_reservations (e : Option Nat) (c : Completion) : (s.collect e c).reservations = s.reservations := rfl
@[simp] theorem State.collect_extents (e : Option Nat) (c : Completion) : (s.collect e c).extents = s.extents := rfl
@[simp] theorem State.collect_accums (e : Option Nat) (c : Completion) : (s.collect e c).accums = s.accums := rfl
@[simp] theorem State.collect_mem (e : Option Nat) (c : Completion) : (s.collect e c).mem = s.mem := rfl
@[simp] theorem State.collect_parked (e : Option Nat) (c : Completion) : (s.collect e c).parked = s.parked := rfl
@[simp] theorem State.collect_poison (e : Option Nat) (c : Completion) : (s.collect e c).poison = s.poison := rfl
@[simp] theorem State.collect_flaws (e : Option Nat) (c : Completion) : (s.collect e c).flaws = s.flaws := rfl
@[simp] theorem State.collect_shelves (e : Option Nat) (c : Completion) : (s.collect e c).shelves = s.shelves := rfl
@[simp] theorem State.collect_handles (e : Option Nat) (c : Completion) : (s.collect e c).handles = s.handles := rfl
@[simp] theorem State.collect_chains (e : Option Nat) (c : Completion) : (s.collect e c).chains = s.chains := rfl
@[simp] theorem State.collect_quarters (e : Option Nat) (c : Completion) : (s.collect e c).quarters = s.quarters := rfl
@[simp] theorem State.collect_engines (e : Option Nat) (c : Completion) : (s.collect e c).engines = s.engines := rfl
@[simp] theorem State.collect_dma (e : Option Nat) (c : Completion) : (s.collect e c).dma = s.dma := rfl
@[simp] theorem State.collect_timers (e : Option Nat) (c : Completion) : (s.collect e c).timers = s.timers := rfl
@[simp] theorem State.collect_copyQueue (e : Option Nat) (c : Completion) : (s.collect e c).copyQueue = s.copyQueue := rfl
@[simp] theorem State.collect_cores (e : Option Nat) (c : Completion) : (s.collect e c).cores = s.cores := rfl
@[simp] theorem State.collect_mailboxes (e : Option Nat) (c : Completion) : (s.collect e c).mailboxes = s.mailboxes := rfl
@[simp] theorem State.collect_service (e : Option Nat) (c : Completion) : (s.collect e c).service = s.service := rfl
@[simp] theorem State.collect_stakes (e : Option Nat) (c : Completion) : (s.collect e c).stakes = s.stakes := rfl
@[simp] theorem State.collect_stakeAsks (e : Option Nat) (c : Completion) : (s.collect e c).stakeAsks = s.stakeAsks := rfl
@[simp] theorem State.collect_deviceBook (e : Option Nat) (c : Completion) : (s.collect e c).deviceBook = s.deviceBook := rfl
@[simp] theorem State.collect_sasBooks (e : Option Nat) (c : Completion) : (s.collect e c).sasBooks = s.sasBooks := rfl
@[simp] theorem State.collect_released (e : Option Nat) (c : Completion) : (s.collect e c).released = s.released := rfl
@[simp] theorem State.collect_frame (e : Option Nat) (c : Completion) : (s.collect e c).frame = s.frame := rfl
@[simp] theorem State.collect_manage (e : Option Nat) (c : Completion) : (s.collect e c).manage = s.manage := rfl
@[simp] theorem State.collect_mon (e : Option Nat) (c : Completion) : (s.collect e c).mon = s.mon := rfl
@[simp] theorem State.collect_view (e : Option Nat) (c : Completion) : (s.collect e c).view = s.view := rfl
@[simp] theorem State.collect_taps (e : Option Nat) (c : Completion) : (s.collect e c).taps = s.taps := rfl
@[simp] theorem State.collect_fresh (e : Option Nat) (c : Completion) : (s.collect e c).fresh = s.fresh := rfl
@[simp] theorem State.collect_out (e : Option Nat) (c : Completion) : (s.collect e c).out = s.out := rfl
@[simp] theorem State.collect_pending (e : Option Nat) (c : Completion) : (s.collect e c).pending = s.pending := rfl
@[simp] theorem State.collect_port (e : Option Nat) (c : Completion) : (s.collect e c).port j = s.port j := rfl
@[simp] theorem State.collect_shelf (e : Option Nat) (c : Completion) : (s.collect e c).shelf j = s.shelf j := rfl
@[simp] theorem State.collect_handle (e : Option Nat) (c : Completion) : (s.collect e c).handle j = s.handle j := rfl
@[simp] theorem State.collect_chain (e : Option Nat) (c : Completion) : (s.collect e c).chain j = s.chain j := rfl
@[simp] theorem State.collect_quarter (e : Option Nat) (c : Completion) : (s.collect e c).quarter j = s.quarter j := rfl
@[simp] theorem State.collect_engine (e : Option Nat) (c : Completion) : (s.collect e c).engine j = s.engine j := rfl
@[simp] theorem State.collect_channel (e : Option Nat) (c : Completion) : (s.collect e c).channel j = s.channel j := rfl
@[simp] theorem State.collect_core (e : Option Nat) (c : Completion) : (s.collect e c).core j = s.core j := rfl
@[simp] theorem State.collect_mailbox (e : Option Nat) (c : Completion) : (s.collect e c).mailbox j = s.mailbox j := rfl

/-! ### `setOwner` -/

@[simp] theorem State.setOwner_mode (first count : Nat) (o l : Option Nat) : (s.setOwner first count o l).mode = s.mode := rfl
@[simp] theorem State.setOwner_devClk (first count : Nat) (o l : Option Nat) : (s.setOwner first count o l).devClk = s.devClk := rfl
@[simp] theorem State.setOwner_sasClk (first count : Nat) (o l : Option Nat) : (s.setOwner first count o l).sasClk = s.sasClk := rfl
@[simp] theorem State.setOwner_railsValid (first count : Nat) (o l : Option Nat) : (s.setOwner first count o l).railsValid = s.railsValid := rfl
@[simp] theorem State.setOwner_devMs (first count : Nat) (o l : Option Nat) : (s.setOwner first count o l).devMs = s.devMs := rfl
@[simp] theorem State.setOwner_devEpoch (first count : Nat) (o l : Option Nat) : (s.setOwner first count o l).devEpoch = s.devEpoch := rfl
@[simp] theorem State.setOwner_bif0 (first count : Nat) (o l : Option Nat) : (s.setOwner first count o l).bif0 = s.bif0 := rfl
@[simp] theorem State.setOwner_bif1 (first count : Nat) (o l : Option Nat) : (s.setOwner first count o l).bif1 = s.bif1 := rfl
@[simp] theorem State.setOwner_adminSel (first count : Nat) (o l : Option Nat) : (s.setOwner first count o l).adminSel = s.adminSel := rfl
@[simp] theorem State.setOwner_apportioned (first count : Nat) (o l : Option Nat) : (s.setOwner first count o l).apportioned = s.apportioned := rfl
@[simp] theorem State.setOwner_restarts (first count : Nat) (o l : Option Nat) : (s.setOwner first count o l).restarts = s.restarts := rfl
@[simp] theorem State.setOwner_waitClock (first count : Nat) (o l : Option Nat) : (s.setOwner first count o l).waitClock = s.waitClock := rfl
@[simp] theorem State.setOwner_deviceContain (first count : Nat) (o l : Option Nat) : (s.setOwner first count o l).deviceContain = s.deviceContain := rfl
@[simp] theorem State.setOwner_thermTrip (first count : Nat) (o l : Option Nat) : (s.setOwner first count o l).thermTrip = s.thermTrip := rfl
@[simp] theorem State.setOwner_sensors (first count : Nat) (o l : Option Nat) : (s.setOwner first count o l).sensors = s.sensors := rfl
@[simp] theorem State.setOwner_flash (first count : Nat) (o l : Option Nat) : (s.setOwner first count o l).flash = s.flash := rfl
@[simp] theorem State.setOwner_ports (first count : Nat) (o l : Option Nat) : (s.setOwner first count o l).ports = s.ports := rfl
@[simp] theorem State.setOwner_trvs (first count : Nat) (o l : Option Nat) : (s.setOwner first count o l).trvs = s.trvs := rfl
@[simp] theorem State.setOwner_seqNo (first count : Nat) (o l : Option Nat) : (s.setOwner first count o l).seqNo = s.seqNo := rfl
@[simp] theorem State.setOwner_admitting (first count : Nat) (o l : Option Nat) : (s.setOwner first count o l).admitting = s.admitting := rfl
@[simp] theorem State.setOwner_reservations (first count : Nat) (o l : Option Nat) : (s.setOwner first count o l).reservations = s.reservations := rfl
@[simp] theorem State.setOwner_accums (first count : Nat) (o l : Option Nat) : (s.setOwner first count o l).accums = s.accums := rfl
@[simp] theorem State.setOwner_mem (first count : Nat) (o l : Option Nat) : (s.setOwner first count o l).mem = s.mem := rfl
@[simp] theorem State.setOwner_parked (first count : Nat) (o l : Option Nat) : (s.setOwner first count o l).parked = s.parked := rfl
@[simp] theorem State.setOwner_poison (first count : Nat) (o l : Option Nat) : (s.setOwner first count o l).poison = s.poison := rfl
@[simp] theorem State.setOwner_flaws (first count : Nat) (o l : Option Nat) : (s.setOwner first count o l).flaws = s.flaws := rfl
@[simp] theorem State.setOwner_shelves (first count : Nat) (o l : Option Nat) : (s.setOwner first count o l).shelves = s.shelves := rfl
@[simp] theorem State.setOwner_handles (first count : Nat) (o l : Option Nat) : (s.setOwner first count o l).handles = s.handles := rfl
@[simp] theorem State.setOwner_chains (first count : Nat) (o l : Option Nat) : (s.setOwner first count o l).chains = s.chains := rfl
@[simp] theorem State.setOwner_quarters (first count : Nat) (o l : Option Nat) : (s.setOwner first count o l).quarters = s.quarters := rfl
@[simp] theorem State.setOwner_engines (first count : Nat) (o l : Option Nat) : (s.setOwner first count o l).engines = s.engines := rfl
@[simp] theorem State.setOwner_dma (first count : Nat) (o l : Option Nat) : (s.setOwner first count o l).dma = s.dma := rfl
@[simp] theorem State.setOwner_timers (first count : Nat) (o l : Option Nat) : (s.setOwner first count o l).timers = s.timers := rfl
@[simp] theorem State.setOwner_copyQueue (first count : Nat) (o l : Option Nat) : (s.setOwner first count o l).copyQueue = s.copyQueue := rfl
@[simp] theorem State.setOwner_cores (first count : Nat) (o l : Option Nat) : (s.setOwner first count o l).cores = s.cores := rfl
@[simp] theorem State.setOwner_mailboxes (first count : Nat) (o l : Option Nat) : (s.setOwner first count o l).mailboxes = s.mailboxes := rfl
@[simp] theorem State.setOwner_service (first count : Nat) (o l : Option Nat) : (s.setOwner first count o l).service = s.service := rfl
@[simp] theorem State.setOwner_stakes (first count : Nat) (o l : Option Nat) : (s.setOwner first count o l).stakes = s.stakes := rfl
@[simp] theorem State.setOwner_stakeAsks (first count : Nat) (o l : Option Nat) : (s.setOwner first count o l).stakeAsks = s.stakeAsks := rfl
@[simp] theorem State.setOwner_deviceBook (first count : Nat) (o l : Option Nat) : (s.setOwner first count o l).deviceBook = s.deviceBook := rfl
@[simp] theorem State.setOwner_sasBooks (first count : Nat) (o l : Option Nat) : (s.setOwner first count o l).sasBooks = s.sasBooks := rfl
@[simp] theorem State.setOwner_collector (first count : Nat) (o l : Option Nat) : (s.setOwner first count o l).collector = s.collector := rfl
@[simp] theorem State.setOwner_released (first count : Nat) (o l : Option Nat) : (s.setOwner first count o l).released = s.released := rfl
@[simp] theorem State.setOwner_frame (first count : Nat) (o l : Option Nat) : (s.setOwner first count o l).frame = s.frame := rfl
@[simp] theorem State.setOwner_manage (first count : Nat) (o l : Option Nat) : (s.setOwner first count o l).manage = s.manage := rfl
@[simp] theorem State.setOwner_mon (first count : Nat) (o l : Option Nat) : (s.setOwner first count o l).mon = s.mon := rfl
@[simp] theorem State.setOwner_view (first count : Nat) (o l : Option Nat) : (s.setOwner first count o l).view = s.view := rfl
@[simp] theorem State.setOwner_taps (first count : Nat) (o l : Option Nat) : (s.setOwner first count o l).taps = s.taps := rfl
@[simp] theorem State.setOwner_fresh (first count : Nat) (o l : Option Nat) : (s.setOwner first count o l).fresh = s.fresh := rfl
@[simp] theorem State.setOwner_out (first count : Nat) (o l : Option Nat) : (s.setOwner first count o l).out = s.out := rfl
@[simp] theorem State.setOwner_pending (first count : Nat) (o l : Option Nat) : (s.setOwner first count o l).pending = s.pending := rfl
@[simp] theorem State.setOwner_port (first count : Nat) (o l : Option Nat) : (s.setOwner first count o l).port j = s.port j := rfl
@[simp] theorem State.setOwner_shelf (first count : Nat) (o l : Option Nat) : (s.setOwner first count o l).shelf j = s.shelf j := rfl
@[simp] theorem State.setOwner_handle (first count : Nat) (o l : Option Nat) : (s.setOwner first count o l).handle j = s.handle j := rfl
@[simp] theorem State.setOwner_chain (first count : Nat) (o l : Option Nat) : (s.setOwner first count o l).chain j = s.chain j := rfl
@[simp] theorem State.setOwner_quarter (first count : Nat) (o l : Option Nat) : (s.setOwner first count o l).quarter j = s.quarter j := rfl
@[simp] theorem State.setOwner_engine (first count : Nat) (o l : Option Nat) : (s.setOwner first count o l).engine j = s.engine j := rfl
@[simp] theorem State.setOwner_channel (first count : Nat) (o l : Option Nat) : (s.setOwner first count o l).channel j = s.channel j := rfl
@[simp] theorem State.setOwner_core (first count : Nat) (o l : Option Nat) : (s.setOwner first count o l).core j = s.core j := rfl
@[simp] theorem State.setOwner_mailbox (first count : Nat) (o l : Option Nat) : (s.setOwner first count o l).mailbox j = s.mailbox j := rfl

/-! ### Looking one thing up in a record with other fields changed -/

@[simp] theorem State.port_mk {x0 x1 x2 x3 x4 x5 x6 x7 x8 x9 x10 x11 x12 x13 x14 x15 x17 x18 x19 x20 x21 x22 x23 x24 x25 x26 x27 x28 x29 x30 x31 x32 x33 x34 x35 x36 x37 x38 x39 x40 x41 x42 x43 x44 x45 x46 x47 x48 x49 x50 x51} : (State.mk x0 x1 x2 x3 x4 x5 x6 x7 x8 x9 x10 x11 x12 x13 x14 x15 s.ports x17 x18 x19 x20 x21 x22 x23 x24 x25 x26 x27 x28 x29 x30 x31 x32 x33 x34 x35 x36 x37 x38 x39 x40 x41 x42 x43 x44 x45 x46 x47 x48 x49 x50 x51).port i = s.port i := rfl
@[simp] theorem State.shelf_mk {x0 x1 x2 x3 x4 x5 x6 x7 x8 x9 x10 x11 x12 x13 x14 x15 x16 x17 x18 x19 x20 x21 x22 x23 x24 x25 x26 x28 x29 x30 x31 x32 x33 x34 x35 x36 x37 x38 x39 x40 x41 x42 x43 x44 x45 x46 x47 x48 x49 x50 x51} : (State.mk x0 x1 x2 x3 x4 x5 x6 x7 x8 x9 x10 x11 x12 x13 x14 x15 x16 x17 x18 x19 x20 x21 x22 x23 x24 x25 x26 s.shelves x28 x29 x30 x31 x32 x33 x34 x35 x36 x37 x38 x39 x40 x41 x42 x43 x44 x45 x46 x47 x48 x49 x50 x51).shelf i = s.shelf i := rfl
@[simp] theorem State.handle_mk {x0 x1 x2 x3 x4 x5 x6 x7 x8 x9 x10 x11 x12 x13 x14 x15 x16 x17 x18 x19 x20 x21 x22 x23 x24 x25 x26 x27 x29 x30 x31 x32 x33 x34 x35 x36 x37 x38 x39 x40 x41 x42 x43 x44 x45 x46 x47 x48 x49 x50 x51} : (State.mk x0 x1 x2 x3 x4 x5 x6 x7 x8 x9 x10 x11 x12 x13 x14 x15 x16 x17 x18 x19 x20 x21 x22 x23 x24 x25 x26 x27 s.handles x29 x30 x31 x32 x33 x34 x35 x36 x37 x38 x39 x40 x41 x42 x43 x44 x45 x46 x47 x48 x49 x50 x51).handle i = s.handle i := rfl
@[simp] theorem State.chain_mk {x0 x1 x2 x3 x4 x5 x6 x7 x8 x9 x10 x11 x12 x13 x14 x15 x16 x17 x18 x19 x20 x21 x22 x23 x24 x25 x26 x27 x28 x30 x31 x32 x33 x34 x35 x36 x37 x38 x39 x40 x41 x42 x43 x44 x45 x46 x47 x48 x49 x50 x51} : (State.mk x0 x1 x2 x3 x4 x5 x6 x7 x8 x9 x10 x11 x12 x13 x14 x15 x16 x17 x18 x19 x20 x21 x22 x23 x24 x25 x26 x27 x28 s.chains x30 x31 x32 x33 x34 x35 x36 x37 x38 x39 x40 x41 x42 x43 x44 x45 x46 x47 x48 x49 x50 x51).chain i = s.chain i := rfl
@[simp] theorem State.quarter_mk {x0 x1 x2 x3 x4 x5 x6 x7 x8 x9 x10 x11 x12 x13 x14 x15 x16 x17 x18 x19 x20 x21 x22 x23 x24 x25 x26 x27 x28 x29 x31 x32 x33 x34 x35 x36 x37 x38 x39 x40 x41 x42 x43 x44 x45 x46 x47 x48 x49 x50 x51} : (State.mk x0 x1 x2 x3 x4 x5 x6 x7 x8 x9 x10 x11 x12 x13 x14 x15 x16 x17 x18 x19 x20 x21 x22 x23 x24 x25 x26 x27 x28 x29 s.quarters x31 x32 x33 x34 x35 x36 x37 x38 x39 x40 x41 x42 x43 x44 x45 x46 x47 x48 x49 x50 x51).quarter i = s.quarter i := rfl
@[simp] theorem State.engine_mk {x0 x1 x2 x3 x4 x5 x6 x7 x8 x9 x10 x11 x12 x13 x14 x15 x16 x17 x18 x19 x20 x21 x22 x23 x24 x25 x26 x27 x28 x29 x30 x32 x33 x34 x35 x36 x37 x38 x39 x40 x41 x42 x43 x44 x45 x46 x47 x48 x49 x50 x51} : (State.mk x0 x1 x2 x3 x4 x5 x6 x7 x8 x9 x10 x11 x12 x13 x14 x15 x16 x17 x18 x19 x20 x21 x22 x23 x24 x25 x26 x27 x28 x29 x30 s.engines x32 x33 x34 x35 x36 x37 x38 x39 x40 x41 x42 x43 x44 x45 x46 x47 x48 x49 x50 x51).engine i = s.engine i := rfl
@[simp] theorem State.channel_mk {x0 x1 x2 x3 x4 x5 x6 x7 x8 x9 x10 x11 x12 x13 x14 x15 x16 x17 x18 x19 x20 x21 x22 x23 x24 x25 x26 x27 x28 x29 x30 x31 x33 x34 x35 x36 x37 x38 x39 x40 x41 x42 x43 x44 x45 x46 x47 x48 x49 x50 x51} : (State.mk x0 x1 x2 x3 x4 x5 x6 x7 x8 x9 x10 x11 x12 x13 x14 x15 x16 x17 x18 x19 x20 x21 x22 x23 x24 x25 x26 x27 x28 x29 x30 x31 s.dma x33 x34 x35 x36 x37 x38 x39 x40 x41 x42 x43 x44 x45 x46 x47 x48 x49 x50 x51).channel i = s.channel i := rfl
@[simp] theorem State.core_mk {x0 x1 x2 x3 x4 x5 x6 x7 x8 x9 x10 x11 x12 x13 x14 x15 x16 x17 x18 x19 x20 x21 x22 x23 x24 x25 x26 x27 x28 x29 x30 x31 x32 x33 x34 x36 x37 x38 x39 x40 x41 x42 x43 x44 x45 x46 x47 x48 x49 x50 x51} : (State.mk x0 x1 x2 x3 x4 x5 x6 x7 x8 x9 x10 x11 x12 x13 x14 x15 x16 x17 x18 x19 x20 x21 x22 x23 x24 x25 x26 x27 x28 x29 x30 x31 x32 x33 x34 s.cores x36 x37 x38 x39 x40 x41 x42 x43 x44 x45 x46 x47 x48 x49 x50 x51).core i = s.core i := rfl
@[simp] theorem State.mailbox_mk {x0 x1 x2 x3 x4 x5 x6 x7 x8 x9 x10 x11 x12 x13 x14 x15 x16 x17 x18 x19 x20 x21 x22 x23 x24 x25 x26 x27 x28 x29 x30 x31 x32 x33 x34 x35 x37 x38 x39 x40 x41 x42 x43 x44 x45 x46 x47 x48 x49 x50 x51} : (State.mk x0 x1 x2 x3 x4 x5 x6 x7 x8 x9 x10 x11 x12 x13 x14 x15 x16 x17 x18 x19 x20 x21 x22 x23 x24 x25 x26 x27 x28 x29 x30 x31 x32 x33 x34 x35 s.mailboxes x37 x38 x39 x40 x41 x42 x43 x44 x45 x46 x47 x48 x49 x50 x51).mailbox i = s.mailbox i := rfl

end Sys2Proof.Machine
end

