-- ==== Sys2Proof/Laws/Hamper.lean ====
section
/-! SUPPORT. What a bundle of one op does on a hamper engine. -/

namespace Sys2Proof.Machine

/-- Of two writes of an engine the later stands. -/
@[simp] theorem State.setEngine_setEngine (s : State) (e : Nat) (x y : Engine) :
    (s.setEngine e x).setEngine e y = s.setEngine e y := by
  simp [State.setEngine]

/-- With no result on its way nothing lands. -/
theorem State.landDue_none (s : State) (e t : Nat) (h : (s.engine e).lands = []) :
    s.landDue e t = s.setEngine e (s.engine e) := by
  have h' : { s.engine e with lands := [] } = s.engine e := by rw [← h]
  simp [State.landDue, h, h']

/-- A bundle at the end of no active level goes on to the bundle after it. -/
theorem Engine.loopNext_inactive (x : Engine) (here next : Nat) (h0 : x.loop0.active = false)
    (h1 : x.loop1.active = false) : x.loopNext here next = (x, next) := by
  simp [Engine.loopNext, h0, h1]

/-- A bundle of one op that does not fault takes the op's effect. -/
theorem SoleOp.issues {s : State} {e : Nat} {x : Engine} {op : HOp} (h : SoleOp s e x op) :
    ∃ im, x.image = some im ∧ s.hamperOp e true op =
      (((s.setEngine e x).bundleEffect e im.words [op]).nextBundle e) := by
  obtain ⟨hx, he, hb, hl, h0, h1, hc, im, him, ha, hf⟩ := h
  subst hx
  refine ⟨im, him, ?_⟩
  have hz : (s.setEngine e (s.engine e)).engine e = s.engine e := by simp
  simp only [State.hamperOp, him, he, hc, ha, hb, State.issueBundle, State.landDue_none _ _ _ hl, hz, hf]
  simp

end Sys2Proof.Machine
end

