-- ==== Sys2Proof/Laws/Legs.lean ====
section
/-! SUPPORT. A traverse that stands at a leg: the leg's command performs it. -/

namespace Sys2Proof.Machine

variable {s : State} {p tag op : Nat} {v : Trv}

/-- Standing at a leg, its command runs its body on the traverse. -/
theorem State.perform_atLeg (h : AtLeg s p tag op v) (f : Trv → State) : s.perform p tag op f = f v := by
  obtain ⟨h1, h2, h3, h4, h5, h6⟩ := h
  unfold State.perform State.withTrv
  rw [h1]
  simp only [h2, h3, h4, decide_true, Bool.and_true, if_true]
  split
  · rename_i c hc
    simp [h5 c hc, h6]
  · simp [h6]

/-- The traverse that stands at a leg is found by its port and tag. -/
theorem AtLeg.found (h : AtLeg s p tag op v) : s.trv? p tag = some v := h.1

/-- A traverse found by port and tag has them. -/
theorem State.trv?_names (h : s.trv? p tag = some v) : v.port = p ∧ v.tag = tag := by
  simpa using List.find?_some h

/-- The traverse just replaced is found. -/
theorem State.putTrv_trv? (h : s.trv? p tag = some v) {u : Trv} (hp : u.port = p) (ht : u.tag = tag) :
    (s.putTrv u).trv? p tag = some u := by
  simp only [State.trv?, State.putTrv] at *
  generalize s.trvs = l at h
  induction l with
  | nil => simp at h
  | cons a l ih =>
    simp only [List.map_cons, List.find?_cons] at *
    by_cases c : a.port = p ∧ a.tag = tag
    · simp [hp, ht, c]
    · rw [not_and_or] at c
      have c' : (decide (a.port = p) && decide (a.tag = tag)) = false := by simpa using not_and_or.mpr c
      have c'' : ¬ (a.port = u.port ∧ a.tag = u.tag) := by rw [hp, ht]; exact not_and_or.mpr c
      rw [c'] at h
      rw [if_neg c'', c']
      exact ih h

/-- Another traverse's record stays. -/
theorem State.putTrv_trv?_other {u : Trv} {p' tag' : Nat} (h : ¬ (u.port = p' ∧ u.tag = tag')) :
    (s.putTrv u).trv? p' tag' = s.trv? p' tag' := by
  simp only [State.trv?, State.putTrv]
  induction s.trvs with
  | nil => rfl
  | cons a l ih =>
    simp only [List.map_cons, List.find?_cons]
    by_cases c : a.port = u.port ∧ a.tag = u.tag
    · rw [if_pos c]
      have c1 : (decide (a.port = p') && decide (a.tag = tag')) = false := by
        rw [c.1, c.2]; simpa using fun x y => h ⟨x, y⟩
      have c2 : (decide (u.port = p') && decide (u.tag = tag')) = false := by simpa using fun x y => h ⟨x, y⟩
      rw [c1, c2]
      exact ih
    · rw [if_neg c]
      split
      · rfl
      · exact ih

end Sys2Proof.Machine
end

