-- ==== Sys2Proof/Laws/Memory.lean ====
section
/-! SUPPORT. Buffer memory: its canonical form is kept by every operation that writes it, a byte written is read back,
and every other byte stays as it was. -/

namespace Sys2Proof.Machine

/-- A canonical memory from a lower bound is one from any smaller bound. -/
theorem memWf_mono {lo lo' : Nat} (m : List Host.Cell) (h : lo' ≤ lo) (w : memWf lo m = true) : memWf lo' m = true := by
  cases m with
  | nil => rfl
  | cons c t =>
    obtain ⟨a, v⟩ := c
    simp only [memWf, Bool.and_eq_true, decide_eq_true_eq] at w ⊢
    exact ⟨⟨by omega, w.1.2⟩, w.2⟩

/-- One byte written keeps the form. -/
theorem memWf_memPut (m : List Host.Cell) (lo a : Nat) (v : Byte) (h : lo ≤ a) (w : memWf lo m = true) :
    memWf lo (memPut m a v) = true := by
  induction m generalizing lo with
  | nil =>
    simp only [memPut]
    split
    · rfl
    · rename_i hv
      simp only [memWf, Bool.and_true, Bool.and_eq_true, decide_eq_true_eq]
      exact ⟨h, hv⟩
  | cons c t ih =>
    obtain ⟨b, x⟩ := c
    have w0 := w
    simp only [memWf, Bool.and_eq_true, decide_eq_true_eq] at w
    simp only [memPut]
    split
    · split
      · exact w0
      · rename_i hab hv
        simp only [memWf, Bool.and_eq_true, decide_eq_true_eq]
        exact ⟨⟨h, hv⟩, ⟨⟨by omega, w.1.2⟩, w.2⟩⟩
    · split
      · split
        · exact memWf_mono t (by omega) w.2
        · rename_i hab hv
          simp only [memWf, Bool.and_eq_true, decide_eq_true_eq]
          refine ⟨⟨h, hv⟩, ?_⟩
          have : a = b := by assumption
          rw [this]
          exact w.2
      · simp only [memWf, Bool.and_eq_true, decide_eq_true_eq]
        exact ⟨w.1, ih (b + 1) (by omega) w.2⟩

/-- One byte written keeps the memory canonical. -/
@[simp] theorem Memory.wf_memPut {m : List Host.Cell} (w : Memory.wf m = true) (a : Nat) (v : Byte) :
    Memory.wf (memPut m a v) = true := memWf_memPut m 0 a v (Nat.zero_le a) w

/-- Bytes written one after another keep it. -/
@[simp] theorem Memory.wf_putBytes {m : List Host.Cell} (w : Memory.wf m = true) (pos : Nat) (bs : List Byte) :
    Memory.wf (putBytes m pos bs) = true := by
  induction bs generalizing m pos with
  | nil => exact w
  | cons b bs ih => exact ih (Memory.wf_memPut w _ _) (pos + 1)

/-- A fold of byte writes keeps it. -/
theorem Memory.wf_foldl {α : Type} {m : List Host.Cell} (w : Memory.wf m = true) (l : List α)
    (addr : α → Nat) (val : α → Byte) :
    Memory.wf (l.foldl (fun m i => memPut m (addr i) (val i)) m) = true := by
  induction l generalizing m with
  | nil => exact w
  | cons i l ih => exact ih (Memory.wf_memPut w _ _)

/-- Cells taken out keep it. -/
theorem memWf_filter (p : Host.Cell → Bool) (m : List Host.Cell) (lo : Nat) (w : memWf lo m = true) :
    memWf lo (m.filter p) = true := by
  induction m generalizing lo with
  | nil => rfl
  | cons c t ih =>
    obtain ⟨a, v⟩ := c
    simp only [memWf, Bool.and_eq_true, decide_eq_true_eq] at w
    simp only [List.filter]
    split
    · simp only [memWf, Bool.and_eq_true, decide_eq_true_eq]
      exact ⟨w.1, ih (a + 1) w.2⟩
    · exact ih lo (memWf_mono t (by omega) w.2)

@[simp] theorem Memory.wf_filter {m : List Host.Cell} (w : Memory.wf m = true) (p : Host.Cell → Bool) :
    Memory.wf (m.filter p) = true := memWf_filter p m 0 w

@[simp] theorem Memory.wf_nil : Memory.wf [] = true := rfl

@[simp] theorem State.wf_writeBuf {s : State} (w : Memory.wf s.mem = true) (pos : Nat) (bs : List Byte) (p : Bool) :
    Memory.wf (s.writeBuf pos bs p).mem = true := Memory.wf_putBytes w pos bs

theorem Memory.wf_putRun {m : List Host.Cell} (w : Memory.wf m = true) (addr : Nat) (bs : List Byte) :
    Memory.wf (putRun m addr bs) = true := by
  unfold putRun
  generalize List.range bs.length = l
  exact Memory.wf_foldl w l _ _

@[simp] theorem State.wf_writeBeat {s : State} (w : Memory.wf s.mem = true) (addr : Nat) (d : BitVec 512) (p : Bool) :
    Memory.wf (s.writeBeat addr d p).mem = true := by
  unfold State.writeBeat
  dsimp only
  exact Memory.wf_putRun w _ _

/-- A parked beat written out keeps it. -/
theorem State.wf_unpark {s : State} (w : Memory.wf s.mem = true) (beat : Nat) : Memory.wf (s.unpark beat).mem = true := by
  unfold State.unpark
  split
  · exact w
  · dsimp only
    exact Memory.wf_putRun w _ _

/-- So do several. -/
theorem State.wf_unparks {s : State} (w : Memory.wf s.mem = true) (l : List Nat) :
    Memory.wf (l.foldl State.unpark s).mem = true := by
  induction l generalizing s with
  | nil => exact w
  | cons b l ih => exact ih (State.wf_unpark w b)

@[simp] theorem State.wf_writePhys {s : State} (w : Memory.wf s.mem = true) (addr : Nat) (bs : List Byte) (p : Bool) :
    Memory.wf (s.writePhys addr bs p).mem = true := by
  unfold State.writePhys
  generalize physBeats addr bs.length = l
  dsimp only
  exact Memory.wf_putRun (State.wf_unparks w l) _ _

/-- Below a canonical memory's lower bound every byte reads as 0. -/
theorem memByte_below {m : List Host.Cell} {lo a : Nat} (w : memWf lo m = true) (h : a < lo) : memByte m a = 0 := by
  induction m generalizing lo with
  | nil => rfl
  | cons c t ih =>
    obtain ⟨b, v⟩ := c
    simp only [memWf, Bool.and_eq_true, decide_eq_true_eq] at w
    have hb : b ≠ a := by omega
    simp only [memByte, hb, if_false]
    exact ih w.2 (by omega)

/-- A byte written is read back. -/
theorem memByte_memPut_self {m : List Host.Cell} {lo : Nat} (w : memWf lo m = true) (a : Nat) (v : Byte) :
    memByte (memPut m a v) a = v := by
  induction m generalizing lo with
  | nil =>
    simp only [memPut]
    split
    · simp [memByte, *]
    · simp [memByte]
  | cons c t ih =>
    obtain ⟨b, x⟩ := c
    simp only [memWf, Bool.and_eq_true, decide_eq_true_eq] at w
    simp only [memPut]
    split
    · split
      · rename_i hab hv
        have : b ≠ a := by omega
        simp only [memByte, this, if_false, hv]
        exact memByte_below w.2 (by omega)
      · simp [memByte]
    · split
      · split
        · rename_i hab hv
          rw [hv]
          exact memByte_below w.2 (by omega)
        · simp [memByte]
      · rename_i h1 h2
        have : b ≠ a := fun h => h2 h.symm
        simp only [memByte, this, if_false]
        exact ih w.2

/-- A write leaves every other byte as it was. -/
theorem memByte_memPut_other {m : List Host.Cell} {a c : Nat} (v : Byte) (h : c ≠ a) :
    memByte (memPut m a v) c = memByte m c := by
  induction m with
  | nil =>
    simp only [memPut]
    split
    · rfl
    · simp [memByte, Ne.symm h]
  | cons e t ih =>
    obtain ⟨b, x⟩ := e
    simp only [memPut]
    split
    · split
      · rfl
      · simp [memByte, Ne.symm h]
    · split
      · rename_i h1 h2
        subst h2
        split <;> simp [memByte, Ne.symm h]
      · simp only [memByte, ih]

/-- A write to buffer memory leaves every byte outside its range as it was. -/
theorem memByte_putBytes_other {m : List Host.Cell} (pos : Nat) (bs : List Byte) {c : Nat}
    (h : ∀ i, i < bs.length → c ≠ bufAddr (pos + i)) : memByte (putBytes m pos bs) c = memByte m c := by
  induction bs generalizing m pos with
  | nil => rfl
  | cons b bs ih =>
    simp only [putBytes]
    rw [ih]
    · exact memByte_memPut_other b (by simpa using h 0 (by simp))
    · intro i hi
      have := h (i + 1) (by simpa using hi)
      rwa [Nat.add_assoc, Nat.add_comm 1 i]

end Sys2Proof.Machine
end

