-- ==== Sys2Proof/Laws/Monument.lean ====
section
/-! SUPPORT. Lengths of byte strings and hashes, and that a reading taken while unsealed makes a valid checkpoint. -/

namespace Sys2Proof.Laws

open Sys2Proof Sys2Proof.Machine

@[simp] theorem leBytes_length (n v : Nat) : (leBytes n v).length = n := by
  induction n generalizing v <;> simp [leBytes, *]

@[simp] theorem beBytes_length (n v : Nat) : (beBytes n v).length = n := by simp [beBytes]

@[simp] theorem packed_length (n v : Nat) : (packed n v).length = n := by
  induction n generalizing v <;> simp [packed, *]

theorem shaRound_length (x : List (BitVec 32)) (kw : BitVec 32 × BitVec 32) : (shaRound x kw).length = x.length := by
  unfold shaRound
  split <;> simp

theorem shaBlock_length (h : List (BitVec 32)) (b : List Byte) : (shaBlock h b).length = h.length := by
  have key : ∀ (l : List (BitVec 32 × BitVec 32)) (x : List (BitVec 32)), (l.foldl shaRound x).length = x.length := by
    intro l
    induction l with
    | nil => simp
    | cons a l ih => intro x; simp [ih, shaRound_length]
  simp [shaBlock, key]

theorem shaAbsorb_length (n : Nat) (h : List (BitVec 32)) (bs : List Byte) : (shaAbsorb n h bs).1.length = h.length := by
  induction n generalizing h bs with
  | zero => rfl
  | succ n ih => unfold shaAbsorb; split <;> simp [ih, shaBlock_length]

theorem ofBeWords_length (ws : List (BitVec 32)) : (ofBeWords ws).length = 4 * ws.length := by
  unfold ofBeWords
  induction ws with
  | nil => rfl
  | cons w ws ih => simp_all; omega

/-- A SHA-256 value is 32 bytes. -/
@[simp] theorem sha256_length (bs : List Byte) : (sha256 bs).length = 32 := by
  simp [sha256, shaFinal, ofBeWords_length, shaAbsorb_length, shaInit]

/-- The body of a reading is 888 bytes (R526). -/
theorem readingBody_length (m : Monument) (kind : Nat) : (m.readingBody kind).length = 888 := by
  simp [Monument.readingBody, List.length_flatMap, List.map_const']

/-- A reading taken while unsealed is valid for an unsealed Monument (R527, R531). -/
theorem taken_valid (m m1 : Monument) (kind : Nat) (t : Bool) (h : m.isSealed = false) (h1 : m1.isSealed = false) :
    ({ reading := (m.take kind).1, tamper := t } : Checkpoint).valid m1 = true := by
  simp [Checkpoint.valid, Monument.take, Monument.sign, readingBody_length, h, h1]

end Sys2Proof.Laws
end

