-- ==== Sys2Proof/Laws/Sehar.lean ====
section
/-! SUPPORT. What the issue of a Sehar instruction does. -/

namespace Sys2Proof.Machine

@[simp] theorem State.setCore_setCore (s : State) (k : Nat) (x y : Core) :
    (s.setCore k x).setCore k y = s.setCore k y := by
  simp [State.setCore]

/-- An instruction that issues has its effect, or raises the exception its evaluation meets, or PARITY of a word it has
read. -/
theorem Issues.attempt {s : State} {k : Nat} {fm : Form} {x : Core} (h : Issues s k fm x) (f : State → Try Effect) :
    s.attempt k fm f = match f (s.settle k) with
      | .error e => (s.settle k).raise k x.cur e
      | .ok r => match fm.parity x (r.st.core k) with
        | some e => (s.settle k).raise k x.cur e
        | none => r.st.afterEffect k x.cur fm.len fm.cost x.cycle (!x.here.s) r.after := by
  obtain ⟨hk, hr, hw, hx, ha, hc, hp, -⟩ := h
  subst hx
  have hp' : (((s.settle k).core k).here.rpt.isSome && !fm.repeatable) = false := by
    rcases hp with h | h <;> simp [h]
  simp only [State.attempt, hk, hr, hw, ha, hc, hp']
  cases f (s.settle k) <;> rfl

/-- An instruction whose effect lies in its core. -/
theorem Issues.seharOp {s : State} {k : Nat} {fm : Form} {x : Core} (h : Issues s k fm x) (f : Core → Try Core) :
    s.seharOp k fm f = match f x with
      | .error e => (s.settle k).raise k x.cur e
      | .ok y => match fm.parity x y with
        | some e => (s.settle k).raise k x.cur e
        | none => s.ran k fm x y := by
  have hx : (s.settle k).core k = x := h.2.2.2.1
  simp only [State.seharOp, h.attempt, hx]
  cases f x with
  | error e => rfl
  | ok y =>
    have hy : ((s.settle k).setCore k y).core k = y := by simp
    show (match fm.parity x (((s.settle k).setCore k y).core k) with | some e => _ | none => _) = _
    rw [hy]
    rfl

/-- A branch reads no D-space word beyond those its target comes from. -/
@[simp] theorem Core.branch_parityHit (x : Core) (cond : BitVec 4) (annul link : Bool) (kind : BranchKind) (a : Word) :
    (x.branch cond annul link kind a).parityHit = x.parityHit := by
  simp only [Core.branch]
  split_ifs <;> rfl

/-- A branch goes to its delay slot. -/
theorem Issues.seharBranch {s : State} {k len : Nat} {x : Core} {res : Bool}
    (h : Issues s k { len, slotOk := false, repeatable := false, isReserved := res } x)
    (cond : BitVec 4) (annul link : Bool) (kind : BranchKind) (target : Core → Try Word) :
    s.seharBranch k len res cond annul link kind target = match target x with
      | .error e => (s.settle k).raise k x.cur e
      | .ok a => s.branched k len x (x.branch cond annul link kind a) := by
  have hx : (s.settle k).core k = x := h.2.2.2.1
  have hp := h.2.2.2.2.2.2.2
  simp only [State.seharBranch, h.attempt, hx]
  cases target x with
  | error e => rfl
  | ok a =>
    have hy : (((s.settle k).setCore k (x.branch cond annul link kind a)).core k) = x.branch cond annul link kind a := by
      simp
    show (match Form.parity _ x (((s.settle k).setCore k (x.branch cond annul link kind a)).core k) with
      | some e => _ | none => _) = _
    rw [hy, show Form.parity _ x (x.branch cond annul link kind a) = none from by simpa [Form.parity] using hp]
    rfl

@[simp] theorem Core.here_modHere (x : Core) (f : Ctx → Ctx) : (x.modHere f).here = f x.here := by
  simp [Core.modHere, Core.here, Core.setCtx, Core.ctx]

@[simp] theorem Core.cur_modHere (x : Core) (f : Ctx → Ctx) : (x.modHere f).cur = x.cur := rfl

end Sys2Proof.Machine
end

