-- ==== Sys2Proof/Tests/Slice0.lean ====
section
/-! SUPPORT. Tests of the model: ill-formed commands are refused by Instr.wf, single steps worked out by hand from the
manual, and for every statement with hypotheses concrete states and operands that meet them together. -/

namespace Sys2Proof.Tests

set_option Elab.async false

open Sys2Proof Sys2Proof.Machine

/-! ### Ill-formed commands -/

/-- Commands from registerWrite to cqVecCoalWrite with one number out of range each. -/
theorem test_wf_refuses_registerWrite_to_cqVecCoalWrite : ([
    .registerWrite (.port 8) 0 4 0, .registerWrite (.core 50 0) 0 4 0, .registerWrite (.core 0 32) 0 4 0,
    .registerWrite (.port 0) 0 3 0, .reservedOffsetAccess 8 0 0 0 false, .reservedOffsetAccess 0 4 0 0 false,
    .configRequest 8 false 0 0, .configRequest 0 false 1024 0, .perstNDeassert 8 0, .perstNAssert 8, .flr 8,
    .d3hotEntry 8, .d3hotToD0 8, .dlDown 8, .pcieLinkUp 8, .uncorrectableFatalError 8,
    .hostReadCompletion 8 0 .abort, .hostReadTimeout 8 0, .bar4Access 8 false 0 [], .sqDoorbell 8 0,
    .sqDoorbell 0 256, .cqHeadDoorbell 8 0 0, .cqHeadDoorbell 0 256 0, .sqEnable 8 0 0, .sqEnable 0 256 0,
    .sqDisable 8 0 0, .sqDisable 0 256 0, .cqEnable 8 0 0, .cqEnable 0 256 0, .cqDisable 8 0 0, .cqDisable 0 256 0,
    .sqInvWrite 8 0 0, .sqInvWrite 0 256 0, .sqInvalidation 8 0, .sqInvalidation 0 256, .cqVecCoalWrite 8 0 0] : List Instr).all (fun c => !c.wf) = true := by decide

/-- Commands from cqVecCoalWrite to legRelease with one number out of range each. -/
theorem test_wf_refuses_cqVecCoalWrite_to_legRelease : ([
    .cqVecCoalWrite 0 256 0, .scanTurn 8, .startEntry 8, .resumeEntry 8, .nopEntry 8, .noteRequest 8,
    .bind (.traverse 8 0), .bind (.traverse 0 65536), .bind (.engine 48), .stationStart 8 0, .stationStart 0 65536,
    .legIssue 8 0, .legIssue 0 65536, .legIssueExt 8 0, .legIssueExt 0 65536, .legTask 8 0, .legTask 0 65536,
    .legEnclosure 8 0, .legEnclosure 0 65536, .legStageIn 8 0, .legStageIn 0 65536, .legStageOut 8 0,
    .legStageOut 0 65536, .legCopy 8 0, .legCopy 0 65536, .legRecipe 8 0, .legRecipe 0 65536, .legFlushSpan 8 0,
    .legFlushSpan 0 65536, .legVerify 8 0, .legVerify 0 65536, .legGather 8 0, .legGather 0 65536, .legBook 8 0,
    .legBook 0 65536, .legRelease 8 0] : List Instr).all (fun c => !c.wf) = true := by decide

/-- Commands from legRelease to getApportionment with one number out of range each. -/
theorem test_wf_refuses_legRelease_to_getApportionment : ([
    .legRelease 0 65536, .legSpin 8 0, .legSpin 0 65536, .legGoto 8 0, .legGoto 0 65536, .legTest 8 0,
    .legTest 0 65536, .legWait 8 0, .legWait 0 65536, .legNote 8 0, .legNote 0 65536, .legPause 8 0,
    .legPause 0 65536, .legExec 8 0, .legExec 0 65536, .legEnd 8 0, .legEnd 0 65536, .responseParkExpiry 8 0,
    .responseParkExpiry 0 65536, .deadlineExpiry 8 0, .deadlineExpiry 0 65536, .waitDeadlineExpiry 8 0,
    .waitDeadlineExpiry 0 65536, .pauseExpiry 8 0, .pauseExpiry 0 65536, .completionReadback 8 0 false,
    .completionReadback 0 65536 false, .completionPost 8, .coalesceTimerExpiry 8 0, .coalesceTimerExpiry 0 256,
    .msixPendingSend 8 0, .msixPendingSend 0 257, .mctpControl (.vdm 8) [], .pldmMonitoring (.vdm 8) 0 0,
    .pldmFirmwareUpdate (.vdm 8) .activate, .getApportionment (.mctp (.vdm 8) [])] : List Instr).all (fun c => !c.wf) = true := by decide

/-- Commands from stageGrant to mbRel with one number out of range each. -/
theorem test_wf_refuses_stageGrant_to_mbRel : ([
    .stageGrant (.mctp (.vdm 8) []), .commit (.mctp (.vdm 8) []), .discard (.mctp (.vdm 8) []),
    .setAdmin (.mctp (.vdm 8) []), .kilvorUnknownCommand (.mctp (.vdm 8) []),
    .setLevelOutingChoice (.mctp (.vdm 8) []), .setLevelShelvesPerChain (.mctp (.vdm 8) []),
    .setLevelSpinUp (.mctp (.vdm 8) []), .setLevelLink (.mctp (.vdm 8) []), .setLevelRecovery (.mctp (.vdm 8) []),
    .setLevelTimetable (.mctp (.vdm 8) []), .setLevelRecipes (.mctp (.vdm 8) []),
    .setLevelStackPower (.mctp (.vdm 8) []), .setLevelCopy (.mctp (.vdm 8) []),
    .timetableBegin (.mctp (.vdm 8) []), .timetableRows (.mctp (.vdm 8) []), .timetableCommit (.mctp (.vdm 8) []),
    .timetableAbort (.mctp (.vdm 8) []), .recipeWrite (.mctp (.vdm 8) []), .recipeCommit (.mctp (.vdm 8) []),
    .recipeErase (.mctp (.vdm 8) []), .keyLoad (.mctp (.vdm 8) []), .keyGenerate (.mctp (.vdm 8) []),
    .keyErase (.mctp (.vdm 8) []), .keyCheck (.mctp (.vdm 8) []), .mbReqPost 8 0 0, .mbReqPost 0 5 0,
    .mbRplRel 8 0 0, .mbRplRel 0 5 0, .mbWakeWord0Write (.port 0) 356 0, .mbWakeWord0Write (.port 8) 0 0,
    .mbWakeWord0Write (.core 50 0) 0 0, .mbWakeWord0Write (.core 0 32) 0 0, .mbPost 50 0 0, .mbPost 0 356 0,
    .mbRel 50 0 0] : List Instr).all (fun c => !c.wf) = true := by decide

/-- Commands from mbRel to portResetAttempt with one number out of range each. -/
theorem test_wf_refuses_mbRel_to_portResetAttempt : ([
    .mbRel 0 356 0, .mailboxRequestTake 164, .sspResponseFrame 12 0 0 [], .sspResponseFrame 0 65536 0 [],
    .taskResponse 12 0 0, .taskResponse 0 65536 0, .xferRdy 12 0 0 0, .xferRdy 0 65536 0 0,
    .dataFrameReceive ⟨12, 0⟩ 0 0 [], .dataFrameReceive ⟨0, 4⟩ 0 0 [], .dataFrameReceive ⟨0, 0⟩ 65536 0 [],
    .dataFrameSend ⟨12, 0⟩ 0, .dataFrameSend ⟨0, 4⟩ 0, .dataFrameSend ⟨0, 0⟩ 65536,
    .commandFrameSend 6144, .taskSend 6144, .smpResponse 12 .finished, .openReject 6144 0 .retry,
    .openReject 0 65536 .retry, .openBackoffExpiry 6144 0, .openBackoffExpiry 0 65536, .connectionBreak 12 [],
    .commandTimeout 12 0, .commandTimeout 0 65536, .tmfTimeout 12 0, .tmfTimeout 0 65536,
    .busyRetryDelayExpiry 12 0, .nexusLossExpiry 6144, .broadcast 12 0 0, .broadcast 0 4 0, .rediscoveryStart 12,
    .laneUp 12 0 0, .laneUp 0 4 0, .dwordSyncLoss 12 0, .dwordSyncLoss 0 4, .fecThreshold 12 0, .fecThreshold 0 4,
    .portResetAttempt 12 false] : List Instr).all (fun c => !c.wf) = true := by decide

/-- Commands from discoveryTimeout to hCld with one number out of range each. -/
theorem test_wf_refuses_discoveryTimeout_to_hCld : ([
    .discoveryTimeout 12, .slotDiscoveryComplete 48, .chainLinkResetApply 12, .plannerChoice 12,
    .shelfPgFilteredEdge 48 false, .shelfPgDebounceExpiry 48, .powerGoodTimeout 48, .spinUpStartTimeout 48,
    .spinUpStep 48, .testUnitReadyPoll 48 0, .testUnitReadyPoll 0 96, .spinUpTimeout 48, .lingerExpiry 48,
    .maxOpenExpiry 48, .ageLimitPassed 48, .openingWindowEnd 48, .drainLimitExpiry 48, .closingSequenceDone 48,
    .settlingTimeout 48, .holdoffExpiry 48, .timetableRow 4 .clean [] [], .superframeBoundary 4, .seamEnd 4,
    .frameBeacon 4 0, .beaconMissing 4, .beaconAlignment 4 0 0 [], .ttShadowDataWrite 4 0, .preparationDone 12,
    .recipeStart 12, .hLd 12 false 0 0, .hamperLoadLands 12, .hSt 12 false false 0 0,
    .hSta 12 false false 0 0 false 0 0, .hMac 12 false 0 0 0 0 false false, .hGfOut 12 false 0 0,
    .hCld 12 false 0 0 false] : List Instr).all (fun c => !c.wf) = true := by decide

/-- Commands from hHsInit to blockMoveDone with one number out of range each. -/
theorem test_wf_refuses_hHsInit_to_blockMoveDone : ([
    .hHsInit 12 false 0, .hUpd 12 false 0 0 0, .hUpdn 12 false 0 0 0 0, .hFin 12 false 0 0 false 0,
    .hHsSave 12 false 0 0, .hHsRest 12 false 0 0, .hCrInit 12 false 0 0, .hEnc 12 false 0 0 0,
    .hDec 12 false 0 0 0, .hCrTag 12 false 0 0 0, .hCrSave 12 false 0 0, .hCrRest 12 false 0 0,
    .hAlXor 12 false 0 0 0, .hAlAnd 12 false 0 0 0, .hAlOr 12 false 0 0 0, .hAlMov 12 false 0 0, .hZero 12 false 0,
    .hInslc 12 false 0 0 false, .hNeq 12 false 0 0 0, .hPtest 12 false 0 0, .hCtNop 12 false,
    .hLoop 12 false false 0 0, .hCtIdle 12 false 0, .hAgrst 12 false 0, .hCtEnd 12 false, .recipeEnd 12,
    .runLimit 12, .stackSrEntryTimer 4, .srExitComplete 4, .dmaGoWrite 32 0, .dmaCtlWrite 32 0,
    .dmaTimerCtlWrite 16 0, .dmaTimerFire 16, .dmaRunStart 32, .dmaRunEnd 32, .blockMoveDone 50 0 false] : List Instr).all (fun c => !c.wf) = true := by decide

/-- Commands from blockMoveDone to sShr with one number out of range each. -/
theorem test_wf_refuses_blockMoveDone_to_sShr : ([
    .blockMoveDone 0 32 false, .stakeAcquireRead 50, .stakePeekRead 50, .stakeReleaseWrite 50, .stakeBankCycle 5,
    .fbRead 8 false, .fbClear (.port 8) 0, .fbClear (.core 50 0) 0, .fbClear (.core 0 32) 0,
    .counterLowHalfRead 8 none, .counterLowHalfRead 0 (some 4), .sysCycleLoRead 50 false, .sysIdataAccess 50 none,
    .sysWakeWrite 50 0, .interrupt 50, .watchdog 50, .iowaitResume 50 0, .iowaitResume 0 32, .sSaMov 50 0 0,
    .sSaAdd 50 0 0, .sSaSub 50 0 0, .sSaAnd 50 0 0, .sSaOr 50 0 0, .sSaXor 50 0 0, .sSaCmp 50 0 0,
    .sSb 50 0 false 0, .sAdd 50 0 0 0, .sAdc 50 0 0 0, .sSub 50 0 0 0, .sSbc 50 0 0 0, .sAnd 50 0 0 0,
    .sOr 50 0 0 0, .sXor 50 0 0 0, .sBic 50 0 0 0, .sShl 50 0 0 0, .sShr 50 0 0 0] : List Instr).all (fun c => !c.wf) = true := by decide

/-- Commands from sSar to sBmov with one number out of range each. -/
theorem test_wf_refuses_sSar_to_sBmov : ([
    .sSar 50 0 0 0, .sMov 50 0 0, .sMul 50 0 0 0, .sMulh 50 0 0 0, .sCmp 50 0 0, .sTst 50 0 0, .sDadd 50 0 0 0,
    .sDadc 50 0 0 0, .sDsub 50 0 0 0, .sDsbc 50 0 0 0, .sDadj 50 0 0, .sDcmp 50 0 0, .sDshl 50 0 0 0,
    .sDmd 50 0 0 0, .sCvbd 50 0 0 0, .sCvdb 50 0 0, .sMovi 50 0 0, .sAddi 50 0 0, .sSubi 50 0 0, .sAndi 50 0 0,
    .sOri 50 0 0, .sXori 50 0 0, .sCmpi 50 0 0, .sTsti 50 0 0, .sB 50 0 false .lr, .sCall 50 0 false .lr, .sRet 50,
    .sBr 50 0 false 0, .sCallr 50 0 false 0, .sRpt 50 0 0, .sIn 50 0 0, .sOut 50 0 0, .sInx 50 0 0, .sOutx 50 0 0,
    .sIowait 50 0 0, .sBmov 50 0] : List Instr).all (fun c => !c.wf) = true := by decide

/-- Commands from sGate to spinStartTimeout with one number out of range each. -/
theorem test_wf_refuses_sGate_to_spinStartTimeout : ([
    .sGate 50 0, .sGret 50, .sTrap 50 0, .sRfe 50, .sMfsw 50 0, .sMtsw 50 0, .sMflr 50 0, .sMtlr 50 0, .sSwap 50,
    .sIdle 50, .sSync 50, .sMfwp 50 0, .sMtwp 50 0, .reservedEncoding 50 0 0, .s0Sample 12 false,
    .monTest (some 112), .containmentDiscard (some 8), .containmentReset (some 8) false, .containmentEnd (some 8),
    .engineSilent 48, .pcieRefclkLoss 8, .islandGating (.engines 12), .islandGating (.sasPort 12),
    .spinStartTimeout 8 0 0, .spinStartTimeout 0 65536 0, .spinStartTimeout 0 0 96] : List Instr).all (fun c => !c.wf) = true := by decide

/-- Their neighbours inside the ranges are well formed. -/
theorem test_wf_accepts : ([.registerWrite (.core 49 31) 0 8 0, .configRequest 7 true 1023 0, .sqDoorbell 7 255,
    .bind (.traverse 7 65535), .bind (.engine 47), .legIssue 7 65535, .msixPendingSend 7 256, .mbPost 49 355 0,
    .commandFrameSend 6143, .broadcast 11 3 0, .testUnitReadyPoll 47 95, .hAgrst 11 true 0, .dmaGoWrite 31 0,
    .sRet 49, .islandGating (.sasPort 11)] : List Instr).all (fun c => c.wf) = true := by decide

/-! ### Values the manual gives -/

/-- "123456789" in ASCII. -/
def nineDigits : List Byte := (List.range 9).map fun i => BitVec.ofNat 8 (0x31 + i)

/-- All flags clear. -/
def f0 : Flags := { n := false, z := false, c := false, v := false, h := false }

/-- The check value of R408. -/
theorem test_crc16_check_value : crc16 nineDigits = 0xD0DB := by decide +kernel

/-- The check value of R385. -/
theorem test_crc64_check_value : crc64 nineDigits = 0x6C40DF5F0B497347 := by decide +kernel

/-- The check value of the CRC-32 of IEEE 802.3. -/
theorem test_crc32_check_value : crc32 nineDigits = 0xCBF43926 := by decide +kernel

/-- Steps 1, 5 and 6 of the worked decoding of a 4+2 stripe (10_ecath_codes.md). -/
theorem test_field_products : gfMul 8 0x78 = 0xE7 ∧ gfInv 6 = 0x7A ∧ gfMul 0x7A 0xB8 = 0x34 := by decide +kernel

/-- The first and the last word of the 16-digit add (13_sehar_isa.md): digits, C, Z and H. -/
theorem test_dadd_worked :
    (opDadd 0x3456 0x6544 f0).map (fun c => (c.r, c.f.c, c.f.z, c.f.h)) = some (0x0000, true, true, true) ∧
    (opDadc 0x1234 0x0000 { f0 with c := true }).map (fun c => (c.r, c.f.c, c.f.z, c.f.h)) = some (0x1235, false, false, false) := by
  decide +kernel

/-- The first repetition of the second pass of the tariff multiply: Q0 6900 and E0 2345 with digit 8 leave 5660 and
carry 2. -/
theorem test_dmd_worked : (opDmd 0x6900 0x2345 0x0008 f0).map (fun c => (c.1.r, c.2)) = some (0x5660, 0x2008) := by
  decide +kernel

/-- Port 4 of the worked apportionment: second of three ports. -/
theorem test_basic_record_worked :
    (basicRecord 3 1).ext = [(0, 251221), (1, 251221), (2, 251221), (3, 251221)] ∧ (basicRecord 3 1).trvQuota = 0x5555 ∧
    (basicRecord 3 1).share = 0x55 ∧ (basicRecord 3 1).keys = 1365 ∧ (basicRecord 3 1).shelves = 0x0F00F00F00F0 := by
  decide +kernel

/-- The span code 10+2 of the worked accumulator's life: its second parity row starts 0xF5, 0x8F. -/
theorem test_span_coefficients : cauchy 2 1 0 = 0xF5 ∧ cauchy 2 1 1 = 0x8F := by decide +kernel

/-- Cells of quarter 1 in the generated tables for ports 0, 4 and 6 with shares 86, 85 and 85 (08_timetable.md). -/
theorem test_generated_cells :
    let g : GenInput := { ports := [(0, 86), (4, 85), (6, 85)], profiles := List.replicate 12 0x0A }
    (genCell g 1 1 0, genCell g 1 1 10, genCell g 1 1 11, genCell g 1 1 12) = (0xFA, 0x16, 0xF2, 0) ∧
    (genCell g 1 3 0, genCell g 1 3 10, genCell g 1 3 11, genCell g 1 3 12) = (0xFE, 0, 0, 0x1E) := by
  decide +kernel

/-! ### Single steps -/

/-- SUM of two words in a register window: 0x7FFF + 1 wraps to 0x8000 and sets N and V. -/
theorem test_add_overflows : (opAdd 0x7FFF 1 f0).r = 0x8000 ∧ (opAdd 0x7FFF 1 f0).f.v = true ∧
    (opAdd 0x7FFF 1 f0).f.n = true ∧ (opAdd 0x7FFF 1 f0).f.c = false := by decide +kernel

/-- Words of Sehar instructions, written out from the encoding tables (R443, R445): SUB, GATE 3, DADJ, RFE and a
reserved one. -/
theorem test_sehar_words :
    decodeSehar 0b1000_0010_10_000001 0b00_000010_11_000011 = some (.la 2 0x81 0x02 0xC3) ∧
    decodeSehar 0b1101_0000_0000_0000 3 = some (.li 0x50 0 3) ∧
    decodeSehar 0b1001_0100_00_000101 0b00_000110_00_000000 = some (.la 0x14 5 6 0) ∧
    decodeSehar 0b1101_0011_0000_0000 0 = some (.li 0x53 0 0) ∧ decodeSehar 0b1111_1111_0000_0000 0 = none := by
  decide +kernel

/-- An empty queue idles. -/
theorem test_idle : step State.reset = .next State.reset := rfl

/-! ### Small states and operands -/

/-- An apportionment with four queues each way, 64 extents in quarter 0, two keys and shelf 0. -/
def wAp : Apportion :=
  { sqCount := 4, cqCount := 4, trvQuota := 16, keys := 2, share := 4, bar4Log2 := 20, ext := [(0, 64)], shelves := 1 }

/-- A configured port with its link up. -/
def wPort : Port :=
  { created := true, perst := false, linkUp := true, configured := true, ready := true, bar4En := true, bar4Log2 := 20
    ap := wAp }

/-- Ready mode with port 0. -/
def wP (x : Port) : State := { mode := .ready, ports := [(0, x)] }

/-- Bytes: zero but for the listed places. -/
def wBytes (n : Nat) (l : List (Nat × Byte)) : List Byte :=
  (List.range n).map fun i => ((l.find? fun e => e.1 == i).map (·.2)).getD 0

/-- A leg with an opcode, zero but for the listed bytes. -/
def wLeg (op : Byte) (l : List (Nat × Byte)) : List Byte := wBytes 32 ((0, op) :: l)

/-- Tag 5 of port 0, running on subchannel 0 of engine 0, its station's checks done. -/
def wTrv : Trv :=
  { port := 0, tag := 5, sq := 0, tenant := 0, prio := 0, urgent := false, addr := 0, sb := 0, affinity := none
    runs := [], budget := 100, deadline := none, arrival := 0, state := .running, bound := some (0, 0), stage := .ready }

/-- Ready mode with port 0 and one traverse. -/
def wT (v : Trv) : State := { mode := .ready, ports := [(0, wPort)], trvs := [v] }

/-- The traverse at a leg. -/
def wAt (l : List Byte) : Trv := { wTrv with group := [l] }

/-- A number that is the only one an option can hold. -/
theorem wOne {o : Option Nat} {n : Nat} (h : o.all (fun c => c == n) = true) : ∀ c, o = some c → c = n := by
  rintro c rfl
  exact eq_of_beq h

/-- A completion of tag 5 of port 0. -/
def wComp : Completion :=
  { port := 0, cq := 0, tag := 5, sq := 0, status := 0, entry := false, dataMoved := false, sense := false, dev := false
    result := 0, station := 0, detail0 := 0, detail1 := 0, urgent := false, notice := false, epoch := 0, ends := true }

/-- An enabled completion queue and an enabled submission queue. -/
def wCq : CompQueue := { en := true }
def wSq : SubQueue := { en := true, scanning := true }

/-- Vector 0 unmasked, MSI-X enabled. -/
def wMsix : Port := { wPort with config := [(20, 0x80000000)], msix := [(0, { masked := false })], pba := [0] }

/-- A 64-byte queue entry. -/
def wEntry (l : List (Nat × Byte)) : List Byte := wBytes 64 l

/-- Port 0 with one entry handed on. -/
def wHand (e : List Byte) : State := wP { wPort with handed := [{ q := 0, bytes := e }] }

/-- An admission of port 0. -/
def wAdm : Admitting := { port := 0, q := 0, entry := wEntry [(0, 1), (2, 5)] }

/-- Every quarter runs its timetable. -/
def wRun : Tab Quarter := (List.range 4).map fun q => (q, { mode := 0 })

/-- Port 0 in a device that admits traverses, with STARTs in admission. -/
def wAd (x : Port) (l : List Admitting) : State := { wP x with admitting := l, quarters := wRun }

/-- A command of tag 5's leg for handle 0. -/
def wCmd : Cmd :=
  { id := 1, handle := 0, owner := .leg 0 5 0, cdb := wBytes 16 [], dir := 1, len := 8
    segments := [{ addr := some 0, len := 8 }] }

/-- A task management function of tag 5's leg for handle 0. -/
def wTmf : Tmf := { function := 0x08, handle := 0, managed := none, owner := .leg 0 5, before := 9 }

/-- Chain 0 beside tag 5, with handle 0 attached. -/
def wCh (x : SasPort) : State := { wT wTrv with chains := [(0, x)], handles := [(0, { attached := some 7 })], shelves := [(0, { state := .opened })] }

/-- Shelf 0, populated, on chain 0. -/
def wSh (x : Shelf) : State := { wP wPort with shelves := [(0, x)], chains := [(0, { enclosures := [(0, 7)] })] }

/-- A traverse with shelf 0, populated, its drive in slot 4 found. -/
def wTs (v : Trv) (x : Shelf) : State :=
  { wT v with
    shelves := [(0, x)], chains := [(0, { enclosures := [(0, 7)] })]
    handles := [(4, { described := some [7], installed := true, attached := some 7 })] }

/-- A waiting basket entry. -/
def wBask : BasketEntry := { port := 0, tag := 5, joined := 0 }

/-- DMA channel 0. -/
def wD (x : DmaChannel) : State := { wP wPort with dma := [(0, x)] }

/-- A store image of profile 0x0A. -/
def wImg (ws : List (BitVec 32)) : Image :=
  { profile := 0x0A, flags := 0, preload := 0, counts := [], csrc := 0, agUse := 0, words := ws ++ [0xE0400000] }

/-- A launch of store recipe 0x8001 by tag 5. -/
def wLaunch : Launch := { port := 0, tag := 5, recipe := some 0x8001, key := 0xFFFF, addr := 0, len := 64 }

/-- The launch prepared. -/
def wPrep : Prepared := { launch := wLaunch, block := [], poisons := [], key := some 1 }

/-- Engine 0 in a store recipe of these op words, its lanes and contexts ready; generator 0 loads, 1 stores, 2
accumulates; V3 is sealed. -/
def wEng (ws : List (BitVec 32)) : Engine :=
  { running := some wPrep, slots := [(1, wImg ws)], h := [(0, { init := true })], k := [(0, { init := true })]
    ag := [(0, { count := 4 }), (1, { count := 4 }), (2, { count := 4 })], agUse := 57
    v := [(3, { sealedBy := true }), (4, { data := 5 })] }

/-- Ready mode with engine 0. -/
def wE (x : Engine) : State := { mode := .ready, engines := [(0, x)] }

/-- Ready mode with quarter 1. -/
def wQ (x : Quarter) : State := { mode := .ready, quarters := [(1, x)] }

/-- Ready mode with mailbox instance `i`. -/
def wM (i : Nat) (x : Mailbox) : State := { mode := .ready, mailboxes := [(i, x)] }

/-- A sound request of the BMC over SMBus. -/
def wReq (code : Nat) (b : List Byte) : KReq :=
  { sender := none, keyPath := true, sound := true, code, payload := b }

/-- The same as the message it comes in. -/
def wSrc (code : Byte) (b : List Byte) : KilvorSrc := .mctp (.smbus 0x60) (code :: b)

/-- Ready mode with port 0 and a request of host mailbox 0 in service. -/
def wSrv (ws : List Word) : State := { wP wPort with service := [{ inst := 0, words := ws }] }

/-- The request. -/
def wSv (ws : List Word) : Service := { inst := 0, words := ws }

/-- A core out of reset. -/
def wCore : Core := { inReset := false }

/-- Ready mode with core 0. -/
def wK (x : Core) : State := { mode := .ready, cores := [(0, x)] }

/-- Core 0 as its next instruction finds it. -/
def wX (x : Core) : Core := ((wK x).settle 0).core 0

/-- Context 0 in user mode, its code at 0x8000 on, its data at 0 to 0xFFF. -/
def wUser : Ctx := { s := false, pc := 0x8000, ubase := 0, ulim := 0xFFF }

/-- A reading. -/
def wRead : Reading := { kind := 1, seq := 3, bytes := [], counters := [], status := 0 }

/-- A containment of cause FLR. -/
def wCont : Containment := { cause := 0x01, phase := .stopping, resetBlocks := true, resetConfig := true }

/-- A staged image of slot 15: one op, NOP with STOP, with its CRC. -/
def wStage : Staging :=
  let body : List Byte := [0, 0, 0x40, 0xE0]
  let head := patchBytes (wBytes 64 [(0, 1), (2, 0x0A), (4, 1)]) 28 (leBytes 4 (crc32 body).toNat)
  { slot := 15, bytes := (List.range 68).map fun i => (i, (head ++ body).getD i 0) }

/-- An accumulator descriptor at place 0: extent 1, one extent, TOTAL 1, 4,096 bytes. -/
def wDesc : List Host.Cell := [(0, 1), (4, 1), (16, 1), (21, 16)]


/-- A reading the unsealed Monument took, as a checkpoint. -/
def wCkpt : Checkpoint := { reading := (({} : Monument).take 1).1, tamper := false }

theorem wCkpt_valid (m : Monument) (h : m.isSealed = false) : wCkpt.valid m = true :=
  Sys2Proof.Laws.taken_valid {} m 1 false rfl h

/-- The parts of an ordinary instruction, and the core it leaves. -/
def wF (c : Instr) : Core → Try Core := match seharCommand c with
  | some (_, _, f) => f
  | none => fun x => .ok x
def wFm (c : Instr) : Form := match seharCommand c with
  | some (_, fm, _) => fm
  | none => {}
def wY (c : Instr) (x : Core) : Core := match wF c x with
  | .ok y => y
  | .error _ => x
def wExc (c : Instr) (x : Core) : Exc := match wF c x with
  | .ok _ => { cause := 0 }
  | .error e => e

/-- A core whose window holds these words. -/
def wReg (ws : List Word) : Core := { inReset := false, dmem := (List.range ws.length).zip ws }

/-- A core with its running context. -/
def wCtx (y : Ctx) : Core := { inReset := false, ctxs := [(0, y)] }

theorem wOpen : ({} : Quarter).openTables = true := by
  have h : ∀ n, (List.range 10).all (fun l => decide (rowByte (startRow n) l < 2)) = true := by
    intro n
    unfold startRow
    split <;> decide +kernel
  exact List.all_eq_true.mpr fun n _ => h n

/-- What the device meets at the stages of the boot timeline: both image slots blank. -/
def wBoot : BootReport :=
  { directory := [], trained := true, slotA := { header := [], body := [] }, slotB := { header := [], body := [] }
    keysOk := true, portRecord := [] }

/-! ### The hypotheses of the statements can be met -/

/-- The hypotheses of the clauses of StepRunsFrontCommand, in their order. -/
theorem witness_StepRunsFrontCommand :
    (∃ (s : State) (c : Instr) (rest : List Instr), (s.pending = c :: rest)) ∧
    (∃ (s : State), (s.pending = []) ∧ ((s.mode = .off ∨ s.mode = .reset ∨ s.mode = .tripped))) ∧
    (∃ (s : State), (s.pending = []) ∧ (s.mode ≠ .off) ∧ (s.mode ≠ .reset) ∧ (s.mode ≠ .tripped)) :=
  ⟨⟨{ pending := [.admission] }, .admission, [], by decide +kernel⟩,
   ⟨{ mode := .reset }, by decide +kernel⟩,
   ⟨{ mode := .ready }, by decide +kernel⟩⟩

/-- The hypotheses of the clauses of MemoryFormKeptByEveryStep, in their order. -/
theorem witness_MemoryFormKeptByEveryStep :
    ∃ (s : State) (t : State), (Memory.wf s.mem = true) ∧ (step s = .next t) :=
  ⟨{ mode := .ready }, { mode := .ready, devMs := 1 }, by decide +kernel, rfl⟩

/-- The hypotheses of the clauses of QueueIsFirstInFirstOut, in their order. -/
theorem witness_QueueIsFirstInFirstOut :
    ∃ (s : State) (t : State), (step s = .next t) :=
  ⟨{ mode := .ready }, { mode := .ready, devMs := 1 }, rfl⟩

/-- The hypotheses of the clauses of CompletionsReachTheHost, in their order. -/
theorem witness_CompletionsReachTheHost :
    (∃ (s : State) (p : Nat) (c : Completion) (rest : List Completion), (s.released = c :: rest) ∧ (c.port = p) ∧
      (((s.port p).cq c.cq).stalled = false) ∧ ((s.port p).canPost c.cq c.notice = true)) ∧
    (∃ (s : State) (p : Nat) (c : Completion) (rest : List Completion), (s.released = c :: rest) ∧ (c.port = p) ∧
      ((s.port p).canPost c.cq c.notice = false)) ∧
    (∃ (s : State) (frame : Nat), ((∀ q, q < 4 → (frame + collectorDelay q + 1) * 256 ≤ (s.quarter q).absRow)) ∧
      ((∀ r ∈ s.collector, ∀ g, r.frame = some g → frame ≤ g))) ∧
    (∃ (s : State) (frame : Nat) (q : Nat), (q < 4) ∧ ((s.quarter q).absRow < (frame + collectorDelay q + 1) * 256)) ∧
    (∃ (s : State) (p : Nat) (v : Nat), (((s.port p).vec v).timerOn = true)) ∧
    (∃ (s : State) (p : Nat) (v : Nat), (v ∈ (s.port p).pba) ∧ ((s.port p).canSend v = true)) ∧
    (∃ (s : State) (p : Nat) (tag : Nat) (r : HostRead) (v : Trv) (c : Completion), ((s.port p).reads.find? (fun r => r.purpose = .readback tag && r.sent) = some r) ∧
      ((s.port p).reads.find? (fun u => u.id = r.id && u.sent) = some r) ∧ (s.trv? p tag = some v) ∧
      (v.readback = true) ∧ (v.completion = some c) ∧ (v.sbLate = false)) :=
  ⟨⟨{ wP { wPort with cqs := [(0, wCq)] } with released := [wComp] }, 0, wComp, [], by decide +kernel⟩,
   ⟨{ wP wPort with released := [wComp] }, 0, wComp, [], by decide +kernel⟩,
   ⟨{ mode := .ready, collector := [{ frame := some 3, engine := none, comp := wComp }], quarters := [(0, { absRow := 9999 }), (1, { absRow := 9999 }), (2, { absRow := 9999 }), (3, { absRow := 9999 })] },
     3, by decide +kernel⟩,
   ⟨{ mode := .ready }, 3, 0, by decide +kernel⟩,
   ⟨wP { wPort with vecs := [(0, { timerOn := true })] }, 0, 0, by decide +kernel⟩,
   ⟨wP wMsix, 0, 0, by decide +kernel⟩,
   ⟨{ wP { wPort with reads := [{ id := 3, addr := 0, len := 4, purpose := .readback 5 }] } with trvs := [{ wTrv with readback := true, completion := some wComp }] },
     0, 5, { id := 3, addr := 0, len := 4, purpose := .readback 5 },
     { wTrv with readback := true, completion := some wComp }, wComp, by decide +kernel⟩⟩

/-- The hypotheses of the clauses of QueuesAreConfiguredAndScanned, in their order, part 1 of 2. -/
theorem witness_QueuesAreConfiguredAndScanned_1 :
    (∃ (s : State) (p : Nat) (q : Nat), (s.barOpen p = true) ∧ (q < (s.port p).ap.sqCount) ∧ (s.contained p = false) ∧
      (((s.port p).sq q).en = true)) ∧
    (∃ (s : State) (p : Nat) (q : Nat), (s.barOpen p = true) ∧ (q < (s.port p).ap.cqCount) ∧ (s.contained p = true)) ∧
    (∃ (s : State) (p : Nat) (q : Nat) (h : BitVec 16), (s.barOpen p = true) ∧ (s.contained p = false) ∧
      (q < (s.port p).ap.cqCount) ∧ (((s.port p).cq q).en = true) ∧ (h.toNat < 2 ^ ((s.port p).cq q).log2) ∧
      (((s.port p).cq q).waiting = []) ∧
      ((h.toNat + 2 ^ ((s.port p).cq q).log2 - ((s.port p).cq q).head) % 2 ^ ((s.port p).cq q).log2 ≤ ((s.port p).cq q).unreturned)) ∧
    (∃ (s : State) (p : Nat) (q : Nat) (h : BitVec 16), (s.barOpen p = true) ∧ (s.contained p = false) ∧
      (q < (s.port p).ap.cqCount) ∧ (((s.port p).cq q).en = true) ∧ (2 ^ ((s.port p).cq q).log2 ≤ h.toNat)) ∧
    (∃ (s : State) (p : Nat) (q : Nat) (v : BitVec 32), (s.barOpen p = true) ∧ (v.getLsbD 31 = true) ∧
      (q < (s.port p).ap.sqCount) ∧ (bitsOf v.toNat 23 16 < (s.port p).ap.cqCount) ∧ (4 ≤ bitsOf v.toNat 4 0) ∧
      (bitsOf v.toNat 4 0 ≤ 16) ∧ (((s.port p).sq q).en = false) ∧ (s.sqIdle p q = true) ∧
      (((s.port p).cq (bitsOf v.toNat 23 16)).en = true)) ∧
    (∃ (s : State) (p : Nat) (q : Nat) (v : BitVec 32), (s.barOpen p = true) ∧ (v.getLsbD 31 = true) ∧
      (q < (s.port p).ap.sqCount) ∧ (bitsOf v.toNat 23 16 < (s.port p).ap.cqCount) ∧ (4 ≤ bitsOf v.toNat 4 0) ∧
      (bitsOf v.toNat 4 0 ≤ 16) ∧ (((s.port p).sq q).en = false) ∧ (((s.port p).cq (bitsOf v.toNat 23 16)).en = false)) ∧
    (∃ (s : State) (p : Nat) (q : Nat) (v : BitVec 32), (s.barOpen p = true) ∧ (v.getLsbD 31 = false) ∧
      (q < (s.port p).ap.sqCount) ∧ (bitsOf v.toNat 23 16 < (s.port p).ap.cqCount) ∧ (4 ≤ bitsOf v.toNat 4 0) ∧
      (bitsOf v.toNat 4 0 ≤ 16) ∧ (((s.port p).sq q).en = true) ∧ (((s.port p).sq q).cqid = bitsOf v.toNat 23 16) ∧
      (((s.port p).sq q).log2 = bitsOf v.toNat 4 0)) :=
  ⟨⟨wP { wPort with sqs := [(3, wSq)] }, 0, 3, by decide +kernel⟩,
   ⟨{ wP wPort with deviceContain := some { cause := 0x12, phase := .stopping, resetBlocks := false, resetConfig := false } },
     0, 3, by decide +kernel⟩,
   ⟨wP { wPort with cqs := [(3, { wCq with unreturned := 15 })] }, 0, 3, 15, by decide +kernel⟩,
   ⟨wP { wPort with cqs := [(3, wCq)] }, 0, 3, 16, by decide +kernel⟩,
   ⟨wP { wPort with cqs := [(1, wCq)] }, 0, 3, 0x80010010, by decide +kernel⟩,
   ⟨wP wPort, 0, 3, 0x80010004, by decide +kernel⟩,
   ⟨wP { wPort with sqs := [(3, { wSq with cqid := 1, log2 := 4 })] }, 0, 3, 0x00010004, by decide +kernel⟩⟩

/-- The hypotheses of the clauses of QueuesAreConfiguredAndScanned, in their order, part 2 of 2. -/
theorem witness_QueuesAreConfiguredAndScanned_2 :
    (∃ (s : State) (p : Nat) (q : Nat) (v : BitVec 32), (s.barOpen p = true) ∧ (v.getLsbD 31 = true) ∧
      (q < (s.port p).ap.cqCount) ∧ (bitsOf v.toNat 23 16 < (s.port p).ap.cqCount) ∧ (4 ≤ bitsOf v.toNat 4 0) ∧
      (bitsOf v.toNat 4 0 ≤ 16) ∧ (((s.port p).cq q).en = false)) ∧
    (∃ (s : State) (p : Nat) (q : Nat) (v : BitVec 32), (s.barOpen p = true) ∧ (v.getLsbD 31 = false) ∧
      (q < (s.port p).ap.cqCount) ∧ (bitsOf v.toNat 23 16 < (s.port p).ap.cqCount) ∧ (4 ≤ bitsOf v.toNat 4 0) ∧
      (bitsOf v.toNat 4 0 ≤ 16) ∧ (((s.port p).cq q).en = true) ∧ (((s.port p).cq q).vector = bitsOf v.toNat 23 16) ∧
      (((s.port p).cq q).log2 = bitsOf v.toNat 4 0)) ∧
    (∃ (s : State) (p : Nat) (q : Nat) (v : BitVec 32), (s.barOpen p = true) ∧ (q < (s.port p).ap.cqCount) ∧
      (v.getLsbD 31 = true) ∧ (((s.port p).vec q).expert = true) ∧ (1 ≤ bitsOf v.toNat 8 0) ∧
      (bitsOf v.toNat 8 0 ≤ 256)) ∧
    (∃ (s : State) (p : Nat) (q : Nat) (v : BitVec 32), (s.barOpen p = true) ∧ (q < (s.port p).ap.sqCount) ∧
      (v.getLsbD 0 = true)) ∧
    (∃ (s : State) (p : Nat) (q : Nat), (((s.port p).sq q).invBusy = true)) ∧
    (∃ (s : State) (p : Nat) (q : Nat) (n : Nat) (a : Nat), ((s.port p).d3hot = false) ∧ (s.contained p = false) ∧
      ((s.port p).reads.any HostRead.isRing = false) ∧ ((s.port p).nextTurn = some q) ∧
      (((s.port p).sq q).cache = []) ∧ ((s.port p).canRead = true) ∧
      (n = 64 * Nat.min 8 (2 ^ ((s.port p).sq q).log2 - ((s.port p).sq q).head)) ∧
      (a = ((s.port p).sq q).base.toNat + 64 * ((s.port p).sq q).head)) ∧
    (∃ (s : State) (p : Nat) (q : Nat) (e : List Byte), ((s.port p).d3hot = false) ∧ (s.contained p = false) ∧
      ((s.port p).reads.any HostRead.isRing = false) ∧ ((s.port p).nextTurn = some q) ∧
      (((s.port p).sq q).cache = [e])) :=
  ⟨⟨wP wPort, 0, 3, 0x80030010, by decide +kernel⟩,
   ⟨wP { wPort with cqs := [(3, { wCq with vector := 2, log2 := 16 })] }, 0, 3, 0x00020010, by decide +kernel⟩,
   ⟨wP { wPort with vecs := [(3, { expert := true })] }, 0, 3, 0x80000100, by decide +kernel⟩,
   ⟨wP wPort, 0, 3, 1, by decide +kernel⟩,
   ⟨wP { wPort with sqs := [(3, { wSq with invBusy := true })] }, 0, 3, by decide +kernel⟩,
   ⟨wP { wPort with sqs := [(3, { wSq with log2 := 4 })] }, 0, 3, 512, 0, by decide +kernel⟩,
   ⟨wP { wPort with sqs := [(3, { wSq with cache := [wEntry [(0, 3)]] })] }, 0, 3, wEntry [(0, 3)], by decide +kernel⟩⟩

/-- The hypotheses of the clauses of EntriesAreTaken, in their order. -/
theorem witness_EntriesAreTaken :
    (∃ (s : State) (p : Nat) (h : Handed) (rest : List Handed), ((s.port p).handed = h :: rest) ∧
      (entryType h.bytes = 1) ∧ (entryOk h.bytes = true) ∧ (s.tagUsed p (entryTag h.bytes) = false) ∧
      (s.foreign p (entryAddr h.bytes 8) 64 = false) ∧ (s.foreign p (entryAddr h.bytes 16) 256 = false)) ∧
    (∃ (s : State) (p : Nat) (h : Handed) (rest : List Handed), ((s.port p).handed = h :: rest) ∧
      (entryType h.bytes = 1) ∧ (entryOk h.bytes = true) ∧ (s.tagUsed p (entryTag h.bytes) = true)) ∧
    (∃ (s : State) (p : Nat) (h : Handed) (rest : List Handed) (v : Trv), ((s.port p).handed = h :: rest) ∧
      (entryType h.bytes = 2) ∧ (entryOk h.bytes = true) ∧ (s.trv? p (entryTarget h.bytes) = some v) ∧
      (v.state = .held) ∧ (v.station = entryStation h.bytes)) ∧
    (∃ (s : State) (p : Nat) (h : Handed) (rest : List Handed), ((s.port p).handed = h :: rest) ∧
      (entryType h.bytes = 3) ∧ (entryOk h.bytes = true)) ∧
    (∃ (s : State) (p : Nat) (h : Handed) (rest : List Handed) (v : Trv), ((s.port p).handed = h :: rest) ∧
      (entryType h.bytes = 4) ∧ (entryOk h.bytes = true) ∧ (s.trv? p (entryTarget h.bytes) = some v) ∧
      (v.state = .running)) :=
  ⟨⟨wHand (wEntry [(0, 1), (2, 5)]), 0, { q := 0, bytes := wEntry [(0, 1), (2, 5)] }, [], by decide +kernel⟩,
   ⟨{ wHand (wEntry [(0, 1), (2, 5)]) with trvs := [wTrv] }, 0, { q := 0, bytes := wEntry [(0, 1), (2, 5)] }, [],
     by decide +kernel⟩,
   ⟨{ wHand (wEntry [(0, 2), (24, 5)]) with trvs := [{ wTrv with state := .held }] }, 0,
     { q := 0, bytes := wEntry [(0, 2), (24, 5)] }, [], { wTrv with state := .held }, by decide +kernel⟩,
   ⟨wHand (wEntry [(0, 3)]), 0, { q := 0, bytes := wEntry [(0, 3)] }, [], by decide +kernel⟩,
   ⟨{ wHand (wEntry [(0, 4), (24, 5)]) with trvs := [wTrv] }, 0, { q := 0, bytes := wEntry [(0, 4), (24, 5)] }, [],
     wTrv, by decide +kernel⟩⟩

/-- The hypotheses of the clauses of StartsAreAdmitted, in their order. -/
theorem witness_StartsAreAdmitted :
    (∃ (s : State) (a : Admitting), (s.nextAdmit = some a) ∧ (a.fault = none) ∧ (a.header = none) ∧
      (s.liveCount a.port < (s.port a.port).ap.trvQuota) ∧ (isBufAddr (entryAddr a.entry 8) = false) ∧
      ((s.port a.port).canRead = true)) ∧
    (∃ (s : State) (a : Admitting) (h : List Byte), (s.nextAdmit = some a) ∧ (a.fault = none) ∧ (a.header = some h)) ∧
    (∃ (s : State) (a : Admitting) (h : List Byte) (runs : List Run), (s.nextAdmit = some a) ∧ (a.fault = none) ∧
      (a.header = some h) ∧ (headerOk h = true) ∧ (hdrList h = false) ∧ (s.foreign a.port (hdrSb h) 256 = false) ∧
      (runsOk (chunks 8 (hdrRuns h) (h.drop 32)) = true) ∧ (runs = (chunks 8 (hdrRuns h) (h.drop 32)).map runOf) ∧
      ((∀ r ∈ runs, ∀ i, i < r.count → s.ownsExtent a.port (r.first + i) = true))) ∧
    (∃ (s : State) (u : State) (a : Admitting) (h : List Byte), (s.nextAdmit = some a) ∧ (a.fault = none) ∧
      (a.header = none) ∧ (s.liveCount a.port < (s.port a.port).ap.trvQuota) ∧
      (isBufAddr (entryAddr a.entry 8) = true) ∧ (s.readable (bufPos (entryAddr a.entry 8)) 64 = (u, true)) ∧
      (s.poisoned (bufPos (entryAddr a.entry 8)) 64 = false) ∧ (h = s.readBuf (bufPos (entryAddr a.entry 8)) 64) ∧
      (headerOk h = true) ∧ (hdrList h = false) ∧ (hdrRuns h = 0) ∧ (s.foreign a.port (hdrSb h) 256 = false)) ∧
    (∃ (s : State) (u : State) (a : Admitting), (s.nextAdmit = some a) ∧ (a.fault = none) ∧ (a.header = none) ∧
      (s.liveCount a.port < (s.port a.port).ap.trvQuota) ∧ (isBufAddr (entryAddr a.entry 8) = true) ∧
      (s.readable (bufPos (entryAddr a.entry 8)) 64 = (u, false))) ∧
    (∃ (s : State) (a : Admitting) (h : List Byte), (s.nextAdmit = some a) ∧ (a.fault = none) ∧ (a.header = some h) ∧
      (headerOk h = false)) ∧
    (∃ (s : State) (a : Admitting), (s.nextAdmit = some a) ∧ (a.fault = none) ∧ (a.header = none) ∧
      ((s.port a.port).ap.trvQuota ≤ s.liveCount a.port)) ∧
    (∃ (s : State) (a : Admitting) (st : BitVec 8), (s.nextAdmit = some a) ∧ (a.fault = some st)) ∧
    (∃ (s : State) (a : Admitting) (h : List Byte), (hdrNowait h = false) ∧ (s.trv? a.port (entryTag a.entry) = none)) :=
  ⟨⟨wAd wPort [wAdm], wAdm, by decide +kernel⟩,
   ⟨wAd wPort [{ wAdm with header := some (wEntry []) }], { wAdm with header := some (wEntry []) }, wEntry [],
     by decide +kernel⟩,
   ⟨{ wAd wPort [{ wAdm with header := some (wEntry [(3, 1), (32, 63), (36, 1)]) }] with extents := [{ first := 0, count := 64, owner := some 0, last := none }] },
     { wAdm with header := some (wEntry [(3, 1), (32, 63), (36, 1)]) }, wEntry [(3, 1), (32, 63), (36, 1)],
     [{ first := 63, mode := .read, count := 1 }], by decide +kernel⟩,
   ⟨{ wAd wPort [{ wAdm with entry := wEntry [(0, 1), (2, 5), (15, 128)] }] with extents := [{ first := 0, count := 64, owner := some 0, last := none }] },
     { wAd wPort [{ wAdm with entry := wEntry [(0, 1), (2, 5), (15, 128)] }] with extents := [{ first := 0, count := 64, owner := some 0, last := none }] },
     { wAdm with entry := wEntry [(0, 1), (2, 5), (15, 128)] }, wEntry [], by decide +kernel⟩,
   ⟨{ wAd wPort [{ wAdm with entry := wEntry [(0, 1), (2, 5), (15, 128)] }] with quarters := wRun.set 0 { mode := 0, stack := .selfRefresh } },
     ({ wAd wPort [{ wAdm with entry := wEntry [(0, 1), (2, 5), (15, 128)] }] with quarters := wRun.set 0 { mode := 0, stack := .selfRefresh } }).wakeStack 0,
     { wAdm with entry := wEntry [(0, 1), (2, 5), (15, 128)] }, by decide +kernel⟩,
   ⟨wAd wPort [{ wAdm with header := some (wEntry [(12, 1)]) }], { wAdm with header := some (wEntry [(12, 1)]) },
     wEntry [(12, 1)], by decide +kernel⟩,
   ⟨wAd { wPort with ap := {} } [wAdm], wAdm, by decide +kernel⟩,
   ⟨wAd wPort [{ wAdm with fault := some 0x21 }], { wAdm with fault := some 0x21 }, 0x21, by decide +kernel⟩,
   ⟨wP wPort, wAdm, wEntry [], by decide +kernel⟩⟩

/-- The hypotheses of the clauses of ReadyTraversesAreBound, in their order. -/
theorem witness_ReadyTraversesAreBound :
    (∃ (s : State) (p : Nat) (tag : Nat) (e : Nat) (v : Trv), (s.trv? p tag = some v) ∧ (v.state = .ready) ∧
      (v.readyParty = none) ∧ (s.contained p = false) ∧ (s.bestEngine v.engineSet = some e) ∧
      (s.stacksReady v (quarterOfParty (partyOfEngine e)) = true)) ∧
    (∃ (s : State) (p : Nat) (tag : Nat) (v : Trv), (s.trv? p tag = some v) ∧ (v.state = .ready) ∧
      (v.readyParty = none) ∧ (s.contained p = false) ∧ (s.bestEngine v.engineSet = none)) ∧
    (∃ (s : State) (e : Nat) (v : Trv), (s.readyHead (partyOfEngine e) = some v) ∧ ((s.busySubs e).length < 32) ∧
      (s.stacksReady v (quarterOfParty (partyOfEngine e)) = true)) ∧
    (∃ (s : State) (v : Trv) (e : Nat), (v ∈ s.trvs) ∧ ((s.busySubs e).length < 32) ∧ (s.entryLost v = false)) ∧
    (∃ (s : State) (v : Trv) (e : Nat) (n : Nat), ((s.busySubs e).length < 32) ∧ (v.entry = some n) ∧ (n < 65536) ∧
      (s.entryLost v = true)) :=
  ⟨⟨wT { wTrv with state := .ready, bound := none }, 0, 5, 0, { wTrv with state := .ready, bound := none },
     by decide +kernel⟩,
   ⟨{ wT { wTrv with state := .ready, bound := none } with trvs := { wTrv with state := .ready, bound := none } :: (List.range 384).map fun i => { wTrv with tag := 100 + i, bound := some (i / 32, i % 32) } },
     0, 5, { wTrv with state := .ready, bound := none }, by decide +kernel⟩,
   ⟨wT { wTrv with state := .ready, bound := none, readyParty := some 0 }, 0,
     { wTrv with state := .ready, bound := none, readyParty := some 0 }, by decide +kernel⟩,
   ⟨wT wTrv, wTrv, 0, by decide +kernel⟩,
   ⟨{ wT { wTrv with state := .ready, bound := none, entry := some 0 } with poison := entryBeats 0 },
     { wTrv with state := .ready, bound := none, entry := some 0 }, 0, 0, by decide +kernel⟩⟩

/-- The hypotheses of the clauses of TraverseTimersExpire, in their order. -/
theorem witness_TraverseTimersExpire :
    (∃ (s : State) (p : Nat) (tag : Nat) (e : Nat) (c : Nat) (v : Trv), (s.trv? p tag = some v) ∧
      (v.bound = some (e, c)) ∧ (v.state = .running) ∧ (v.stage = .awaiting) ∧ (waitsParked (legOp v.leg) = true) ∧
      (s.readyList (partyOfEngine e) ≠ [])) ∧
    (∃ (s : State) (p : Nat) (tag : Nat) (d : Nat) (v : Trv), (s.trv? p tag = some v) ∧ (v.deadline = some d) ∧
      (v.state = .pending)) ∧
    (∃ (s : State) (p : Nat) (tag : Nat) (d : Nat) (v : Trv), (s.trv? p tag = some v) ∧ (v.deadline = some d) ∧
      (v.state = .held)) ∧
    (∃ (s : State) (p : Nat) (tag : Nat) (d : Nat) (v : Trv), (s.trv? p tag = some v) ∧ (v.deadline = some d) ∧
      (v.state = .running)) ∧
    (∃ (s : State) (p : Nat) (tag : Nat) (v : Trv), (s.trv? p tag = some v) ∧ (v.state = .waiting)) ∧
    (∃ (s : State) (p : Nat) (tag : Nat) (v : Trv), (s.trv? p tag = some v) ∧ (v.state = .pausing)) :=
  ⟨⟨{ wT wTrv with trvs := [{ wAt (wLeg 0x10 []) with stage := .awaiting }, { wTrv with tag := 6, state := .ready, bound := none, readyParty := some 0 }] },
     0, 5, 0, 0, { wAt (wLeg 0x10 []) with stage := .awaiting }, by decide +kernel⟩,
   ⟨wT { wTrv with deadline := some 9, state := .pending, bound := none }, 0, 5, 9,
     { wTrv with deadline := some 9, state := .pending, bound := none }, by decide +kernel⟩,
   ⟨wT { wTrv with deadline := some 9, state := .held, bound := none }, 0, 5, 9,
     { wTrv with deadline := some 9, state := .held, bound := none }, by decide +kernel⟩,
   ⟨wT { wTrv with deadline := some 9 }, 0, 5, 9, { wTrv with deadline := some 9 }, by decide +kernel⟩,
   ⟨wT { wTrv with state := .waiting, bound := none }, 0, 5, { wTrv with state := .waiting, bound := none },
     by decide +kernel⟩,
   ⟨wT { wTrv with state := .pausing, bound := none }, 0, 5, { wTrv with state := .pausing, bound := none },
     by decide +kernel⟩⟩

/-- The hypotheses of the clauses of StationsStart, in their order. -/
theorem witness_StationsStart :
    (∃ (s : State) (p : Nat) (tag : Nat) (v : Trv), (s.trv? p tag = some v) ∧ (v.state = .running) ∧
      (v.bound.isSome = true) ∧ (v.fetching = false) ∧ (v.stage = .fresh) ∧ (v.run = []) ∧ (v.fetched = []) ∧
      (isBufAddr v.addr = false) ∧ ((s.port v.port).canRead = true)) ∧
    (∃ (s : State) (p : Nat) (tag : Nat) (v : Trv) (b : List Byte), (s.trv? p tag = some v) ∧ (v.state = .running) ∧
      (v.bound.isSome = true) ∧ (v.fetching = false) ∧ (v.stage = .fresh) ∧ (v.run = []) ∧
      (v.fetched.find v.station = some (.leg b)) ∧ (v.deadlinePassed = true)) ∧
    (∃ (s : State) (p : Nat) (tag : Nat) (v : Trv) (b : List Byte), (s.trv? p tag = some v) ∧ (v.state = .running) ∧
      (v.bound.isSome = true) ∧ (v.fetching = false) ∧ (v.stage = .fresh) ∧ (v.run = []) ∧
      (v.fetched.find v.station = some (.leg b)) ∧ (v.deadlinePassed = false) ∧ (legHold b = true) ∧
      (v.released ≠ some v.station) ∧ (v.sb = 0)) ∧
    (∃ (s : State) (p : Nat) (tag : Nat) (v : Trv) (b : List Byte), (s.trv? p tag = some v) ∧ (v.state = .running) ∧
      (v.bound.isSome = true) ∧ (v.fetching = false) ∧ (v.stage = .fresh) ∧ (v.run = []) ∧
      (v.fetched.find v.station = some (.leg b)) ∧ (v.deadlinePassed = false) ∧ (legHold b = false) ∧
      (v.groupHere = .got [b]) ∧ (v.budget < v.legs + 1)) ∧
    (∃ (s : State) (p : Nat) (tag : Nat) (v : Trv) (b : List Byte), (s.trv? p tag = some v) ∧ (v.state = .running) ∧
      (v.bound.isSome = true) ∧ (v.fetching = false) ∧ (v.stage = .fresh) ∧ (v.run = []) ∧
      (v.fetched.find v.station = some (.leg b)) ∧ (v.deadlinePassed = false) ∧ (legFlags b = 0) ∧ (b.length = 32) ∧
      (legOp b = 0x47) ∧ (zeroAt b 2 30 = true) ∧ (v.groupHere = .got [b]) ∧ (v.legs + 1 ≤ v.budget) ∧
      (v.notes = []) ∧ (s.waitersOn p tag (some (v.station, 1)) = [])) :=
  ⟨⟨wT { wTrv with stage := .fresh }, 0, 5, { wTrv with stage := .fresh }, by decide +kernel⟩,
   ⟨wT { wTrv with stage := .fresh, fetched := [(0, .leg (wLeg 0x47 []))], deadlinePassed := true }, 0, 5,
     { wTrv with stage := .fresh, fetched := [(0, .leg (wLeg 0x47 []))], deadlinePassed := true }, wLeg 0x47 [],
     by decide +kernel⟩,
   ⟨wT { wTrv with stage := .fresh, fetched := [(0, .leg (wLeg 0x47 [(1, 8)]))] }, 0, 5,
     { wTrv with stage := .fresh, fetched := [(0, .leg (wLeg 0x47 [(1, 8)]))] }, wLeg 0x47 [(1, 8)], by decide +kernel⟩,
   ⟨wT { wTrv with stage := .fresh, fetched := [(0, .leg (wLeg 0x47 []))], legs := 100 }, 0, 5,
     { wTrv with stage := .fresh, fetched := [(0, .leg (wLeg 0x47 []))], legs := 100 }, wLeg 0x47 [],
     by decide +kernel⟩,
   ⟨wT { wTrv with stage := .fresh, fetched := [(0, .leg (wLeg 0x47 []))], legs := 99 }, 0, 5,
     { wTrv with stage := .fresh, fetched := [(0, .leg (wLeg 0x47 []))], legs := 99 }, wLeg 0x47 [], by decide +kernel⟩⟩

/-- The hypotheses of the clauses of LegEndsContinueOrEnd, in their order. -/
theorem witness_LegEndsContinueOrEnd :
    (∃ (v : Trv) (r : LegResult), (r.status = stOk) ∧ (r.sense = []) ∧
      ((legNext (v.group.getLastD []) = true ∨ legOp v.leg = 0x40)) ∧ (legOp v.leg ≠ 0x47) ∧
      (r.jump.getD (v.station + v.group.length) ≤ maxStation)) ∧
    (∃ (v : Trv) (r : LegResult), (continuing r.status (shortOkOf v.leg) = false)) ∧
    (∃ (v : Trv) (r : LegResult), (r.status = stOk) ∧ ((legNext (v.group.getLastD []) = false ∨ legOp v.leg = 0x47)) ∧
      (legOp v.leg ≠ 0x40)) ∧
    (∃ (v : Trv) (r : LegResult), (r.status = stOk) ∧ ((legNext (v.group.getLastD []) = true ∨ legOp v.leg = 0x40)) ∧
      (legOp v.leg ≠ 0x47) ∧ (maxStation < r.jump.getD (v.station + v.group.length))) ∧
    (∃ (s : State) (p : Nat) (tag : Nat) (v : Trv) (r : LegResult), (s.trv? p tag = some v) ∧
      (v.bound.isSome = true) ∧ (r.status = stOk) ∧ (r.sense = []) ∧
      ((legNext (v.group.getLastD []) = true ∨ legOp v.leg = 0x40)) ∧ (legOp v.leg ≠ 0x47) ∧
      (r.jump.getD (v.station + v.group.length) ≤ maxStation)) :=
  ⟨⟨wAt (wLeg 0x44 [(1, 1)]), { status := stOk }, by decide +kernel⟩,
   ⟨wAt (wLeg 0x44 [(1, 1)]), { status := 0x20 }, by decide +kernel⟩,
   ⟨wAt (wLeg 0x44 []), { status := stOk }, by decide +kernel⟩,
   ⟨{ wAt (wLeg 0x44 [(1, 1)]) with station := maxStation }, { status := stOk }, by decide +kernel⟩,
   ⟨wT (wAt (wLeg 0x44 [(1, 1)])), 0, 5, wAt (wLeg 0x44 [(1, 1)]), { status := stOk }, by decide +kernel⟩⟩

/-- The hypotheses of the clauses of ControlLegsAct, in their order, part 1 of 2. -/
theorem witness_ControlLegsAct_1 :
    (∃ (s : State) (p : Nat) (tag : Nat) (v : Trv) (b : List Byte), (AtLeg s p tag 0x40 v) ∧ (v.fetching = false) ∧
      (v.fetched.find (fieldAt v.leg 16 4) = some (.leg b))) ∧
    (∃ (s : State) (p : Nat) (tag : Nat) (v : Trv), (AtLeg s p tag 0x41 v) ∧ (testReads (legByte v.leg 16) = false)) ∧
    (∃ (s : State) (p : Nat) (tag : Nat) (v : Trv), (AtLeg s p tag 0x41 v) ∧ (testReads (legByte v.leg 16) = true) ∧
      (isBufAddr (legAddr v.leg) = false) ∧ ((s.port p).canRead = true)) ∧
    (∃ (s : State) (u : State) (p : Nat) (tag : Nat) (v : Trv), (AtLeg s p tag 0x41 v) ∧
      (testReads (legByte v.leg 16) = true) ∧ (isBufAddr (legAddr v.leg) = true) ∧
      (s.readable (bufPos (legAddr v.leg)) (8 / 2 ^ legByte v.leg 17) = (u, true)) ∧
      (s.poisoned (bufPos (legAddr v.leg)) (8 / 2 ^ legByte v.leg 17) = false)) ∧
    (∃ (s : State) (p : Nat) (tag : Nat) (v : Trv), (AtLeg s p tag 0x42 v) ∧ (s.trv? p (fieldAt v.leg 16 2) = none)) ∧
    (∃ (s : State) (p : Nat) (tag : Nat) (v : Trv) (u : Trv), (AtLeg s p tag 0x42 v) ∧
      (s.trv? p (fieldAt v.leg 16 2) = some u) ∧ (u.state ≠ .ended) ∧ (u.standsAt (fieldAt v.leg 20 4) = false) ∧
      (v.deadlinePassed = false)) :=
  ⟨⟨wT { wAt (wLeg 0x40 [(16, 7)]) with fetched := [(7, .leg (wLeg 0x47 []))] }, 0, 5,
     { wAt (wLeg 0x40 [(16, 7)]) with fetched := [(7, .leg (wLeg 0x47 []))] }, wLeg 0x47 [],
     ⟨by decide +kernel, by decide +kernel, by decide +kernel, by decide +kernel, wOne (by decide +kernel), by decide +kernel⟩,
     by decide +kernel⟩,
   ⟨wT (wAt (wLeg 0x41 [])), 0, 5, wAt (wLeg 0x41 []),
     ⟨by decide +kernel, by decide +kernel, by decide +kernel, by decide +kernel, wOne (by decide +kernel), by decide +kernel⟩,
     by decide +kernel⟩,
   ⟨wT (wAt (wLeg 0x41 [(16, 2)])), 0, 5, wAt (wLeg 0x41 [(16, 2)]),
     ⟨by decide +kernel, by decide +kernel, by decide +kernel, by decide +kernel, wOne (by decide +kernel), by decide +kernel⟩,
     by decide +kernel⟩,
   ⟨wT (wAt (wLeg 0x41 [(16, 2), (15, 0x80)])), wT (wAt (wLeg 0x41 [(16, 2), (15, 0x80)])), 0, 5,
     wAt (wLeg 0x41 [(16, 2), (15, 0x80)]),
     ⟨by decide +kernel, by decide +kernel, by decide +kernel, by decide +kernel, wOne (by decide +kernel), by decide +kernel⟩,
     by decide +kernel⟩,
   ⟨wT (wAt (wLeg 0x42 [(16, 9)])), 0, 5, wAt (wLeg 0x42 [(16, 9)]),
     ⟨by decide +kernel, by decide +kernel, by decide +kernel, by decide +kernel, wOne (by decide +kernel), by decide +kernel⟩,
     by decide +kernel⟩,
   ⟨{ wT wTrv with trvs := [wAt (wLeg 0x42 [(16, 9), (20, 3)]), { wTrv with tag := 9 }] }, 0, 5,
     wAt (wLeg 0x42 [(16, 9), (20, 3)]), { wTrv with tag := 9 },
     ⟨by decide +kernel, by decide +kernel, by decide +kernel, by decide +kernel, wOne (by decide +kernel), by decide +kernel⟩,
     by decide +kernel⟩⟩

/-- The hypotheses of the clauses of ControlLegsAct, in their order, part 2 of 2. -/
theorem witness_ControlLegsAct_2 :
    (∃ (s : State) (p : Nat) (tag : Nat) (v : Trv) (u : Trv), (AtLeg s p tag 0x42 v) ∧
      (s.trv? p (fieldAt v.leg 16 2) = some u) ∧ (u.state ≠ .ended) ∧ (u.standsAt (fieldAt v.leg 20 4) = true)) ∧
    (∃ (s : State) (p : Nat) (tag : Nat) (v : Trv), (AtLeg s p tag 0x45 v) ∧ (v.deadlinePassed = true)) ∧
    (∃ (s : State) (p : Nat) (tag : Nat) (v : Trv), (AtLeg s p tag 0x44 v)) ∧
    (∃ (s : State) (p : Nat) (tag : Nat) (v : Trv), (AtLeg s p tag 0x45 v) ∧ (v.deadlinePassed = false)) ∧
    (∃ (s : State) (p : Nat) (tag : Nat) (v : Trv), (AtLeg s p tag 0x47 v)) :=
  ⟨⟨{ wT wTrv with trvs := [wAt (wLeg 0x42 [(16, 9)]), { wTrv with tag := 9 }] }, 0, 5, wAt (wLeg 0x42 [(16, 9)]),
     { wTrv with tag := 9 },
     ⟨by decide +kernel, by decide +kernel, by decide +kernel, by decide +kernel, wOne (by decide +kernel), by decide +kernel⟩,
     by decide +kernel⟩,
   ⟨wT { wAt (wLeg 0x45 []) with deadlinePassed := true }, 0, 5, { wAt (wLeg 0x45 []) with deadlinePassed := true },
     ⟨by decide +kernel, by decide +kernel, by decide +kernel, by decide +kernel, wOne (by decide +kernel), by decide +kernel⟩,
     by decide +kernel⟩,
   ⟨wT (wAt (wLeg 0x44 [])), 0, 5, wAt (wLeg 0x44 []),
     ⟨by decide +kernel, by decide +kernel, by decide +kernel, by decide +kernel, wOne (by decide +kernel), by decide +kernel⟩⟩,
   ⟨wT (wAt (wLeg 0x45 [])), 0, 5, wAt (wLeg 0x45 []),
     ⟨by decide +kernel, by decide +kernel, by decide +kernel, by decide +kernel, wOne (by decide +kernel), by decide +kernel⟩,
     by decide +kernel⟩,
   ⟨wT (wAt (wLeg 0x47 [])), 0, 5, wAt (wLeg 0x47 []),
     ⟨by decide +kernel, by decide +kernel, by decide +kernel, by decide +kernel, wOne (by decide +kernel), by decide +kernel⟩⟩⟩

/-- The hypotheses of the clauses of OutingLegsBookAndRelease, in their order. -/
theorem witness_OutingLegsBookAndRelease :
    (∃ (s : State) (p : Nat) (tag : Nat) (v : Trv), (AtLeg s p tag 0x30 v) ∧
      (s.populated (legByte v.leg 16) = false) ∧ ((s.chain (chainOfShelf (legByte v.leg 16))).discovering = false)) ∧
    (∃ (s : State) (p : Nat) (tag : Nat) (v : Trv), (AtLeg s p tag 0x30 v) ∧ (s.populated (legByte v.leg 16) = true) ∧
      ((v.bookings.any fun b => b.shelf = legByte v.leg 16 && !b.lapsed) = false) ∧
      ((s.shelf (legByte v.leg 16)).state = .opened) ∧ (v.bookingsFull (legByte v.leg 16) = false)) ∧
    (∃ (s : State) (p : Nat) (tag : Nat) (v : Trv), (AtLeg s p tag 0x30 v) ∧
      ((s.populated (legByte v.leg 16) = true ∨ (s.chain (chainOfShelf (legByte v.leg 16))).discovering = true)) ∧
      ((v.bookings.any fun b => b.shelf = legByte v.leg 16 && !b.lapsed) = false) ∧
      ((s.shelf (legByte v.leg 16)).state = .dark) ∧ (bitN (legByte v.leg 17) 0 = false) ∧
      (v.bookingsFull (legByte v.leg 16) = false) ∧ (v.sb = 0) ∧ (v.deadlinePassed = false)) ∧
    (∃ (s : State) (p : Nat) (tag : Nat) (v : Trv), (AtLeg s p tag 0x30 v) ∧ (s.populated (legByte v.leg 16) = true) ∧
      ((v.bookings.any fun b => b.shelf = legByte v.leg 16 && !b.lapsed) = false) ∧
      ((s.shelf (legByte v.leg 16)).state ≠ .opened) ∧ ((s.shelf (legByte v.leg 16)).state ≠ .retired) ∧
      (bitN (legByte v.leg 17) 0 = true)) ∧
    (∃ (s : State) (p : Nat) (tag : Nat) (v : Trv), (AtLeg s p tag 0x31 v) ∧ (v.bookings = [])) ∧
    (∃ (s : State) (p : Nat) (tag : Nat) (v : Trv), (AtLeg s p tag 0x31 v) ∧
      ((v.bookings.any fun b => b.shelf = legByte v.leg 16 && !b.lapsed) = true)) :=
  ⟨⟨wT (wAt (wLeg 0x30 [])), 0, 5, wAt (wLeg 0x30 []),
     ⟨by decide +kernel, by decide +kernel, by decide +kernel, by decide +kernel, wOne (by decide +kernel), by decide +kernel⟩,
     by decide +kernel⟩,
   ⟨wTs (wAt (wLeg 0x30 [])) { state := .opened }, 0, 5, wAt (wLeg 0x30 []),
     ⟨by decide +kernel, by decide +kernel, by decide +kernel, by decide +kernel, wOne (by decide +kernel), by decide +kernel⟩,
     by decide +kernel⟩,
   ⟨wTs (wAt (wLeg 0x30 [])) {}, 0, 5, wAt (wLeg 0x30 []),
     ⟨by decide +kernel, by decide +kernel, by decide +kernel, by decide +kernel, wOne (by decide +kernel), by decide +kernel⟩,
     by decide +kernel⟩,
   ⟨wTs (wAt (wLeg 0x30 [(17, 1)])) {}, 0, 5, wAt (wLeg 0x30 [(17, 1)]),
     ⟨by decide +kernel, by decide +kernel, by decide +kernel, by decide +kernel, wOne (by decide +kernel), by decide +kernel⟩,
     by decide +kernel⟩,
   ⟨wTs (wAt (wLeg 0x31 [])) { state := .opened }, 0, 5, wAt (wLeg 0x31 []),
     ⟨by decide +kernel, by decide +kernel, by decide +kernel, by decide +kernel, wOne (by decide +kernel), by decide +kernel⟩,
     by decide +kernel⟩,
   ⟨wTs { wAt (wLeg 0x31 []) with bookings := [{ shelf := 0, lapsed := false }] } { state := .opened }, 0, 5,
     { wAt (wLeg 0x31 []) with bookings := [{ shelf := 0, lapsed := false }] },
     ⟨by decide +kernel, by decide +kernel, by decide +kernel, by decide +kernel, wOne (by decide +kernel), by decide +kernel⟩,
     by decide +kernel⟩⟩

/-- The hypotheses of the clauses of DeviceLegsHandOver, in their order. -/
theorem witness_DeviceLegsHandOver :
    (∃ (s : State) (p : Nat) (tag : Nat) (v : Trv), (AtLeg s p tag 0x10 v)) ∧
    (∃ (s : State) (v : Trv), ((s.handle (legHandle v.leg)).attached.isSome = true)) ∧
    (∃ (s : State) (u : State) (p : Nat) (tag : Nat) (v : Trv), (AtLeg s p tag 0x11 v) ∧
      (isBufAddr (legOperand v.leg) = true) ∧
      (s.readable (bufPos (legOperand v.leg)) (legByte v.leg 24) = (u, true)) ∧
      (s.poisoned (bufPos (legOperand v.leg)) (legByte v.leg 24) = false)) ∧
    (∃ (s : State) (p : Nat) (tag : Nat) (v : Trv), (AtLeg s p tag 0x12 v) ∧ (namesOne (legByte v.leg 16) = false) ∧
      ((s.handle (legHandle v.leg)).attached.isSome = true)) ∧
    (∃ (s : State) (p : Nat) (tag : Nat) (v : Trv), (AtLeg s p tag 0x13 v) ∧
      ((s.handle (enclosureHandle (legByte v.leg 16))).attached.isSome = true)) ∧
    (∃ (s : State) (p : Nat) (tag : Nat) (v : Trv), (AtLeg s p tag 0x13 v) ∧
      ((s.handle (enclosureHandle (legByte v.leg 16))).attached = none)) ∧
    (∃ (s : State) (p : Nat) (tag : Nat) (v : Trv), (AtLeg s p tag 0x24 v) ∧
      ((s.accums.any fun a => a.desc = bufAddr (flushDesc v.leg)) = true) ∧
      (bitN (accState (s.readBuf (flushDesc v.leg) 64)) 1 = false) ∧
      (accCount (s.readBuf (flushDesc v.leg) 64) = accTotal (s.readBuf (flushDesc v.leg) 64)) ∧
      ((s.handle (accHandle (s.readBuf (flushDesc v.leg) 64))).attached.isSome = true)) ∧
    (∃ (s : State) (p : Nat) (tag : Nat) (v : Trv), (AtLeg s p tag 0x24 v) ∧
      ((s.accums.any fun a => a.desc = bufAddr (flushDesc v.leg)) = true) ∧
      (bitN (accState (s.readBuf (flushDesc v.leg) 64)) 1 = true)) ∧
    (∃ (s : State) (p : Nat) (tag : Nat) (v : Trv), (AtLeg s p tag 0x26 v) ∧ (legByte v.leg 17 = 1) ∧
      (legByte v.leg 16 = 1) ∧ ((s.handle (legHandle (v.descriptor s 0))).attached.isSome = true) ∧
      (chainOfHandle (legHandle (v.descriptor s 0)) < 12)) :=
  ⟨⟨{ wCh {} with trvs := [wAt (wLeg 0x10 [])] }, 0, 5, wAt (wLeg 0x10 []),
     ⟨by decide +kernel, by decide +kernel, by decide +kernel, by decide +kernel, wOne (by decide +kernel), by decide +kernel⟩⟩,
   ⟨wCh {}, wAt (wLeg 0x10 []), by decide +kernel⟩,
   ⟨{ wCh {} with trvs := [wAt (wLeg 0x11 [(23, 0x80), (24, 20)])] },
     { wCh {} with trvs := [wAt (wLeg 0x11 [(23, 0x80), (24, 20)])] }, 0, 5, wAt (wLeg 0x11 [(23, 0x80), (24, 20)]),
     ⟨by decide +kernel, by decide +kernel, by decide +kernel, by decide +kernel, wOne (by decide +kernel), by decide +kernel⟩,
     by decide +kernel⟩,
   ⟨{ wCh {} with trvs := [wAt (wLeg 0x12 [(16, 8)])] }, 0, 5, wAt (wLeg 0x12 [(16, 8)]),
     ⟨by decide +kernel, by decide +kernel, by decide +kernel, by decide +kernel, wOne (by decide +kernel), by decide +kernel⟩,
     by decide +kernel⟩,
   ⟨{ wCh {} with trvs := [wAt (wLeg 0x13 [])], handles := [(384, { attached := some 7 })] }, 0, 5,
     wAt (wLeg 0x13 []),
     ⟨by decide +kernel, by decide +kernel, by decide +kernel, by decide +kernel, wOne (by decide +kernel), by decide +kernel⟩,
     by decide +kernel⟩,
   ⟨{ wCh {} with trvs := [wAt (wLeg 0x13 [])], handles := [] }, 0, 5, wAt (wLeg 0x13 []),
     ⟨by decide +kernel, by decide +kernel, by decide +kernel, by decide +kernel, wOne (by decide +kernel), by decide +kernel⟩,
     by decide +kernel⟩,
   ⟨{ wCh {} with trvs := [wAt (wLeg 0x24 [])], accums := [{ desc := bufAddr 0, first := 0, unit := 0, port := 0, total := 0 }] },
     0, 5, wAt (wLeg 0x24 []),
     ⟨by decide +kernel, by decide +kernel, by decide +kernel, by decide +kernel, wOne (by decide +kernel), by decide +kernel⟩,
     by decide +kernel⟩,
   ⟨{ wCh {} with trvs := [wAt (wLeg 0x24 [])], accums := [{ desc := bufAddr 0, first := 0, unit := 0, port := 0, total := 0 }], mem := [(5, 2)] },
     0, 5, wAt (wLeg 0x24 []),
     ⟨by decide +kernel, by decide +kernel, by decide +kernel, by decide +kernel, wOne (by decide +kernel), by decide +kernel⟩,
     by decide +kernel⟩,
   ⟨{ wCh {} with trvs := [wAt (wLeg 0x26 [(16, 1), (17, 1)])] }, 0, 5, wAt (wLeg 0x26 [(16, 1), (17, 1)]),
     ⟨by decide +kernel, by decide +kernel, by decide +kernel, by decide +kernel, wOne (by decide +kernel), by decide +kernel⟩,
     by decide +kernel⟩⟩

/-- The hypotheses of the clauses of StageLegsMoveData, in their order. -/
theorem witness_StageLegsMoveData :
    (∃ (s : State) (p : Nat) (tag : Nat) (v : Trv), (AtLeg s p tag 0x20 v) ∧ ((s.port p).canRead = true)) ∧
    (∃ (s : State) (p : Nat) (tag : Nat) (v : Trv), (AtLeg s p tag 0x20 v) ∧ ((s.port p).canRead = false)) ∧
    (∃ (s : State) (p : Nat) (tag : Nat) (v : Trv) (bs : List Byte), (AtLeg s p tag 0x20 v) ∧
      ((s.port p).canRead = true) ∧ ((s.port p).inFlight < (s.port p).tagLimit) ∧
      ((∀ r ∈ (s.port p).reads, r.id ≠ s.seqNo ∧ ∀ pos, r.purpose ≠ .stageIn tag pos)) ∧
      (cut (s.port p).mrrs (fieldAt v.leg 16 8) (v.group.map legLen).sum = [(fieldAt v.leg 16 8, bs.length)])) ∧
    (∃ (s : State) (p : Nat) (tag : Nat) (v : Trv), (AtLeg s p tag 0x21 v) ∧ (bitN (legByte v.leg 24) 0 = false) ∧
      (((segmentBeats (segmentsOf v.group) 0 (v.group.map legLen).sum).any fun b => b ∈ s.poison) = false)) ∧
    (∃ (s : State) (p : Nat) (tag : Nat) (v : Trv), (AtLeg s p tag 0x21 v) ∧ ((s.port p).canRead = true) ∧
      ((s.port p).inFlight < (s.port p).tagLimit) ∧ (bitN (legByte v.leg 24) 0 = true)) :=
  ⟨⟨wT (wAt (wLeg 0x20 [])), 0, 5, wAt (wLeg 0x20 []),
     ⟨by decide +kernel, by decide +kernel, by decide +kernel, by decide +kernel, wOne (by decide +kernel), by decide +kernel⟩,
     by decide +kernel⟩,
   ⟨{ wT (wAt (wLeg 0x20 [])) with ports := [(0, { wPort with d3hot := true })] }, 0, 5, wAt (wLeg 0x20 []),
     ⟨by decide +kernel, by decide +kernel, by decide +kernel, by decide +kernel, wOne (by decide +kernel), by decide +kernel⟩,
     by decide +kernel⟩,
   ⟨wT (wAt (wLeg 0x20 [(4, 8)])), 0, 5, wAt (wLeg 0x20 [(4, 8)]), [1, 2, 3, 4, 5, 6, 7, 8],
     ⟨by decide +kernel, by decide +kernel, by decide +kernel, by decide +kernel, wOne (by decide +kernel), by decide +kernel⟩,
     by decide +kernel, by decide +kernel, fun r h => False.elim (List.not_mem_nil h), by decide +kernel⟩,
   ⟨wT (wAt (wLeg 0x21 [(4, 8)])), 0, 5, wAt (wLeg 0x21 [(4, 8)]),
     ⟨by decide +kernel, by decide +kernel, by decide +kernel, by decide +kernel, wOne (by decide +kernel), by decide +kernel⟩,
     by decide +kernel⟩,
   ⟨wT (wAt (wLeg 0x21 [(4, 8), (24, 1)])), 0, 5, wAt (wLeg 0x21 [(4, 8), (24, 1)]),
     ⟨by decide +kernel, by decide +kernel, by decide +kernel, by decide +kernel, wOne (by decide +kernel), by decide +kernel⟩,
     by decide +kernel⟩⟩

/-- The hypotheses of the clauses of HostRangesAreCut, in their order. -/
theorem witness_HostRangesAreCut :
    ∃ (max : Nat), (128 ≤ max) :=
  ⟨128, by decide +kernel⟩

/-- The hypotheses of the clauses of CommandsAreSentAndAnswered, in their order. -/
theorem witness_CommandsAreSentAndAnswered :
    (∃ (s : State) (h : Nat) (c : Cmd), (s.nextCommand h = some c) ∧ ((s.handle h).attached.isSome = true) ∧
      (c.tag = none) ∧ (c.timing = false)) ∧
    (∃ (s : State) (h : Nat) (c : Cmd), (s.nextCommand h = some c) ∧ ((s.handle h).attached = none)) ∧
    (∃ (s : State) (c : Nat) (tag : Nat) (x : Cmd) (status : BitVec 8), ((s.chain c).byTag tag = some x) ∧
      (x.sent = true) ∧ (x.answer = none) ∧ (s.mayRetry x status = true)) ∧
    (∃ (s : State) (c : Nat) (tag : Nat) (x : Cmd) (status : BitVec 8), ((s.chain c).byTag tag = some x) ∧
      (x.sent = true) ∧ (x.answer = none) ∧ (s.mayRetry x status = false) ∧ (s.landed c x = true)) ∧
    (∃ (s : State) (c : Nat) (tag : Nat) (x : Cmd) (status : BitVec 8), ((s.chain c).byTag tag = some x) ∧
      (x.sent = true) ∧ (x.answer = none) ∧ (s.mayRetry x status = false) ∧ (s.landed c x = false)) ∧
    (∃ (x : Cmd) (status : BitVec 8) (info : List Byte), (x.answer = some (status, info)) ∧ (x.why = .none)) ∧
    (∃ (x : Cmd), (x.why = .none)) ∧
    (∃ (x : Cmd) (status : BitVec 8), (x.why = .none) ∧ (status ≠ 0)) ∧
    (∃ (s : State) (c : Nat) (id : Nat) (x : Cmd), ((s.chain c).byId id = some x) ∧ (x.retrying = true)) ∧
    (∃ (s : State) (c : Nat) (tag : Nat) (x : Cmd), ((s.chain c).byTag tag = some x) ∧ (x.timing = true) ∧
      (x.startedMs + 1000 * x.limitS ≤ s.devMs) ∧ ((s.handle x.handle).lost = false)) :=
  ⟨⟨wCh { lanes := [(0, { up := true })], cmds := [wCmd] }, 0, wCmd, by decide +kernel⟩,
   ⟨{ wCh { lanes := [(0, { up := true })], cmds := [wCmd] } with handles := [] }, 0, wCmd, by decide +kernel⟩,
   ⟨wCh { cmds := [{ wCmd with tag := some 9, sent := true }] }, 0, 9, { wCmd with tag := some 9, sent := true },
     0x08, by decide +kernel⟩,
   ⟨wCh { cmds := [{ wCmd with tag := some 9, sent := true }] }, 0, 9, { wCmd with tag := some 9, sent := true }, 0,
     by decide +kernel⟩,
   ⟨wCh { cmds := [{ wCmd with tag := some 9, sent := true }], rx := [{ tag := 9, offset := 0, bytes := [1] }] }, 0,
     9, { wCmd with tag := some 9, sent := true }, 0, by decide +kernel⟩,
   ⟨{ wCmd with answer := some (2, []) }, 2, [], by decide +kernel⟩,
   ⟨wCmd, by decide +kernel⟩,
   ⟨wCmd, 2, by decide +kernel⟩,
   ⟨wCh { cmds := [{ wCmd with retrying := true }] }, 0, 1, { wCmd with retrying := true }, by decide +kernel⟩,
   ⟨{ wCh { cmds := [{ wCmd with tag := some 9, timing := true }] } with devMs := 30000 }, 0, 9,
     { wCmd with tag := some 9, timing := true }, by decide +kernel⟩⟩

/-- The hypotheses of the clauses of TaskFunctionsRun, in their order. -/
theorem witness_TaskFunctionsRun :
    (∃ (s : State) (h : Nat) (m : Tmf), (s.nextTmf h = some m) ∧ ((s.handle h).attached.isSome = true) ∧
      ((∃ p tag, m.owner = .leg p tag)) ∧ (namesOne m.function = false) ∧ (m.managed = none) ∧ (m.tag = none) ∧
      ((∀ n ∈ (s.chain (chainOfHandle h)).tmfs, n.tag ≠ some 0x1000 ∧ n.turn = none))) ∧
    (∃ (s : State) (c : Nat) (tag : Nat) (p : Nat) (u : Nat) (m : Tmf), ((s.chain c).tmfs.find? (fun m => m.tag = some tag) = some m) ∧
      (m.owner = .leg p u) ∧ (m.function = 0x80)) ∧
    (∃ (s : State) (c : Nat) (tag : Nat) (m : Tmf) (x : Cmd) (i : Nat), ((s.chain c).tmfs.find? (fun m => m.tag = some tag && m.sent) = some m) ∧
      (m.owner = .port) ∧ (m.managed = some i) ∧ (m.function = 1) ∧ ((s.chain c).byId i = some x) ∧
      ((s.handle m.handle).lost = false)) ∧
    (∃ (s : State) (c : Nat) (tag : Nat) (p : Nat) (u : Nat) (m : Tmf), ((s.chain c).tmfs.find? (fun m => m.tag = some tag && m.sent) = some m) ∧
      (m.owner = .leg p u)) :=
  ⟨⟨wCh { tmfs := [wTmf] }, 0, wTmf, by decide +kernel, by decide +kernel, ⟨0, 5, rfl⟩, by decide +kernel⟩,
   ⟨wCh { tmfs := [{ wTmf with function := 0x80, tag := some 9 }] }, 0, 9, 0, 5,
     { wTmf with function := 0x80, tag := some 9 }, by decide +kernel⟩,
   ⟨wCh { cmds := [wCmd], tmfs := [{ wTmf with function := 1, owner := .port, managed := some 1, tag := some 9, sent := true }] },
     0, 9, { wTmf with function := 1, owner := .port, managed := some 1, tag := some 9, sent := true }, wCmd, 1,
     by decide +kernel⟩,
   ⟨wCh { tmfs := [{ wTmf with tag := some 9, sent := true }] }, 0, 9, 0, 5,
     { wTmf with tag := some 9, sent := true }, by decide +kernel⟩⟩

/-- The hypotheses of the clauses of CommandDataMoves, in their order, part 1 of 2. -/
theorem witness_CommandDataMoves_1 :
    (∃ (s : State) (c : Nat) (tag : Nat) (x : Cmd), ((s.chain c).byTag tag = some x) ∧ (x.sent = true) ∧
      (x.orphan = false) ∧ (x.answer = none) ∧ (x.why = .none) ∧ (x.dir = 2)) ∧
    (∃ (s : State) (c : Nat) (tag : Nat) (x : Cmd), ((s.chain c).byTag tag = some x) ∧ (x.sent = true) ∧
      (x.orphan = false) ∧ (x.answer = none) ∧ (x.why = .none) ∧ (x.dir = 1)) ∧
    (∃ (s : State) (q : Nat) (c : Nat) (pos : Nat) (n : Nat) (y : Quarter) (w : RowWork) (x : Cmd), ((s.chain c).reader = some x) ∧
      (x.nextRead = (some pos, n)) ∧ (posQuarter pos = q) ∧ (w.mayRead (0x10 + c) = true) ∧ (y.asleep = false)) ∧
    (∃ (y : SasPort) (x : Cmd) (addr : Nat) (lo : Nat) (n : Nat) (off : Nat) (m : Nat), (y.cmds.find? (fun e => e.awaits addr) = some x) ∧
      (x.pulls = [{ beat := addr, lo, n }]) ∧ (x.ready = some (off, m))) ∧
    (∃ (s : State) (c : Nat) (lane : Nat) (tag : Nat) (off : Nat) (n : Nat) (x : Cmd), ((s.chain c).byTag tag = some x) ∧
      (x.ready = some (off, n)) ∧ (x.orphan = false) ∧ (x.why = .none) ∧ (x.opening = false) ∧
      (((s.chain c).lanes.get lane {}).up = true) ∧ ((s.handle x.handle).lost = false) ∧ (x.ahead ≠ []) ∧
      ((x.stopped = true → 1024 < x.ahead.length))) ∧
    (∃ (s : State) (c : Nat) (lane : Nat) (tag : Nat) (off : Nat) (n : Nat) (x : Cmd), ((s.chain c).byTag tag = some x) ∧
      (x.ready = some (off, n)) ∧ (x.orphan = false) ∧ (x.why = .none) ∧ (x.opening = false) ∧
      (((s.chain c).lanes.get lane {}).up = true) ∧ ((s.handle x.handle).lost = false) ∧ (x.stopped = true) ∧
      (x.ahead = [])) ∧
    (∃ (s : State) (c : Nat) (lane : Nat) (tag : Nat) (off : Nat) (n : Nat) (x : Cmd), ((s.chain c).byTag tag = some x) ∧
      (x.ready = some (off, n)) ∧ (x.orphan = false) ∧ (x.why = .none) ∧
      ((((s.chain c).lanes.get lane {}).up = false ∨ (s.handle x.handle).lost = true))) :=
  ⟨⟨wCh { cmds := [{ wCmd with tag := some 9, sent := true, dir := 2 }] }, 0, 9,
     { wCmd with tag := some 9, sent := true, dir := 2 }, by decide +kernel⟩,
   ⟨wCh { cmds := [{ wCmd with tag := some 9, sent := true }] }, 0, 9, { wCmd with tag := some 9, sent := true },
     by decide +kernel⟩,
   ⟨wCh { cmds := [{ wCmd with tag := some 9, sent := true, dir := 2, ready := some (0, 8) }] }, 0, 0, 0, 8, {}, {},
     { wCmd with tag := some 9, sent := true, dir := 2, ready := some (0, 8) }, by decide +kernel⟩,
   ⟨{ cmds := [{ wCmd with tag := some 9, sent := true, dir := 2, ready := some (0, 8), pulls := [{ beat := 0, lo := 0, n := 8 }] }] },
     { wCmd with tag := some 9, sent := true, dir := 2, ready := some (0, 8), pulls := [{ beat := 0, lo := 0, n := 8 }] },
     0, 0, 8, 0, 8, by decide +kernel⟩,
   ⟨wCh { lanes := [(0, { up := true })], cmds := [{ wCmd with tag := some 9, sent := true, dir := 2, ready := some (0, 8), ahead := [1, 2, 3] }] },
     0, 0, 9, 0, 8, { wCmd with tag := some 9, sent := true, dir := 2, ready := some (0, 8), ahead := [1, 2, 3] },
     by decide +kernel⟩,
   ⟨wCh { lanes := [(0, { up := true })], cmds := [{ wCmd with tag := some 9, sent := true, dir := 2, ready := some (0, 8), stopped := true }] },
     0, 0, 9, 0, 8, { wCmd with tag := some 9, sent := true, dir := 2, ready := some (0, 8), stopped := true },
     by decide +kernel⟩,
   ⟨wCh { cmds := [{ wCmd with tag := some 9, sent := true, dir := 2, ready := some (0, 8), ahead := [1, 2, 3] }] },
     0, 0, 9, 0, 8, { wCmd with tag := some 9, sent := true, dir := 2, ready := some (0, 8), ahead := [1, 2, 3] },
     by decide +kernel⟩⟩

/-- The hypotheses of the clauses of CommandDataMoves, in their order, part 2 of 2. -/
theorem witness_CommandDataMoves_2 :
    (∃ (s : State) (c : Nat) (lane : Nat) (tag : Nat) (bytes : List Byte) (x : Cmd), ((s.chain c).byTag tag = some x) ∧
      (x.sent = true) ∧ (x.orphan = false) ∧ (x.answer = none) ∧ (x.dir = 1) ∧
      (((s.chain c).lanes.get lane {}).up = true) ∧ (((s.chain c).lanes.get lane {}).credits ≠ 0) ∧
      (bytes.length ≤ 1024)) ∧
    (∃ (s : State) (c : Nat) (lane : Nat), (((s.chain c).lanes.get lane {}).credits = 0)) ∧
    (∃ (bytes : List Byte), (1024 < bytes.length)) ∧
    (∃ (s : State) (q : Nat) (lane : Nat) (c : Nat) (id : Nat) (pos : Nat) (bs : List Byte) (y : Quarter), ((s.chain c).nextFill = some (id, pos, bs)) ∧
      (lane < 10) ∧ (posQuarter pos = q) ∧ (y.asleep = false) ∧ (bs.length = 64)) ∧
    (∃ (s : State) (q : Nat) (lane : Nat) (c : Nat) (id : Nat) (pos : Nat) (bs : List Byte), ((s.chain c).nextFill = some (id, pos, bs)) ∧
      (10 ≤ lane) ∧ (posQuarter pos ≠ q) ∧ (laneRoute lane = route q (posQuarter pos)) ∧ (bs.length = 64)) ∧
    (∃ (s : State) (c : Nat) (tag : Nat) (x : Cmd), ((s.chain c).byTag tag = some x) ∧ (x.orphan = true)) ∧
    (∃ (s : State) (q : Nat) (c : Nat) (id : Nat) (pos : Nat) (bs : List Byte) (o : OpenAsk), (c / 3 = q) ∧
      ((∀ i, 3 * q + i < c → (s.chain (3 * q + i)).nextFill = none)) ∧ ((s.chain c).nextFill = some (id, pos, bs)) ∧
      (posQuarter pos ≠ q) ∧ ((s.quarter q).openBuffers.get 15 [] = []) ∧ (o.req = 15)) :=
  ⟨⟨wCh { lanes := [(0, { up := true, credits := 2 })], cmds := [{ wCmd with tag := some 9, sent := true }] }, 0, 0,
     9, [1, 2], { wCmd with tag := some 9, sent := true }, by decide +kernel⟩,
   ⟨wCh {}, 0, 0, by decide +kernel⟩,
   ⟨List.replicate 1025 0, by decide +kernel⟩,
   ⟨wCh { cmds := [{ wCmd with tag := some 9, sent := true, len := 64, segments := [{ addr := some 0, len := 64 }] }], rx := [{ tag := 9, offset := 0, bytes := List.replicate 64 7 }] },
     0, 9, 0, 1, 0, List.replicate 64 7, {}, by decide +kernel⟩,
   ⟨wCh { cmds := [{ wCmd with tag := some 9, sent := true, len := 64, segments := [{ addr := some 0, len := 64 }] }], rx := [{ tag := 9, offset := 0, bytes := List.replicate 64 7 }] },
     1, 12, 0, 1, 0, List.replicate 64 7, by decide +kernel⟩,
   ⟨wCh { cmds := [{ wCmd with tag := some 9, orphan := true }] }, 0, 9, { wCmd with tag := some 9, orphan := true },
     by decide +kernel⟩,
   ⟨{ chains := [(2, { cmds := [{ wCmd with tag := some 9, sent := true, len := 64, segments := [{ addr := some (extentsPerQuarter * 65536), len := 64 }] }], rx := [{ tag := 9, offset := 0, bytes := List.replicate 64 7 }] })] },
     0, 2, 1, extentsPerQuarter * 65536, List.replicate 64 7,
     { req := 15, use := .read 0 .sound, masked := false, withdraws := false }, by decide +kernel, fun i h => match i,
     h with | 0, _ => rfl | 1, _ => rfl | _ + 2, h => absurd h (by omega), by decide +kernel⟩⟩

/-- The hypotheses of the clauses of TargetsAreLostAndFound, in their order. -/
theorem witness_TargetsAreLostAndFound :
    (∃ (s : State) (h : Nat) (tag : Nat) (c : Cmd), (((s.chain (chainOfHandle h)).tmfs.any fun m => m.handle = h && m.tag = some tag && m.sent) = false) ∧
      ((s.chain (chainOfHandle h)).cmds.find? (fun c => c.handle = h && c.tag = some tag && c.sent) = some c) ∧
      (c.ready.isSome = true)) ∧
    (∃ (s : State) (h : Nat) (tag : Nat) (c : Cmd), (((s.chain (chainOfHandle h)).tmfs.any fun m => m.handle = h && m.tag = some tag && m.sent) = false) ∧
      ((s.chain (chainOfHandle h)).cmds.find? (fun c => c.handle = h && c.tag = some tag && c.sent) = some c) ∧
      (c.ready.isSome = true)) ∧
    (∃ (s : State) (h : Nat) (tag : Nat) (c : Cmd), (((s.chain (chainOfHandle h)).tmfs.any fun m => m.handle = h && m.tag = some tag && m.sent) = false) ∧
      ((s.chain (chainOfHandle h)).cmds.find? (fun c => c.handle = h && c.tag = some tag && c.sent) = some c) ∧
      (c.ready.isSome = true)) ∧
    (∃ (s : State) (h : Nat) (tag : Nat) (c : Cmd), (((s.chain (chainOfHandle h)).tmfs.any fun m => m.handle = h && m.tag = some tag && m.sent) = false) ∧
      (((s.chain (chainOfHandle h)).cmds.any fun c => c.handle = h && c.tag = some tag && c.sent) = false) ∧
      (s.nextCommand h = some c) ∧ ((s.handle h).attached.isSome = true)) ∧
    (∃ (s : State) (h : Nat) (tag : Nat) (r : Nat) (c : Cmd), (((s.chain (chainOfHandle h)).tmfs.any fun m => m.handle = h && m.tag = some tag && m.sent) = false) ∧
      (((s.chain (chainOfHandle h)).cmds.any fun c => c.handle = h && c.tag = some tag && c.sent) = false) ∧
      (s.nextCommand h = some c) ∧ ((s.handle h).attached.isSome = true) ∧
      (nextRate (s.openFor c).2.rate ((s.openFor c).1.chain (chainOfHandle h)).topRate = some r)) ∧
    (∃ (s : State) (h : Nat) (tag : Nat) (c : Cmd), (c ∈ (s.chain (chainOfHandle h)).cmds) ∧ (c.handle = h) ∧
      (c.tag = some tag)) ∧
    (∃ (s : State) (c : Nat) (tag : Nat) (x : Cmd), ((s.chain c).byTag tag = some x) ∧ (x.sent = true) ∧
      (x.answer = none) ∧ (x.why = .none) ∧ (x.orphan = false) ∧ ((s.handle x.handle).lost = false)) ∧
    (∃ (x : Cmd), (x.why = .broken)) ∧
    (∃ (s : State) (h : Nat), ((s.handle h).lost = true)) ∧
    (∃ (s : State) (h : Nat), ((s.chain (chainOfHandle h)).cmds = [])) :=
  ⟨⟨wCh { cmds := [{ wCmd with tag := some 9, sent := true, dir := 2, ready := some (0, 8) }] }, 0, 9,
     { wCmd with tag := some 9, sent := true, dir := 2, ready := some (0, 8) }, by decide +kernel⟩,
   ⟨wCh { cmds := [{ wCmd with tag := some 9, sent := true, dir := 2, ready := some (0, 8) }] }, 0, 9,
     { wCmd with tag := some 9, sent := true, dir := 2, ready := some (0, 8) }, by decide +kernel⟩,
   ⟨wCh { cmds := [{ wCmd with tag := some 9, sent := true, dir := 2, ready := some (0, 8) }] }, 0, 9,
     { wCmd with tag := some 9, sent := true, dir := 2, ready := some (0, 8) }, by decide +kernel⟩,
   ⟨wCh { lanes := [(0, { up := true })], cmds := [wCmd] }, 0, 9, wCmd, by decide +kernel⟩,
   ⟨wCh { lanes := [(0, { up := true, rate := 0 })], cmds := [wCmd] }, 0, 9, 1, wCmd, by decide +kernel⟩,
   ⟨wCh { cmds := [{ wCmd with tag := some 9, opening := true }] }, 0, 9,
     { wCmd with tag := some 9, opening := true }, by decide +kernel⟩,
   ⟨wCh { cmds := [{ wCmd with tag := some 9, sent := true }] }, 0, 9, { wCmd with tag := some 9, sent := true },
     by decide +kernel⟩,
   ⟨{ wCmd with why := .broken }, by decide +kernel⟩,
   ⟨{ wCh {} with handles := [(3, { lost := true })] }, 3, by decide +kernel⟩,
   ⟨wCh {}, 3, by decide +kernel⟩⟩

/-- The hypotheses of the clauses of ChainsAreDiscovered, in their order. -/
theorem witness_ChainsAreDiscovered :
    (∃ (s : State) (c : Nat) (pos : Nat) (slot : Nat) (addrs : List (BitVec 64)), (c < 12) ∧ (pos < 4) ∧ (slot < 96) ∧
      ((s.chain c).found = []) ∧ ((∀ a, (s.handle (driveHandle (4 * c + pos) slot)).attached = some a → a ∈ addrs))) ∧
    (∃ (s : State) (c : Nat) (h : Nat) (sas : BitVec 64), (c < 12) ∧ ((s.chain c).found = []) ∧
      (s.describing c sas = [h]) ∧ (isDriveHandle h = true) ∧ ((s.handle h).attached = none) ∧
      (s.slotDiscovery h = true) ∧ (slotOfHandle h ∉ (s.shelf (shelfOfHandle h)).sesWait)) ∧
    (∃ (s : State) (c : Nat) (pos : Nat) (slot : Nat) (a : BitVec 64), (c < 12) ∧ (pos < 4) ∧ (slot < 96) ∧
      ((s.chain c).found = []) ∧ ((s.handle (driveHandle (4 * c + pos) slot)).attached = some a) ∧
      ((s.handle (driveHandle (4 * c + pos) slot)).lost = false)) ∧
    (∃ (s : State) (c : Nat), ((s.chain c).discovering = true) ∧
      ((∀ i, i < 4 → (s.shelf (4 * c + i)).basket = [] ∧ (s.shelf (4 * c + i)).maxOpenPassed = false))) ∧
    (∃ (s : State) (sh : Nat) (b : BasketEntry), (s.populated sh = false) ∧ ((s.shelf sh).basket = [b])) ∧
    (∃ (s : State) (c : Nat) (t0 : Nat), ((s.chain c).lastRediscovery = some t0) ∧ (s.devMs < t0 + 100)) ∧
    (∃ (s : State) (c : Nat), ((s.chain c).enclosures = [])) ∧
    (∃ (s : State) (c : Nat) (pos : Nat) (id : BitVec 64), ((s.chain c).enclosures = [(pos, id)])) ∧
    (∃ (s : State) (c : Nat), ((s.chain c).rediscover = .chain) ∧ ((s.chain c).lastRediscovery = none) ∧
      ((s.chain c).pendingBroadcast = 0)) :=
  ⟨⟨wCh {}, 11, 3, 95, [7], by decide +kernel, by decide +kernel, by decide +kernel, by decide +kernel,
     fun a h => nomatch (show (none : Option (BitVec 64)) = some a from h)⟩,
   ⟨{ wCh {} with handles := [(4, { described := some [7] })], shelves := [(0, { state := .spinning })] }, 0, 4, 7,
     by decide +kernel⟩,
   ⟨{ wCh {} with handles := [(driveHandle 0 2, { attached := some 7, described := some [7], installed := true })] },
     0, 0, 2, 7, by decide +kernel⟩,
   ⟨wCh { discovering := true }, 0, by decide +kernel⟩,
   ⟨{ wT wTrv with shelves := [(0, { basket := [wBask] })] }, 0, wBask, by decide +kernel⟩,
   ⟨{ wCh { lastRediscovery := some 3 } with devMs := 102 }, 0, 3, by decide +kernel⟩,
   ⟨wCh {}, 0, by decide +kernel⟩,
   ⟨wCh { enclosures := [(1, 7)] }, 0, 1, 7, by decide +kernel⟩,
   ⟨wCh { rediscover := .chain, expanders := [7, 9] }, 0, by decide +kernel⟩⟩

/-- The hypotheses of the clauses of LanesComeAndGo, in their order. -/
theorem witness_LanesComeAndGo :
    (∃ (s : State) (c : Nat) (lane : Nat) (rate : BitVec 2), (s.sasRuns = true) ∧
      (((s.chain c).lanes.get lane {}).up = false) ∧ (((s.chain c).lanes.get lane {}).disabled = false) ∧
      ((s.chain c).laneEn.getLsbD lane = true) ∧ ((s.chain c).maxRate ≤ rate.toNat) ∧ (rate ≠ 3)) ∧
    (∃ (s : State) (c : Nat) (lane : Nat), (((s.chain c).lanes.get lane {}).up = true) ∧
      (((s.chain c).lanes.get lane {}).resets = [])) ∧
    (∃ (s : State) (c : Nat) (lane : Nat) (t1 : Nat) (t2 : Nat) (t3 : Nat), (((s.chain c).lanes.get lane {}).up = true) ∧
      (((s.chain c).lanes.get lane {}).resets = [t1, t2, t3]) ∧ (s.devMs < t1 + 10000) ∧ (s.devMs < t2 + 10000) ∧
      (s.devMs < t3 + 10000)) ∧
    (∃ (s : State) (c : Nat) (lane : Nat), (((s.chain c).lanes.get lane {}).up = true) ∧
      (((s.chain c).lanes.get lane {}).rate = 0) ∧ (((s.chain c).lanes.get lane {}).resets = [])) ∧
    (∃ (s : State) (c : Nat), (s.sasRuns = true) ∧ ((s.chain c).anyLane = false)) ∧
    (∃ (s : State) (c : Nat), ((s.chain c).linkPending = true) ∧ ((s.chain c).anyLane = false) ∧
      ((∀ i, i < 4 → (s.shelf (4 * c + i)).holds = false)) ∧ (s.manage.sas.expertLink = true)) ∧
    (∃ (s : State) (c : Nat), ((s.chain c).linkPending = true) ∧ ((s.chain c).anyLane = true) ∧
      ((∀ i, i < 4 → (s.shelf (4 * c + i)).holds = false))) :=
  ⟨⟨wCh {}, 0, 3, 2, by decide +kernel⟩,
   ⟨wCh { lanes := [(3, { up := true })] }, 0, 3, by decide +kernel⟩,
   ⟨{ wCh { lanes := [(3, { up := true, resets := [1, 2, 3] })] } with devMs := 10000 }, 0, 3, 1, 2, 3,
     by decide +kernel⟩,
   ⟨wCh { lanes := [(3, { up := true, rate := 0 })] }, 0, 3, by decide +kernel⟩,
   ⟨wCh {}, 0, by decide +kernel⟩,
   ⟨{ wCh { linkPending := true } with manage := { sas := { expertLink := true } }, shelves := [] }, 0,
     by decide +kernel⟩,
   ⟨{ wCh { linkPending := true, lanes := [(0, { up := true })] } with shelves := [] }, 0, by decide +kernel⟩⟩

/-- The hypotheses of the clauses of OutingsBegin, in their order. -/
theorem witness_OutingsBegin :
    (∃ (s : State) (c : Nat) (sh : Nat), (s.mode = .ready) ∧ ((∀ i, i < 4 → (s.shelf (4 * c + i)).holds = false)) ∧
      (1 ≤ s.perChain) ∧ ((s.takeChoice c).choose c = some sh) ∧ ((s.shelf sh).pg = false)) ∧
    (∃ (s : State) (c : Nat) (sh : Nat), (s.choose c = some sh)) ∧
    (∃ (s : State) (sh : Nat) (level : Bool), ((s.shelf sh).pgFiltered ≠ level) ∧ ((s.shelf sh).state = .powering) ∧
      ((s.shelf sh).edges = [])) ∧
    (∃ (s : State) (sh : Nat) (a : Nat) (b : Nat) (c : Nat) (d : Nat) (level : Bool), ((s.shelf sh).pgFiltered ≠ level) ∧
      ((s.shelf sh).state = .opened) ∧ ((s.shelf sh).edges = [a, b, c, d]) ∧ (s.devMs < a + 1000) ∧
      (s.devMs < b + 1000) ∧ (s.devMs < c + 1000) ∧ (s.devMs < d + 1000)) ∧
    (∃ (s : State) (sh : Nat), (s.held = false) ∧ ((s.shelf sh).pg = false) ∧ ((s.shelf sh).pgFiltered = true) ∧
      ((s.shelf sh).state = .powering)) ∧
    (∃ (s : State) (sh : Nat), (s.held = false) ∧ ((s.shelf sh).pg = true) ∧ ((s.shelf sh).pgFiltered = false) ∧
      ((s.shelf sh).state = .opened)) ∧
    (∃ (s : State) (sh : Nat), (s.held = true) ∧ ((s.shelf sh).pg ≠ (s.shelf sh).pgFiltered)) ∧
    (∃ (s : State) (sh : Nat), ((s.shelf sh).state = .powering) ∧ ((s.shelf sh).pg = false) ∧
      ((s.shelf sh).basket = [])) :=
  ⟨⟨wSh { basket := [wBask] }, 0, 0, by decide +kernel⟩,
   ⟨wSh { basket := [wBask] }, 0, 0, by decide +kernel⟩,
   ⟨wSh { state := .powering }, 0, true, by decide +kernel⟩,
   ⟨{ wSh { state := .opened, edges := [1, 2, 3, 4] } with devMs := 1000 }, 0, 1, 2, 3, 4, true, by decide +kernel⟩,
   ⟨wSh { state := .powering, pgFiltered := true }, 0, by decide +kernel⟩,
   ⟨wSh { state := .opened, pg := true }, 0, by decide +kernel⟩,
   ⟨{ wSh { pg := true } with mode := .tripped }, 0, by decide +kernel⟩,
   ⟨wSh { state := .powering }, 0, by decide +kernel⟩⟩

/-- The hypotheses of the clauses of SpinUpRuns, in their order, part 1 of 2. -/
theorem witness_SpinUpRuns_1 :
    (∃ (s : State) (sh : Nat), ((s.shelf sh).state = .spinning) ∧ ((s.shelf sh).spinning = false) ∧
      ((∀ j ∈ s.populatedSlots sh, (s.handle (driveHandle sh j)).attached.isSome = true))) ∧
    (∃ (s : State) (sh : Nat), ((s.shelf sh).state = .spinning) ∧ ((s.shelf sh).spinning = false) ∧
      ((∀ j ∈ s.populatedSlots sh, (s.handle (driveHandle sh j)).attached.isSome = true)) ∧
      (s.populatedSlots sh ≠ []) ∧ ((s.shelf sh).useSteps = none) ∧ (1 ≤ (s.shelf sh).useGroup)) ∧
    (∃ (s : State) (sh : Nat), ((s.shelf sh).state = .spinning) ∧ ((s.shelf sh).spinning = false)) ∧
    (∃ (s : State) (sh : Nat) (slots : List Nat), ((s.shelf sh).useSteps = none) ∧ (1 ≤ (s.shelf sh).useGroup) ∧
      (slots ≠ [])) ∧
    (∃ (s : State) (sh : Nat) (j : Nat) (st : SpinStep), ((s.shelf sh).schedule[(s.shelf sh).nextStep]? = some st) ∧
      ((s.shelf sh).state = .spinning) ∧ ((s.shelf sh).spinning = true) ∧ (st.owner = none) ∧ (st.method = 1) ∧
      (st.slots = [j])) ∧
    (∃ (s : State) (sh : Nat) (slot : Nat), ((s.shelf sh).answered.contains slot = true) ∧
      (s.polling sh slot = false) ∧ ((s.shelf sh).state = .spinning) ∧ ((s.shelf sh).spinning = true) ∧
      ((s.shelf sh).readySlots.contains slot = false)) ∧
    (∃ (s : State) (sh : Nat) (slot : Nat) (tag : Nat) (x : Cmd), (slot < 96) ∧
      ((s.chain (chainOfHandle (driveHandle sh slot))).byTag tag = some x) ∧ (x.handle = driveHandle sh slot) ∧
      (x.owner = .spinUp sh slot true) ∧ (x.sent = true) ∧ (x.orphan = false) ∧ (x.answer = none) ∧ (x.why = .none) ∧
      (x.overrun = false) ∧ (x.len ≤ x.moved) ∧ (s.landed (chainOfHandle (driveHandle sh slot)) x = true) ∧
      ((s.shelf sh).state = .spinning) ∧ ((s.shelf sh).spinning = true) ∧ (slot ∉ (s.shelf sh).readySlots) ∧
      ((∀ j ∈ (s.shelf sh).scheduled, j ∈ (s.shelf sh).readySlots ∨ j = slot))) :=
  ⟨⟨wTs wTrv { state := .spinning }, 0, by decide +kernel⟩,
   ⟨wTs wTrv { state := .spinning }, 0, by decide +kernel⟩,
   ⟨wTs wTrv { state := .spinning }, 0, by decide +kernel⟩,
   ⟨wSh { state := .spinning }, 0, [0, 1], by decide +kernel⟩,
   ⟨wTs wTrv { state := .spinning, spinning := true, schedule := [{ offset := 0, method := 1, slots := [4] }] }, 0, 4,
     { offset := 0, method := 1, slots := [4] }, by decide +kernel⟩,
   ⟨wTs wTrv { state := .spinning, spinning := true, answered := [4] }, 0, 4, by decide +kernel⟩,
   ⟨{ wTs wTrv { state := .spinning, spinning := true, schedule := [{ offset := 0, method := 1, slots := [4] }], nextStep := 1 } with chains := [(0, { enclosures := [(0, 7)], cmds := [{ wCmd with handle := 4, owner := .spinUp 0 4 true, tag := some 9, sent := true, len := 0 }] })] },
     0, 4, 9, { wCmd with handle := 4, owner := .spinUp 0 4 true, tag := some 9, sent := true, len := 0 },
     by decide +kernel⟩⟩

/-- The hypotheses of the clauses of SpinUpRuns, in their order, part 2 of 2. -/
theorem witness_SpinUpRuns_2 :
    (∃ (s : State) (sh : Nat), ((s.shelf sh).state = .spinning) ∧ ((s.shelf sh).spinning = true) ∧
      ((s.shelf sh).schedule.length ≤ (s.shelf sh).nextStep)) ∧
    (∃ (s : State) (sh : Nat), ((s.shelf sh).pgFiltered = true) ∧ ((s.shelf sh).basket = []) ∧ (s.work sh = 0) ∧
      (s.manage.outing.lingerS ≠ 0) ∧ (s.agedWaits (chainOfShelf sh) = false)) ∧
    (∃ (s : State) (p : Nat) (tag : Nat) (slot : Nat) (v : Trv), (s.trv? p tag = some v) ∧ (v.stage = .awaiting) ∧
      (legOp v.leg = 0x32) ∧ (byteAt v.leg 17 = 1) ∧ (v.spin.find slot = some .waiting) ∧
      ((s.shelf (byteAt v.leg 16)).started.contains slot = true)) ∧
    (∃ (s : State) (p : Nat) (tag : Nat) (v : Trv), (AtLeg s p tag 0x32 v) ∧
      ((spinSlots v.leg).filter (s.populatedSlots (legByte v.leg 16)).contains = [])) ∧
    (∃ (s : State) (p : Nat) (tag : Nat) (v : Trv), (AtLeg s p tag 0x32 v) ∧ (legByte v.leg 17 = 1) ∧
      ((spinSlots v.leg).filter (s.populatedSlots (legByte v.leg 16)).contains ≠ [])) ∧
    (∃ (s : State) (p : Nat) (tag : Nat) (j : Nat) (v : Trv), (AtLeg s p tag 0x32 v) ∧ (legByte v.leg 17 = 2) ∧
      ((spinSlots v.leg).filter (s.populatedSlots (legByte v.leg 16)).contains = [j])) ∧
    (∃ (j : Nat) (v : Trv), (v.spin = [(j, .waiting)]) ∧ (byteAt v.leg 17 = 2)) :=
  ⟨⟨wTs wTrv { state := .spinning, spinning := true, schedule := [{ offset := 0, method := 1, slots := [4] }], nextStep := 1 },
     0, by decide +kernel⟩,
   ⟨wSh { state := .spinning, pgFiltered := true }, 0, by decide +kernel⟩,
   ⟨wTs { wAt (wLeg 0x32 [(17, 1)]) with stage := .awaiting, spin := [(4, .waiting)] } { started := [4] }, 0, 5, 4,
     { wAt (wLeg 0x32 [(17, 1)]) with stage := .awaiting, spin := [(4, .waiting)] }, by decide +kernel⟩,
   ⟨wTs (wAt (wLeg 0x32 [])) { state := .opened }, 0, 5, wAt (wLeg 0x32 []),
     ⟨by decide +kernel, by decide +kernel, by decide +kernel, by decide +kernel, wOne (by decide +kernel), by decide +kernel⟩,
     by decide +kernel⟩,
   ⟨wTs (wAt (wLeg 0x32 [(17, 1), (20, 0x10)])) { state := .opened }, 0, 5, wAt (wLeg 0x32 [(17, 1), (20, 0x10)]),
     ⟨by decide +kernel, by decide +kernel, by decide +kernel, by decide +kernel, wOne (by decide +kernel), by decide +kernel⟩,
     by decide +kernel⟩,
   ⟨wTs (wAt (wLeg 0x32 [(17, 2), (20, 0x10)])) { state := .opened }, 0, 5, 4, wAt (wLeg 0x32 [(17, 2), (20, 0x10)]),
     ⟨by decide +kernel, by decide +kernel, by decide +kernel, by decide +kernel, wOne (by decide +kernel), by decide +kernel⟩,
     by decide +kernel⟩,
   ⟨4, { wAt (wLeg 0x32 [(17, 2)]) with stage := .awaiting, spin := [(4, .waiting)] }, by decide +kernel⟩⟩

/-- The hypotheses of the clauses of OutingsEnd, in their order, part 1 of 2. -/
theorem witness_OutingsEnd_1 :
    (∃ (s : State) (sh : Nat), ((s.shelf sh).state = .opened) ∧ ((s.shelf sh).lingering = true) ∧ (s.work sh = 0)) ∧
    (∃ (s : State) (sh : Nat), ((s.shelf sh).readySlots = []) ∧ ((s.chain (chainOfShelf sh)).cmds = [])) ∧
    (∃ (s : State) (sh : Nat), ((s.shelf sh).state = .opened) ∧ (s.work sh ≠ 0) ∧ (s.rivalWaits sh = true)) ∧
    (∃ (s : State) (sh : Nat), ((s.shelf sh).state = .opened) ∧ (s.work sh = 0)) ∧
    (∃ (s : State) (sh : Nat) (o : Nat), (s.eligible sh = true) ∧ (s.aged sh = true) ∧
      (s.longestOpen (chainOfShelf sh) = some o) ∧ ((s.shelf o).state = .opened)) ∧
    (∃ (s : State) (sh : Nat), ((s.shelf sh).state = .opened) ∧ ((s.choiceOf sh).expertChoice = true) ∧
      ((s.shelf sh).window.isSome = true)) ∧
    (∃ (s : State) (sh : Nat), (s.work sh ≠ 0)) ∧
    (∃ (s : State) (sh : Nat), ((s.shelf sh).state = .draining)) ∧
    (∃ (s : State) (sh : Nat), ((s.shelf sh).state = .closing) ∧ ((s.shelf sh).stopSent = true) ∧
      ((s.shelf sh).pg = true) ∧ ((s.chain (chainOfShelf sh)).cmds = []) ∧ (s.trvs = [])) :=
  ⟨⟨wSh { state := .opened, lingering := true }, 0, by decide +kernel⟩,
   ⟨wSh { state := .opened }, 0, by decide +kernel⟩,
   ⟨{ wTs { wTrv with bookings := [{ shelf := 1, lapsed := false }] } { basket := [wBask] } with shelves := [(0, { basket := [wBask] }), (1, { state := .opened })] },
     1, by decide +kernel⟩,
   ⟨wSh { state := .opened }, 0, by decide +kernel⟩,
   ⟨{ wSh {} with devMs := 900001, shelves := [(0, { basket := [wBask] }), (1, { state := .opened })] }, 0, 1,
     by decide +kernel⟩,
   ⟨{ wSh { state := .opened, window := some (0, true) } with manage := { inForce := [(0, { expertChoice := true })] } },
     0, by decide +kernel⟩,
   ⟨wTs { wTrv with bookings := [{ shelf := 0, lapsed := false }] } { state := .opened }, 0, by decide +kernel⟩,
   ⟨wSh { state := .draining }, 0, by decide +kernel⟩,
   ⟨wSh { state := .closing, stopSent := true, pg := true }, 0, by decide +kernel⟩⟩

/-- The hypotheses of the clauses of OutingsEnd, in their order, part 2 of 2. -/
theorem witness_OutingsEnd_2 :
    (∃ (s : State) (sh : Nat), ((s.shelf sh).state = .settling) ∧ ((s.shelf sh).pg = true) ∧
      ((s.shelf sh).basket = [])) ∧
    (∃ (s : State) (sh : Nat), ((s.shelf sh).state = .holdoff) ∧ ((s.choiceOf sh).expertChoice = false) ∧
      ((s.shelf sh).faults < 3)) ∧
    (∃ (s : State) (sh : Nat), ((s.shelf sh).state = .holdoff) ∧ ((s.choiceOf sh).expertChoice = false) ∧
      (3 ≤ (s.shelf sh).faults)) ∧
    (∃ (s : State) (sh : Nat), (sh < 48) ∧ ((s.shelf sh).state = .opened) ∧ ((s.chain (chainOfShelf sh)).cmds = []) ∧
      ((s.chain (chainOfShelf sh)).tmfs = []) ∧ ((∀ t ∈ s.trvs, t.stage ≠ .awaiting))) ∧
    (∃ (s : State) (sh : Nat), (sh < 48) ∧ ((s.shelf sh).state = .opened) ∧
      ((∀ d ∈ (s.chain (chainOfShelf sh)).cmds, d.answer = none ∧ (d.owner = .firmware ∨ (∃ slot poll, d.owner = .spinUp sh slot poll) ∨ ∃ slot stop, d.owner = .closing sh slot stop))) ∧
      ((∀ m ∈ (s.chain (chainOfShelf sh)).tmfs, m.owner = .recovery ∨ m.owner = .port)) ∧
      ((∀ t ∈ s.trvs, t.stage = .awaiting → legOp t.leg ≠ 0x32))) ∧
    (∃ (s : State) (c : Cmd) (p : Nat) (tag : Nat) (station : Nat) (v : Trv), (c.orphan = false) ∧
      (c.owner = .leg p tag station) ∧ (s.trv? p tag = some v) ∧ (v.run = []) ∧ (v.station = station) ∧
      (v.stage = .awaiting)) ∧
    (∃ (s : State) (sh : Nat) (p : Nat) (tag : Nat) (m : Tmf) (v : Trv), ((s.chain (chainOfShelf sh)).tmfs = [m]) ∧
      (isDriveHandle m.handle = true) ∧ (shelfOfHandle m.handle = sh) ∧ (m.owner = .leg p tag) ∧
      (s.trv? p tag = some v)) ∧
    (∃ (s : State) (sh : Nat) (j : Nat) (v : Trv), (s.trvs = [v]) ∧ (v.stage = .awaiting) ∧ (legOp v.leg = 0x32) ∧
      (byteAt v.leg 16 = sh) ∧ (v.spin = [(j, .waiting)])) :=
  ⟨⟨wSh { state := .settling, pg := true }, 0, by decide +kernel⟩,
   ⟨wSh { state := .holdoff, faults := 2 }, 0, by decide +kernel⟩,
   ⟨wSh { state := .holdoff, faults := 3 }, 0, by decide +kernel⟩,
   ⟨wTs wTrv { state := .opened }, 0, by decide +kernel⟩,
   ⟨{ wTs { wTrv with bookings := [{ shelf := 0, lapsed := false }] } { state := .opened } with chains := [(0, { enclosures := [(0, 7)], cmds := [{ wCmd with owner := .firmware }], tmfs := [{ wTmf with owner := .port }] })] },
     0, by decide +kernel, by decide +kernel,
     fun d h => (List.mem_singleton.mp (show d ∈ [{ wCmd with owner := CmdOwner.firmware }] from h)) ▸ ⟨rfl, .inl rfl⟩,
     by decide +kernel⟩,
   ⟨wT { wTrv with stage := .awaiting }, { wCmd with owner := .leg 0 5 0 }, 0, 5, 0, { wTrv with stage := .awaiting },
     by decide +kernel⟩,
   ⟨wCh { tmfs := [wTmf] }, 0, 0, 5, wTmf, wTrv, by decide +kernel⟩,
   ⟨wT { wAt (wLeg 0x32 []) with stage := .awaiting, spin := [(4, .waiting)] }, 0, 4,
     { wAt (wLeg 0x32 []) with stage := .awaiting, spin := [(4, .waiting)] }, by decide +kernel⟩⟩

/-- The hypotheses of the clauses of DmaChannelsAndHostReadsRun, in their order, part 1 of 2. -/
theorem witness_DmaChannelsAndHostReadsRun_1 :
    (∃ (s : State) (ch : Nat) (v : Word), (ch < 32) ∧ (v.getLsbD 0 = true) ∧ ((s.channel ch).en = true)) ∧
    (∃ (s : State) (ch : Nat), ((s.channel ch).en = false)) ∧
    (∃ (s : State) (ch : Nat) (v : Word), (ch < 32) ∧ (v.extractLsb' 8 2 = 0#2) ∧ ((s.channel ch).busy = false)) ∧
    (∃ (ch : Nat) (v : Word), (ch < 32) ∧ (v.extractLsb' 8 2 = 3#2)) ∧
    (∃ (s : State) (ch : Nat), (ch < 32) ∧ ((s.channel ch).busy = true) ∧ ((s.channel ch).outcome = none) ∧
      ((s.channel ch).reading = false) ∧ ((s.channel ch).copy = none) ∧ ((s.channel ch).desc = []) ∧
      ((s.channel ch).shadowArm = true) ∧ (s.descOk (descBytes (s.channel ch).shadow) = false)) ∧
    (∃ (s : State) (ch : Nat) (d : List Byte) (pos : Nat), (ch < 32) ∧ ((s.channel ch).busy = true) ∧
      ((s.channel ch).outcome = none) ∧ ((s.channel ch).reading = false) ∧ ((s.channel ch).copy = none) ∧
      ((s.channel ch).desc = []) ∧ ((s.channel ch).shadowArm = true) ∧ (descBytes (s.channel ch).shadow = d) ∧
      (s.descOk d = true) ∧ (dFill d = true) ∧ (dStop d = false) ∧ (dChain d = false) ∧ (dDst d = some (.buf pos)) ∧
      ((∀ q, (s.quarter q).stack = .active))) ∧
    (∃ (s : State) (ch : Nat) (st : Nat) (resid : Nat), ((s.channel ch).outcome = some (st, resid)) ∧ (st ≠ 0) ∧
      ((s.channel ch).copy = none) ∧ ((s.channel ch).irqEn = false) ∧ (s.copyQueue = [])) ∧
    (∃ (s : State) (n : Nat) (v : Word), (n < 16) ∧ (v.getLsbD 15 = true) ∧ ((s.timers.get n {}).period ≠ 0)) ∧
    (∃ (s : State) (n : Nat) (v : Word), (n < 16) ∧ (v.getLsbD 15 = true) ∧ ((s.timers.get n {}).period = 0) ∧
      ((s.timers.get n {}).en = false)) :=
  ⟨⟨wD { en := true }, 0, 1, by decide +kernel⟩,
   ⟨wD {}, 0, by decide +kernel⟩,
   ⟨wD {}, 31, 2, by decide +kernel⟩,
   ⟨31, 0x0300, by decide +kernel⟩,
   ⟨wD { busy := true, shadowArm := true }, 0, by decide +kernel⟩,
   ⟨wD { busy := true, shadowArm := true, shadow := [(7, 0x8000), (8, 64), (9, 0x0800)] }, 0,
     descBytes [(7, 0x8000), (8, 64), (9, 0x0800)], 0, by decide +kernel, by decide +kernel, by decide +kernel,
     id (by decide +kernel), by decide +kernel, by decide +kernel, by decide +kernel, id (by decide +kernel),
     by decide +kernel, by decide +kernel, by decide +kernel, id (by decide +kernel), by decide +kernel, fun _ => rfl⟩,
   ⟨wD { outcome := some (2, 64) }, 0, 2, 64, by decide +kernel⟩,
   ⟨{ wP wPort with timers := [(15, { period := 5 })] }, 15, 0x8000, by decide +kernel⟩,
   ⟨wP wPort, 15, 0x8000, by decide +kernel⟩⟩

/-- The hypotheses of the clauses of DmaChannelsAndHostReadsRun, in their order, part 2 of 2. -/
theorem witness_DmaChannelsAndHostReadsRun_2 :
    (∃ (s : State) (n : Nat), (n < 16) ∧ ((s.timers.get n {}).en = true)) ∧
    (∃ (s : State) (p : Nat) (tag : Nat) (v : Trv), (AtLeg s p tag 0x22 v) ∧ (s.copyQueue = []) ∧
      (s.copyChannel { port := p, tag, src := bufPos (legAddr v.leg), dst := fieldAt v.leg 16 8 % 2 ^ 38, len := legLen v.leg, stop := bitN (legByte v.leg 24) 0 } = none)) ∧
    (∃ (s : State) (p : Nat) (id : Nat) (r : HostRead) (bs : List Byte), ((s.port p).reads.find? (fun r => r.id = id) = some r) ∧
      (r.sent = true) ∧ (bs.length = r.len)) ∧
    (∃ (s : State) (p : Nat) (id : Nat) (r : HostRead) (bs : List Byte), ((s.port p).reads.find? (fun r => r.id = id) = some r) ∧
      (bs.length ≠ r.len)) ∧
    (∃ (s : State) (p : Nat) (id : Nat) (r : HostRead), (bitN ((s.port p).cfg 38) 4 = false) ∧
      ((s.port p).reads.find? (fun r => r.id = id && r.sent) = some r)) ∧
    (∃ (s : State) (p : Nat) (id : Nat), ((s.port p).reads.find? (fun r => r.id = id && r.sent) = none)) ∧
    (∃ (s : State) (p : Nat), (bitN ((s.port p).cfg 38) 4 = true)) ∧
    (∃ (s : State) (p : Nat), ((s.port p).tagLimit ≤ (s.port p).inFlight)) :=
  ⟨⟨{ wP wPort with timers := [(15, { en := true })] }, 15, by decide +kernel⟩,
   ⟨{ wT (wAt (wLeg 0x22 [])) with manage := { copyExpert := true, copyMax := [(0, 0)] } }, 0, 5, wAt (wLeg 0x22 []),
     ⟨by decide +kernel, by decide +kernel, by decide +kernel, by decide +kernel, wOne (by decide +kernel), by decide +kernel⟩,
     by decide +kernel⟩,
   ⟨wP { wPort with reads := [{ id := 3, addr := 0, len := 2, purpose := .header }] }, 0, 3,
     { id := 3, addr := 0, len := 2, purpose := .header }, [1, 2], by decide +kernel⟩,
   ⟨wP { wPort with reads := [{ id := 3, addr := 0, len := 2, purpose := .header }] }, 0, 3,
     { id := 3, addr := 0, len := 2, purpose := .header }, [1], by decide +kernel⟩,
   ⟨wP { wPort with reads := [{ id := 3, addr := 0, len := 2, purpose := .header }] }, 0, 3,
     { id := 3, addr := 0, len := 2, purpose := .header }, by decide +kernel⟩,
   ⟨wP wPort, 0, 3, by decide +kernel⟩,
   ⟨wP { wPort with config := [(38, 0x10)] }, 0, by decide +kernel⟩,
   ⟨wP { wPort with reads := (List.range 256).map fun i => { id := i, addr := 0, len := 64, purpose := .header } }, 0,
     by decide +kernel⟩⟩

/-- The hypotheses of the clauses of HostPortsAreReset, in their order, part 1 of 2. -/
theorem witness_HostPortsAreReset_1 :
    (∃ (s : State) (strap : BitVec 2), ((s.port 0).perst = true) ∧ (s.bif0 = none) ∧ (s.railsValid = true) ∧
      (strap ≠ 3#2)) ∧
    (∃ (s : State) (slot : Nat), (slot < 8) ∧ (slot ≠ 0) ∧ (slot ≠ 4) ∧ ((s.port slot).perst = true)) ∧
    (∃ (s : State) (slot : Nat), (slot < 8) ∧ ((s.port slot).perst = false)) ∧
    (∃ (s : State) (p : Nat), ((s.port p).created = true) ∧ ((s.port p).linkUp = true) ∧
      ((s.port p).configured = true)) ∧
    (∃ (s : State) (p : Nat), (s.manage.principal = some p)) ∧
    (∃ (s : State) (p : Nat), (s.manage.principal ≠ some p)) ∧
    (∃ (s : State) (p : Nat), ((s.port p).created = true) ∧ ((s.port p).linkUp = true) ∧
      ((s.port p).configured = true) ∧ ((∀ r ∈ (s.port p).reads, r.sent = true))) ∧
    (∃ (s : State) (p : Nat) (r : HostRead), ((s.port p).created = true) ∧ ((s.port p).linkUp = true) ∧
      ((s.port p).configured = true) ∧ ((s.port p).reads.filter (fun r => !r.sent) = [r])) :=
  ⟨⟨{}, 1, by decide +kernel⟩,
   ⟨{}, 7, by decide +kernel⟩,
   ⟨wP wPort, 0, by decide +kernel⟩,
   ⟨wP wPort, 0, by decide +kernel⟩,
   ⟨{ wP wPort with manage := { principal := some 0 } }, 0, by decide +kernel⟩,
   ⟨wP wPort, 0, by decide +kernel⟩,
   ⟨wP wPort, 0, by decide +kernel⟩,
   ⟨wP { wPort with reads := [{ id := 3, addr := 0, len := 64, purpose := .header, sent := false }] }, 0,
     { id := 3, addr := 0, len := 64, purpose := .header, sent := false }, by decide +kernel⟩⟩

/-- The hypotheses of the clauses of HostPortsAreReset, in their order, part 2 of 2. -/
theorem witness_HostPortsAreReset_2 :
    (∃ (s : State) (p : Nat), ((s.port p).created = true) ∧ ((s.port p).linkUp = true) ∧ ((s.port p).d3hot = true)) ∧
    (∃ (s : State) (p : Nat), ((s.port p).created = true) ∧ ((s.port p).linkUp = true)) ∧
    (∃ (s : State) (p : Nat), ((s.port p).created = true) ∧ ((s.port p).linkUp = true)) ∧
    (∃ (s : State) (p : Nat), ((s.port p).created = true) ∧ ((s.port p).perst = false) ∧ ((s.port p).linkUp = false) ∧
      ((s.port p).clkMode ≤ 2) ∧ (s.mode = .ready) ∧ ((s.port p).heldWrites = [])) ∧
    (∃ (s : State) (p : Nat), (s.mode = .ready) ∧ ((s.port p).created = true) ∧ ((s.port p).contain = none) ∧
      (s.deviceContain = none)) ∧
    (∃ (s : State) (p : Nat) (c : Containment), (s.mode = .ready) ∧ ((s.port p).created = true) ∧
      ((s.port p).contain = some c)) ∧
    (∃ (s : State) (p : Nat), (s.restarting = true) ∧ ((s.port p).created = true)) :=
  ⟨⟨wP { wPort with d3hot := true }, 0, by decide +kernel⟩,
   ⟨wP wPort, 0, by decide +kernel⟩,
   ⟨wP wPort, 0, by decide +kernel⟩,
   ⟨wP { wPort with linkUp := false }, 0, by decide +kernel⟩,
   ⟨wP wPort, 0, by decide +kernel⟩,
   ⟨wP { wPort with contain := some { cause := 0x01, phase := .stopping, resetBlocks := true, resetConfig := true } },
     0, { cause := 0x01, phase := .stopping, resetBlocks := true, resetConfig := true }, by decide +kernel⟩,
   ⟨{ wP wPort with mode := .boot 3, restarts := [5] }, 0, by decide +kernel⟩⟩

/-- The hypotheses of the clauses of ConfigurationAndBarFourAnswer, in their order. -/
theorem witness_ConfigurationAndBarFourAnswer :
    (∃ (s : State) (p : Nat) (d : Nat), ((s.port p).created = true) ∧ ((s.port p).linkUp = true) ∧ (d < 1024) ∧
      ((s.port p).configured = false)) ∧
    (∃ (s : State) (p : Nat) (d : Nat), ((s.port p).created = true) ∧ ((s.port p).linkUp = true) ∧ (d < 1024) ∧
      ((s.port p).configured = true)) ∧
    (∃ (s : State) (p : Nat) (d : Nat), ((s.port p).created = true) ∧ ((s.port p).linkUp = true) ∧ (d < 1024) ∧
      ((s.port p).configured = true) ∧ (configMask (s.port p) d = 0)) ∧
    (∃ (s : State) (p : Nat) (d : Nat), ((s.port p).created = true) ∧ ((s.port p).linkUp = true) ∧ (d < 1024) ∧
      ((s.port p).configured = true) ∧ (configMask (s.port p) d ≠ 0)) ∧
    (∃ (s : State) (p : Nat) (offset : Nat) (bytes : List Byte), ((s.port p).created = true) ∧
      ((s.port p).linkUp = true) ∧ (s.mode = .ready) ∧ (bytes ≠ []) ∧ ((s.port p).bar4Log2 ≠ 0) ∧
      (offset + bytes.length ≤ 2 ^ (s.port p).bar4Log2) ∧ ((s.port p).bar4En = true) ∧
      (offset % 65536 + bytes.length ≤ 65536) ∧ (s.ownsExtent p ((s.port p).bar4Base.toNat + offset / 65536) = true) ∧
      ((s.quarter (((s.port p).bar4Base.toNat + offset / 65536) / extentsPerQuarter)).reachable = true)) ∧
    (∃ (s : State) (p : Nat) (offset : Nat) (bytes : List Byte), ((s.port p).created = true) ∧
      ((s.port p).linkUp = true) ∧ (s.mode = .ready) ∧ (bytes ≠ []) ∧ ((s.port p).bar4Log2 ≠ 0) ∧
      (offset + bytes.length ≤ 2 ^ (s.port p).bar4Log2) ∧ ((s.port p).bar4En = true) ∧
      (offset % 65536 + bytes.length ≤ 65536) ∧ (s.ownsExtent p ((s.port p).bar4Base.toNat + offset / 65536) = true) ∧
      ((s.quarter (((s.port p).bar4Base.toNat + offset / 65536) / extentsPerQuarter)).reachable = true)) ∧
    (∃ (s : State) (p : Nat) (offset : Nat) (bytes : List Byte), ((s.port p).created = true) ∧
      ((s.port p).linkUp = true) ∧ (s.mode = .ready) ∧ (bytes ≠ []) ∧ ((s.port p).bar4Log2 ≠ 0) ∧
      (offset + bytes.length ≤ 2 ^ (s.port p).bar4Log2) ∧ ((s.port p).bar4En = true) ∧
      (offset % 65536 + bytes.length ≤ 65536) ∧ (s.ownsExtent p ((s.port p).bar4Base.toNat + offset / 65536) = false)) ∧
    (∃ (s : State) (p : Nat) (offset : Nat) (q : Nat) (bytes : List Byte), ((s.port p).created = true) ∧
      ((s.port p).linkUp = true) ∧ (s.mode = .ready) ∧ (bytes ≠ []) ∧ ((s.port p).bar4Log2 ≠ 0) ∧
      (offset + bytes.length ≤ 2 ^ (s.port p).bar4Log2) ∧ ((s.port p).bar4En = true) ∧
      (offset % 65536 + bytes.length ≤ 65536) ∧ (s.ownsExtent p ((s.port p).bar4Base.toNat + offset / 65536) = true) ∧
      (q = ((s.port p).bar4Base.toNat + offset / 65536) / extentsPerQuarter) ∧ ((s.quarter q).stack = .selfRefresh)) :=
  ⟨⟨wP { wPort with configured := false }, 0, 1023, by decide +kernel⟩,
   ⟨wP wPort, 0, 1023, by decide +kernel⟩,
   ⟨wP wPort, 0, 2, by decide +kernel⟩,
   ⟨wP wPort, 0, 1, by decide +kernel⟩,
   ⟨{ wP wPort with extents := [{ first := 0, count := 64, owner := some 0, last := none }] }, 0, 65532, [1, 2, 3, 4],
     by decide +kernel⟩,
   ⟨{ wP wPort with extents := [{ first := 0, count := 64, owner := some 0, last := none }] }, 0, 65532, [1, 2, 3, 4],
     by decide +kernel⟩,
   ⟨wP wPort, 0, 65532, [1, 2, 3, 4], by decide +kernel⟩,
   ⟨{ wP wPort with extents := [{ first := 0, count := 64, owner := some 0, last := none }], quarters := [(0, { stack := .selfRefresh })] },
     0, 65532, 0, [1, 2, 3, 4], by decide +kernel⟩⟩

/-- The hypotheses of the clauses of OpsJoinTheBundle, in their order. -/
theorem witness_OpsJoinTheBundle :
    (∃ (s : State) (c : Instr) (e : Nat) (stop : Bool) (op : HOp) (im : Image) (ops : List HOp), (hamperCommand c = some (e, stop, op)) ∧
      ((s.engine e).image = some im) ∧ ((s.engine e).ended = false) ∧ (s.cycleNow e = true) ∧
      (bundleAt im.words (s.engine e).bundleAddr = some ops) ∧ (ops[(s.engine e).bundle.length]? = some op) ∧
      (stop = decide ((s.engine e).bundle.length + 1 = ops.length))) ∧
    (∃ (s : State) (c : Instr) (e : Nat) (stop : Bool) (op : HOp) (im : Image) (ops : List HOp), (hamperCommand c = some (e, stop, op)) ∧
      ((s.engine e).image = some im) ∧ (bundleAt im.words (s.engine e).bundleAddr = some ops) ∧
      (ops[(s.engine e).bundle.length]? ≠ some op)) ∧
    (∃ (ws : List (BitVec 32)) (a : Nat) (ops : List HOp), (bundleAt ws a = some ops)) :=
  ⟨⟨wE (wEng [0xE0400000]), .hCtNop 0 true, 0, true, .nop, wImg [0xE0400000], [.nop], by decide +kernel⟩,
   ⟨wE (wEng [0xE0400000]), .hCtEnd 0 true, 0, true, .endOp, wImg [0xE0400000], [.nop], by decide +kernel⟩,
   ⟨[0x60400000, 0xD14A0000, 0], 0, [.nop, .zero 5], by decide +kernel⟩⟩

/-- The hypotheses of the clauses of MemoryAndGaloisOpsTakeEffect, in their order. -/
theorem witness_MemoryAndGaloisOpsTakeEffect :
    (∃ (s : State) (e : Nat) (x : Engine) (vd : BitVec 5) (ag : BitVec 3), (SoleOp s e x (.ld vd ag))) ∧
    (∃ (s : State) (e : Nat) (x : Engine) (reg : BitVec 5) (ag : BitVec 3), (SoleOp s e x (.st false reg ag))) ∧
    (∃ (s : State) (e : Nat) (x : Engine) (reg : BitVec 5) (ag : BitVec 3), (SoleOp s e x (.st true reg ag))) ∧
    (∃ (s : State) (e : Nat) (x : Engine) (reg : BitVec 5) (ag : BitVec 3) (last : Bool) (row : BitVec 4) (col : BitVec 7), (SoleOp s e x (.sta true reg ag last row col))) ∧
    (∃ (s : State) (q : Nat) (addr : Nat) (l : RowLand) (d : BitVec 512) (p : Bool) (bad : Bool) (a : Nat), ((s.quarter q).lands = [l]) ∧
      (l.due ≤ (s.quarter q).absRow) ∧ (l.what = .write addr d p bad) ∧ (addr % 64 = 0) ∧ (a < addr ∨ addr + 64 ≤ a)) ∧
    (∃ (s : State) (q : Nat) (addr : Nat) (i : Nat) (l : RowLand) (d : BitVec 512) (p : Bool) (bad : Bool), (s.Inv) ∧
      ((s.quarter q).lands = [l]) ∧ (l.due ≤ (s.quarter q).absRow) ∧ (l.what = .write addr d p bad) ∧
      (addr % 64 = 0) ∧ (i < 64)) ∧
    (∃ (s : State) (e : Nat) (x : Engine) (pb : BitVec 4) (vs : BitVec 5) (col : BitVec 7) (clr : Bool) (r : PReg), (SoleOp s e x (.mac pb 0 vs col false clr)) ∧
      (r = (if clr then { data := beatOf (gfScale (x.coefAt pb.toNat col.toNat) (beatBytes (x.vr vs).data)), poison := (x.vr vs).poison || x.rowPoison pb.toNat } else { data := beatOf (xorBytes (beatBytes (x.prNow pb.toNat).data) (gfScale (x.coefAt pb.toNat col.toNat) (beatBytes (x.vr vs).data))), poison := (x.prNow pb.toNat).poison || ((x.vr vs).poison || x.rowPoison pb.toNat) }))) ∧
    (∃ (s : State) (e : Nat) (x : Engine) (ps : BitVec 4) (vd : BitVec 5), (SoleOp s e x (.gfOut ps vd))) ∧
    (∃ (s : State) (e : Nat) (x : Engine) (row : BitVec 4) (vs : BitVec 5), (SoleOp s e x (.cld row vs false))) ∧
    (∃ (s : State) (e : Nat) (x : Engine) (row : BitVec 4) (vs : BitVec 5), (SoleOp s e x (.cld row vs true))) :=
  ⟨⟨wE (wEng [0x80420000]), 0, wEng [0x80420000], 1, 0,
     ⟨by decide +kernel, by decide +kernel, by decide +kernel, id (by decide +kernel), by decide +kernel, by decide +kernel, by decide +kernel, _, rfl, by decide +kernel, by decide +kernel⟩⟩,
   ⟨wE (wEng [0x90422000]), 0, wEng [0x90422000], 2, 1,
     ⟨by decide +kernel, by decide +kernel, by decide +kernel, id (by decide +kernel), by decide +kernel, by decide +kernel, by decide +kernel, _, rfl, by decide +kernel, by decide +kernel⟩⟩,
   ⟨wE (wEng [0x90622000]), 0, wEng [0x90622000], 2, 1,
     ⟨by decide +kernel, by decide +kernel, by decide +kernel, id (by decide +kernel), by decide +kernel, by decide +kernel, by decide +kernel, _, rfl, by decide +kernel, by decide +kernel⟩⟩,
   ⟨wE (wEng [0x90A2530A]), 0, wEng [0x90A2530A], 2, 2, true, 3, 5,
     ⟨by decide +kernel, by decide +kernel, by decide +kernel, id (by decide +kernel), by decide +kernel, by decide +kernel, by decide +kernel, _, rfl, by decide +kernel, by decide +kernel⟩⟩,
   ⟨wQ { lands := [{ due := 0, what := .write 64 0 false false }] }, 1, 64,
     { due := 0, what := .write 64 0 false false }, 0, false, false, 128, by decide +kernel⟩,
   ⟨wQ { lands := [{ due := 0, what := .write 64 0 false false }] }, 1, 64, 63,
     { due := 0, what := .write 64 0 false false }, 0, false, false, rfl, by decide +kernel⟩,
   ⟨wE (wEng [0xA048081C]), 0, wEng [0xA048081C], 2, 4, 7, false, _,
     ⟨by decide +kernel, by decide +kernel, by decide +kernel, id (by decide +kernel), by decide +kernel, by decide +kernel, by decide +kernel, _, rfl, by decide +kernel, by decide +kernel⟩,
     rfl⟩,
   ⟨wE (wEng [0xA088A000]), 0, wEng [0xA088A000], 2, 5,
     ⟨by decide +kernel, by decide +kernel, by decide +kernel, id (by decide +kernel), by decide +kernel, by decide +kernel, by decide +kernel, _, rfl, by decide +kernel, by decide +kernel⟩⟩,
   ⟨wE (wEng [0xA0CC8000]), 0, wEng [0xA0CC8000], 3, 4,
     ⟨by decide +kernel, by decide +kernel, by decide +kernel, id (by decide +kernel), by decide +kernel, by decide +kernel, by decide +kernel, _, rfl, by decide +kernel, by decide +kernel⟩⟩,
   ⟨wE (wEng [0xA0CC9000]), 0, wEng [0xA0CC9000], 3, 4,
     ⟨by decide +kernel, by decide +kernel, by decide +kernel, id (by decide +kernel), by decide +kernel, by decide +kernel, by decide +kernel, _, rfl, by decide +kernel, by decide +kernel⟩⟩⟩

/-- The hypotheses of the clauses of HashAndCipherOpsTakeEffect, in their order, part 1 of 2. -/
theorem witness_HashAndCipherOpsTakeEffect_1 :
    (∃ (s : State) (e : Nat) (x : Engine) (h : BitVec 2), (SoleOp s e x (.hsInit h))) ∧
    (∃ (s : State) (e : Nat) (x : Engine) (h : BitVec 2) (sel : BitVec 2) (vs : BitVec 5), (SoleOp s e x (.upd h vs sel))) ∧
    (∃ (s : State) (e : Nat) (x : Engine) (h : BitVec 2) (sel : BitVec 2) (vs : BitVec 5) (n1 : BitVec 6), (SoleOp s e x (.updn h vs sel n1))) ∧
    (∃ (s : State) (e : Nat) (x : Engine) (h : BitVec 2) (vd : BitVec 5) (crc : Bool) (off : BitVec 3), (SoleOp s e x (.fin h vd crc off))) ∧
    (∃ (s : State) (e : Nat) (x : Engine) (h : BitVec 2) (vd : BitVec 5), (SoleOp s e x (.hsSave h vd))) ∧
    (∃ (s : State) (e : Nat) (x : Engine) (h : BitVec 2) (vs : BitVec 5), (SoleOp s e x (.hsRest h vs))) ∧
    (∃ (s : State) (e : Nat) (x : Engine) (k : BitVec 2) (vs : BitVec 5), (SoleOp s e x (.crInit k vs))) :=
  ⟨⟨wE (wEng [0xB0400000]), 0, wEng [0xB0400000], 0,
     ⟨by decide +kernel, by decide +kernel, by decide +kernel, id (by decide +kernel), by decide +kernel, by decide +kernel, by decide +kernel, _, rfl, by decide +kernel, by decide +kernel⟩⟩,
   ⟨wE (wEng [0xB0826000]), 0, wEng [0xB0826000], 0, 3, 4,
     ⟨by decide +kernel, by decide +kernel, by decide +kernel, id (by decide +kernel), by decide +kernel, by decide +kernel, by decide +kernel, _, rfl, by decide +kernel, by decide +kernel⟩⟩,
   ⟨wE (wEng [0xB1823F80]), 0, wEng [0xB1823F80], 0, 1, 4, 63,
     ⟨by decide +kernel, by decide +kernel, by decide +kernel, id (by decide +kernel), by decide +kernel, by decide +kernel, by decide +kernel, _, rfl, by decide +kernel, by decide +kernel⟩⟩,
   ⟨wE (wEng [0xB0C2F800]), 0, wEng [0xB0C2F800], 0, 5, true, 7,
     ⟨by decide +kernel, by decide +kernel, by decide +kernel, id (by decide +kernel), by decide +kernel, by decide +kernel, by decide +kernel, _, rfl, by decide +kernel, by decide +kernel⟩⟩,
   ⟨wE (wEng [0xB1028000]), 0, wEng [0xB1028000], 0, 5,
     ⟨by decide +kernel, by decide +kernel, by decide +kernel, id (by decide +kernel), by decide +kernel, by decide +kernel, by decide +kernel, _, rfl, by decide +kernel, by decide +kernel⟩⟩,
   ⟨wE (wEng [0xB1420000]), 0, wEng [0xB1420000], 0, 4,
     ⟨by decide +kernel, by decide +kernel, by decide +kernel, id (by decide +kernel), by decide +kernel, by decide +kernel, by decide +kernel, _, rfl, by decide +kernel, by decide +kernel⟩⟩,
   ⟨wE (wEng [0xC0420000]), 0, wEng [0xC0420000], 0, 4,
     ⟨by decide +kernel, by decide +kernel, by decide +kernel, id (by decide +kernel), by decide +kernel, by decide +kernel, by decide +kernel, _, rfl, by decide +kernel, by decide +kernel⟩⟩⟩

/-- The hypotheses of the clauses of HashAndCipherOpsTakeEffect, in their order, part 2 of 2. -/
theorem witness_HashAndCipherOpsTakeEffect_2 :
    (∃ (s : State) (e : Nat) (x : Engine) (k : BitVec 2) (vd : BitVec 5) (vs : BitVec 5), (SoleOp s e x (.enc k vd vs))) ∧
    (∃ (s : State) (e : Nat) (x : Engine) (k : BitVec 2) (vd : BitVec 5) (vs : BitVec 5), (SoleOp s e x (.dec k vd vs))) ∧
    (∃ (s : State) (e : Nat) (x : Engine) (k : BitVec 2) (vd : BitVec 5) (off : BitVec 3), (SoleOp s e x (.crTag k vd off))) ∧
    (∃ (s : State) (e : Nat) (x : Engine) (k : BitVec 2) (vd : BitVec 5), (SoleOp s e x (.crSave k vd))) ∧
    (∃ (s : State) (e : Nat) (x : Engine) (k : BitVec 2) (vs : BitVec 5), (SoleOp s e x (.crRest k vs))) ∧
    (∃ (x : Engine), (x.running.bind (·.key) = none)) ∧
    (∃ (x : Engine) (vs : BitVec 5), ((x.v.get vs.toNat {}).sealedBy = false)) :=
  ⟨⟨wE (wEng [0xC0829000]), 0, wEng [0xC0829000], 0, 5, 4,
     ⟨by decide +kernel, by decide +kernel, by decide +kernel, id (by decide +kernel), by decide +kernel, by decide +kernel, by decide +kernel, _, rfl, by decide +kernel, by decide +kernel⟩⟩,
   ⟨wE (wEng [0xC0C29000]), 0, wEng [0xC0C29000], 0, 5, 4,
     ⟨by decide +kernel, by decide +kernel, by decide +kernel, id (by decide +kernel), by decide +kernel, by decide +kernel, by decide +kernel, _, rfl, by decide +kernel, by decide +kernel⟩⟩,
   ⟨wE (wEng [0xC102E000]), 0, wEng [0xC102E000], 0, 5, 6,
     ⟨by decide +kernel, by decide +kernel, by decide +kernel, id (by decide +kernel), by decide +kernel, by decide +kernel, by decide +kernel, _, rfl, by decide +kernel, by decide +kernel⟩⟩,
   ⟨wE (wEng [0xC1428000]), 0, wEng [0xC1428000], 0, 5,
     ⟨by decide +kernel, by decide +kernel, by decide +kernel, id (by decide +kernel), by decide +kernel, by decide +kernel, by decide +kernel, _, rfl, by decide +kernel, by decide +kernel⟩⟩,
   ⟨wE (wEng [0xC1818000]), 0, wEng [0xC1818000], 0, 3,
     ⟨by decide +kernel, by decide +kernel, by decide +kernel, id (by decide +kernel), by decide +kernel, by decide +kernel, by decide +kernel, _, rfl, by decide +kernel, by decide +kernel⟩⟩,
   ⟨{}, by decide +kernel⟩,
   ⟨{}, 4, by decide +kernel⟩⟩

/-- The hypotheses of the clauses of ArithmeticAndControlOpsTakeEffect, in their order, part 1 of 2. -/
theorem witness_ArithmeticAndControlOpsTakeEffect_1 :
    (∃ (s : State) (e : Nat) (x : Engine) (vd : BitVec 5) (off : BitVec 5) (l : Bool), (SoleOp s e x (.inslc vd off l))) ∧
    (∃ (s : State) (e : Nat) (x : Engine) (bit : BitVec 6) (va : BitVec 5) (vb : BitVec 5), (SoleOp s e x (.neq bit va vb))) ∧
    (∃ (s : State) (e : Nat) (x : Engine) (bit : BitVec 6) (va : BitVec 5), (SoleOp s e x (.ptest bit va))) ∧
    (∃ (s : State) (e : Nat) (x : Engine), (SoleOp s e x .nop)) ∧
    (∃ (s : State) (e : Nat) (x : Engine) (n1 : BitVec 12), (SoleOp s e x (.idle n1))) ∧
    (∃ (s : State) (e : Nat) (x : Engine) (ag : BitVec 3), (SoleOp s e x (.agrst ag))) ∧
    (∃ (s : State) (e : Nat) (x : Engine), (SoleOp s e x .endOp)) ∧
    (∃ (s : State) (e : Nat) (x : Engine) (im : Image) (csel : BitVec 3) (stop : BitVec 12), (x.image = some im) ∧
      (SoleOp s e x (.loop false csel stop)) ∧ (stop.toNat ≠ x.bundleAddr)) ∧
    (∃ (x : Engine) (here : Nat), (x.loop1.active = false) ∧ (x.loop0.active = true) ∧ (x.loop0.stop = here)) :=
  ⟨⟨wE (wEng [0xD18AFC00]), 0, wEng [0xD18AFC00], 5, 31, true,
     ⟨by decide +kernel, by decide +kernel, by decide +kernel, id (by decide +kernel), by decide +kernel, by decide +kernel, by decide +kernel, _, rfl, by decide +kernel, by decide +kernel⟩⟩,
   ⟨wE (wEng [0xD1FF20C0]), 0, wEng [0xD1FF20C0], 63, 4, 3,
     ⟨by decide +kernel, by decide +kernel, by decide +kernel, id (by decide +kernel), by decide +kernel, by decide +kernel, by decide +kernel, _, rfl, by decide +kernel, by decide +kernel⟩⟩,
   ⟨wE (wEng [0xD23F2000]), 0, wEng [0xD23F2000], 63, 4,
     ⟨by decide +kernel, by decide +kernel, by decide +kernel, id (by decide +kernel), by decide +kernel, by decide +kernel, by decide +kernel, _, rfl, by decide +kernel, by decide +kernel⟩⟩,
   ⟨wE (wEng [0xE0400000]), 0, wEng [0xE0400000],
     ⟨by decide +kernel, by decide +kernel, by decide +kernel, id (by decide +kernel), by decide +kernel, by decide +kernel, by decide +kernel, _, rfl, by decide +kernel, by decide +kernel⟩⟩,
   ⟨wE (wEng [0xE0C00FFF]), 0, wEng [0xE0C00FFF], 4095,
     ⟨by decide +kernel, by decide +kernel, by decide +kernel, id (by decide +kernel), by decide +kernel, by decide +kernel, by decide +kernel, _, rfl, by decide +kernel, by decide +kernel⟩⟩,
   ⟨wE (wEng [0xE1000007]), 0, wEng [0xE1000007], 7,
     ⟨by decide +kernel, by decide +kernel, by decide +kernel, id (by decide +kernel), by decide +kernel, by decide +kernel, by decide +kernel, _, rfl, by decide +kernel, by decide +kernel⟩⟩,
   ⟨wE (wEng [0xE1400000]), 0, wEng [0xE1400000],
     ⟨by decide +kernel, by decide +kernel, by decide +kernel, id (by decide +kernel), by decide +kernel, by decide +kernel, by decide +kernel, _, rfl, by decide +kernel, by decide +kernel⟩⟩,
   ⟨wE (wEng [0xE0840002]), 0, wEng [0xE0840002], wImg [0xE0840002], 1, 2, by decide +kernel,
     ⟨by decide +kernel, by decide +kernel, by decide +kernel, id (by decide +kernel), by decide +kernel, by decide +kernel, by decide +kernel, _, rfl, by decide +kernel, by decide +kernel⟩,
     by decide +kernel⟩,
   ⟨{ loop0 := { active := true, lc := 1, count := 3, start := 2, stop := 5 } }, 5, by decide +kernel⟩⟩

/-- The hypotheses of the clauses of ArithmeticAndControlOpsTakeEffect, in their order, part 2 of 2. -/
theorem witness_ArithmeticAndControlOpsTakeEffect_2 :
    (∃ (s : State) (e : Nat) (x : Engine) (im : Image) (csel : BitVec 3) (stop : BitVec 12), (x.image = some im) ∧
      (SoleOp s e x (.loop true csel stop)) ∧ (stop.toNat ≠ x.bundleAddr)) ∧
    (∃ (x : Engine) (here : Nat), (x.loop1.active = true) ∧ (x.loop1.stop = here)) ∧
    (∃ (x : Engine) (here : Nat), ((x.loop1.active = true → x.loop1.stop ≠ here)) ∧
      ((x.loop0.active = true → x.loop0.stop ≠ here))) ∧
    (∃ (s : State) (e : Nat) (x : Engine), SoleOp s e x (.alXor 5 4 3)) ∧
    (∃ (s : State) (e : Nat) (x : Engine), SoleOp s e x (.alAnd 5 4 3)) ∧
    (∃ (s : State) (e : Nat) (x : Engine), SoleOp s e x (.alOr 5 4 3)) ∧
    (∃ (s : State) (e : Nat) (x : Engine), SoleOp s e x (.alMov 5 4)) ∧
    (∃ (s : State) (e : Nat) (x : Engine), SoleOp s e x (.zero 5)) :=
  ⟨⟨wE (wEng [0xE0A40002]), 0, wEng [0xE0A40002], wImg [0xE0A40002], 1, 2, by decide +kernel,
     ⟨by decide +kernel, by decide +kernel, by decide +kernel, id (by decide +kernel), by decide +kernel, by decide +kernel, by decide +kernel, _, rfl, by decide +kernel, by decide +kernel⟩,
     by decide +kernel⟩,
   ⟨{ loop1 := { active := true, lc := 2, count := 3, start := 2, stop := 5 } }, 5, by decide +kernel⟩,
   ⟨{ loop1 := { active := true, stop := 5 } }, 4, by decide +kernel⟩,
   ⟨wE (wEng [0xD04A4180]), 0, wEng [0xD04A4180], by decide +kernel, by decide +kernel, by decide +kernel,
     id (by decide +kernel), by decide +kernel, by decide +kernel, by decide +kernel, _, rfl, by decide +kernel,
     by decide +kernel⟩,
   ⟨wE (wEng [0xD08A4180]), 0, wEng [0xD08A4180], by decide +kernel, by decide +kernel, by decide +kernel,
     id (by decide +kernel), by decide +kernel, by decide +kernel, by decide +kernel, _, rfl, by decide +kernel,
     by decide +kernel⟩,
   ⟨wE (wEng [0xD0CA4180]), 0, wEng [0xD0CA4180], by decide +kernel, by decide +kernel, by decide +kernel,
     id (by decide +kernel), by decide +kernel, by decide +kernel, by decide +kernel, _, rfl, by decide +kernel,
     by decide +kernel⟩,
   ⟨wE (wEng [0xD10A4000]), 0, wEng [0xD10A4000], by decide +kernel, by decide +kernel, by decide +kernel,
     id (by decide +kernel), by decide +kernel, by decide +kernel, by decide +kernel, _, rfl, by decide +kernel,
     by decide +kernel⟩,
   ⟨wE (wEng [0xD14A0000]), 0, wEng [0xD14A0000], by decide +kernel, by decide +kernel, by decide +kernel,
     id (by decide +kernel), by decide +kernel, by decide +kernel, by decide +kernel, _, rfl, by decide +kernel,
     by decide +kernel⟩⟩

/-- The hypotheses of the clauses of RecipesRunToTheirEnd, in their order, part 1 of 2. -/
theorem witness_RecipesRunToTheirEnd_1 :
    (∃ (s : State) (p : Nat) (tag : Nat) (v : Trv), (AtLeg s p tag 0x23 v)) ∧
    (∃ (s : State) (p : Nat) (tag : Nat) (v : Trv), (AtLeg s p tag 0x25 v)) ∧
    (∃ (s : State) (e : Nat) (l : Launch) (rest : List Launch) (v : Trv) (pr : Prepared), ((s.engine e).prepared = none) ∧
      ((s.engine e).queue = l :: rest) ∧ (s.trv? l.port l.tag = some v) ∧
      ((s.met (s.prepBeat v l)).prepare e v l = .ok pr)) ∧
    (∃ (s : State) (e : Nat) (code : Nat) (l : Launch) (rest : List Launch) (v : Trv), ((s.engine e).prepared = none) ∧
      ((s.engine e).queue = l :: rest) ∧ (s.trv? l.port l.tag = some v) ∧
      ((s.met (s.prepBeat v l)).prepare e v l = .error (.fault code))) ∧
    (∃ (s : State) (e : Nat) (l : Launch) (rest : List Launch) (pr : Prepared), ((s.engine e).running = none) ∧
      ((s.engine e).prepared = some pr) ∧ ((s.engine e).queue = l :: rest) ∧ ((s.engine e).profileNext = none) ∧
      (pr.launch.isStore = false) ∧ (pr.launch.key = 0xFFFF) ∧ ((s.quarter (quarterOfParty e)).absRow % 256 = 0)) ∧
    (∃ (s : State) (e : Nat) (l : Launch) (rest : List Launch) (pr : Prepared) (im : Image), ((s.engine e).running = none) ∧
      ((s.engine e).prepared = some pr) ∧ ((s.engine e).queue = l :: rest) ∧ ((s.engine e).profileNext = none) ∧
      (pr.launch.isStore = true) ∧ (pr.launch.key = 0xFFFF) ∧
      ((s.engine e).slots.find (pr.launch.recipe.getD 0 % 16) = some im) ∧ (im.profile = (s.engine e).profile) ∧
      ((s.quarter (quarterOfParty e)).absRow % 256 = 0)) ∧
    (∃ (s : State) (e : Nat), ((s.quarter (quarterOfParty e)).absRow % 256 ≠ 0)) ∧
    (∃ (s : State) (e : Nat) (l : Launch) (rest : List Launch) (pr : Prepared) (im : Image), ((s.engine e).running = none) ∧
      ((s.engine e).prepared = some pr) ∧ ((s.engine e).queue = l :: rest) ∧ ((s.engine e).profileNext = none) ∧
      (pr.launch.isStore = true) ∧ ((s.engine e).slots.find (pr.launch.recipe.getD 0 % 16) = some im) ∧
      (im.profile ≠ (s.engine e).profile) ∧ ((s.quarter (quarterOfParty e)).absRow % 256 = 0)) ∧
    (∃ (s : State) (e : Nat) (l : Land), ((s.engine e).lands = [l]) ∧ (l.what.isLoad = true) ∧
      (l.cycle ≤ (s.engine e).cycle)) :=
  ⟨⟨wT (wAt (wLeg 0x23 [])), 0, 5, wAt (wLeg 0x23 []),
     ⟨by decide +kernel, by decide +kernel, by decide +kernel, by decide +kernel, wOne (by decide +kernel), by decide +kernel⟩⟩,
   ⟨wT (wAt (wLeg 0x25 [])), 0, 5, wAt (wLeg 0x25 []),
     ⟨by decide +kernel, by decide +kernel, by decide +kernel, by decide +kernel, wOne (by decide +kernel), by decide +kernel⟩⟩,
   ⟨{ wT wTrv with engines := [(0, { queue := [{ wLaunch with recipe := none }] })] }, 0,
     { wLaunch with recipe := none }, [], wTrv,
     { launch := { wLaunch with recipe := none }, block := [], poisons := [], key := none }, by decide +kernel,
     by decide +kernel, by decide +kernel, rfl⟩,
   ⟨{ wT wTrv with engines := [(0, { queue := [wLaunch] })] }, 0, 7, wLaunch, [], wTrv, by decide +kernel,
     by decide +kernel, by decide +kernel, rfl⟩,
   ⟨wE { prepared := some { wPrep with launch := { wLaunch with recipe := none } }, queue := [wLaunch] }, 0, wLaunch,
     [], { wPrep with launch := { wLaunch with recipe := none } }, by decide +kernel⟩,
   ⟨wE { prepared := some wPrep, queue := [wLaunch], slots := [(1, wImg [])] }, 0, wLaunch, [], wPrep, wImg [],
     by decide +kernel⟩,
   ⟨{ wE {} with quarters := [(0, { absRow := 255 })] }, 0, by decide +kernel⟩,
   ⟨wE { prepared := some wPrep, queue := [wLaunch], slots := [(1, { wImg [] with profile := 0x0B })] }, 0, wLaunch,
     [], wPrep, { wImg [] with profile := 0x0B }, by decide +kernel⟩,
   ⟨wE { lands := [{ cycle := 64, what := .v 1 {} true }], cycle := 64 }, 0, { cycle := 64, what := .v 1 {} true },
     by decide +kernel⟩⟩

/-- The hypotheses of the clauses of RecipesRunToTheirEnd, in their order, part 2 of 2. -/
theorem witness_RecipesRunToTheirEnd_2 :
    (∃ (s : State) (e : Nat) (id : Nat) (pr : Prepared), ((s.engine e).running = some pr) ∧
      (pr.launch.recipe = some id) ∧ (0x8000 ≤ id) ∧ ((s.engine e).ended = true) ∧ ((s.engine e).late = none) ∧
      (s.staDone e = true)) ∧
    (∃ (s : State) (e : Nat) (id : Nat) (pr : Prepared) (r : LegResult), ((s.engine e).running = some pr) ∧
      (pr.launch.recipe = some id) ∧ ((s.engine e).ended = true) ∧ ((s.engine e).late = some r)) ∧
    (∃ (s : State) (e : Nat) (pr : Prepared), ((s.engine e).running = some pr) ∧ (pr.launch.recipe = none)) ∧
    (∃ (s : State) (e : Nat) (id : Nat) (pr : Prepared), ((s.engine e).running = some pr) ∧
      (pr.launch.recipe = some id) ∧ (0x8000 ≤ id) ∧ ((s.engine e).ended = false) ∧
      ((s.engine e).startRow + 2 ^ 30 ≤ (s.quarter (quarterOfParty e)).absRow)) ∧
    (∃ (s : State) (e : Nat) (l : Launch) (rest : List Launch) (pr : Prepared) (k : BitVec 256), ((s.engine e).running = none) ∧
      ((s.engine e).prepared = some pr) ∧ ((s.engine e).queue = l :: rest) ∧ ((s.engine e).profileNext = none) ∧
      (pr.launch.isStore = false) ∧ (pr.launch.key ≠ 0xFFFF) ∧ (pr.key = some k) ∧
      ((s.quarter (quarterOfParty e)).absRow % 256 = 0)) ∧
    (∃ (s : State) (e : Nat) (id : Nat) (res : Nat) (pr : Prepared) (effects : List RomEffect), ((s.engine e).running = some pr) ∧
      (pr.launch.recipe = some id) ∧ (id < 0x8000) ∧ ((s.engine e).ended = false) ∧
      (s.romRun id pr = (res, effects)) ∧ (s.romFaults id e pr (s.engine e).keyErased = []) ∧
      (s.romFaults id e pr false = [])) ∧
    (∃ (s : State) (e : Nat) (id : Nat) (code : Nat) (i : Nat) (j : Nat) (pr : Prepared), ((s.engine e).running = some pr) ∧
      (pr.launch.recipe = some id) ∧ (id < 0x8000) ∧ ((s.engine e).ended = false) ∧
      (s.romFaults id e pr (s.engine e).keyErased = [(code, i, j)]) ∧ (s.romFaults id e pr false = [(code, i, j)])) ∧
    (∃ (s : State) (e : Nat) (id : Nat) (pr : Prepared), ((s.engine e).running = some pr) ∧
      (pr.launch.recipe = some id) ∧ (id < 0x8000) ∧ ((s.engine e).ended = false) ∧
      ((s.engine e).startRow + 2 ^ 30 ≤ (s.quarter (quarterOfParty e)).absRow)) :=
  ⟨⟨wE { wEng [] with ended := true }, 0, 0x8001, wPrep, by decide +kernel⟩,
   ⟨wE { wEng [] with ended := true, late := some (faultResult wLaunch 0 0 0 8) }, 0, 0x8001, wPrep,
     (faultResult wLaunch 0 0 0 8), by decide +kernel⟩,
   ⟨wE { running := some { wPrep with launch := { wLaunch with recipe := none } } }, 0,
     { wPrep with launch := { wLaunch with recipe := none } }, by decide +kernel⟩,
   ⟨{ wE (wEng []) with quarters := [(0, { absRow := 2 ^ 30 })] }, 0, 0x8001, wPrep, by decide +kernel⟩,
   ⟨wE { prepared := some { wPrep with launch := { wLaunch with recipe := some 1, key := 0 } }, queue := [wLaunch] },
     0, wLaunch, [], { wPrep with launch := { wLaunch with recipe := some 1, key := 0 } }, 1, by decide +kernel⟩,
   ⟨wE { running := some { wPrep with launch := { wLaunch with recipe := some 3 } } }, 0, 3, 0,
     { wPrep with launch := { wLaunch with recipe := some 3 } }, [], by decide +kernel⟩,
   ⟨{ mode := .ready, engines := [(12, { running := some { wPrep with launch := { wLaunch with recipe := some 5 }, block := [1] } })] },
     12, 5, 3, 0, 0, { wPrep with launch := { wLaunch with recipe := some 5 }, block := [1] }, by decide +kernel⟩,
   ⟨{ wE { running := some { wPrep with launch := { wLaunch with recipe := some 1, key := 0 } } } with quarters := [(0, { absRow := 2 ^ 30 })] },
     0, 1, { wPrep with launch := { wLaunch with recipe := some 1, key := 0 } }, by decide +kernel⟩⟩

/-- The hypotheses of the clauses of TimetablesAndStacksAdvance, in their order, part 1 of 3. -/
theorem witness_TimetablesAndStacksAdvance_1 :
    (∃ (s : State) (q : Nat), (s.held = false) ∧ ((s.quarter q).row < 4096) ∧ (s.bundleDue q = false) ∧
      (((s.quarter q).seam = true → (s.quarter q).row < 1024)) ∧ ((s.quarter q).flights = []) ∧
      ((s.quarter q).deliveries = []) ∧ ((s.quarter q).lands = []) ∧ ((s.quarter q).rowStores = []) ∧
      ((∀ e, (s.engine e).sta = [])) ∧
      ((∀ c, (s.chain c).rx = [] ∧ (s.chain c).reader = none ∧ ∀ d ∈ (s.chain c).cmds, d.answer = none)) ∧
      (s.collector = [])) ∧
    (∃ (s : State) (q : Nat), (s.held = false) ∧ ((s.quarter q).row < 4096) ∧ (s.bundleDue q = false) ∧
      (((s.quarter q).seam = true → (s.quarter q).row < 1024))) ∧
    (∃ (s : State) (q : Nat), (s.held = true ∨ s.bundleDue q = true ∨ 4096 ≤ (s.quarter q).row ∨ ((s.quarter q).seam = true ∧ 1024 ≤ (s.quarter q).row))) ∧
    (∃ (s : State) (q : Nat), (s.held = false) ∧ ((s.quarter q).row < 4096) ∧ (s.bundleDue q = false) ∧
      (((s.quarter q).seam = true → (s.quarter q).row < 1024))) ∧
    (∃ (u : RowWrite) (v : RowWrite), (v.lane < u.lane)) ∧
    (∃ (s : State) (q : Nat) (l : RowLand) (b : AccumBeat), ((s.quarter q).lands = [l]) ∧
      (l.due ≤ (s.quarter q).absRow) ∧ (l.what = .accum b) ∧ (b.last = true)) ∧
    (∃ (s : State) (q : Nat), ((s.quarter q).row < 4096)) ∧
    (∃ (s : State) (q : Nat), (s.held = false) ∧ (q ≠ 0) ∧ (4096 ≤ (s.quarter q).row) ∧
      ((s.quarter q).shadowArm = false)) ∧
    (∃ (s : State) (q : Nat), (s.held = false) ∧ (q ≠ 0) ∧ (4096 ≤ (s.quarter q).row) ∧
      ((s.quarter q).shadowArm = true) ∧ ((s.quarter q).swapAt = (s.quarter q).sf + 1)) :=
  ⟨⟨wQ { row := 4095 }, 1, by decide +kernel, by decide +kernel, by decide +kernel, id (by decide +kernel),
     by decide +kernel, by decide +kernel, by decide +kernel, id (by decide +kernel), fun _ => rfl,
     fun _ => ⟨rfl, rfl, fun d h => nomatch (show d ∈ ([] : List Cmd) from h)⟩, by decide +kernel⟩,
   ⟨wQ { row := 4095 }, 1, by decide +kernel⟩,
   ⟨wQ { row := 4096 }, 1, by decide +kernel⟩,
   ⟨wQ {}, 1, by decide +kernel⟩,
   ⟨{ lane := 3, what := .write 64 5 false false }, { lane := 1, what := .write 64 6 false false }, by decide +kernel⟩,
   ⟨wQ { lands := [{ due := 0, what := .accum { lane := 0, addr := 0, coef := 1, last := true, data := 5, poison := false } }] },
     1, { due := 0, what := .accum { lane := 0, addr := 0, coef := 1, last := true, data := 5, poison := false } },
     { lane := 0, addr := 0, coef := 1, last := true, data := 5, poison := false }, by decide +kernel⟩,
   ⟨wQ { row := 5 }, 1, by decide +kernel⟩,
   ⟨wQ { row := 4096, sf := 7, corrected := true }, 1, by decide +kernel⟩,
   ⟨wQ { row := 4096, sf := 7, shadowArm := true, swapAt := 8 }, 1, by decide +kernel⟩⟩

/-- The hypotheses of the clauses of TimetablesAndStacksAdvance, in their order, part 2 of 3. -/
theorem witness_TimetablesAndStacksAdvance_2 :
    (∃ (s : State), (s.held = false) ∧ (4096 ≤ (s.quarter 0).row) ∧ ((s.quarter 0).shadowArm = false)) ∧
    (∃ (s : State) (q : Nat), ((s.quarter q).seam = true) ∧ (1024 ≤ (s.quarter q).row) ∧
      ((s.quarter q).stack = .active)) ∧
    (∃ (s : State) (q : Nat), ((s.quarter q).seam = true) ∧ (1024 ≤ (s.quarter q).row) ∧
      ((s.quarter q).stack = .entering) ∧ ((s.quarter q).waking = true) ∧ ((s.quarter q).armedKind ≠ .openCells)) ∧
    (∃ (s : State) (q : Nat), ((s.quarter q).row < 1024)) ∧
    (∃ (s : State) (q : Nat) (d : Nat) (rest : List (BitVec 32 × Nat)), ((s.quarter q).aligned = true) ∧ (q ≠ 1) ∧
      ((s.quarter q).beacons = ((s.quarter q).sf, d) :: rest)) ∧
    (∃ (s : State) (d : Nat) (rest : List (BitVec 32 × Nat)), ((s.quarter 1).aligned = true) ∧
      ((s.quarter 1).beacons = ((s.quarter 1).sf, d) :: rest)) ∧
    (∃ (s : State) (q : Nat) (d : Nat) (n : BitVec 32) (rest : List (BitVec 32 × Nat)), ((s.quarter q).aligned = true) ∧
      (n ≠ (s.quarter q).sf) ∧ ((s.quarter q).beacons = (n, d) :: rest)) ∧
    (∃ (s : State) (q : Nat), (q ≠ 0) ∧ ((s.quarter q).aligned = true) ∧ ((s.quarter q).beaconSeen = false) ∧
      ((s.quarter q).beaconDelay + 16 ≤ (s.quarter q).row)) ∧
    (∃ (s : State) (q : Nat) (row : Nat) (delay : Nat) (n : BitVec 32) (rest : List (BitVec 32 × Nat)) (trips : List Nat), (s.mode = .boot row) ∧
      (q ≠ 0) ∧ ((s.quarter q).aligned = false) ∧ ((s.quarter q).beacons = (n, delay) :: rest) ∧ (trips.length = 64)) :=
  ⟨⟨{ mode := .ready, quarters := [(0, { row := 4096, sf := 9, aligned := true })] }, by decide +kernel⟩,
   ⟨wQ { row := 1024, seam := true }, 1, by decide +kernel⟩,
   ⟨wQ { row := 1024, seam := true, stack := .entering, waking := true }, 1, by decide +kernel⟩,
   ⟨wQ { row := 1023, seam := true }, 1, by decide +kernel⟩,
   ⟨{ mode := .ready, quarters := [(2, { aligned := true, sf := 3, beacons := [(3, 9)] })] }, 2, 9, [],
     by decide +kernel⟩,
   ⟨wQ { aligned := true, sf := 3, beacons := [(3, 9)] }, 9, [], by decide +kernel⟩,
   ⟨{ mode := .ready, quarters := [(2, { aligned := true, sf := 3, beacons := [(4, 9)] })] }, 2, 9, 4, [],
     by decide +kernel⟩,
   ⟨wQ { aligned := true, beaconDelay := 9, row := 25 }, 1, by decide +kernel⟩,
   ⟨{ mode := .boot 2, quarters := [(1, { beacons := [(4, 9)] })] }, 1, 2, 9, 4, [], List.replicate 64 8,
     by decide +kernel⟩⟩

/-- The hypotheses of the clauses of TimetablesAndStacksAdvance, in their order, part 3 of 3. -/
theorem witness_TimetablesAndStacksAdvance_3 :
    (∃ (s : State) (q : Nat), ((s.quarter q).shadowArm = true)) ∧
    (∃ (s : State) (q : Nat), ((s.quarter q).shadowArm = false)) ∧
    (∃ (s : State) (q : Nat), (q ≠ 0) ∧ (s.manage.stackMask.getLsbD q = true) ∧ ((s.quarter q).stack = .active) ∧
      (s.quiet q = true) ∧ (s.dmaAddresses q = false) ∧ (s.manage.timetable.expert = false)) ∧
    (∃ (s : State) (q : Nat), (q ≠ 0) ∧ (s.manage.stackMask.getLsbD q = true) ∧ ((s.quarter q).stack = .active) ∧
      (s.quiet q = true) ∧ (s.dmaAddresses q = false) ∧ (s.manage.timetable.expert = true) ∧
      ((s.quarter q).openTables = true)) ∧
    (∃ (s : State) (q : Nat), (s.manage.stackMask.getLsbD q = false)) ∧
    (∃ (s : State) (q : Nat), ((s.quarter q).stack = .exiting) ∧ ((s.quarter q).waking = true) ∧
      (s.manage.timetable.expert = true) ∧ ((s.quarter q).bar4 = []) ∧ ((s.quarter q).sbWrites = [])) ∧
    (∃ (s : State) (q : Nat), ((s.quarter q).stack = .exiting) ∧ ((s.quarter q).waking = true) ∧
      (s.manage.timetable.expert = false)) ∧
    (∃ (s : State) (t : Trv) (off : Nat) (q : Nat) (bs : List Byte), (isBufAddr t.sb = true) ∧ (t.sb ≠ 0) ∧
      ((s.reach (bufQuarters (bufPos t.sb + off) bs.length)).1.sbQuarter t (bufPos t.sb + off) bs.length = some q)) ∧
    (∃ (s : State) (q : Nat) (r : Bar4Req), ((s.quarter q).bar4 = [r]) ∧ ((s.port r.port).created = true) ∧
      ((s.port r.port).linkUp = true) ∧ (r.port < 8)) :=
  ⟨⟨wQ { shadowArm := true }, 1, by decide +kernel⟩,
   ⟨wQ { shadowAddr := 7 }, 1, by decide +kernel⟩,
   ⟨{ wQ {} with manage := { stackMask := 0xF } }, 1, by decide +kernel⟩,
   ⟨{ wQ {} with manage := { stackMask := 0xF, timetable := { expert := true } } }, 1, by decide +kernel,
     by decide +kernel, by decide +kernel, id (by decide +kernel), by decide +kernel, by decide +kernel, wOpen⟩,
   ⟨{ wQ {} with manage := { stackMask := 5 } }, 1, by decide +kernel⟩,
   ⟨{ wQ { stack := .exiting, waking := true } with manage := { timetable := { expert := true } } }, 1,
     by decide +kernel⟩,
   ⟨wQ { stack := .exiting, waking := true }, 1, by decide +kernel⟩,
   ⟨{ wT { wTrv with sb := 0x8000000000000000 } with quarters := [(0, { stack := .selfRefresh })] },
     { wTrv with sb := 0x8000000000000000 }, 16, 0, [1, 2], by decide +kernel⟩,
   ⟨{ wP wPort with quarters := [(0, { bar4 := [{ port := 0, write := true, offset := 64, bytes := List.replicate 64 5 }] })] },
     0, { port := 0, write := true, offset := 64, bytes := List.replicate 64 5 }, by decide +kernel⟩⟩

/-- The hypotheses of the clauses of MailboxesCarryMessages, in their order, part 1 of 2. -/
theorem witness_MailboxesCarryMessages_1 :
    (∃ (s : State) (p : Nat) (m : Nat) (v : BitVec 32), (s.barOpen p = true) ∧ (p < 8) ∧ (m < 4) ∧
      (1 ≤ bitsOf v.toNat 5 0) ∧ (bitsOf v.toNat 5 0 ≤ 32)) ∧
    (∃ (s : State) (p : Nat) (m : Nat) (v : BitVec 32), (s.barOpen p = true) ∧ (m < 4) ∧
      ((bitsOf v.toNat 5 0 = 0 ∨ 32 < bitsOf v.toNat 5 0))) ∧
    (∃ (s : State) (p : Nat), (s.barOpen p = true) ∧ (s.manage.principal ≠ some p)) ∧
    (∃ (s : State) (p : Nat) (m : Nat) (v : BitVec 32), (s.barOpen p = true) ∧ (p < 8) ∧ (m < 4) ∧
      (v.getLsbD 0 = true)) ∧
    (∃ (s : State) (p : Nat) (inst : Nat), (s.barOpen p = true) ∧ (inst < 32) ∧ (inst / 4 = p) ∧
      ((s.mailbox inst).wake = false)) ∧
    (∃ (s : State) (p : Nat) (inst : Nat), (s.barOpen p = true) ∧ (inst < 32) ∧ (inst / 4 = p) ∧
      ((s.mailbox inst).wake = true) ∧ ((s.mailbox inst).full = false)) ∧
    (∃ (s : State) (p : Nat), (s.reachable p = true) ∧ (s.recovering = true)) ∧
    (∃ (s : State) (k : Nat), (s.mayAccess k = false)) ∧
    (∃ (s : State) (inst : Nat) (v : Word), (s.mayAccess 48 = true) ∧ (inst < 32) ∧ (v.getLsbD 0 = true) ∧
      ((s.mailbox inst).full = true)) :=
  ⟨⟨{ wP wPort with ports := [(7, wPort)] }, 7, 3, 32, by decide +kernel⟩,
   ⟨wP wPort, 0, 3, 33, by decide +kernel⟩,
   ⟨wP wPort, 0, by decide +kernel⟩,
   ⟨{ wP wPort with ports := [(7, wPort)] }, 7, 3, 1, by decide +kernel⟩,
   ⟨{ wM 7 {} with ports := [(1, wPort)] }, 1, 7, by decide +kernel⟩,
   ⟨{ wM 7 { wake := true } with ports := [(1, wPort)] }, 1, 7, by decide +kernel⟩,
   ⟨{ wP wPort with mode := .recovery 1 }, 0, by decide +kernel⟩,
   ⟨wP wPort, 48, by decide +kernel⟩,
   ⟨{ wM 31 { full := true } with cores := [(48, wCore)] }, 31, 1, by decide +kernel⟩⟩

/-- The hypotheses of the clauses of MailboxesCarryMessages, in their order, part 2 of 2. -/
theorem witness_MailboxesCarryMessages_2 :
    (∃ (s : State) (inst : Nat) (v : Word), (s.mayAccess 48 = true) ∧ (32 ≤ inst) ∧ (inst < 64) ∧
      (1 ≤ bitsOf v.toNat 5 0) ∧ (bitsOf v.toNat 5 0 ≤ 32)) ∧
    (∃ (s : State) (k : Nat) (inst : Nat), (s.mbSender inst ≠ .core k)) ∧
    (∃ (s : State) (k : Nat) (inst : Nat) (v : Word), (s.mayAccess k = true) ∧ (s.mbSender inst = .core k) ∧
      (mbMayUse k (s.core k).cur inst = true) ∧ (1 ≤ bitsOf v.toNat 5 0) ∧ (bitsOf v.toNat 5 0 ≤ 32)) ∧
    (∃ (s : State) (k : Nat) (inst : Nat) (v : Word), (s.mayAccess k = true) ∧ (s.mbReceiver inst = .core k) ∧
      (mbMayUse k (s.core k).cur inst = true) ∧ (32 ≤ inst) ∧ (inst ≠ instSecureReq) ∧ (v.getLsbD 0 = true) ∧
      ((s.mailbox inst).full = true)) ∧
    (∃ (s : State) (k : Nat) (c : Nat) (inst : Nat), (s.mayAccess k = true) ∧ ((s.core k).cur = c) ∧
      (s.mbSender inst = .core k) ∧ (mbMayUse k c inst = true) ∧ ((s.mailbox inst).wake = false)) ∧
    (∃ (s : State) (k : Nat) (c : Nat) (j : Nat) (inst : Nat), (s.mayAccess k = true) ∧ ((s.core k).cur = c) ∧
      (s.mbSender inst = .core k) ∧ (mbMayUse k c inst = true) ∧ ((s.mailbox inst).wake = true) ∧
      (s.mbReceiver inst = .core j) ∧ (j < 48)) ∧
    (∃ (s : State) (inst : Nat), (s.mode = .ready) ∧ (inst < 32) ∧ ((s.mailbox inst).full = true) ∧
      ((s.mailbox (32 + inst)).full = false) ∧ ((∀ v ∈ s.service, v.inst ≠ inst)) ∧
      ((s.mailbox inst).collision = false) ∧
      (mbAccepts inst (((List.range (s.mailbox inst).len).map fun w => (s.mailbox inst).words.get w 0).headD 0).toNat = true)) ∧
    (∃ (s : State) (inst : Nat), (s.mode = .ready) ∧ (inst < 32) ∧ ((s.mailbox inst).full = true) ∧
      ((s.mailbox (32 + inst)).full = false) ∧ ((∀ v ∈ s.service, v.inst ≠ inst)) ∧
      ((s.mailbox inst).collision = true)) ∧
    (∃ (inst : Nat) (words : List Nat), (inst < 32) ∧ (words ≠ []) ∧ (words.length ≤ 32)) :=
  ⟨⟨{ wM 63 {} with cores := [(48, wCore)] }, 63, 32, by decide +kernel⟩,
   ⟨wM 7 {}, 48, 7, by decide +kernel⟩,
   ⟨{ wM 112 {} with cores := [(0, wCore)] }, 0, 112, 32, by decide +kernel⟩,
   ⟨{ wM 64 { full := true } with cores := [(0, wCore)] }, 0, 64, 1, by decide +kernel⟩,
   ⟨{ wM 112 {} with cores := [(0, wCore)] }, 0, 0, 112, by decide +kernel⟩,
   ⟨{ wM 111 { wake := true } with cores := [(47, { gated := true }), (48, wCore)] }, 48, 0, 47, 111,
     by decide +kernel⟩,
   ⟨wM 3 { full := true, len := 1, words := [(0, 0x0601)] }, 3, by decide +kernel⟩,
   ⟨wM 3 { full := true, collision := true }, 3, by decide +kernel⟩,
   ⟨31, List.replicate 32 7, by decide +kernel⟩⟩

/-- The hypotheses of the clauses of KilvorRequestsAreServed, in their order, part 1 of 2. -/
theorem witness_KilvorRequestsAreServed_1 :
    (∃ (s : State) (c : Instr) (src : KilvorSrc) (code : Nat) (r : KReq), (changeCommand c = some (src, code)) ∧
      (s.kreq src = some r) ∧ (s.kAwake src = true) ∧ (r.sound = true) ∧ (r.code = code) ∧ (s.isPrincipal r = false)) ∧
    (∃ (s : State) (src : KilvorSrc) (r : KReq) (p : Byte), (s.kreq src = some r) ∧ (s.kAwake src = true) ∧
      (r.sound = true) ∧ (r.code = 0x01) ∧ (r.payload = [p]) ∧ ((s.port p.toNat).created = true)) ∧
    (∃ (s : State) (src : KilvorSrc) (r : KReq), (s.kreq src = some r) ∧ (s.kAwake src = true) ∧ (r.sound = true) ∧
      (r.code = 0x02) ∧ (s.isPrincipal r = true) ∧ (s.grantOk r.payload = true) ∧ (byteAt r.payload 0 ≠ 0xB)) ∧
    (∃ (s : State) (src : KilvorSrc) (r : KReq), (s.kreq src = some r) ∧ (s.kAwake src = true) ∧ (r.sound = true) ∧
      (r.code = 0x03) ∧ (s.isPrincipal r = true) ∧ (r.payload = []) ∧ (s.commitWaits src = false)) ∧
    (∃ (s : State) (path : MctpPath) (body : List Byte) (r : KReq), (s.kreq (.mctp path body) = some r) ∧
      (r.sound = true) ∧ (r.code = 0x03) ∧ (s.isPrincipal r = true) ∧ (r.payload = []) ∧
      (s.commitWaits (.mctp path body) = true)) ∧
    (∃ (s : State) (c : Instr) (code : Nat) (q : Nat) (r : KReq) (v : Service) (rest : List Service), (changeCommand c = some (.service, code)) ∧
      (s.kreq .service = some r) ∧ (r.sound = true) ∧ (r.code = code) ∧ (s.service = v :: rest) ∧ (v.mctp = none) ∧
      (s.replyArea v = true) ∧ (q ∈ bufQuarters (bufPos (v.quad 7)) 4096) ∧ ((s.quarter q).stack = .selfRefresh)) ∧
    (∃ (s : State) (src : KilvorSrc) (r : KReq), (s.kreq src = some r) ∧ (s.kAwake src = true) ∧ (r.sound = true) ∧
      (r.code = 0x04) ∧ (s.isPrincipal r = true) ∧ (r.payload = [])) ∧
    (∃ (s : State) (src : KilvorSrc) (r : KReq) (p : Byte), (s.kreq src = some r) ∧ (s.kAwake src = true) ∧
      (r.sound = true) ∧ (r.code = 0x05) ∧ (r.sender = none) ∧ (r.payload = [p]) ∧ (p.toNat < 8) ∧
      ((s.port p.toNat).created = true)) :=
  ⟨⟨{ wP wPort with manage := { principal := some 3 } }, .discard (wSrc 4 []), wSrc 4 [], 4, wReq 4 [],
     by decide +kernel⟩,
   ⟨wP wPort, wSrc 1 [0], wReq 1 [0], 0, by decide +kernel⟩,
   ⟨wP wPort, wSrc 2 [1, 0, 0, 0, 4, 0, 0, 0], wReq 2 [1, 0, 0, 0, 4, 0, 0, 0], by decide +kernel⟩,
   ⟨wP wPort, wSrc 3 [], wReq 3 [], by decide +kernel⟩,
   ⟨{ wAd wPort [wAdm] with seqNo := 1 }, .smbus 0x60, [3], wReq 3 [], by decide +kernel⟩,
   ⟨{ wP wPort with service := [{ inst := 160, words := [3, 0, 1, 0, 0, 0, 0x8000, 0, 0, 0, 0x8000] }], quarters := [(0, { stack := .selfRefresh })], manage := { principal := some 0 }, extents := [{ first := 0, count := 64, owner := some 0, last := none }] },
     .commit .service, 3, 0,
     (State.kreq { wP wPort with service := [{ inst := 160, words := [3, 0, 1, 0, 0, 0, 0x8000, 0, 0, 0, 0x8000] }], quarters := [(0, { stack := .selfRefresh })], manage := { principal := some 0 }, extents := [{ first := 0, count := 64, owner := some 0, last := none }] } .service).getD (wReq 0 []),
     { inst := 160, words := [3, 0, 1, 0, 0, 0, 0x8000, 0, 0, 0, 0x8000] }, [], by decide +kernel⟩,
   ⟨wP wPort, wSrc 4 [], wReq 4 [], by decide +kernel⟩,
   ⟨wP wPort, wSrc 5 [0], wReq 5 [0], 0, by decide +kernel⟩⟩

/-- The hypotheses of the clauses of KilvorRequestsAreServed, in their order, part 2 of 2. -/
theorem witness_KilvorRequestsAreServed_2 :
    (∃ (s : State) (src : KilvorSrc) (r : KReq) (p : Nat), (s.kreq src = some r) ∧ (s.kAwake src = true) ∧
      (r.sound = true) ∧ (r.code = 0x05) ∧ (r.sender = some p)) ∧
    (∃ (s : State) (src : KilvorSrc) (r : KReq), (s.kreq src = some r) ∧ (s.kAwake src = true) ∧ (r.sound = true) ∧
      (9 < r.code)) ∧
    (∃ (s : State) (c : Instr) (src : KilvorSrc) (code : Nat) (r : KReq), (changeCommand c = some (src, code)) ∧
      (s.kreq src = some r) ∧ (s.kAwake src = true) ∧ (r.sound = true) ∧ (r.code = code) ∧ (s.isPrincipal r = true) ∧
      ((code = 2 → s.grantOk r.payload = false)) ∧ ((code ≠ 2 → r.payload ≠ []))) ∧
    (∃ (s : State) (src : KilvorSrc) (r : KReq), (s.kreq src = some r) ∧ (s.kAwake src = true) ∧ (r.sound = true) ∧
      (r.code = 0x01) ∧ ((r.payload.length ≠ 1 ∨ (s.port (byteAt r.payload 0)).created = false))) ∧
    (∃ (s : State) (src : KilvorSrc) (r : KReq), (s.kreq src = some r) ∧ (s.kAwake src = true) ∧ (r.sound = true) ∧
      (r.code = 0x05) ∧ (r.sender = none) ∧
      ((r.payload.length ≠ 1 ∨ (byteAt r.payload 0 ≠ 0xFF ∧ (8 ≤ byteAt r.payload 0 ∨ (s.port (byteAt r.payload 0)).created = false))))) ∧
    (∃ (s : State) (src : KilvorSrc) (r : KReq), (s.kreq src = some r) ∧ (s.kAwake src = true) ∧ (r.sound = true) ∧
      (r.code = 0x05) ∧ (r.sender = none) ∧ (r.payload = [0xFF])) ∧
    (∃ (s : State) (src : KilvorSrc) (r : KReq), (s.kreq src = some r) ∧ (s.kAwake src = true) ∧ (r.sound = true) ∧
      (r.code = 0x02) ∧ (s.isPrincipal r = true) ∧ (s.grantOk r.payload = true) ∧ (byteAt r.payload 0 = 0xB)) :=
  ⟨⟨wP wPort, .mctp (.vdm 0) [5, 0], { sender := some 0, keyPath := false, sound := true, code := 5, payload := [0] },
     0, by decide +kernel⟩,
   ⟨wP wPort, wSrc 10 [], wReq 10 [], by decide +kernel⟩,
   ⟨wP wPort, .discard (wSrc 4 [0]), wSrc 4 [0], 4, wReq 4 [0], by decide +kernel⟩,
   ⟨wP wPort, wSrc 1 [1], wReq 1 [1], by decide +kernel⟩,
   ⟨wP wPort, wSrc 5 [8], wReq 5 [8], by decide +kernel⟩,
   ⟨wP wPort, wSrc 5 [0xFF], wReq 5 [0xFF], by decide +kernel⟩,
   ⟨wP wPort, wSrc 2 [0xB, 0, 0, 0, 0x0A], wReq 2 [0xB, 0, 0, 0, 0x0A], by decide +kernel⟩⟩

/-- The hypotheses of the clauses of LevelsAreSet, in their order, part 1 of 3. -/
theorem witness_LevelsAreSet_1 :
    (∃ (s : State) (c : Instr) (src : KilvorSrc) (fn : Nat) (r : KReq), (levelCommand c = some (src, fn)) ∧
      (s.kreq src = some r) ∧ (s.kAwake src = true) ∧ (r.sound = true) ∧ (r.code = 0x06) ∧ (byteAt r.payload 0 = fn) ∧
      (s.isPrincipal r = false)) ∧
    (∃ (s : State) (src : KilvorSrc) (b : List Byte), (LevelRequest s src 0x10 b) ∧ (outingChoiceOk b = true) ∧
      (isExpert b = false)) ∧
    (∃ (s : State) (src : KilvorSrc) (b : List Byte), (LevelRequest s src 0x11 b) ∧ (isExpert b = true) ∧
      (b.length = 5) ∧ (1 ≤ byteAt b 4) ∧ (byteAt b 4 ≤ 2)) ∧
    (∃ (s : State) (src : KilvorSrc) (b : List Byte), (LevelRequest s src 0x12 b) ∧ (b.length = 8) ∧
      (1 ≤ byteAt b 4) ∧ (byteAt b 4 ≤ 96) ∧ (byteAt b 5 = 0) ∧ (5 ≤ fieldAt b 6 2) ∧ (fieldAt b 6 2 ≤ 600)) ∧
    (∃ (s : State) (src : KilvorSrc) (b : List Byte), (LevelRequest s src 0x20 b) ∧ (isExpert b = false) ∧
      (b.length = 4)) ∧
    (∃ (s : State) (src : KilvorSrc) (b : List Byte), (LevelRequest s src 0x21 b) ∧ (isExpert b = false) ∧
      (b.length = 6) ∧ (5 ≤ fieldAt b 4 2) ∧ (fieldAt b 4 2 ≤ 3600)) ∧
    (∃ (s : State) (src : KilvorSrc) (b : List Byte), (LevelRequest s src 0x30 b) ∧ (b.length = 4) ∧
      (isExpert b = true)) :=
  ⟨⟨{ wP wPort with manage := { principal := some 3 } }, .setLevelCopy (wSrc 6 [0x61]), wSrc 6 [0x61], 0x61,
     wReq 6 [0x61], by decide +kernel⟩,
   ⟨wP wPort, wSrc 6 [0x10, 0, 0, 0, 10, 0, 0, 0, 44, 1, 0, 0, 132, 3, 0, 0],
     [0x10, 0, 0, 0, 10, 0, 0, 0, 44, 1, 0, 0, 132, 3, 0, 0],
     ⟨⟨wReq 0x06 _, by decide +kernel, by decide +kernel, by decide +kernel, by decide +kernel, rfl, by decide +kernel, by decide +kernel⟩, by decide +kernel, by decide +kernel⟩,
     by decide +kernel⟩,
   ⟨wP wPort, wSrc 6 [0x11, 1, 0, 0, 2], [0x11, 1, 0, 0, 2],
     ⟨⟨wReq 0x06 _, by decide +kernel, by decide +kernel, by decide +kernel, by decide +kernel, rfl, by decide +kernel, by decide +kernel⟩, by decide +kernel, by decide +kernel⟩,
     by decide +kernel⟩,
   ⟨wP wPort, wSrc 6 [0x12, 1, 0, 0, 96, 0, 88, 2], [0x12, 1, 0, 0, 96, 0, 88, 2],
     ⟨⟨wReq 0x06 _, by decide +kernel, by decide +kernel, by decide +kernel, by decide +kernel, rfl, by decide +kernel, by decide +kernel⟩, by decide +kernel, by decide +kernel⟩,
     by decide +kernel⟩,
   ⟨wP wPort, wSrc 6 [0x20, 0, 0, 0], [0x20, 0, 0, 0],
     ⟨⟨wReq 0x06 _, by decide +kernel, by decide +kernel, by decide +kernel, by decide +kernel, rfl, by decide +kernel, by decide +kernel⟩, by decide +kernel, by decide +kernel⟩,
     by decide +kernel⟩,
   ⟨wP wPort, wSrc 6 [0x21, 0, 0, 0, 16, 14], [0x21, 0, 0, 0, 16, 14],
     ⟨⟨wReq 0x06 _, by decide +kernel, by decide +kernel, by decide +kernel, by decide +kernel, rfl, by decide +kernel, by decide +kernel⟩, by decide +kernel, by decide +kernel⟩,
     by decide +kernel⟩,
   ⟨wP wPort, wSrc 6 [0x30, 1, 0, 0], [0x30, 1, 0, 0],
     ⟨⟨wReq 0x06 _, by decide +kernel, by decide +kernel, by decide +kernel, by decide +kernel, rfl, by decide +kernel, by decide +kernel⟩, by decide +kernel, by decide +kernel⟩,
     by decide +kernel⟩⟩

/-- The hypotheses of the clauses of LevelsAreSet, in their order, part 2 of 3. -/
theorem witness_LevelsAreSet_2 :
    (∃ (s : State) (src : KilvorSrc) (b : List Byte), (LevelRequest s src 0x50 b) ∧ (b.length = 4) ∧
      (isExpert b = true)) ∧
    (∃ (s : State) (src : KilvorSrc) (b : List Byte), (LevelRequest s src 0x60 b) ∧ (b.length = 5) ∧
      (isExpert b = false) ∧ (byteAt b 4 = 1) ∧ ((s.quarter 0).stack ≠ .selfRefresh)) ∧
    (∃ (s : State) (q : Nat), ((s.quarter q).stack = .selfRefresh)) ∧
    (∃ (s : State) (src : KilvorSrc) (b : List Byte), (LevelRequest s src 0x61 b) ∧ (b.length = 4) ∧
      (isExpert b = false)) ∧
    (∃ (s : State) (c : Instr) (src : KilvorSrc) (fn : Nat) (b : List Byte), (levelCommand c = some (src, fn)) ∧
      (LoadRequest s src 0x06 fn b) ∧ ((2 ≤ byteAt b 1 ∨ zeroAt b 2 2 = false ∨ b.length < 4))) ∧
    (∃ (s : State) (src : KilvorSrc) (b : List Byte), (LevelRequest s src 0x10 b) ∧ (outingChoiceOk b = true) ∧
      (isExpert b = true)) ∧
    (∃ (s : State) (src : KilvorSrc) (b : List Byte), (LevelRequest s src 0x11 b) ∧ (isExpert b = false) ∧
      (b.length = 4)) :=
  ⟨⟨wP wPort, wSrc 6 [0x50, 1, 0, 0], [0x50, 1, 0, 0],
     ⟨⟨wReq 0x06 _, by decide +kernel, by decide +kernel, by decide +kernel, by decide +kernel, rfl, by decide +kernel, by decide +kernel⟩, by decide +kernel, by decide +kernel⟩,
     by decide +kernel⟩,
   ⟨wP wPort, wSrc 6 [0x60, 0, 0, 0, 1], [0x60, 0, 0, 0, 1],
     ⟨⟨wReq 0x06 _, by decide +kernel, by decide +kernel, by decide +kernel, by decide +kernel, rfl, by decide +kernel, by decide +kernel⟩, by decide +kernel, by decide +kernel⟩,
     by decide +kernel⟩,
   ⟨wQ { stack := .selfRefresh }, 1, by decide +kernel⟩,
   ⟨wP wPort, wSrc 6 [0x61, 0, 0, 0], [0x61, 0, 0, 0],
     ⟨⟨wReq 0x06 _, by decide +kernel, by decide +kernel, by decide +kernel, by decide +kernel, rfl, by decide +kernel, by decide +kernel⟩, by decide +kernel, by decide +kernel⟩,
     by decide +kernel⟩,
   ⟨wP wPort, .setLevelCopy (wSrc 6 [0x61, 2, 0, 0]), wSrc 6 [0x61, 2, 0, 0], 0x61, [0x61, 2, 0, 0],
     by decide +kernel,
     ⟨wReq 0x06 _, by decide +kernel, by decide +kernel, by decide +kernel, by decide +kernel, rfl, by decide +kernel, by decide +kernel⟩,
     by decide +kernel⟩,
   ⟨wP wPort,
     wSrc 6 [16, 1, 0, 0, 10, 0, 0, 0, 44, 1, 0, 0, 132, 3, 0, 0, 1, 0, 0, 0, 10, 0, 0, 0, 15, 0, 0, 0, 0, 0, 0, 0, 16, 16, 16, 16, 16, 16, 16, 16, 255, 91, 38, 5],
     [16, 1, 0, 0, 10, 0, 0, 0, 44, 1, 0, 0, 132, 3, 0, 0, 1, 0, 0, 0, 10, 0, 0, 0, 15, 0, 0, 0, 0, 0, 0, 0, 16, 16, 16, 16, 16, 16, 16, 16, 255, 91, 38, 5],
     ⟨⟨wReq 0x06 _, by decide +kernel, by decide +kernel, by decide +kernel, by decide +kernel, rfl, by decide +kernel, by decide +kernel⟩, by decide +kernel, by decide +kernel⟩,
     by decide +kernel⟩,
   ⟨wP wPort, wSrc 6 [17, 0, 0, 0], [17, 0, 0, 0],
     ⟨⟨wReq 0x06 _, by decide +kernel, by decide +kernel, by decide +kernel, by decide +kernel, rfl, by decide +kernel, by decide +kernel⟩, by decide +kernel, by decide +kernel⟩,
     by decide +kernel⟩⟩

/-- The hypotheses of the clauses of LevelsAreSet, in their order, part 3 of 3. -/
theorem witness_LevelsAreSet_3 :
    (∃ (s : State) (src : KilvorSrc) (b : List Byte), (LevelRequest s src 0x20 b) ∧ (isExpert b = true) ∧
      (b.length = 16) ∧
      ((∀ c, c < 12 → 16 ≤ byteAt b (4 + c) ∧ byteAt b (4 + c) / 4 % 4 = 0 ∧ byteAt b (4 + c) % 4 ≠ 3))) ∧
    (∃ (s : State) (src : KilvorSrc) (b : List Byte), (LevelRequest s src 0x21 b) ∧ (isExpert b = true) ∧
      (b.length = 32) ∧ (5 ≤ fieldAt b 4 2) ∧ (fieldAt b 4 2 ≤ 3600) ∧ (1 ≤ fieldAt b 6 2) ∧ (fieldAt b 6 2 ≤ 60) ∧
      (100 ≤ fieldAt b 8 2) ∧ (fieldAt b 8 2 ≤ 10000) ∧ (byteAt b 10 ≤ 64) ∧ (byteAt b 11 = 0) ∧
      (1 ≤ fieldAt b 12 2) ∧ (fieldAt b 12 2 ≤ 1000) ∧ (1 ≤ fieldAt b 14 2) ∧ (fieldAt b 14 2 ≤ 256) ∧
      ((∀ p, p < 8 → 5 ≤ fieldAt b (16 + 2 * p) 2 ∧ fieldAt b (16 + 2 * p) 2 ≤ 3600))) ∧
    (∃ (s : State) (src : KilvorSrc) (b : List Byte), (LevelRequest s src 0x30 b) ∧ (b.length = 4) ∧
      (isExpert b = false)) ∧
    (∃ (s : State) (src : KilvorSrc) (b : List Byte), (LevelRequest s src 0x50 b) ∧ (b.length = 4) ∧
      (isExpert b = false)) ∧
    (∃ (s : State) (src : KilvorSrc) (b : List Byte), (LevelRequest s src 0x60 b) ∧ (b.length = 8) ∧
      (isExpert b = true) ∧ (byteAt b 4 < 16) ∧ (byteAt b 4 % 2 = 0) ∧ (byteAt b 5 = 0) ∧ (10 ≤ fieldAt b 6 2) ∧
      (fieldAt b 6 2 ≤ 60000) ∧ ((∀ q, q < 4 → (s.quarter q).stack ≠ .selfRefresh))) ∧
    (∃ (s : State) (src : KilvorSrc) (b : List Byte), (LevelRequest s src 0x60 b) ∧ (b.length = 5) ∧
      (isExpert b = false) ∧ (byteAt b 4 = 0) ∧ ((∀ q, q < 4 → (s.quarter q).stack ≠ .selfRefresh))) ∧
    (∃ (s : State) (src : KilvorSrc) (b : List Byte), (LevelRequest s src 0x61 b) ∧ (b.length = 12) ∧
      (isExpert b = true) ∧ ((∀ p, p < 8 → 1 ≤ byteAt b (4 + p) ∧ byteAt b (4 + p) ≤ 6))) :=
  ⟨⟨wP wPort, wSrc 6 [32, 1, 0, 0, 242, 242, 242, 242, 242, 242, 242, 242, 242, 242, 242, 242],
     [32, 1, 0, 0, 242, 242, 242, 242, 242, 242, 242, 242, 242, 242, 242, 242],
     ⟨⟨wReq 0x06 _, by decide +kernel, by decide +kernel, by decide +kernel, by decide +kernel, rfl, by decide +kernel, by decide +kernel⟩, by decide +kernel, by decide +kernel⟩,
     by decide +kernel⟩,
   ⟨wP wPort,
     wSrc 6 [33, 1, 0, 0, 16, 14, 60, 0, 100, 0, 64, 0, 1, 0, 0, 1, 5, 0, 5, 0, 5, 0, 5, 0, 5, 0, 5, 0, 5, 0, 5, 0],
     [33, 1, 0, 0, 16, 14, 60, 0, 100, 0, 64, 0, 1, 0, 0, 1, 5, 0, 5, 0, 5, 0, 5, 0, 5, 0, 5, 0, 5, 0, 5, 0],
     ⟨⟨wReq 0x06 _, by decide +kernel, by decide +kernel, by decide +kernel, by decide +kernel, rfl, by decide +kernel, by decide +kernel⟩, by decide +kernel, by decide +kernel⟩,
     by decide +kernel⟩,
   ⟨{ wP wPort with manage := { timetable := { expert := true } } }, wSrc 6 [0x30, 0, 0, 0], [0x30, 0, 0, 0],
     ⟨⟨wReq 0x06 _, by decide +kernel, by decide +kernel, by decide +kernel, by decide +kernel, rfl, by decide +kernel, by decide +kernel⟩, by decide +kernel, by decide +kernel⟩,
     by decide +kernel⟩,
   ⟨wP wPort, wSrc 6 [80, 0, 0, 0], [80, 0, 0, 0],
     ⟨⟨wReq 0x06 _, by decide +kernel, by decide +kernel, by decide +kernel, by decide +kernel, rfl, by decide +kernel, by decide +kernel⟩, by decide +kernel, by decide +kernel⟩,
     by decide +kernel⟩,
   ⟨wP wPort, wSrc 6 [96, 1, 0, 0, 14, 0, 10, 0], [96, 1, 0, 0, 14, 0, 10, 0],
     ⟨⟨wReq 0x06 _, by decide +kernel, by decide +kernel, by decide +kernel, by decide +kernel, rfl, by decide +kernel, by decide +kernel⟩, by decide +kernel, by decide +kernel⟩,
     by decide +kernel⟩,
   ⟨wP wPort, wSrc 6 [96, 0, 0, 0, 0], [96, 0, 0, 0, 0],
     ⟨⟨wReq 0x06 _, by decide +kernel, by decide +kernel, by decide +kernel, by decide +kernel, rfl, by decide +kernel, by decide +kernel⟩, by decide +kernel, by decide +kernel⟩,
     by decide +kernel⟩,
   ⟨wP wPort, wSrc 6 [97, 1, 0, 0, 6, 6, 6, 6, 6, 6, 6, 6], [97, 1, 0, 0, 6, 6, 6, 6, 6, 6, 6, 6],
     ⟨⟨wReq 0x06 _, by decide +kernel, by decide +kernel, by decide +kernel, by decide +kernel, rfl, by decide +kernel, by decide +kernel⟩, by decide +kernel, by decide +kernel⟩,
     by decide +kernel⟩⟩

/-- The hypotheses of the clauses of TablesRecipesAndKeysAreLoaded, in their order, part 1 of 2. -/
theorem witness_TablesRecipesAndKeysAreLoaded_1 :
    (∃ (s : State) (src : KilvorSrc) (b : List Byte), (LoadRequest s src 0x07 1 b) ∧ (b.length = 8) ∧
      (zeroAt b 1 7 = true) ∧ (s.manage.timetable.expert = true) ∧ ((∀ q, q < 4 → (s.quarter q).shadowArm = false))) ∧
    (∃ (s : State) (src : KilvorSrc) (b : List Byte), (LoadRequest s src 0x07 1 b) ∧ (b.length = 8) ∧
      (zeroAt b 1 7 = true) ∧ (s.manage.timetable.expert = false)) ∧
    (∃ (s : State) (src : KilvorSrc) (b : List Byte), (LoadRequest s src 0x07 2 b) ∧ (b.length = 24) ∧
      (byteAt b 1 < 4) ∧ (fieldAt b 4 2 = 1) ∧ (fieldAt b 2 2 < 4096) ∧ (zeroAt b 6 2 = true) ∧
      (s.manage.timetable.expert = true) ∧ (s.manage.timetable.staging = true) ∧
      ((∀ q, q < 4 → (s.quarter q).shadowArm = false))) ∧
    (∃ (s : State) (src : KilvorSrc) (b : List Byte), (LoadRequest s src 0x07 3 b) ∧ (b.length = 8) ∧
      (zeroAt b 1 3 = true) ∧ (s.manage.timetable.expert = true) ∧ (s.manage.timetable.staging = true) ∧
      ((∀ q, q < 4 → (s.quarter q).shadowArm = false))) ∧
    (∃ (s : State) (src : KilvorSrc) (b : List Byte), (LoadRequest s src 0x07 4 b) ∧ (b.length = 8) ∧
      (zeroAt b 1 7 = true) ∧ (s.manage.timetable.expert = true) ∧ (s.manage.timetable.staging = true) ∧
      ((∀ q, q < 4 → (s.quarter q).shadowArm = false))) ∧
    (∃ (s : State) (src : KilvorSrc) (b : List Byte), (LoadRequest s src 0x08 1 b) ∧ (s.manage.recipesExpert = true) ∧
      (byteAt b 1 < 12) ∧ (byteAt b 2 < 16) ∧ (byteAt b 3 = 0) ∧ (b.length = 12) ∧ (fieldAt b 4 2 = 0) ∧
      (fieldAt b 6 2 = 4)) ∧
    (∃ (s : State) (src : KilvorSrc) (b : List Byte) (g : Staging), (LoadRequest s src 0x08 2 b) ∧
      (s.manage.recipesExpert = true) ∧ (byteAt b 1 < 12) ∧ (byteAt b 2 < 16) ∧ (byteAt b 3 = 0) ∧ (b.length = 8) ∧
      (zeroAt b 4 4 = true) ∧ ((s.engine (byteAt b 1)).namesSlot (byteAt b 2) = false) ∧
      ((s.engine (byteAt b 1)).staging = some g) ∧ (g.slot = byteAt b 2) ∧ (imageOk g.bytes = true)) ∧
    (∃ (s : State) (src : KilvorSrc) (b : List Byte), (LoadRequest s src 0x08 2 b) ∧ (s.manage.recipesExpert = true) ∧
      (byteAt b 1 < 12) ∧ (byteAt b 2 < 16) ∧ (byteAt b 3 = 0) ∧ (b.length = 8) ∧ (zeroAt b 4 4 = true) ∧
      ((s.engine (byteAt b 1)).namesSlot (byteAt b 2) = true)) ∧
    (∃ (s : State) (src : KilvorSrc) (b : List Byte), (LoadRequest s src 0x08 3 b) ∧ (s.manage.recipesExpert = true) ∧
      (byteAt b 1 < 12) ∧ (byteAt b 2 < 16) ∧ (byteAt b 3 = 0) ∧ (b.length = 8) ∧ (zeroAt b 4 4 = true) ∧
      ((s.engine (byteAt b 1)).namesSlot (byteAt b 2) = false)) ∧
    (∃ (s : State) (src : KilvorSrc) (r : KReq), (KeyRequest s src 1 36 r) ∧ (r.keyPath = true) ∧
      (s.manage.keys.find (keyEntry r.payload) = none)) :=
  ⟨⟨{ wP wPort with manage := { timetable := { expert := true } } }, wSrc 7 [1, 0, 0, 0, 0, 0, 0, 0],
     [1, 0, 0, 0, 0, 0, 0, 0],
     ⟨wReq 0x07 _, by decide +kernel, by decide +kernel, by decide +kernel, by decide +kernel, rfl, by decide +kernel, by decide +kernel⟩,
     by decide +kernel⟩,
   ⟨wP wPort, wSrc 7 [1, 0, 0, 0, 0, 0, 0, 0], [1, 0, 0, 0, 0, 0, 0, 0],
     ⟨wReq 0x07 _, by decide +kernel, by decide +kernel, by decide +kernel, by decide +kernel, rfl, by decide +kernel, by decide +kernel⟩,
     by decide +kernel⟩,
   ⟨{ wP wPort with manage := { timetable := { expert := true, staging := true } } },
     wSrc 7 (wBytes 24 [(0, 2), (1, 3), (2, 0xFF), (3, 0x0F), (4, 1)]),
     wBytes 24 [(0, 2), (1, 3), (2, 0xFF), (3, 0x0F), (4, 1)],
     ⟨wReq 0x07 _, by decide +kernel, by decide +kernel, by decide +kernel, by decide +kernel, rfl, by decide +kernel, by decide +kernel⟩,
     by decide +kernel⟩,
   ⟨{ wP wPort with manage := { timetable := { expert := true, staging := true } } }, wSrc 7 [3, 0, 0, 0, 0, 0, 0, 0],
     [3, 0, 0, 0, 0, 0, 0, 0],
     ⟨wReq 0x07 _, by decide +kernel, by decide +kernel, by decide +kernel, by decide +kernel, rfl, by decide +kernel, by decide +kernel⟩,
     by decide +kernel⟩,
   ⟨{ wP wPort with manage := { timetable := { expert := true, staging := true } } }, wSrc 7 [4, 0, 0, 0, 0, 0, 0, 0],
     [4, 0, 0, 0, 0, 0, 0, 0],
     ⟨wReq 0x07 _, by decide +kernel, by decide +kernel, by decide +kernel, by decide +kernel, rfl, by decide +kernel, by decide +kernel⟩,
     by decide +kernel⟩,
   ⟨{ wP wPort with manage := { recipesExpert := true } }, wSrc 8 [1, 11, 15, 0, 0, 0, 4, 0, 1, 2, 3, 4],
     [1, 11, 15, 0, 0, 0, 4, 0, 1, 2, 3, 4],
     ⟨wReq 0x08 _, by decide +kernel, by decide +kernel, by decide +kernel, by decide +kernel, rfl, by decide +kernel, by decide +kernel⟩,
     by decide +kernel⟩,
   ⟨{ wP wPort with manage := { recipesExpert := true }, engines := [(11, { staging := some wStage })] },
     wSrc 8 [2, 11, 15, 0, 0, 0, 0, 0], [2, 11, 15, 0, 0, 0, 0, 0], wStage,
     ⟨wReq 0x08 _, by decide +kernel, by decide +kernel, by decide +kernel, by decide +kernel, rfl, by decide +kernel, by decide +kernel⟩,
     by decide +kernel⟩,
   ⟨{ wP wPort with manage := { recipesExpert := true }, engines := [(0, { queue := [wLaunch] })] },
     wSrc 8 [2, 0, 1, 0, 0, 0, 0, 0], [2, 0, 1, 0, 0, 0, 0, 0],
     ⟨wReq 0x08 _, by decide +kernel, by decide +kernel, by decide +kernel, by decide +kernel, rfl, by decide +kernel, by decide +kernel⟩,
     by decide +kernel⟩,
   ⟨{ wP wPort with manage := { recipesExpert := true } }, wSrc 8 [3, 11, 15, 0, 0, 0, 0, 0],
     [3, 11, 15, 0, 0, 0, 0, 0],
     ⟨wReq 0x08 _, by decide +kernel, by decide +kernel, by decide +kernel, by decide +kernel, rfl, by decide +kernel, by decide +kernel⟩,
     by decide +kernel⟩,
   ⟨wP wPort, wSrc 9 (wBytes 36 [(0, 1), (2, 1)]), wReq 9 (wBytes 36 [(0, 1), (2, 1)]),
     (by unfold KeyRequest; decide +kernel), by decide +kernel⟩⟩

/-- The hypotheses of the clauses of TablesRecipesAndKeysAreLoaded, in their order, part 2 of 2. -/
theorem witness_TablesRecipesAndKeysAreLoaded_2 :
    (∃ (s : State) (src : KilvorSrc) (r : KReq) (k : BitVec 256), (KeyRequest s src 1 36 r) ∧ (r.keyPath = true) ∧
      (s.manage.keys.find (keyEntry r.payload) = some k)) ∧
    (∃ (s : State) (src : KilvorSrc) (r : KReq), (KeyRequest s src 1 36 r) ∧ (r.keyPath = false)) ∧
    (∃ (s : State) (src : KilvorSrc) (r : KReq), (KeyRequest s src 2 4 r) ∧
      (s.manage.keys.find (keyEntry r.payload) = none)) ∧
    (∃ (s : State) (src : KilvorSrc) (r : KReq), (KeyRequest s src 3 4 r)) ∧
    (∃ (s : State) (src : KilvorSrc) (r : KReq), (KeyRequest s src 4 4 r)) ∧
    (∃ (s : State) (src : KilvorSrc) (data : List Byte) (rest : List (KilvorSrc × List Byte)), (s.manage.keyReply = (src, data) :: rest) ∧
      (s.kAwake src = true)) ∧
    (∃ (s : State) (c : Instr) (src : KilvorSrc) (op : Nat) (b : List Byte), (tableCommand c = some (src, op)) ∧
      (LoadRequest s src 0x07 op b) ∧ ((tableForm b = false ∨ s.manage.timetable.expert = false))) ∧
    (∃ (s : State) (c : Instr) (src : KilvorSrc) (op : Nat) (q : Nat) (b : List Byte), (tableCommand c = some (src, op)) ∧
      (LoadRequest s src 0x07 op b) ∧ (tableForm b = true) ∧ (s.manage.timetable.expert = true) ∧ (q < 4) ∧
      ((s.quarter q).shadowArm = true)) ∧
    (∃ (s : State) (c : Instr) (src : KilvorSrc) (op : Nat) (b : List Byte), (tableCommand c = some (src, op)) ∧
      (LoadRequest s src 0x07 op b) ∧ (tableForm b = true) ∧ (s.manage.timetable.expert = true) ∧ (op ≠ 1) ∧
      (s.manage.timetable.staging = false)) ∧
    (∃ (s : State) (src : KilvorSrc) (r : KReq) (k : BitVec 256), (KeyRequest s src 2 4 r) ∧
      (s.manage.keys.find (keyEntry r.payload) = some k)) :=
  ⟨⟨{ wP wPort with manage := { keys := [(1, 77)] } }, wSrc 9 (wBytes 36 [(0, 1), (2, 1)]),
     wReq 9 (wBytes 36 [(0, 1), (2, 1)]), 77, (by unfold KeyRequest; decide +kernel), by decide +kernel⟩,
   ⟨{ wP wPort with manage := { principal := some 0 } }, .mctp (.vdm 0) (9 :: wBytes 36 [(0, 1), (2, 1)]),
     { sender := some 0, keyPath := false, sound := true, code := 9, payload := wBytes 36 [(0, 1), (2, 1)] },
     (by unfold KeyRequest; decide +kernel), by decide +kernel⟩,
   ⟨wP wPort, wSrc 9 [2, 0, 1, 0], wReq 9 [2, 0, 1, 0], (by unfold KeyRequest; decide +kernel), by decide +kernel⟩,
   ⟨wP wPort, wSrc 9 [3, 0, 1, 0], wReq 9 [3, 0, 1, 0], (by unfold KeyRequest; decide +kernel)⟩,
   ⟨wP wPort, wSrc 9 [4, 0, 1, 0], wReq 9 [4, 0, 1, 0], (by unfold KeyRequest; decide +kernel)⟩,
   ⟨{ wP wPort with manage := { keyReply := [(wSrc 9 [2, 0, 1, 0], [1])] } }, wSrc 9 [2, 0, 1, 0], [1], [],
     by decide +kernel⟩,
   ⟨wP wPort, .timetableAbort (wSrc 7 [4, 0, 0]), wSrc 7 [4, 0, 0], 4, [4, 0, 0], by decide +kernel,
     ⟨wReq 0x07 _, by decide +kernel, by decide +kernel, by decide +kernel, by decide +kernel, rfl, by decide +kernel, by decide +kernel⟩,
     by decide +kernel⟩,
   ⟨{ wP wPort with manage := { timetable := { expert := true } }, quarters := [(3, { shadowArm := true })] },
     .timetableBegin (wSrc 7 [1, 0, 0, 0, 0, 0, 0, 0]), wSrc 7 [1, 0, 0, 0, 0, 0, 0, 0], 1, 3,
     [1, 0, 0, 0, 0, 0, 0, 0], by decide +kernel,
     ⟨wReq 0x07 _, by decide +kernel, by decide +kernel, by decide +kernel, by decide +kernel, rfl, by decide +kernel, by decide +kernel⟩,
     by decide +kernel⟩,
   ⟨{ wP wPort with manage := { timetable := { expert := true } } },
     .timetableAbort (wSrc 7 [4, 0, 0, 0, 0, 0, 0, 0]), wSrc 7 [4, 0, 0, 0, 0, 0, 0, 0], 4, [4, 0, 0, 0, 0, 0, 0, 0],
     by decide +kernel,
     ⟨wReq 0x07 _, by decide +kernel, by decide +kernel, by decide +kernel, by decide +kernel, rfl, by decide +kernel, by decide +kernel⟩,
     by decide +kernel⟩,
   ⟨{ wP wPort with manage := { keys := [(1, 77)] } }, wSrc 9 [2, 0, 1, 0], wReq 9 [2, 0, 1, 0], 77,
     (by unfold KeyRequest; decide +kernel), by decide +kernel⟩⟩

/-- The hypotheses of the clauses of ManagementPathsAnswer, in their order. -/
theorem witness_ManagementPathsAnswer :
    (∃ (s : State) (path : MctpPath), (s.mode = .ready) ∧ (path ≠ .secure) ∧ (s.addressed path = true)) ∧
    (∃ (s : State), (s.mode = .ready)) ∧
    (∃ (s : State) (a : BitVec 7), (a ≠ s.smbusAddr)) ∧
    (∃ (s : State) (path : MctpPath) (why : Nat), (s.mode = .recovery why) ∧ (s.addressed path = true)) ∧
    (∃ (s : State) (path : MctpPath) (typ : Nat), (s.mode = .ready) ∧ (path ≠ .secure) ∧ (s.addressed path = true) ∧
      ((typ = 0 ∨ typ = 2))) ∧
    (∃ (s : State) (path : MctpPath) (off : Nat) (bs : List Byte), (s.mode = .ready) ∧ (s.pathPrincipal path = true) ∧
      (s.addressed path = true) ∧ (off + bs.length ≤ 12 * 2 ^ 20)) ∧
    (∃ (s : State) (path : MctpPath) (f : Flash), (s.mode = .ready) ∧ (s.pathPrincipal path = true) ∧
      (s.addressed path = true) ∧ (f = { s.flash with pending := some (!s.flash.active), dirKnown := true })) ∧
    (∃ (s : State) (path : MctpPath), (s.mode = .ready) ∧ (s.pathPrincipal path = true) ∧ (s.addressed path = true) ∧
      (s.flash.svnMin.toNat < s.flash.svn.toNat)) ∧
    (∃ (s : State) (path : MctpPath), (s.mode = .ready) ∧ (s.pathPrincipal path = false) ∧ (s.addressed path = true)) :=
  ⟨⟨wP wPort, .vdm 0, by decide +kernel⟩,
   ⟨wP wPort, by decide +kernel⟩,
   ⟨wP wPort, 5, by decide +kernel⟩,
   ⟨{ mode := .recovery 3 }, .smbus 0x60, 3, by decide +kernel⟩,
   ⟨wP wPort, .smbus 0x60, 2, by decide +kernel⟩,
   ⟨wP wPort, .smbus 0x60, 12 * 2 ^ 20 - 2, [1, 2], by decide +kernel⟩,
   ⟨wP wPort, .smbus 0x60, { pending := some true, dirKnown := true }, by decide +kernel⟩,
   ⟨{ wP wPort with flash := { svn := 2 } }, .smbus 0x60, by decide +kernel⟩,
   ⟨wP wPort, .vdm 0, by decide +kernel⟩⟩

/-- The hypotheses of the clauses of ShelfAndChainMessagesAreServed, in their order, part 1 of 2. -/
theorem witness_ShelfAndChainMessagesAreServed_1 :
    (∃ (s : State) (v : Service) (p : Nat), (s.serving 0x0601 = some v) ∧ (v.port = some p) ∧ (v.word 1 < 48) ∧
      (s.serviceIndex = v.word 1) ∧ (s.ownsShelf p (v.word 1) = true) ∧ (s.portRange p (v.quad 2) 512 = true) ∧
      ((v.quad 2).toNat % 64 = 0) ∧ (s.readable (bufPos (v.quad 2)) 512 = (s, true)) ∧
      (s.blockOk (s.readBuf (bufPos (v.quad 2)) 512) = true) ∧ (byteAt (s.readBuf (bufPos (v.quad 2)) 512) 12 = 1) ∧
      (p < 8)) ∧
    (∃ (s : State) (v : Service) (p : Nat), (s.serving 0x0601 = some v) ∧ (v.port = some p) ∧ (v.word 1 < 48) ∧
      (s.serviceIndex = v.word 1) ∧ (s.ownsShelf p (v.word 1) = true) ∧ (s.portRange p (v.quad 2) 512 = true) ∧
      ((v.quad 2).toNat % 64 = 0) ∧ ((s.readable (bufPos (v.quad 2)) 512).2 = false)) ∧
    (∃ (s : State) (v : Service) (p : Nat), (s.serving 0x0601 = some v) ∧ (v.port = some p) ∧ (v.word 1 < 48) ∧
      (s.serviceIndex = v.word 1) ∧ (s.ownsShelf p (v.word 1) = false)) ∧
    (∃ (s : State) (v : Service) (p : Nat), (s.serving 0x0602 = some v) ∧ (v.port = some p) ∧ (v.word 1 < 48) ∧
      (s.serviceIndex = v.word 1) ∧ (s.mayBook p (v.word 1) = true)) ∧
    (∃ (s : State) (v : Service) (p : Nat), (s.serving 0x0603 = some v) ∧ (v.port = some p) ∧ (v.word 1 < 48) ∧
      (s.serviceIndex = v.word 1) ∧ (s.ownsShelf p (v.word 1) = true) ∧ ((s.shelf (v.word 1)).state = .retired)) ∧
    (∃ (s : State) (v : Service) (p : Nat), (s.serving 0x0603 = some v) ∧ (v.port = some p) ∧ (v.word 1 < 48) ∧
      (s.serviceIndex = v.word 1) ∧ (s.ownsShelf p (v.word 1) = true) ∧ ((s.shelf (v.word 1)).state ≠ .retired)) :=
  ⟨⟨{ wSrv [0x0601, 0, 0, 0, 0, 0x8000] with extents := [{ first := 0, count := 64, owner := some 0, last := none }], mem := [(12, 1)], manage := { outing := { expertChoice := true } } },
     wSv [0x0601, 0, 0, 0, 0, 0x8000], 0, by decide +kernel⟩,
   ⟨{ wSrv [0x0601, 0, 0, 0, 0, 0x8000] with extents := [{ first := 0, count := 64, owner := some 0, last := none }], quarters := [(0, { stack := .selfRefresh })], mem := [(12, 1)], manage := { outing := { expertChoice := true } } },
     wSv [0x0601, 0, 0, 0, 0, 0x8000], 0, by decide +kernel⟩,
   ⟨wSrv [0x0601, 47], wSv [0x0601, 47], 0, by decide +kernel⟩,
   ⟨wSrv [0x0602, 0], wSv [0x0602, 0], 0, by decide +kernel⟩,
   ⟨{ wSrv [0x0603, 0] with shelves := [(0, { state := .retired })] }, wSv [0x0603, 0], 0, by decide +kernel⟩,
   ⟨wSrv [0x0603, 0], wSv [0x0603, 0], 0, by decide +kernel⟩⟩

/-- The hypotheses of the clauses of ShelfAndChainMessagesAreServed, in their order, part 2 of 2. -/
theorem witness_ShelfAndChainMessagesAreServed_2 :
    (∃ (s : State) (v : Service) (p : Nat), (s.serving 0x0701 = some v) ∧ (v.port = some p) ∧ (v.word 1 < 12) ∧
      (s.serviceIndex = v.word 1) ∧ (p ∈ s.chainPorts (v.word 1))) ∧
    (∃ (s : State) (v : Service) (p : Nat), (s.serving 0x0701 = some v) ∧ (v.port = some p) ∧ (v.word 1 < 12) ∧
      (s.serviceIndex = v.word 1) ∧ (p ∉ s.chainPorts (v.word 1))) ∧
    (∃ (s : State) (v : Service) (p : Nat), (s.serving 0x0601 = some v) ∧ (v.port = some p) ∧ (v.word 1 < 48) ∧
      (s.serviceIndex = v.word 1) ∧ (s.ownsShelf p (v.word 1) = true) ∧ (s.portRange p (v.quad 2) 512 = true) ∧
      ((v.quad 2).toNat % 64 = 0) ∧ (s.readable (bufPos (v.quad 2)) 512 = (s, true))) ∧
    (∃ (s : State) (p : Nat) (sh : Nat) (b : List Byte), (p < 8) ∧ (s.ownsShelf p sh = true) ∧
      (bitN (byteAt b 12) 1 = true)) ∧
    (∃ (s : State) (v : Service) (p : Nat), (s.serving 0x0602 = some v) ∧ (v.port = some p) ∧ (v.word 1 < 48) ∧
      (s.serviceIndex = v.word 1) ∧ (s.mayBook p (v.word 1) = false)) :=
  ⟨⟨wSrv [0x0701, 0], wSv [0x0701, 0], 0, by decide +kernel⟩,
   ⟨wSrv [0x0701, 11], wSv [0x0701, 11], 0, by decide +kernel⟩,
   ⟨{ wSrv [0x0601, 0, 0, 0, 0, 0x8000] with extents := [{ first := 0, count := 64, owner := some 0, last := none }], mem := [(12, 4)] },
     wSv [0x0601, 0, 0, 0, 0, 0x8000], 0, by decide +kernel⟩,
   ⟨wP wPort, 0, 0, List.replicate 12 0 ++ [2] ++ List.replicate 499 0, by decide +kernel⟩,
   ⟨{ wSrv [0x0602, 0] with ports := [(0, {})] }, wSv [0x0602, 0], 0, by decide +kernel⟩⟩

/-- The hypotheses of the clauses of AccumulatorAndExtentMessagesAreServed, in their order, part 1 of 2. -/
theorem witness_AccumulatorAndExtentMessagesAreServed_1 :
    (∃ (s : State) (t : State) (v : Service) (p : Nat), (s.serving 0x0801 = some v) ∧ (v.port = some p) ∧
      (v.accOk 1 = true) ∧ (s.readable (bufPos (v.quad 2)) (64 * v.word 1) = (t, true)) ∧
      (t.armRefusal p (bufPos (v.quad 2)) (v.word 1) = none) ∧ (v.word 6 = 0)) ∧
    (∃ (s : State) (v : Service) (p : Nat), (s.serving 0x0801 = some v) ∧ (v.port = some p) ∧ (v.accOk 1 = true) ∧
      ((s.readable (bufPos (v.quad 2)) (64 * v.word 1)).2 = false)) ∧
    (∃ (s : State) (t : State) (v : Service) (p : Nat) (ds : List AccDesc), (s.serving 0x0801 = some v) ∧
      (v.port = some p) ∧ (v.accOk 1 = true) ∧ (s.readable (bufPos (v.quad 2)) (64 * v.word 1) = (t, true)) ∧
      (t.armRefusal p (bufPos (v.quad 2)) (v.word 1) = none) ∧ (v.word 6 = 1) ∧
      (ds = (List.range (v.word 1)).map (fun i => t.accDesc (bufPos (v.quad 2) + 64 * i)))) ∧
    (∃ (s : State) (t : State) (v : Service) (p : Nat) (code : Nat) (i : Nat), (s.serving 0x0801 = some v) ∧
      (v.port = some p) ∧ (v.accOk 1 = true) ∧ (s.readable (bufPos (v.quad 2)) (64 * v.word 1) = (t, true)) ∧
      (t.armRefusal p (bufPos (v.quad 2)) (v.word 1) = some (code, i))) ∧
    (∃ (s : State) (v : Service) (p : Nat), (s.serving 0x0802 = some v) ∧ (v.port = some p) ∧ (v.accOk 0 = true) ∧
      (s.disarmRefusal p (bufPos (v.quad 2)) (v.word 1) = none) ∧
      (s.reach (bufQuarters (bufPos (v.quad 2)) (64 * v.word 1)) = (s, true))) ∧
    (∃ (s : State) (v : Service) (p : Nat) (code : Nat) (i : Nat), (s.serving 0x0802 = some v) ∧ (v.port = some p) ∧
      (v.accOk 0 = true) ∧ (s.disarmRefusal p (bufPos (v.quad 2)) (v.word 1) = some (code, i))) ∧
    (∃ (s : State) (v : Service) (p : Nat) (r : Nat × Nat), (s.serving 0x0901 = some v) ∧ (v.port = some p) ∧
      (v.word 1 ≤ 3) ∧ (1 ≤ v.word 2) ∧ (v.word 2 ≤ 4096) ∧ (v.word 3 = 1) ∧ (v.restZero 4 = true) ∧
      (s.contained p = false) ∧ (v.word 2 ≤ s.roomIn p (v.word 1)) ∧
      (s.pickRuns (v.word 1) (v.word 2) true false = some [r])) ∧
    (∃ (s : State) (v : Service) (p : Nat), (s.serving 0x0901 = some v) ∧ (v.port = some p) ∧ (v.word 1 ≤ 3) ∧
      (1 ≤ v.word 2) ∧ (v.word 2 ≤ 4096) ∧ (v.word 3 = 1) ∧ (v.restZero 4 = true) ∧ (s.contained p = true)) ∧
    (∃ (h : Nat) (r : Nat × Nat), (r.1 ≤ h) ∧ (h < r.1 + r.2) ∧ (h < 4 * extentsPerQuarter)) :=
  ⟨⟨{ wSrv [0x0801, 1, 0, 0, 0, 0x8000, 0] with extents := [{ first := 0, count := 64, owner := some 0, last := none }], mem := wDesc },
     { wSrv [0x0801, 1, 0, 0, 0, 0x8000, 0] with extents := [{ first := 0, count := 64, owner := some 0, last := none }], mem := wDesc },
     wSv [0x0801, 1, 0, 0, 0, 0x8000, 0], 0, by decide +kernel⟩,
   ⟨{ wSrv [0x0801, 1, 0, 0, 0, 0x8000, 0] with extents := [{ first := 0, count := 64, owner := some 0, last := none }], mem := wDesc, quarters := [(0, { stack := .selfRefresh })] },
     wSv [0x0801, 1, 0, 0, 0, 0x8000, 0], 0, by decide +kernel⟩,
   ⟨{ wSrv [0x0801, 1, 0, 0, 0, 0x8000, 1] with extents := [{ first := 0, count := 64, owner := some 0, last := none }], mem := wDesc },
     { wSrv [0x0801, 1, 0, 0, 0, 0x8000, 1] with extents := [{ first := 0, count := 64, owner := some 0, last := none }], mem := wDesc },
     wSv [0x0801, 1, 0, 0, 0, 0x8000, 1], 0,
     [State.accDesc { wSrv [0x0801, 1, 0, 0, 0, 0x8000, 1] with extents := [{ first := 0, count := 64, owner := some 0, last := none }], mem := wDesc } 0],
     by decide +kernel⟩,
   ⟨wSrv [0x0801, 1, 0, 0, 0, 0x8000, 1], wSrv [0x0801, 1, 0, 0, 0, 0x8000, 1], wSv [0x0801, 1, 0, 0, 0, 0x8000, 1],
     0, 3, 0, by decide +kernel⟩,
   ⟨{ wSrv [0x0802, 1, 0, 0, 0, 0x8000, 0] with extents := [{ first := 0, count := 64, owner := some 0, last := none }], accums := [{ desc := bufAddr 0, first := 1, unit := 1, port := 0, total := 1 }] },
     wSv [0x0802, 1, 0, 0, 0, 0x8000, 0], 0, by decide +kernel⟩,
   ⟨wSrv [0x0802, 1, 0, 0, 0, 0x8000, 0], wSv [0x0802, 1, 0, 0, 0, 0x8000, 0], 0, 3, 0, by decide +kernel⟩,
   ⟨wSrv [0x0901, 0, 64, 1], wSv [0x0901, 0, 64, 1], 0, (0, 64), by decide +kernel⟩,
   ⟨{ wSrv [0x0901, 3, 4096, 1] with deviceContain := some wCont }, wSv [0x0901, 3, 4096, 1], 0, by decide +kernel⟩,
   ⟨4 * extentsPerQuarter - 1, (4 * extentsPerQuarter - 2, 2), by decide +kernel⟩⟩

/-- The hypotheses of the clauses of AccumulatorAndExtentMessagesAreServed, in their order, part 2 of 2. -/
theorem witness_AccumulatorAndExtentMessagesAreServed_2 :
    (∃ (s : State) (v : Service) (p : Nat), (s.serving 0x0902 = some v) ∧ (v.port = some p) ∧ (v.word 2 < 0x40) ∧
      (1 ≤ v.word 3) ∧ (v.word 3 ≤ 4096) ∧ (v.restZero 4 = true) ∧
      ((∀ h ∈ List.range' (v.word 1 + v.word 2 * 65536) (v.word 3), s.ownsExtent p h = true ∧ s.extentBusy h = false)) ∧
      (s.contained p = false)) ∧
    (∃ (first : Nat) (count : Nat) (h : Nat), (first ≤ h) ∧ (h < first + count)) ∧
    (∃ (s : State) (v : Service) (p : Nat), (s.serving 0x0903 = some v) ∧ (v.port = some p) ∧ (v.word 1 ≤ 3) ∧
      (v.restZero 2 = true)) ∧
    (∃ (s : State) (v : Service) (p : Nat) (n : Nat) (qs : List Nat) (l : List (Nat × Nat)), (s.serving 0x0901 = some v) ∧
      (v.port = some p) ∧ (v.word 1 ≤ 3) ∧ (1 ≤ v.word 2) ∧ (v.word 2 ≤ 4096) ∧ (v.word 3 ≤ 7) ∧
      (v.restZero 4 = true) ∧ ((bitN (v.word 3) 2 = true → v.word 1 = 0 ∧ v.word 2 % 4 = 0)) ∧
      (s.contained p = false) ∧ (qs = (if bitN (v.word 3) 2 = true then [0, 1, 2, 3] else [v.word 1])) ∧
      (n = (if bitN (v.word 3) 2 = true then v.word 2 / 4 else v.word 2)) ∧ ((∀ q ∈ qs, n ≤ s.roomIn p q)) ∧
      ((s.pickAll n (bitN (v.word 3) 0) false qs 10 = .ok l ∨ (s.pickAll n (bitN (v.word 3) 0) false qs 10).toOption = none ∧ s.pickAll n (bitN (v.word 3) 0) true qs 10 = .ok l))) ∧
    (∃ (s : State) (v : Service) (p : Nat), (s.serving 0x0901 = some v) ∧ (v.port = some p) ∧ (v.word 1 ≤ 3) ∧
      (1 ≤ v.word 2) ∧ (v.word 2 ≤ 4096) ∧ (v.word 3 < 4) ∧ (v.restZero 4 = true) ∧ (s.contained p = false) ∧
      (s.roomIn p (v.word 1) < v.word 2)) ∧
    (∃ (s : State) (v : Service) (p : Nat), (s.serving 0x0901 = some v) ∧ (v.port = some p) ∧
      ((3 < v.word 1 ∨ v.word 2 = 0 ∨ 4096 < v.word 2 ∨ 7 < v.word 3 ∨ v.restZero 4 = false ∨ (bitN (v.word 3) 2 = true ∧ (v.word 1 ≠ 0 ∨ v.word 2 % 4 ≠ 0))))) ∧
    (∃ (s : State) (v : Service) (p : Nat) (h : Nat), (s.serving 0x0902 = some v) ∧ (v.port = some p) ∧
      (h ∈ List.range' (v.word 1 + v.word 2 * 65536) (v.word 3)) ∧ (s.ownsExtent p h = false)) ∧
    (∃ (s : State) (v : Service) (p : Nat), (s.serving 0x0902 = some v) ∧ (v.port = some p) ∧ (v.word 2 < 0x40) ∧
      (1 ≤ v.word 3) ∧ (v.word 3 ≤ 4096) ∧ (v.restZero 4 = true) ∧
      ((∀ h ∈ List.range' (v.word 1 + v.word 2 * 65536) (v.word 3), s.ownsExtent p h = true)) ∧ (s.contained p = true)) ∧
    (∃ (s : State) (v : Service) (p : Nat) (h : Nat), (s.serving 0x0902 = some v) ∧ (v.port = some p) ∧
      (v.word 2 < 0x40) ∧ (1 ≤ v.word 3) ∧ (v.word 3 ≤ 4096) ∧ (v.restZero 4 = true) ∧
      ((∀ h ∈ List.range' (v.word 1 + v.word 2 * 65536) (v.word 3), s.ownsExtent p h = true)) ∧
      (s.contained p = false) ∧ (h ∈ List.range' (v.word 1 + v.word 2 * 65536) (v.word 3)) ∧ (s.extentBusy h = true)) :=
  ⟨⟨{ wSrv [0x0902, 0, 0, 4] with extents := [{ first := 0, count := 64, owner := some 0, last := none }] },
     wSv [0x0902, 0, 0, 4], 0, by decide +kernel⟩,
   ⟨5, 3, 7, by decide +kernel⟩,
   ⟨wSrv [0x0903, 3], wSv [0x0903, 3], 0, by decide +kernel⟩,
   ⟨{ wSrv [0x0901, 0, 16, 4] with ports := [(0, { wPort with ap := { wAp with ext := [(0, 4), (1, 4), (2, 4), (3, 4)] } })] },
     wSv [0x0901, 0, 16, 4], 0, 4, [0, 1, 2, 3],
     [(0, 4), (extentsPerQuarter, 4), (2 * extentsPerQuarter, 4), (3 * extentsPerQuarter, 4)], by decide +kernel⟩,
   ⟨wSrv [0x0901, 0, 65, 3], wSv [0x0901, 0, 65, 3], 0, by decide +kernel⟩,
   ⟨wSrv [0x0901, 0, 6, 4], wSv [0x0901, 0, 6, 4], 0, by decide +kernel⟩,
   ⟨{ wSrv [0x0902, 63, 0, 2] with extents := [{ first := 0, count := 64, owner := some 0, last := none }] },
     wSv [0x0902, 63, 0, 2], 0, 64, by decide +kernel⟩,
   ⟨{ wSrv [0x0902, 0, 0, 4] with extents := [{ first := 0, count := 64, owner := some 0, last := none }], deviceContain := some wCont },
     wSv [0x0902, 0, 0, 4], 0, by decide +kernel⟩,
   ⟨{ wSrv [0x0902, 0, 0, 4] with extents := [{ first := 0, count := 64, owner := some 0, last := none }], trvs := [{ wTrv with addr := 0x8000000000000000 }] },
     wSv [0x0902, 0, 0, 4], 0, 0, by decide +kernel⟩⟩

/-- The hypotheses of the clauses of FieldBooksAreRead, in their order, part 1 of 2. -/
theorem witness_FieldBooksAreRead_1 :
    (∃ (b : FieldBook) (payload : List Nat), (b.words.length + payload.length + 1 ≤ 1024)) ∧
    (∃ (b : FieldBook) (payload : List Nat), (payload.length < 1024) ∧ (b.words.length ≤ 1024)) ∧
    (∃ (s : State) (p : Nat), (s.barOpen p = true)) ∧
    (∃ (s : State) (p : Nat), (s.reachable p = true) ∧ (s.recovering = true)) ∧
    (∃ (b : FieldBook), (b.left = 0) ∧ (b.words = [])) ∧
    (∃ (b : FieldBook) (w : FbWord) (rest : List FbWord), (b.left = 0) ∧ (b.words = w :: rest) ∧ (w.sop = true)) :=
  ⟨⟨{ words := List.replicate 1020 { data := 0, sop := true } }, [1, 2, 3], by decide +kernel⟩,
   ⟨{ words := List.replicate 1024 { data := 0, sop := true } }, [1, 2, 3], by decide +kernel⟩,
   ⟨wP wPort, 0, by decide +kernel⟩,
   ⟨{ wP wPort with mode := .recovery 1 }, 0, by decide +kernel⟩,
   ⟨{}, by decide +kernel⟩,
   ⟨{ words := [{ data := 0, sop := true }] }, { data := 0, sop := true }, [], by decide +kernel⟩⟩

/-- The hypotheses of the clauses of FieldBooksAreRead, in their order, part 2 of 2. -/
theorem witness_FieldBooksAreRead_2 :
    (∃ (b : FieldBook) (w : FbWord) (rest : List FbWord), (b.left ≠ 0) ∧ (b.stolen = false) ∧ (b.words = w :: rest)) ∧
    (∃ (b : FieldBook), (b.left ≠ 0) ∧ (b.stolen = true)) ∧
    (∃ (s : State), (s.mayAccess 48 = true) ∧ ((s.core 48).cur = 0)) ∧
    (∃ (s : State) (p : Nat) (v : BitVec 32), (s.barOpen p = true) ∧ (v.getLsbD 0 = true)) ∧
    (∃ (s : State) (v : BitVec 32), (s.mayAccess 48 = true) ∧ ((s.core 48).cur = 0) ∧ (v.getLsbD 0 = true)) ∧
    (∃ (s : State) (p : Nat), (s.barOpen p = true)) :=
  ⟨⟨{ words := [{ data := 0, sop := false }], left := 1 }, { data := 0, sop := false }, [], by decide +kernel⟩,
   ⟨{ left := 1, stolen := true }, by decide +kernel⟩,
   ⟨{ wP wPort with cores := [(48, wCore)] }, by decide +kernel⟩,
   ⟨wP wPort, 0, 1, by decide +kernel⟩,
   ⟨{ wP wPort with cores := [(48, wCore)] }, 1, by decide +kernel⟩,
   ⟨wP wPort, 0, by decide +kernel⟩⟩

/-- The hypotheses of the clauses of MetersCount, in their order. -/
theorem witness_MetersCount :
    (∃ (s : State) (s1 : State) (n : Nat), (s.railsValid = true) ∧ (s.mon.live = true) ∧ (s.mon.rebase = true) ∧
      (s1 = { s with taps := Tab.mapVals s.taps fun t => t.run n })) ∧
    (∃ (i : Nat), (i < 16)) ∧
    (∃ (s : State) (s1 : State) (n : Nat), (s.railsValid = true) ∧ (s.mon.live = true) ∧ (s.mon.rebase = false) ∧
      (s1 = { s with taps := Tab.mapVals s.taps fun t => t.run n })) ∧
    (∃ (s : State), (s.railsValid = false)) ∧
    (∃ (s : State) (s1 : State) (n : Nat), (s.railsValid = true) ∧ (s.mon.live = true) ∧ (s.mon.rebase = true) ∧
      (s1 = { s with taps := Tab.mapVals s.taps fun t => t.run n })) ∧
    (∃ (s : State), (s.mon.live = true) ∧ ((∀ sh, s.mon.pgHigh.get sh 0 = 0))) ∧
    (∃ (s : State) (c : Nat) (x : S0Input), (c < 12) ∧ (s.mon.live = true) ∧ (s.mon.s0.get c {} = x) ∧ (x.high = 9) ∧
      (x.good = true)) ∧
    (∃ (s : State) (c : Nat), (c < 12) ∧ (s.mon.live = true) ∧ ((s.mon.s0.get c {}).high = 0) ∧
      ((s.mon.s0.get c {}).stuck = false)) ∧
    (∃ (s : State), (s.mon.live = true) ∧ (0 < s.mon.pulses)) :=
  ⟨⟨{ taps := [(1, { dwords := 3 })] }, { taps := [(1, ({ dwords := 3 } : PayloadTap).run 10)] }, 10,
     by decide +kernel⟩,
   ⟨15, by decide +kernel⟩,
   ⟨{ mon := { rebase := false } }, { mon := { rebase := false } }, 10, by decide +kernel⟩,
   ⟨{ railsValid := false }, by decide +kernel⟩,
   ⟨{ taps := [(1, { dwords := 40 })] }, { taps := [(1, ({ dwords := 40 } : PayloadTap).run 1)] }, 1,
     by decide +kernel⟩,
   ⟨{}, by decide +kernel, fun _ => rfl⟩,
   ⟨{ mon := { s0 := [(11, { high := 9, good := true })] } }, 11, { high := 9, good := true }, by decide +kernel⟩,
   ⟨{}, 11, by decide +kernel⟩,
   ⟨{ mon := { pulses := 1 } }, by decide +kernel⟩⟩

/-- The hypotheses of the clauses of ReadingsAndCheckpointsAreTaken, in their order, part 1 of 3. -/
theorem witness_ReadingsAndCheckpointsAreTaken_1 :
    (∃ (s : State), (s.mon.live = true) ∧ ((s.mailbox 162).full = true) ∧
      ((s.mailbox 162).words.get 0 0 = 0x0B01#16) ∧ ((s.mailbox 162).len = 1) ∧ (s.mon.lastRequest = none) ∧
      (s.mon.uptimeMs + 1000 ≤ s.mon.periodicAt)) ∧
    (∃ (s : State) (at_ : Nat), (s.mon.live = true) ∧ ((s.mailbox 162).full = true) ∧
      ((s.mailbox 162).words.get 0 0 = 0x0B01#16) ∧ ((s.mailbox 162).len = 1) ∧ (s.mon.lastRequest = some at_) ∧
      (s.mon.uptimeMs < at_ + 1000)) ∧
    (∃ (s : State), (s.mon.live = true) ∧ ((s.mailbox 162).full = true) ∧
      ((s.mailbox 162).words.get 0 0 = 0x0B01#16) ∧ ((s.mailbox 162).len = 1) ∧
      (s.mon.periodicAt < s.mon.uptimeMs + 1000)) ∧
    (∃ (s : State), (s.mon.live = true) ∧ (s.mon.periodicAt ≤ s.mon.uptimeMs)) ∧
    (∃ (s : State), (s.mon.uptimeMs < s.mon.periodicAt)) ∧
    (∃ (s : State), (s.mon.live = true) ∧ ((s.mailbox 163).full = false) ∧ (s.mode ≠ .ready) ∧ (s.mon.sending ≠ [])) ∧
    (∃ (s : State) (r : Reading) (rest : List Reading), (s.mon.sending = r :: rest) ∧ (s.mon.segment < 15)) ∧
    (∃ (s : State), (s.mode = .ready)) :=
  ⟨⟨{ mailboxes := [(162, { full := true, len := 1, words := [(0, 0x0B01)] })] }, by decide +kernel⟩,
   ⟨{ mailboxes := [(162, { full := true, len := 1, words := [(0, 0x0B01)] })], mon := { lastRequest := some 5, uptimeMs := 1004 } },
     5, by decide +kernel⟩,
   ⟨{ wM 162 { full := true, len := 1, words := [(0, 0x0B01)] } with mon := { period := 1, uptimeMs := 500 } },
     by decide +kernel⟩,
   ⟨{ mon := { period := 1, uptimeMs := 5000 } }, by decide +kernel⟩,
   ⟨{ mon := { uptimeMs := 5, lastPeriodic := 4 } }, by decide +kernel⟩,
   ⟨{ mon := { sending := [wRead] } }, by decide +kernel⟩,
   ⟨{ mon := { sending := [wRead], segment := 14 } }, wRead, [], by decide +kernel⟩,
   ⟨wP wPort, by decide +kernel⟩⟩

/-- The hypotheses of the clauses of ReadingsAndCheckpointsAreTaken, in their order, part 2 of 3. -/
theorem witness_ReadingsAndCheckpointsAreTaken_2 :
    (∃ (s : State), (s.mon.live = true)) ∧
    (∃ (s : State), (s.mon.live = true)) ∧
    (∃ (m : Monument), ((m.nextSlot % 64 ≠ 0 ∨ m.sectorFull m.nextSlot = false))) ∧
    (∃ (m : Monument) (kind : Nat), (m.nextSlot % 64 = 0) ∧ (m.sectorFull m.nextSlot = true) ∧
      ((m.takeKind kind).othersValid m.nextSlot = false)) ∧
    (∃ (m : Monument) (kind : Nat), (m.nextSlot % 64 = 0) ∧ (m.sectorFull m.nextSlot = true) ∧
      ((m.takeKind kind).othersValid m.nextSlot = true)) ∧
    (∃ (s : State) (c : Checkpoint), (s.mon.newest = some c)) ∧
    (∃ (s : State), (s.mon.newest = none)) ∧
    (∃ (s : State), (s.mon.powered = true)) :=
  ⟨⟨{}, by decide +kernel⟩,
   ⟨{}, by decide +kernel⟩,
   ⟨{}, by decide +kernel⟩,
   ⟨{ nextSlot := 64, checkpoints := [(64, { reading := wRead, tamper := false })] }, 1, by decide +kernel⟩,
   ⟨{ nextSlot := 0, checkpoints := [(0, wCkpt), (64, wCkpt), (128, wCkpt), (192, wCkpt)] }, 4, by decide +kernel,
     by decide +kernel,
     (by simp [Monument.othersValid, Monument.takeKind, Monument.take, wCkpt_valid, List.range, List.range.loop])⟩,
   ⟨{ mon := { checkpoints := [(0, wCkpt)] } }, wCkpt, (by simp [Monument.newest, wCkpt_valid])⟩,
   ⟨{}, by decide +kernel⟩,
   ⟨{}, by decide +kernel⟩⟩

/-- The hypotheses of the clauses of ReadingsAndCheckpointsAreTaken, in their order, part 3 of 3. -/
theorem witness_ReadingsAndCheckpointsAreTaken_3 :
    (∃ (s : State), (s.mon.live = true)) ∧
    (∃ (s : State), (s.mon.live = true) ∧ (s.mon.tamper = false)) ∧
    (∃ (s : State), (s.mon.tamper = true)) ∧
    (∃ (s : State), (s.mon.crystal = false)) ∧
    (∃ (m : Monument), (m.isSealed = true) ∧ (m.log.length < m.logCap)) ∧
    (∃ (m : Monument), (m.isSealed = true) ∧ (m.logCap ≤ m.log.length)) :=
  ⟨⟨{}, by decide +kernel⟩,
   ⟨{}, by decide +kernel⟩,
   ⟨{ mon := { tamper := true } }, by decide +kernel⟩,
   ⟨{ mon := { crystal := false } }, by decide +kernel⟩,
   ⟨{ isSealed := true }, by decide +kernel⟩,
   ⟨{ isSealed := true, logCap := 0 }, by decide +kernel⟩⟩

/-- The hypotheses of the clauses of VerificationPortAnswers, in their order, part 1 of 3. -/
theorem witness_VerificationPortAnswers_1 :
    (∃ (s : State), (s.mon.listens = true) ∧ (s.mon.isSealed = true)) ∧
    (∃ (s : State) (r : Reading), (s.mon.listens = true) ∧ (s.mon.last = some r)) ∧
    (∃ (s : State), (s.mon.listens = true) ∧ (s.mon.last = none)) ∧
    (∃ (s : State), (s.mon.listens = true)) ∧
    (∃ (s : State), (s.mon.listens = true)) ∧
    (∃ (s : State) (i : Nat) (r : LogRec), (s.mon.listens = true) ∧ (s.mon.log[i]? = some r)) ∧
    (∃ (s : State), (s.mon.listens = true)) ∧
    (∃ (s : State) (k : Nat), (s.mon.listens = true) ∧ (s.mon.isSealed = false) ∧ (1 ≤ k) ∧ (k ≤ 3600)) :=
  ⟨⟨{ mon := { isSealed := true } }, by decide +kernel⟩,
   ⟨{ mon := { last := some wRead } }, wRead, by decide +kernel⟩,
   ⟨{}, by decide +kernel⟩,
   ⟨{}, by decide +kernel⟩,
   ⟨{}, by decide +kernel⟩,
   ⟨{ mon := { log := [{ powerups := 1, uptime := 2, kind := 3, item := 0, old := [], new := [], chain := [] }] } },
     0, { powerups := 1, uptime := 2, kind := 3, item := 0, old := [], new := [], chain := [] }, by decide +kernel⟩,
   ⟨{}, by decide +kernel⟩,
   ⟨{}, 3600, by decide +kernel⟩⟩

/-- The hypotheses of the clauses of VerificationPortAnswers, in their order, part 2 of 3. -/
theorem witness_VerificationPortAnswers_2 :
    (∃ (s : State) (k : Nat), (s.mon.listens = true) ∧ (s.mon.isSealed = true) ∧ (1 ≤ k) ∧ (k ≤ 3600)) ∧
    (∃ (s : State) (k : Nat), (s.mon.listens = true) ∧ (s.mon.isSealed = true) ∧ (s.mon.flashFault = false) ∧
      (s.mon.log.length < s.mon.logCap) ∧ (1 ≤ k) ∧ (k ≤ 3600)) ∧
    (∃ (s : State) (k : Nat), (s.mon.listens = true) ∧ (s.mon.isSealed = true) ∧ (s.mon.flashFault = false) ∧
      (s.mon.log.length < s.mon.logCap) ∧ (1 ≤ k) ∧ (k ≤ 3600)) ∧
    (∃ (s : State) (k : Nat), (s.mon.listens = true) ∧ ((k = 0 ∨ 3600 < k))) ∧
    (∃ (s : State) (t : List Byte), (s.mon.listens = true) ∧ (s.mon.isSealed = false) ∧ (t.length = 16) ∧
      ((∀ c ∈ t, 0x20 ≤ c.toNat ∧ c.toNat < 0x7F))) ∧
    (∃ (s : State) (n : Nat) (k : Nat), (s.mon.listens = true) ∧ (s.mon.isSealed = false) ∧ (0x10 ≤ n) ∧ (n < 0x1C) ∧
      (1 ≤ k) ∧ (k ≤ 100000)) ∧
    (∃ (s : State), (s.mon.listens = true)) ∧
    (∃ (s : State) (i : Nat), (s.mon.listens = true) ∧ (16 ≤ i)) :=
  ⟨⟨{ mon := { isSealed := true } }, 1, by decide +kernel⟩,
   ⟨{ mon := { isSealed := true } }, 3600, by decide +kernel⟩,
   ⟨{ mon := { isSealed := true } }, 1, by decide +kernel⟩,
   ⟨{}, 3601, by decide +kernel⟩,
   ⟨{}, List.replicate 16 0x20, by decide +kernel⟩,
   ⟨{}, 0x1B, 100000, by decide +kernel⟩,
   ⟨{}, by decide +kernel⟩,
   ⟨{}, 16, by decide +kernel⟩⟩

/-- The hypotheses of the clauses of VerificationPortAnswers, in their order, part 3 of 3. -/
theorem witness_VerificationPortAnswers_3 :
    (∃ (s : State) (i : Nat), (s.mon.listens = true) ∧ (i < 16)) ∧
    (∃ (s : State), (s.mon.listens = true) ∧ (s.mon.tamper = true) ∧ (s.mon.isSealed = false)) ∧
    (∃ (s : State), (s.mon.listens = true) ∧ (s.mon.tamper = true) ∧ (s.mon.isSealed = true) ∧
      (s.mon.flashFault = false) ∧ (s.mon.log.length < s.mon.logCap)) ∧
    (∃ (s : State), (s.mon.listens = false)) ∧
    (∃ (s : State), (s.mon.listens = true) ∧ (s.mon.isSealed = false) ∧ (1 ≤ s.mon.logCap)) ∧
    (∃ (s : State), (s.mon.listens = true) ∧ (s.mon.isSealed = true)) ∧
    (∃ (s : State), (s.mon.listens = true) ∧ (s.mon.isSealed = false)) :=
  ⟨⟨{}, 15, by decide +kernel⟩,
   ⟨{ mon := { tamper := true } }, by decide +kernel⟩,
   ⟨{ mon := { isSealed := true, tamper := true } }, by decide +kernel⟩,
   ⟨{ mon := { uartUntil := 5 } }, by decide +kernel⟩,
   ⟨{}, by decide +kernel⟩,
   ⟨{ mon := { isSealed := true } }, by decide +kernel⟩,
   ⟨{}, by decide +kernel⟩⟩

/-- The hypotheses of the clauses of CoreInstructionsRunOrRaise, in their order, part 1 of 3. -/
theorem witness_CoreInstructionsRunOrRaise_1 :
    (∃ (s : State) (c : Instr) (k : Nat) (fm : Form) (f : Core → Try Core) (x : Core) (y : Core), (seharCommand c = some (k, fm, f)) ∧
      (Issues s k fm x) ∧ (f x = .ok y) ∧ (fm.parity x y = none)) ∧
    (∃ (s : State) (c : Instr) (k : Nat) (fm : Form) (f : Core → Try Core) (x : Core) (y : Core) (e : Exc), (seharCommand c = some (k, fm, f)) ∧
      (Issues s k fm x) ∧ (f x = .ok y) ∧ (fm.parity x y = some e)) ∧
    (∃ (s : State) (c : Instr) (k : Nat) (fm : Form) (f : Core → Try Core) (x : Core) (e : Exc), (seharCommand c = some (k, fm, f)) ∧
      (Issues s k fm x) ∧ (f x = .error e)) ∧
    (∃ (s : State) (k : Nat) (x : Core) (d : BitVec 6) (n : BitVec 6), (Issues s k shortForm x) ∧ (x.dParity = []) ∧
      (x.mayReach (x.regAddr d.toNat) = true) ∧ (x.mayReach (x.regAddr n.toNat) = true)) ∧
    (∃ (s : State) (k : Nat) (x : Core) (d : BitVec 6) (a : BitVec 6) (b : BitVec 6), (Issues s k longForm x) ∧
      (x.dParity = []) ∧ (x.mayReach (x.regAddr d.toNat) = true) ∧ (x.mayReach (x.regAddr a.toNat) = true) ∧
      (x.mayReach (x.regAddr b.toNat) = true)) ∧
    (∃ (s : State) (k : Nat) (x : Core) (d : BitVec 6) (a : BitVec 6) (b : BitVec 6), (Issues s k (longCost 2) x) ∧
      (x.dParity = []) ∧ (x.mayReach (x.regAddr d.toNat) = true) ∧ (x.mayReach (x.regAddr a.toNat) = true) ∧
      (x.mayReach (x.regAddr b.toNat) = true)) ∧
    (∃ (s : State) (k : Nat) (x : Core) (d : BitVec 6), (Issues s k longForm x) ∧ (x.dParity = []) ∧
      (x.mayReach (x.regAddr d.toNat) = true)) ∧
    (∃ (s : State) (k : Nat) (x : Core) (d : BitVec 6), (Issues s k longForm x) ∧ (x.dParity = []) ∧
      (x.mayReach (x.regAddr d.toNat) = true)) :=
  ⟨⟨wK wCore, .sAdd 0 1 2 3, 0, wFm (.sAdd 0 1 2 3), wF (.sAdd 0 1 2 3), wX wCore, wY (.sAdd 0 1 2 3) (wX wCore), rfl,
     ⟨by decide +kernel, by decide +kernel, by decide +kernel, rfl, by decide +kernel, by decide +kernel, by decide +kernel, by decide +kernel⟩,
     rfl, by decide +kernel⟩,
   ⟨wK ({ inReset := false, dParity := [2] } : Core), .sAdd 0 1 2 3, 0, wFm (.sAdd 0 1 2 3), wF (.sAdd 0 1 2 3),
     wX ({ inReset := false, dParity := [2] } : Core),
     wY (.sAdd 0 1 2 3) (wX ({ inReset := false, dParity := [2] } : Core)),
     { cause := 0x0B, detail := 1, eaddr := 2 }, rfl,
     ⟨by decide +kernel, by decide +kernel, by decide +kernel, rfl, by decide +kernel, by decide +kernel, by decide +kernel, by decide +kernel⟩,
     rfl, by decide +kernel⟩,
   ⟨wK (wReg [0, 0, 0xA]), .sDadd 0 1 2 3, 0, wFm (.sDadd 0 1 2 3), wF (.sDadd 0 1 2 3), wX (wReg [0, 0, 0xA]),
     wExc (.sDadd 0 1 2 3) (wX (wReg [0, 0, 0xA])), rfl,
     ⟨by decide +kernel, by decide +kernel, by decide +kernel, rfl, by decide +kernel, by decide +kernel, by decide +kernel, by decide +kernel⟩,
     rfl⟩,
   ⟨wK wCore, 0, wX wCore, 1, 2,
     ⟨by decide +kernel, by decide +kernel, by decide +kernel, rfl, by decide +kernel, by decide +kernel, by decide +kernel, by decide +kernel⟩,
     by decide +kernel⟩,
   ⟨wK wCore, 0, wX wCore, 1, 2, 3,
     ⟨by decide +kernel, by decide +kernel, by decide +kernel, rfl, by decide +kernel, by decide +kernel, by decide +kernel, by decide +kernel⟩,
     by decide +kernel⟩,
   ⟨wK wCore, 0, wX wCore, 1, 2, 3,
     ⟨by decide +kernel, by decide +kernel, by decide +kernel, rfl, by decide +kernel, by decide +kernel, by decide +kernel, by decide +kernel⟩,
     by decide +kernel⟩,
   ⟨wK wCore, 0, wX wCore, 1,
     ⟨by decide +kernel, by decide +kernel, by decide +kernel, rfl, by decide +kernel, by decide +kernel, by decide +kernel, by decide +kernel⟩,
     by decide +kernel⟩,
   ⟨wK wCore, 0, wX wCore, 1,
     ⟨by decide +kernel, by decide +kernel, by decide +kernel, rfl, by decide +kernel, by decide +kernel, by decide +kernel, by decide +kernel⟩,
     by decide +kernel⟩⟩

/-- The hypotheses of the clauses of CoreInstructionsRunOrRaise, in their order, part 2 of 3. -/
theorem witness_CoreInstructionsRunOrRaise_2 :
    (∃ (s : State) (k : Nat) (x : Core), (Issues s k { privileged := true } x) ∧ (x.dParity = [])) ∧
    (∃ (s : State) (k : Nat) (x : Core) (port : BitVec 12), (Issues s k { io := some fun _ => port.toNat } x) ∧
      (x.dParity = [])) ∧
    (∃ (s : State) (k : Nat) (x : Core) (n : BitVec 6), (Issues s k { io := some (Core.portOf n) } x) ∧
      (x.dParity = [])) ∧
    (∃ (s : State) (c : Instr) (k : Nat) (fm : Form) (f : Core → Try Core) (x : Core), (seharCommand c = some (k, fm, f)) ∧
      (Issues s k fm x) ∧ (x.here.s = true) ∧ (x.dParity = []) ∧ (decimalCommand c = false)) ∧
    (∃ (w1 : Word), (w1.msb = false)) ∧
    (∃ (x : Core) (y : Core), (y.here.delay = none) ∧ (y.here.rpt = none) ∧ (y.here.wdog = 0) ∧ (y.cur = x.cur)) ∧
    (∃ (x : Core) (n : BitVec 6), (x.mayReach (x.regAddr n.toNat) = true)) ∧
    (∃ (x : Core) (n : BitVec 6), (x.dParity = []) ∧ (x.mayReach (x.regAddr n.toNat) = true) ∧
      (x.mayReach (x.reg n.toNat) = true)) :=
  ⟨⟨wK wCore, 0, wX wCore,
     ⟨by decide +kernel, by decide +kernel, by decide +kernel, rfl, by decide +kernel, by decide +kernel, by decide +kernel, by decide +kernel⟩,
     by decide +kernel⟩,
   ⟨wK wCore, 0, wX wCore, 0x40,
     ⟨by decide +kernel, by decide +kernel, by decide +kernel, rfl, by decide +kernel, by decide +kernel, by decide +kernel, by decide +kernel⟩,
     by decide +kernel⟩,
   ⟨wK wCore, 0, wX wCore, 2,
     ⟨by decide +kernel, by decide +kernel, by decide +kernel, rfl, by decide +kernel, by decide +kernel, by decide +kernel, by decide +kernel⟩,
     by decide +kernel⟩,
   ⟨wK wCore, .sAdd 0 1 2 3, 0, wFm (.sAdd 0 1 2 3), wF (.sAdd 0 1 2 3), wX wCore, rfl,
     ⟨by decide +kernel, by decide +kernel, by decide +kernel, rfl, by decide +kernel, by decide +kernel, by decide +kernel, by decide +kernel⟩,
     by decide +kernel⟩,
   ⟨0, by decide +kernel⟩,
   ⟨wX wCore, wX wCore, by decide +kernel⟩,
   ⟨wCore, 2, by decide +kernel⟩,
   ⟨wCore, 2, by decide +kernel⟩⟩

/-- The hypotheses of the clauses of CoreInstructionsRunOrRaise, in their order, part 3 of 3. -/
theorem witness_CoreInstructionsRunOrRaise_3 :
    (∃ (x : Core) (n : BitVec 6), (x.dParity = []) ∧ (x.mayReach (x.regAddr n.toNat) = true) ∧
      (x.mayReach (x.reg n.toNat - 1) = true)) ∧
    (∃ (x : Core) (sp : BitVec 8), (x.mayReach (x.regAddr sp.toNat) = false)) ∧
    (∃ (x : Core), (x.here.s = false)) ∧
    (∃ (x : Core) (n : BitVec 6), (x.parityHit = none) ∧ (x.mayReach (x.regAddr n.toNat) = true) ∧
      ((x.regAddr n.toNat).toNat ∈ x.dParity)) ∧
    (∃ (x : Core) (y : Core) (a : Word), (x.iParity = []) ∧ (y.parityHit = some a)) ∧
    (∃ (x : Core), (x.here.s = true) ∧ (x.dParity = [])) ∧
    (∃ (x : Core), (x.here.s = true) ∧ (x.dParity = [])) :=
  ⟨⟨wCore, 2, by decide +kernel⟩,
   ⟨wCtx { wUser with wp := 0x2000 }, 5, by decide +kernel⟩,
   ⟨wCtx wUser, by decide +kernel⟩,
   ⟨({ inReset := false, dParity := [2] } : Core), 2, by decide +kernel⟩,
   ⟨wCore, { wCore with parityHit := some 7 }, 7, by decide +kernel⟩,
   ⟨wCore, by decide +kernel⟩,
   ⟨wCore, by decide +kernel⟩⟩

/-- The hypotheses of the clauses of DecimalsFollowTheRules, in their order, part 1 of 2. -/
theorem witness_DecimalsFollowTheRules_1 :
    (∃ n, (n < 10000)) ∧
    (∃ (a : Word) (b : Word), (isDecimal a = true) ∧ (isDecimal b = true)) ∧
    (∃ (a : Word) (b : Word), (isDecimal a = true) ∧ (isDecimal b = true)) ∧
    (∃ (a : Word) (b : Word), (isDecimal a = true) ∧ (isDecimal b = true)) ∧
    (∃ (a : Word) (b : Word), (isDecimal a = true) ∧ (isDecimal b = true)) ∧
    (∃ (a : Word) (b : Word), ((isDecimal a = false ∨ isDecimal b = false))) ∧
    (∃ (a : Word) (b : Word), (isDecimal a = true) ∧ (isDecimal b = true)) ∧
    (∃ (d : Word) (a : Word) (t : Word), (isDecimal d = true) ∧ (isDecimal a = true) ∧ (digit t 0 < 10) ∧
      (digit t 3 < 10)) :=
  ⟨⟨9999, by decide +kernel⟩,
   ⟨0x9999, 0x9999, by decide +kernel⟩,
   ⟨0x9999, 0x9999, by decide +kernel⟩,
   ⟨0, 0x9999, by decide +kernel⟩,
   ⟨0, 0x9999, by decide +kernel⟩,
   ⟨0xA, 0, by decide +kernel⟩,
   ⟨0x9999, 0x9999, by decide +kernel⟩,
   ⟨0x9999, 0x9999, 0x9009, by decide +kernel⟩⟩

/-- The hypotheses of the clauses of DecimalsFollowTheRules, in their order, part 2 of 2. -/
theorem witness_DecimalsFollowTheRules_2 :
    (∃ (d : Word) (a : Word) (t : Word), ((isDecimal d = false ∨ isDecimal a = false ∨ 10 ≤ digit t 0 ∨ 10 ≤ digit t 3))) ∧
    (∃ (a : Word), (isDecimal a = true)) ∧
    (∃ (a : Word), (isDecimal a = false)) ∧
    (∃ (s : State) (k : Nat) (x : Core) (d : BitVec 6) (a : BitVec 6) (b : BitVec 6), (Issues s k longForm x) ∧
      (x.dParity = []) ∧ (x.mayReach (x.regAddr d.toNat) = true) ∧ (x.mayReach (x.regAddr a.toNat) = true) ∧
      (x.mayReach (x.regAddr b.toNat) = true) ∧ (isDecimal (x.reg a.toNat) = true) ∧
      (isDecimal (x.reg b.toNat) = true)) ∧
    (∃ (s : State) (k : Nat) (x : Core) (d : BitVec 6) (a : BitVec 6) (b : BitVec 6), (Issues s k longForm x) ∧
      (x.dParity = []) ∧ (x.mayReach (x.regAddr d.toNat) = true) ∧ (x.mayReach (x.regAddr a.toNat) = true) ∧
      (x.mayReach (x.regAddr b.toNat) = true) ∧ (isDecimal (x.reg a.toNat) = false)) ∧
    (∃ (s : State) (k : Nat) (x : Core) (d : BitVec 6) (a : BitVec 6), (Issues s k longForm x) ∧ (x.dParity = []) ∧
      (x.mayReach (x.regAddr d.toNat) = true) ∧ (x.mayReach (x.regAddr a.toNat) = true)) ∧
    (∃ (s : State) (k : Nat) (x : Core) (d : BitVec 6) (a : BitVec 6) (n : BitVec 6), (Issues s k (longCost 4) x) ∧
      (x.dParity = []) ∧ (x.mayReach (x.regAddr d.toNat) = true) ∧ (x.mayReach (x.regAddr a.toNat) = true) ∧
      (x.mayReach (x.regAddr n.toNat) = true) ∧ (isDecimal (x.reg d.toNat) = true) ∧
      (isDecimal (x.reg a.toNat) = true) ∧ (digit (x.reg n.toNat) 0 < 10) ∧ (digit (x.reg n.toNat) 3 < 10)) ∧
    (∃ (s : State) (k : Nat) (x : Core) (d : BitVec 6) (a : BitVec 6) (n : BitVec 6), (Issues s k (longCost 6) x) ∧
      (x.dParity = []) ∧ (x.mayReach (x.regAddr d.toNat) = true) ∧ (x.mayReach (x.regAddr a.toNat) = true) ∧
      (x.mayReach (x.regAddr n.toNat) = true)) :=
  ⟨⟨0, 0, 0xA, by decide +kernel⟩,
   ⟨0x9999, by decide +kernel⟩,
   ⟨0xA, by decide +kernel⟩,
   ⟨wK wCore, 0, wX wCore, 1, 2, 3,
     ⟨by decide +kernel, by decide +kernel, by decide +kernel, rfl, by decide +kernel, by decide +kernel, by decide +kernel, by decide +kernel⟩,
     by decide +kernel⟩,
   ⟨wK (wReg [0, 0, 0xA]), 0, wX (wReg [0, 0, 0xA]), 1, 2, 3,
     ⟨by decide +kernel, by decide +kernel, by decide +kernel, rfl, by decide +kernel, by decide +kernel, by decide +kernel, by decide +kernel⟩,
     by decide +kernel⟩,
   ⟨wK wCore, 0, wX wCore, 1, 2,
     ⟨by decide +kernel, by decide +kernel, by decide +kernel, rfl, by decide +kernel, by decide +kernel, by decide +kernel, by decide +kernel⟩,
     by decide +kernel⟩,
   ⟨wK wCore, 0, wX wCore, 1, 2, 3,
     ⟨by decide +kernel, by decide +kernel, by decide +kernel, rfl, by decide +kernel, by decide +kernel, by decide +kernel, by decide +kernel⟩,
     by decide +kernel⟩,
   ⟨wK wCore, 0, wX wCore, 1, 2, 3,
     ⟨by decide +kernel, by decide +kernel, by decide +kernel, rfl, by decide +kernel, by decide +kernel, by decide +kernel, by decide +kernel⟩,
     by decide +kernel⟩⟩

/-- The hypotheses of the clauses of BranchesAndRepeatsRun, in their order, part 1 of 2. -/
theorem witness_BranchesAndRepeatsRun_1 :
    (∃ (s : State) (k : Nat) (x : Core), (Issues s k { len := 1, slotOk := false, repeatable := false } x)) ∧
    (∃ (s : State) (k : Nat) (x : Core), (Issues s k { len := 2, slotOk := false, repeatable := false } x)) ∧
    (∃ (x : Core) (d : Delay), (x.here.delay = some d) ∧ (d.mispredict = false) ∧ (d.linkReg = false)) ∧
    (∃ (x : Core) (d : Delay), (x.here.delay = some d)) ∧
    (∃ (x : Core), (x.returns = [])) ∧
    (∃ (x : Core) (t : Word), (x.returns.head? = some t)) :=
  ⟨⟨wK wCore, 0, wX wCore,
     ⟨by decide +kernel, by decide +kernel, by decide +kernel, rfl, by decide +kernel, by decide +kernel, by decide +kernel, by decide +kernel⟩⟩,
   ⟨wK wCore, 0, wX wCore,
     ⟨by decide +kernel, by decide +kernel, by decide +kernel, rfl, by decide +kernel, by decide +kernel, by decide +kernel, by decide +kernel⟩⟩,
   ⟨(wCtx { pc := 5, delay := some { branch := 4, target := 9, taken := true, annulled := false, linkReg := false, mispredict := false } }),
     { branch := 4, target := 9, taken := true, annulled := false, linkReg := false, mispredict := false },
     by decide +kernel⟩,
   ⟨(wCtx { pc := 5, delay := some { branch := 4, target := 9, taken := true, annulled := false, linkReg := true, mispredict := true } }),
     { branch := 4, target := 9, taken := true, annulled := false, linkReg := true, mispredict := true },
     by decide +kernel⟩,
   ⟨wCore, by decide +kernel⟩,
   ⟨{ returns := [5] }, 5, by decide +kernel⟩⟩

/-- The hypotheses of the clauses of BranchesAndRepeatsRun, in their order, part 2 of 2. -/
theorem witness_BranchesAndRepeatsRun_2 :
    (∃ (x : Core) (d : Delay), (x.here.delay = some d) ∧ (d.mispredict = false) ∧ (d.linkReg = true)) ∧
    (∃ (s : State) (k : Nat) (x : Core) (imm : Word), (imm ≠ 0) ∧ (imm.toNat ≤ 4096) ∧
      (Issues s k { slotOk := false, repeatable := false } x)) ∧
    (∃ (s : State) (k : Nat) (x : Core) (n : BitVec 6), (Issues s k { slotOk := false, repeatable := false } x) ∧
      (x.dParity = []) ∧ (x.mayReach (x.regAddr n.toNat) = true) ∧ (x.reg n.toNat ≠ 0) ∧
      ((x.reg n.toNat).toNat ≤ 4096)) ∧
    (∃ (x : Core) (n : Nat), (x.here.delay = none) ∧ (x.here.rpt = some n) ∧ (1 < n)) ∧
    (∃ (x : Core) (n : Nat), (x.here.delay = none) ∧ (x.here.rpt = some n) ∧ (n ≤ 1)) ∧
    (∃ (c : BitVec 4), (c.toNat = 1 ∨ c.toNat = 3 ∨ c.toNat = 5 ∨ c.toNat = 7 ∨ c.toNat = 9 ∨ c.toNat = 11 ∨ c.toNat = 13)) :=
  ⟨⟨(wCtx { pc := 5, delay := some { branch := 4, target := 9, taken := true, annulled := false, linkReg := true, mispredict := false } }),
     { branch := 4, target := 9, taken := true, annulled := false, linkReg := true, mispredict := false },
     by decide +kernel⟩,
   ⟨wK wCore, 0, wX wCore, 4096, by decide +kernel, by decide +kernel,
     ⟨by decide +kernel, by decide +kernel, by decide +kernel, rfl, by decide +kernel, by decide +kernel, by decide +kernel, by decide +kernel⟩⟩,
   ⟨wK (wReg [0, 0, 4096]), 0, wX (wReg [0, 0, 4096]), 2,
     ⟨by decide +kernel, by decide +kernel, by decide +kernel, rfl, by decide +kernel, by decide +kernel, by decide +kernel, by decide +kernel⟩,
     by decide +kernel⟩,
   ⟨(wCtx { rpt := some 2 }), 2, by decide +kernel⟩,
   ⟨(wCtx { rpt := some 1 }), 1, by decide +kernel⟩,
   ⟨13, by decide +kernel⟩⟩

/-- The hypotheses of the clauses of ExceptionsEnterAndReturn, in their order, part 1 of 2. -/
theorem witness_ExceptionsEnterAndReturn_1 :
    (∃ (s : State) (k : Nat) (c : Nat), (((s.core k).ctx c).exl = false) ∧ (s.execLeg k c = none)) ∧
    (∃ (y : Ctx), (y.delay = none)) ∧
    (∃ (y : Ctx) (d : Delay), (y.delay = some d)) ∧
    (∃ (s : State) (k : Nat) (c : Nat), (((s.core k).ctx c).exl = true)) ∧
    (∃ (s : State) (k : Nat) (x : Core), (Issues s k { slotOk := false, repeatable := false } x)) ∧
    (∃ (s : State) (k : Nat) (w1 : Word) (w2 : Word), (k < 50) ∧ ((s.core k).running = true) ∧
      ((s.core k).here.watchdogFirst = false) ∧ (((s.settle k).core k).here.inAnnulled = false) ∧
      (((s.settle k).core k).here.s = true) ∧ (isReserved w1 w2 = true)) :=
  ⟨⟨wK wCore, 0, 0, by decide +kernel⟩,
   ⟨{}, by decide +kernel⟩,
   ⟨{ delay := some { branch := 4, target := 9, taken := true, annulled := false, linkReg := false, mispredict := false } },
     { branch := 4, target := 9, taken := true, annulled := false, linkReg := false, mispredict := false },
     by decide +kernel⟩,
   ⟨wK (wCtx { exl := true }), 0, 0, by decide +kernel⟩,
   ⟨wK wCore, 0, wX wCore,
     ⟨by decide +kernel, by decide +kernel, by decide +kernel, rfl, by decide +kernel, by decide +kernel, by decide +kernel, by decide +kernel⟩⟩,
   ⟨wK wCore, 0, 0xFF00, 0, by decide +kernel⟩⟩

/-- The hypotheses of the clauses of ExceptionsEnterAndReturn, in their order, part 2 of 2. -/
theorem witness_ExceptionsEnterAndReturn_2 :
    (∃ (s : State) (k : Nat), (k < 50) ∧ ((s.settle k).core k = s.core k) ∧ ((s.core k).running = true) ∧
      ((s.core k).here.watchdogFirst = true)) ∧
    (∃ (s : State) (k : Nat) (x : Core), (Issues s k { cost := 6, privileged := true, slotOk := false, repeatable := false } x) ∧
      ((x.here.esw.getLsbD 15 = false ∨ x.here.epriv = true))) ∧
    (∃ (s : State) (k : Nat) (x : Core), (Issues s k { cost := 6, privileged := true, slotOk := false, repeatable := false } x) ∧
      (x.here.esw.getLsbD 15 = true) ∧ (x.here.epriv = false)) ∧
    (∃ (y : Ctx), (y.delay = none) ∧ (y.rpt = none)) ∧
    (∃ (y : Ctx) (n : Nat), (y.delay = none) ∧ (y.rpt = some n) ∧ (1 ≤ n) ∧ (n ≤ 4096)) :=
  ⟨⟨wK (wCtx { wUser with wdogDue := true }), 0, by decide +kernel⟩,
   ⟨wK wCore, 0, wX wCore,
     ⟨by decide +kernel, by decide +kernel, by decide +kernel, rfl, by decide +kernel, by decide +kernel, by decide +kernel, by decide +kernel⟩,
     by decide +kernel⟩,
   ⟨wK (wCtx { esw := 0x8000, epriv := false }), 0, wX (wCtx { esw := 0x8000, epriv := false }),
     ⟨by decide +kernel, by decide +kernel, by decide +kernel, rfl, by decide +kernel, by decide +kernel, by decide +kernel, by decide +kernel⟩,
     by decide +kernel⟩,
   ⟨{}, by decide +kernel⟩,
   ⟨{ rpt := some 4096 }, 4096, by decide +kernel⟩⟩

/-- The hypotheses of the clauses of SystemInstructionsRun, in their order, part 1 of 2. -/
theorem witness_SystemInstructionsRun_1 :
    (∃ (s : State) (k : Nat) (d : BitVec 8) (port : BitVec 12) (x : Core) (y : Core), (Issues s k { io := some fun _ => port.toNat } x) ∧
      (stakePort k port.toNat = none) ∧ (x.iParity = []) ∧
      ((((s.settle k).ioReadEffect k x.cur port.toNat).core k).runStore d ((s.settle k).ioPeek k x.cur port.toNat) = .ok y) ∧
      (y.parityHit = none)) ∧
    (∃ (s : State) (k : Nat) (d : BitVec 8) (n : BitVec 6) (x : Core) (y : Core), (Issues s k { io := some (Core.portOf n) } x) ∧
      (stakePort k (x.portOf n) = none) ∧ (x.iParity = []) ∧ (x.dParity = []) ∧
      ((((s.settle k).ioReadEffect k x.cur (x.portOf n)).core k).runStore d ((s.settle k).ioPeek k x.cur (x.portOf n)) = .ok y)) ∧
    (∃ (s : State) (k : Nat) (port : BitVec 12) (x : Core), (Issues s k { io := some fun _ => port.toNat } x) ∧
      (stakePort k port.toNat = none) ∧ (x.iParity = [])) ∧
    (∃ (s : State) (k : Nat) (n : BitVec 6) (x : Core), (Issues s k { io := some (Core.portOf n) } x) ∧
      (stakePort k (x.portOf n) = none) ∧ (x.iParity = []) ∧ (x.dParity = [])) ∧
    (∃ (s : State) (k : Nat) (port : BitVec 12) (x : Core), (Issues s k { io := some fun _ => port.toNat } x) ∧
      (stakePort k port.toNat = some true)) ∧
    (∃ (fm : Form) (x : Core) (port : Core → Nat), (fm.io = some port) ∧ (fm.isReserved = false) ∧
      (fm.slotOk = true) ∧ (x.here.s = false) ∧ (x.here.badFetch fm.len = none)) ∧
    (∃ (s : State) (k : Nat) (d : BitVec 6) (port : BitVec 12) (x : Core), (Issues s k { io := some fun _ => port.toNat, repeatable := false } x) ∧
      (isFirmwarePort k port.toNat = false) ∧ (x.dParity = []) ∧
      ((s.settle k).ioPeek k x.cur port.toNat &&& x.reg d.toNat ≠ 0)) ∧
    (∃ (s : State) (k : Nat) (d : BitVec 8) (port : BitVec 12) (x : Core) (m : Operand), (Issues s k { io := some fun _ => port.toNat, repeatable := false } x) ∧
      (isFirmwarePort k port.toNat = false) ∧ (x.source d = .ok m) ∧ (m.core.parityHit = none) ∧
      ((s.settle k).ioPeek k x.cur port.toNat &&& m.value ≠ 0)) ∧
    (∃ (s : State) (k : Nat) (d : BitVec 8) (port : BitVec 12) (x : Core) (m : Operand), (Issues s k { io := some fun _ => port.toNat, repeatable := false } x) ∧
      (isFirmwarePort k port.toNat = false) ∧ (x.source d = .ok m) ∧ (m.core.parityHit = none) ∧
      ((s.settle k).ioPeek k x.cur port.toNat &&& m.value = 0)) ∧
    (∃ (s : State) (k : Nat) (c : Nat) (port : Nat) (mask : Word) (updates : List (Nat × Word)), (((s.core k).ctx c).suspended = some (.iowait port mask updates)) ∧
      ((s.core k).halted = false) ∧ ((s.core k).inReset = false) ∧ (isFirmwarePort k port = false) ∧
      (s.ioPeek k c port &&& mask ≠ 0)) :=
  ⟨⟨wK wCore, 0, 1, 0x040, wX wCore,
     (match (((wK wCore).settle 0).ioReadEffect 0 0 0x040).core 0 |>.runStore 1 (((wK wCore).settle 0).ioPeek 0 0 0x040) with | .ok y => y | .error _ => wX wCore),
     ⟨by decide +kernel, by decide +kernel, by decide +kernel, rfl, by decide +kernel, by decide +kernel, by decide +kernel, by decide +kernel⟩,
     by decide +kernel, by decide +kernel, rfl, by decide +kernel⟩,
   ⟨wK { inReset := false, doorbells := [(0, 5)], dmem := [(2, 0x290)] }, 0, 1, 2,
     wX { inReset := false, doorbells := [(0, 5)], dmem := [(2, 0x290)] },
     (match (((wK { inReset := false, doorbells := [(0, 5)], dmem := [(2, 0x290)] }).settle 0).ioReadEffect 0 0 0x290).core 0 |>.runStore 1 (((wK { inReset := false, doorbells := [(0, 5)], dmem := [(2, 0x290)] }).settle 0).ioPeek 0 0 0x290) with | .ok y => y | .error _ => wX wCore),
     ⟨by decide +kernel, by decide +kernel, by decide +kernel, rfl, by decide +kernel, by decide +kernel, by decide +kernel, by decide +kernel⟩,
     by decide +kernel, by decide +kernel, by decide +kernel, rfl⟩,
   ⟨wK wCore, 0, 0x040, wX wCore,
     ⟨by decide +kernel, by decide +kernel, by decide +kernel, rfl, by decide +kernel, by decide +kernel, by decide +kernel, by decide +kernel⟩,
     by decide +kernel⟩,
   ⟨wK { inReset := false, doorbells := [(0, 5)], dmem := [(2, 0x290)] }, 0, 2,
     wX { inReset := false, doorbells := [(0, 5)], dmem := [(2, 0x290)] },
     ⟨by decide +kernel, by decide +kernel, by decide +kernel, rfl, by decide +kernel, by decide +kernel, by decide +kernel, by decide +kernel⟩,
     by decide +kernel⟩,
   ⟨wK wCore, 0, 0x299, wX wCore,
     ⟨by decide +kernel, by decide +kernel, by decide +kernel, rfl, by decide +kernel, by decide +kernel, by decide +kernel, by decide +kernel⟩,
     by decide +kernel⟩,
   ⟨{ io := some fun _ => 0x40 }, wCtx wUser, fun _ => 0x40, rfl, by decide +kernel⟩,
   ⟨wK { inReset := false, doorbells := [(0, 5)], dmem := [(1, 4)] }, 0, 1, 0x290,
     wX { inReset := false, doorbells := [(0, 5)], dmem := [(1, 4)] },
     ⟨by decide +kernel, by decide +kernel, by decide +kernel, rfl, by decide +kernel, by decide +kernel, by decide +kernel, by decide +kernel⟩,
     by decide +kernel⟩,
   ⟨wK { inReset := false, doorbells := [(0, 5)], dmem := [(1, 4)] }, 0, 1, 0x290,
     wX { inReset := false, doorbells := [(0, 5)], dmem := [(1, 4)] },
     { addr := 1, value := 4, core := wX { inReset := false, doorbells := [(0, 5)], dmem := [(1, 4)] } },
     ⟨by decide +kernel, by decide +kernel, by decide +kernel, rfl, by decide +kernel, by decide +kernel, by decide +kernel, by decide +kernel⟩,
     by decide +kernel, rfl, by decide +kernel⟩,
   ⟨wK { inReset := false, doorbells := [(0, 5)], dmem := [(1, 4)] }, 0, 2, 0x290,
     wX { inReset := false, doorbells := [(0, 5)], dmem := [(1, 4)] },
     { addr := 2, value := 0, core := wX { inReset := false, doorbells := [(0, 5)], dmem := [(1, 4)] } },
     ⟨by decide +kernel, by decide +kernel, by decide +kernel, rfl, by decide +kernel, by decide +kernel, by decide +kernel, by decide +kernel⟩,
     by decide +kernel, rfl, by decide +kernel⟩,
   ⟨wK { inReset := false, doorbells := [(0, 5)], ctxs := [(0, { suspended := some (.iowait 0x290 4 [(7, 9)]) })] },
     0, 0, 0x290, 4, [(7, 9)], by decide +kernel⟩⟩

/-- The hypotheses of the clauses of SystemInstructionsRun, in their order, part 2 of 2. -/
theorem witness_SystemInstructionsRun_2 :
    (∃ (s : State) (k : Nat) (c : Nat) (port : Nat) (mask : Word) (updates : List (Nat × Word)), (((s.core k).ctx c).suspended = some (.iowait port mask updates)) ∧
      (isFirmwarePort k port = false) ∧ (s.ioPeek k c port &&& mask = 0)) ∧
    (∃ (s : State) (k : Nat) (x : Core), (Issues s k { privileged := true, repeatable := false } x) ∧
      (x.here.moves.length < 4) ∧ (x.dParity = [])) ∧
    (∃ (s : State) (k : Nat) (x : Core), (Issues s k { privileged := true, repeatable := false } x) ∧
      (4 ≤ x.here.moves.length)) ∧
    (∃ (s : State) (k : Nat) (c : Nat) (m : BlockMove) (rest : List BlockMove), (((s.core k).ctx c).moves = m :: rest) ∧
      (m.drain = false) ∧ (m.window + 32 * m.beats ≤ 65536) ∧ ((∀ q, (s.quarter q).stack = .active)) ∧
      (s.flaws = []) ∧
      (s.marked m.place 0 (64 * m.beats) = (s.marked m.place 0 (64 * m.beats)).map (fun b => (b.1, false))) ∧
      (((s.core k).ctx c).suspended = none)) ∧
    (∃ (s : State) (k : Nat) (n : BitVec 6) (x : Core), (Issues s k { cost := 10, slotOk := false, repeatable := false } x) ∧
      ((∀ i, i < 4 → x.mayReach (x.regAddr i) = true)) ∧ (x.gateOk k n.toNat = true) ∧
      (x.badPair (x.gateWord k n.toNat 2) x.reg = none) ∧ (x.iParity = []) ∧ (x.dParity = []) ∧
      ((n = 0 → x.here.s = false → (s.settle k).execLeg k x.cur = none))) ∧
    (∃ (s : State) (k : Nat) (x : Core) (v : Trv), (Issues s k { cost := 10, slotOk := false, repeatable := false } x) ∧
      (x.here.s = false) ∧ ((s.settle k).execLeg k x.cur = some v) ∧
      ((∀ i, i < 4 → x.mayReach (x.regAddr i) = true)) ∧ (x.gateOk k 0 = true) ∧
      (x.badPair (x.gateWord k 0 2) x.reg = none) ∧ (x.iParity = []) ∧ (x.dParity = [])) ∧
    (∃ (s : State) (k : Nat) (n : BitVec 6) (x : Core), (Issues s k { cost := 10, slotOk := false, repeatable := false } x) ∧
      (x.gateOk k n.toNat = false)) ∧
    (∃ (s : State) (k : Nat) (x : Core) (g : GateRecord), (Issues s k { cost := 8, slotOk := false, repeatable := false } x) ∧
      (x.here.s = true) ∧ (x.here.gate = some g) ∧ (x.dParity = [])) ∧
    (∃ (s : State) (k : Nat) (x : Core), (Issues s k { cost := 8, slotOk := false, repeatable := false } x) ∧
      (x.here.gate = none)) :=
  ⟨⟨wK { inReset := false, ctxs := [(0, { suspended := some (.iowait 0x290 4 [(7, 9)]) })] }, 0, 0, 0x290, 4,
     [(7, 9)], by decide +kernel⟩,
   ⟨wK wCore, 0, wX wCore,
     ⟨by decide +kernel, by decide +kernel, by decide +kernel, rfl, by decide +kernel, by decide +kernel, by decide +kernel, by decide +kernel⟩,
     by decide +kernel⟩,
   ⟨wK (wCtx { moves := [{ window := 0, drain := false, tag := 1, beats := 1, addr := 64, phys := true }, { window := 0, drain := false, tag := 1, beats := 1, addr := 64, phys := true }, { window := 0, drain := false, tag := 1, beats := 1, addr := 64, phys := true }, { window := 0, drain := false, tag := 1, beats := 1, addr := 64, phys := true }] }),
     0,
     wX (wCtx { moves := [{ window := 0, drain := false, tag := 1, beats := 1, addr := 64, phys := true }, { window := 0, drain := false, tag := 1, beats := 1, addr := 64, phys := true }, { window := 0, drain := false, tag := 1, beats := 1, addr := 64, phys := true }, { window := 0, drain := false, tag := 1, beats := 1, addr := 64, phys := true }] }),
     ⟨by decide +kernel, by decide +kernel, by decide +kernel, rfl, by decide +kernel, by decide +kernel, by decide +kernel, by decide +kernel⟩,
     by decide +kernel⟩,
   ⟨wK { wCtx { moves := [{ window := 0xC000, drain := false, tag := 1, beats := 1, addr := 64, phys := true }], pc := 0 } with delayed := [{ due := 9, target := .dmem 0xC000, value := 5 }] },
     0, 0, { window := 0xC000, drain := false, tag := 1, beats := 1, addr := 64, phys := true }, [],
     by decide +kernel, by decide +kernel, by decide +kernel, fun _ => rfl, by decide +kernel⟩,
   ⟨wK { inReset := false, gateBase := 0x20, imem := [(0x2000, 0x100), (0x2001, 64), (0x2002, 4)] }, 0, 0,
     wX { inReset := false, gateBase := 0x20, imem := [(0x2000, 0x100), (0x2001, 64), (0x2002, 4)] },
     ⟨by decide +kernel, by decide +kernel, by decide +kernel, rfl, by decide +kernel, by decide +kernel, by decide +kernel, by decide +kernel⟩,
     by decide +kernel⟩,
   ⟨{ wT { wAt (wLeg 0x46 [(28, 1)]) with stage := .awaiting } with cores := [(0, { wCtx wUser with gateBase := 0x20, imem := [(0x2000, 0x100), (0x2001, 64), (0x2002, 4)], exec := some (0, 5), dmem := [(0, 1), (1, 7)] })] },
     0,
     State.core (State.settle { wT { wAt (wLeg 0x46 [(28, 1)]) with stage := .awaiting } with cores := [(0, { wCtx wUser with gateBase := 0x20, imem := [(0x2000, 0x100), (0x2001, 64), (0x2002, 4)], exec := some (0, 5), dmem := [(0, 1), (1, 7)] })] } 0) 0,
     { wAt (wLeg 0x46 [(28, 1)]) with stage := .awaiting },
     ⟨by decide +kernel, by decide +kernel, by decide +kernel, rfl, by decide +kernel, by decide +kernel, by decide +kernel, by decide +kernel⟩,
     by decide +kernel⟩,
   ⟨wK wCore, 0, 2, wX wCore,
     ⟨by decide +kernel, by decide +kernel, by decide +kernel, rfl, by decide +kernel, by decide +kernel, by decide +kernel, by decide +kernel⟩,
     by decide +kernel⟩,
   ⟨wK (wCtx { gate := some { ret := 5, wp := 64, sw := 0x4000, priv := true } }), 0,
     wX (wCtx { gate := some { ret := 5, wp := 64, sw := 0x4000, priv := true } }),
     { ret := 5, wp := 64, sw := 0x4000, priv := true },
     ⟨by decide +kernel, by decide +kernel, by decide +kernel, rfl, by decide +kernel, by decide +kernel, by decide +kernel, by decide +kernel⟩,
     by decide +kernel⟩,
   ⟨wK wCore, 0, wX wCore,
     ⟨by decide +kernel, by decide +kernel, by decide +kernel, rfl, by decide +kernel, by decide +kernel, by decide +kernel, by decide +kernel⟩,
     by decide +kernel⟩⟩

/-- The hypotheses of the clauses of ContextsSwitch, in their order. -/
theorem witness_ContextsSwitch :
    (∃ (s : State) (k : Nat) (x : Core), (Issues s k { cost := 4, privileged := true, repeatable := false } x)) ∧
    (∃ (s : State) (k : Nat) (x : Core), (Issues s k { cost := 4, privileged := true } x)) ∧
    (∃ (x : Core) (k : Nat) (c : Nat), (x.nextCtx k = some c)) ∧
    (∃ (x : Core) (k : Nat), ∃ c, (x.nextCtx k = none) ∧ (c < coreContexts k) ∧ (c ≠ x.cur)) ∧
    (∃ (s : State) (k : Nat) (x : Core), (Issues s k { cost := 4 } x)) ∧
    (∃ (s : State) (k : Nat) (src : Nat), (k < 50) ∧ (s.settle k = s) ∧ ((s.core k).irqSource = some src) ∧
      ((s.core k).halted = false) ∧ ((s.core k).inReset = false) ∧ ((s.core k).gated = false) ∧
      ((s.core k).irqCtx.toNat < coreContexts k) ∧ ((s.core k).ready.getLsbD (s.core k).irqCtx.toNat = true) ∧
      (((s.core k).ctx (s.core k).irqCtx.toNat).mayInterrupt = true) ∧ ((s.core k).stalled = false) ∧
      ((s.core k).here.atBoundary = true) ∧ ((s.core k).cur = (s.core k).irqCtx.toNat)) ∧
    (∃ (x : Core) (i : Nat), (x.irqSource = some i)) ∧
    (∃ (s : State) (p : Nat) (tag : Nat) (k : Nat) (c : Nat) (v : Trv), (AtLeg s p tag 0x46 v) ∧
      (v.bound = some (k, c)) ∧ ((s.core k).exec = none) ∧ ((s.core k).halted = false) ∧
      ((s.core k).inReset = false) ∧ ((s.core k).gated = false) ∧ ((∀ q, (s.quarter q).stack = .active)) ∧
      (s.flaws = []) ∧ (s.poisoned (execImage v.leg) (2 * execWords v.leg) = false) ∧
      (s.poisoned (bufPos (legAddr v.leg)) (legLen v.leg) = false)) ∧
    (∃ (s : State) (p : Nat) (tag : Nat) (k : Nat) (c : Nat) (v : Trv), (AtLeg s p tag 0x46 v) ∧
      (v.bound = some (k, c)) ∧ ((s.core k).exec = none) ∧ ((s.core k).halted = false) ∧
      ((s.core k).inReset = false) ∧ ((s.core k).gated = false) ∧ ((∀ q, (s.quarter q).stack = .active)) ∧
      (s.flaws = []) ∧ (s.poisoned (execImage v.leg) (2 * execWords v.leg) = true)) ∧
    (∃ (s : State) (p : Nat) (tag : Nat) (k : Nat) (c : Nat) (v : Trv), (AtLeg s p tag 0x46 v) ∧
      (v.bound = some (k, c)) ∧ ((s.core k).exec.isSome)) :=
  ⟨⟨wK wCore, 0, wX wCore,
     ⟨by decide +kernel, by decide +kernel, by decide +kernel, rfl, by decide +kernel, by decide +kernel, by decide +kernel, by decide +kernel⟩⟩,
   ⟨wK wCore, 0, wX wCore,
     ⟨by decide +kernel, by decide +kernel, by decide +kernel, rfl, by decide +kernel, by decide +kernel, by decide +kernel, by decide +kernel⟩⟩,
   ⟨{ ready := 7 }, 0, 1, by decide +kernel⟩,
   ⟨{ ready := 1 }, 0, 1, by decide +kernel⟩,
   ⟨wK wCore, 0, wX wCore,
     ⟨by decide +kernel, by decide +kernel, by decide +kernel, rfl, by decide +kernel, by decide +kernel, by decide +kernel, by decide +kernel⟩⟩,
   ⟨wK { inReset := false, ctxs := [(0, { ie := true })], irqPend := 0x8000, irqMask := 0x8000 }, 0, 15,
     by decide +kernel⟩,
   ⟨{ irqPend := 0x8000, irqMask := 0x8000 }, 15, by decide +kernel⟩,
   ⟨{ wT (wAt (wLeg 0x46 [(28, 1)])) with cores := [(0, wCore)] }, 0, 5, 0, 0, wAt (wLeg 0x46 [(28, 1)]),
     ⟨by decide +kernel, by decide +kernel, by decide +kernel, by decide +kernel, wOne (by decide +kernel), by decide +kernel⟩,
     by decide +kernel, by decide +kernel, by decide +kernel, id (by decide +kernel), by decide +kernel, fun _ => rfl,
     by decide +kernel⟩,
   ⟨{ wT (wAt (wLeg 0x46 [(24, 1), (28, 1)])) with cores := [(0, wCore)], poison := [0] }, 0, 5, 0, 0,
     wAt (wLeg 0x46 [(24, 1), (28, 1)]),
     ⟨by decide +kernel, by decide +kernel, by decide +kernel, by decide +kernel, wOne (by decide +kernel), by decide +kernel⟩,
     by decide +kernel, by decide +kernel, by decide +kernel, id (by decide +kernel), by decide +kernel, fun _ => rfl,
     by decide +kernel⟩,
   ⟨{ wT (wAt (wLeg 0x46 [(28, 1)])) with cores := [(0, { wCore with exec := some (0, 7) })] }, 0, 5, 0, 0,
     wAt (wLeg 0x46 [(28, 1)]),
     ⟨by decide +kernel, by decide +kernel, by decide +kernel, by decide +kernel, wOne (by decide +kernel), by decide +kernel⟩,
     by decide +kernel⟩⟩

/-- The hypotheses of the clauses of CoreRegistersAndStakesAreAccessed, in their order, part 1 of 2. -/
theorem witness_CoreRegistersAndStakesAreAccessed_1 :
    (∃ (s : State) (k : Nat), (s.mayAccess k = true)) ∧
    (∃ (s : State) (k : Nat), (s.mayAccess k = true)) ∧
    (∃ (s : State) (k : Nat), (s.mayAccess k = true)) ∧
    (∃ (s : State) (k : Nat), (s.mayAccess k = true)) ∧
    (∃ (s : State) (k : Nat) (v : Word), (s.mayAccess k = true) ∧
      (((s.core k).ctx (v.toNat % 32)).suspended = some .idle)) ∧
    (∃ (s : State) (k : Nat) (v : Word), (s.mayAccess k = true) ∧ (((s.core k).ctx (v.toNat % 32)).suspended = none)) ∧
    (∃ (s : State) (k : Nat), ((s.core k).here.s = false)) ∧
    (∃ (s : State) (k : Nat), (k < 49) ∧ (s.mayAccess k = true)) ∧
    (∃ (s : State) (k : Nat) (c : Nat), ((∀ d ∈ (s.core k).delayed, ∀ port, d.target ≠ .io c port))) :=
  ⟨⟨wK wCore, 0, by decide +kernel⟩,
   ⟨wK wCore, 0, by decide +kernel⟩,
   ⟨wK wCore, 0, by decide +kernel⟩,
   ⟨wK wCore, 0, by decide +kernel⟩,
   ⟨wK { inReset := false, ctxs := [(3, { suspended := some .idle })] }, 0, 3, by decide +kernel⟩,
   ⟨wK wCore, 0, 3, by decide +kernel⟩,
   ⟨wK (wCtx wUser), 0, by decide +kernel⟩,
   ⟨wK wCore, 0, by decide +kernel⟩,
   ⟨wK wCore, 0, 0, fun d h => nomatch (show d ∈ ([] : List Delayed) from h)⟩⟩

/-- The hypotheses of the clauses of CoreRegistersAndStakesAreAccessed, in their order, part 2 of 2. -/
theorem witness_CoreRegistersAndStakesAreAccessed_2 :
    (∃ (s : State) (k : Nat) (c : Nat) (port : Nat) (d : Delayed), (d ∈ (s.core k).delayed) ∧ (d.target = .io c port)) ∧
    (∃ (k : Nat), (k < 49)) ∧
    (∃ (x : Stake), (x.owner = none)) ∧
    (∃ (x : Stake) (o : Nat), (x.owner = some o)) ∧
    (∃ (s : State) (r : Nat) (n : Nat), ((s.stake n).owner = some r)) ∧
    (∃ (s : State) (r : Nat) (n : Nat), ((s.stake n).owner ≠ some r)) ∧
    (∃ (s : State) (bank : Nat) (r : Nat) (n : Nat), (bank < 5) ∧ (s.stakeAsks.get bank [] = [.acquire r n])) ∧
    (∃ (s : State) (bank : Nat) (q : Nat) (r : Nat) (n : Nat), (bank < 5) ∧ (q ≠ r) ∧ ((s.stake n).owner = some q) ∧
      (s.stakeAsks.get bank [] = [.acquire r n, .release q n []])) :=
  ⟨⟨wK { wCore with delayed := [{ due := 4, target := .io 0 0x012, value := 3 }] }, 0, 0, 0x012,
     { due := 4, target := .io 0 0x012, value := 3 }, by decide +kernel⟩,
   ⟨0, by decide +kernel⟩,
   ⟨{ stale := true }, by decide +kernel⟩,
   ⟨{ owner := some 5 }, 5, by decide +kernel⟩,
   ⟨{ stakes := [(7, { owner := some 5 })] }, 5, 7, by decide +kernel⟩,
   ⟨{}, 5, 7, by decide +kernel⟩,
   ⟨{ wK wCore with stakeAsks := [(4, [.acquire 5 7])] }, 4, 5, 7, by decide +kernel⟩,
   ⟨{ wK wCore with stakeAsks := [(4, [.acquire 5 7, .release 6 7 []])], stakes := [(7, { owner := some 6 })] }, 4, 6,
     5, 7, by decide +kernel⟩⟩

/-- The hypotheses of the clauses of HostRegistersAreWritten, in their order, part 1 of 2. -/
theorem witness_HostRegistersAreWritten_1 :
    (∃ (s : State) (s0 : State) (p : Nat), (s0 = s.hostTlp p 0 4) ∧ (s.reachable p = true) ∧ (s.mode = .ready)) ∧
    (∃ (s : State) (s0 : State) (p : Nat) (v : BitVec 64), (s0 = s.hostTlp p 0 4) ∧ (s.reachable p = true) ∧
      (s.mode = .ready) ∧ (v.getLsbD 8 = false)) ∧
    (∃ (s : State) (p : Nat) (v : BitVec 64), (s.reachable p = true) ∧ (s.mode = .ready) ∧ (v.getLsbD 8 = true) ∧
      ((s.port p).bar4Log2 = 0)) ∧
    (∃ (s : State) (p : Nat) (off : Nat), (s.reachable p = true) ∧ (s.mode = .ready) ∧
      (off ∈ [0x00, 0x04, 0x10, 0x14, 0x1C, 0x1000, 0x1004])) ∧
    (∃ (s : State) (p : Nat) (off : Nat) (width : Nat), (s.reachable p = true) ∧ (s.barReserved p off width = true)) ∧
    (∃ (s : State) (p : Nat) (off : Nat) (width : Nat), (s.reachable p = true) ∧ (s.bar2Reserved p off width = true)) ∧
    (∃ (s : State) (p : Nat), (s.reachable p = true)) ∧
    (∃ (s : State) (why : Nat), (s.mode = .recovery why)) :=
  ⟨⟨wP wPort, (wP wPort).hostTlp 0 0 4, 0, by decide +kernel⟩,
   ⟨wP wPort, (wP wPort).hostTlp 0 0 4, 0, 0x3F, by decide +kernel⟩,
   ⟨wP { wPort with bar4Log2 := 0 }, 0, 0x100, by decide +kernel⟩,
   ⟨wP wPort, 0, 0x1004, by decide +kernel⟩,
   ⟨wP wPort, 0, 0xFFF0, 4, by decide +kernel⟩,
   ⟨wP wPort, 0, 0x7FFF8, 4, by decide +kernel⟩,
   ⟨wP wPort, 0, by decide +kernel⟩,
   ⟨{ wP wPort with mode := .recovery 1 }, 1, by decide +kernel⟩⟩

/-- The hypotheses of the clauses of HostRegistersAreWritten, in their order, part 2 of 2. -/
theorem witness_HostRegistersAreWritten_2 :
    (∃ (s : State) (p : Nat), ((s.port p).created = true) ∧ ((s.port p).linkUp = true)) ∧
    (∃ (s : State) (p : Nat), ((s.port p).unclaimed ≠ BitVec.allOnes 32)) ∧
    (∃ (s : State) (p : Nat), ((s.port p).unclaimed = BitVec.allOnes 32)) ∧
    (∃ (s : State) (k : Nat) (port : Nat), (s.mayAccess k = true) ∧ (port < 4096)) ∧
    (∃ (s : State) (port : Nat), (s.mayAccess 48 = true) ∧ ((s.core 48).cur ≠ 7) ∧ (0x280 ≤ port) ∧ (port < 0x300)) ∧
    (∃ (s : State) (k : Nat), (s.mayAccess k = false)) ∧
    (∃ (s : State) (p : Nat) (off : Nat), (s.reachable p = true) ∧ (s.barReserved p off 8 = false)) :=
  ⟨⟨wP wPort, 0, by decide +kernel⟩,
   ⟨wP wPort, 0, by decide +kernel⟩,
   ⟨wP { wPort with unclaimed := BitVec.allOnes 32 }, 0, by decide +kernel⟩,
   ⟨wK wCore, 0, 4095, by decide +kernel⟩,
   ⟨{ wP wPort with cores := [(48, wCore)] }, 0x280, by decide +kernel⟩,
   ⟨wP wPort, 0, by decide +kernel⟩,
   ⟨wP wPort, 0, 0x8, by decide +kernel⟩⟩

/-- The hypotheses of the clauses of ContainmentsRunToTheirEnd, in their order, part 1 of 2. -/
theorem witness_ContainmentsRunToTheirEnd_1 :
    (∃ (s : State) (p : Nat) (c : Containment), (s.deviceContain = none) ∧ ((s.port p).contain = some c) ∧
      (c.phase = .stopping) ∧ (s.trvs = []) ∧ (s.admitting = []) ∧ ((s.port p).handed = []) ∧ (s.dma = [])) ∧
    (∃ (s : State) (p : Nat) (c : Containment), (s.deviceContain = none) ∧ ((s.port p).contain = some c) ∧
      (c.phase ≠ .stopping)) ∧
    (∃ (s : State) (p : Nat) (c : Containment), (s.deviceContain = none) ∧ ((s.port p).contain = some c) ∧
      (c.phase = .resetting) ∧ (c.cause = 0x04#8) ∧ (c.resetBlocks = false) ∧ (c.engine = none)) ∧
    (∃ (s : State) (p : Nat) (c : Containment), (s.deviceContain = none) ∧ ((s.port p).contain = some c) ∧
      (c.phase = .resetting) ∧ (c.cause = 0x01#8) ∧ (c.resetBlocks = true) ∧ (c.engine = none)) ∧
    (∃ (s : State) (c : Containment), (s.deviceContain = some c) ∧ (c.phase = .resetting) ∧ (c.cause = 0x12#8)) ∧
    (∃ (s : State) (p : Nat) (c : Containment), (s.deviceContain = none) ∧ ((s.port p).contain = some c) ∧
      (c.phase = .ending) ∧ (c.taint = []) ∧ (c.resetBlocks = true) ∧ (s.extents = []) ∧ (s.accums = []) ∧
      (s.released = []) ∧ (s.collector = []) ∧ ((s.port p).cqs = []) ∧ ((s.port p).sqs = [])) ∧
    (∃ (s : State) (e : Nat), (e < 48) ∧ ((s.core e).inReset = false) ∧ ((s.core e).gated = false)) ∧
    (∃ (s : State), (s.mode = .ready) ∧ (s.anyContain = false)) ∧
    (∃ (s : State), (s.mode = .ready) ∧ (s.anyContain = true)) :=
  ⟨⟨wP { wPort with contain := some { cause := 1, phase := .stopping, resetBlocks := true, resetConfig := true } }, 0,
     { cause := 1, phase := .stopping, resetBlocks := true, resetConfig := true }, by decide +kernel⟩,
   ⟨wP { wPort with contain := some { cause := 1, phase := .ending, resetBlocks := true, resetConfig := true } }, 0,
     { cause := 1, phase := .ending, resetBlocks := true, resetConfig := true }, by decide +kernel⟩,
   ⟨wP { wPort with contain := some { cause := 4, phase := .resetting, resetBlocks := false, resetConfig := true } },
     0, { cause := 4, phase := .resetting, resetBlocks := false, resetConfig := true }, by decide +kernel⟩,
   ⟨wP { wPort with contain := some { cause := 1, phase := .resetting, resetBlocks := true, resetConfig := true } },
     0, { cause := 1, phase := .resetting, resetBlocks := true, resetConfig := true }, by decide +kernel⟩,
   ⟨{ wP wPort with deviceContain := some { cause := 0x12, phase := .resetting, resetBlocks := true, resetConfig := true } },
     { cause := 0x12, phase := .resetting, resetBlocks := true, resetConfig := true }, by decide +kernel⟩,
   ⟨wP { wPort with contain := some { cause := 1, phase := .ending, resetBlocks := true, resetConfig := true } }, 0,
     { cause := 1, phase := .ending, resetBlocks := true, resetConfig := true }, by decide +kernel⟩,
   ⟨{ wP wPort with cores := [(47, wCore)] }, 47, by decide +kernel⟩,
   ⟨wP wPort, by decide +kernel⟩,
   ⟨wP { wPort with contain := some wCont }, by decide +kernel⟩⟩

/-- The hypotheses of the clauses of ContainmentsRunToTheirEnd, in their order, part 2 of 2. -/
theorem witness_ContainmentsRunToTheirEnd_2 :
    (∃ (s : State) (row : Nat), (s.mode = .boot row) ∧ (s.restarts ≠ [])) ∧
    (∃ (s : State), (s.mode = .ready)) ∧
    (∃ (s : State), (s.mode = .ready) ∧ (s.restarts = [])) ∧
    (∃ (s : State) (a : Nat) (b : Nat) (c : Nat), (s.mode = .ready) ∧ (s.restarts = [a, b, c]) ∧
      (s.devMs ≤ a + 600000) ∧ (s.devMs ≤ b + 600000) ∧ (s.devMs ≤ c + 600000)) ∧
    (∃ (s : State) (a : Nat) (b : Nat) (c : Nat), (s.mode = .ready) ∧ (s.restarts = [a, b, c]) ∧
      (a + 600000 < s.devMs) ∧ (b + 600000 < s.devMs)) ∧
    (∃ (s : State), (s.mode = .ready)) ∧
    (∃ (s : State) (row : Nat), (s.mode = .boot row)) ∧
    (∃ (s : State) (c : Nat), (s.mode = .ready) ∧ (c < 12)) :=
  ⟨⟨{ wP wPort with mode := .boot 3, restarts := [5] }, 3, by decide +kernel⟩,
   ⟨wP wPort, by decide +kernel⟩,
   ⟨wP wPort, by decide +kernel⟩,
   ⟨{ wP wPort with restarts := [1, 2, 3], devMs := 600001 }, 1, 2, 3, by decide +kernel⟩,
   ⟨{ wP wPort with restarts := [1, 2, 3], devMs := 600003 }, 1, 2, 3, by decide +kernel⟩,
   ⟨wP wPort, by decide +kernel⟩,
   ⟨{ wP wPort with mode := .boot 3 }, 3, by decide +kernel⟩,
   ⟨wP wPort, 11, by decide +kernel⟩⟩

/-- The hypotheses of the clauses of PowerAndClocksActOnTheDevice, in their order, part 1 of 2. -/
theorem witness_PowerAndClocksActOnTheDevice_1 :
    (∃ (s : State), (s.mode = .ready)) ∧
    (∃ (s : State), (s.mode = .reset) ∧ (s.railsValid = true) ∧ (s.tooHot = false) ∧ (s.bif0 ≠ some 3#2) ∧
      (s.bif1 ≠ some 3#2)) ∧
    (∃ (s : State), (s.mode = .reset) ∧ (s.railsValid = true) ∧ (s.tooHot = false)) ∧
    (∃ (s : State), (s.mode = .reset) ∧ (s.railsValid = true) ∧ (s.tooHot = true)) ∧
    (∃ (s : State), (s.railsValid = false)) ∧
    (∃ (s : State), (s.railsValid = true)) ∧
    (∃ (s : State), (s.devClk = true) ∧ (s.restarting = false)) :=
  ⟨⟨wP wPort, by decide +kernel⟩,
   ⟨{ mode := .reset }, by decide +kernel⟩,
   ⟨{ railsValid := true, mode := .reset }, by decide +kernel⟩,
   ⟨{ mode := .reset, thermTrip := true, sensors := [(1, 100)] }, by decide +kernel⟩,
   ⟨{ mode := .off, railsValid := false }, by decide +kernel⟩,
   ⟨wP wPort, by decide +kernel⟩,
   ⟨wP wPort, by decide +kernel⟩⟩

/-- The hypotheses of the clauses of PowerAndClocksActOnTheDevice, in their order, part 2 of 2. -/
theorem witness_PowerAndClocksActOnTheDevice_2 :
    (∃ (s : State), (s.devClk = true) ∧ (s.restarting = true)) ∧
    (∃ (s : State), (s.sasClk = true) ∧ ((∀ c, c < 12 → (s.chain c).anyLane = false))) ∧
    (∃ (s : State) (temps : List Int), (s.railsValid = true) ∧ ((∀ t ∈ temps, t < 105)) ∧
      ((∀ x ∈ s.sensors, fatalReading x.1 x.2 = false))) ∧
    (∃ (s : State) (temps : List Int), (s.railsValid = true) ∧ (s.thermTrip = false) ∧ (s.mode = .ready) ∧
      (115 ≤ temps.getD 0 0)) ∧
    (∃ (s : State) (party : Nat), (s.mode = .ready) ∧ (s.partyIdle party = true)) ∧
    (∃ (s : State) (party : Nat), (s.partyIdle party = false)) ∧
    (∃ (s : State) (c : Nat), (s.mode = .ready) ∧ (s.chainIdle c = true)) :=
  ⟨⟨{ mode := .boot 4, restarts := [7] }, by decide +kernel⟩,
   ⟨wP wPort, by decide +kernel⟩,
   ⟨wP wPort, List.replicate 10 104, by decide +kernel⟩,
   ⟨wP wPort, List.replicate 10 115, by decide +kernel⟩,
   ⟨wP wPort, 11, by decide +kernel⟩,
   ⟨{ wP wPort with shelves := [(47, { state := .opened })] }, 11, by decide +kernel⟩,
   ⟨wP wPort, 11, by decide +kernel⟩⟩

/-- The hypotheses of the clauses of BootStagesComplete, in their order, part 1 of 2. -/
theorem witness_BootStagesComplete_1 :
    (∃ (s : State) (row : Nat), (s.mode = .boot row) ∧ (s.waitClock = true)) ∧
    (∃ (s : State) (row : Nat), (s.mode = .boot row) ∧ (s.waitClock = false)) ∧
    (∃ (r : BootReport), (r.trained = false)) ∧
    (∃ (s : State) (r : BootReport), (s.flash.imageCode false r.slotA ≠ 0) ∧ (s.flash.imageCode true r.slotB ≠ 0)) ∧
    (∃ (s : State), (s.flash.pending = some true) ∧ (s.flash.active = false)) ∧
    (∃ (k : Nat), (k < 48)) :=
  ⟨⟨{ mode := .boot 2, waitClock := true }, 2, by decide +kernel⟩,
   ⟨{ mode := .boot 9 }, 9, by decide +kernel⟩,
   ⟨{ wBoot with trained := false }, by decide +kernel⟩,
   ⟨{ mode := .boot 4 }, wBoot, by decide +kernel⟩,
   ⟨{ mode := .boot 4, flash := { pending := some true } }, by decide +kernel⟩,
   ⟨47, by decide +kernel⟩⟩

/-- The hypotheses of the clauses of BootStagesComplete, in their order, part 2 of 2. -/
theorem witness_BootStagesComplete_2 :
    (∃ (s : State) (q : Nat), (q < 4) ∧ ((s.quarter q).aligned = false)) ∧
    (∃ (s : State), ((∀ q, q < 4 → (s.quarter q).aligned = true ∧ (s.quarter q).active = true)) ∧ (s.swapBusy = false)) ∧
    (∃ (r : BootReport) (p : Nat), (((portEntry r p).all fun b => b = 0xFF) = false) ∧
      (entryReserved (portEntry r p) = true)) ∧
    (∃ (s : State) (p : Nat), ((s.port p).perst = false) ∧ ((s.port p).configured = false) ∧ ((s.port p).clkMode ≤ 2)) ∧
    (∃ (s : State), (s.apportioned = true)) ∧
    (∃ (s : State) (p : Nat), (s.apportioned = false) ∧ (s.created = [p])) :=
  ⟨⟨{ mode := .boot 7 }, 3, by decide +kernel⟩,
   ⟨{ mode := .boot 7, quarters := [(0, { aligned := true, active := true, row := 9 }), (1, { aligned := true, active := true, row := 9 }), (2, { aligned := true, active := true, row := 9 }), (3, { aligned := true, active := true, row := 9 })] },
     by decide +kernel⟩,
   ⟨{ wBoot with portRecord := [3] }, 0, by decide +kernel⟩,
   ⟨{ mode := .boot 8, ports := [(0, { created := true, perst := false })] }, 0, by decide +kernel⟩,
   ⟨{ apportioned := true }, by decide +kernel⟩,
   ⟨{ ports := [(5, { created := true })] }, 5, by decide +kernel⟩⟩

end Sys2Proof.Tests
end

/-! PROOFS. The registers, windows, management paths, levels and DMA channels of the device. -/

namespace Sys2Proof.Machine

/-! ### Stacks that are awake -/

section
variable {s : State}

theorem State.wakeStack_active {q : Nat} (h : (s.quarter q).stack = .active) : s.wakeStack q = s := by
  simp [State.wakeStack, h]

theorem State.wakeStack_selfRefresh {q : Nat} (h : (s.quarter q).stack = .selfRefresh) :
    s.wakeStack q = s.setQuarter q { s.quarter q with stack := .exiting, waking := true } := by
  simp [State.wakeStack, h]

/-- Stacks that are all ACTIVE need no wake. -/
theorem State.reach_active {qs : List Nat} (h : ∀ q ∈ qs, (s.quarter q).stack = .active) : s.reach qs = (s, true) := by
  have hall : (qs.all fun q => (s.quarter q).reachable) = true := by
    simpa [Quarter.reachable] using fun q hq => Or.inl (Or.inl (h q hq))
  have hfold : qs.foldl (fun (s : State) q => s.wakeStack q) s = s := by
    clear hall
    induction qs with
    | nil => rfl
    | cons q qs ih =>
      rw [List.foldl_cons, State.wakeStack_active (h q (by simp))]
      exact ih fun r hr => h r (by simp [hr])
  simp [State.reach, hall, hfold]

/-- A read that meets no flawed beat records no event. -/
theorem State.met_none {read : Nat → Bool} (h : ∀ x ∈ s.flaws, read x.1 = false) : s.met read = s := by
  have : s.flaws.filter (fun x => read x.1) = [] := by simpa using fun a b hab => h (a, b) hab
  simp [State.met, this]

theorem State.whenAwake_active {qs : List Nat} (h : ∀ q ∈ qs, (s.quarter q).stack = .active) (f : State → State) :
    s.whenAwake qs f = f s := by
  simp [State.whenAwake, State.reach_active h]

theorem State.whenReadable_active {pos n : Nat} (h : ∀ q ∈ bufQuarters pos n, (s.quarter q).stack = .active)
    (hflaw : ∀ x ∈ s.flaws, inBuf pos n x.1 = false) (f : State → State) : s.whenReadable pos n f = f s := by
  simp [State.whenReadable, State.readable, State.reach_active h, State.met_none hflaw]

/-! ### Kilvor requests that are served without waiting -/

/-- A request whose reply area and payload lie in ACTIVE stacks, and whose payload reads without an error, is served at
once. -/
theorem State.kwake_awake {src : KilvorSrc} (h : s.kAwake src = true) (f : State → State) : s.kwake src f = f s := by
  cases src with
  | mctp path body => rfl
  | service =>
    cases hsv : s.service with
    | nil => simp [State.kwake, State.kready, hsv]
    | cons v rest =>
      by_cases hq : (v.mctp.isNone && decide (v.word 2 = 1)) = true
      case neg =>
        rw [Bool.not_eq_true] at hq
        have hr : (v.mctp.isNone && s.replyArea v) = false := by
          rw [State.replyArea, ← Bool.and_assoc, hq, Bool.false_and]
        simp only [State.kwake, State.kready, hsv, hr]
        cases s.manage.principal <;> simp [hq]
      case pos =>
        obtain ⟨hm, hw⟩ : v.mctp.isNone = true ∧ v.word 2 = 1 := by simpa using hq
        simp only [State.kAwake, hsv, hw, Option.isNone_iff_eq_none.mp hm, Option.isSome_none, ne_eq,
          not_true_eq_false, decide_false, Bool.false_or, Bool.and_eq_true, List.all_append, List.all_eq_true,
          decide_eq_true_eq, Bool.not_eq_true'] at h
        obtain ⟨⟨hreply, hpayload⟩, hflaw⟩ := h
        have hread : ∀ g, s.whenReadable (bufPos (v.quad 3)) (v.word 1) g = g s :=
          State.whenReadable_active hpayload hflaw
        have hready : ∀ g : State → State, s.kready .service g = g s := by
          intro g
          simp only [State.kready, hsv]
          split
          · exact State.whenAwake_active hreply g
          · rfl
        rw [State.kwake, hready]
        simp only [hsv]
        cases s.manage.principal with
        | none => rfl
        | some p => simp only [hread, ite_self]

end

/-! ### Writes of BAR0 and accesses of reserved offsets -/

section
variable {s : State} {p : Nat}

/-- A transaction of `n` bytes at an aligned address is whole dwords already. -/
theorem tlpBytes_aligned {off n : Nat} (ho : off % 4 = 0) (hn : n % 4 = 0) : tlpBytes off n = n := by
  unfold tlpBytes; omega

/-- What a port's write to an offset that is not reserved does, given that its width is 4 or 8. -/
theorem execRegisterWrite_dword (h : s.reachable p = true) {off : Nat} (hr : s.barReserved p off 4 = false)
    (v : BitVec 64) : exec (.registerWrite (.port p) off 4 v) s =
      .next ((s.hostTlp p 0 4).writeBar0 p off (v.setWidth 32)) := by
  have ho : off % 4 = 0 := by
    simp only [State.barReserved, Bool.or_eq_false_iff, decide_eq_false_iff_not] at hr
    omega
  simp [execRegisterWrite, h, hr, tlpBytes_aligned ho]

theorem execRegisterWrite_quad (h : s.reachable p = true) {off : Nat} (hr : s.barReserved p off 8 = false)
    (v : BitVec 64) : exec (.registerWrite (.port p) off 8 v) s =
      .next (((s.hostTlp p 0 8).writeBar0 p off (v.setWidth 32)).writeBar0 p (off + 4) (v.extractLsb' 32 32)) := by
  have ho : off % 4 = 0 := by
    simp only [State.barReserved, Bool.or_eq_false_iff, decide_eq_false_iff_not] at hr
    omega
  simp [execRegisterWrite, h, hr, tlpBytes_aligned ho]

theorem execRegisterWrite_reserved (h : s.reachable p = true) {off width : Nat}
    (hr : s.barReserved p off width = true) (v : BitVec 64) : exec (.registerWrite (.port p) off width v) s =
      .next ((s.hostTlp p 0 (tlpBytes off width)).unclaimed p) := by
  simp [execRegisterWrite, h, hr]

/-- In READY mode a dword of the function's registers is no reserved offset. -/
theorem State.barReserved_fn (hm : s.mode = .ready) {off : Nat} (ha : off % 4 = 0) (ho : off < 0x24) :
    s.barReserved p off 4 = false := by
  have : off / 8 ≠ 131072 := by omega
  simp [State.barReserved, State.isReg, hm, ha, ho, this]

/-- In READY mode GEN and the queue counts of the apportionment view are registers. -/
theorem State.barReserved_view (hm : s.mode = .ready) {off : Nat} (ha : off % 4 = 0) (lo : 0x1000 ≤ off)
    (hi : off < 0x1014) : s.barReserved p off 4 = false := by
  have h1 : off / 8 ≠ 131072 := by omega
  have h2 : off < 0x2000 := by omega
  have h3 : off - 0x1000 < 0x14 := by omega
  simp [State.barReserved, State.isReg, isViewReg, hm, ha, lo, h1, h2, h3]

theorem State.writeBar0_fn {off : Nat} (ho : off < 0x1000) (v : BitVec 32) :
    s.writeBar0 p off v = s.writeFn p off v := by
  simp [State.writeBar0, ho]

theorem State.writeFn_stat (v : BitVec 32) : s.writeFn p 0x0C v =
    s.setPort p { s.port p with events := (s.port p).events &&& ~~~v.setWidth 6 } := rfl

/-- FN_CTL takes its fields, unless it enables a window the port does not have. -/
theorem State.writeFn_ctl (v : BitVec 32) : s.writeFn p 0x08 v =
    if v.getLsbD 8 && (s.port p).bar4Log2 = 0 then s.fnRefused p
    else s.setPort p { s.port p with bar4En := v.getLsbD 8, evtEn := v.setWidth 6 } := rfl

theorem setWidth32_getLsbD_8 (v : BitVec 64) : (v.setWidth 32).getLsbD 8 = v.getLsbD 8 := by
  rw [BitVec.getLsbD_setWidth]; simp

theorem setWidth_32_6 (v : BitVec 64) : (v.setWidth 32).setWidth 6 = v.setWidth 6 :=
  BitVec.setWidth_setWidth_of_le v (by decide)

/-- The read-only registers of a function and the apportionment view keep what they hold. -/
theorem State.writeBar0_readOnly {off : Nat} (ho : off ∈ [0x00, 0x04, 0x10, 0x14, 0x1C, 0x1000, 0x1004])
    (v : BitVec 32) : s.writeBar0 p off v = s := by
  simp only [List.mem_cons, List.not_mem_nil, or_false] at ho
  rcases ho with rfl | rfl | rfl | rfl | rfl | rfl | rfl <;> rfl

theorem State.barReserved_readOnly (hm : s.mode = .ready) {off : Nat}
    (ho : off ∈ [0x00, 0x04, 0x10, 0x14, 0x1C, 0x1000, 0x1004]) : s.barReserved p off 4 = false := by
  simp only [List.mem_cons, List.not_mem_nil, or_false] at ho
  by_cases h : off < 0x24
  · exact State.barReserved_fn hm (by omega) h
  · exact State.barReserved_view hm (by omega) (by omega) (by omega)

/-! A write of reserved offsets is counted; so is a read of BAR0, which returns 0. -/

theorem execReservedOffsetAccess_bar0 (h : s.reachable p = true) {off width : Nat}
    (hr : s.barReserved p off width = true) :
    exec (.reservedOffsetAccess p 0 off width true) s = .next ((s.hostTlp p 0 (tlpBytes off width)).unclaimed p) ∧
    exec (.reservedOffsetAccess p 0 off width false) s =
      .next (((s.unclaimed p).hostTlp p 1 (tlpBytes off width)).emit (.readData (List.replicate width 0) false)) := by
  constructor <;> simp [execReservedOffsetAccess, h, hr]

theorem execReservedOffsetAccess_bar2_write (h : s.reachable p = true) {off width : Nat}
    (hr : s.bar2Reserved p off width = true) : exec (.reservedOffsetAccess p 2 off width true) s =
      .next ((s.hostTlp p 0 (tlpBytes off width)).unclaimed p) := by
  simp [execReservedOffsetAccess, h, hr]

theorem execReservedOffsetAccess_bar2_read (h : s.reachable p = true) (off width : Nat) :
    exec (.reservedOffsetAccess p 2 off width false) s =
      .next ((s.hostTlp p 1 (tlpBytes off width)).emit (.readData (List.replicate width 0) false)) := by
  simp [execReservedOffsetAccess, h]

/-- In recovery mode BAR2 has no register and BAR0 those of R555. -/
theorem State.reserved_recovery {why : Nat} (h : s.mode = .recovery why) (off width : Nat) :
    s.bar2Reserved p off width = true ∧ (8 ≤ off → off ≠ 0x0C → s.barReserved p off width = true) := by
  refine ⟨by simp [State.bar2Reserved, State.recovering, h], fun lo hne => ?_⟩
  have hreg : s.isReg p off = false := by simp [State.isReg, h, hne]; omega
  simp [State.barReserved, hreg]

/-! ### What is counted -/

/-- A TLP at a port whose link is up counts its bytes for tenant 256 and its dwords in the tap. -/
theorem State.hostTlp_counts (hc : (s.port p).created = true) (hl : (s.port p).linkUp = true) (d n : Nat) :
    (s.hostTlp p d n).view.hardware.get (514 * p + 512 + d) 0 = s.view.hardware.get (514 * p + 512 + d) 0 + n ∧
    ((s.hostTlp p d n).taps.get (2 * p + d) {}).dwords = (s.taps.get (2 * p + d) {}).dwords + n / 4 := by
  simp [State.hostTlp, hc, hl, State.countTlp]

end

section
variable (s : State) (p : Nat)

/-- A vector's message leaves every port but for its own pending bits, and the memory, as they were. -/
theorem State.raiseVector_keeps (v : Nat) :
    (∃ l, (s.raiseVector p v).port p = { s.port p with pba := l }) ∧ (s.raiseVector p v).mem = s.mem ∧
      ∀ r, r ≠ p → (s.raiseVector p v).port r = s.port r := by
  unfold State.raiseVector
  dsimp only
  split
  · exact ⟨⟨_, rfl⟩, rfl, fun _ _ => rfl⟩
  · exact ⟨⟨_, State.setPort_port_self ..⟩, rfl, fun r h => State.setPort_port_other _ _ _ _ h⟩

/-- A port event sets its bit in FN_STAT and changes no other port and no memory. -/
theorem State.portEvent_keeps (bit : Nat) (hb : bit < 6) :
    ((s.portEvent p bit).port p).events.getLsbD bit = true ∧
      ((s.portEvent p bit).port p).unclaimed = (s.port p).unclaimed ∧ (s.portEvent p bit).mem = s.mem ∧
      ∀ r, r ≠ p → (s.portEvent p bit).port r = s.port r := by
  have hset : ((s.port p).events ||| BitVec.ofNat 6 (2 ^ bit)).getLsbD bit = true := by
    rw [BitVec.getLsbD_or, BitVec.getLsbD_ofNat, Nat.testBit_two_pow_self]
    simp [hb]
  unfold State.portEvent
  dsimp only
  split
  case isTrue h => exact ⟨h, rfl, rfl, fun _ _ => rfl⟩
  case isFalse =>
    split
    · obtain ⟨⟨l, hp⟩, hmem, hother⟩ :=
        State.raiseVector_keeps (s.setPort p { s.port p with events := (s.port p).events ||| BitVec.ofNat 6 (2 ^ bit) })
          p 256
      rw [hp, hmem]
      exact ⟨by simpa using hset, by simp, rfl, fun r hr => by rw [hother r hr, State.setPort_port_other _ _ _ _ hr]⟩
    · exact ⟨by simpa using hset, by simp, rfl, fun r hr => State.setPort_port_other _ _ _ _ hr⟩

/-- Below its limit FN_UNCLAIMED counts a reserved access, and UNCLAIMED_HIT sets. -/
theorem State.unclaimed_counts (h : (s.port p).unclaimed ≠ BitVec.allOnes 32) :
    ((s.unclaimed p).port p).unclaimed = (s.port p).unclaimed + 1 ∧
      ((s.unclaimed p).port p).events.getLsbD 4 = true ∧ (s.unclaimed p).mem = s.mem ∧
      ∀ r, r ≠ p → (s.unclaimed p).port r = s.port r := by
  obtain ⟨hev, hun, hmem, hother⟩ :=
    State.portEvent_keeps (s.setPort p { s.port p with unclaimed := (s.port p).unclaimed + 1 }) p 4 (by decide)
  simp only [State.unclaimed, h, if_false]
  exact ⟨by simpa using hun, hev, hmem, fun r hr => by rw [hother r hr, State.setPort_port_other _ _ _ _ hr]⟩

theorem State.unclaimed_saturated (h : (s.port p).unclaimed = BitVec.allOnes 32) : s.unclaimed p = s := by
  simp [State.unclaimed, h]

end

section
variable {s : State}

/-! ### A core's I/O writes -/

theorem execRegisterWrite_core {k port : Nat} (h : s.mayAccess k = true) (hp : port < 4096) (v : BitVec 64) :
    exec (.registerWrite (.core k (s.core k).cur) port 2 v) s =
      .next ((s.settleIo k (s.core k).cur).ioWrite k (s.core k).cur port (v.setWidth 16)) := by
  simp [execRegisterWrite, h, Nat.mod_eq_of_lt hp]

theorem execRegisterWrite_core_denied {k : Nat} (h : s.mayAccess k = false) (c port : Nat) (v : BitVec 64) :
    exec (.registerWrite (.core k c) port 2 v) s = .next s := by
  simp [execRegisterWrite, h]

/-- The secure doorbell and the reserved ports behind it answer context 7 of the system controller alone. -/
theorem State.ioWrite_secure (t : State) {c port : Nat} (hc : c ≠ 7) (lo : 0x280 ≤ port) (hi : port < 0x300)
    (v : Word) : t.ioWrite 48 c port v = t := by
  have hfw : isFirmwarePort 48 port = false := by simp [isFirmwarePort]; omega
  have h1 : ¬ port < 0x100 := by omega
  have h2 : port ≠ 0x100 := by omega
  have h3 : ¬ port < 0x11C := by omega
  have h4 : ¬ port < 0x148 := by omega
  have h5 : ¬ port < 0x20A := by omega
  have h6 : ¬ port < 0x214 := by omega
  have h7 : ¬ 0x300 ≤ port := by omega
  have h8 : ¬ 0x400 ≤ port := by omega
  have h9 : ¬ 0x800 ≤ port := by omega
  simp [State.ioWrite, hfw, State.writeSystem, hc, h1, h2, h3, h4, h5, h6, h7, h8, h9]

end

/-- Settles O57: each clause is the register's own rule above. -/
theorem hostRegistersAreWritten : Obligations.HostRegistersAreWritten := by
  refine ⟨?stat, ?ctl, ?refused, ?readOnly, ?reserved, ?bar2Write, ?bar2Read, ?dwords, ?recovery, ?counted, ?unclaimed,
    ?saturated, ?core, ?secure, ?denied, ?quad⟩
  case stat =>
    rintro s _ p v rfl hr hm
    rw [execRegisterWrite_dword hr (State.barReserved_fn hm (by decide) (by decide)), State.writeBar0_fn (by decide)]
    rw [State.writeFn_stat, setWidth_32_6]
  case ctl =>
    rintro s _ p v rfl hr hm hv
    rw [execRegisterWrite_dword hr (State.barReserved_fn hm (by decide) (by decide)), State.writeBar0_fn (by decide)]
    rw [State.writeFn_ctl, setWidth32_getLsbD_8, setWidth_32_6, hv, Bool.false_and, if_neg Bool.false_ne_true]
  case refused =>
    intro s p v hr hm hv hw
    rw [execRegisterWrite_dword hr (State.barReserved_fn hm (by decide) (by decide)), State.writeBar0_fn (by decide)]
    rw [State.writeFn_ctl, setWidth32_getLsbD_8, hv]
    simp [hw]
  case readOnly =>
    intro s p off v hr hm ho
    rw [execRegisterWrite_dword hr (State.barReserved_readOnly hm ho), State.writeBar0_readOnly ho]
  case reserved =>
    exact fun s p off width v hr hres =>
      ⟨execRegisterWrite_reserved hr hres v, execReservedOffsetAccess_bar0 hr hres⟩
  case bar2Write => exact fun s p off width hr hres => execReservedOffsetAccess_bar2_write hr hres
  case bar2Read => exact fun s p off width hr => execReservedOffsetAccess_bar2_read hr off width
  case dwords => intro addr n; unfold tlpBytes; omega
  case recovery => exact fun s p off width why h => State.reserved_recovery h off width
  case counted =>
    intro s p d n hc hl
    obtain ⟨hbytes, hdwords⟩ := State.hostTlp_counts hc hl d n
    exact ⟨hbytes, hdwords, State.hostTlp_ports .., State.hostTlp_mem ..⟩
  case unclaimed => exact fun s p h => s.unclaimed_counts p h
  case saturated => exact fun s p h => s.unclaimed_saturated p h
  case core => exact fun s k port v h hp => execRegisterWrite_core h hp v
  case secure =>
    intro s port v h hc lo hi
    rw [execRegisterWrite_core h (by omega), State.ioWrite_secure _ hc lo hi]
  case denied => exact fun s k c port v h => execRegisterWrite_core_denied h c port v
  case quad => exact fun s p off v hr hres => execRegisterWrite_quad hr hres v

/-! ### A BAR4 read of a flawed beat -/

/-- Port 0 owns extent 0, reaches it through its window, and has asked for the message of FN_STAT.FB_NOTICE; the first
beat of the extent is poisoned by an uncorrectable on-die ECC error, so that a read of it is recorded (R410, R415). -/
def flawedWindow : State :=
  { mode := .ready
    ports := [(0, { created := true, linkUp := true, bar4En := true, bar4Log2 := 26, evtEn := 4
                    config := [(20, 0x80000000)], msix := [(256, { masked := false })] })]
    extents := [{ first := 0, count := 1, owner := some 0, last := none }]
    poison := [0]
    flaws := [(0, .ecc)] }

/-- The read of one byte answers its data, and the memory event that it records raises the port's vector after it: the
newest outward action is the MSI-X message, not the data. -/
theorem flawedWindow_read :
    ((flawedWindow.bar4 0 false 0 [0]).out.map fun o => decide (o = .msix 0 256 0 0)) = [true, false] := by
  decide +kernel

theorem flawedWindow_bar4Access :
    exec (.bar4Access 0 false 0 [0]) flawedWindow = .next (flawedWindow.bar4 0 false 0 [0]) := rfl

/-- Refutes O31: a BAR4 read does not always answer its data alone. A beat of the range that fails its check records a
memory event in the owner's field book (R410, R415), and the MSI-X message of that event goes out after the data. -/
theorem not_configurationAndBarFourAnswer : ¬ Obligations.ConfigurationAndBarFourAnswer := by
  rintro ⟨-, -, -, -, -, -, hread, -⟩
  obtain ⟨t, ht, -, -, hout⟩ := hread flawedWindow 0 0 [0] (by decide +kernel) (by decide +kernel) rfl (by decide)
    (by decide +kernel) (by decide +kernel) (by decide +kernel) (by decide) (by decide +kernel) (by decide +kernel)
  rw [flawedWindow_bar4Access] at ht
  injection ht with ht
  have hmsg := flawedWindow_read
  rw [ht, hout] at hmsg
  simp at hmsg

/-! ### MCTP control, PLDM monitoring and firmware update -/

section
variable {s : State} {path : MctpPath}

/-- Flash commands are sent out; nothing else of the state changes. -/
theorem State.spi_eq (s : State) (ops : List FlashOp) : ∃ l, s.spi ops = { s with out := l } := by
  unfold State.spi
  induction ops generalizing s with
  | nil => exact ⟨_, rfl⟩
  | cons o ops ih =>
    obtain ⟨l, h⟩ := ih (s.emit (.spi o))
    exact ⟨l, h⟩

@[simp] theorem State.spi_mem (ops : List FlashOp) : (s.spi ops).mem = s.mem := by
  obtain ⟨l, h⟩ := s.spi_eq ops
  rw [h]

@[simp] theorem State.spi_trvs (ops : List FlashOp) : (s.spi ops).trvs = s.trvs := by
  obtain ⟨l, h⟩ := s.spi_eq ops
  rw [h]

@[simp] theorem State.spi_flash (ops : List FlashOp) : (s.spi ops).flash = s.flash := by
  obtain ⟨l, h⟩ := s.spi_eq ops
  rw [h]

/-- The payload of a message is counted, and nothing else. -/
@[simp] theorem State.mctpData_mem (d n : Nat) : (s.mctpData path d n).mem = s.mem := by
  cases path <;> simp [State.mctpData]

@[simp] theorem State.mctpData_trvs (d n : Nat) : (s.mctpData path d n).trvs = s.trvs := by
  cases path <;> simp [State.mctpData]

/-! #### Bytes written one after another to a table -/

/-- Bytes written from a key on. -/
def Tab.setRun {α : Type} (t : Tab α) (base n : Nat) (f : Nat → α) : Tab α :=
  (List.range n).foldl (fun t i => Tab.set t (base + i) (f i)) t

theorem Tab.setRun_succ {α : Type} (t : Tab α) (base n : Nat) (f : Nat → α) :
    Tab.setRun t base (n + 1) f = (Tab.setRun t base n f).set (base + n) (f n) := by
  simp [Tab.setRun, List.range_succ]

/-- They stand where they were written, and every other entry stays. -/
theorem Tab.setRun_find {α : Type} (t : Tab α) (base n a : Nat) (f : Nat → α) :
    (Tab.setRun t base n f).find a = if base ≤ a ∧ a < base + n then some (f (a - base)) else t.find a := by
  induction n with
  | zero => simp [Tab.setRun, show ¬ (base ≤ a ∧ a < base) by omega]
  | succ n ih =>
    rw [Tab.setRun_succ, Tab.find_set, ih]
    by_cases h : a = base + n
    · subst h; simp
    · have : (base ≤ a ∧ a < base + (n + 1)) ↔ (base ≤ a ∧ a < base + n) := by omega
      simp only [h, if_false, this]

/-! #### Who is answered -/

theorem execMctpControl_answered (hs : path ≠ .secure) (h : s.answers path = true) (body : List Byte) :
    exec (.mctpControl path body) s = .next ((s.mctpData path 0 (tlpBytes 0 body.length)).mctpSay path
      (if s.pathPrincipal path && Config.asksIdent body then leBytes 8 0x4B560960A1000000
        else Config.mctpReply body)) := by
  by_cases hid : (s.pathPrincipal path && Config.asksIdent body) = true
  · simp only [exec_mctpControl, execMctpControl, h, hs, hid, if_true, if_false, Bool.not_true, Bool.false_eq_true]
  · simp only [exec_mctpControl, execMctpControl, h, hs, hid, if_false, Bool.not_true, Bool.false_eq_true]

theorem execMctpControl_unanswered (h : s.answers path = false) (body : List Byte) :
    exec (.mctpControl path body) s = .next (s.mctpData path 0 (tlpBytes 0 body.length)) := by
  simp [execMctpControl, h]

theorem State.answers_ready (hm : s.mode = .ready) : s.answers path = s.addressed path := by
  simp [State.answers, hm]

theorem State.answers_recovery {why : Nat} (hm : s.mode = .recovery why) (ha : s.addressed path = true) :
    s.answers path = path.isSmbus := by
  simp [State.answers, hm, ha]

/-- In recovery mode SMBus alone is answered. -/
theorem execMctpControl_recovery {why : Nat} (hm : s.mode = .recovery why) (ha : s.addressed path = true)
    (body : List Byte) : exec (.mctpControl path body) s = .next (if path.isSmbus then s.emit (.mctpReply path
        (if s.pathPrincipal path && Config.asksIdent body then leBytes 8 0x4B560960A1000000 else Config.mctpReply body))
      else s.mctpData path 0 (tlpBytes 0 body.length)) := by
  have hans := State.answers_recovery hm ha
  cases path with
  | smbus a => rw [execMctpControl_answered (by simp) hans]; rfl
  | vdm p => rw [execMctpControl_unanswered hans]; rfl
  | secure => rw [execMctpControl_unanswered hans]; rfl

theorem execPldmMonitoring_ready (hm : s.mode = .ready) (hs : path ≠ .secure) (ha : s.addressed path = true)
    {typ : Nat} (ht : typ = 0 ∨ typ = 2) (sensor : Nat) : exec (.pldmMonitoring path typ sensor) s = .next
      ((s.mctpData path 0 (4 * Config.pldmDwords (leBytes 1 typ ++ leBytes 1 sensor))).mctpSay path (Config.mctpReply
        (leBytes 1 typ ++ leBytes 1 sensor ++ leBytes 2 (BitVec.ofInt 16 (s.sensors.get sensor 0)).toNat ++
          leBytes 1 (sensorState sensor (s.sensors.get sensor 0))))) := by
  have hty : (decide (typ = 0) || decide (typ = 2)) = true := by simpa using ht
  simp only [exec_pldmMonitoring, execPldmMonitoring, hm, hs, ha, hty]
  rfl

/-! #### Firmware update -/

/-- The bytes of the image slots after a write of the spare slot. -/
def Flash.imagesWith (f : Flash) (off : Nat) (bs : List Byte) : Tab (BitVec 8) :=
  Tab.setRun f.images (slotBase (!f.active) + off) bs.length fun i => bs.getD i 0

/-- A write of the spare slot: the bytes take their places in it, and the programming commands go out. -/
theorem execPldmFirmwareUpdate_write (hm : s.mode = .ready) (hp : s.pathPrincipal path = true)
    (ha : s.addressed path = true) {off : Nat} {bs : List Byte} (hlen : off + bs.length ≤ 12 * 2 ^ 20) :
    exec (.pldmFirmwareUpdate path (.write off bs)) s =
      .next ((({ s.mctpData path 0 (4 * Config.pldmDwords (PldmReq.write off bs).tag) with
        flash := { s.flash with images := s.flash.imagesWith off bs } } : State).spi
          (imageOps (slotBase (!s.flash.active) + off) bs)).mctpSay path (Config.mctpReply [0])) := by
  simp only [exec_pldmFirmwareUpdate, execPldmFirmwareUpdate, hm, hp, ha, Nat.not_lt.mpr hlen]
  rfl

theorem execPldmFirmwareUpdate_activate (hm : s.mode = .ready) (hp : s.pathPrincipal path = true)
    (ha : s.addressed path = true) {f : Flash}
    (hf : f = { s.flash with pending := some (!s.flash.active), dirKnown := true }) :
    exec (.pldmFirmwareUpdate path .activate) s = .next
      (((({ s.mctpData path 0 (4 * Config.pldmDwords PldmReq.activate.tag) with flash := f } : State).spi
        f.directoryOps).mctpSay path (Config.mctpReply [1])).restart 0x23) := by
  subst hf
  simp only [exec_pldmFirmwareUpdate, execPldmFirmwareUpdate, hm, hp, ha]
  rfl

theorem execPldmFirmwareUpdate_raiseSvn (hm : s.mode = .ready) (hp : s.pathPrincipal path = true)
    (ha : s.addressed path = true) (hsvn : s.flash.svnMin.toNat < s.flash.svn.toNat) :
    exec (.pldmFirmwareUpdate path .raiseSvn) s = .next
      (({ s.mctpData path 0 (4 * Config.pldmDwords PldmReq.raiseSvn.tag) with
        flash := { s.flash with svnMin := s.flash.svn } } : State).mctpSay path (Config.mctpReply [2])) := by
  simp only [exec_pldmFirmwareUpdate, execPldmFirmwareUpdate, hm, hp, ha, hsvn, if_true]
  rfl

theorem execPldmFirmwareUpdate_denied (hm : s.mode = .ready) (hp : s.pathPrincipal path = false)
    (ha : s.addressed path = true) (r : PldmReq) : exec (.pldmFirmwareUpdate path r) s =
      .next ((s.mctpData path 0 (4 * Config.pldmDwords r.tag)).mctpSay path [2]) := by
  simp [execPldmFirmwareUpdate, hm, hp, ha]

end

/-- Settles O42: who is answered, and what the spare slot takes, by the rules of each request above. -/
theorem managementPathsAnswer : Obligations.ManagementPathsAnswer := by
  refine ⟨?control, ?secure, ?otherAddress, ?recovery, ?monitoring, ?write, ?activate, ?raise, ?denied⟩
  case control =>
    exact fun s path body hm hs ha => execMctpControl_answered hs ((State.answers_ready hm).trans ha) body
  case secure =>
    intro s body hm
    have hans : s.answers .secure = true := State.answers_ready hm
    simp only [exec_mctpControl, execMctpControl, hans]
    rfl
  case otherAddress =>
    intro s a body h
    have hans : s.answers (.smbus a) = false := by simp [State.answers, State.addressed, h]
    exact execMctpControl_unanswered hans body
  case recovery => exact fun s path body why hm ha => execMctpControl_recovery hm ha body
  case monitoring => exact fun s path typ sensor hm hs ha ht => execPldmMonitoring_ready hm hs ha ht sensor
  case write =>
    intro s path off bs hm hp ha hlen
    refine ⟨_, execPldmFirmwareUpdate_write hm hp ha hlen, by simp, by simp, by simp, ?_, ?_⟩
    · intro a h
      rw [State.spi_flash, Flash.imagesWith, Tab.setRun_find, if_neg (by omega)]
    · intro i h
      rw [State.spi_flash, Flash.imagesWith, Tab.setRun_find, if_pos (by omega), Nat.add_sub_cancel_left]
  case activate => exact fun s path f hm hp ha hf => execPldmFirmwareUpdate_activate hm hp ha hf
  case raise => exact fun s path hm hp ha hsvn => execPldmFirmwareUpdate_raiseSvn hm hp ha hsvn
  case denied => exact fun s path r hm hp ha => execPldmFirmwareUpdate_denied hm hp ha r

/-! ### SET-LEVEL -/

section
variable {s : State} {src : KilvorSrc} {fn : Nat} {b : List Byte}

/-- A SET-LEVEL payload with a level and reserved bytes in order, whose parameters its function accepts (R243). -/
def levelOk (ok : List Byte → Bool) (b : List Byte) : Bool :=
  byteAt b 1 < 2 && zeroAt b 2 2 && 4 ≤ b.length && ok b

/-- What a SET-LEVEL that is served at once answers. -/
theorem State.klevel_asked {r : KReq} (hr : s.kreq src = some r) (hs : r.sound = true) (hc : r.code = 0x06)
    (hfn : byteAt r.payload 0 = fn) (ha : s.kAwake src = true) (ok : List Byte → Bool)
    (f : State → List Byte → State) : s.klevel src fn ok f =
      if !s.isPrincipal r then s.kreply src 2 []
      else if !levelOk ok r.payload then s.kreply src 3 []
      else (f s r.payload).kreply src 0 [] := by
  simp only [State.klevel, State.kfor, hr, hs, hc, hfn, State.kasked, State.kwake_awake ha, decide_true, Bool.and_self,
    ne_eq, not_true_eq_false, if_true, if_false]
  rfl

/-- A payload that the function accepts takes effect, and is answered with 0. -/
theorem State.klevel_accepts (h : LevelRequest s src fn b) {ok : List Byte → Bool} (hlen : 4 ≤ b.length)
    (hok : ok b = true) (f : State → List Byte → State) : s.klevel src fn ok f = (f s b).kreply src 0 [] := by
  obtain ⟨⟨r, hr, hs, hc, hp, rfl, hfn, ha⟩, hlvl, hres⟩ := h
  simp [State.klevel_asked hr hs hc hfn ha, hp, levelOk, hlvl, hres, hlen, hok]

/-- Another level than 0 and 1, a reserved byte set and a payload cut short are INVALID. -/
theorem State.klevel_invalid (h : LoadRequest s src 0x06 fn b)
    (hbad : 2 ≤ byteAt b 1 ∨ zeroAt b 2 2 = false ∨ b.length < 4) (ok : List Byte → Bool)
    (f : State → List Byte → State) : s.klevel src fn ok f = s.kreply src 3 [] := by
  obtain ⟨r, hr, hs, hc, hp, rfl, hfn, ha⟩ := h
  have hno : levelOk ok r.payload = false := by
    rcases hbad with h | h | h
    · simp [levelOk, Nat.not_lt.mpr h]
    · simp [levelOk, h]
    · simp [levelOk, Nat.not_le.mpr h]
  simp [State.klevel_asked hr hs hc hfn ha, hp, hno]

/-- Every command of SET-LEVEL is a `klevel` of its function. -/
theorem exec_levelCommand {c : Instr} (h : levelCommand c = some (src, fn)) :
    ∃ ok f, ∀ s, exec c s = .next (s.klevel src fn ok f) := by
  unfold levelCommand at h
  split at h
  case h_10 => cases h
  all_goals
    obtain ⟨rfl, rfl⟩ : _ = src ∧ _ = fn := by simpa using h
    exact ⟨_, _, fun _ => rfl⟩

/-! #### Fields of a payload -/

theorem fieldIn_iff {off n lo hi : Nat} : fieldIn b off n lo hi = true ↔ lo ≤ fieldAt b off n ∧ fieldAt b off n ≤ hi := by
  simp [fieldIn]

/-- A field of one byte is that byte. -/
@[simp] theorem fieldAt_one (b : List Byte) (i : Nat) : fieldAt b i 1 = byteAt b i := by
  unfold fieldAt byteAt
  rw [List.getD_eq_getElem?_getD, ← List.head?_drop]
  cases b.drop i <;> simp [leNat]

theorem outingChoiceOk_length (h : outingChoiceOk b = true) : 4 ≤ b.length := by
  have hlen : b.length = if isExpert b then 44 else 16 := by
    simp only [outingChoiceOk, Bool.and_eq_true, decide_eq_true_eq] at h
    exact h.1.1.1.1
  rw [hlen]; split <;> decide

/-! #### Tables made anew -/

/-- A table that gives every key of a list its value. -/
theorem Tab.find_map_keys {α : Type} (l : List Nat) (f : Nat → α) (k : Nat) :
    Tab.find (l.map fun c => (c, f c)) k = if k ∈ l then some (f k) else none := by
  induction l with
  | nil => rfl
  | cons a l ih =>
    by_cases h : a = k
    · simp [Tab.find, h]
    · simp [Tab.find, h, Ne.symm h, ih]

theorem Tab.get_map_range {α : Type} {n k : Nat} (f : Nat → α) (d : α) (h : k < n) :
    Tab.get ((List.range n).map fun c => (c, f c)) k d = f k := by
  simp [Tab.get, Tab.find_map_keys, h]

theorem Tab.mapVals_id {α : Type} (t : Tab α) : Tab.mapVals t (fun x => x) = t := by
  simp [Tab.mapVals]

/-! #### Links and stacks -/

/-- A chain after its link function has been set: it waits for a port-level reset if the function changed. -/
def linkAsked (g : SasCfg) (c : Nat) (x : SasPort) : SasPort :=
  { x with linkPending := decide ((g.link c).toNat / 16 ≠ x.laneEn.toNat) || decide ((g.link c).toNat % 4 ≠ x.maxRate) }

/-- The chains of a list after a change of the link functions. -/
def State.askLinks (s : State) (l : List Nat) : State :=
  l.foldl (fun (s : State) c => s.modChain c (linkAsked s.manage.sas c)) s

theorem State.askLinks_spec (s : State) (l : List Nat) :
    (s.askLinks l).manage = s.manage ∧ (s.askLinks l).mem = s.mem ∧ (s.askLinks l).trvs = s.trvs ∧
      ∀ c, (s.askLinks l).chain c = if c ∈ l then linkAsked s.manage.sas c (s.chain c) else s.chain c := by
  induction l generalizing s with
  | nil => exact ⟨rfl, rfl, rfl, fun _ => rfl⟩
  | cons a l ih =>
    obtain ⟨hman, hmem, htrv, hchain⟩ := ih (s.modChain a (linkAsked s.manage.sas a))
    refine ⟨hman, hmem, htrv, fun c => (hchain c).trans ?_⟩
    by_cases hc : c = a
    · subst hc; simp [linkAsked]
    · simp [hc]

/-- The link functions that a payload of function 0x20 sets: none at the basic level. -/
def linkTable (b : List Byte) : Tab (BitVec 8) :=
  if isExpert b then (List.range 12).map fun c => (c, BitVec.ofNat 8 (byteAt b (4 + c))) else []

/-- The SAS functions' parameters after a payload of function 0x20. -/
def SasCfg.withLinks (g : SasCfg) (b : List Byte) : SasCfg := { g with expertLink := isExpert b, chainLink := linkTable b }

theorem SasCfg.withLinks_link_basic (g : SasCfg) (hb : isExpert b = false) (c : Nat) :
    (g.withLinks b).link c = 0xF0 := by
  simp [SasCfg.withLinks, SasCfg.link, hb]

theorem SasCfg.withLinks_link_expert (g : SasCfg) (hb : isExpert b = true) {c : Nat} (hc : c < 12) :
    (g.withLinks b).link c = BitVec.ofNat 8 (byteAt b (4 + c)) := by
  simp only [SasCfg.withLinks, SasCfg.link, linkTable, hb, if_true]
  exact Tab.get_map_range (fun c => BitVec.ofNat 8 (byteAt b (4 + c))) 0xF0 hc

/-- A payload of function 0x20: at the expert level each chain has a lane and a rate limit (R274). -/
def linkOk (b : List Byte) : Bool :=
  b.length = (if isExpert b then 16 else 4) && (!isExpert b || (List.range 12).all fun c =>
    byteAt b (4 + c) / 16 ≠ 0 && byteAt b (4 + c) / 4 % 4 = 0 && byteAt b (4 + c) % 4 ≠ 3)

/-- SET_LEVEL_LINK with a payload it accepts: every chain's pending reset follows from its new link function. -/
theorem execSetLevelLink_accepts (h : LevelRequest s src 0x20 b) (hlen : 4 ≤ b.length) (hok : linkOk b = true) :
    ∃ t : State, exec (.setLevelLink src) s = .next (t.kreply src 0 []) ∧
      t.manage.sas = s.manage.sas.withLinks b ∧ t.mem = s.mem ∧ t.trvs = s.trvs ∧
      ∀ c, c < 12 → t.chain c = linkAsked (s.manage.sas.withLinks b) c (s.chain c) := by
  have hexec : exec (.setLevelLink src) s = .next (s.klevel src 0x20 linkOk fun s b =>
    ({ s with manage := { s.manage with sas := s.manage.sas.withLinks b } } : State).askLinks (List.range 12)) := rfl
  obtain ⟨hman, hmem, htrv, hchain⟩ := State.askLinks_spec
    { s with manage := { s.manage with sas := s.manage.sas.withLinks b } } (List.range 12)
  rw [hexec, State.klevel_accepts h hlen hok]
  refine ⟨_, rfl, by rw [hman], hmem, htrv, fun c hc => (hchain c).trans ?_⟩
  rw [if_pos (List.mem_range.mpr hc)]
  rfl

/-- The stacks that a mask no longer lets sleep wake. -/
def State.wakeDisabled (s : State) (mask : Nat) : State :=
  (List.range 4).foldl (fun (s : State) q =>
    if !bitN mask q && (s.quarter q).stack = .selfRefresh then s.wakeStack q else s) s

/-- None wakes when none of those that the mask disables is in self-refresh. -/
theorem State.wakeDisabled_none {mask : Nat}
    (h : ∀ q, q < 4 → bitN mask q = false → (s.quarter q).stack ≠ .selfRefresh) : s.wakeDisabled mask = s := by
  have key : ∀ l : List Nat, (∀ q ∈ l, q < 4) → l.foldl (fun (s : State) q =>
      if !bitN mask q && (s.quarter q).stack = .selfRefresh then s.wakeStack q else s) s = s := by
    intro l hl
    induction l with
    | nil => rfl
    | cons q l ih =>
      have hq : (!bitN mask q && decide ((s.quarter q).stack = .selfRefresh)) = false := by
        cases hb : bitN mask q with
        | true => rfl
        | false => simp [h q (hl q (by simp)) hb]
      rw [List.foldl_cons, hq, if_neg Bool.false_ne_true]
      exact ih fun r hr => hl r (by simp [hr])
  exact key _ fun q hq => List.mem_range.mp hq

/-- A payload of function 0x60 (R419). -/
def stackPowerOk (b : List Byte) : Bool :=
  if isExpert b then
    b.length = 8 && byteAt b 4 / 16 = 0 && byteAt b 4 % 2 = 0 && byteAt b 5 = 0 && fieldIn b 6 2 10 60000
  else b.length = 5 && byteAt b 4 < 2

/-- The stacks that a payload of function 0x60 lets sleep. -/
def stackMaskOf (b : List Byte) : Nat := if isExpert b then byteAt b 4 else if byteAt b 4 = 1 then 0x0E else 0

/-- SET_LEVEL_STACK_POWER with a payload it accepts, while no stack that it disables sleeps. -/
theorem execSetLevelStackPower_accepts (h : LevelRequest s src 0x60 b) (hlen : 4 ≤ b.length)
    (hok : stackPowerOk b = true)
    (hstack : ∀ q, q < 4 → bitN (stackMaskOf b) q = false → (s.quarter q).stack ≠ .selfRefresh) :
    exec (.setLevelStackPower src) s = .next (({ s with manage := { s.manage with
      stackExpert := isExpert b, stackMask := BitVec.ofNat 8 (stackMaskOf b)
      entryMs := if isExpert b then fieldAt b 6 2 else 1000 } } : State).kreply src 0 []) := by
  have hexec : exec (.setLevelStackPower src) s = .next (s.klevel src 0x60 stackPowerOk fun s b =>
    ({ s with manage := { s.manage with
      stackExpert := isExpert b, stackMask := BitVec.ofNat 8 (stackMaskOf b)
      entryMs := if isExpert b then fieldAt b 6 2 else 1000 } } : State).wakeDisabled (stackMaskOf b)) := rfl
  rw [hexec, State.klevel_accepts h hlen hok, State.wakeDisabled_none]
  exact hstack

end

/-- Settles O40: what each function makes of a payload it accepts, by the rule of `klevel`. -/
theorem levelsAreSet : Obligations.LevelsAreSet := by
  refine ⟨?denied, ?choiceBasic, ?countExpert, ?spin, ?linkBasic, ?recoveryBasic, ?tableExpert, ?recipesExpert,
    ?powerBasic, ?wake, ?copyBasic, ?invalid, ?choiceExpert, ?countBasic, ?linkExpert, ?recoveryExpert, ?tableBasic,
    ?recipesBasic, ?powerExpert, ?powerOff, ?copyExpert⟩
  case denied =>
    intro s c src fn r hcmd hr ha hs hc hfn hp
    obtain ⟨ok, f, hexec⟩ := exec_levelCommand hcmd
    rw [hexec, State.klevel_asked hr hs hc hfn ha, hp]
    rfl
  case invalid =>
    intro s c src fn b hcmd h hbad
    obtain ⟨ok, f, hexec⟩ := exec_levelCommand hcmd
    rw [hexec, State.klevel_invalid h hbad]
  case choiceBasic =>
    intro s src b h hok hb
    rw [exec_setLevelOutingChoice, execSetLevelOutingChoice, State.klevel_accepts h (outingChoiceOk_length hok) hok]
    simp [hb]
  case choiceExpert =>
    intro s src b h hok hb
    rw [exec_setLevelOutingChoice, execSetLevelOutingChoice, State.klevel_accepts h (outingChoiceOk_length hok) hok]
    simp [hb]
  case countExpert =>
    intro s src b h hb hlen lo hi
    rw [exec_setLevelShelvesPerChain, execSetLevelShelvesPerChain,
      State.klevel_accepts h (by omega) (by simp [hb, hlen, fieldIn_iff, lo, hi])]
    simp [hb]
  case countBasic =>
    intro s src b h hb hlen
    rw [exec_setLevelShelvesPerChain, execSetLevelShelvesPerChain,
      State.klevel_accepts h (by omega) (by simp [hb, hlen])]
    simp [hb]
  case spin =>
    intro s src b h hlen lo hi h5 ilo ihi
    rw [exec_setLevelSpinUp, execSetLevelSpinUp,
      State.klevel_accepts h (by omega) (by simp [hlen, fieldIn_iff, lo, hi, h5, ilo, ihi])]
  case linkBasic =>
    intro s src b h hb hlen
    obtain ⟨t, hexec, hsas, hmem, htrv, hchain⟩ := execSetLevelLink_accepts h (by omega) (by simp [linkOk, hb, hlen])
    refine ⟨t, hexec, by simp [hsas, SasCfg.withLinks, hb], by simp [hsas, SasCfg.withLinks, linkTable, hb], hmem, htrv,
      fun c hc => (hchain c hc).trans ?_⟩
    simp [linkAsked, SasCfg.withLinks_link_basic _ hb]
  case linkExpert =>
    intro s src b h hb hlen hbytes
    have hok : linkOk b = true := by
      simp only [linkOk, hb, hlen, Bool.not_true, Bool.false_or, Bool.and_eq_true, decide_eq_true_eq, List.all_eq_true,
        List.mem_range, if_true, true_and]
      exact fun c hc => ⟨⟨by have := (hbytes c hc).1; omega, (hbytes c hc).2.1⟩, (hbytes c hc).2.2⟩
    have hlink : ∀ c, c < 12 → ((s.manage.sas.withLinks b).link c).toNat = byteAt b (4 + c) := by
      intro c hc
      rw [SasCfg.withLinks_link_expert _ hb hc, BitVec.toNat_ofNat]
      exact Nat.mod_eq_of_lt (BitVec.isLt _)
    obtain ⟨t, hexec, hsas, hmem, htrv, hchain⟩ := execSetLevelLink_accepts h (by omega) hok
    refine ⟨t, hexec, by simp [hsas, SasCfg.withLinks, hb], hmem, htrv,
      fun c hc => ⟨by rw [hsas, hlink c hc], (hchain c hc).trans ?_⟩⟩
    simp [linkAsked, hlink c hc]
  case recoveryBasic =>
    intro s src b h hb hlen lo hi
    rw [exec_setLevelRecovery, execSetLevelRecovery,
      State.klevel_accepts h (by omega) (by simp [hb, hlen, fieldIn_iff, lo, hi])]
    simp [hb]
  case recoveryExpert =>
    intro s src b h hb hlen c1 c2 t1 t2 n1 n2 r z d1 d2 q1 q2 hports
    have hall : ∀ p, p < 8 → fieldIn b (16 + 2 * p) 2 5 3600 = true := fun p hp => fieldIn_iff.mpr (hports p hp)
    rw [exec_setLevelRecovery, execSetLevelRecovery, State.klevel_accepts h (by omega)
      (by simpa [hb, hlen, fieldIn_iff, c1, c2, t1, t2, n1, n2, r, z, d1, d2, q1, q2] using hall)]
    simp [hb]
  case tableExpert =>
    intro s src b h hlen hb
    rw [exec_setLevelTimetable, execSetLevelTimetable, State.klevel_accepts h (by omega) (by simp [hlen])]
    simp [hb]
  case tableBasic =>
    intro s src b h hlen hb
    rw [exec_setLevelTimetable, execSetLevelTimetable, State.klevel_accepts h (by omega) (by simp [hlen])]
    cases he : s.manage.timetable.expert <;> simp [hb]
  case recipesExpert =>
    intro s src b h hlen hb
    rw [exec_setLevelRecipes, execSetLevelRecipes, State.klevel_accepts h (by omega) (by simp [hlen])]
    simp [hb, Tab.mapVals_id]
  case recipesBasic =>
    intro s src b h hlen hb
    rw [exec_setLevelRecipes, execSetLevelRecipes, State.klevel_accepts h (by omega) (by simp [hlen])]
    simp [hb]
  case powerBasic =>
    intro s src b h hlen hb hone hstack
    rw [execSetLevelStackPower_accepts h (by omega) (by simp [stackPowerOk, hb, hlen, hone])]
    · simp [hb, hone, stackMaskOf]
    · intro q hq hbit
      have hzero : q = 0 := by
        simp only [stackMaskOf, hb, hone] at hbit
        revert q; decide
      exact hzero ▸ hstack
  case powerExpert =>
    intro s src b h hlen hb lt16 even h5 lo hi hstack
    rw [execSetLevelStackPower_accepts h (by omega)
      (by simp [stackPowerOk, hb, hlen, Nat.div_eq_of_lt lt16, even, h5, fieldIn_iff, lo, hi]) fun q hq _ => hstack q hq]
    simp [hb, stackMaskOf]
  case powerOff =>
    intro s src b h hlen hb hzero hstack
    rw [execSetLevelStackPower_accepts h (by omega) (by simp [stackPowerOk, hb, hlen, hzero]) fun q hq _ => hstack q hq]
    simp [hb, hzero, stackMaskOf]
  case wake =>
    intro s q h
    rw [State.wakeStack_selfRefresh h]
    exact ⟨by simp, rfl⟩
  case copyBasic =>
    intro s src b h hlen hb
    rw [exec_setLevelCopy, execSetLevelCopy, State.klevel_accepts h (by omega) (by simp [hb, hlen])]
    simp [hb]
  case copyExpert =>
    intro s src b h hlen hb hports
    rw [exec_setLevelCopy, execSetLevelCopy,
      State.klevel_accepts h (by omega) (by simpa [hb, hlen, fieldIn_iff] using hports)]
    simp [hb]

/-! ### DMA channels -/

section
variable {s : State} {ch : Nat}

@[simp] theorem State.setChannel_setChannel (s : State) (ch : Nat) (x y : DmaChannel) :
    (s.setChannel ch x).setChannel ch y = s.setChannel ch y := by
  simp [State.setChannel]

/-- What a trigger makes of an enabled channel. -/
theorem State.trigger_enabled (h : (s.channel ch).en = true) : s.trigger ch = s.setChannel ch
    (if (s.channel ch).busy = false then { s.channel ch with busy := true }
     else if (s.channel ch).pend < 255 then { s.channel ch with pend := (s.channel ch).pend + 1 }
     else { s.channel ch with overrun := true }) := by
  cases hb : (s.channel ch).busy
  · simp [State.trigger, h, hb]
  · by_cases hp : (s.channel ch).pend < 255 <;> simp [State.trigger, h, hb, hp]

theorem State.trigger_disabled (h : (s.channel ch).en = false) : s.trigger ch = s := by
  simp [State.trigger, h]

theorem execDmaCtlWrite_reserved {v : Word} (hc : ch < 32) (hv : v.extractLsb' 8 2 = 3#2) :
    exec (.dmaCtlWrite ch v) s = .next (s.setChannel ch { s.channel ch with fieldRefused := true }) := by
  simp [execDmaCtlWrite, hv, Nat.not_le.mpr hc]

/-- With no source of triggers an idle channel takes its fields as written. -/
theorem execDmaCtlWrite_idle {v : Word} (hc : ch < 32) (hv : v.extractLsb' 8 2 = 0#2)
    (hb : (s.channel ch).busy = false) : exec (.dmaCtlWrite ch v) s = .next (s.setChannel ch { s.channel ch with
      shadowArm := v.getLsbD 15, auto := v.getLsbD 14, en := v.getLsbD 13, irqDest := v.extractLsb' 11 2
      irqEn := v.getLsbD 10, trigSrc := 0, trigSel := v.extractLsb' 0 5
      pend := if v.getLsbD 13 then (s.channel ch).pend else 0 }) := by
  simp [execDmaCtlWrite, hv, hb, Nat.not_le.mpr hc]

/-! #### A run's start -/

/-- The first hand-over of a run. -/
theorem execDmaRunStart_handOver (hc : ch < 32) (hb : (s.channel ch).busy = true)
    (ho : (s.channel ch).outcome = none) (hr : (s.channel ch).reading = false) (hj : (s.channel ch).copy = none)
    (hd : (s.channel ch).desc = []) :
    exec (.dmaRunStart ch) s = .next ((s.setChannel ch (s.channel ch).handOver).dmaContinue ch) := by
  simp [execDmaRunStart, hb, ho, hr, hj, hd, Nat.not_le.mpr hc]

theorem DmaChannel.handOver_desc {x : DmaChannel} (h : x.shadowArm = true) : x.handOver.desc = descBytes x.shadow := by
  simp [DmaChannel.handOver, h]

/-- A run goes no further than a descriptor after which no other stands to be executed. -/
theorem State.dmaContinue_stop {t : State} (h : s.descRun ch = (t, false)) : s.dmaContinue ch = t := by
  simp [State.dmaContinue, State.dmaGo, h]

@[simp] theorem State.runOver_setChannel (s : State) (ch st resid : Nat) (x : DmaChannel) :
    (s.setChannel ch x).runOver ch st resid =
      s.setChannel ch { x with outcome := some (st, resid), reading := false } := by
  simp [State.runOver]

theorem State.descRun_invalid (h : s.descOk (s.channel ch).desc = false) :
    s.descRun ch = (s.runOver ch 6 (dLen (s.channel ch).desc), false) := by
  simp [State.descRun, h]

theorem State.descOk_dLen {d : List Byte} (h : s.descOk d = true) : 0 < dLen d := by
  simp only [State.descOk, Bool.and_eq_true, decide_eq_true_eq] at h
  obtain ⟨⟨⟨⟨-, hlen⟩, -⟩, -⟩, -⟩ := h
  exact hlen

/-- The last descriptor of a chain ends the run OK when no poisoned beat went to host memory. -/
theorem State.descEnds_last (hp : (s.channel ch).sawPoison = false) (hc : dChain (s.channel ch).desc = false) :
    s.descEnds ch = (s.runOver ch 0 0, false) := by
  simp [State.descEnds, hp, hc]

/-- No read-back follows a write of the stacks. -/
theorem State.descMoved_buf {pos : Nat} (h : dDst (s.channel ch).desc = some (.buf pos)) :
    s.descMoved ch = s.descEnds ch := by
  simp [State.descMoved, h]

/-! #### Writes of the stacks -/

theorem State.readPhys_setChannel (s : State) (ch : Nat) (x : DmaChannel) (addr n : Nat) :
    (s.setChannel ch x).readPhys addr n = s.readPhys addr n := rfl

theorem State.unpark_listed {beat : Nat} (h : (s.parked.find beat).isNone = true) : s.unpark beat = s := if_pos h

theorem State.unpark_parked {beat : Nat} (h : (s.parked.find beat).isNone = false) : s.unpark beat =
    { s with parked := s.parked.erase beat, mem := putRun s.mem (64 * beat) (s.readPhys (64 * beat) 64) } :=
  if_neg (by simp [h])

/-- A write of the stacks leaves every channel as it is, and a channel's registers bear on none. -/
theorem State.unpark_setChannel (s : State) (ch : Nat) (x : DmaChannel) (beat : Nat) :
    (s.setChannel ch x).unpark beat = (s.unpark beat).setChannel ch x := by
  cases h : (s.parked.find beat).isNone with
  | true => rw [State.unpark_listed h, State.unpark_listed (s := s.setChannel ch x) h]
  | false =>
    rw [State.unpark_parked h, State.unpark_parked (s := s.setChannel ch x) h, State.readPhys_setChannel]
    simp only [State.setChannel]

theorem State.writePhys_setChannel (s : State) (ch : Nat) (x : DmaChannel) (addr : Nat) (bs : List Byte) (p : Bool) :
    (s.setChannel ch x).writePhys addr bs p = (s.writePhys addr bs p).setChannel ch x := by
  have hfold := List.foldl_hom (State.setChannel · ch x) (g₁ := State.unpark) (g₂ := State.unpark)
    (l := physBeats addr bs.length) (init := s) fun t b => t.unpark_setChannel ch x b
  simp only [State.writePhys, hfold]
  rfl

theorem State.putMarked_setChannel (s : State) (ch : Nat) (x : DmaChannel) (pl : Place) (off : Nat)
    (l : List (Byte × Bool)) : (s.setChannel ch x).putMarked pl off l = (s.putMarked pl off l).setChannel ch x := by
  unfold State.putMarked
  exact List.foldl_hom (State.setChannel · ch x) fun t i => t.writePhys_setChannel ch x ..

/-- Nothing goes out of the device as the stacks are written. -/
theorem State.writePhys_out (s : State) (addr : Nat) (bs : List Byte) (p : Bool) :
    (s.writePhys addr bs p).out = s.out := by
  have hunpark : ∀ (t : State) (b : Nat), (t.unpark b).out = t.out := by
    intro t b; unfold State.unpark; split <;> rfl
  unfold State.writePhys
  dsimp only
  induction physBeats addr bs.length generalizing s with
  | nil => rfl
  | cons b l ih => rw [List.foldl_cons, ih, hunpark]

theorem State.putMarked_out (s : State) (pl : Place) (off : Nat) (l : List (Byte × Bool)) :
    (s.putMarked pl off l).out = s.out := by
  unfold State.putMarked
  generalize beatCuts (l.length + 1) (pl.offset + off) 0 l.length = cuts
  induction cuts generalizing s with
  | nil => rfl
  | cons c cuts ih => rw [List.foldl_cons, ih, State.writePhys_out]

/-! #### A fill -/

theorem fillBytes_take (pat : List Byte) (n : Nat) : (fillBytes pat n).take n = fillBytes pat n :=
  List.take_of_length_le (by simp [fillBytes])

/-- The hand-over state `s.setChannel ch x` of a fill of ACTIVE stacks, whose descriptor is the run's last: the pattern
is written from the first byte, and the run has ended. -/
theorem State.descRun_fill {x : DmaChannel} {pos : Nat} (hok : s.descOk x.desc = true) (hw : x.written = 0)
    (hp : x.sawPoison = false) (hf : dFill x.desc = true) (hs : dStop x.desc = false) (hc : dChain x.desc = false)
    (hd : dDst x.desc = some (.buf pos)) (hstack : ∀ q, (s.quarter q).stack = .active) :
    (s.setChannel ch x).descRun ch =
      ((s.putMarked (.buf pos) 0 (fillBytes (x.desc.take 8) (dLen x.desc))).setChannel ch
        { x with written := dLen x.desc, outcome := some (0, 0), reading := false }, false) := by
  have hok' : (s.setChannel ch x).descOk x.desc = true := hok
  have hlen : x.written ≠ dLen x.desc := by have := State.descOk_dLen hok; omega
  have hreach : ∀ qs, (s.setChannel ch x).reach qs = (s.setChannel ch x, true) :=
    fun qs => State.reach_active fun q _ => hstack q
  simp only [State.descRun, State.setChannel_channel_self, hok', hlen, hd, hf, hs, hreach]
  simp only [Place.isHost, Option.map_none, Option.getD_none, Bool.or_self, Bool.false_and, Bool.not_true,
    Bool.false_eq_true, if_false, if_true, lt_irrefl, fillBytes_take, Bool.or_false]
  rw [State.putMarked_setChannel, State.modChannel_eq, State.setChannel_channel_self, State.setChannel_setChannel,
    State.descMoved_buf (pos := pos) (by simpa using hd), State.descEnds_last (by simpa using hp) (by simpa using hc),
    State.runOver_setChannel]

/-! #### A run's end -/

theorem DmaChannel.nextRun_irqEn (x : DmaChannel) : x.nextRun.irqEn = x.irqEn := by
  unfold DmaChannel.nextRun; dsimp only; split_ifs <;> rfl

theorem DmaChannel.nextRun_count (x : DmaChannel) : x.nextRun.count = x.count := by
  unfold DmaChannel.nextRun; dsimp only; split_ifs <;> rfl

theorem State.dmaIrq_off (h : (s.channel ch).irqEn = false) : s.dmaIrq ch = s := by
  simp [State.dmaIrq, h]

theorem State.serveCopies_nil (h : s.copyQueue = []) : s.serveCopies = s := by
  simp [State.serveCopies, h]

/-- The end of a run that failed, on a channel that interrupts nobody. -/
theorem State.reportRun_failed {st : Nat} (hst : st ≠ 0) {x : DmaChannel} (hx : x.irqEn = false) (resid : Nat) :
    s.reportRun ch x st resid = s.setChannel ch { x with
      status := BitVec.ofNat 4 st, resid := BitVec.ofNat 24 resid, done := true, count := x.count + 1 } := by
  simp only [State.reportRun, hst, if_false]
  exact State.dmaIrq_off (by simpa using hx)

theorem execDmaRunEnd_failed {st resid : Nat} (ho : (s.channel ch).outcome = some (st, resid)) (hst : st ≠ 0)
    (hj : (s.channel ch).copy = none) (hi : (s.channel ch).irqEn = false) (hq : s.copyQueue = []) :
    exec (.dmaRunEnd ch) s = .next (s.setChannel ch { (s.channel ch).nextRun with
      status := BitVec.ofNat 4 st, resid := BitVec.ofNat 24 resid, done := true
      count := (s.channel ch).count + 1 }) := by
  have hreport := State.reportRun_failed (s := s) (ch := ch) hst ((s.channel ch).nextRun_irqEn.trans hi) resid
  simp only [exec_dmaRunEnd, execDmaRunEnd, ho, hj, hreport, DmaChannel.nextRun_count]
  exact congrArg _ (State.serveCopies_nil hq)

/-- A COPY leg for which no channel is free waits. -/
theorem State.serveCopies_waits {j : CopyJob} (h : s.copyQueue = [j]) (hj : s.copyChannel j = none) :
    s.serveCopies = s := by
  simp [State.serveCopies, h, hj]

end

/-! ### Reads of host memory -/

section
variable {s : State} {p id : Nat} {r : HostRead}

/-- The read that a number names, once it has gone out, is the one in flight under that number. -/
theorem find_sent {l : List HostRead} (h : l.find? (fun r => r.id = id) = some r) (hs : r.sent = true) :
    l.find? (fun r => r.id = id && r.sent) = some r := by
  obtain ⟨hid, as, bs, rfl, hbefore⟩ := List.find?_eq_some_iff_append.mp h
  refine List.find?_eq_some_iff_append.mpr ⟨by simpa [hs] using hid, as, bs, rfl, fun a ha => ?_⟩
  have hne := hbefore a ha
  simp only [Bool.not_eq_true'] at hne ⊢
  rw [hne, Bool.false_and]

theorem State.endRead_sent (h : (s.port p).reads.find? (fun r => r.id = id && r.sent) = some r) (e : ReadEnd) :
    s.endRead p id e = (((s.countRead p r e).modPort p fun x =>
      { x with reads := x.reads.filter fun u => decide (u.id ≠ id) }).sendRead p).readEnds p r e := by
  simp only [State.endRead, h]

theorem State.endRead_none (h : (s.port p).reads.find? (fun r => r.id = id && r.sent) = none) (e : ReadEnd) :
    s.endRead p id e = s := by
  simp only [State.endRead, h]

theorem State.readLen_eq (h : (s.port p).reads.find? (fun r => r.id = id) = some r) :
    s.readLen p id = some r.len := by
  simp only [State.readLen, h, Option.map_some]

theorem execHostReadTimeout_enabled (h : bitN ((s.port p).cfg 38) 4 = false) :
    exec (.hostReadTimeout p id) s = .next (s.endRead p id none) := by
  simp [execHostReadTimeout, h]

/-- With as many reads in flight as the port's tags allow, a further one waits. -/
theorem State.issueRead_full (h : (s.port p).tagLimit ≤ (s.port p).inFlight) (addr len : Nat) (why : ReadPurpose) :
    s.issueRead p addr len why = ({ s with seqNo := s.seqNo + 1 } : State).setPort p { s.port p with
      reads := (s.port p).reads ++
        [{ id := s.seqNo, addr, len, purpose := why, sent := false, tenant := s.readTenant p why }] } := by
  have hsent : decide ((s.port p).inFlight < (s.port p).tagLimit) = false := by simpa using h
  simp only [State.issueRead, hsent]
  rfl

end

/-- Settles O29: channels and timers by their rules, a run's first descriptor by `descRun`, and the reads by the one
rule of `endRead`. -/
theorem dmaChannelsAndHostReadsRun : Obligations.DmaChannelsAndHostReadsRun := by
  refine ⟨?go, ?goOff, ?ctl, ?ctlReserved, ?invalid, ?fill, ?runEnd, ?timerOn, ?timerRefused, ?timerFire, ?copy, ?data,
    ?otherData, ?timeout, ?noRead, ?noTimeout, ?full, ?fetch⟩
  case go =>
    intro s ch v hc hv he
    rw [exec_dmaGoWrite, execDmaGoWrite, if_pos (by simp only [hc, hv]; rfl), State.trigger_enabled he]
  case goOff =>
    intro s ch v he
    rw [exec_dmaGoWrite, execDmaGoWrite, State.trigger_disabled he, ite_self]
  case ctl => exact fun s ch v hc hv hb => execDmaCtlWrite_idle hc hv hb
  case ctlReserved => exact fun s ch v hc hv => execDmaCtlWrite_reserved hc hv
  case invalid =>
    intro s ch hc hb ho hr hj hd hsh hbad
    have hdesc := DmaChannel.handOver_desc hsh
    have hrun := State.descRun_invalid (s := s.setChannel ch (s.channel ch).handOver) (ch := ch)
      (by rw [State.setChannel_channel_self, hdesc]; exact hbad)
    rw [State.setChannel_channel_self, hdesc, State.runOver_setChannel] at hrun
    rw [execDmaRunStart_handOver hc hb ho hr hj hd, State.dmaContinue_stop hrun]
  case fill =>
    rintro s ch _ pos hc hb ho hr hj hd hsh rfl hok hf hs hch hdst hstack
    have hdesc := DmaChannel.handOver_desc hsh
    rw [← hdesc] at hok hf hs hch hdst ⊢
    have hrun := State.descRun_fill (ch := ch) hok rfl rfl hf hs hch hdst hstack
    refine ⟨_, _, (execDmaRunStart_handOver hc hb ho hr hj hd).trans (congrArg _ (State.dmaContinue_stop hrun)),
      State.setChannel_channel_self .., rfl, rfl, rfl, ?_, ?_⟩
    · rw [State.setChannel_out, State.putMarked_out]
    · rw [State.setChannel_mem, State.reach_active fun q _ => hstack q]
  case runEnd => exact fun s ch st resid ho hst hj hi hq => execDmaRunEnd_failed ho hst hj hi hq
  case timerOn =>
    intro s n v hn hv hp
    rw [exec_dmaTimerCtlWrite, execDmaTimerCtlWrite, if_neg (Nat.not_le.mpr hn)]
    simp only [hv, hp, decide_false, Bool.and_false, Bool.false_eq_true, if_false]
  case timerRefused =>
    intro s n v hn hv hp he
    rw [exec_dmaTimerCtlWrite, execDmaTimerCtlWrite, if_neg (Nat.not_le.mpr hn)]
    simp only [hv, hp, he, decide_true, Bool.and_true, Bool.not_false, if_true]
  case timerFire =>
    intro s n hn he
    have hruns : (decide (16 ≤ n) || !(s.timers.get n {}).en) = false := by rw [he]; simpa using hn
    rw [exec_dmaTimerFire, execDmaTimerFire, hruns, if_neg Bool.false_ne_true]
  case copy =>
    intro s p tag v h hq hj
    rw [exec_legCopy, execLegCopy, State.perform_atLeg h, hq]
    exact congrArg _ (State.serveCopies_waits rfl hj)
  case data =>
    intro s p id r bs bad h hs hlen
    rw [exec_hostReadCompletion, execHostReadCompletion]
    simp only [State.readLen_eq h, hlen, if_true]
    rw [State.endRead_sent (find_sent h hs)]
    rfl
  case otherData =>
    intro s p id r bs bad h hlen
    simp only [exec_hostReadCompletion, execHostReadCompletion, State.readLen_eq h, Option.some.injEq, Ne.symm hlen,
      if_false]
  case timeout =>
    intro s p id r hen h
    exact ⟨(execHostReadTimeout_enabled hen).trans (congrArg _ (State.endRead_sent h none)),
      (execHostReadTimeout_enabled hen).symm, (execHostReadTimeout_enabled hen).symm⟩
  case noRead =>
    intro s p id h
    rw [exec_hostReadTimeout, execHostReadTimeout, State.endRead_none h, ite_self]
  case noTimeout =>
    intro s p id h
    rw [exec_hostReadTimeout, execHostReadTimeout, if_pos h]
  case full =>
    intro s p addr len why h
    rw [State.issueRead_full h, State.setPort_port_self]
    exact ⟨rfl, rfl⟩
  case fetch => exact fun bs => ⟨rfl, rfl, rfl⟩

end Sys2Proof.Machine

/-! PROOFS. The architecture: completions on their way to the host, admission and binding of traverses, the timetable
and stack power. -/

namespace Sys2Proof.Machine

/-! ### Telling of an event -/

/-- `t` differs from `s` in nothing but what tells of an event: registers and books of ports and quarters, the state of
stacks, channels and interrupts, counts of traffic, and what is sent out. Traverses, reservations, completions and
buffer memory are as they were. -/
def State.OnlyTells (s t : State) : Prop :=
  ∃ ports quarters cores dma deviceBook view taps out,
    t = { s with ports := ports, quarters := quarters, cores := cores, dma := dma, deviceBook := deviceBook,
                 view := view, taps := taps, out := out }

section
variable {s t u : State}

theorem State.OnlyTells.refl (s : State) : s.OnlyTells s := ⟨_, _, _, _, _, _, _, _, rfl⟩

theorem State.OnlyTells.trans (h : s.OnlyTells t) (k : t.OnlyTells u) : s.OnlyTells u := by
  obtain ⟨_, _, _, _, _, _, _, _, rfl⟩ := h
  obtain ⟨_, _, _, _, _, _, _, _, rfl⟩ := k
  exact ⟨_, _, _, _, _, _, _, _, rfl⟩

theorem State.OnlyTells.foldl {α : Type} {f : State → α → State} (h : ∀ s a, State.OnlyTells s (f s a)) (l : List α)
    (s : State) : s.OnlyTells (l.foldl f s) := by
  induction l generalizing s with
  | nil => exact .refl s
  | cons a l ih => exact (h s a).trans (ih _)

theorem State.OnlyTells.mem (h : s.OnlyTells t) : t.mem = s.mem := by obtain ⟨_, _, _, _, _, _, _, _, rfl⟩ := h; rfl
theorem State.OnlyTells.poison (h : s.OnlyTells t) : t.poison = s.poison := by
  obtain ⟨_, _, _, _, _, _, _, _, rfl⟩ := h; rfl
theorem State.OnlyTells.trvs (h : s.OnlyTells t) : t.trvs = s.trvs := by obtain ⟨_, _, _, _, _, _, _, _, rfl⟩ := h; rfl
theorem State.OnlyTells.admitting (h : s.OnlyTells t) : t.admitting = s.admitting := by
  obtain ⟨_, _, _, _, _, _, _, _, rfl⟩ := h; rfl
theorem State.OnlyTells.extents (h : s.OnlyTells t) : t.extents = s.extents := by
  obtain ⟨_, _, _, _, _, _, _, _, rfl⟩ := h; rfl
theorem State.OnlyTells.collector (h : s.OnlyTells t) : t.collector = s.collector := by
  obtain ⟨_, _, _, _, _, _, _, _, rfl⟩ := h; rfl
theorem State.OnlyTells.released (h : s.OnlyTells t) : t.released = s.released := by
  obtain ⟨_, _, _, _, _, _, _, _, rfl⟩ := h; rfl

end

section
variable (s : State)

theorem State.setPort_tells (p : Nat) (x : Port) : s.OnlyTells (s.setPort p x) := ⟨_, _, _, _, _, _, _, _, rfl⟩
theorem State.modPort_tells (p : Nat) (f : Port → Port) : s.OnlyTells (s.modPort p f) := s.setPort_tells p _
theorem State.setQuarter_tells (q : Nat) (x : Quarter) : s.OnlyTells (s.setQuarter q x) := ⟨_, _, _, _, _, _, _, _, rfl⟩
theorem State.modCore_tells (k : Nat) (f : Core → Core) : s.OnlyTells (s.modCore k f) := ⟨_, _, _, _, _, _, _, _, rfl⟩
theorem State.setChannel_tells (ch : Nat) (x : DmaChannel) : s.OnlyTells (s.setChannel ch x) :=
  ⟨_, _, _, _, _, _, _, _, rfl⟩
theorem State.emit_tells (o : Output) : s.OnlyTells (s.emit o) := ⟨_, _, _, _, _, _, _, _, rfl⟩
theorem State.countTlp_tells (p d tenant n : Nat) : s.OnlyTells (s.countTlp p d tenant n) :=
  ⟨_, _, _, _, _, _, _, _, rfl⟩
theorem State.irq_tells (k src : Nat) : s.OnlyTells (s.irq k src) := s.modCore_tells k _
theorem State.toDevice_tells (typ source : Nat) (payload : List Nat) : s.OnlyTells (s.toDevice typ source payload) :=
  ⟨_, _, _, _, _, _, _, _, rfl⟩
theorem State.toQuarter_tells (typ source : Nat) (payload : List Nat) (q : Nat) :
    s.OnlyTells (s.toQuarter typ source payload q) := (s.setQuarter_tells q _).trans (State.irq_tells _ _ _)

/-- A vector's message that can be sent goes out. -/
theorem State.raiseVector_sent {p v : Nat} (h : (s.port p).canSend v = true) : s.raiseVector p v =
    (s.countTlp p 1 256 4).emit (.msix p v ((s.port p).msix.get v {}).addr ((s.port p).msix.get v {}).data) := by
  simp [State.raiseVector, h]

/-- One that cannot be sent sets its pending bit. -/
theorem State.raiseVector_held {p v : Nat} (h : (s.port p).canSend v = false) :
    s.raiseVector p v = s.setPort p { s.port p with pba := setMember (s.port p).pba v true } := by
  simp [State.raiseVector, h]

theorem State.raiseVector_tells (p v : Nat) : s.OnlyTells (s.raiseVector p v) := by
  cases h : (s.port p).canSend v with
  | true => rw [s.raiseVector_sent h]; exact (s.countTlp_tells ..).trans (State.emit_tells _ _)
  | false => rw [s.raiseVector_held h]; exact s.setPort_tells ..

theorem State.portEvent_tells (p bit : Nat) : s.OnlyTells (s.portEvent p bit) := by
  unfold State.portEvent
  dsimp only
  split
  · exact .refl s
  · split
    · exact (s.setPort_tells ..).trans (State.raiseVector_tells ..)
    · exact s.setPort_tells ..

theorem State.toPort_tells (typ source : Nat) (payload : List Nat) (p : Nat) :
    s.OnlyTells (s.toPort typ source payload p) := (s.setPort_tells p _).trans (State.portEvent_tells ..)

theorem State.memoryEvent_tells (q ev handle off : Nat) : s.OnlyTells (s.memoryEvent q ev handle off) := by
  have hbooks : ∀ typ source payload, s.OnlyTells ((s.toQuarter typ source payload q).toDevice typ source payload) :=
    fun typ source payload => (s.toQuarter_tells ..).trans (State.toDevice_tells ..)
  unfold State.memoryEvent
  dsimp only
  split
  · exact (hbooks _ _ _).trans (State.toPort_tells ..)
  · exact hbooks _ _ _

theorem State.met_tells (read : Nat → Bool) : s.OnlyTells (s.met read) :=
  .foldl (fun s _ => s.memoryEvent_tells ..) _ s

theorem State.wakeStack_tells (q : Nat) : s.OnlyTells (s.wakeStack q) := by
  unfold State.wakeStack
  split
  · exact .refl s
  · exact .refl s
  · exact s.setQuarter_tells ..
  · exact s.setQuarter_tells ..

theorem State.wakeStacks_tells (qs : List Nat) : s.OnlyTells (qs.foldl (fun (s : State) q => s.wakeStack q) s) :=
  .foldl (fun s q => s.wakeStack_tells q) qs s

theorem State.readable_tells (pos n : Nat) : s.OnlyTells (s.readable pos n).1 := by
  have hreach : s.OnlyTells (s.reach (bufQuarters pos n)).1 := s.wakeStacks_tells _
  unfold State.readable
  dsimp only
  split
  · exact hreach.trans (State.met_tells ..)
  · exact hreach

end

/-! ### Traverses found and replaced -/

section
variable {s : State} {v : Trv}

theorem State.withTrv_found {p tag : Nat} (h : s.trv? p tag = some v) (f : Trv → State) : s.withTrv p tag f = f v := by
  simp only [State.withTrv, h]

/-- A record put in the place of one of the same port and tag is there. -/
theorem State.mem_putTrv {u : Trv} (h : v ∈ s.trvs) (hp : v.port = u.port) (ht : v.tag = u.tag) :
    u ∈ (s.putTrv u).trvs :=
  List.mem_map.mpr ⟨v, h, if_pos ⟨hp, ht⟩⟩

end

/-! ### Binding -/

section
variable {s : State} {v : Trv} {e : Nat}

theorem State.bindOrWake_ready (h : s.stacksReady v (quarterOfParty (partyOfEngine e)) = true) :
    s.bindOrWake v e = s.bindTo v e := if_pos h

/-- An engine with fewer than 32 subchannels in use has a lowest free one. -/
theorem State.freeSub (h : (s.busySubs e).length < 32) :
    ∃ c, ((List.range 32).find? fun c => !(s.busySubs e).contains c) = some c ∧ c < 32 ∧ c ∉ s.busySubs e ∧
      ∀ d, d < c → d ∈ s.busySubs e := by
  cases hf : (List.range 32).find? fun c => !(s.busySubs e).contains c with
  | some c =>
    obtain ⟨hfree, hlt, hbelow⟩ := List.find?_range_eq_some.mp hf
    exact ⟨c, rfl, List.mem_range.mp hlt, by simpa using hfree, by simpa using hbelow⟩
  | none =>
    have hall : List.range 32 ⊆ s.busySubs e := fun c hc => by simpa using List.find?_eq_none.mp hf c hc
    have := (List.nodup_range.subperm hall).length_le
    rw [List.length_range] at this
    omega

/-- The beats of an entry of the parked-traverse region are those of its 256 bytes. -/
theorem mem_entryBeats {n b : Nat} :
    b ∈ entryBeats n ↔ (parkedBase + 256 * n) / 64 ≤ b ∧ 64 * b < parkedBase + 256 * n + 256 := by
  simp only [entryBeats, parkedBase, List.mem_map, List.mem_range]
  constructor
  · rintro ⟨i, hi, rfl⟩
    omega
  · intro h
    exact ⟨b - (0xB80000000 + 256 * n) / 64, by omega, by omega⟩

theorem inFirmware_entryBeats {n b : Nat} (hn : n < 65536) (hb : b ∈ entryBeats n) : inFirmware b = true := by
  rw [mem_entryBeats, parkedBase] at hb
  simp only [inFirmware, Bool.and_eq_true, decide_eq_true_eq]
  omega

/-- Reading back an entry with a poisoned beat is CONTROL-POISON at such a beat. -/
theorem State.firmwareRead_entry {n b : Nat} (hn : n < 65536) (hb : b ∈ entryBeats n) (hp : b ∈ s.poison) :
    ∃ b, b ∈ entryBeats n ∧ b ∈ s.poison ∧
      s.firmwareRead (parkedBase + 256 * n) 256 = (s.beatEvent 0x04 b).startDevice 0x11 none := by
  cases hf : s.poison.find? fun b => inFirmware b && (parkedBase + 256 * n) / 64 ≤ b && 64 * b < parkedBase + 256 * n + 256 with
  | some c =>
    have hc := List.find?_some hf
    simp only [Bool.and_eq_true, decide_eq_true_eq, and_assoc] at hc
    exact ⟨c, mem_entryBeats.mpr hc.2, List.mem_of_find?_eq_some hf, by simp only [State.firmwareRead, hf]⟩
  | none =>
    have hno := List.find?_eq_none.mp hf b hp
    rw [mem_entryBeats] at hb
    simp [inFirmware_entryBeats hn (mem_entryBeats.mpr hb), hb] at hno

/-- A traverse whose parked state is sound runs at the lowest free subchannel. -/
theorem State.bindTo_sound (hl : s.entryLost v = false) {c : Nat}
    (hc : ((List.range 32).find? fun c => !(s.busySubs e).contains c) = some c) :
    ∃ t, s.OnlyTells t ∧ s.bindTo v e = t.putTrv { v with
      state := .running, bound := some (e, c), readyParty := none, rebindChain := none, fetched := [],
      fetching := false, entry := none } := by
  refine ⟨_, ?_, by simp only [State.bindTo, hc, hl, Bool.false_eq_true, if_false]; rfl⟩
  exact .foldl (fun s i => s.modCore_tells ..) _ s

theorem State.bindTo_lost (hf : (s.busySubs e).length < 32) {n : Nat} (hn : v.entry = some n)
    (hl : s.entryLost v = true) : s.bindTo v e = s.firmwareRead (parkedBase + 256 * n) 256 := by
  obtain ⟨c, hc, -⟩ := State.freeSub hf
  simp only [State.bindTo, hc, hl, if_true, hn, Option.getD_some]

end

/-- Settles O11: an engine with fewer than 32 subchannels in use has a lowest free one (`State.freeSub`), and a lost
entry is met by the read-back of its 256 bytes. -/
theorem readyTraversesAreBound : Obligations.ReadyTraversesAreBound := by
  refine ⟨?bound, ?listed, ?engine, ?running, ?lost⟩
  case bound =>
    intro s p tag e v hv hs hr hc he hq
    rw [exec_bind, execBind, State.withTrv_found hv]
    simp [hs, hr, hc, he, State.bindOrWake_ready hq]
  case listed =>
    intro s p tag v hv hs hr hc he
    rw [exec_bind, execBind, State.withTrv_found hv]
    simp [hs, hr, hc, he]
  case engine =>
    intro s e v hv hf hq
    simp only [exec_bind, execBind, hv, hf, if_true, State.bindOrWake_ready hq]
  case running =>
    intro s v e hv hf hl
    obtain ⟨c, hc, hfree⟩ := State.freeSub hf
    obtain ⟨t, ht, hb⟩ := State.bindTo_sound hl hc
    rw [hb]
    exact ⟨_, State.mem_putTrv (v := v) (ht.trvs ▸ hv) rfl rfl, rfl, rfl, rfl, ⟨c, rfl, hfree⟩, ht.mem⟩
  case lost =>
    intro s v e n hf hn hlt hl
    rw [State.bindTo_lost hf hn hl]
    obtain ⟨b, hb, hp⟩ : ∃ b ∈ entryBeats n, b ∈ s.poison := by simpa [State.entryLost, hn] using hl
    exact State.firmwareRead_entry hlt hb hp

/-! ### Admission

What ADMISSION does with the START whose turn it is: one lemma for each stage the START can stand at. -/

section
variable {s : State} {a : Admitting}

theorem execAdmission_fault {st : BitVec 8} (h : s.nextAdmit = some a) (hf : a.fault = some st) :
    exec .admission s = .next (s.admitRefuse a st) := by
  simp only [exec_admission, execAdmission, h, hf]

theorem execAdmission_header {b : List Byte} (h : s.nextAdmit = some a) (hf : a.fault = none)
    (hh : a.header = some b) : exec .admission s = .next (s.admitHeader a b) := by
  simp only [exec_admission, execAdmission, h, hf, hh]

theorem execAdmission_quota (h : s.nextAdmit = some a) (hf : a.fault = none) (hh : a.header = none)
    (hq : (s.port a.port).ap.trvQuota ≤ s.liveCount a.port) :
    exec .admission s = .next (s.admitRefuse a stAdmissionRefused) := by
  simp only [exec_admission, execAdmission, h, hf, hh, hq, if_true]

theorem execAdmission_host (h : s.nextAdmit = some a) (hf : a.fault = none) (hh : a.header = none)
    (hq : s.liveCount a.port < (s.port a.port).ap.trvQuota) (hb : isBufAddr (entryAddr a.entry 8) = false)
    (hr : (s.port a.port).canRead = true) : exec .admission s = .next
      ((s.putAdmit a { a with reading := true }).issueRead a.port (entryAddr a.entry 8).toNat 64 .header) := by
  simp [execAdmission, h, hf, hh, Nat.not_le.mpr hq, hb, hr]

/-- The header in buffer memory is read once its stack can be read. -/
theorem execAdmission_buffer (h : s.nextAdmit = some a) (hf : a.fault = none) (hh : a.header = none)
    (hq : s.liveCount a.port < (s.port a.port).ap.trvQuota) (hb : isBufAddr (entryAddr a.entry 8) = true) :
    exec .admission s = .next (s.whenReadable (bufPos (entryAddr a.entry 8)) 64 fun s =>
      if s.poisoned (bufPos (entryAddr a.entry 8)) 64 then s.admitRefuse a stFetchPoison
      else (s.putAdmit a { a with header := some (s.readBuf (bufPos (entryAddr a.entry 8)) 64) }).admitHeader
        { a with header := some (s.readBuf (bufPos (entryAddr a.entry 8)) 64) }
        (s.readBuf (bufPos (entryAddr a.entry 8)) 64)) := by
  simp [execAdmission, h, hf, hh, Nat.not_le.mpr hq, hb]

/-- What looks at nothing but memory, poison marks and extents sees no difference. -/
theorem State.OnlyTells.readBuf {s t : State} (h : s.OnlyTells t) (pos n : Nat) : t.readBuf pos n = s.readBuf pos n := by
  simp only [State.readBuf, h.mem]

theorem State.OnlyTells.poisoned {s t : State} (h : s.OnlyTells t) (pos n : Nat) :
    t.poisoned pos n = s.poisoned pos n := by
  simp only [State.poisoned, State.firstPoison, h.poison]

theorem State.OnlyTells.foreign {s t : State} (h : s.OnlyTells t) (p : Nat) (x : BitVec 64) (n : Nat) :
    t.foreign p x n = s.foreign p x n := by
  simp only [State.foreign, State.ownsExtent, State.extOwner, State.extRun, h.extents]

theorem State.whenReadable_yes {u : State} {pos n : Nat} (h : s.readable pos n = (u, true)) (f : State → State) :
    s.whenReadable pos n f = f u := by simp [State.whenReadable, h]

theorem State.whenReadable_no {u : State} {pos n : Nat} (h : s.readable pos n = (u, false)) (f : State → State) :
    s.whenReadable pos n f = u := by simp [State.whenReadable, h]

theorem State.admitHeader_invalid {b : List Byte} (h : headerOk b = false) :
    s.admitHeader a b = s.admitRefuse a stEntryInvalid := by
  simp [State.admitHeader, h]

/-- A sound header that lists its runs itself leaves the checks of the runs. -/
theorem State.admitHeader_runs {b : List Byte} (h : headerOk b = true) (hl : hdrList b = false)
    (hf : s.foreign a.port (hdrSb b) 256 = false) :
    s.admitHeader a b = s.admitRuns a b (chunks 8 (hdrRuns b) (b.drop 32)) := by
  simp [State.admitHeader, h, hl, hf]

theorem State.admitRuns_live {b : List Byte} {l : List (List Byte)} (h : runsOk l = true)
    (ho : ∀ r ∈ l.map runOf, ∀ i, i < r.count → s.ownsExtent a.port (r.first + i) = true) :
    s.admitRuns a b l = s.goLive a b (l.map runOf) := by
  have hall : ((l.map runOf).all fun r => (List.range r.count).all fun i => s.ownsExtent a.port (r.first + i)) = true := by
    simp only [List.all_eq_true, List.mem_range]
    exact ho
  simp only [State.admitRuns, h, hall, Bool.not_true, Bool.false_eq_true, if_false, if_true]

/-- A sound header that names no run makes its traverse live. -/
theorem State.admitHeader_noRuns {b : List Byte} (h : headerOk b = true) (hl : hdrList b = false)
    (hn : hdrRuns b = 0) (hf : s.foreign a.port (hdrSb b) 256 = false) : s.admitHeader a b = s.goLive a b [] := by
  rw [State.admitHeader_runs h hl hf, hn, chunks]
  exact State.admitRuns_live rfl (by simp)

/-- A refusal completes the entry and takes it out of admission, and does nothing else. -/
theorem State.admitRefuse_spec (st : BitVec 8) :
    ∃ c, s.admitRefuse a st = { s with admitting := s.admitting.erase a, collector := s.collector ++ [c] } ∧
      c.comp.status = st ∧ c.comp.tag = entryTag a.entry := ⟨_, rfl, rfl, rfl⟩

/-- The traverse that an admitted START with its header and runs becomes. -/
def Admitting.traverse (a : Admitting) (h : List Byte) (runs : List Run) (arrival : Nat) : Trv :=
  { port := a.port, tag := entryTag a.entry, sq := a.q, tenant := byteAt a.entry 4, prio := byteAt a.entry 5
    urgent := entryUrgent a.entry, addr := entryAddr a.entry 8
    sb := if entryAddr a.entry 16 = 0 then hdrSb h else entryAddr a.entry 16
    affinity := if hdrAffinity h = 255 then none else some (hdrAffinity h), runs
    budget := if hdrBudget h = 0 then 65536 else hdrBudget h
    deadline := if hdrDeadline h = 0 then none else some (a.since + hdrDeadline h)
    arrival, state := .pending }

/-- The state in which that traverse is live and holds no extents yet. -/
def State.live (s : State) (a : Admitting) (h : List Byte) (runs : List Run) : State :=
  { s with admitting := s.admitting.erase a, trvs := s.trvs ++ [a.traverse h runs s.seqNo], seqNo := s.seqNo + 1 }

/-- With NOWAIT clear the traverse takes its extents at once or stays pending. -/
theorem State.goLive_wait {b : List Byte} (h : hdrNowait b = false) (runs : List Run) :
    s.goLive a b runs = if (s.live a b runs).canReserve (a.traverse b runs s.seqNo)
      then (s.live a b runs).reserve (a.traverse b runs s.seqNo) else s.live a b runs := by
  simp only [State.goLive, h, Bool.false_and, Bool.false_eq_true, if_false]
  rfl

theorem State.live_trv? {b : List Byte} (runs : List Run) (h : s.trv? a.port (entryTag a.entry) = none) :
    (s.live a b runs).trv? a.port (entryTag a.entry) = some (a.traverse b runs s.seqNo) := by
  rw [State.trv?] at h ⊢
  simp [State.live, List.find?_append, h, Admitting.traverse]

/-- Reserving makes a traverse ready; memory stays as it is. -/
theorem State.reserve_ready {t : Trv} (h : s.trv? t.port t.tag = some t) :
    (s.reserve t).trv? t.port t.tag = some t.toReady ∧ (s.reserve t).mem = s.mem := by
  have hw := State.wakeStacks_tells ((({ s with reservations := s.reservations ++ t.runs.map fun r =>
      { port := t.port, tag := t.tag, first := r.first, count := r.count, mode := r.mode } } : State)).putTrv t.toReady)
    (t.runs.flatMap fun r => quartersOf r.first r.count)
  refine ⟨?_, hw.mem⟩
  rw [State.reserve, State.trv?, hw.trvs]
  exact State.putTrv_trv? (s := s) h rfl rfl

end

/-- Settles O10: each stage of admission by its own lemma; a traverse that becomes live is the one its entry and header
describe (`Admitting.traverse`), pending or, with its extents reserved, ready. -/
theorem startsAreAdmitted : Obligations.StartsAreAdmitted := by
  refine ⟨?host, ?header, ?live, ?buffer, ?asleep, ?invalid, ?quota, ?failed, ?traverse⟩
  case host => exact fun s a h hf hh hq hb hr => execAdmission_host h hf hh hq hb hr
  case header => exact fun s a b h hf hh => execAdmission_header h hf hh
  case live =>
    rintro s a b _ h hf hh hok hl hfor hruns rfl hown
    rw [execAdmission_header h hf hh, State.admitHeader_runs hok hl hfor, State.admitRuns_live hruns hown]
  case buffer =>
    rintro s u a b h hf hh hq hb hread hpoison rfl hok hl hn hfor
    have htells : s.OnlyTells u := by simpa [hread] using s.readable_tells (bufPos (entryAddr a.entry 8)) 64
    rw [execAdmission_buffer h hf hh hq hb, State.whenReadable_yes hread, htells.poisoned, hpoison,
      if_neg Bool.false_ne_true, htells.readBuf]
    exact congrArg _ (State.admitHeader_noRuns hok hl hn ((htells.foreign ..).trans hfor))
  case asleep =>
    intro s u a h hf hh hq hb hread
    have htells : s.OnlyTells u := by simpa [hread] using s.readable_tells (bufPos (entryAddr a.entry 8)) 64
    rw [execAdmission_buffer h hf hh hq hb, State.whenReadable_no hread]
    exact ⟨rfl, htells.admitting, htells.trvs, htells.mem⟩
  case invalid =>
    intro s a b h hf hh hok
    rw [execAdmission_header h hf hh, State.admitHeader_invalid hok]
  case quota =>
    intro s a h hf hh hq
    obtain ⟨c, hrefuse, hst, htag⟩ := State.admitRefuse_spec (s := s) (a := a) stAdmissionRefused
    refine ⟨_, c, execAdmission_quota h hf hh hq, ?_⟩
    rw [hrefuse]
    exact ⟨rfl, rfl, rfl, rfl, rfl, hst, htag⟩
  case failed => exact fun s a st h hf => execAdmission_fault h hf
  case traverse =>
    intro s a b runs hw hnew
    have hlive := State.live_trv? (b := b) runs hnew
    rw [State.goLive_wait hw]
    split
    · obtain ⟨hready, hmem⟩ := State.reserve_ready (t := a.traverse b runs s.seqNo) hlive
      exact ⟨_, hready, rfl, rfl, rfl, rfl, rfl, rfl, rfl, .inr rfl, hmem⟩
    · exact ⟨_, hlive, rfl, rfl, rfl, rfl, rfl, rfl, rfl, .inl rfl, rfl⟩

/-! ### Messages of vectors -/

theorem mem_setMember (l : List Nat) (v : Nat) : v ∈ setMember l v true := by
  induction l with
  | nil => simp [setMember]
  | cons x l ih =>
    simp only [setMember, if_true]
    split
    · simp
    · split
      · simp [*]
      · exact List.mem_cons_of_mem _ ih

section
variable (s : State) (p v : Nat)

/-- A vector's record once its message has fallen due (R111, R112). -/
def CompVector.messaged (y : CompVector) : CompVector := { y with count := 0, timerOn := false, held := none }

theorem State.vectorMessage_eq : s.vectorMessage p v =
    (s.setPort p ((s.port p).setVec v ((s.port p).vec v).messaged)).raiseVector p v := rfl

theorem State.vectorMessage_tells : s.OnlyTells (s.vectorMessage p v) :=
  (s.setPort_tells ..).trans (State.raiseVector_tells ..)

/-- Of its port a message changes the vector's record and the pending bits. -/
theorem State.vectorMessage_port : ∃ l, (s.vectorMessage p v).port p =
    { (s.port p).setVec v ((s.port p).vec v).messaged with pba := l } := by
  obtain ⟨⟨l, hp⟩, -⟩ := State.raiseVector_keeps (s.setPort p ((s.port p).setVec v ((s.port p).vec v).messaged)) p v
  exact ⟨l, by rw [State.vectorMessage_eq, hp, State.setPort_port_self]⟩

theorem State.vectorMessage_sent (h : (s.port p).canSend v = true) : (s.vectorMessage p v).out =
    .msix p v ((s.port p).msix.get v {}).addr ((s.port p).msix.get v {}).data :: s.out := by
  have hsame : ((s.setPort p ((s.port p).setVec v ((s.port p).vec v).messaged)).port p).canSend v = true := by
    rw [State.setPort_port_self]; exact h
  rw [State.vectorMessage_eq, State.raiseVector_sent _ hsame, State.setPort_port_self]
  rfl

theorem State.vectorMessage_held (h : (s.port p).canSend v = false) :
    v ∈ ((s.vectorMessage p v).port p).pba ∧ (s.vectorMessage p v).out = s.out := by
  have hsame : ((s.setPort p ((s.port p).setVec v ((s.port p).vec v).messaged)).port p).canSend v = false := by
    rw [State.setPort_port_self]; exact h
  rw [State.vectorMessage_eq, State.raiseVector_held _ hsame, State.setPort_port_self, State.setPort_port_self]
  exact ⟨mem_setMember .., rfl⟩

/-- What has been sent stays sent. -/
theorem State.vectorMessage_out (o : Output) (h : o ∈ s.out) : o ∈ (s.vectorMessage p v).out := by
  cases hs : (s.port p).canSend v with
  | true => rw [s.vectorMessage_sent p v hs]; exact List.mem_cons_of_mem _ h
  | false => rwa [(s.vectorMessage_held p v hs).2]

/-- `y` differs from the port record `x` in vectors and pending bits alone. -/
def Port.OnlyVectors (x y : Port) : Prop := ∃ vecs pba, y = { x with vecs := vecs, pba := pba }

theorem Port.OnlyVectors.trans {x y z : Port} (h : x.OnlyVectors y) (k : y.OnlyVectors z) : x.OnlyVectors z := by
  obtain ⟨_, _, rfl⟩ := h
  obtain ⟨_, _, rfl⟩ := k
  exact ⟨_, _, rfl⟩

theorem Port.OnlyVectors.cq {x y : Port} (h : x.OnlyVectors y) (q : Nat) : y.cq q = x.cq q := by
  obtain ⟨_, _, rfl⟩ := h
  rfl

theorem Port.setVec_vectors (x : Port) (y : CompVector) : x.OnlyVectors (x.setVec v y) := ⟨_, x.pba, rfl⟩

theorem State.vectorMessage_vectors : (s.port p).OnlyVectors ((s.vectorMessage p v).port p) := by
  obtain ⟨l, hp⟩ := s.vectorMessage_port p v
  rw [hp]
  exact ((s.port p).setVec_vectors v _).trans ⟨_, l, rfl⟩

/-- A completion counted at its vector changes the port's vectors and pending bits alone, takes back nothing that was
sent, and only tells. -/
theorem State.countVector_spec (now : Bool) :
    (s.port p).OnlyVectors ((s.countVector p v now).port p) ∧
      (∀ o ∈ s.out, o ∈ (s.countVector p v now).out) ∧ s.OnlyTells (s.countVector p v now) := by
  have hcount := fun y => (s.setPort_port_self p ((s.port p).setVec v y)).symm ▸ (s.port p).setVec_vectors v y
  unfold State.countVector
  dsimp only
  split
  · exact ⟨(hcount _).trans (State.vectorMessage_vectors ..), fun o ho => State.vectorMessage_out _ _ _ o ho,
      (s.setPort_tells ..).trans (State.vectorMessage_tells ..)⟩
  · exact ⟨hcount _, fun o ho => ho, s.setPort_tells ..⟩

end

/-! ### Posting -/

section
variable {s : State} {c : Completion}

/-- A ring with one completion more (R106). -/
def CompQueue.posted (y : CompQueue) : CompQueue :=
  { y with
    tail := if y.tail + 1 = 2 ^ y.log2 then 0 else y.tail + 1
    phase := if y.tail + 1 = 2 ^ y.log2 then !y.phase else y.phase
    unreturned := y.unreturned + 1 }

/-- A port with one completion more in its ring, which its submission queue no longer lacks (R99, R106). -/
def Port.posted (x : Port) (c : Completion) : Port :=
  let x1 := x.setCq c.cq (x.cq c.cq).posted
  if c.notice || !c.counted then x1 else x1.setSq c.sq { x1.sq c.sq with lacking := (x1.sq c.sq).lacking - 1 }

theorem Port.posted_cq (x : Port) : (x.posted c).cq c.cq = (x.cq c.cq).posted := by
  have hself : (x.setCq c.cq (x.cq c.cq).posted).cq c.cq = (x.cq c.cq).posted := Tab.get_set_self ..
  unfold Port.posted
  dsimp only
  split
  · exact hself
  · exact hself

/-- The write of a completion to slot TAIL of its ring (R106). -/
def State.slotWrite (s : State) (c : Completion) : Output :=
  .hostWrite c.port (((s.port c.port).cq c.cq).base.toNat + 32 * ((s.port c.port).cq c.cq).tail)
    (c.bytes (if c.notice then 0 else ((s.port c.port).sq c.sq).head)
      (if c.notice then c.epoch else (s.port c.port).fnEpoch) ((s.port c.port).cq c.cq).phase) false false

/-- The completion written, before its vector counts it. -/
def State.written (s : State) (c : Completion) : State :=
  let s2 := ((s.countTlp c.port 1 256 32).emit (s.slotWrite c)).setPort c.port ((s.port c.port).posted c)
  if c.ends then s2.dropTrv c.port c.tag else s2

theorem State.postNow_eq : s.postNow c =
    (s.written c).countVector c.port ((s.port c.port).cq c.cq).vector (c.urgent || c.notice) := rfl

theorem State.written_keeps : (s.written c).port c.port = (s.port c.port).posted c ∧ (s.written c).mem = s.mem ∧
    (s.written c).released = s.released ∧ (s.written c).out = s.slotWrite c :: s.out := by
  unfold State.written
  dsimp only
  split
  · simp
  · simp

/-- Posting writes the completion to its slot and moves the ring on. -/
theorem State.postNow_spec : s.slotWrite c ∈ (s.postNow c).out ∧ (s.postNow c).mem = s.mem ∧
    (s.postNow c).released = s.released ∧ ((s.postNow c).port c.port).cq c.cq = ((s.port c.port).cq c.cq).posted := by
  obtain ⟨hport, hmem, hrel, hout⟩ := State.written_keeps (s := s) (c := c)
  obtain ⟨hvec, ho, ht⟩ := State.countVector_spec (s.written c) c.port ((s.port c.port).cq c.cq).vector
    (c.urgent || c.notice)
  rw [State.postNow_eq]
  refine ⟨ho _ (by rw [hout]; exact List.mem_cons_self), ht.mem.trans hmem, ht.released.trans hrel, ?_⟩
  rw [hvec.cq, hport]
  exact Port.posted_cq _

/-- A traverse whose completion waits parks: ports, released completions and what has been sent stay (R133). -/
theorem State.parkEnded_keeps : (s.parkEnded c).ports = s.ports ∧ (s.parkEnded c).released = s.released ∧
    (s.parkEnded c).out = s.out := by
  unfold State.parkEnded State.withTrv
  split
  · split
    · exact ⟨rfl, rfl, rfl⟩
    · exact ⟨rfl, rfl, rfl⟩
  · exact ⟨rfl, rfl, rfl⟩

theorem execCompletionPost_oldest {rest : List Completion} (h : s.released = c :: rest) :
    exec (.completionPost c.port) s = .next (({ s with released := rest } : State).postOrWait c) := by
  simp [execCompletionPost, h]

theorem State.postOrWait_room (hw : ((s.port c.port).cq c.cq).stalled = false)
    (hr : (s.port c.port).canPost c.cq c.notice = true) : s.postOrWait c = s.postNow c := by
  simp [State.postOrWait, hw, hr]

theorem State.postOrWait_full (hr : (s.port c.port).canPost c.cq c.notice = false) : s.postOrWait c =
    (s.parkEnded c).modPort c.port fun x =>
      x.setCq c.cq { x.cq c.cq with waiting := (x.cq c.cq).waiting ++ [c] } := by
  simp [State.postOrWait, hr]

/-- A completion without ring space joins those that wait at its queue. -/
theorem State.postOrWait_waits (hr : (s.port c.port).canPost c.cq c.notice = false) :
    (s.postOrWait c).released = s.released ∧ (s.postOrWait c).out = s.out ∧
      (((s.postOrWait c).port c.port).cq c.cq).waiting = ((s.port c.port).cq c.cq).waiting ++ [c] := by
  obtain ⟨hports, hrel, hout⟩ := State.parkEnded_keeps (s := s) (c := c)
  have hport : (s.parkEnded c).port c.port = s.port c.port := by rw [State.port, hports]; rfl
  rw [State.postOrWait_full hr, State.modPort_eq, State.setPort_port_self, hport]
  exact ⟨hrel, hout, congrArg CompQueue.waiting (Tab.get_set_self ..)⟩

theorem State.frameArrived_iff {frame : Nat} : s.frameArrived frame = true ↔
    ∀ q, q < 4 → (frame + collectorDelay q + 1) * 256 ≤ (s.quarter q).absRow := by
  simp [State.frameArrived]

end

/-! ### Read-backs -/

section
variable (s : State)

theorem State.trigger_tells (ch : Nat) : s.OnlyTells (s.trigger ch) := by
  cases he : (s.channel ch).en with
  | true => rw [State.trigger_enabled he]; exact s.setChannel_tells ..
  | false => rw [State.trigger_disabled he]; exact .refl s

theorem State.dmaIrq_tells (ch : Nat) : s.OnlyTells (s.dmaIrq ch) := by
  unfold State.dmaIrq
  dsimp only
  split
  · exact .refl s
  · split
    · exact s.irq_tells ..
    · exact .foldl (fun s _ => s.irq_tells ..) _ s

theorem State.firmwareRun_tells (ch : Nat) : s.OnlyTells (s.firmwareRun ch) :=
  ((s.setChannel_tells ..).trans (State.dmaIrq_tells ..)).trans (.foldl (fun s d => s.trigger_tells d) _ _)

theorem State.sbRun_tells (v : Trv) : s.OnlyTells (s.sbRun v) := by
  unfold State.sbRun
  split
  · exact s.firmwareRun_tells _
  · exact .refl s

theorem State.countRead_tells (p : Nat) (r : HostRead) (e : ReadEnd) : s.OnlyTells (s.countRead p r e) := by
  cases e with
  | some _ => exact s.countTlp_tells ..
  | none => exact .refl s

theorem State.sendRead_tells (p : Nat) : s.OnlyTells (s.sendRead p) := by
  unfold State.sendRead
  dsimp only
  split
  · split
    · exact (s.setPort_tells ..).trans (State.emit_tells ..)
    · exact .refl s
  · exact .refl s

theorem State.OnlyTells.trv? {s t : State} (h : s.OnlyTells t) (p tag : Nat) : t.trv? p tag = s.trv? p tag := by
  simp only [State.trv?, h.trvs]

end

section
variable {s : State} {p tag : Nat} {v : Trv} {c : Completion}

/-- The completion that a read-back's end leaves (R161). -/
def Completion.confirmed (c : Completion) (ok : Bool) : Completion := if ok then c else c.unconfirmed

/-- The traverse whose read-back has ended and whose completion is formed. -/
def Trv.confirmed (v : Trv) (c : Completion) : Trv :=
  { v with readback := false, wrote := none, completion := some c, bound := none }

/-- An ended read-back forms the completion that waited for it. -/
theorem State.readbackEnds_forms (h : s.trv? p tag = some v) (hr : v.readback = true) (hc : v.completion = some c)
    (hs : v.sbLate = false) (ok : Bool) : ∃ t, s.OnlyTells t ∧
      s.readbackEnds p tag ok =
        (t.putTrv (v.confirmed (c.confirmed ok))).collect (v.bound.map (·.1)) (c.confirmed ok) := by
  have hlate : ¬ v.sbLate = true := by simp [hs]
  rw [State.readbackEnds, State.withTrv_found h, hr, hc]
  simp only [if_neg hlate]
  cases ok with
  | true => exact ⟨s.sbRun v, s.sbRun_tells v, rfl⟩
  | false => exact ⟨s, .refl s, rfl⟩

/-- A read in flight ends with what asked for it; what comes before only tells. -/
theorem State.endRead_ends {id : Nat} {r : HostRead}
    (h : (s.port p).reads.find? (fun r => r.id = id && r.sent) = some r) (e : ReadEnd) :
    ∃ t, s.OnlyTells t ∧ s.endRead p id e = t.readEnds p r e :=
  ⟨_, ((s.countRead_tells p r e).trans (State.modPort_tells ..)).trans (State.sendRead_tells ..), State.endRead_sent h e⟩

theorem execCompletionReadback_ends {r : HostRead} {ok : Bool}
    (hr : (s.port p).reads.find? (fun r => r.purpose = .readback tag && r.sent) = some r)
    (hu : (s.port p).reads.find? (fun u => u.id = r.id && u.sent) = some r) :
    ∃ t, s.OnlyTells t ∧ exec (.completionReadback p tag ok) s = .next (t.readbackEnds p tag ok) := by
  have hpurpose : r.purpose = .readback tag := by
    have := List.find?_some hr
    simp only [Bool.and_eq_true, decide_eq_true_eq] at this
    exact this.1
  obtain ⟨t, ht, hends⟩ := State.endRead_ends hu (if ok then some ([0], false) else none)
  refine ⟨t, ht, ?_⟩
  simp only [exec_completionReadback, execCompletionReadback, hr, hends, State.readEnds, hpurpose]
  cases ok with
  | true => rfl
  | false => rfl

end

/-- Settles O7: posting by `State.postNow_spec`, messages by `State.vectorMessage_port`, and a read-back by the
completion that its end forms. -/
theorem completionsReachTheHost : Obligations.CompletionsReachTheHost := by
  refine ⟨?posted, ?waits, ?released, ?notYet, ?timer, ?pendingSent, ?readback⟩
  case posted =>
    rintro s _ c rest hrel rfl hw hr
    obtain ⟨hout, hmem, hrest, hcq⟩ := State.postNow_spec (s := { s with released := rest }) (c := c)
    refine ⟨_, (execCompletionPost_oldest hrel).trans (congrArg _ (State.postOrWait_room hw hr)), hrest, hmem, hout, ?_, ?_⟩
    · rw [hcq]; rfl
    · rw [hcq]; rfl
  case waits =>
    rintro s _ c rest hrel rfl hr
    exact ⟨_, execCompletionPost_oldest hrel, State.postOrWait_waits (s := { s with released := rest }) hr⟩
  case released =>
    intro s frame harrived hfirst
    have hnone : (s.collector.any fun r => r.frame.any (· < frame)) = false := by
      rw [List.any_eq_false]
      intro r hr
      cases hf : r.frame with
      | none => simp
      | some g => simpa using hfirst r hr g hf
    simp [execCollectorRelease, State.frameArrived_iff.mpr harrived, hnone]
  case notYet =>
    intro s frame q hq hrow
    have hnot : s.frameArrived frame = false :=
      Bool.eq_false_iff.mpr fun h => absurd (State.frameArrived_iff.mp h q hq) (Nat.not_le.mpr hrow)
    simp [execCollectorRelease, hnot]
  case timer =>
    intro s p v hon
    obtain ⟨l, hport⟩ := s.vectorMessage_port p v
    have hvec : ((s.vectorMessage p v).port p).vec v = ((s.port p).vec v).messaged := by
      rw [hport]; exact Tab.get_set_self ..
    refine ⟨s.vectorMessage p v, by simp [execCoalesceTimerExpiry, hon], by rw [hvec]; rfl, by rw [hvec]; rfl,
      (s.vectorMessage_tells p v).mem, fun h => ?_, s.vectorMessage_held p v⟩
    rw [s.vectorMessage_sent p v h]
    exact List.mem_cons_self
  case pendingSent =>
    intro s p v hv hs
    have hsame : ((s.setPort p { s.port p with pba := setMember (s.port p).pba v false }).port p).canSend v = true := by
      rw [State.setPort_port_self]; exact hs
    refine ⟨_, by simp [execMsixPendingSend, hv, hs]; rfl, ?_⟩
    rw [State.raiseVector_sent _ hsame]
    simp
  case readback =>
    intro s p tag ok r v c hr hu hv hrb hc hs
    obtain ⟨t, htold, hexec⟩ := execCompletionReadback_ends (ok := ok) hr hu
    obtain ⟨u, hutold, hends⟩ := State.readbackEnds_forms ((htold.trv? p tag).trans hv) hrb hc hs ok
    have htells := htold.trans hutold
    obtain ⟨hport, htag⟩ := State.trv?_names hv
    refine ⟨_, v.confirmed (c.confirmed ok), _, hexec.trans (congrArg _ hends), htells.mem, ?_, rfl, rfl, rfl,
      congrArg (· ++ _) htells.collector, rfl, rfl⟩
    exact State.putTrv_trv? ((htells.trv? p tag).trans hv) hport htag

/-! ### Rows of the timetable -/

section
variable {s : State} {q : Nat}

/-- Of two writes of a quarter the later stands. -/
@[simp] theorem State.setQuarter_setQuarter (s : State) (q : Nat) (x y : Quarter) :
    (s.setQuarter q x).setQuarter q y = s.setQuarter q y := by
  simp [State.setQuarter]

/-- The quarter's next row can run now. -/
def State.rowDue (s : State) (q : Nat) : Prop :=
  s.held = false ∧ (s.quarter q).row < 4096 ∧ s.bundleDue q = false ∧
    ((s.quarter q).seam = true → (s.quarter q).row < 1024)

theorem State.rowDue_iff : s.rowDue q ↔
    (s.held || 4096 ≤ (s.quarter q).row || s.bundleDue q || ((s.quarter q).seam && 1024 ≤ (s.quarter q).row)) = false := by
  simp [State.rowDue, and_assoc]

theorem execTimetableRow_waits (h : ¬ s.rowDue q) (ecc : RowEcc) (uses : List LaneUse) (asks : List OpenAsk) :
    exec (.timetableRow q ecc uses asks) s = .next s := by
  rw [State.rowDue_iff, Bool.not_eq_false] at h
  rw [exec_timetableRow, execTimetableRow]
  exact congrArg _ (if_pos h)

theorem execTimetableRow_clean (h : s.rowDue q) (uses : List LaneUse) (asks : List OpenAsk) :
    exec (.timetableRow q .clean uses asks) s = .next (((((s.rowWork q uses asks).1.rowEffect q
      (s.rowWork q uses asks).2).collectorCell q).nextRow q).settleAnswers) := by
  rw [State.rowDue_iff] at h
  simp [execTimetableRow, h]

theorem execTimetableRow_uncorrectable (h : s.rowDue q) (uses : List LaneUse) (asks : List OpenAsk) :
    exec (.timetableRow q .uncorrectable uses asks) s =
      .next ((s.integrityFailure q 1 (s.quarter q).row).restart 0x21) := by
  rw [State.rowDue_iff] at h
  simp [execTimetableRow, h]

/-! #### What a row's writes and accumulates become -/

theorem State.rowEffect_writes (w : List RowWrite) : ((s.rowEffect q { writes := w }).quarter q).lands =
    (s.quarter q).lands ++ (List.insertionSort (fun (a b : RowWrite) => a.lane ≤ b.lane) w).map fun u =>
      { due := (s.quarter q).absRow + 2, what := u.what, cmd := u.cmd, engine := u.engine } := by
  simp [State.rowEffect]

theorem State.rowEffect_accums (l : List AccumBeat) : ((s.rowEffect q { accums := l }).quarter q).lands =
    (s.quarter q).lands ++ (List.insertionSort (fun (a b : AccumBeat) => a.lane ≤ b.lane) l).map fun b =>
      { due := (s.quarter q).absRow + 8, what := .accum b, engine := b.engine } := by
  simp [State.rowEffect]

/-- A row that only occupies lanes adds nothing to the stack's work. -/
theorem State.rowEffect_lanes (used owned : List Nat) : ∃ x, s.rowEffect q { used, owned } = s.setQuarter q x ∧
    x.row = (s.quarter q).row ∧ x.absRow = (s.quarter q).absRow ∧ x.lands = (s.quarter q).lands :=
  ⟨_, rfl, rfl, rfl, by simp⟩

/-- A last contribution that lands is counted 16 rows later. -/
theorem State.landRow_last {l : RowLand} {b : AccumBeat} (h : (s.quarter q).lands = [l])
    (hd : l.due ≤ (s.quarter q).absRow) (hw : l.what = .accum b) (hb : b.last = true) :
    ((s.landRow q).quarter q).lands = [{ due := l.due + 16, what := .count b.addr, engine := l.engine }] := by
  simp [State.landRow, h, Nat.not_lt.mpr hd, hw, hb]

theorem State.landRow_none (h : (s.quarter q).lands = []) :
    s.landRow q = s.setQuarter q { s.quarter q with lands := [] } := by
  simp [State.landRow, h]

/-! #### A row in which nothing moves -/

/-- No SAS port has received data or reads. -/
def State.portsIdle (s : State) : Prop := ∀ c, (s.chain c).rx = [] ∧ (s.chain c).reader = none

theorem SasPort.nextFill_none {x : SasPort} (h : x.rx = []) : x.nextFill = none := by
  simp [SasPort.nextFill, SasPort.oldest, h]

theorem State.portSlot_idle (h : s.portsIdle) (x : Quarter) (uses : List LaneUse) (w : RowWork) (lane : Nat) :
    s.portSlot q x uses w lane = (s, w) := by
  have hfill : ∀ c, s.fillSlot q x w lane c = (s, w) := fun c => by
    simp only [State.fillSlot, SasPort.nextFill_none (h c).1]
  have hdrain : ∀ c, s.drainSlot q x uses w lane c = (s, w) := fun c => by
    simp only [State.drainSlot, (h c).2]
  simp only [State.portSlot, hfill, hdrain, ite_self]

theorem State.takeSta_idle (h : ∀ e, (s.engine e).sta = []) (x : Quarter) (w : RowWork) (lane : Nat) :
    s.takeSta x w lane = (s, w) := by
  have hsta : ∀ e path, (s.engine e).sta.get path [] = [] := fun e path => by rw [h e]; rfl
  simp only [State.takeSta, hsta, ite_self]

/-- Without requests the arbiter only keeps its masks. -/
theorem State.arbitrate_idle (w : RowWork) : s.arbitrate q w [] = (s.maskAsks q [], w) := by
  simp [State.arbitrate, State.asking, Quarter.winner, State.wakeAsked, State.losers]

/-- Masks leave the quarter's counters and its stack's work. -/
theorem State.maskAsks_quarter (asks : List OpenAsk) : ∃ y, s.maskAsks q asks = s.setQuarter q y ∧
    y.row = (s.quarter q).row ∧ y.absRow = (s.quarter q).absRow ∧ y.lands = (s.quarter q).lands :=
  ⟨_, rfl, rfl, rfl, rfl⟩

theorem State.rowWork_idle (hf : (s.quarter q).flights = []) (hd : (s.quarter q).deliveries = [])
    (hr : (s.quarter q).rowStores = []) (hp : s.portsIdle) (he : ∀ e, (s.engine e).sta = []) :
    s.rowWork q [] [] =
      (s.maskAsks q [], { used := (s.quarter q).rowUsed ++ [], owned := (s.quarter q).rowUsed ++ [] }) := by
  simp only [State.rowWork, hf, hd, List.filter_nil, List.foldl_nil, RowWork.slots, hr, List.map_nil]
  rw [List.foldl_fixed' (a := (s, (_ : RowWork)))]
  case hf => exact fun lane => State.portSlot_idle hp _ _ _ lane
  dsimp only
  rw [List.foldl_fixed' (a := (s, (_ : RowWork)))]
  case hf => exact fun lane => State.takeSta_idle he _ _ lane
  exact State.arbitrate_idle _

theorem State.collectorCell_none (h : s.collector = []) : s.collectorCell q = s := by
  have hself : { s with collector := [] } = s := by rw [← h]
  unfold State.collectorCell
  dsimp only
  split
  · simp [h, takeRecord, State.settleNotices, hself]
  · rfl

/-- `t` differs from `s` in the records of quarters and the count of frames alone. -/
def State.OnlyCounts (s t : State) : Prop := ∃ quarters frame, t = { s with quarters := quarters, frame := frame }

theorem State.OnlyCounts.keeps {t : State} (h : s.OnlyCounts t) :
    t.mem = s.mem ∧ t.out = s.out ∧ t.engines = s.engines ∧ t.chains = s.chains := by
  obtain ⟨_, _, rfl⟩ := h
  exact ⟨rfl, rfl, rfl, rfl⟩

/-- With nothing to land the row counters alone move on. -/
theorem State.nextRow_idle (h : (s.quarter q).lands = []) : s.OnlyCounts (s.nextRow q) ∧
    ((s.nextRow q).quarter q).row = (s.quarter q).row + 1 ∧
    ((s.nextRow q).quarter q).absRow = (s.quarter q).absRow + 1 := by
  have hland : ((s.modQuarter q fun x => { x with row := x.row + 1, absRow := x.absRow + 1 }).quarter q).lands = [] := by
    simpa using h
  unfold State.nextRow
  rw [State.landRow_none hland, State.modQuarter_eq, State.setQuarter_quarter_self, State.setQuarter_setQuarter]
  dsimp only
  split
  · exact ⟨⟨_, _, rfl⟩, by simp, by simp⟩
  · exact ⟨⟨_, s.frame, rfl⟩, by simp, by simp⟩

theorem State.settleAnswers_none (h : ∀ c, ∀ d ∈ (s.chain c).cmds, d.answer = none) : s.settleAnswers = s := by
  refine List.foldl_fixed' (fun c => ?_) _
  have hnone : ((s.chain c).cmds.find? fun d => d.answer.isSome && s.landed c d) = none := by
    simp only [List.find?_eq_none, Bool.and_eq_true, not_and]
    intro d hd
    simp [h c d hd]
  simp only [State.answerSettled, hnone]

/-- A row in which nothing moves only counts. -/
theorem execTimetableRow_idle (h : s.rowDue q) (hf : (s.quarter q).flights = []) (hd : (s.quarter q).deliveries = [])
    (hl : (s.quarter q).lands = []) (hr : (s.quarter q).rowStores = []) (he : ∀ e, (s.engine e).sta = [])
    (hp : s.portsIdle) (ha : ∀ c, ∀ d ∈ (s.chain c).cmds, d.answer = none) (hc : s.collector = []) :
    ∃ t, exec (.timetableRow q .clean [] []) s = .next t ∧ (t.quarter q).row = (s.quarter q).row + 1 ∧
      (t.quarter q).absRow = (s.quarter q).absRow + 1 ∧ t.mem = s.mem ∧ t.out = s.out ∧ t.engines = s.engines := by
  obtain ⟨y, hmask, hrow, habs, hlands⟩ := State.maskAsks_quarter (s := s) (q := q) []
  obtain ⟨x, heffect, hrow', habs', hlands'⟩ := State.rowEffect_lanes (s := s.setQuarter q y) (q := q)
    ((s.quarter q).rowUsed ++ []) ((s.quarter q).rowUsed ++ [])
  rw [State.setQuarter_quarter_self] at hrow' habs' hlands'
  rw [State.setQuarter_setQuarter] at heffect
  obtain ⟨hcounts, hrow'', habs''⟩ := State.nextRow_idle (s := s.setQuarter q x) (q := q)
    (by rw [State.setQuarter_quarter_self, hlands', hlands, hl])
  rw [State.setQuarter_quarter_self] at hrow'' habs''
  obtain ⟨hmem, hout, hengines, hchains⟩ := hcounts.keeps
  have hanswers : ∀ c, ∀ d ∈ (((s.setQuarter q x).nextRow q).chain c).cmds, d.answer = none := by
    simp only [State.chain, hchains]
    exact ha
  refine ⟨(s.setQuarter q x).nextRow q, ?_, by rw [hrow'', hrow', hrow], by rw [habs'', habs', habs], hmem, hout, hengines⟩
  rw [execTimetableRow_clean h, State.rowWork_idle hf hd hr hp he, hmask, heffect,
    State.collectorCell_none (s := s.setQuarter q x) hc, State.settleAnswers_none hanswers]

end

/-! ### Boundaries, seams and beacons -/

section
variable {s : State} {q : Nat}

/-- A quarter's record after its boundary (R26). -/
def Quarter.nextFrame (x : Quarter) : Quarter := { x with sf := x.sf + 1, row := 0, beaconSeen := false }

theorem execSuperframeBoundary_early (h : (s.quarter q).row < 4096) : exec (.superframeBoundary q) s = .next s := by
  simp [execSuperframeBoundary, h]

theorem execSuperframeBoundary_plain (hh : s.held = false) (hq : q ≠ 0) (hr : 4096 ≤ (s.quarter q).row)
    (ha : (s.quarter q).shadowArm = false) :
    exec (.superframeBoundary q) s = .next (s.setQuarter q (s.quarter q).nextFrame) := by
  simp [execSuperframeBoundary, Quarter.nextFrame, hh, hq, Nat.not_lt.mpr hr, ha]

theorem execSuperframeBoundary_swap (hh : s.held = false) (hq : q ≠ 0) (hr : 4096 ≤ (s.quarter q).row)
    (ha : (s.quarter q).shadowArm = true) (hs : (s.quarter q).swapAt = (s.quarter q).sf + 1) :
    exec (.superframeBoundary q) s = .next ((s.setQuarter q (s.quarter q).nextFrame).swap q) := by
  simp [execSuperframeBoundary, Quarter.nextFrame, hh, hq, Nat.not_lt.mpr hr, ha, hs]

/-- Quarter 0's boundary sends the beacon to quarters 1 and 3. -/
theorem execSuperframeBoundary_zero (hh : s.held = false) (hr : 4096 ≤ (s.quarter 0).row)
    (ha : (s.quarter 0).shadowArm = false) : exec (.superframeBoundary 0) s =
      .next ((({ s.setQuarter 0 (s.quarter 0).nextFrame with frame := (s.quarter 0).absRow / 256 } : State).beaconTo 1
        ((s.quarter 0).sf + 1) 0).beaconTo 3 ((s.quarter 0).sf + 1) 0) := by
  simp [execSuperframeBoundary, Quarter.nextFrame, hh, Nat.not_lt.mpr hr, ha]

theorem execSeamEnd_early (h : (s.quarter q).row < 1024) : exec (.seamEnd q) s = .next s := by
  simp [execSeamEnd, h]

theorem execSeamEnd_active (hs : (s.quarter q).seam = true) (hr : 1024 ≤ (s.quarter q).row)
    (ha : (s.quarter q).stack = .active) : exec (.seamEnd q) s =
      .next (s.setQuarter q { s.quarter q with seam := false, oldBank := [] }).generateDue := by
  simp [execSeamEnd, hs, Nat.not_lt.mpr hr, ha]

theorem execSeamEnd_woken (hs : (s.quarter q).seam = true) (hr : 1024 ≤ (s.quarter q).row)
    (he : (s.quarter q).stack = .entering) (hw : (s.quarter q).waking = true)
    (hk : (s.quarter q).armedKind ≠ .openCells) : exec (.seamEnd q) s =
      .next (s.setQuarter q { s.quarter q with
        seam := false, oldBank := [], stack := .active, waking := false }).generateDue := by
  simp [execSeamEnd, hs, Nat.not_lt.mpr hr, he, hw, hk]

theorem execFrameBeacon_own {d : Nat} {rest : List (BitVec 32 × Nat)} (ha : (s.quarter q).aligned = true)
    (hb : (s.quarter q).beacons = ((s.quarter q).sf, d) :: rest) : exec (.frameBeacon q (s.quarter q).sf) s =
      .next (if q = 1 then (s.setQuarter q { s.quarter q with beacons := rest, beaconSeen := true }).beaconTo 2
          (s.quarter q).sf (s.quarter q).beaconDelay
        else s.setQuarter q { s.quarter q with beacons := rest, beaconSeen := true }) := by
  simp [execFrameBeacon, hb, ha]

theorem execFrameBeacon_other {n : BitVec 32} {d : Nat} {rest : List (BitVec 32 × Nat)}
    (ha : (s.quarter q).aligned = true) (hn : n ≠ (s.quarter q).sf) (hb : (s.quarter q).beacons = (n, d) :: rest) :
    exec (.frameBeacon q n) s = .next ((s.integrityFailure q 2 0).restart 0x21) := by
  simp [execFrameBeacon, hb, ha, hn]

/-- The latency of a bridge measured by its round trips (R28). -/
def bridgeLatency (trips : List Nat) : Nat := trips.foldl (fun m r => Nat.max m (r / 2)) 0

/-- The record of a quarter that aligns to a beacon. -/
def Quarter.alignTo (x : Quarter) (q : Nat) (count : BitVec 32) (delay lat : Nat)
    (rest : List (BitVec 32 × Nat)) : Quarter :=
  { x with
    beacons := rest, latency := x.latency.set (if q = 3 then 0 else 1) lat, aligned := true, sf := count
    row := delay + lat, absRow := count.toNat * 4096 + (delay + lat), beaconDelay := delay + lat
    beaconSeen := true, requesters := [] }

theorem execBeaconAlignment_aligns {row delay : Nat} {n : BitVec 32} {rest : List (BitVec 32 × Nat)} {trips : List Nat}
    (hm : s.mode = .boot row) (hq : q ≠ 0) (ha : (s.quarter q).aligned = false)
    (hb : (s.quarter q).beacons = (n, delay) :: rest) (ht : trips.length = 64) :
    ∃ t, exec (.beaconAlignment q n delay trips) s = .next t ∧ t.mem = s.mem ∧
      t.quarter q = (s.quarter q).alignTo q n delay (bridgeLatency trips) rest ∧
      ∀ r, r ≠ q → r ≠ 2 → t.quarter r = s.quarter r := by
  have hexec : exec (.beaconAlignment q n delay trips) s = .next (if q = 1
      then (s.setQuarter q ((s.quarter q).alignTo q n delay (bridgeLatency trips) rest)).beaconTo 2 n
        (delay + bridgeLatency trips)
      else s.setQuarter q ((s.quarter q).alignTo q n delay (bridgeLatency trips) rest)) := by
    simp [execBeaconAlignment, hm, hq, ha, hb, ht, State.alignQuarter, Quarter.alignTo, bridgeLatency]
  refine ⟨_, hexec, ?_⟩
  split
  case isTrue h =>
    subst h
    refine ⟨rfl, by simp [State.beaconTo], fun r hr hr2 => ?_⟩
    rw [State.beaconTo, State.modQuarter_eq, State.setQuarter_quarter_other _ _ _ _ hr2,
      State.setQuarter_quarter_other _ _ _ _ hr]
  case isFalse => exact ⟨rfl, State.setQuarter_quarter_self .., fun r hr _ => State.setQuarter_quarter_other _ _ _ _ hr⟩

/-! ### Shadow writes -/

theorem bankRow_putRow_other (b : Tab (BitVec 128)) {n row : Nat} (r : BitVec 128) (h : n ≠ row) :
    bankRow (putRow b row r) n = bankRow b n := by
  unfold bankRow putRow Tab.get
  split
  · rw [Tab.find_erase_other b h]
  · rw [Tab.find_set_other b r h]

theorem Quarter.setShadow_activeBank (x : Quarter) (b : Tab (BitVec 128)) : (x.setShadow b).activeBank = x.activeBank := by
  cases h : x.active <;> simp [Quarter.setShadow, Quarter.activeBank, h]

theorem Quarter.setShadow_shadowBank (x : Quarter) (b : Tab (BitVec 128)) : (x.setShadow b).shadowBank = b := by
  cases h : x.active <;> simp [Quarter.setShadow, Quarter.shadowBank, h]

theorem execTtShadowDataWrite_free (v : Word) (h : (s.quarter q).shadowArm = false) :
    ∃ r, exec (.ttShadowDataWrite q v) s = .next (s.setQuarter q
      { (s.quarter q).setShadow (putRow (s.quarter q).shadowBank ((s.quarter q).shadowAddr.toNat / 8) r) with
        shadowAddr := (s.quarter q).shadowAddr + 1 }) := by
  simp only [exec_ttShadowDataWrite, execTtShadowDataWrite, h, Bool.false_eq_true, if_false]
  exact ⟨_, rfl⟩

/-! ### Stack power states -/

theorem State.raiseVector_quarters (s : State) (p v : Nat) : (s.raiseVector p v).quarters = s.quarters := by
  unfold State.raiseVector
  dsimp only
  split
  · rfl
  · rfl

theorem State.portEvent_quarters (s : State) (p bit : Nat) : (s.portEvent p bit).quarters = s.quarters := by
  unfold State.portEvent
  dsimp only
  split
  · rfl
  · split
    · exact State.raiseVector_quarters ..
    · rfl

/-- A memory event is told in the book of its quarter; nothing else of any quarter changes. -/
theorem State.memoryEvent_quarter (s : State) (q ev handle off r : Nat) :
    ∃ b, (s.memoryEvent q ev handle off).quarter r = { s.quarter r with book := b } := by
  have hbook : ∀ typ source payload, ∃ b, (s.toQuarter typ source payload q).quarter r = { s.quarter r with book := b } := by
    intro typ source payload
    change ∃ b, (s.setQuarter q _).quarter r = _
    rw [State.setQuarter_quarter]
    split
    · next h => exact ⟨_, by rw [h]⟩
    · exact ⟨_, rfl⟩
  unfold State.memoryEvent
  dsimp only
  split
  · rw [State.quarter, State.toPort, State.portEvent_quarters]
    exact hbook ..
  · exact hbook ..

/-- The stack of a quarter that stays active may enter self-refresh (R417). -/
def State.mayRest (s : State) (q : Nat) : Prop :=
  q ≠ 0 ∧ s.manage.stackMask.getLsbD q = true ∧ (s.quarter q).stack = .active ∧ s.quiet q = true ∧
    s.dmaAddresses q = false

theorem execStackSrEntryTimer_basic (h : s.mayRest q) (he : s.manage.timetable.expert = false) :
    exec (.stackSrEntryTimer q) s =
      .next (s.setQuarter q { s.quarter q with stack := .entering, waking := false }).regenerate := by
  obtain ⟨hq, hm, ha, hquiet, hd⟩ := h
  simp [execStackSrEntryTimer, hq, hm, ha, hquiet, hd, he]

theorem execStackSrEntryTimer_expert (h : s.mayRest q) (he : s.manage.timetable.expert = true)
    (ho : (s.quarter q).openTables = true) : exec (.stackSrEntryTimer q) s = .next (s.enterSelfRefresh q) := by
  obtain ⟨hq, hm, ha, hquiet, hd⟩ := h
  simp [execStackSrEntryTimer, hq, hm, ha, hquiet, hd, he, ho]

theorem State.enterSelfRefresh_tells (s : State) (q : Nat) : s.OnlyTells (s.enterSelfRefresh q) :=
  (s.setQuarter_tells ..).trans (State.memoryEvent_tells ..)

theorem State.enterSelfRefresh_stack (s : State) (q : Nat) :
    ((s.enterSelfRefresh q).quarter q).stack = .selfRefresh := by
  obtain ⟨b, hb⟩ := State.memoryEvent_quarter (s.modQuarter q fun x => { x with stack := .selfRefresh, waking := false })
    q 0x05 0x3FFFFF 0 q
  rw [State.enterSelfRefresh, hb]
  simp

theorem State.serveBar4_none (h : (s.quarter q).bar4 = []) : s.serveBar4 q = s := by
  simp [State.serveBar4, h, State.bar4Turns]

theorem State.serveSb_none (h : (s.quarter q).sbWrites = []) :
    s.serveSb q = s.setQuarter q { s.quarter q with sbWrites := [] } := by
  simp [State.serveSb, h, State.sbTurns]

theorem execSrExitComplete_basic (hs : (s.quarter q).stack = .exiting) (hw : (s.quarter q).waking = true)
    (he : s.manage.timetable.expert = false) : exec (.srExitComplete q) s = .next
      ((((s.setQuarter q { s.quarter q with waking := false }).memoryEvent q 0x06 0x3FFFFF 0).regenerate.serveBar4
        q).serveSb q) := by
  simp [execSrExitComplete, hs, hw, he]

theorem execSrExitComplete_expert (hs : (s.quarter q).stack = .exiting) (hw : (s.quarter q).waking = true)
    (he : s.manage.timetable.expert = true) : exec (.srExitComplete q) s = .next
      (((((s.setQuarter q { s.quarter q with waking := false }).memoryEvent q 0x06 0x3FFFFF 0).modQuarter q
        fun x => { x with stack := .active }).serveBar4 q).serveSb q) := by
  simp [execSrExitComplete, hs, hw, he]

/-- A stack for which nothing waits is ACTIVE, and no more. -/
theorem State.exited_active {u : State} (hb : (u.quarter q).bar4 = []) (hw : (u.quarter q).sbWrites = []) :
    ((u.modQuarter q fun x => { x with stack := .active }).serveBar4 q).serveSb q =
      u.setQuarter q { u.quarter q with stack := .active, sbWrites := [] } := by
  rw [State.modQuarter_eq, State.serveBar4_none (by simpa using hb), State.serveSb_none (by simpa using hw),
    State.setQuarter_quarter_self, State.setQuarter_setQuarter]

/-! ### What waits for a stack -/

theorem State.wakeStack_sbWrites (s : State) (q r : Nat) :
    ((s.wakeStack q).quarter r).sbWrites = (s.quarter r).sbWrites := by
  have hset : ∀ x : Quarter, x.sbWrites = (s.quarter q).sbWrites →
      ((s.setQuarter q x).quarter r).sbWrites = (s.quarter r).sbWrites := by
    intro x hx
    rw [State.setQuarter_quarter]
    split
    · next h => rw [hx, h]
    · rfl
  unfold State.wakeStack
  split
  · rfl
  · rfl
  · exact hset _ rfl
  · exact hset _ rfl

theorem State.reach_sbWrites (s : State) (qs : List Nat) (r : Nat) :
    ((s.reach qs).1.quarter r).sbWrites = (s.quarter r).sbWrites := by
  change ((qs.foldl (fun (s : State) q => s.wakeStack q) s).quarter r).sbWrites = _
  induction qs generalizing s with
  | nil => rfl
  | cons q qs ih => exact (ih _).trans (s.wakeStack_sbWrites q r)

/-- A write into a status block whose stack sleeps joins those that wait for it. -/
theorem State.writeSb_waits {t : Trv} {off : Nat} {bs : List Byte} (hb : isBufAddr t.sb = true) (h0 : t.sb ≠ 0)
    (hq : (s.reach (bufQuarters (bufPos t.sb + off) bs.length)).1.sbQuarter t (bufPos t.sb + off) bs.length = some q) :
    s.writeSb t off bs =
      ((s.reach (bufQuarters (bufPos t.sb + off) bs.length)).1.deferSb q
        { port := t.port, tag := t.tag, pos := bufPos t.sb + off, bytes := bs }, { t with sbLate := true }) := by
  rw [State.writeSb, if_neg h0, if_pos hb]
  simp only [hq]

/-- A single waiting request has its turn whichever port is next. -/
theorem nextBar4_single {r : Bar4Req} (h : r.port < 8) (turn : Nat) : nextBar4 [r] turn = some r := by
  have hturn : r.port ∈ (List.range 8).map fun i => (turn + i) % 8 :=
    List.mem_map.mpr ⟨(r.port + 8 - turn % 8) % 8, List.mem_range.mpr (Nat.mod_lt _ (by decide)), by omega⟩
  cases hn : nextBar4 [r] turn with
  | some u =>
    obtain ⟨p, -, hp⟩ := List.exists_of_findSome?_eq_some hn
    rw [List.mem_singleton.mp (List.mem_of_find?_eq_some hp)]
  | none =>
    have := List.findSome?_eq_none_iff.mp hn r.port hturn
    simp at this

theorem State.serveBar4_single {r : Bar4Req} (hb : (s.quarter q).bar4 = [r]) (hl : s.linked r.port = true)
    (hp : r.port < 8) : s.serveBar4 q =
      (s.setQuarter q { s.quarter q with bar4 := [], bar4Turn := (r.port + 1) % 8 }).bar4 r.port r.write r.offset r.bytes := by
  simp [State.serveBar4, hb, State.bar4Turns, nextBar4_single hp, hl]

end

/-- Settles O37: rows by `State.rowDue` and what a row adds to the stack's work, boundaries, seams, beacons and power
states each by the lemma of its case. -/
theorem timetablesAndStacksAdvance : Obligations.TimetablesAndStacksAdvance := by
  refine ⟨?idle, ?row, ?waits, ?uncorrectable, ?write, ?accum, ?order, ?counted, ?early, ?plain, ?swap, ?zero, ?seam,
    ?woken, ?seamEarly, ?beacon, ?relay, ?otherCount, ?missing, ?align, ?armed, ?shadow, ?entryBasic, ?entryExpert,
    ?stackZero, ?masked, ?asleep, ?exitExpert, ?exitBasic, ?statusBlock, ?window⟩
  case idle =>
    intro s q hh hr hb hs hf hd hl hst he hc hcol
    exact execTimetableRow_idle ⟨hh, hr, hb, hs⟩ hf hd hl hst he (fun c => ⟨(hc c).1, (hc c).2.1⟩)
      (fun c => (hc c).2.2) hcol
  case row => exact fun s q uses asks hh hr hb hs => execTimetableRow_clean ⟨hh, hr, hb, hs⟩ uses asks
  case waits =>
    intro s q ecc uses asks h
    refine execTimetableRow_waits (fun ⟨hh, hr, hb, hs⟩ => ?_) ecc uses asks
    rcases h with h | h | h | ⟨h, h'⟩
    · simp [hh] at h
    · simp [hb] at h
    · omega
    · have := hs h
      omega
  case uncorrectable =>
    exact fun s q uses asks hh hr hb hs => execTimetableRow_uncorrectable ⟨hh, hr, hb, hs⟩ uses asks
  case write => exact fun s q u => State.rowEffect_writes [u]
  case accum => exact fun s q b => State.rowEffect_accums [b]
  case order =>
    intro s q u v h
    rw [State.rowEffect_writes]
    simp [List.insertionSort, List.orderedInsert, Nat.not_le.mpr h]
  case counted => exact fun s q l b h hd hw hb => State.landRow_last h hd hw hb
  case early => exact fun s q h => execSuperframeBoundary_early h
  case plain => exact fun s q hh hq hr ha => execSuperframeBoundary_plain hh hq hr ha
  case swap => exact fun s q hh hq hr ha hs => execSuperframeBoundary_swap hh hq hr ha hs
  case zero =>
    intro s hh hr ha
    refine ⟨_, execSuperframeBoundary_zero hh hr ha, ?_⟩
    simp [State.beaconTo, Quarter.nextFrame]
  case seam => exact fun s q hs hr ha => execSeamEnd_active hs hr ha
  case woken => exact fun s q hs hr he hw hk => execSeamEnd_woken hs hr he hw hk
  case seamEarly => exact fun s q h => execSeamEnd_early h
  case beacon => exact fun s q d rest ha hq hb => (execFrameBeacon_own ha hb).trans (by rw [if_neg hq])
  case relay => exact fun s d rest ha hb => (execFrameBeacon_own ha hb).trans (by rw [if_pos rfl])
  case otherCount => exact fun s q d n rest ha hn hb => execFrameBeacon_other ha hn hb
  case missing =>
    intro s q hq ha hseen hr
    simp [execBeaconMissing, hq, ha, hseen, hr]
  case align =>
    intro s q row delay n rest trips hm hq ha hb ht
    obtain ⟨t, hexec, hmem, hquarter, hother⟩ := execBeaconAlignment_aligns hm hq ha hb ht
    refine ⟨t, hexec, ?_⟩
    rw [hquarter]
    exact ⟨rfl, rfl, rfl, rfl, rfl, hmem, hother⟩
  case armed =>
    intro s q v h
    simp [execTtShadowDataWrite, h]
  case shadow =>
    intro s q v h
    obtain ⟨r, hexec⟩ := execTtShadowDataWrite_free v h
    refine ⟨_, hexec, ?_⟩
    rw [State.setQuarter_quarter_self]
    refine ⟨rfl, fun n => ?_, fun n hn => ?_, rfl⟩
    · exact congrArg (bankRow · n) (Quarter.setShadow_activeBank ..)
    · exact (congrArg (bankRow · n) (Quarter.setShadow_shadowBank ..)).trans (bankRow_putRow_other _ r hn)
  case entryBasic => exact fun s q hq hm ha hquiet hd he => execStackSrEntryTimer_basic ⟨hq, hm, ha, hquiet, hd⟩ he
  case entryExpert =>
    exact fun s q hq hm ha hquiet hd he ho => execStackSrEntryTimer_expert ⟨hq, hm, ha, hquiet, hd⟩ he ho
  case stackZero =>
    intro s
    simp [execStackSrEntryTimer]
  case masked =>
    intro s q h
    simp [execStackSrEntryTimer, h]
  case asleep =>
    exact fun s q => ⟨s.enterSelfRefresh_stack q, (s.enterSelfRefresh_tells q).mem, (s.enterSelfRefresh_tells q).poison⟩
  case exitExpert =>
    intro s q hs hw he hb hsb
    obtain ⟨b, hbook⟩ := State.memoryEvent_quarter (s.setQuarter q { s.quarter q with waking := false }) q 0x06 0x3FFFFF 0 q
    rw [State.setQuarter_quarter_self] at hbook
    refine ⟨_, (execSrExitComplete_expert hs hw he).trans (congrArg _ (State.exited_active ?_ ?_)), ?_, ?_, ?_⟩
    · rw [hbook]; exact hb
    · rw [hbook]; exact hsb
    · rw [State.setQuarter_quarter_self]
    · rw [State.setQuarter_quarter_self, hbook]
    · exact ((s.setQuarter_tells ..).trans (State.memoryEvent_tells ..)).mem
  case exitBasic => exact fun s q hs hw he => execSrExitComplete_basic hs hw he
  case statusBlock =>
    intro s t off q bs hb h0 hq
    rw [State.writeSb_waits hb h0 hq]
    refine ⟨rfl, (s.wakeStacks_tells _).mem, ?_⟩
    simp [State.deferSb, State.reach_sbWrites]
  case window =>
    intro s q r hb hc hl hp
    exact State.serveBar4_single hb (by simp [State.linked, hc, hl]) hp

end Sys2Proof.Machine

/-! PROOFS. Host ports and sharing: queues, port resets, the management principal, containment and the boot timeline. -/

namespace Sys2Proof.Machine

/-! ### Registers of a function that answers

A register write of a port whose BAR0 answers is counted and then taken; counting bears on nothing that it looks at. -/

section
variable {s : State} {p q : Nat}

theorem State.barAccess_open (h : s.barOpen p = true) (n : Nat) (f : State → State) :
    (s.hostTlp p 0 n).barAccess p f = f (s.hostTlp p 0 n) := by
  obtain ⟨hr, hv⟩ : s.reachable p = true ∧ s.recovering = false := by simpa [State.barOpen] using h
  have hr' : (s.hostTlp p 0 n).reachable p = true := by simpa [State.reachable, State.linked] using hr
  have hv' : (s.hostTlp p 0 n).recovering = false := by simpa [State.recovering] using hv
  simp [State.barAccess, hr', hv']

@[simp] theorem State.hostTlp_contained (d n r : Nat) : (s.hostTlp p d n).contained r = s.contained r := by
  simp [State.contained]

@[simp] theorem State.hostTlp_sqIdle (d n r i : Nat) : (s.hostTlp p d n).sqIdle r i = s.sqIdle r i := by
  simp [State.sqIdle]

@[simp] theorem State.hostTlp_cqIdle (d n r i : Nat) : (s.hostTlp p d n).cqIdle r i = s.cqIdle r i := by
  simp [State.cqIdle]

/-! #### Doorbells -/

theorem State.ringSq_enabled (hq : q < (s.port p).ap.sqCount) (hc : s.contained p = false)
    (he : ((s.port p).sq q).en = true) : s.ringSq p q = s.setPort p ((s.port p).setSq q
      (if ((s.port p).sq q).scanning then { (s.port p).sq q with rescan := true }
       else { (s.port p).sq q with scanning := true, rescan := false })) := by
  simp only [State.ringSq, Nat.not_le.mpr hq, hc, he, if_false, Bool.not_true, Bool.or_self, Bool.false_eq_true]
  split <;> rfl

theorem State.ringCqHead_contained {h : BitVec 16} (hq : q < (s.port p).ap.cqCount) (hc : s.contained p = true) :
    s.ringCqHead p q h = s := by
  simp [State.ringCqHead, Nat.not_le.mpr hq, hc]

/-- A head doorbell of an enabled queue returns its slots, or finds a head that returns more than was posted. -/
theorem State.ringCqHead_enabled {h : BitVec 16} (hq : q < (s.port p).ap.cqCount) (hc : s.contained p = false)
    (he : ((s.port p).cq q).en = true) : s.ringCqHead p q h =
      if 2 ^ ((s.port p).cq q).log2 ≤ h.toNat || ((s.port p).cq q).unreturned <
          (h.toNat + 2 ^ ((s.port p).cq q).log2 - ((s.port p).cq q).head) % 2 ^ ((s.port p).cq q).log2 then
        s.setPort p ((s.port p).setCq q { (s.port p).cq q with badHead := true })
      else (s.setPort p ((s.port p).setCq q { (s.port p).cq q with
        head := h.toNat
        unreturned := ((s.port p).cq q).unreturned -
          (h.toNat + 2 ^ ((s.port p).cq q).log2 - ((s.port p).cq q).head) % 2 ^ ((s.port p).cq q).log2 })).postAll
        p q := by
  simp [State.ringCqHead, Nat.not_le.mpr hq, hc, he]

/-- Where no completion waits, returned slots post nothing. -/
theorem State.postAll_none (h : ((s.port p).cq q).waiting = []) : s.postAll p q = s := by
  simp [State.postAll, h, State.postWaiting]

@[simp] theorem Port.setCq_cq (x : Port) (q : Nat) (y : CompQueue) : (x.setCq q y).cq q = y := Tab.get_set_self ..

/-! #### Configuration -/

variable {v : BitVec 32}

/-- A write of SQ_CFG whose fields are in range is refused for what the queue is doing, or takes effect. -/
theorem State.writeSqCfg_inRange {en : Bool} (hv : v.getLsbD 31 = en) (hq : q < (s.port p).ap.sqCount)
    (hn : bitsOf v.toNat 23 16 < (s.port p).ap.cqCount) (lo : 4 ≤ bitsOf v.toNat 4 0) (hi : bitsOf v.toNat 4 0 ≤ 16) :
    let y := (s.port p).sq q
    let cqid := bitsOf v.toNat 23 16
    let log2 := bitsOf v.toNat 4 0
    s.writeSqCfg p q v =
      if y.en && (cqid ≠ y.cqid || log2 ≠ y.log2) then s.sqRefused p q
      else if en && !y.en && !(s.sqIdle p q && ((s.port p).cq cqid).en) then s.sqRefused p q
      else if en && !y.en then s.setPort p ((s.port p).setSq q { y with
        en, cqid, log2, head := 0, phase := true, cache := [], scanning := false, rescan := false, filling := false })
      else if !en && y.en then s.setPort p (((s.port p).setSq q y.stop).dropRing q)
      else s.setPort p ((s.port p).setSq q { y with cqid, log2 }) := by
  subst hv
  simp only [State.writeSqCfg, Nat.not_le.mpr hq, Nat.not_le.mpr hn, Nat.not_lt.mpr lo, Nat.not_lt.mpr hi, decide_false,
    Bool.or_self, Bool.false_eq_true, if_false]

/-- So is a write of CQ_CFG. -/
theorem State.writeCqCfg_inRange {en : Bool} (hv : v.getLsbD 31 = en) (hq : q < (s.port p).ap.cqCount)
    (hn : bitsOf v.toNat 23 16 < (s.port p).ap.cqCount) (lo : 4 ≤ bitsOf v.toNat 4 0) (hi : bitsOf v.toNat 4 0 ≤ 16) :
    let y := (s.port p).cq q
    let coal := bitsOf v.toNat 25 24
    let vector := bitsOf v.toNat 23 16
    let log2 := bitsOf v.toNat 4 0
    s.writeCqCfg p q v =
      if y.en && (vector ≠ y.vector || log2 ≠ y.log2) then s.cqRefused p q
      else if !en && y.en && !s.cqIdle p q then s.cqRefused p q
      else if en && !y.en then s.setPort p ((s.port p).setCq q { y with
        en, coal, vector, log2, tail := 0, head := 0, unreturned := 0, phase := true })
      else s.setPort p ((s.port p).setCq q { y with en, coal, vector, log2 }) := by
  subst hv
  simp only [State.writeCqCfg, Nat.not_le.mpr hq, Nat.not_le.mpr hn, Nat.not_lt.mpr lo, Nat.not_lt.mpr hi, decide_false,
    Bool.or_self, Bool.false_eq_true, if_false]

/-- An expert vector keeps its level and takes what is written at its next message (R112). -/
theorem State.writeVecCoal_expert (hq : q < (s.port p).ap.cqCount) (hl : v.getLsbD 31 = true)
    (he : ((s.port p).vec q).expert = true) (lo : 1 ≤ bitsOf v.toNat 8 0) (hi : bitsOf v.toNat 8 0 ≤ 256) :
    s.writeVecCoal p q v = s.setPort p ((s.port p).setVec q { (s.port p).vec q with
      thresh := bitsOf v.toNat 8 0, timerUs := bitsOf v.toNat 25 16
      held := if ((s.port p).vec q).count = 0 then none else some ((s.port p).coalNow q) }) := by
  simp [State.writeVecCoal, Nat.not_le.mpr hq, hl, he, Nat.ne_of_gt lo, Nat.not_lt.mpr hi]

/-! #### The scan -/

/-- A port may scan: nothing keeps it, and the turn is queue `q`'s. -/
def State.scans (s : State) (p q : Nat) : Prop :=
  (s.port p).d3hot = false ∧ s.contained p = false ∧ (s.port p).reads.any HostRead.isRing = false ∧
    (s.port p).nextTurn = some q

theorem Port.nextTurn_mayTurn {x : Port} (h : x.nextTurn = some q) : x.mayTurn q = true := List.find?_some h

/-- With its cache empty the queue reads its ring. -/
theorem execScanTurn_reads (h : s.scans p q) (hc : ((s.port p).sq q).cache = []) (hr : (s.port p).canRead = true)
    {n a : Nat} (hn : n = 64 * Nat.min 8 (2 ^ ((s.port p).sq q).log2 - ((s.port p).sq q).head))
    (ha : a = ((s.port p).sq q).base.toNat + 64 * ((s.port p).sq q).head) :
    exec (.scanTurn p) s = .next ((cut (s.port p).mrrs a n).foldl
      (fun (t : State) r => t.issueRead p r.1 r.2 (.ring q (r.1 - a)))
      (s.setPort p { (s.port p).setSq q { (s.port p).sq q with
        filling := true, fill := List.replicate n 0, fillLen := n } with turn := q })) := by
  obtain ⟨hd, hcon, hring, hturn⟩ := h
  subst hn ha
  simp only [exec_scanTurn, execScanTurn, hd, hcon, hring, hturn, hc, hr, Bool.or_self, Bool.false_eq_true, if_false,
    if_true]

/-- The only entry of a cache whose queue has the turn is not held back by a FENCE: it is handed on. -/
theorem execScanTurn_handsOn (h : s.scans p q) {e : List Byte} (hc : ((s.port p).sq q).cache = [e]) :
    exec (.scanTurn p) s = .next (s.setPort p { (s.port p).setSq q ((s.port p).sq q).consume with
      turn := (q + 1) % 256, handed := (s.port p).handed ++ [{ q, bytes := e }] }) := by
  obtain ⟨hd, hcon, hring, hturn⟩ := h
  obtain ⟨⟨⟨-, hfence⟩, -⟩, -⟩ : ((((s.port p).sq q).scanning = true ∧ ((s.port p).sq q).fenced = false) ∧
      (s.port p).admStall q = false) ∧ ((s.port p).sq q).invBusy = false := by
    simpa [Port.mayTurn] using Port.nextTurn_mayTurn hturn
  have hhand : handOn 1 ((s.port p).sq q) q = (((s.port p).sq q).consume, [{ q, bytes := e }]) := by
    simp [handOn, hc, hfence]
  simp [execScanTurn, hd, hcon, hring, hturn, hc, hhand]

end

/-- Settles O8: each register's write by its own rule above, and the scan by the turn's two lemmas. -/
theorem queuesAreConfiguredAndScanned : Obligations.QueuesAreConfiguredAndScanned := by
  refine ⟨?sqDoorbell, ?headContained, ?headReturns, ?badHead, ?sqEnable, ?sqRefused, ?sqDisable, ?cqEnable, ?cqDisable,
    ?vecCoal, ?invWrite, ?invalidation, ?scanReads, ?scanHandsOn⟩
  case sqDoorbell =>
    intro s p q hb hq hc he
    rw [exec_sqDoorbell, execSqDoorbell, State.barAccess_open hb,
      State.ringSq_enabled (by simpa using hq) (by simpa using hc) (by simpa using he), State.hostTlp_port]
  case headContained =>
    intro s p q h hb hq hc
    rw [exec_cqHeadDoorbell, execCqHeadDoorbell, State.barAccess_open hb,
      State.ringCqHead_contained (by simpa using hq) (by simpa using hc)]
  case headReturns =>
    intro s p q h hb hc hq he hlt hw hd
    rw [exec_cqHeadDoorbell, execCqHeadDoorbell, State.barAccess_open hb,
      State.ringCqHead_enabled (by simpa using hq) (by simpa using hc) (by simpa using he)]
    rw [State.hostTlp_port, if_neg (by simp [hlt, hd]), State.postAll_none (by simpa using hw)]
  case badHead =>
    intro s p q h hb hc hq he hlt
    rw [exec_cqHeadDoorbell, execCqHeadDoorbell, State.barAccess_open hb,
      State.ringCqHead_enabled (by simpa using hq) (by simpa using hc) (by simpa using he)]
    rw [State.hostTlp_port, if_pos (by simp [hlt])]
  case sqEnable =>
    intro s p q v hb hv hq hn lo hi he hidle hcq
    rw [exec_sqEnable, execSqEnable, State.barAccess_open hb,
      State.writeSqCfg_inRange hv (by simpa using hq) (by simpa using hn) lo hi]
    simp [he, hidle, hcq]
  case sqRefused =>
    intro s p q v hb hv hq hn lo hi he hcq
    rw [exec_sqEnable, execSqEnable, State.barAccess_open hb,
      State.writeSqCfg_inRange hv (by simpa using hq) (by simpa using hn) lo hi]
    simp [he, hcq]
  case sqDisable =>
    intro s p q v hb hv hq hn lo hi he hcq hlog
    rw [exec_sqDisable, execSqDisable, State.barAccess_open hb,
      State.writeSqCfg_inRange hv (by simpa using hq) (by simpa using hn) lo hi]
    simp [he, hcq, hlog, SubQueue.stop]
  case cqEnable =>
    intro s p q v hb hv hq hn lo hi he
    rw [exec_cqEnable, execCqEnable, State.barAccess_open hb,
      State.writeCqCfg_inRange hv (by simpa using hq) (by simpa using hn) lo hi]
    simp [he]
  case cqDisable =>
    intro s p q v hb hv hq hn lo hi he hvec hlog
    rw [exec_cqDisable, execCqDisable, State.barAccess_open hb,
      State.writeCqCfg_inRange hv (by simpa using hq) (by simpa using hn) lo hi]
    cases hidle : s.cqIdle p q <;> simp [he, hvec, hlog, hidle]
  case vecCoal =>
    intro s p q v hb hq hv he lo hi
    rw [exec_cqVecCoalWrite, execCqVecCoalWrite, State.barAccess_open hb,
      State.writeVecCoal_expert (by simpa using hq) hv (by simpa using he) lo hi, State.hostTlp_port]
  case invWrite =>
    intro s p q v hb hq hv
    rw [exec_sqInvWrite, execSqInvWrite, State.barAccess_open hb]
    simp [State.writeSqInv, Nat.not_le.mpr hq, hv]
  case invalidation =>
    intro s p q h
    simp [execSqInvalidation, h]
  case scanReads =>
    exact fun s p q n a hd hc hr ht hcache hread hn ha => execScanTurn_reads ⟨hd, hc, hr, ht⟩ hcache hread hn ha
  case scanHandsOn => exact fun s p q e hd hc hr ht hcache => execScanTurn_handsOn ⟨hd, hc, hr, ht⟩ hcache

/-! ### Kilvor requests -/

/-- A fold whose steps all keep what `g` reads keeps it. -/
theorem foldl_keeps {σ α β : Type} (g : σ → β) {f : σ → α → σ} (h : ∀ s a, g (f s a) = g s) (l : List α) (s : σ) :
    g (l.foldl f s) = g s := by
  induction l generalizing s with
  | nil => rfl
  | cons a l ih => exact (ih _).trans (h s a)

/-- The bytes of a number hold it, as far as they go. -/
theorem leNat_leBytes (n v : Nat) : leNat (leBytes n v) = v % 256 ^ n := by
  induction n generalizing v with
  | zero => simp [leBytes, leNat, Nat.mod_one]
  | succ n ih =>
    have hmod : v % 256 ^ (n + 1) = v % 256 + 256 * (v / 256 % 256 ^ n) := by rw [Nat.pow_succ', Nat.mod_mul]
    rw [leBytes, leNat, ih, BitVec.toNat_ofNat, hmod]

section
variable {s : State} {src : KilvorSrc} {code : Nat} {r : KReq}

/-- A sound request with a command code that is served at once. -/
def State.served (s : State) (src : KilvorSrc) (code : Nat) (r : KReq) : Prop :=
  s.kreq src = some r ∧ s.kAwake src = true ∧ r.sound = true ∧ r.code = code

theorem State.kfor_asked (hr : s.kreq src = some r) (hs : r.sound = true) (hc : r.code = code) (f : KReq → State) :
    s.kfor src code f = f r := by
  simp [State.kfor, hr, hs, hc]

/-- What a change that is asked for and served at once answers. -/
theorem State.kchange_served (h : s.served src code r) (ok : List Byte → Bool) (f : State → List Byte → State) :
    s.kchange src code ok f =
      if !s.isPrincipal r then s.kreply src 2 []
      else if !ok r.payload then s.kreply src 3 []
      else f s r.payload := by
  obtain ⟨hr, ha, hs, hc⟩ := h
  rw [State.kchange, State.kfor_asked hr hs hc, State.kasked, State.kwake_awake ha]

/-- The payloads that a change accepts, by its code: a grant for STAGE-GRANT, none for COMMIT and DISCARD (R600). -/
def State.changeOk (s : State) (code : Nat) : List Byte → Bool := if code = 2 then s.grantOk else fun b => b = []

/-- Every command that asks for a change is a `kchange` of its code. -/
theorem exec_changeCommand {c : Instr} (h : changeCommand c = some (src, code)) :
    ∃ f, ∀ s, exec c s = .next (s.kchange src code (s.changeOk code) f) := by
  unfold changeCommand at h
  split at h
  case h_4 => cases h
  all_goals
    obtain ⟨rfl, rfl⟩ : _ = src ∧ _ = code := by simpa using h
    exact ⟨_, fun _ => rfl⟩

/-! #### GET-APPORTIONMENT -/

/-- The data of GET-APPORTIONMENT: the view of a port and the profiles (R80, R600). -/
def State.apportionData (s : State) (p : Nat) : List Byte :=
  ((List.range 256).flatMap fun i => leBytes 4 (((s.port p).ap.view (4 * i)).getD 0)) ++
    (List.range 12).map fun e => (s.engine e).committed

theorem State.apportionData_length (p : Nat) : (s.apportionData p).length = 1036 := by
  simp only [State.apportionData, List.length_append, List.length_flatMap, Laws.leBytes_length, List.map_const',
    List.sum_replicate, List.length_range, List.length_map, smul_eq_mul]

/-- The view begins with GEN. -/
theorem State.apportionData_gen (p : Nat) : fieldAt (s.apportionData p) 0 4 = (s.port p).ap.gen.toNat := by
  have hrange : List.range 256 = 0 :: List.range' 1 255 := by rw [List.range_eq_range', List.range'_succ]
  have hgen : (s.port p).ap.gen.toNat < 256 ^ 4 := (s.port p).ap.gen.isLt
  rw [fieldAt, List.drop_zero, State.apportionData, hrange, List.flatMap_cons, List.append_assoc,
    List.take_left' (Laws.leBytes_length 4 _), leNat_leBytes]
  exact Nat.mod_eq_of_lt hgen

theorem execGetApportionment_served (h : s.served src 0x01 r) : exec (.getApportionment src) s = .next
    (if r.payload.length ≠ 1 || !(s.port (byteAt r.payload 0)).created then s.kreply src 3 []
     else s.kreply src 0 (s.apportionData (byteAt r.payload 0))) := by
  obtain ⟨hr, ha, hs, hc⟩ := h
  rw [exec_getApportionment, execGetApportionment, State.kfor_asked hr hs hc, State.kwake_awake ha]
  rfl

theorem execSetAdmin_served (h : s.served src 0x05 r) : exec (.setAdmin src) s = .next
    (if r.sender.isSome then s.kreply src 2 []
     else if r.payload.length ≠ 1 ||
        !(byteAt r.payload 0 = 0xFF || (byteAt r.payload 0 < 8 && (s.port (byteAt r.payload 0)).created)) then
      s.kreply src 3 []
     else (s.setPrincipal (if byteAt r.payload 0 = 0xFF then none else some (byteAt r.payload 0))).kreply src 0 []) := by
  obtain ⟨hr, ha, hs, hc⟩ := h
  rw [exec_setAdmin, execSetAdmin, State.kfor_asked hr hs hc, State.kwake_awake ha]

/-- A payload of one byte is that byte. -/
theorem byteAt_singleton (b : Byte) : byteAt [b] 0 = b.toNat := rfl

/-! #### STAGE-GRANT -/

/-- The grant of a payload takes the place of an earlier one of its class, port and index (R77). -/
def State.stage (s : State) (b : List Byte) (port : Nat) : State :=
  { s with manage := { s.manage with
      staged := s.manage.staged.filter (fun h => !(h.cls = byteAt b 0 && h.port = port && h.index = byteAt b 2)) ++
        [{ cls := byteAt b 0, port, index := byteAt b 2, value := b.drop 4 }] } }

theorem execStageGrant_accepts (h : s.served src 0x02 r) (hp : s.isPrincipal r = true)
    (hok : s.grantOk r.payload = true) : exec (.stageGrant src) s = .next
      ((s.stage r.payload (if byteAt r.payload 0 = 0xB then 0 else byteAt r.payload 1)).kreply src 0 []) := by
  rw [exec_stageGrant, execStageGrant, State.kchange_served h]
  simp only [hp, hok, Bool.not_true, Bool.false_eq_true, if_false]
  rfl

/-! #### COMMIT -/

theorem State.portEvent_mem (s : State) (p bit : Nat) : (s.portEvent p bit).mem = s.mem := (s.portEvent_tells p bit).mem

theorem State.eraseFrom_mem (s : State) (p count : Nat) : (s.eraseFrom p count).mem = s.mem := by
  unfold State.eraseFrom
  dsimp only
  split
  · rfl
  · exact State.spi_mem ..

theorem State.commitPort_mem (s : State) (p : Nat) (new : Apportion) : (s.commitPort p new).mem = s.mem := by
  unfold State.commitPort
  dsimp only
  split
  · rfl
  · rw [State.portEvent_mem, State.eraseFrom_mem, State.setPort_mem]

theorem State.resetShelfParams_mem (s old : State) : (s.resetShelfParams old).mem = s.mem := by
  unfold State.resetShelfParams
  exact foldl_keeps State.mem (by intro s sh; split <;> rfl) _ s

theorem State.commitProfiles_mem (s old : State) : (s.commitProfiles old).mem = s.mem := by
  unfold State.commitProfiles
  exact foldl_keeps State.mem (by intros; rfl) _ s

/-- New tables leave memory and what is staged as they are. -/
theorem State.generate_keeps (s : State) : s.generate.mem = s.mem ∧ s.generate.manage.staged = s.manage.staged := by
  unfold State.generate
  exact ⟨foldl_keeps State.mem (by intros; rfl) _ s, foldl_keeps (fun t : State => t.manage.staged) (by intros; rfl) _ s⟩

theorem State.regenerate_keeps (s : State) :
    s.regenerate.mem = s.mem ∧ s.regenerate.manage.staged = s.manage.staged := by
  unfold State.regenerate
  split
  · exact ⟨rfl, rfl⟩
  · split
    · exact ⟨rfl, rfl⟩
    · exact s.generate_keeps

/-- A commit leaves nothing staged, and memory as it is. -/
theorem State.commitNow_keeps (s : State) : s.commitNow.manage.staged = [] ∧ s.commitNow.mem = s.mem := by
  have hmem : ((((List.range 8).foldl (fun (t : State) p => t.commitPort p (s.staged p)) s).resetShelfParams
      s).commitProfiles s).mem = s.mem := by
    rw [State.commitProfiles_mem, State.resetShelfParams_mem]
    exact foldl_keeps State.mem (fun t p => t.commitPort_mem p _) _ s
  unfold State.commitNow
  dsimp only
  generalize ((List.foldl _ s _).resetShelfParams s).commitProfiles s = u at hmem ⊢
  split
  · rw [(State.regenerate_keeps _).1, (State.regenerate_keeps _).2]
    exact ⟨rfl, hmem⟩
  · exact ⟨rfl, hmem⟩

/-- COMMIT in its turn (R73, R77). -/
theorem execCommit_inTurn (h : s.served src 0x03 r) (hp : s.isPrincipal r = true) (hb : r.payload = [])
    (hw : s.commitWaits src = false) : exec (.commit src) s = .next (
      if s.anyContain then s.kreply src 1 []
      else if s.totalsOk = false then s.kreply src 5 []
      else if (List.range 8).any (fun p => !s.withdrawOk p) then s.kreply src 4 []
      else s.commitNow.kreply src 0 []) := by
  rw [exec_commit, execCommit, State.kchange_served h]
  simp only [hp, hb, hw, Bool.not_true, decide_true, Bool.false_eq_true, if_false, List.not_all_eq_any_not,
    Bool.not_eq_true']

/-- One that came by MCTP and has to wait joins the service queue (R407). -/
theorem execCommit_mctpWaits {path : MctpPath} {body : List Byte} (hr : s.kreq (.mctp path body) = some r)
    (hs : r.sound = true) (hc : r.code = 0x03) (hp : s.isPrincipal r = true) (hb : r.payload = [])
    (hw : s.commitWaits (.mctp path body) = true) :
    exec (.commit (.mctp path body)) s = .next (s.deferCommit (.mctp path body)) := by
  rw [exec_commit, execCommit, State.kchange_served ⟨hr, rfl, hs, hc⟩]
  simp [hp, hb, hw]

theorem execDiscard_accepts (h : s.served src 0x04 r) (hp : s.isPrincipal r = true) (hb : r.payload = []) :
    exec (.discard src) s = .next (({ s with manage := { s.manage with staged := [] } } : State).kreply src 0 []) := by
  rw [exec_discard, execDiscard, State.kchange_served h]
  simp [hp, hb]

theorem execKilvorUnknownCommand_unlisted (h : s.served src code r) (hc : 9 < code) :
    exec (.kilvorUnknownCommand src) s = .next (s.kreply src 3 []) := by
  obtain ⟨hr, ha, hs, rfl⟩ := h
  simp [execKilvorUnknownCommand, hr, KReq.unknown, hc, State.kwake_awake ha, Nat.not_le.mpr hc]

/-! #### SET-ADMIN -/

/-- The role passes: memory stays, and a new principal finds nothing staged (R71). -/
theorem State.setPrincipal_spec (s : State) (p : Option Nat) : (s.setPrincipal p).manage.principal = p ∧
    (s.setPrincipal p).mem = s.mem ∧ (p ≠ s.manage.principal → (s.setPrincipal p).manage.staged = []) := by
  unfold State.setPrincipal
  split
  case isTrue h => exact ⟨h.symm, rfl, fun hne => absurd h hne⟩
  case isFalse =>
    refine ⟨rfl, ?_, fun _ => rfl⟩
    cases s.manage.principal <;> rfl

end

/-! #### A request whose reply area sleeps -/

section
variable {s : State} {q : Nat}

theorem State.wakeStack_quarter_other {r : Nat} (h : q ≠ r) : (s.wakeStack r).quarter q = s.quarter q := by
  unfold State.wakeStack
  split <;> simp [h]

theorem State.wakeStack_exiting (h : (s.quarter q).stack = .exiting) (r : Nat) :
    ((s.wakeStack r).quarter q).stack = .exiting := by
  by_cases hr : q = r
  · subst hr; simp [State.wakeStack, h]
  · rw [State.wakeStack_quarter_other hr, h]

/-- A stack in self-refresh that is among those woken leaves it. -/
theorem State.reach_exiting {qs : List Nat} (hq : q ∈ qs) (h : (s.quarter q).stack = .selfRefresh) :
    ((s.reach qs).1.quarter q).stack = .exiting := by
  have hstays : ∀ (l : List Nat) (t : State), (t.quarter q).stack = .exiting →
      ((l.foldl (fun (s : State) q => s.wakeStack q) t).quarter q).stack = .exiting := by
    intro l
    induction l with
    | nil => exact fun _ ht => ht
    | cons r l ih => exact fun t ht => ih _ (State.wakeStack_exiting ht r)
  unfold State.reach
  dsimp only
  induction qs generalizing s with
  | nil => cases hq
  | cons r l ih =>
    rw [List.foldl_cons]
    by_cases hr : q = r
    · subst hr
      exact hstays l _ (by rw [State.wakeStack_selfRefresh h, State.setQuarter_quarter_self])
    · refine ih ((List.mem_cons.mp hq).resolve_left hr) ?_
      rw [State.wakeStack_quarter_other hr, h]

theorem State.reach_asleep {qs : List Nat} (hq : q ∈ qs) (h : (s.quarter q).stack = .selfRefresh) :
    (s.reach qs).2 = false := by
  refine Bool.eq_false_iff.mpr fun hall => ?_
  have := List.all_eq_true.mp hall q hq
  simp [Quarter.reachable, h] at this

/-- Stacks that wake change nothing else. -/
theorem State.reach_keeps (s : State) (qs : List Nat) : ∃ quarters, (s.reach qs).1 = { s with quarters } := by
  unfold State.reach
  dsimp only
  induction qs generalizing s with
  | nil => exact ⟨_, rfl⟩
  | cons r l ih =>
    obtain ⟨quarters, hl⟩ := ih (s.wakeStack r)
    rw [List.foldl_cons, hl]
    unfold State.wakeStack
    split <;> exact ⟨_, rfl⟩

/-- What has to wait for a sleeping stack is not done; the stack wakes. -/
theorem State.whenAwake_asleep {qs : List Nat} (hq : q ∈ qs) (h : (s.quarter q).stack = .selfRefresh)
    (f : State → State) : ∃ quarters, s.whenAwake qs f = { s with quarters } ∧
      ((s.whenAwake qs f).quarter q).stack = .exiting := by
  have hw : s.whenAwake qs f = (s.reach qs).1 := by
    simp [State.whenAwake, State.reach_asleep hq h]
  obtain ⟨quarters, hr⟩ := s.reach_keeps qs
  exact ⟨quarters, hw.trans hr, hw ▸ State.reach_exiting hq h⟩

/-- A change asked for INDIRECT waits for the stack of its reply area. -/
theorem State.kchange_waits {code : Nat} {r : KReq} {v : Service} {rest : List Service}
    (hr : s.kreq .service = some r) (hs : r.sound = true) (hc : r.code = code) (hv : s.service = v :: rest)
    (hm : v.mctp = none) (ha : s.replyArea v = true) (ok : List Byte → Bool) (f : State → List Byte → State) :
    ∃ g, s.kchange .service code ok f = s.whenAwake (bufQuarters (bufPos (v.quad 7)) 4096) g := by
  rw [State.kchange, State.kfor_asked hr hs hc, State.kasked, State.kwake]
  simp only [State.kready, hv, hm, ha, Option.isNone_none, Bool.and_self, if_true]
  exact ⟨_, rfl⟩

end

/-- Settles O39: a change is what `State.kchange_served` says of it, and the others answer by their own lemma. -/
theorem kilvorRequestsAreServed : Obligations.KilvorRequestsAreServed := by
  refine ⟨?notPrincipal, ?view, ?stage, ?commit, ?committed, ?deferred, ?sleeping, ?discard, ?admin, ?adminPort, ?role,
    ?unknown, ?badPayload, ?badView, ?badAdmin, ?adminNone, ?profile⟩
  case notPrincipal =>
    intro s c src code r hcmd hr ha hs hc hp
    obtain ⟨f, hf⟩ := exec_changeCommand hcmd
    rw [hf, State.kchange_served ⟨hr, ha, hs, hc⟩]
    simp [hp]
  case view =>
    intro s src r p hr ha hs hc hb hp
    refine ⟨s.apportionData p.toNat, ?_, s.apportionData_length _, s.apportionData_gen _⟩
    rw [execGetApportionment_served ⟨hr, ha, hs, hc⟩, hb, byteAt_singleton]
    simp [hp]
  case stage =>
    intro s src r hr ha hs hc hp hok hcls
    rw [execStageGrant_accepts ⟨hr, ha, hs, hc⟩ hp hok, if_neg hcls]
    rfl
  case commit =>
    intro s src r hr ha hs hc hp hb hw
    exact execCommit_inTurn ⟨hr, ha, hs, hc⟩ hp hb hw
  case committed => exact fun s => s.commitNow_keeps
  case deferred =>
    intro s path body r hr hs hc hp hb hw
    exact ⟨_, execCommit_mctpWaits hr hs hc hp hb hw, rfl, rfl, rfl, rfl⟩
  case sleeping =>
    intro s c code q r v rest hcmd hr hs hc hv hm ha hq hstack
    obtain ⟨f, hf⟩ := exec_changeCommand hcmd
    obtain ⟨g, hg⟩ := State.kchange_waits hr hs hc hv hm ha (s.changeOk code) f
    obtain ⟨quarters, hkeeps, hexit⟩ := State.whenAwake_asleep hq hstack g
    refine ⟨_, by rw [hf, hg], ?_, hexit, ?_, ?_⟩ <;> rw [hkeeps]
  case discard =>
    intro s src r hr ha hs hc hp hb
    exact execDiscard_accepts ⟨hr, ha, hs, hc⟩ hp hb
  case admin =>
    intro s src r p hr ha hs hc hn hb hlt hp
    rw [execSetAdmin_served ⟨hr, ha, hs, hc⟩, hn, hb, byteAt_singleton]
    have hff : p.toNat ≠ 0xFF := by omega
    simp [hlt, hp, hff]
  case adminPort =>
    intro s src r p hr ha hs hc hn
    rw [execSetAdmin_served ⟨hr, ha, hs, hc⟩, hn]
    rfl
  case role => exact fun s p => s.setPrincipal_spec p
  case unknown =>
    intro s src r hr ha hs hc
    exact execKilvorUnknownCommand_unlisted ⟨hr, ha, hs, rfl⟩ hc
  case badPayload =>
    intro s c src code r hcmd hr ha hs hc hp hgrant hother
    obtain ⟨f, hf⟩ := exec_changeCommand hcmd
    have hno : s.changeOk code r.payload = false := by
      unfold State.changeOk
      split
      · exact hgrant ‹_›
      · simpa using hother ‹_›
    rw [hf, State.kchange_served ⟨hr, ha, hs, hc⟩]
    simp [hp, hno]
  case badView =>
    intro s src r hr ha hs hc hbad
    rw [execGetApportionment_served ⟨hr, ha, hs, hc⟩, if_pos (by simpa using hbad)]
  case badAdmin =>
    intro s src r hr ha hs hc hn hbad
    rw [execSetAdmin_served ⟨hr, ha, hs, hc⟩, hn, if_neg (by simp), if_pos]
    rcases hbad with hlen | ⟨hff, hport | hport⟩
    · simp [hlen]
    · simp [hff, Nat.not_lt.mpr hport]
    · simp [hff, hport]
  case adminNone =>
    intro s src r hr ha hs hc hn hb
    rw [execSetAdmin_served ⟨hr, ha, hs, hc⟩, hn, hb, byteAt_singleton]
    rfl
  case profile =>
    intro s src r hr ha hs hc hp hok hcls
    rw [execStageGrant_accepts ⟨hr, ha, hs, hc⟩ hp hok, if_pos hcls, State.stage, hcls]

/-! ### Resets and link events of a host port -/

/-- Of a table whose every value is changed, an entry is the changed entry. -/
theorem Tab.find_mapVals {α β : Type} (t : Tab α) (f : α → β) (k : Nat) :
    (Tab.mapVals t f).find k = (t.find k).map f := by
  induction t with
  | nil => rfl
  | cons e t ih =>
    obtain ⟨j, a⟩ := e
    by_cases h : j = k
    · simp [Tab.mapVals, Tab.find, h]
    · simpa [Tab.mapVals, Tab.find, h] using ih

theorem Tab.get_mapVals {α β : Type} (t : Tab α) (f : α → β) (k : Nat) (d : α) :
    (Tab.mapVals t f).get k (f d) = f (t.get k d) := by
  rw [Tab.get, Tab.find_mapVals, Tab.get]
  cases t.find k <;> rfl

/-- `y` differs from the port record `x` in event bits and pending bits alone. -/
def Port.Latches (x y : Port) : Prop := ∃ events pba, y = { x with events := events, pba := pba }

theorem Port.Latches.refl (x : Port) : x.Latches x := ⟨_, _, rfl⟩

theorem Port.Latches.trans {x y z : Port} (h : x.Latches y) (k : y.Latches z) : x.Latches z := by
  obtain ⟨_, _, rfl⟩ := h
  obtain ⟨_, _, rfl⟩ := k
  exact ⟨_, _, rfl⟩

section
variable (s : State) (p : Nat)

/-- Of two writes of a port the later stands. -/
@[simp] theorem State.setPort_setPort (x y : Port) : (s.setPort p x).setPort p y = s.setPort p y := by
  simp [State.setPort]

/-! #### What a port event changes -/

theorem State.raiseVector_eq (v : Nat) :
    ∃ ports view taps out, s.raiseVector p v = { s with ports := ports, view := view, taps := taps, out := out } := by
  unfold State.raiseVector
  dsimp only
  split <;> exact ⟨_, _, _, _, rfl⟩

theorem State.portEvent_eq (bit : Nat) :
    ∃ ports view taps out, s.portEvent p bit = { s with ports := ports, view := view, taps := taps, out := out } := by
  unfold State.portEvent
  dsimp only
  split
  · exact ⟨_, _, _, _, rfl⟩
  · split
    · obtain ⟨_, _, _, _, h⟩ := State.raiseVector_eq (s.setPort p { s.port p with
        events := (s.port p).events ||| BitVec.ofNat 6 (2 ^ bit) }) p 256
      exact ⟨_, _, _, _, h⟩
    · exact ⟨_, _, _, _, rfl⟩

/-- No other port sees it. -/
theorem State.portEvent_other (bit : Nat) {r : Nat} (h : r ≠ p) : (s.portEvent p bit).port r = s.port r := by
  unfold State.portEvent
  dsimp only
  split
  · rfl
  · split
    · rw [(State.raiseVector_keeps _ _ _).2.2 r h, State.setPort_port_other _ _ _ _ h]
    · rw [State.setPort_port_other _ _ _ _ h]

theorem State.portEvent_latches (bit r : Nat) : (s.port r).Latches ((s.portEvent p bit).port r) := by
  by_cases hr : r = p
  case neg => rw [State.portEvent_other _ _ _ hr]; exact .refl _
  subst hr
  unfold State.portEvent
  dsimp only
  split
  · exact .refl _
  · split
    · obtain ⟨⟨l, hl⟩, -⟩ := State.raiseVector_keeps (s.setPort r { s.port r with
        events := (s.port r).events ||| BitVec.ofNat 6 (2 ^ bit) }) r 256
      rw [hl, State.setPort_port_self]
      exact ⟨_, _, rfl⟩
    · rw [State.setPort_port_self]
      exact ⟨_, _, rfl⟩

/-! #### An event of a containment -/

theorem State.deviceEvent_tells (typ cause bits detail : Nat) : s.OnlyTells (s.deviceEvent typ cause bits detail) :=
  s.toDevice_tells ..

theorem State.containEvent_tells (typ cause bits detail : Nat) (ports : List Nat) :
    s.OnlyTells (s.containEvent typ cause bits detail ports) :=
  (s.deviceEvent_tells ..).trans (.foldl (fun s _ => s.toPort_tells ..) _ _)

theorem State.containEvent_one (typ cause bits detail : Nat) : s.containEvent typ cause bits detail [p] =
    ((s.deviceEvent typ cause bits detail).setPort p { s.port p with
      book := (s.port p).book.accept typ 0x30 (devicePayload s cause bits detail) }).portEvent p 2 := rfl

/-- It goes to the device's book and to that of the port in scope, and to no other port. -/
theorem State.containEvent_port (typ cause bits detail : Nat) :
    ({ s.port p with book := (s.port p).book.accept typ 0x30 (devicePayload s cause bits detail) } : Port).Latches
      ((s.containEvent typ cause bits detail [p]).port p) := by
  have h := State.portEvent_latches ((s.deviceEvent typ cause bits detail).setPort p { s.port p with
    book := (s.port p).book.accept typ 0x30 (devicePayload s cause bits detail) }) p 2 p
  rwa [State.setPort_port_self, ← State.containEvent_one] at h

theorem State.containEvent_other (typ cause bits detail : Nat) {r : Nat} (h : r ≠ p) :
    (s.containEvent typ cause bits detail [p]).port r = s.port r :=
  (State.portEvent_other _ _ _ h).trans (State.setPort_port_other _ _ _ _ h)

theorem State.containEvent_deviceBook (typ cause bits detail : Nat) :
    (s.containEvent typ cause bits detail [p]).deviceBook =
      s.deviceBook.accept typ 0x30 (devicePayload s cause bits detail) := by
  rw [State.containEvent_one]
  generalize hu : State.setPort _ p _ = u
  obtain ⟨_, _, _, _, h⟩ := u.portEvent_eq p 2
  rw [h, ← hu]
  rfl

/-! #### DMA runs of a port that is lost -/

theorem State.dmaPortLost_ports : (s.dmaPortLost p).ports = s.ports := by
  unfold State.dmaPortLost
  exact foldl_keeps State.ports (by intro s ch; dsimp only; split <;> rfl) _ s

theorem State.dmaPortLost_port (r : Nat) : (s.dmaPortLost p).port r = s.port r := by
  rw [State.port, State.dmaPortLost_ports]; rfl

/-! #### Straps -/

/-- The ports of a list exist from now on, with a width. -/
def State.createPorts (s : State) (w : Nat) (l : List Nat) : State :=
  l.foldl (fun (s : State) p => s.modPort p fun x => { x with created := true, width := w }) s

/-- No port record changes but for them, and of the state nothing else. -/
theorem State.createPorts_spec (w : Nat) (l : List Nat) : (∃ ports, s.createPorts w l = { s with ports := ports }) ∧
    ∀ r, ((s.createPorts w l).port r).perst = (s.port r).perst ∧
      ((s.createPorts w l).port r).created = ((s.port r).created || l.contains r) := by
  induction l generalizing s with
  | nil => exact ⟨⟨_, rfl⟩, fun r => ⟨rfl, by simp [State.createPorts]⟩⟩
  | cons a l ih =>
    obtain ⟨⟨ports, hs⟩, hport⟩ := ih (s.modPort a fun x => { x with created := true, width := w })
    refine ⟨⟨ports, hs⟩, fun r => ?_⟩
    obtain ⟨hperst, hcreated⟩ := hport r
    refine ⟨hperst.trans ?_, hcreated.trans ?_⟩ <;> rw [State.modPort_eq, State.setPort_port] <;>
      by_cases h : r = a <;> simp [h]

theorem State.sampleStraps_zero {strap : BitVec 2} (h : strap ≠ 3#2) : s.sampleStraps 0 strap =
    ({ s with bif0 := some strap } : State).createPorts (widthCode strap) (arrangement 0 strap) := by
  simp [State.sampleStraps, State.createPorts, h]

end

section
variable {s : State} {p : Nat}

theorem execPerstNDeassert_samples {strap : BitVec 2} (hp : (s.port 0).perst = true) (hb : s.bif0 = none)
    (hr : s.railsValid = true) (h : strap ≠ 3#2) : exec (.perstNDeassert 0 strap) s = .next
      (({ s.setPort 0 { s.port 0 with perst := false } with bif0 := some strap } : State).createPorts (widthCode strap)
        (arrangement 0 strap)) := by
  rw [exec_perstNDeassert, execPerstNDeassert]
  simp [hp, hb, hr, State.sampleStraps_zero _ h]

/-- The staged changes of the principal go at its FLR (R71). -/
theorem State.flrStaged_principal (h : s.manage.principal = some p) : s.flrStaged p = s.emptySecure.dropStaged :=
  if_pos h

theorem State.dropStaged_engine (s : State) (e : Nat) : (s.dropStaged.engine e).staging = none := by
  have h := Tab.get_mapVals s.engines (fun x : Engine => { x with staging := none }) e {}
  exact congrArg Engine.staging h

theorem execD3hotEntry_linked (hc : (s.port p).created = true) (hl : (s.port p).linkUp = true)
    (hg : (s.port p).configured = true) : exec (.d3hotEntry p) s = .next
      (((s.port p).reads.filter fun r => !r.sent).foldl (fun (s : State) r => s.endUnsent p r)
        ((s.modPort p fun x => { x with d3hot := true }).dmaPortLost p)) := by
  rw [exec_d3hotEntry, execD3hotEntry]
  simp [State.linked, hc, hl, hg, State.dmaPortLost_port]

/-! #### Queues that stop -/

theorem SubQueue.contain_en (x : SubQueue) : x.contain.en = false := rfl

theorem Port.stopQueues_sq (x : Port) (q : Nat) : (x.stopQueues.sq q).en = false :=
  congrArg SubQueue.en (Tab.get_mapVals x.sqs SubQueue.contain q {})

/-- No read of a ring is awaited any more (R117). -/
theorem Port.stopQueues_reads (x : Port) : ∀ r ∈ x.stopQueues.reads, r.isRing = false := by
  intro r hr
  obtain ⟨u, -, rfl⟩ := List.mem_map.mp hr
  split
  · rfl
  · exact Bool.eq_false_iff.mpr ‹_›

/-! #### A cause of host scope -/

theorem State.startHost_begins (hm : s.mode = .ready) (hc : (s.port p).created = true)
    (hn : (s.port p).contain = none) (hd : s.deviceContain = none) (cause : Nat) (reset config : Bool) :
    s.startHost p cause reset config = (s.setPort p { (s.port p).stopQueues with
      contain := some { cause := BitVec.ofNat 8 cause, phase := .stopping, resetBlocks := reset, resetConfig := config
                        flr := decide (cause = 0x01) } }).containEvent 0x05 cause (2 ^ p) 0 [p] := by
  simp [State.startHost, State.restarting, hm, hc, hn, hd]

theorem State.startHost_merges {c : Containment} (hm : s.mode = .ready) (hc : (s.port p).created = true)
    (hn : (s.port p).contain = some c) (cause : Nat) (reset config : Bool) : s.startHost p cause reset config =
      s.setPort p { s.port p with contain := some (c.merge reset config (decide (cause = 0x01))) } := by
  simp [State.startHost, State.restarting, hm, hc, hn]

theorem State.startHost_restarts (h : s.restarting = true) (hc : (s.port p).created = true) (cause : Nat)
    (reset config : Bool) : s.startHost p cause reset config = s.restart 0x22 := by
  simp [State.startHost, h, hc]

end

/-- Settles O30: the link's events end in a cause of host scope, and one that begins a containment stops the queues and
tells of it. -/
theorem hostPortsAreReset : Obligations.HostPortsAreReset := by
  refine ⟨?samples, ?release, ?perst, ?flr, ?staged, ?unstaged, ?d3hot, ?unsent, ?d0, ?down, ?fatal, ?up, ?begins,
    ?merges, ?restarts⟩
  case samples =>
    intro s strap hp hb hr hne
    obtain ⟨⟨ports, hs⟩, hport⟩ := State.createPorts_spec
      ({ s.setPort 0 { s.port 0 with perst := false } with bif0 := some strap } : State) (widthCode strap)
      (arrangement 0 strap)
    refine ⟨_, execPerstNDeassert_samples hp hb hr hne, (hport 0).1.trans ?_, ?_, ?_, ?_, fun p => (hport p).2.trans ?_⟩
    · simp
    · rw [hs]
    · rw [hs]; rfl
    · rw [hs]; rfl
    · by_cases h : p = 0 <;> simp [h]
  case release =>
    intro s slot strap hlt h0 h4 hp
    simp [execPerstNDeassert, Nat.not_le.mpr hlt, h0, h4, hp]
  case perst =>
    intro s slot hlt hp
    simp [execPerstNAssert, Nat.not_le.mpr hlt, hp]
  case flr =>
    intro s p hc hl hg
    simp [execFlr, State.linked, hc, hl, hg]
  case staged =>
    intro s p h
    rw [State.flrStaged_principal h]
    exact ⟨rfl, rfl, fun e => State.dropStaged_engine _ e, rfl, rfl⟩
  case unstaged => exact fun s p h => if_neg h
  case d3hot =>
    intro s p hc hl hg hsent
    have hnone : (s.port p).reads.filter (fun r => !r.sent) = [] := by simpa using hsent
    rw [execD3hotEntry_linked hc hl hg, hnone, List.foldl_nil]
  case unsent =>
    intro s p r hc hl hg hone
    rw [execD3hotEntry_linked hc hl hg, hone, List.foldl_cons, List.foldl_nil, State.endUnsent]
    exact ⟨_, rfl, by simp [State.dmaPortLost_port], by simp [State.dmaPortLost_port]⟩
  case d0 =>
    intro s p hc hl hd
    simp [execD3hotToD0, State.linked, hc, hl, hd]
  case down =>
    intro s p hc hl
    simp [execDlDown, execPcieRefclkLoss, State.linked, hc, hl]
  case fatal =>
    intro s p hc hl
    simp [execUncorrectableFatalError, State.linked, hc, hl]
  case up =>
    intro s p hc hp hl hk hm hw
    simp [execPcieLinkUp, State.releaseHeld, hc, hp, hl, hk, hm, hw]
  case begins =>
    intro s p cause reset config hm hc hn hd
    refine ⟨_, rfl, ?_⟩
    rw [State.startHost_begins hm hc hn hd]
    generalize hu : s.setPort p _ = u
    have hup : u.port p = _ := hu ▸ State.setPort_port_self ..
    obtain ⟨events, pba, hport⟩ := u.containEvent_port p 0x05 cause (2 ^ p) 0
    have htells := u.containEvent_tells 0x05 cause (2 ^ p) 0 [p]
    have hpay : devicePayload u cause (2 ^ p) 0 = devicePayload s cause (2 ^ p) 0 := by subst hu; rfl
    rw [hport, hup, State.containEvent_deviceBook, htells.trvs, htells.mem, hpay]
    refine ⟨rfl, Port.stopQueues_sq _, Port.stopQueues_reads _, rfl, ?_, fun r hr => ?_, ?_, ?_⟩
    · subst hu; rfl
    · rw [State.containEvent_other _ _ _ _ _ _ hr, ← hu, State.setPort_port_other _ _ _ _ hr]
    · subst hu; rfl
    · subst hu; rfl
  case merges => exact fun s p cause c reset config hm hc hn => ⟨State.startHost_merges hm hc hn .., rfl⟩
  case restarts => exact fun s p cause reset config h hc => State.startHost_restarts h hc ..

/-! ### Containment

One lemma for each phase of a containment, on a state in which nothing of the port is at work. -/

section
variable {s t : State}

theorem State.OnlyTells.deviceContain (h : s.OnlyTells t) : t.deviceContain = s.deviceContain := by
  obtain ⟨_, _, _, _, _, _, _, _, rfl⟩ := h; rfl
theorem State.OnlyTells.devEpoch (h : s.OnlyTells t) : t.devEpoch = s.devEpoch := by
  obtain ⟨_, _, _, _, _, _, _, _, rfl⟩ := h; rfl

end

section
variable {s : State} {p : Nat}

/-! #### Discarding -/

/-- Without channels in use no run is lost. -/
theorem State.dmaPortLost_none (h : s.dma = []) : s.dmaPortLost p = s := by
  have hch : ∀ ch, s.channel ch = {} := fun ch => by rw [State.channel, h]; rfl
  unfold State.dmaPortLost
  refine List.foldl_fixed' (fun ch => ?_) _
  simp [hch]

/-- Without traverses nothing waits for extents. -/
theorem State.reexamine_none (h : s.trvs = []) : s.reexamine = s := by
  simp [State.reexamine, State.pendingByArrival, h]

/-- A port without traverses and without entries handed on has nothing to discard. -/
theorem State.discardPort_none (ht : s.trvs = []) (ha : s.admitting = []) (hh : (s.port p).handed = [])
    (hd : s.dma = []) : s.discardPort p = (({ s with admitting := [] } : State).setPort p
      (({ s.port p with handed := [] } : Port).dropReads HostRead.isAdmission), 0, []) := by
  simp only [State.discardPort, State.abandon, ht, ha, hh, List.filter_nil, List.foldl_nil, List.length_nil,
    List.flatMap_nil, Nat.add_zero]
  rw [State.dmaPortLost_none (by simpa using hd)]

theorem State.mem_dropTrv {tag : Nat} {w : Trv} (h : w ∈ (s.dropTrv p tag).trvs) : w.port ≠ p ∨ w.tag ≠ tag := by
  have hw := (List.mem_filter.mp h).2
  rwa [Bool.not_eq_true', Bool.and_eq_false_iff, decide_eq_false_iff_not, decide_eq_false_iff_not] at hw

theorem State.containOf_port {c : Containment} (hd : s.deviceContain = none) (hc : (s.port p).contain = some c) :
    s.containOf (some p) = some c := by
  simp [State.containOf, hd, hc]

/-- What CONTAINMENT_DISCARD leaves of a port that has nothing to discard. -/
theorem execContainmentDiscard_none {c : Containment} (hd : s.deviceContain = none)
    (hc : (s.port p).contain = some c) (hph : c.phase = .stopping) (ht : s.trvs = []) (ha : s.admitting = [])
    (hh : (s.port p).handed = []) (hdma : s.dma = []) : exec (.containmentDiscard (some p)) s = .next
      (({ s with admitting := [] } : State).setPort p
        { ({ s.port p with handed := [] } : Port).dropReads HostRead.isAdmission with
          discarded := 0, contain := some { c with phase := .resetting, taint := c.taint ++ [] } }) := by
  rw [exec_containmentDiscard, execContainmentDiscard, State.containOf_port hd hc]
  simp only [hph, ne_eq, not_true_eq_false, if_false, State.scopePorts, List.foldl_cons, List.foldl_nil,
    State.discardPort_none ht ha hh hdma, State.modPort_eq, State.setPort_setPort, State.setPort_port_self,
    State.putContain, List.nil_append]
  rw [State.reexamine_none (by simpa using ht)]
  simp

theorem execContainmentDiscard_over {c : Containment} (hd : s.deviceContain = none)
    (hc : (s.port p).contain = some c) (hph : c.phase ≠ .stopping) :
    exec (.containmentDiscard (some p)) s = .next s := by
  rw [exec_containmentDiscard, execContainmentDiscard, State.containOf_port hd hc]
  simp [hph]

/-- A discarded traverse is gone. -/
theorem State.discardTrv_drops (s : State) (v : Trv) : ∃ u : State, s.discardTrv v = u.dropTrv v.port v.tag := ⟨_, rfl⟩

/-! #### Resetting -/

/-- The port's blocks are reset if one of the causes asks for it (R54, R548). -/
theorem execContainmentReset_port {c : Containment} (hd : s.deviceContain = none)
    (hc : (s.port p).contain = some c) (hph : c.phase = .resetting) (hcause : c.cause ≠ 0x11#8 ∧ c.cause ≠ 0x12#8)
    (he : c.engine = none) (rebuilt : Bool) : exec (.containmentReset (some p) rebuilt) s = .next
      ((if c.resetBlocks then s.containReset p c.resetConfig c.flr else s).modPort p fun x =>
        { x with contain := some { c with phase := .ending } }) := by
  rw [exec_containmentReset, execContainmentReset, State.containOf_port hd hc]
  simp [hph, hcause, he, State.putContain]

theorem execContainmentReset_lost {c : Containment} (hd : s.deviceContain = some c) (hph : c.phase = .resetting)
    (hcause : c.cause = 0x12#8) : exec (.containmentReset none false) s = .next (s.restart 0x22) := by
  rw [exec_containmentReset, execContainmentReset, State.containOf, hd]
  simp [hph, hcause]

/-! #### Ending -/

theorem State.taintAll_nil (s : State) : s.taintAll [] = s := by
  simp [State.taintAll]

/-- Without accumulators none is disarmed: extents return to their pool, and nothing else changes. -/
theorem State.freeExtents_eq (h : s.accums = []) :
    ∃ extents accums, s.freeExtents p = { s with extents := extents, accums := accums } := by
  simp only [State.freeExtents, State.disarmIn, h, List.filter_nil, List.foldl_nil]
  exact ⟨_, _, rfl⟩

/-- The end of the containment of a port that has been reset: FN_EPOCH counts, and the containment is over. -/
theorem State.endPort_reset {c : Containment} (hph : c.phase = .ending) (hr : c.resetBlocks = true)
    (ha : s.accums = []) (notice : Bool) : ((s.endPort p c notice).port p).contain = none ∧
      ((s.endPort p c notice).port p).fnEpoch = (s.port p).fnEpoch + 1 ∧
      (s.endPort p c notice).devEpoch = s.devEpoch ∧ (s.endPort p c notice).mem = s.mem := by
  obtain ⟨extents, accums, hfree⟩ := State.freeExtents_eq (p := p) ha
  simp only [State.endPort, hph, hr, hfree, ne_eq, not_true_eq_false, decide_false, Bool.and_false, Bool.not_true,
    Bool.false_eq_true, if_false, if_true]
  generalize hu : State.modPort _ p _ = u
  have hport : u.port p = { s.port p with
      fnEpoch := (s.port p).fnEpoch + 1, contain := none, ready := (s.port p).configured } := by
    rw [← hu, State.modPort_eq, State.setPort_port_self]; rfl
  obtain ⟨events, pba, hlatch⟩ := u.portEvent_latches p 0 p
  have htells := u.portEvent_tells p 0
  simp only [State.settleIdle, State.modPort_eq, State.setPort_port_self, State.setPort_devEpoch, State.setPort_mem,
    htells.devEpoch, htells.mem]
  refine ⟨?_, ?_, ?_, ?_⟩
  · exact (congrArg Port.contain hlatch).trans (congrArg Port.contain hport)
  · exact (congrArg Port.fnEpoch hlatch).trans (congrArg Port.fnEpoch hport)
  · subst hu; rfl
  · subst hu; rfl

theorem execContainmentEnd_port {c : Containment} (hd : s.deviceContain = none)
    (hc : (s.port p).contain = some c) (hph : c.phase = .ending) (ht : c.taint = []) :
    ∃ n, exec (.containmentEnd (some p)) s =
      .next ((s.endPort p c true).containEvent 0x06 c.cause.toNat (2 ^ p) n [p]) := by
  rw [exec_containmentEnd, execContainmentEnd, State.containOf_port hd hc]
  simp only [hph, ht, State.taintAll_nil, ne_eq, not_true_eq_false, if_false]
  exact ⟨_, rfl⟩

/-! #### Causes of the device's own blocks -/

theorem execEngineSilent_runs {e : Nat} (he : e < 48) (hr : (s.core e).inReset = false)
    (hg : (s.core e).gated = false) : exec (.engineSilent e) s = .next (s.startDevice 0x14 (some e)) := by
  rw [exec_engineSilent, execEngineSilent]
  simp [he, hr, hg]

/-- The containment that a cause of device scope begins. -/
def Containment.ofDevice (cause : Nat) (engine : Option Nat) : Containment :=
  { cause := BitVec.ofNat 8 cause, phase := .stopping, resetBlocks := false, resetConfig := false, engine := engine }

/-- With no containment in progress it is one of every port. -/
theorem State.startDevice_begins (hm : s.mode = .ready) (hn : s.anyContain = false) (cause : Nat)
    (engine : Option Nat) : ∃ ports,
      ({ s with ports := ports, deviceContain := some (.ofDevice cause engine) } : State).OnlyTells
        (s.startDevice cause engine) := by
  simp only [State.startDevice, hm, hn, Bool.false_eq_true, if_false]
  exact ⟨_, State.containEvent_tells ..⟩

theorem State.startDevice_again (hm : s.mode = .ready) (hn : s.anyContain = true) (cause : Nat)
    (engine : Option Nat) : s.startDevice cause engine = s.restart 0x22 := by
  simp [State.startDevice, hm, hn]

theorem State.startDevice_boot {row : Nat} (hm : s.mode = .boot row) (cause : Nat) (engine : Option Nat) :
    s.startDevice cause engine = s.restart 0x22 := by
  simp [State.startDevice, hm]

theorem State.restarting_boot {row : Nat} (hm : s.mode = .boot row) (hr : s.restarts ≠ []) : s.restarting = true := by
  simp [State.restarting, hm, hr]

/-- The reset of an island gives back its stakes, and leaves the cores and memory as they are. -/
theorem State.resetStakes_keeps (s : State) (k : Nat) :
    (s.resetStakes k).cores = s.cores ∧ (s.resetStakes k).mem = s.mem := by
  unfold State.resetStakes
  exact ⟨foldl_keeps State.cores (by intros; rfl) _ _, foldl_keeps State.mem (by intros; rfl) _ _⟩

theorem State.startEngine_core (s : State) (k : Nat) : (s.startEngine k).core k =
    { inReset := false
      imem := (List.range 0x6000).map fun i => (0x2000 + i, Config.firmwareWord s.image k (0x2000 + i)) } :=
  State.setCore_core_self ..

theorem State.resetEngine_spec (s : State) (k : Nat) : (s.resetEngine k).core k = (s.startEngine k).core k ∧
    (s.resetEngine k).mem = s.mem := by
  obtain ⟨hcores, hmem⟩ := (s.startEngine k).resetStakes_keeps k
  exact ⟨congrArg (fun t : Tab Core => t.get k {}) hcores, hmem⟩

end

/-! ### A device restart -/

section
variable (s : State) (cause : Nat)

/-- The restarts within 600 s before this one (R566). -/
def State.recentRestarts : List Nat := s.restarts.filter fun t => decide (s.devMs - t ≤ 600000)

/-- The device as its boot timeline begins again (R565). -/
def State.rebooted : State :=
  { s.resetIslands with
    mode := .boot 0, waitClock := !s.devClk, devEpoch := s.devEpoch + 1, restarts := s.devMs :: s.recentRestarts }

/-- It tells of the restart in its book and to every port. -/
def State.rebootTold : State :=
  (s.rebooted.deviceEvent 0x07 cause 0xFF 0).created.foldl (fun s p => s.portEvent p 0)
    (s.rebooted.deviceEvent 0x07 cause 0xFF 0)

/-- Where a restart is possible: in READY mode and during the boot timeline. -/
def State.running : Prop := s.mode = .ready ∨ ∃ row, s.mode = .boot row

theorem State.restart_eq (h : s.running) : s.restart cause =
    if 3 ≤ s.recentRestarts.length then (s.rebootTold cause).readSfdp.enterRecovery 4 else s.rebootTold cause := by
  obtain h | ⟨row, h⟩ := h <;> simp only [State.restart, h] <;> rfl

theorem State.rebootTold_tells : s.rebooted.OnlyTells (s.rebootTold cause) :=
  (State.deviceEvent_tells ..).trans (.foldl (fun s _ => s.portEvent_tells ..) _ _)

/-- A restart leaves the state `rebooted` but for what tells of it, and for the mode and the power of shelves that
recovery mode changes. -/
theorem State.restart_keeps (h : s.running) : ∃ mode ports shelves quarters cores dma deviceBook view taps out,
    s.restart cause = { s.rebooted with
      mode := mode, ports := ports, shelves := shelves, quarters := quarters, cores := cores, dma := dma
      deviceBook := deviceBook, view := view, taps := taps, out := out } := by
  obtain ⟨_, _, _, _, _, _, _, _, htold⟩ := s.rebootTold_tells cause
  obtain ⟨_, hout⟩ := (s.rebootTold cause).spi_eq [{ op := 0x5A, len := Config.sfdpLength }]
  rw [State.restart_eq s cause h]
  split
  · rw [State.readSfdp, hout, htold]
    exact ⟨_, _, _, _, _, _, _, _, _, _, rfl⟩
  · exact ⟨_, _, _, _, _, _, _, _, _, _, htold⟩

/-- Each port is reset as by PERST_N. -/
theorem State.rebooted_port (r : Nat) : s.rebooted.port r = (s.port r).restart := Tab.get_mapVals s.ports Port.restart r {}

theorem State.rebootTold_latches (r : Nat) : (s.rebooted.port r).Latches ((s.rebootTold cause).port r) := by
  have hfold : ∀ (l : List Nat) (t : State),
      (t.port r).Latches ((l.foldl (fun (s : State) p => s.portEvent p 0) t).port r) := by
    intro l
    induction l with
    | nil => exact fun t => .refl _
    | cons p l ih => exact fun t => (t.portEvent_latches p 0 r).trans (ih _)
  exact hfold _ _

theorem State.enterRecovery_port (why r : Nat) : (s.enterRecovery why).port r =
    { s.port r with configured := !(s.port r).perst, ready := false } := by
  have h := Tab.get_mapVals s.ports (fun x : Port => { x with configured := !x.perst, ready := false }) r {}
  exact h

/-- Neither that nor what follows touches a port's epoch and its apportionment, and no port is READY. -/
theorem State.restart_port (h : s.running) (r : Nat) : ((s.restart cause).port r).fnEpoch = (s.port r).fnEpoch ∧
    ((s.restart cause).port r).ap = (s.port r).ap ∧ ((s.restart cause).port r).ready = false := by
  obtain ⟨events, pba, hlatch⟩ := s.rebootTold_latches cause r
  rw [State.rebooted_port] at hlatch
  obtain ⟨_, hout⟩ := (s.rebootTold cause).spi_eq [{ op := 0x5A, len := Config.sfdpLength }]
  have hport : (s.rebootTold cause).readSfdp.port r = (s.rebootTold cause).port r := by
    rw [State.readSfdp, hout]; rfl
  rw [State.restart_eq s cause h]
  split
  · rw [State.enterRecovery_port, hport, hlatch]
    exact ⟨rfl, rfl, rfl⟩
  · rw [hlatch]
    exact ⟨rfl, rfl, rfl⟩

theorem State.restart_few (h : s.running) (hn : s.recentRestarts.length < 3) :
    (s.restart cause).mode = .boot 0 ∧ (s.restart cause).restarts = s.devMs :: s.recentRestarts := by
  obtain ⟨_, _, _, _, _, _, _, _, htold⟩ := s.rebootTold_tells cause
  rw [State.restart_eq s cause h, if_neg (Nat.not_le.mpr hn), htold]
  exact ⟨rfl, rfl⟩

theorem State.restart_many (h : s.running) (hn : 3 ≤ s.recentRestarts.length) :
    (s.restart cause).mode = .recovery 4 := by
  rw [State.restart_eq s cause h, if_pos hn]
  rfl

end

/-- Settles O58: each phase by its command's lemma, and a restart by what it leaves of the state. -/
theorem containmentsRunToTheirEnd : Obligations.ContainmentsRunToTheirEnd := by
  refine ⟨?discard, ?discarded, ?gone, ?kept, ?reset, ?lost, ?ends, ?silent, fun s => rfl, fun s => rfl, ?begins,
    ?again, ?boot, ?engine, ?restart, ?first, ?fourth, ?old, ?port, ?during, ?links⟩
  case discard =>
    intro s p c hd hc hph ht ha hh hdma
    refine ⟨_, { c with phase := .resetting, taint := c.taint ++ [] }, execContainmentDiscard_none hd hc hph ht ha hh hdma,
      ?_, rfl, rfl, ?_, ht, rfl⟩
    · rw [State.setPort_port_self]
    · rw [State.setPort_port_self]
  case discarded => exact fun s p c hd hc hph => execContainmentDiscard_over hd hc hph
  case gone =>
    intro s v w hw
    obtain ⟨u, hu⟩ := s.discardTrv_drops v
    exact State.mem_dropTrv (hu ▸ hw)
  case kept =>
    intro s p c rebuilt hd hc hph hcause hr he
    rw [execContainmentReset_port hd hc hph (by rw [hcause]; decide) he, hr]
    rfl
  case reset =>
    intro s p c rebuilt hd hc hph hcause hr he
    rw [execContainmentReset_port hd hc hph (by rw [hcause]; decide) he, hr]
    rfl
  case lost => exact fun s c hd hph hcause => execContainmentReset_lost hd hph hcause
  case ends =>
    intro s p c hd hc hph ht hr _ ha _ _ _ _
    obtain ⟨n, hexec⟩ := execContainmentEnd_port hd hc hph ht
    obtain ⟨hcontain, hepoch, hdev, hmem⟩ := State.endPort_reset (p := p) hph hr ha true
    obtain ⟨events, pba, hport⟩ := (s.endPort p c true).containEvent_port p 0x06 c.cause.toNat (2 ^ p) n
    have htells := (s.endPort p c true).containEvent_tells 0x06 c.cause.toNat (2 ^ p) n [p]
    refine ⟨_, hexec, ?_, ?_, htells.devEpoch.trans hdev, htells.mem.trans hmem⟩
    · rw [hport]; exact hcontain
    · rw [hport]; exact hepoch
  case silent => exact fun s e he hr hg => execEngineSilent_runs he hr hg
  case begins =>
    intro s cause engine hm hn
    obtain ⟨ports, htells⟩ := State.startDevice_begins hm hn cause engine
    exact ⟨_, htells.deviceContain, rfl, rfl, rfl, rfl, htells.mem, htells.trvs⟩
  case again => exact fun s cause engine hm hn => State.startDevice_again hm hn cause engine
  case boot =>
    intro s row cause p engine reset config hm hr
    exact ⟨State.startDevice_boot hm cause engine,
      fun hc => State.startHost_restarts (State.restarting_boot hm hr) hc cause reset config⟩
  case engine =>
    intro s k
    obtain ⟨hcore, hmem⟩ := s.resetEngine_spec k
    rw [hcore, s.startEngine_core]
    refine ⟨?_, hmem, ?_⟩ <;> dsimp only
  case restart =>
    intro s cause hm
    obtain ⟨_, _, _, _, _, _, _, _, _, _, h⟩ := s.restart_keeps cause (.inl hm)
    rw [h]
    exact ⟨rfl, rfl, rfl, rfl, rfl, rfl, rfl, rfl⟩
  case first =>
    intro s cause hm hr
    have hnone : s.recentRestarts = [] := by simp [State.recentRestarts, hr]
    simpa [hnone] using s.restart_few cause (.inl hm) (by simp [hnone])
  case fourth =>
    intro s cause a b c hm hr ha hb hc
    have hall : s.recentRestarts = [a, b, c] := by
      simp [State.recentRestarts, hr, Nat.add_comm 600000, ha, hb, hc]
    exact s.restart_many cause (.inl hm) (by simp [hall])
  case old =>
    intro s cause a b c hm hr ha hb
    have hfew : s.recentRestarts = [c].filter fun t => decide (s.devMs - t ≤ 600000) := by
      simp [State.recentRestarts, hr, Nat.add_comm 600000, List.filter_cons, Nat.not_le.mpr ha, Nat.not_le.mpr hb]
    have hlen : s.recentRestarts.length ≤ 1 := hfew ▸ List.length_filter_le _ [c]
    exact (s.restart_few cause (.inl hm) (by omega)).1
  case port => exact fun s cause p hm => s.restart_port cause (.inl hm) p
  case during =>
    intro s cause row p hm
    obtain ⟨_, _, _, _, _, _, _, _, _, _, h⟩ := s.restart_keeps cause (.inr ⟨row, hm⟩)
    refine ⟨?_, ?_, (s.restart_port cause (.inr ⟨row, hm⟩) p).1⟩ <;> rw [h] <;> rfl
  case links =>
    intro s cause c hm hc
    obtain ⟨_, _, _, _, _, _, _, _, _, _, h⟩ := s.restart_keeps cause (.inl hm)
    have hchain : s.rebooted.chain c = ({} : SasPort).linked (s.manage.sas.link c) := Tab.get_map_range _ _ hc
    rw [h]
    refine ⟨(congrArg SasPort.laneEn hchain).trans rfl, (congrArg SasPort.maxRate hchain).trans rfl, rfl⟩

/-! ### The boot timeline -/

section
variable (s : State) (r : BootReport)

/-! #### A row done -/

/-- A row that is done is named by the mode; its event is told to the device's book and the system controller. -/
theorem State.stageDone_eq (row : Nat) : ∃ fresh deviceBook irqPend, s.stageDone row =
    ({ s with mode := if row = 9 then .ready else .boot row, fresh := fresh, deviceBook := deviceBook } : State).setCore
      48 { s.core 48 with irqPend := irqPend } :=
  ⟨_, _, _, rfl⟩

theorem State.stageDone_mode (row : Nat) : (s.stageDone row).mode = if row = 9 then .ready else .boot row := rfl
theorem State.stageDone_flash (row : Nat) : (s.stageDone row).flash = s.flash := rfl
theorem State.stageDone_quarter (row q : Nat) : (s.stageDone row).quarter q = s.quarter q := rfl

theorem State.stageDone_core (row : Nat) {k : Nat} (h : k ≠ 48) : (s.stageDone row).core k = s.core k := by
  obtain ⟨_, _, _, hs⟩ := s.stageDone_eq row
  rw [hs, State.setCore_core_other _ _ _ _ h]
  rfl

@[simp] theorem State.bootEvent_flash (typ detail : Nat) : (s.bootEvent typ detail).flash = s.flash := rfl

/-! #### Memory zeroed -/

/-- A byte whose cells are taken out reads 0. -/
theorem memByte_filter_out (m : List Host.Cell) (f : Nat → Bool) {a : Nat} (h : f a = true) :
    memByte (m.filter fun c => !f c.1) a = 0 := by
  induction m with
  | nil => rfl
  | cons c t ih =>
    obtain ⟨b, v⟩ := c
    rw [List.filter_cons]
    split
    case isFalse => exact ih
    case isTrue hb =>
      have hne : b ≠ a := fun hba => by simp [hba, h] at hb
      simpa [memByte, hne] using ih

/-! #### Images -/

/-- A chain of checks answers 0 when none of them fails. -/
theorem checks_zero {a b c d e : Prop} [Decidable a] [Decidable b] [Decidable c] [Decidable d] [Decidable e] :
    (if a then 5 else if b then 2 else if c then 1 else if d then 3 else if e then 4 else 0) = 0 ↔
      ¬a ∧ ¬b ∧ ¬c ∧ ¬d ∧ ¬e := by
  split_ifs <;> simp [*]

theorem Flash.imageCode_zero (f : Flash) (b : Bool) (i : ImageReport) :
    f.imageCode b i = 0 ↔ f.keyOk b i = true ∧ f.sigOk b i = true ∧
      fieldAt (f.header b i) 0 4 = 0x4B56494D ∧ byteAt (f.header b i) 4 = 1 ∧
      fieldAt (f.header b i) 8 4 ≤ 12 * 2 ^ 20 - 512 ∧ byteAt (f.header b i) 5 = 0xA1 ∧
      f.svnMin.toNat ≤ fieldAt (f.header b i) 6 2 := by
  unfold Flash.imageCode
  dsimp only
  refine checks_zero.trans ?_
  simp only [Bool.or_eq_true, decide_eq_true_eq, Bool.not_eq_true', not_or, not_not, not_lt, Bool.not_eq_false]
  constructor
  · rintro ⟨⟨⟨hmagic, hversion⟩, hlen⟩, hkey, hsig, hdevice, hsvn⟩
    exact ⟨hkey, hsig, hmagic, hversion, hlen, hdevice, hsvn⟩
  · rintro ⟨hkey, hsig, hmagic, hversion, hlen, hdevice, hsvn⟩
    exact ⟨⟨⟨hmagic, hversion⟩, hlen⟩, hkey, hsig, hdevice, hsvn⟩

/-- What the boot ROM finds in a slot. -/
def slotReport (b : Bool) : ImageReport := if b then r.slotB else r.slotA

theorem State.writePhys_flash (addr : Nat) (bs : List Byte) (p : Bool) : (s.writePhys addr bs p).flash = s.flash := by
  unfold State.writePhys
  exact foldl_keeps State.flash (by intro s beat; unfold State.unpark; split <;> rfl) _ s

@[simp] theorem State.loadImage_flash (b : Bool) (i : ImageReport) : (s.loadImage b i).flash = s.flash := by
  unfold State.loadImage
  dsimp only
  split
  · exact State.spi_flash ..
  · exact (State.writePhys_flash ..).trans (State.spi_flash ..)

theorem State.tryImages_cons (b : Bool) (l : List Bool) : s.tryImages r (b :: l) =
    if s.flash.imageCode b (slotReport r b) = 0 then (s.loadImage b (slotReport r b), some b)
    else ((s.loadImage b (slotReport r b)).bootEvent 0x02
      (256 * b2n b + s.flash.imageCode b (slotReport r b))).tryImages r l := rfl

/-- The first slot whose image is accepted is found; the flash stays as it is. -/
theorem State.tryImages_spec (l : List Bool) : (s.tryImages r l).1.flash = s.flash ∧
    (s.tryImages r l).2 = l.find? fun b => s.flash.imageCode b (slotReport r b) = 0 := by
  induction l generalizing s with
  | nil => exact ⟨rfl, rfl⟩
  | cons b l ih =>
    rw [State.tryImages_cons, List.find?_cons]
    by_cases h : s.flash.imageCode b (slotReport r b) = 0
    · rw [if_pos h]
      simp [h]
    · rw [if_neg h]
      simpa [h] using
        ih ((s.loadImage b (slotReport r b)).bootEvent 0x02 (256 * b2n b + s.flash.imageCode b (slotReport r b)))

theorem State.acceptImage_flash (b : Bool) : (s.acceptImage r b).flash = s.flash.accept b (slotReport r b) := by
  unfold State.acceptImage
  exact State.spi_flash ..

/-- The slot that the boot ROM accepts (R551, R552). -/
def State.acceptedSlot : Option Bool := s.flash.tries.find? fun b => s.flash.imageCode b (slotReport r b) = 0

/-- With a slot accepted row 5 is done, and the flash tells of it. -/
theorem State.bootRow_accepted {b : Bool} (h : s.acceptedSlot r = some b) :
    (s.bootRow r 5).mode = .boot 5 ∧ (s.bootRow r 5).flash = s.flash.accept b (slotReport r b) := by
  obtain ⟨hflash, hfound⟩ := s.tryImages_spec r s.flash.tries
  have hrow : s.bootRow r 5 = ((s.tryImages r s.flash.tries).1.acceptImage r b).stageDone 5 := by
    rw [State.bootRow, ← Prod.mk.eta (p := s.tryImages r s.flash.tries), hfound.trans h]
  rw [hrow, State.stageDone_mode, State.stageDone_flash, State.acceptImage_flash, hflash]
  exact ⟨rfl, rfl⟩

/-- With none accepted the device enters recovery mode (R555). -/
theorem State.bootRow_rejected (h : s.acceptedSlot r = none) :
    (s.bootRow r 5).mode = .recovery 2 ∧ (s.bootRow r 5).flash = s.flash := by
  obtain ⟨hflash, hfound⟩ := s.tryImages_spec r s.flash.tries
  have hrow : s.bootRow r 5 = (s.tryImages r s.flash.tries).1.enterRecovery 2 := by
    rw [State.bootRow, ← Prod.mk.eta (p := s.tryImages r s.flash.tries), hfound.trans h]
  rw [hrow]
  exact ⟨rfl, hflash⟩

/-- An accepted slot that is PENDING becomes ACTIVE, in a new directory (R552). -/
theorem Flash.accept_pending {f : Flash} {b : Bool} (h : f.pending = some b) (i : ImageReport) : f.accept b i =
    { f with active := b, pending := none, dirSeq := f.dirSeq + 1, dirKnown := true
             imageLen := fieldAt (f.header b i) 8 4, svn := BitVec.ofNat 16 (fieldAt (f.header b i) 6 2) } := by
  simp [Flash.accept, h]

theorem Flash.accept_other {f : Flash} {b : Bool} (h : f.pending ≠ some b) (i : ImageReport) : f.accept b i =
    { f with imageLen := fieldAt (f.header b i) 8 4, svn := BitVec.ofNat 16 (fieldAt (f.header b i) 6 2) } := by
  simp [Flash.accept, h]

/-! #### Engines and tables -/

/-- An engine as it starts with the firmware of the image. -/
def State.startedEngine (k : Nat) : Core :=
  { inReset := false
    imem := (List.range 0x6000).map fun i => (0x2000 + i, Config.firmwareWord s.image k (0x2000 + i)) }

theorem State.startEngines_core (l : List Nat) (k : Nat) :
    (l.foldl (fun (s : State) k => s.startEngine k) s).core k = if k ∈ l then s.startedEngine k else s.core k := by
  induction l generalizing s with
  | nil => rfl
  | cons a l ih =>
    rw [List.foldl_cons, ih]
    by_cases hl : k ∈ l
    · rw [if_pos hl, if_pos (List.mem_cons_of_mem _ hl)]
      rfl
    · rw [if_neg hl]
      by_cases ha : k = a
      · subst ha
        rw [if_pos (List.mem_cons_self ..)]
        exact s.startEngine_core k
      · rw [if_neg (by simp [ha, hl])]
        exact State.setCore_core_other _ _ _ _ ha

/-- Quarters whose MODE becomes RUN. -/
def State.runQuarters (l : List Nat) : State :=
  l.foldl (fun (s : State) q => s.modQuarter q fun x => { x with mode := 0 }) s

theorem State.runQuarters_mode (l : List Nat) {q : Nat} (h : q ∈ l ∨ (s.quarter q).mode = 0) :
    ((s.runQuarters l).quarter q).mode = 0 := by
  induction l generalizing s with
  | nil => exact h.resolve_left (List.not_mem_nil)
  | cons a l ih =>
    refine ih (s.modQuarter a fun x => { x with mode := 0 }) ?_
    by_cases ha : q = a
    · subst ha; simp
    · simpa [ha] using h

theorem State.tableStage_unaligned {q : Nat} (hq : q < 4) (h : (s.quarter q).aligned = false) : s.tableStage = s := by
  have hall : ((List.range 4).all fun q => (s.quarter q).aligned) = false :=
    List.all_eq_false.mpr ⟨q, List.mem_range.mpr hq, by simp [h]⟩
  simp [State.tableStage, hall]

/-- After the swap of the first tables every quarter runs, and row 8 is done. -/
theorem State.tableStage_done (h : ∀ q, q < 4 → (s.quarter q).aligned = true ∧ (s.quarter q).active = true)
    (hb : s.swapBusy = false) : s.tableStage = (s.runQuarters (List.range 4)).stageDone 8 := by
  have haligned : ((List.range 4).all fun q => (s.quarter q).aligned) = true :=
    List.all_eq_true.mpr fun q hq => (h q (List.mem_range.mp hq)).1
  have hactive : ((List.range 4).all fun q => !(s.quarter q).shadowArm && !(s.quarter q).active) = false :=
    List.all_eq_false.mpr ⟨0, by decide, by simp [(h 0 (by decide)).2]⟩
  simp only [State.tableStage, haligned, hactive, hb, Bool.not_true, Bool.false_eq_true, if_false]
  rfl

/-! #### Ports -/

/-- A port whose entry has a reserved value stays untrained (R553). -/
theorem State.configurePort_reserved {p : Nat} (hb : ((portEntry r p).all fun b => b = 0xFF) = false)
    (he : entryReserved (portEntry r p) = true) : s.configurePort r p =
      (s.setPort p { s.port p with clkMode := 3, linkUp := false }).deviceEvent 0x03 0 (2 ^ p) 0 := by
  simp only [State.configurePort, hb, he, Bool.false_eq_true, if_false, if_true]
  rfl

theorem State.openPort_opens {p : Nat} (hp : (s.port p).perst = false) (hc : (s.port p).configured = false)
    (hk : (s.port p).clkMode ≤ 2) (ready : Bool) :
    s.openPort p ready = s.setPort p { s.port p with configured := true, ready := ready } := by
  simp [State.openPort, hp, hc, Nat.not_lt.mpr hk]

/-- The only port takes the basic record of one port (R76). -/
theorem State.apportionBasic_single {p : Nat} (ha : s.apportioned = false) (hc : s.created = [p]) :
    ((s.apportionBasic).port p).ap = basicRecord 1 0 ∧ s.apportionBasic.apportioned = true := by
  simp [State.apportionBasic, ha, hc]

end

/-- Settles O60: each row by what its work leaves of the state, row 5 by the slot that is accepted. -/
theorem bootStagesComplete : Obligations.BootStagesComplete := by
  refine ⟨?waits, ?next, ?controller, ?directory, ?training, ?zeroing, fun f b r => f.imageCode_zero b r, ?checks,
    ?noImage, ?image, ?keys, ?engines, ?unaligned, ?tables, fun s r => rfl, ?reserved, ?opens, fun s h => if_pos h,
    fun s p ha hc => s.apportionBasic_single ha hc, by decide +kernel⟩
  case waits =>
    intro s r row hm hw
    simp only [exec_bootStage, execBootStage, hm, hw, if_true]
  case next =>
    intro s r row hm hw
    simp only [exec_bootStage, execBootStage, hm, hw, Bool.false_eq_true, if_false]
  case controller =>
    intro s r
    obtain ⟨_, _, _, hdone⟩ := (s.setCore 48 { s.core 48 with inReset := false }).stageDone_eq 1
    refine ⟨rfl, ?_⟩
    rw [State.bootRow, State.modCore_eq, hdone, State.setCore_core_self, State.setCore_core_self]
  case directory =>
    intro s r
    cases hk : s.flash.dirKnown <;> simp only [State.bootRow, hk, Bool.false_eq_true, if_false, if_true] <;> rfl
  case training =>
    intro s r h
    rw [State.bootRow, h]
    rfl
  case zeroing => exact fun s r => ⟨rfl, fun a ha => memByte_filter_out s.mem isExtentAddr ha, rfl⟩
  case checks => exact fun f b r => ⟨by simp only [Flash.keyOk, decide_eq_true_eq], rfl⟩
  case noImage =>
    intro s r ha hb
    refine (s.bootRow_rejected r (List.find?_eq_none.mpr fun b _ => ?_)).1
    cases b <;> simp [slotReport, ha, hb]
  case image =>
    intro s r hp ha
    have htries : s.flash.tries = [true, false] := by simp [Flash.tries, hp, ha]
    by_cases hB : s.flash.imageCode true r.slotB = 0
    · obtain ⟨hmode, hflash⟩ := s.bootRow_accepted r (b := true)
        (by simp [State.acceptedSlot, htries, slotReport, hB])
      rw [hmode, hflash, if_pos (.inl hB), if_pos hB, Flash.accept_pending hp]
      exact ⟨rfl, rfl⟩
    · by_cases hA : s.flash.imageCode false r.slotA = 0
      · obtain ⟨hmode, hflash⟩ := s.bootRow_accepted r (b := false)
          (by simp [State.acceptedSlot, htries, slotReport, hA, hB])
        rw [hmode, hflash, if_pos (.inr hA), if_neg hB, if_pos hA, Flash.accept_other (by simp [hp])]
        exact ⟨rfl, rfl⟩
      · obtain ⟨hmode, hflash⟩ := s.bootRow_rejected r (by simp [State.acceptedSlot, htries, slotReport, hA, hB])
        rw [hmode, hflash, if_neg (by simp [hA, hB]), if_neg hB, if_neg hA]
        exact ⟨rfl, rfl⟩
  case keys =>
    intro s r
    refine ⟨rfl, ?_⟩
    cases hk : r.keysOk <;> simp only [State.bootRow, hk, Bool.false_eq_true, if_false, if_true] <;> rfl
  case engines =>
    intro s r k hk
    refine ⟨rfl, ?_⟩
    rw [State.bootRow, State.stageDone_core _ _ (by omega), State.startEngines_core, if_pos (List.mem_range.mpr hk)]
    rfl
  case unaligned => exact fun s r q hq h => s.tableStage_unaligned hq h
  case tables =>
    intro s r h hb
    rw [State.bootRow, s.tableStage_done h hb]
    exact ⟨rfl, fun q hq => s.runQuarters_mode _ (.inl (List.mem_range.mpr hq))⟩
  case reserved =>
    intro s r p hb he
    rw [s.configurePort_reserved r hb he]
    have hport := s.setPort_port_self p { s.port p with clkMode := 3, linkUp := false }
    exact ⟨congrArg Port.clkMode hport, congrArg Port.linkUp hport, rfl⟩
  case opens =>
    intro s p hp hc hk
    rw [s.openPort_opens hp hc hk, State.setPort_port_self]
    exact ⟨rfl, rfl, rfl⟩

end Sys2Proof.Machine

/-! PROOFS. Submission and completion queues: the entries that a queue hands on. -/

namespace Sys2Proof.Machine

/-! ### Entries handed on -/

section
variable (s : State) (p r : Nat) (x : Port)

@[simp] theorem State.setPort_tagUsed (tag : Nat) : (s.setPort p x).tagUsed r tag = s.tagUsed r tag := rfl

@[simp] theorem State.setPort_foreign (a : BitVec 64) (n : Nat) : (s.setPort p x).foreign r a n = s.foreign r a n := rfl

@[simp] theorem State.setPort_target (tag : Nat) : (s.setPort p x).target r tag = s.target r tag := rfl

end

/-- The state once the front entry of a port is off its hand-over queue, of which `rest` is left. -/
def State.handsOver (s : State) (p : Nat) (rest : List Handed) : State :=
  s.setPort p { s.port p with handed := rest }

section
variable {s : State} {p : Nat} {h : Handed} {rest : List Handed} {v : Trv}

theorem State.handsOver_handed : ((s.handsOver p rest).port p).handed = rest := by
  rw [State.handsOver, State.setPort_port_self]

/-- A live traverse that has not ended is a target of RESUME and NOTE-REQUEST. -/
theorem State.target_live {r tag : Nat} (hv : s.trv? r tag = some v) (hlive : v.state ≠ .ended) :
    s.target r tag = some v := by
  simp [State.target, hv, hlive]

theorem Port.takeHanded_front {x : Port} {want : Nat → Bool} (hx : x.handed = h :: rest)
    (hw : want (entryType h.bytes) = true) : x.takeHanded want = some (h, { x with handed := rest }) := by
  simp only [Port.takeHanded, hx, hw, if_true]

/-- An entry that completes at once joins the collector, and nothing else changes. -/
theorem State.answerEntry_spec (s : State) (p : Nat) (h : Handed) (st : BitVec 8) (result : Nat) :
    ∃ c, s.answerEntry p h st result = { s with collector := s.collector ++ [c] } ∧ c.comp.status = st ∧
      c.comp.result = BitVec.ofNat 64 result ∧ c.comp.tag = entryTag h.bytes := ⟨_, rfl, rfl, rfl, rfl⟩

/-! What each command does with a well-formed entry of its type at the front of the port's hand-over queue. -/

variable (hfront : (s.port p).handed = h :: rest) (hok : entryOk h.bytes = true)
include hfront hok

theorem execStartEntry_tagUsed (ht : entryType h.bytes = 1) (hused : s.tagUsed p (entryTag h.bytes) = true) :
    exec (.startEntry p) s = .next ((s.handsOver p rest).answerEntry p h stEntryInvalid 2) := by
  simp [execStartEntry, Port.takeHanded_front hfront, State.handsOver, ht, hok, hused]

theorem execStartEntry_admits (ht : entryType h.bytes = 1) (hused : s.tagUsed p (entryTag h.bytes) = false)
    (htrv : s.foreign p (entryAddr h.bytes 8) 64 = false) (hsb : s.foreign p (entryAddr h.bytes 16) 256 = false) :
    exec (.startEntry p) s = .next { s.handsOver p rest with
      admitting := s.admitting ++ [{ port := p, q := h.q, entry := h.bytes, since := s.devMs, order := s.seqNo }]
      seqNo := s.seqNo + 1 } := by
  simp [execStartEntry, Port.takeHanded_front hfront, State.handsOver, ht, hok, hused, htrv, hsb]

theorem execResumeEntry_releases (ht : entryType h.bytes = 2) (hv : s.trv? p (entryTarget h.bytes) = some v)
    (hheld : v.state = .held) (hstation : v.station = entryStation h.bytes) :
    exec (.resumeEntry p) s = .next (((s.handsOver p rest).putTrv
      { v.toReady with released := some v.station }).answerEntry p h stOk 0) := by
  have htarget := State.target_live hv (by simp [hheld])
  simp [execResumeEntry, Port.takeHanded_front hfront, State.handsOver, ht, hok, htarget, hheld, hstation]

theorem execNopEntry_ok (ht : entryType h.bytes = 3) :
    exec (.nopEntry p) s = .next ((s.handsOver p rest).answerEntry p h stOk 0) := by
  simp [execNopEntry, Port.takeHanded_front hfront, State.handsOver, ht, hok]

theorem execNoteRequest_running (ht : entryType h.bytes = 4) (hv : s.trv? p (entryTarget h.bytes) = some v)
    (hrun : v.state = .running) :
    exec (.noteRequest p) s = .next ((s.handsOver p rest).putTrv { v with notes := v.notes ++
      [{ q := h.q, tag := entryTag h.bytes, urgent := entryUrgent h.bytes }] }) := by
  have htarget := State.target_live hv (by simp [hrun])
  simp [execNoteRequest, Port.takeHanded_front hfront, State.handsOver, ht, hok, htarget, hrun]

end

/-- Settles O9: each entry by its command's rule above; one that completes at once adds its completion to the collector
(`State.answerEntry_spec`). -/
theorem entriesAreTaken : Obligations.EntriesAreTaken := by
  refine ⟨?start, ?startTagUsed, ?resume, ?nop, ?noteRequest⟩
  case start =>
    intro s p h rest hfront ht hok hused htrv hsb
    exact ⟨_, execStartEntry_admits hfront hok ht hused htrv hsb, State.handsOver_handed, rfl, rfl, rfl⟩
  case startTagUsed =>
    intro s p h rest hfront ht hok hused
    obtain ⟨c, hanswer, hst, hresult, htag⟩ := (s.handsOver p rest).answerEntry_spec p h stEntryInvalid 2
    refine ⟨_, c, execStartEntry_tagUsed hfront hok ht hused, ?_⟩
    rw [hanswer]
    exact ⟨rfl, rfl, hst, hresult, htag⟩
  case resume =>
    intro s p h rest v hfront ht hok hv hheld hstation
    obtain ⟨c, hanswer, hst, -, -⟩ := ((s.handsOver p rest).putTrv
      { v.toReady with released := some v.station }).answerEntry_spec p h stOk 0
    refine ⟨_, c, execResumeEntry_releases hfront hok ht hv hheld hstation, ?_⟩
    rw [hanswer]
    exact ⟨State.handsOver_handed, rfl, rfl, hst, rfl⟩
  case nop =>
    intro s p h rest hfront ht hok
    obtain ⟨c, hanswer, hst, -, htag⟩ := (s.handsOver p rest).answerEntry_spec p h stOk 0
    refine ⟨_, c, execNopEntry_ok hfront hok ht, ?_⟩
    rw [hanswer]
    exact ⟨State.handsOver_handed, rfl, rfl, rfl, hst, htag⟩
  case noteRequest =>
    intro s p h rest v hfront ht hok hv hrun
    exact ⟨_, execNoteRequest_running hfront hok ht hv hrun, State.handsOver_handed, rfl, rfl, rfl⟩

end Sys2Proof.Machine

/-! PROOFS. Traverses: the end of a leg, timers, the start of a station, the control and outing legs, and the data that
a wide port moves for a command. -/

namespace Sys2Proof.Machine

/-! ### The end of a leg -/

section
variable {s : State} {v : Trv} {r : LegResult}

theorem continuing_ok (shortOk : Bool) : continuing stOk shortOk = true := by simp [continuing]

/-- The leg's end leads to another station: it is no END, and it has NEXT or is a GOTO, which ignores it (R139). -/
def Trv.linked (v : Trv) : Prop :=
  legOp v.leg ≠ 0x47 ∧ (legNext (v.group.getLastD []) = true ∨ legOp v.leg = 0x40)

theorem Trv.linked_iff : v.linked ↔
    (decide (legOp v.leg = 0x47) || (decide (legOp v.leg ≠ 0x40) && !legNext (v.group.getLastD []))) = false := by
  simp only [Trv.linked, Bool.or_eq_false_iff, Bool.and_eq_false_iff, decide_eq_false_iff_not, Bool.not_eq_false',
    not_not, or_comm]

/-! #### Where `Trv.advance` leads -/

theorem Trv.advance_stops (h : continuing r.status (shortOkOf v.leg) = false) :
    v.advance r = (v, some (r.ending v.station v.sb)) := by
  simp [Trv.advance, h]

theorem Trv.advance_unlinked (hst : r.status = stOk) (h : ¬ v.linked) :
    v.advance r = (v, some (r.ending v.station v.sb)) := by
  rw [Trv.linked_iff, Bool.not_eq_false] at h
  simp only [Trv.advance, hst, continuing_ok, h, Bool.not_true, Bool.false_eq_true, if_false, if_true]

theorem Trv.advance_past (hst : r.status = stOk) (h : v.linked)
    (hlast : maxStation < r.jump.getD (v.station + v.group.length)) :
    v.advance r = ({ v with lastStatus := stLegInvalid }, some { status := stLegInvalid, station := v.station }) := by
  rw [Trv.linked_iff] at h
  simp only [Trv.advance, hst, continuing_ok, h, hlast, Bool.not_true, Bool.false_eq_true, if_false, if_true]

theorem Trv.advance_moves (hst : r.status = stOk) (h : v.linked)
    (hlast : r.jump.getD (v.station + v.group.length) ≤ maxStation) :
    v.advance r = ({ v with
      station := r.jump.getD (v.station + v.group.length), stage := .fresh, released := none, group := [] }, none) := by
  rw [Trv.linked_iff] at h
  simp only [Trv.advance, hst, continuing_ok, h, Nat.not_lt.mpr hlast, Bool.not_true, Bool.false_eq_true, if_false]

/-! #### What `Trv.record` notes -/

theorem Trv.record_ok_lastStatus (hst : r.status = stOk) :
    (v.record r).lastStatus = if keepsLast (legOp v.leg) then v.lastStatus else stOk := by
  simp [Trv.record, hst, continuing_ok]

theorem Trv.record_ok_residual (hst : r.status = stOk) : (v.record r).residual = v.residual := by simp [Trv.record, hst]

theorem Trv.record_ok_shortCount (hst : r.status = stOk) : (v.record r).shortCount = v.shortCount := by
  simp [Trv.record, hst, show stOk ≠ stOkShort by decide]

theorem Trv.record_stops_lastStatus (h : continuing r.status (shortOkOf v.leg) = false) :
    (v.record r).lastStatus = r.status := by
  simp [Trv.record, h]

/-- A status that does not continue is neither OK nor WAIT-CIRCLE, so the leg's residual is recorded. -/
theorem Trv.record_stops_residual (h : continuing r.status (shortOkOf v.leg) = false) :
    (v.record r).residual = r.residual := by
  have hok : r.status ≠ stOk := fun e => by simp [continuing, e] at h
  have hcircle : r.status ≠ stCircle := fun e => by simp [continuing, e] at h
  simp [Trv.record, hok, hcircle]

/-- Without sense data, a bound traverse whose leg ended OK and leads on is all that changes. -/
theorem State.legDone_moves (hb : v.bound.isSome = true) (hst : r.status = stOk) (hsense : r.sense = []) (h : v.linked)
    (hlast : r.jump.getD (v.station + v.group.length) ≤ maxStation) : s.legDone v r = s.putTrv (v.afterLeg r).1 := by
  have hafter : v.afterLeg r = _ := Trv.advance_moves (v := v.record r) hst h hlast
  simp [State.legDone, hafter, State.writeSense, hsense, hb]

end

/-- Settles O14: what the leg's end records (`Trv.record`), and then where `Trv.advance` leads by the status, NEXT and
the station aimed at. -/
theorem legEndsContinueOrEnd : Obligations.LegEndsContinueOrEnd := by
  refine ⟨?moves, ?stops, ?unlinked, ?past, ?device⟩
  case moves =>
    intro v r hst _ hnext hend hlast
    exact ⟨_, Trv.advance_moves (v := v.record r) hst ⟨hend, hnext⟩ hlast, rfl, rfl, rfl, rfl, rfl,
      Trv.record_ok_residual hst, Trv.record_ok_shortCount hst, Trv.record_ok_lastStatus hst⟩
  case stops =>
    intro v r h
    exact ⟨_, Trv.advance_stops (v := v.record r) h, Trv.record_stops_lastStatus h, rfl, rfl,
      Trv.record_stops_residual h⟩
  case unlinked =>
    intro v r hst hnext hgoto
    have hunlinked : ¬ v.linked := fun ⟨hend, hlinked⟩ =>
      hnext.elim (fun hno => hlinked.elim (fun hyes => Bool.false_ne_true (hno.symm.trans hyes)) hgoto) hend
    exact ⟨_, Trv.advance_unlinked (v := v.record r) hst hunlinked⟩
  case past =>
    intro v r hst hnext hend hlast
    exact ⟨_, Trv.advance_past (v := v.record r) hst ⟨hend, hnext⟩ hlast, rfl, Trv.record_ok_residual hst⟩
  case device =>
    intro s p tag v r _ hb hst hsense hnext hend hlast
    have hdone : s.legDone v r = s.putTrv (v.afterLeg r).1 := State.legDone_moves hb hst hsense ⟨hend, hnext⟩ hlast
    exact ⟨hdone, by rw [hdone]; rfl, by rw [hdone]; rfl, by rw [hdone]; rfl⟩

/-! ### Timers of a traverse -/

section
variable {s : State} {p tag d : Nat} {v : Trv} (hv : s.trv? p tag = some v)
include hv

theorem execResponseParkExpiry_awaiting {e c : Nat} (hb : v.bound = some (e, c)) (hrun : v.state = .running)
    (hstage : v.stage = .awaiting) (hop : waitsParked (legOp v.leg) = true) (hl : s.readyList (partyOfEngine e) ≠ []) :
    exec (.responseParkExpiry p tag) s = .next (s.park v .responseParked) := by
  simp [execResponseParkExpiry, State.withTrv_found hv, hb, hrun, hstage, hop, hl]

theorem execDeadlineExpiry_pending (hd : v.deadline = some d) (h : v.state = .pending) :
    exec (.deadlineExpiry p tag) s = .next (s.endTrv { v with lastStatus := stAdmissionRefused, residual := 0 }
      { status := stAdmissionRefused, station := 0, entry := true }) := by
  simp [execDeadlineExpiry, State.withTrv_found hv, hd, h]

theorem execDeadlineExpiry_held (hd : v.deadline = some d) (h : v.state = .held) :
    exec (.deadlineExpiry p tag) s = .next (s.endAt v stWaitTimeout (groupLen (v.group.take 1))) := by
  simp [execDeadlineExpiry, State.withTrv_found hv, hd, h]

theorem execDeadlineExpiry_running (hd : v.deadline = some d) (h : v.state = .running) :
    exec (.deadlineExpiry p tag) s = .next (s.putTrv { v with deadlinePassed := true }) := by
  simp [execDeadlineExpiry, State.withTrv_found hv, hd, h]

theorem execWaitDeadlineExpiry_waiting (h : v.state = .waiting) :
    exec (.waitDeadlineExpiry p tag) s = .next (s.endAt { v with legInfo := 5 } stWaitTimeout 0) := by
  simp [execWaitDeadlineExpiry, State.withTrv_found hv, h]

theorem execPauseExpiry_pausing (h : v.state = .pausing) :
    exec (.pauseExpiry p tag) s = .next (s.legDone v { status := stOk }) := by
  simp [execPauseExpiry, State.withTrv_found hv, h]

end

/-- Settles O12: each expiry finds the traverse and acts by its state. -/
theorem traverseTimersExpire : Obligations.TraverseTimersExpire :=
  ⟨fun _ _ _ _ _ _ hv => execResponseParkExpiry_awaiting hv, fun _ _ _ _ _ hv => execDeadlineExpiry_pending hv,
    fun _ _ _ _ _ hv => execDeadlineExpiry_held hv, fun _ _ _ _ _ hv => execDeadlineExpiry_running hv,
    fun _ _ _ _ hv => execWaitDeadlineExpiry_waiting hv, fun _ _ _ _ hv => execPauseExpiry_pausing hv⟩

/-! ### The start of a station -/

section
variable {s : State} {p tag : Nat} {v : Trv} {b : List Byte}

/-- A running traverse on its engine, no fetch and no issue run in progress, stands before a station (R167). -/
def Trv.atStart (v : Trv) : Prop :=
  v.state = .running ∧ v.bound.isSome = true ∧ v.fetching = false ∧ v.stage = .fresh ∧ v.run = []

theorem execStationStart_fresh (hv : s.trv? p tag = some v) (h : v.atStart) :
    exec (.stationStart p tag) s = .next (s.startFresh v) := by
  obtain ⟨hrun, hb, hf, hstage, hr⟩ := h
  simp [execStationStart, State.withTrv_found hv, hrun, Option.isSome_iff_ne_none.mp hb, hf, hstage, hr]

/-- A station in host memory whose leg is not held is fetched by one read (R136). -/
theorem State.startFresh_hostFetch (hn : v.fetched.find v.station = none) (ha : isBufAddr v.addr = false)
    (hr : (s.port v.port).canRead = true) : s.startFresh v =
    (s.putTrv { v with fetching := true, groupBase := v.station }).issueRead v.port (v.legAddrAt v.station)
      (32 * v.groupCount v.station) (.legs v.tag v.station (v.groupCount v.station)) := by
  simp [State.startFresh, hn, State.fetch, ha, hr]

/-- A station whose leg is held starts with the checks of its head. -/
theorem execStationStart_held (hv : s.trv? p tag = some v) (h : v.atStart)
    (hf : v.fetched.find v.station = some (.leg b)) : exec (.stationStart p tag) s = .next (s.startHead v b) := by
  rw [execStationStart_fresh hv h]
  simp [State.startFresh, hf]

theorem State.startHead_deadline (hr : v.run = []) (hd : v.deadlinePassed = true) :
    s.startHead v b = s.endAt v stWaitTimeout (groupLen [b]) := by
  simp [State.startHead, hr, hd]

/-- A record of a traverse without a status block writes nothing (R159). -/
theorem State.writeRecord_noBlock {v : Trv} (h : v.sb = 0) (kind code : Nat) : s.writeRecord v kind code = (s, v) := by
  simp [State.writeRecord, h]

theorem State.startHead_hold (hd : v.deadlinePassed = false) (hh : legHold b = true) (hr : v.released ≠ some v.station)
    (hsb : v.sb = 0) : s.startHead v b = s.park { v with state := .held, group := [b] } .held := by
  simp [State.startHead, hd, hh, hr, State.writeRecord_noBlock, hsb]

theorem State.startHead_group (hd : v.deadlinePassed = false) (hh : legHold b = false) {g : List (List Byte)}
    (hg : v.groupHere = .got g) : s.startHead v b = s.startGroup v g := by
  simp [State.startHead, hd, hh, hg]

/-- The traverse as its station's leg or group starts: it holds the last group it read (R136). -/
def Trv.withGroup (v : Trv) (g : List (List Byte)) : Trv :=
  { v with group := g, fetched := v.fetched.filter fun f => v.groupBase ≤ f.1 && f.1 < v.groupBase + 4 }

/-- The same, counted against its budget (R149). -/
def Trv.counted (v : Trv) (g : List (List Byte)) : Trv := { v.withGroup g with legs := v.legs + g.length }

theorem State.startGroup_budget {g : List (List Byte)} (hr : v.run = []) (h : v.budget < v.legs + g.length) :
    s.startGroup v g = s.endAt (v.withGroup g) stLegBudget (groupLen g) := by
  simp [State.startGroup, h, State.checkFails, hr, Trv.withGroup]

/-- The traverse's own new record is no waiter, and every other record is as it was. -/
theorem State.waitersOn_putTrv {u : Trv} {tag : Nat} {stations : Option (Nat × Nat)} (hu : u.state = .running)
    (h : s.waitersOn p tag stations = []) : (s.putTrv u).waitersOn p tag stations = [] := by
  simp only [State.waitersOn, List.filter_eq_nil_iff] at h ⊢
  intro w hw
  obtain ⟨a, ha, rfl⟩ := List.mem_map.mp hw
  by_cases hsame : a.port = u.port ∧ a.tag = u.tag
  · simp [hsame, hu]
  · simpa [hsame] using h a ha

theorem State.satisfy_none {stations : Option (Nat × Nat)} (h : s.waitersOn p tag stations = []) (info : Nat) :
    s.satisfy p tag stations info = (s, []) := by
  simp [State.satisfy, h]

theorem State.endList_nil : s.endList [] = s := by
  simp [State.endList, State.endTrvs]

theorem State.flushNotes_none {v : Trv} (h : v.notes = []) : s.flushNotes v = (s, v) := by
  have hv : { v with notes := [] } = v := by rw [← h]
  simp [State.flushNotes, h, hv]

/-- A group within the budget is counted, waiters at its stations are satisfied, and its checks follow (R149, R152). -/
theorem State.startGroup_within {g : List (List Byte)} (h : v.legs + g.length ≤ v.budget) : s.startGroup v g =
    let (s1, more) := (s.putTrv (v.counted g)).satisfy v.port v.tag (some (v.station, g.length)) 0
    (s1.endList more).withTrv v.port v.tag fun u =>
      let (s2, w) := (s1.endList more).flushNotes u
      s2.startChecks w :=
  if_neg (Nat.not_lt.mpr h)

/-- Without waiters or notes a group within the budget is counted, and its checks follow. -/
theorem State.startGroup_counts {g : List (List Byte)} (hv : s.trv? p tag = some v) (hrun : v.state = .running)
    (hbudget : v.legs + g.length ≤ v.budget) (hn : v.notes = [])
    (hw : s.waitersOn p tag (some (v.station, g.length)) = []) :
    s.startGroup v g = (s.putTrv (v.counted g)).startChecks (v.counted g) := by
  obtain ⟨rfl, rfl⟩ := State.trv?_names hv
  have hsat := State.satisfy_none (State.waitersOn_putTrv (u := v.counted g) hrun hw) 0
  have hfound : (s.putTrv (v.counted g)).trv? v.port v.tag = some (v.counted g) := State.putTrv_trv? hv rfl rfl
  have hflush : (s.putTrv (v.counted g)).flushNotes (v.counted g) = (s.putTrv (v.counted g), v.counted g) :=
    State.flushNotes_none hn
  simp only [State.startGroup_within hbudget, hsat, State.endList_nil, State.withTrv_found hfound, hflush]

/-- An END leg without flags and with its reserved bytes 0 passes every check, and is ready to be performed (R167,
R217). -/
theorem State.startChecks_end (hg : v.group = [b]) (hop : legOp b = 0x47) (hfl : legFlags b = 0)
    (hz : zeroAt b 2 30 = true) : s.startChecks v = s.putTrv { v with stage := .ready } := by
  have hleg : v.leg = b := by simp [Trv.leg, hg]
  have hencoding : s.encodingOk v = true := by
    simp [State.encodingOk, hg, flagsOk, operandsOk, legJoin, legDrop, bitN, hop, hfl, hz]
  have hnote : legNote b = false := by simp [legNote, bitN, hfl]
  have hmet : s.met (v.checkReads s) = s := State.met_none fun x _ => by simp [Trv.checkReads, hleg, hop]
  simp [State.startChecks, hencoding, hleg, hnote, hmet, State.ownershipCheck, State.outingOk, State.legShelves, hop]

end

/-- Settles O13: a station whose leg is held takes the steps of R167 in their order: deadline, HOLD, budget, count,
checks. -/
theorem stationsStart : Obligations.StationsStart := by
  refine ⟨?fetch, ?deadline, ?hold, ?budget, ?counts⟩
  case fetch =>
    intro s p tag v hv hrun hb hf hstage hr hnone ha hread
    rw [execStationStart_fresh hv ⟨hrun, hb, hf, hstage, hr⟩,
      State.startFresh_hostFetch (by rw [hnone]; rfl) ha hread]
  case deadline =>
    intro s p tag v b hv hrun hb hf hstage hr hfound hd
    rw [execStationStart_held hv ⟨hrun, hb, hf, hstage, hr⟩ hfound, State.startHead_deadline hr hd]
  case hold =>
    intro s p tag v b hv hrun hb hf hstage hr hfound hd hh hrel hsb
    rw [execStationStart_held hv ⟨hrun, hb, hf, hstage, hr⟩ hfound, State.startHead_hold hd hh hrel hsb]
  case budget =>
    intro s p tag v b hv hrun hb hf hstage hr hfound hd hh hg hbudget
    rw [execStationStart_held hv ⟨hrun, hb, hf, hstage, hr⟩ hfound, State.startHead_group hd hh hg,
      State.startGroup_budget (g := [b]) hr hbudget]
    rfl
  case counts =>
    intro s p tag v b hv hrun hb hf hstage hr hfound hd hfl _ hop hz hg hbudget hn hw
    have hh : legHold b = false := by simp [legHold, bitN, hfl]
    obtain ⟨hp, ht⟩ := State.trv?_names hv
    refine ⟨(s.putTrv (v.counted [b])).putTrv { v.counted [b] with stage := .ready }, _, ?_,
      State.putTrv_trv? (State.putTrv_trv? (u := v.counted [b]) hv hp ht) hp ht, rfl, rfl, rfl, rfl⟩
    rw [execStationStart_held hv ⟨hrun, hb, hf, hstage, hr⟩ hfound, State.startHead_group hd hh hg,
      State.startGroup_counts (g := [b]) hv hrun hbudget hn hw,
      State.startChecks_end (v := v.counted [b]) rfl hop hfl hz]

/-! ### Control legs -/

section
variable {s : State} {p tag : Nat} {v : Trv}

/-- A GOTO whose target's leg is held looks whether that is a GOTO itself (R150). -/
theorem execLegGoto_held {b : List Byte} (h : AtLeg s p tag 0x40 v) (hf : v.fetching = false)
    (hb : v.fetched.find (fieldAt v.leg 16 4) = some (.leg b)) :
    exec (.legGoto p tag) s = .next (s.legDone v (if legOp b = 0x40 then { status := stLegInvalid }
      else { status := stOk, jump := some (fieldAt v.leg 16 4) })) := by
  by_cases hgoto : legOp b = 0x40 <;> simp [execLegGoto, State.perform_atLeg h, hf, hb, hgoto]

/-! #### TEST -/

theorem execLegTest_recorded (h : AtLeg s p tag 0x41 v) (hr : testReads (legByte v.leg 16) = false) :
    exec (.legTest p tag) s = .next (s.testEnds v 0) := by
  simp [execLegTest, State.perform_atLeg h, hr]

theorem execLegTest_host (h : AtLeg s p tag 0x41 v) (hr : testReads (legByte v.leg 16) = true)
    (ha : isBufAddr (legAddr v.leg) = false) (hread : (s.port p).canRead = true) :
    exec (.legTest p tag) s = .next ((s.putTrv { v with stage := .awaiting }).issueRead p (legAddr v.leg).toNat
      (8 / 2 ^ legByte v.leg 17) (.operand tag)) := by
  simp [execLegTest, State.perform_atLeg h, hr, ha, hread]

/-- What reading wakes and records leaves the operand as it was. -/
theorem execLegTest_buffer {u : State} (h : AtLeg s p tag 0x41 v) (hr : testReads (legByte v.leg 16) = true)
    (ha : isBufAddr (legAddr v.leg) = true)
    (hread : s.readable (bufPos (legAddr v.leg)) (8 / 2 ^ legByte v.leg 17) = (u, true))
    (hp : s.poisoned (bufPos (legAddr v.leg)) (8 / 2 ^ legByte v.leg 17) = false) :
    exec (.legTest p tag) s = .next (u.testEnds v
      (leNat (s.readBuf (bufPos (legAddr v.leg)) (8 / 2 ^ legByte v.leg 17)))) := by
  have htells : s.OnlyTells u := by
    simpa [hread] using s.readable_tells (bufPos (legAddr v.leg)) (8 / 2 ^ legByte v.leg 17)
  simp [execLegTest, State.perform_atLeg h, hr, ha, State.whenReadable_yes hread, htells.poisoned, htells.readBuf, hp]

/-! #### WAIT -/

theorem execLegWait_none (h : AtLeg s p tag 0x42 v) (hu : s.trv? p (fieldAt v.leg 16 2) = none) :
    exec (.legWait p tag) s = .next (s.legDone v { status := stOk, info := some 2 }) := by
  simp [execLegWait, State.perform_atLeg h, hu]

theorem execLegWait_there {u : Trv} (h : AtLeg s p tag 0x42 v) (hu : s.trv? p (fieldAt v.leg 16 2) = some u)
    (hlive : u.state ≠ .ended) (hat : u.standsAt (fieldAt v.leg 20 4) = true) :
    exec (.legWait p tag) s = .next (s.legDone v { status := stOk, info := some 3 }) := by
  simp [execLegWait, State.perform_atLeg h, hu, hlive, hat]

theorem State.parkOrEnd_parks (h : v.deadlinePassed = false) (st : TrvState) (info : BitVec 64) :
    s.parkOrEnd v st info = s.park v st := by
  simp [State.parkOrEnd, h]

theorem State.parkOrEnd_ends (h : v.deadlinePassed = true) (st : TrvState) :
    s.parkOrEnd v st v.legInfo = s.endAt { v with state := st } stWaitTimeout 0 := by
  simp [State.parkOrEnd, h]

theorem execLegWait_elsewhere {u : Trv} (h : AtLeg s p tag 0x42 v) (hu : s.trv? p (fieldAt v.leg 16 2) = some u)
    (hlive : u.state ≠ .ended) (hat : u.standsAt (fieldAt v.leg 20 4) = false) (hd : v.deadlinePassed = false) :
    exec (.legWait p tag) s = .next (if s.waitsFor p (s.trvs.length + 1) (fieldAt v.leg 16 2) tag then
        s.legDone v { status := stCircle, info := some 4 }
      else s.park { v with waitOn := some { tag := fieldAt v.leg 16 2, station := fieldAt v.leg 20 4 } } .waiting) := by
  simp [execLegWait, State.perform_atLeg h, hu, hlive, hat, State.parkOrEnd_parks, hd]

/-! #### NOTE, PAUSE and END -/

theorem execLegNote_writes (h : AtLeg s p tag 0x44 v) :
    exec (.legNote p tag) s = .next ((s.writeRecord v 0x02 (fieldAt v.leg 16 2)).1.legDone
      (s.writeRecord v 0x02 (fieldAt v.leg 16 2)).2 { status := stOk }) := by
  simp [execLegNote, State.perform_atLeg h]

theorem execLegPause_eq (h : AtLeg s p tag 0x45 v) :
    exec (.legPause p tag) s = .next (s.parkOrEnd v .pausing v.legInfo) := by
  simp [execLegPause, State.perform_atLeg h]

theorem execLegEnd_ends (h : AtLeg s p tag 0x47 v) :
    exec (.legEnd p tag) s = .next (s.legDone v { status := stOk }) := by
  simp [execLegEnd, State.perform_atLeg h]

end

/-- Settles O15: each control leg by its command's rule above. -/
theorem controlLegsAct : Obligations.ControlLegsAct := by
  refine ⟨fun _ _ _ _ _ => execLegGoto_held, fun _ _ _ _ => execLegTest_recorded, fun _ _ _ _ => execLegTest_host,
    fun _ _ _ _ _ => execLegTest_buffer, fun _ _ _ _ => execLegWait_none, fun _ _ _ _ _ => execLegWait_elsewhere,
    fun _ _ _ _ _ => execLegWait_there, ?deadline, fun _ _ _ _ => execLegNote_writes, ?pause,
    fun _ _ _ _ => execLegEnd_ends⟩
  case deadline =>
    intro s p tag v h hd
    rw [execLegPause_eq h, State.parkOrEnd_ends hd]
  case pause =>
    intro s p tag v h hd
    rw [execLegPause_eq h, State.parkOrEnd_parks hd]

/-! ### BOOK and RELEASE -/

section
variable {s : State} {p tag : Nat} {v : Trv}

theorem execLegBook_unpopulated (h : AtLeg s p tag 0x30 v) (hp : s.populated (legByte v.leg 16) = false)
    (hd : (s.chain (chainOfShelf (legByte v.leg 16))).discovering = false) :
    exec (.legBook p tag) s = .next (s.legDone v { status := stOutingClosed, info := some 3 }) := by
  simp [execLegBook, State.perform_atLeg h, State.unpopulated, hp, hd]

/-- A BOOK of a shelf that has an enclosure, or whose discovery is not over (R554), by a traverse that holds no booking
of it: the shelf's state decides (R204). -/
structure BooksAnew (s : State) (p tag : Nat) (v : Trv) : Prop where
  atLeg : AtLeg s p tag 0x30 v
  known : s.unpopulated (legByte v.leg 16) = false
  unbooked : (v.bookings.any fun b => b.shelf = legByte v.leg 16 && !b.lapsed) = false

section
variable (h : BooksAnew s p tag v)
include h

theorem execLegBook_opened (hst : (s.shelf (legByte v.leg 16)).state = .opened)
    (hfull : v.bookingsFull (legByte v.leg 16) = false) : exec (.legBook p tag) s = .next
      (((s.putTrv (v.withBooking (legByte v.leg 16))).workChanged (legByte v.leg 16)).withTrv p tag fun u =>
        ((s.putTrv (v.withBooking (legByte v.leg 16))).workChanged (legByte v.leg 16)).legDone u
          { status := stOk, info := some 0 }) := by
  simp only [exec_legBook, execLegBook, State.perform_atLeg h.atLeg, h.known, h.unbooked, hst, hfull,
    Bool.false_eq_true, if_false, if_true]

theorem execLegBook_nowait (hopen : (s.shelf (legByte v.leg 16)).state ≠ .opened)
    (hret : (s.shelf (legByte v.leg 16)).state ≠ .retired) (hn : bitN (legByte v.leg 17) 0 = true) :
    exec (.legBook p tag) s = .next (s.legDone v { status := stOutingClosed, info := some 2 }) := by
  simp only [exec_legBook, execLegBook, State.perform_atLeg h.atLeg, h.known, h.unbooked, hopen, hret, hn,
    Bool.false_eq_true, if_false, if_true]

theorem execLegBook_joinsBasket (hst : (s.shelf (legByte v.leg 16)).state = .dark)
    (hn : bitN (legByte v.leg 17) 0 = false) (hfull : v.bookingsFull (legByte v.leg 16) = false) (hsb : v.sb = 0)
    (hd : v.deadlinePassed = false) : exec (.legBook p tag) s = .next
      ((((s.modShelf (legByte v.leg 16) fun x =>
          { x with basket := x.basket ++ [{ port := p, tag, joined := s.devMs }] }).park
        { v with state := .basket (legByte v.leg 16) } (.basket (legByte v.leg 16)))).rivalsChanged
        (chainOfShelf (legByte v.leg 16))) := by
  simp only [exec_legBook, execLegBook, State.perform_atLeg h.atLeg, h.known, h.unbooked, hst, hn, hfull,
    State.writeRecord_noBlock, hsb, State.parkOrEnd_parks, hd, reduceCtorEq, Bool.false_eq_true, if_false]

end

theorem execLegRelease_none (h : AtLeg s p tag 0x31 v) (hb : v.bookings = []) :
    exec (.legRelease p tag) s = .next ((s.putTrv v).legDone v { status := stOk, info := some 0 }) := by
  obtain ⟨hp, ht⟩ := State.trv?_names h.found
  have hv : { v with bookings := [] } = v := by rw [← hb]
  simp [execLegRelease, State.perform_atLeg h, hb, hv, State.withTrv_found (State.putTrv_trv? h.found hp ht)]

theorem execLegRelease_live (h : AtLeg s p tag 0x31 v)
    (hlive : (v.bookings.any fun b => b.shelf = legByte v.leg 16 && !b.lapsed) = true) :
    exec (.legRelease p tag) s = .next
      (((s.putTrv { v with bookings := v.bookings.filter fun b => b.shelf ≠ legByte v.leg 16 }).workChanged
        (legByte v.leg 16)).withTrv p tag fun u =>
      ((s.putTrv { v with bookings := v.bookings.filter fun b => b.shelf ≠ legByte v.leg 16 }).workChanged
        (legByte v.leg 16)).legDone u { status := stOk, info := some 1 }) := by
  have hhad : (v.bookings.any fun b => b.shelf = legByte v.leg 16) = true := by
    obtain ⟨b, hb, hshelf⟩ := List.any_eq_true.mp hlive
    exact List.any_eq_true.mpr ⟨b, hb, (Bool.and_eq_true_iff.mp hshelf).1⟩
  simp only [exec_legRelease, execLegRelease, State.perform_atLeg h, hlive, hhad, if_true]

end

/-- Settles O16: BOOK goes by the shelf's state, RELEASE by the booking held. -/
theorem outingLegsBookAndRelease : Obligations.OutingLegsBookAndRelease := by
  refine ⟨fun _ _ _ _ => execLegBook_unpopulated, ?opened, ?basket, ?nowait, fun _ _ _ _ => execLegRelease_none,
    fun _ _ _ _ => execLegRelease_live⟩
  case opened =>
    intro s p tag v h hp hb
    exact execLegBook_opened ⟨h, by simp [State.unpopulated, hp], hb⟩
  case basket =>
    intro s p tag v h hknown hb
    exact execLegBook_joinsBasket ⟨h, by rcases hknown with hk | hk <;> simp [State.unpopulated, hk], hb⟩
  case nowait =>
    intro s p tag v h hp hb
    exact execLegBook_nowait ⟨h, by simp [State.unpopulated, hp], hb⟩

/-! ### Data of a command -/

/-! #### XFER_RDY -/

section
variable {s : State} {c tag : Nat} {x : Cmd}

theorem execXferRdy_declared {offset len : Nat} (hx : (s.chain c).byTag tag = some x) (hsent : x.sent = true)
    (horphan : x.orphan = false) (hanswer : x.answer = none) (hwhy : x.why = .none) (hdir : x.dir = 2) :
    exec (.xferRdy c tag offset len) s = .next (s.putCmd c { x with
      sawData := true, overrun := x.overrun || decide (x.len < offset + len)
      ready := if Nat.min len (x.len - offset) = 0 then none else some (offset, Nat.min len (x.len - offset))
      ahead := (x.payload.drop offset).take (Nat.min len (x.len - offset)), stopped := false, pulls := [] }) := by
  simp [execXferRdy, hx, hsent, horphan, hanswer, hwhy, hdir]

theorem execXferRdy_undeclared {offset len : Nat} (hx : (s.chain c).byTag tag = some x) (hsent : x.sent = true)
    (horphan : x.orphan = false) (hanswer : x.answer = none) (hwhy : x.why = .none) (hdir : x.dir = 1) :
    exec (.xferRdy c tag offset len) s = .next (s.abortCmd c { x with sawData := true } .wrongDir) := by
  simp [execXferRdy, hx, hsent, horphan, hanswer, hwhy, hdir, State.wrongDirection]

/-! #### Reading ahead -/

theorem SasPort.reader_mem {y : SasPort} (h : y.reader = some x) : x ∈ y.cmds := by
  unfold SasPort.reader at h
  split at h
  · exact List.mem_of_find?_eq_some h
  · cases h

/-- A command with the number of one in a port's list takes its place there. -/
theorem mem_map_replace {l : List Cmd} (hx : x ∈ l) {u : Cmd} {i : Nat} (hi : x.id = i) :
    u ∈ l.map fun d => if d.id = i then u else d :=
  List.mem_map.mpr ⟨x, hx, if_pos hi⟩

theorem State.askPull_mem {pos n : Nat} (hx : x ∈ (s.chain c).cmds) :
    { x with pulls := x.pulls ++ [{ beat := bufAddr (pos / 64 * 64), lo := pos % 64, n }] } ∈
      ((s.askPull c x pos n).chain c).cmds := by
  rw [State.askPull, State.replaceCmd, State.modChain_eq, State.setChain_chain_self]
  exact mem_map_replace hx rfl

theorem State.drainSlot_reads {q lane pos n : Nat} {y : Quarter} {uses : List LaneUse} {w : RowWork}
    (hx : (s.chain c).reader = some x) (hn : x.nextRead = (some pos, n)) (hq : posQuarter pos = q)
    (hw : w.mayRead (0x10 + c) = true) (hy : y.asleep = false) : s.drainSlot q y uses w lane c =
      (s.askPull c x pos n,
       { w.take lane with reads := w.reads ++ [(0x10 + c, bufAddr (pos / 64 * 64), findingIn uses lane)] }) := by
  simp [State.drainSlot, hx, hn, hq, hw, hy]

theorem SasPort.arrives_replaces {y : SasPort} {addr : Nat} (h : y.cmds.find? (fun e => e.awaits addr) = some x)
    (d : List Byte) (bad : Bool) : Cmd.absorb (takePull addr d bad x.pulls).length
      { x with pulls := takePull addr d bad x.pulls } ∈ (y.arrives addr d bad).cmds := by
  simp only [SasPort.arrives, h]
  exact mem_map_replace (List.mem_of_find?_eq_some h) rfl

theorem takePull_single (addr lo n : Nat) (d : List Byte) (bad : Bool) : takePull addr d bad [{ beat := addr, lo, n }] =
    [{ beat := addr, lo, n, data := some ((d.drop lo).take n, bad) }] := by
  simp [takePull]

theorem Cmd.readAhead_from {off m : Nat} (h : x.ready = some (off, m)) (bs : List Byte) :
    x.readAhead bs = { x with ahead := x.ahead ++ clearSelect x.clear (off + x.ahead.length) bs } := by
  simp [Cmd.readAhead, h]

theorem Cmd.absorb_sound {p : Pull} {bs : List Byte} (hp : x.pulls = [p]) (hd : p.data = some (bs, false)) :
    x.absorb 1 = ({ x with pulls := [] } : Cmd).readAhead bs := by
  simp [Cmd.absorb, hp, hd]

theorem Cmd.absorb_poisoned {p : Pull} {bs : List Byte} (hp : x.pulls = [p]) (hd : p.data = some (bs, true)) :
    x.absorb 1 = { x with stopped := true, pulls := [] } := by
  simp [Cmd.absorb, hp, hd]

end

/-! #### DATA_FRAME_SEND -/

section
variable {s : State} {c lane tag off n : Nat} {x : Cmd}

/-- A command with a transfer under way, which nothing has ended: it sends while its lane is up and its target within
reach (R265). -/
structure Sends (s : State) (c tag off n : Nat) (x : Cmd) : Prop where
  found : (s.chain c).byTag tag = some x
  ready : x.ready = some (off, n)
  owned : x.orphan = false
  going : x.why = .none

theorem execDataFrameSend_unreachable (h : Sends s c tag off n x)
    (hno : ((s.chain c).lanes.get lane {}).up = false ∨ (s.handle x.handle).lost = true) :
    exec (.dataFrameSend ⟨c, lane⟩ tag) s = .next s := by
  have hstop : (x.opening || !((s.chain c).lanes.get lane {}).up || (s.handle x.handle).lost) = true := by
    rcases hno with hno | hno <;> simp [hno]
  simp only [exec_dataFrameSend, execDataFrameSend, h.found, h.ready, h.owned, h.going, hstop]
  simp

variable (h : Sends s c tag off n x) (hopening : x.opening = false) (hup : ((s.chain c).lanes.get lane {}).up = true)
  (hlost : (s.handle x.handle).lost = false)
include h hopening hup hlost

theorem execDataFrameSend_frame (ha : x.ahead ≠ []) (hstop : x.stopped = true → 1024 < x.ahead.length) :
    exec (.dataFrameSend ⟨c, lane⟩ tag) s = .next (((s.modChain c fun y => y.carry lane x.handle tag).emit
      (.sspData c lane tag (x.ahead.take 1024))).putCmd c (x.sendAhead off n)) := by
  have hmore : (x.stopped && decide ((x.sendAhead off n).ahead = [])) = false := by
    cases hs : x.stopped with
    | false => rfl
    | true => simpa [Cmd.sendAhead] using hstop hs
  simp only [exec_dataFrameSend, execDataFrameSend, h.found, h.ready, h.owned, h.going, hopening, hup, hlost, ha, hmore]
  simp

theorem execDataFrameSend_poison (hstop : x.stopped = true) (ha : x.ahead = []) :
    exec (.dataFrameSend ⟨c, lane⟩ tag) s =
      .next (s.abortCmd c { x with moved := Nat.min x.len x.moved, ready := none, ahead := [] } .poison) := by
  simp [execDataFrameSend, Cmd.sendAhead, h.found, h.ready, h.owned, h.going, hopening, hup, hlost, ha, hstop]

end

theorem State.abortCmd_out (s : State) (c : Nat) (x : Cmd) (why : AbortWhy) : (s.abortCmd c x why).out = s.out := by
  unfold State.abortCmd
  dsimp only
  split <;> rfl

/-! #### DATA_FRAME_RECEIVE -/

section
variable {s : State} {c lane tag offset : Nat} {bytes : List Byte} {x : Cmd}

/-- A frame is not taken: its command awaits none, or its lane is down or has no credit, or it is too long. -/
def State.refusesFrame (s : State) (c lane : Nat) (bytes : List Byte) (x : Cmd) : Bool :=
  !x.sent || x.orphan || x.answer.isSome || !((s.chain c).lanes.get lane {}).up ||
    decide (((s.chain c).lanes.get lane {}).credits = 0) || decide (1024 < bytes.length)

theorem execDataFrameReceive_refused
    (h : ∀ x, (s.chain c).byTag tag = some x → s.refusesFrame c lane bytes x = true) :
    exec (.dataFrameReceive ⟨c, lane⟩ tag offset bytes) s = .next s := by
  cases hx : (s.chain c).byTag tag with
  | none => simp [execDataFrameReceive, hx]
  | some x =>
    simp only [exec_dataFrameReceive, execDataFrameReceive, hx]
    exact if_pos (h x hx)

theorem execDataFrameReceive_taken (hx : (s.chain c).byTag tag = some x) (hsent : x.sent = true)
    (horphan : x.orphan = false) (hanswer : x.answer = none) (hdir : x.dir = 1)
    (hup : ((s.chain c).lanes.get lane {}).up = true) (hcredit : ((s.chain c).lanes.get lane {}).credits ≠ 0)
    (hlen : bytes.length ≤ 1024) : exec (.dataFrameReceive ⟨c, lane⟩ tag offset bytes) s =
    .next (((s.modChain c fun y => y.carry lane x.handle tag).modChain
      c fun y => y.receive lane { tag, offset, bytes := bytes.take (x.len - offset) }).putCmd c { x with
      sawData := true, moved := Nat.min x.len (x.moved + (bytes.take (x.len - offset)).length)
      overrun := x.overrun || decide (x.len < offset + bytes.length) }) := by
  simp [execDataFrameReceive, hx, hsent, horphan, hanswer, hdir, hup, hcredit, Nat.not_lt.mpr hlen]

end

/-! #### Fill slots -/

section
variable {s : State} {q lane c id pos : Nat} {bs : List Byte} {y : Quarter} {w : RowWork}
  (h : (s.chain c).nextFill = some (id, pos, bs)) (hlen : bs.length = 64)
include h hlen

theorem State.fillSlot_write (hl : lane < 10) (hq : posQuarter pos = q) (hy : y.asleep = false) :
    s.fillSlot q y w lane c = (s.modChain c SasPort.filled,
      w.store lane (bufAddr pos) (beatOf bs) (checkFor (beatOf bs) false) false (some (c, id))) := by
  simp [State.fillSlot, h, fillsIn, hl, hq, hy, hlen]

theorem State.fillSlot_launch (hl : 10 ≤ lane) (hq : posQuarter pos ≠ q)
    (hr : laneRoute lane = route q (posQuarter pos)) : s.fillSlot q y w lane c = (s.modChain c SasPort.filled,
      { w.take lane with launches := w.launches ++ [{ lane, cmd := some (c, id), beat := {
          quarter := posQuarter pos, dest := .write (bufAddr pos), data := beatOf bs
          check := checkFor (beatOf bs) false } }] }) := by
  simp [State.fillSlot, h, fillsIn, hl, hq, hr, Nat.not_lt.mpr hl, fillBeat, hlen]

end

theorem findSome?_range {α : Type} {f : Nat → Option α} {n i : Nat} {a : α} (hi : i < n) (hlower : ∀ j < i, f j = none)
    (h : f i = some a) : (List.range n).findSome? f = some a := by
  induction n with
  | zero => cases hi
  | succ n ih =>
    rw [List.range_succ, List.findSome?_append]
    rcases Nat.lt_succ_iff_lt_or_eq.mp hi with hi | rfl
    · rw [ih hi]; rfl
    · rw [List.findSome?_eq_none_iff.mpr fun j hj => hlower j (List.mem_range.mp hj), Option.none_or,
        List.findSome?_singleton, h]

section
variable {s : State} {q c id pos : Nat} {bs : List Byte}

/-- Of the quarter's ports the lowest with data for memory has requester 15's turn, when that data crosses (R313). -/
theorem State.sasTurn_fill (hc : c / 3 = q)
    (hlower : ∀ i, 3 * q + i < c → (s.chain (3 * q + i)).nextFill = none)
    (h : (s.chain c).nextFill = some (id, pos, bs)) (hq : posQuarter pos ≠ q)
    (hheld : (s.quarter q).openBuffers.get 15 [] = []) : s.sasTurn q = some (.fill c id pos bs) := by
  have hcross : s.crossingFill q = some (.fill c id pos bs) := by
    obtain ⟨i, hi, rfl⟩ : ∃ i < 3, c = 3 * q + i := ⟨c - 3 * q, by omega, by omega⟩
    exact findSome?_range hi (fun j hj => by simp [hlower j (by omega)]) (by simp [h, hq])
  simp [State.sasTurn, hheld, hcross]

theorem State.openTurn_fill (h : s.sasTurn q = some (.fill c id pos bs)) {o : OpenAsk} (ho : o.req = 15) :
    s.openTurn q o = some { use := .launch (fillBeat pos bs), cmd := some (c, id) } := by
  simp [State.openTurn, ho, h]

theorem State.turnTaken_fill (h : s.sasTurn q = some (.fill c id pos bs)) :
    s.turnTaken q 15 = s.modChain c SasPort.filled := by
  simp [State.turnTaken, h]

end

/-- Settles O22: what is requested, read ahead, sent, received and left for memory, each by its rule above. -/
theorem commandDataMoves : Obligations.CommandDataMoves := by
  refine ⟨fun _ _ _ _ _ _ => execXferRdy_declared, fun _ _ _ _ _ _ => execXferRdy_undeclared, ?drain, ?arrives, ?send,
    ?poison, ?unreachable, fun _ _ _ _ _ _ _ => execDataFrameReceive_taken, ?noCredit, ?tooLong, ?write, ?launch,
    ?orphan, ?cross⟩
  case drain =>
    intro s q lane c pos n y uses w x hx hn hq hw hy
    rw [State.drainSlot_reads hx hn hq hw hy]
    exact ⟨rfl, rfl, State.askPull_mem (SasPort.reader_mem hx)⟩
  case arrives =>
    intro y x addr lo n off m d hx hp hready
    have hsound := SasPort.arrives_replaces hx d false
    have hpoison := SasPort.arrives_replaces hx d true
    rw [hp, takePull_single, List.length_singleton] at hsound hpoison
    rw [Cmd.absorb_sound rfl rfl, Cmd.readAhead_from (x := { x with pulls := [] }) hready] at hsound
    rw [Cmd.absorb_poisoned rfl rfl] at hpoison
    exact ⟨hsound, hpoison⟩
  case send =>
    intro s c lane tag off n x hx hready horphan hwhy hopening hup hlost ha hstop
    exact execDataFrameSend_frame ⟨hx, hready, horphan, hwhy⟩ hopening hup hlost ha hstop
  case poison =>
    intro s c lane tag off n x hx hready horphan hwhy hopening hup hlost hstop ha
    exact ⟨_, execDataFrameSend_poison ⟨hx, hready, horphan, hwhy⟩ hopening hup hlost hstop ha,
      State.abortCmd_out .., rfl⟩
  case unreachable =>
    intro s c lane tag off n x hx hready horphan hwhy hno
    exact execDataFrameSend_unreachable ⟨hx, hready, horphan, hwhy⟩ hno
  case noCredit =>
    intro s c lane tag offset bytes hcredit
    exact execDataFrameReceive_refused fun x _ => by simp [State.refusesFrame, hcredit]
  case tooLong =>
    intro s c lane tag offset bytes hlen
    exact execDataFrameReceive_refused fun x _ => by simp [State.refusesFrame, hlen]
  case write =>
    intro s q lane c id pos bs y w h hl hq hy hlen
    exact State.fillSlot_write h hlen hl hq hy
  case launch =>
    intro s q lane c id pos bs y w h hl hq hr hlen
    rw [State.fillSlot_launch h hlen hl hq hr]
    exact ⟨rfl, rfl⟩
  case orphan =>
    intro s c lane tag offset bytes x hx horphan
    refine execDataFrameReceive_refused fun u hu => ?_
    obtain rfl : u = x := Option.some.inj (hu.symm.trans hx)
    simp [State.refusesFrame, horphan]
  case cross =>
    intro s q c id pos bs o hc hlower h hq hheld ho
    have hturn := State.sasTurn_fill hc hlower h hq hheld
    exact ⟨State.openTurn_fill hturn ho, State.turnTaken_fill hturn⟩

end Sys2Proof.Machine

/-! PROOFS. The leg reference: data and device legs, the commands and task functions they hand to a wide port, spin-up,
recipes and the contexts of a core. -/

namespace Sys2Proof.Machine

/-! ### Host ranges cut into TLPs -/

section
variable {max addr len : Nat}

/-- The length of the first TLP of a range: up to the maximum, and not past the next 4 KiB boundary (R182). -/
def firstPiece (max addr len : Nat) : Nat := Nat.min len (Nat.min max (4096 - addr % 4096))

theorem firstPiece_cases : firstPiece max addr len = len ∨ firstPiece max addr len = max ∧ max < len ∨
    firstPiece max addr len = 4096 - addr % 4096 ∧ 4096 - addr % 4096 < len := by
  simp only [firstPiece, Nat.min_def]
  split_ifs <;> omega

theorem firstPiece_bounds (hmax : 0 < max) (hlen : len ≠ 0) :
    1 ≤ firstPiece max addr len ∧ firstPiece max addr len ≤ len ∧ firstPiece max addr len ≤ max ∧
      firstPiece max addr len ≤ 4096 - addr % 4096 := by
  simp only [firstPiece, Nat.min_def]
  split_ifs <;> omega

theorem pieces_zero (f : Nat) : pieces f max addr 0 = [] := by
  cases f <;> simp [pieces]

theorem pieces_succ (f : Nat) (hlen : len ≠ 0) : pieces (f + 1) max addr len =
    (addr, firstPiece max addr len) ::
      pieces f max (addr + firstPiece max addr len) (len - firstPiece max addr len) := by
  simp [pieces, hlen, firstPiece]

/-- What bounds the number of TLPs of a range: as many as the maximum fits into it, and as many as it has 4 KiB
boundaries. -/
def pieceBound (max addr len : Nat) : Nat := len / max + (addr % 4096 + len) / 4096

/-- The first TLP of a range that has more takes one from the bound. -/
theorem pieceBound_rest (hmax : 0 < max) (h : firstPiece max addr len ≠ len) :
    pieceBound max (addr + firstPiece max addr len) (len - firstPiece max addr len) < pieceBound max addr len := by
  have hk := firstPiece_bounds (addr := addr) hmax (len := len) (by rintro rfl; simp [firstPiece] at h)
  simp only [pieceBound]
  rcases firstPiece_cases (max := max) (addr := addr) (len := len) with hl | ⟨hm, hlt⟩ | ⟨hb, hlt⟩
  · exact absurd hl h
  · rw [hm] at hk ⊢
    have hquot : len / max = (len - max) / max + 1 := by
      rw [← Nat.add_div_right _ hmax, Nat.sub_add_cancel hlt.le]
    omega
  · rw [hb] at hk ⊢
    have hquot : (len - (4096 - addr % 4096)) / max ≤ len / max := Nat.div_le_div_right (by omega)
    omega

/-- With fuel for the bound the TLPs cover the range. -/
theorem pieces_sum (hmax : 0 < max) {f : Nat} (h : len = 0 ∨ pieceBound max addr len < f) :
    ((pieces f max addr len).map (·.2)).sum = len := by
  induction f generalizing addr len with
  | zero =>
    obtain rfl : len = 0 := by omega
    rfl
  | succ f ih =>
    by_cases hlen : len = 0
    · subst hlen; simp [pieces_zero]
    have hk := firstPiece_bounds (addr := addr) hmax hlen
    have hrest : len - firstPiece max addr len = 0 ∨
        pieceBound max (addr + firstPiece max addr len) (len - firstPiece max addr len) < f := by
      by_cases hall : firstPiece max addr len = len
      · omega
      · have := pieceBound_rest hmax hall
        omega
    rw [pieces_succ f hlen, List.map_cons, List.sum_cons, ih hrest]
    omega

theorem pieces_head (f : Nat) : ∀ x ∈ (pieces f max addr len).head?, x.1 = addr := by
  cases f with
  | zero => simp [pieces]
  | succ f =>
    by_cases hlen : len = 0
    · subst hlen; simp [pieces_zero]
    · simp [pieces_succ f hlen]

/-- Each TLP is within the maximum and within one 4 KiB page. -/
theorem pieces_within (hmax : 0 < max) (f : Nat) : ∀ x ∈ pieces f max addr len,
    1 ≤ x.2 ∧ x.2 ≤ max ∧ x.1 / 4096 = (x.1 + x.2 - 1) / 4096 := by
  induction f generalizing addr len with
  | zero => simp [pieces]
  | succ f ih =>
    by_cases hlen : len = 0
    · subst hlen; simp [pieces_zero]
    have hk := firstPiece_bounds (addr := addr) hmax hlen
    rw [pieces_succ f hlen, List.forall_mem_cons]
    exact ⟨⟨hk.1, hk.2.2.1, by dsimp only; omega⟩, ih⟩

/-- Each TLP begins where the one before it ends. -/
theorem pieces_chain (f : Nat) : (pieces f max addr len).IsChain fun x y => y.1 = x.1 + x.2 := by
  induction f generalizing addr len with
  | zero => simp [pieces]
  | succ f ih =>
    by_cases hlen : len = 0
    · subst hlen; simp [pieces_zero]
    rw [pieces_succ f hlen, List.isChain_cons]
    exact ⟨pieces_head f, ih⟩

/-- The fuel that `cut` gives is enough for every range. -/
theorem pieceBound_lt_fuel : pieceBound max addr len < len / max + len / 4096 + 3 := by
  simp only [pieceBound]
  omega

end

/-- Settles O19: the cover, the bounds, the order and the beginning of the pieces, each by induction on the fuel. -/
theorem hostRangesAreCut : Obligations.HostRangesAreCut := by
  intro max addr len hmax
  refine ⟨pieces_sum (by omega) (.inr pieceBound_lt_fuel), pieces_within (by omega) _, pieces_chain _, ?_⟩
  have hhead := pieces_head (max := max) (addr := addr) (len := len) (len / max + len / 4096 + 3)
  unfold cut
  cases h : (pieces (len / max + len / 4096 + 3) max addr len).head? with
  | none => rfl
  | some x => exact hhead x h

end Sys2Proof.Machine

namespace Sys2Proof.Machine

/-! ### Device legs -/

section
variable {s : State} {p tag : Nat} {v : Trv}

theorem chainOfHandle_enclosureHandle (sh : Nat) : chainOfHandle (enclosureHandle sh) = chainOfShelf sh := by
  simp only [chainOfHandle, enclosureHandle, chainOfShelf]
  omega

/-- A command as the wide port of its handle takes it over. -/
def SasPort.handed (x : SasPort) (h : Nat) (owner : CmdOwner) (cdb : List Byte) (dir len : Nat)
    (segments : List Segment) : Cmd :=
  { id := x.nextId, handle := h, owner, cdb, dir, len, segments }

@[simp] theorem State.handOver_chain (h : Nat) (owner : CmdOwner) (cdb : List Byte) (dir len : Nat)
    (segments : List Segment) : (s.handOver h owner cdb dir len segments).chain (chainOfHandle h) =
      { s.chain (chainOfHandle h) with
        cmds := (s.chain (chainOfHandle h)).cmds ++
          [(s.chain (chainOfHandle h)).handed h owner cdb dir len segments]
        nextId := (s.chain (chainOfHandle h)).nextId + 1 } := by
  simp [State.handOver, SasPort.handed]

@[simp] theorem State.handOver_mem (h : Nat) (owner : CmdOwner) (cdb : List Byte) (dir len : Nat)
    (segments : List Segment) : (s.handOver h owner cdb dir len segments).mem = s.mem := rfl

@[simp] theorem State.handOver_trvs (h : Nat) (owner : CmdOwner) (cdb : List Byte) (dir len : Nat)
    (segments : List Segment) : (s.handOver h owner cdb dir len segments).trvs = s.trvs := rfl

/-- Changing the command handed over last changes that one. -/
theorem State.handOver_modLast (h : Nat) (owner : CmdOwner) (cdb : List Byte) (dir len : Nat)
    (segments : List Segment) (f : Cmd → Cmd) :
    (((s.handOver h owner cdb dir len segments).modChain (chainOfHandle h) fun x => x.modLast f).chain
      (chainOfHandle h)).cmds.getLast? = some (f ((s.chain (chainOfHandle h)).handed h owner cdb dir len segments)) := by
  simp [SasPort.modLast, SasPort.handed]

/-! #### ISSUE and ISSUE-EXT -/

theorem execLegIssue_issues (h : AtLeg s p tag 0x10 v) :
    exec (.legIssue p tag) s = .next (s.issue v (v.leg.drop 16)) := by
  simp [execLegIssue, State.perform_atLeg h]

/-- A command whose handle has a device joins the FIFO of its wide port (R171, R259). -/
theorem State.issue_handsOver (cdb : List Byte) (h : (s.handle (legHandle v.leg)).attached.isSome = true) :
    (s.issue v cdb).chain (chainOfHandle (legHandle v.leg)) = (s.handOver (legHandle v.leg)
      (.leg v.port v.tag v.station) cdb (legDir v.leg) (v.group.map legLen).sum
      (if legDir v.leg = 0 then [] else segmentsOf v.group)).chain (chainOfHandle (legHandle v.leg)) ∧
    (s.issue v cdb).mem = s.mem := by
  constructor <;> simp [State.issue, h]

/-- What reading the CDB wakes and records leaves its bytes as they were. -/
theorem execLegIssueExt_buffer {u : State} (h : AtLeg s p tag 0x11 v) (ha : isBufAddr (legOperand v.leg) = true)
    (hread : s.readable (bufPos (legOperand v.leg)) (legByte v.leg 24) = (u, true))
    (hp : s.poisoned (bufPos (legOperand v.leg)) (legByte v.leg 24) = false) :
    exec (.legIssueExt p tag) s =
      .next (u.issue v (s.readBuf (bufPos (legOperand v.leg)) (legByte v.leg 24))) := by
  have htells : s.OnlyTells u := by
    simpa [hread] using s.readable_tells (bufPos (legOperand v.leg)) (legByte v.leg 24)
  simp [execLegIssueExt, State.perform_atLeg h, ha, State.whenReadable_yes hread, htells.poisoned, htells.readBuf, hp]

/-! #### TASK -/

/-- A function that names no command is held at the wide port of its handle (R177). -/
theorem execLegTask_setWide (h : AtLeg s p tag 0x12 v) (hf : namesOne (legByte v.leg 16) = false)
    (ha : (s.handle (legHandle v.leg)).attached.isSome = true) : exec (.legTask p tag) s =
      .next ((s.putTrv { v with stage := .awaiting }).sendTmf (legHandle v.leg) (legByte v.leg 16) none
        (.leg p tag)) := by
  have hdev : (s.handle (legHandle v.leg)).attached ≠ none := Option.isSome_iff_ne_none.mp ha
  simp [execLegTask, State.perform_atLeg h, hf, hdev]

/-! #### ENCLOSURE -/

theorem execLegEnclosure_handsOver (h : AtLeg s p tag 0x13 v)
    (ha : (s.handle (enclosureHandle (legByte v.leg 16))).attached.isSome = true) :
    ∃ cdb clear page2, exec (.legEnclosure p tag) s = .next (((s.putTrv { v with stage := .awaiting }).handOver
      (enclosureHandle (legByte v.leg 16)) (.leg p tag v.station) cdb (if legByte v.leg 18 = 1 then 1 else 2)
      (legLen v.leg) [{ addr := some (bufPos (legAddr v.leg)), len := legLen v.leg }]).modChain
      (chainOfHandle (enclosureHandle (legByte v.leg 16))) fun x => x.modLast fun c => { c with clear, page2 }) := by
  have hdev : (s.handle (enclosureHandle (legByte v.leg 16))).attached ≠ none := Option.isSome_iff_ne_none.mp ha
  simp only [execLegEnclosure, exec_legEnclosure, State.perform_atLeg h, Option.isNone_iff_eq_none, hdev, if_false,
    chainOfHandle_enclosureHandle]
  exact ⟨_, _, _, rfl⟩

theorem execLegEnclosure_lost (h : AtLeg s p tag 0x13 v)
    (ha : (s.handle (enclosureHandle (legByte v.leg 16))).attached = none) :
    exec (.legEnclosure p tag) s = .next (s.legDone { v with stage := .awaiting }
      { status := stLinkLost, info := some (issueInfo 0 4 []), residual := legLen v.leg }) := by
  simp [execLegEnclosure, State.perform_atLeg h, ha]

/-! #### FLUSH-SPAN -/

theorem execLegFlushSpan_flushes (h : AtLeg s p tag 0x24 v)
    (hacc : (s.accums.any fun a => a.desc = bufAddr (flushDesc v.leg)) = true)
    (htaint : bitN (accState (s.readBuf (flushDesc v.leg) 64)) 1 = false)
    (hcount : accCount (s.readBuf (flushDesc v.leg) 64) = accTotal (s.readBuf (flushDesc v.leg) 64))
    (ha : (s.handle (accHandle (s.readBuf (flushDesc v.leg) 64))).attached.isSome = true) :
    exec (.legFlushSpan p tag) s = .next
      ((((s.putTrv { v with stage := .awaiting, flushing := some (bufAddr (flushDesc v.leg)) }).setFlushing
        (bufAddr (flushDesc v.leg)) true).handOver (accHandle (s.readBuf (flushDesc v.leg) 64))
        (.leg p tag v.station) (accCdb (s.readBuf (flushDesc v.leg) 64)) 2
        (accLength (s.readBuf (flushDesc v.leg) 64))
        [{ addr := some (accFirst (s.readBuf (flushDesc v.leg) 64) * 65536)
           len := accLength (s.readBuf (flushDesc v.leg) 64) }]).modChain
        (chainOfHandle (accHandle (s.readBuf (flushDesc v.leg) 64))) fun x => x.modLast fun c =>
          { c with flush := some (bufAddr (flushDesc v.leg)) }) := by
  have hdev := Option.isSome_iff_ne_none.mp ha
  simp only [execLegFlushSpan, exec_legFlushSpan, State.perform_atLeg h, hacc, htaint, hcount,
    Option.isNone_iff_eq_none, hdev, if_false, Bool.not_true, Bool.false_eq_true, ne_eq, not_true]

theorem execLegFlushSpan_tainted (h : AtLeg s p tag 0x24 v)
    (hacc : (s.accums.any fun a => a.desc = bufAddr (flushDesc v.leg)) = true)
    (htaint : bitN (accState (s.readBuf (flushDesc v.leg) 64)) 1 = true) :
    exec (.legFlushSpan p tag) s = .next (s.flushEnds v stTainted 0x11 0) := by
  simp only [execLegFlushSpan, exec_legFlushSpan, State.perform_atLeg h, hacc, htaint, Bool.not_true,
    Bool.false_eq_true, if_false, if_true]

/-! #### GATHER -/

/-- A command of the traverse's GATHER at a wide port is outstanding. -/
theorem State.mem_gatherCmds {ch i : Nat} {c : Cmd} (hch : ch < 12) (hc : c ∈ (s.chain ch).cmds)
    (ho : c.owner = .gather v.port v.tag i) : (ch, c) ∈ s.gatherCmds v :=
  List.mem_flatMap.mpr ⟨ch, List.mem_range.mpr hch, List.mem_map.mpr ⟨c, List.mem_filter.mpr ⟨hc, by simp [ho]⟩, rfl⟩⟩

/-- The command of a GATHER's only descriptor, handed over. -/
def State.gatherOut (s : State) (v : Trv) (d : List Byte) (g : GatherState) : State :=
  (s.putTrv { v with stage := .awaiting, gather := some g }).handOver (legHandle d) (.gather v.port v.tag 0) (d.drop 16)
    1 (legLen d) [{ addr := some (bufPos (legAddr d)), len := legLen d }]

theorem State.gatherOut_waits {d : List Byte} (g : GatherState) (hch : chainOfHandle (legHandle d) < 12) :
    (s.gatherOut v d g).gatherCmds { v with stage := .awaiting, gather := some g } ≠ [] := by
  have hmem : (s.chain (chainOfHandle (legHandle d))).handed (legHandle d) (.gather v.port v.tag 0) (d.drop 16) 1
      (legLen d) [{ addr := some (bufPos (legAddr d)), len := legLen d }] ∈
        ((s.gatherOut v d g).chain (chainOfHandle (legHandle d))).cmds := by
    rw [State.gatherOut, State.handOver_chain]
    exact List.mem_append_right _ (List.mem_singleton_self _)
  exact List.ne_nil_of_mem (State.mem_gatherCmds hch hmem rfl)

/-- The GATHER of one descriptor waits for its command. -/
theorem execLegGather_one (h : AtLeg s p tag 0x26 v) (hn : legByte v.leg 17 = 1) (hk : legByte v.leg 16 = 1)
    (ha : (s.handle (legHandle (v.descriptor s 0))).attached.isSome = true)
    (hch : chainOfHandle (legHandle (v.descriptor s 0)) < 12) :
    ∃ g, g.k = 1 ∧ g.n = 1 ∧ g.arrived = [] ∧ exec (.legGather p tag) s =
      .next ((s.gatherOut v (v.descriptor s 0) g).putTrv { v with stage := .awaiting, gather := some g }) := by
  obtain ⟨rfl, rfl⟩ := State.trv?_names h.found
  refine ⟨{ k := 1, n := 1, lens := [legLen (v.descriptor s 0)]
            outcome := bufPos (legAddr v.leg) + legLen v.leg, failed := [] }, rfl, rfl, rfl, ?_⟩
  have hdev : (s.handle (legHandle (v.descriptor s 0))).attached.isNone = false := by
    rw [← Option.not_isSome, ha, Bool.not_true]
  have hout := State.gatherOut_waits (s := s) (v := v) { k := 1, n := 1, lens := [legLen (v.descriptor s 0)]
                                                         outcome := bufPos (legAddr v.leg) + legLen v.leg } hch
  simp only [execLegGather, exec_legGather, State.perform_atLeg h, hn, hk, List.range_one, List.map_singleton,
    List.filter_singleton, ha, hdev, cond_true, cond_false, List.length_singleton, Nat.lt_irrefl, if_false]
  exact congrArg _ (if_neg hout)

end

/-- Settles O17: each device leg by its command's rule above. -/
theorem deviceLegsHandOver : Obligations.DeviceLegsHandOver := by
  refine ⟨fun _ _ _ _ => execLegIssue_issues, ?issue, fun _ _ _ _ _ => execLegIssueExt_buffer,
    fun _ _ _ _ => execLegTask_setWide, ?enclosure,
    fun _ _ _ _ => execLegEnclosure_lost, fun _ _ _ _ => execLegFlushSpan_flushes,
    fun _ _ _ _ => execLegFlushSpan_tainted, ?gather⟩
  case issue =>
    intro s v cdb ha
    obtain ⟨hchain, hmem⟩ := State.issue_handsOver cdb ha
    rw [hchain, State.handOver_chain]
    exact ⟨_, rfl, rfl, rfl, rfl, rfl, rfl, rfl, hmem⟩
  case enclosure =>
    intro s p tag v h ha
    obtain ⟨cdb, clear, page2, hexec⟩ := execLegEnclosure_handsOver h ha
    exact ⟨_, _, hexec, State.handOver_modLast .., rfl, rfl, rfl, rfl, rfl⟩
  case gather =>
    intro s p tag v h hn hk ha hch
    obtain ⟨hport, htag⟩ := State.trv?_names h.found
    obtain ⟨g, hgk, hgn, hga, hexec⟩ := execLegGather_one h hn hk ha hch
    have hfound : (s.gatherOut v (v.descriptor s 0) g).trv? p tag = some { v with stage := .awaiting, gather := some g } :=
      State.putTrv_trv? h.found hport htag
    refine ⟨_, g, _, hexec, rfl, State.putTrv_trv? hfound hport htag, rfl, hgk, hgn, hga, rfl, ?_⟩
    simp [State.gatherOut, SasPort.handed, hport, htag]

end Sys2Proof.Machine

namespace Sys2Proof.Machine

/-! ### STAGE-IN and STAGE-OUT -/

/-! #### Host reads and writes -/

section
variable {s t : State} {p tag : Nat} {v : Trv}

/-- Two states whose ports have the same reads and the same Device Control 2: each may issue as many reads (R48). -/
def State.SameReads (s t : State) : Prop :=
  ∀ p, (t.port p).reads = (s.port p).reads ∧ (t.port p).config = (s.port p).config

theorem State.SameReads.refl (s : State) : s.SameReads s := fun _ => ⟨rfl, rfl⟩

theorem State.SameReads.trans {u : State} (h : s.SameReads t) (k : t.SameReads u) : s.SameReads u :=
  fun p => ⟨(k p).1.trans (h p).1, (k p).2.trans (h p).2⟩

theorem State.SameReads.foldl {α : Type} {f : State → α → State} (h : ∀ s a, State.SameReads s (f s a)) (l : List α)
    (s : State) : s.SameReads (l.foldl f s) := by
  induction l generalizing s with
  | nil => exact .refl s
  | cons a l ih => exact (h s a).trans (ih _)

theorem State.SameReads.mayRead (h : s.SameReads t) (hs : (s.port p).inFlight < (s.port p).tagLimit) :
    (t.port p).inFlight < (t.port p).tagLimit := by
  have hreads : (t.port p).inFlight = (s.port p).inFlight := by simp only [Port.inFlight, (h p).1]
  have hlimit : (t.port p).tagLimit = (s.port p).tagLimit := by
    unfold Port.tagLimit Port.cfg
    rw [(h p).2]
  rwa [hreads, hlimit]

theorem State.setPort_sameReads {x : Port} (hr : x.reads = (s.port p).reads) (hc : x.config = (s.port p).config) :
    s.SameReads (s.setPort p x) := by
  intro r
  rw [State.setPort_port]
  split
  · subst_vars; exact ⟨hr, hc⟩
  · exact ⟨rfl, rfl⟩

theorem State.portEvent_sameReads (s : State) (p bit : Nat) : s.SameReads (s.portEvent p bit) := by
  intro r
  obtain ⟨_, _, h⟩ := s.portEvent_latches p bit r
  rw [h]
  exact ⟨rfl, rfl⟩

theorem State.toPort_sameReads (s : State) (typ source : Nat) (payload : List Nat) (p : Nat) :
    s.SameReads (s.toPort typ source payload p) := by
  have hbook : s.SameReads (s.modPort p fun x => { x with book := x.book.accept typ source payload }) := by
    rw [State.modPort_eq]
    exact State.setPort_sameReads rfl rfl
  exact hbook.trans (State.portEvent_sameReads _ p 2)

theorem State.memoryEvent_sameReads (s : State) (q ev handle off : Nat) :
    s.SameReads (s.memoryEvent q ev handle off) := by
  unfold State.memoryEvent
  dsimp only
  split
  · have hbooks : ∀ typ source payload, s.SameReads ((s.toQuarter typ source payload q).toDevice typ source payload) :=
      fun _ _ _ => .refl s
    exact (hbooks _ _ _).trans (State.toPort_sameReads _ _ _ _ _)
  · exact .refl s

theorem State.met_sameReads (s : State) (read : Nat → Bool) : s.SameReads (s.met read) :=
  .foldl (fun s _ => s.memoryEvent_sameReads _ _ _ _) _ s

theorem State.hostWrite_sameReads (s : State) (p tag addr : Nat) (bs : List Byte) (relaxed ep : Bool) :
    s.SameReads (s.hostWrite p tag addr bs relaxed ep) := by
  unfold State.hostWrite
  dsimp only
  split
  · exact .refl s
  · exact State.setPort_sameReads rfl rfl

theorem State.hostWrite_tells (s : State) (p tag addr : Nat) (bs : List Byte) (relaxed ep : Bool) :
    s.OnlyTells (s.hostWrite p tag addr bs relaxed ep) := by
  unfold State.hostWrite
  dsimp only
  split
  · exact (s.countTlp_tells ..).trans (State.emit_tells ..)
  · exact s.setPort_tells ..

/-- A read that the port may send now goes out. -/
theorem State.issueRead_sent (h : (s.port p).inFlight < (s.port p).tagLimit) (addr len : Nat) (why : ReadPurpose) :
    s.issueRead p addr len why = ((({ s with seqNo := s.seqNo + 1 } : State).setPort p { s.port p with
      reads := (s.port p).reads ++
        [{ id := s.seqNo, addr, len, purpose := why, sent := true, tenant := s.readTenant p why }] }).emit
      (.hostRead p s.seqNo addr len)) := by
  simp only [State.issueRead, h, decide_true, if_true]
  rfl

/-- What a read that goes out changes: memory and traverses stay as they are. -/
theorem State.issueRead_out (h : (s.port p).inFlight < (s.port p).tagLimit) (addr len : Nat) (why : ReadPurpose) :
    (s.issueRead p addr len why).out = .hostRead p s.seqNo addr len :: s.out ∧
    (s.issueRead p addr len why).mem = s.mem ∧ (s.issueRead p addr len why).trvs = s.trvs := by
  rw [State.issueRead_sent h]
  exact ⟨rfl, rfl, rfl⟩

theorem State.trv?_congr (h : t.trvs = s.trvs) (p tag : Nat) : t.trv? p tag = s.trv? p tag := by
  simp only [State.trv?, h]

/-- The read just issued, when it has gone out, is found by its number. -/
theorem State.issueRead_found (h : (s.port p).inFlight < (s.port p).tagLimit)
    (hnew : ∀ r ∈ (s.port p).reads, r.id ≠ s.seqNo) (addr len : Nat) (why : ReadPurpose) :
    ((s.issueRead p addr len why).port p).reads.find? (fun r => r.id = s.seqNo) =
      some { id := s.seqNo, addr, len, purpose := why, sent := true, tenant := s.readTenant p why } := by
  have hnone : (s.port p).reads.find? (fun r => r.id = s.seqNo) = none := by simpa using hnew
  simp [State.issueRead_sent h, List.find?_append, hnone]

theorem State.sendRead_purpose {r : HostRead} (h : r ∈ ((s.sendRead p).port p).reads) :
    ∃ u ∈ (s.port p).reads, u.purpose = r.purpose := by
  unfold State.sendRead at h
  dsimp only at h
  split at h
  · split at h
    · simp only [State.emit_port, State.setPort_port_self] at h
      obtain ⟨u, hu, rfl⟩ := List.mem_map.mp h
      exact ⟨u, hu, by split <;> rfl⟩
    · exact ⟨r, h, rfl⟩
  · exact ⟨r, h, rfl⟩

@[simp] theorem State.placeBytes_ports (segs : List Segment) (off : Nat) (bs : List Byte) (poison : Bool) :
    (s.placeBytes segs off bs poison).ports = s.ports :=
  foldl_keeps State.ports (fun s a => by obtain ⟨a, lo, n⟩ := a; cases a <;> rfl) _ s

end

section
variable {s : State} {p tag : Nat} {v : Trv}

/-! #### STAGE-IN -/

/-- A STAGE-IN as it waits for its reads. -/
def Trv.staging (v : Trv) : Trv := { v with stage := .awaiting, staged := 0, poisonBeats := [], stageFault := none }

theorem execLegStageIn_reads (h : AtLeg s p tag 0x20 v) (hr : (s.port p).canRead = true) :
    exec (.legStageIn p tag) s = .next ((cut (s.port p).mrrs (fieldAt v.leg 16 8) (v.group.map legLen).sum).foldl
      (fun (s : State) (a : Nat × Nat) => s.issueRead p a.1 a.2 (.stageIn tag (a.1 - fieldAt v.leg 16 8)))
      (s.putTrv v.staging)) := by
  simp only [execLegStageIn, exec_legStageIn, State.perform_atLeg h, hr, Bool.not_true, Bool.false_eq_true, if_false]
  rfl

theorem execLegStageIn_fault (h : AtLeg s p tag 0x20 v) (hr : (s.port p).canRead = false) :
    exec (.legStageIn p tag) s = .next (s.legDone v
      { status := stFetchFault, info := some 0, residual := (v.group.map legLen).sum }) := by
  simp only [execLegStageIn, exec_legStageIn, State.perform_atLeg h, hr, Bool.not_false, if_true]

/-- With its last answer a STAGE-IN without a fault ends OK (R183). -/
theorem State.stageInArrives_last (hv : s.trv? p tag = some v) (hstage : v.stage = .awaiting) (hop : legOp v.leg = 0x20)
    (hfault : v.stageFault = none) (hreads : ∀ r ∈ (s.port p).reads, ∀ pos, r.purpose ≠ .stageIn tag pos)
    (pos : Nat) (bs : List Byte) : s.stageInArrives p tag pos (some (bs, false)) =
      (s.placeBytes (segmentsOf v.group) pos bs false).legDone
        { v with staged := v.staged + bs.length, bytes := v.bytes + bs.length }
        { status := stOk, info := some (BitVec.ofNat 64 v.poisonBeats.length), moved := true } := by
  have hmore : (((s.placeBytes (segmentsOf v.group) pos bs false).port p).reads.any fun r => match r.purpose with
      | .stageIn u _ => u = tag
      | _ => false) = false := by
    rw [State.port, State.placeBytes_ports, List.any_eq_false]
    intro r hr
    split
    · rename_i u q hu
      exact fun hut => hreads r hr q (by rw [hu, of_decide_eq_true hut])
    · simp
  simp only [State.stageInArrives, State.withTrv_found hv, hstage, hop, hfault, ne_eq, not_true, decide_false,
    Bool.or_self, Bool.false_eq_true, if_false]
  exact if_neg (Bool.eq_false_iff.mp hmore)

/-- The answer to a STAGE-IN's only request is counted and stored, and the leg ends OK (R183, R519). -/
theorem execHostReadCompletion_stageIn (hv : s.trv? p tag = some v.staging) (hop : legOp v.leg = 0x20)
    (htag : (s.port p).inFlight < (s.port p).tagLimit)
    (hreads : ∀ r ∈ (s.port p).reads, r.id ≠ s.seqNo ∧ ∀ pos, r.purpose ≠ .stageIn tag pos) (addr : Nat) (bs : List Byte)
    (t : State) (ht : t = s.issueRead p addr bs.length (.stageIn tag 0)) :
    exec (.hostReadCompletion p s.seqNo (.data bs false)) t = .next
      ((((t.countTlp p 0 (t.tenantOf p tag) (tlpBytes addr bs.length)).modPort p (fun x =>
        { x with reads := x.reads.filter fun u => decide (u.id ≠ s.seqNo) })).sendRead p).placeBytes
          (segmentsOf v.group) 0 bs false |>.legDone
        { v with stage := .awaiting, staged := bs.length, bytes := v.bytes + bs.length, poisonBeats := []
                 stageFault := none }
        { status := stOk, info := some 0, moved := true }) := by
  have hfind := State.issueRead_found htag (fun r hr => (hreads r hr).1) addr bs.length (.stageIn tag 0)
  rw [← ht] at hfind
  have hlen : t.readLen p s.seqNo = some bs.length := State.readLen_eq hfind
  have htrvs : t.trvs = s.trvs := ht ▸ (State.issueRead_out htag ..).2.2
  have htenant : s.readTenant p (.stageIn tag 0) = t.tenantOf p tag := by
    simp only [State.readTenant, State.tenantOf, State.trv?, htrvs]
  simp only [exec_hostReadCompletion, execHostReadCompletion, hlen, if_true,
    State.endRead_sent (find_sent hfind rfl), State.countRead, htenant, State.readEnds]
  generalize hw : ((t.countTlp p 0 (t.tenantOf p tag) (tlpBytes addr bs.length)).modPort p (fun x =>
    { x with reads := x.reads.filter fun u => decide (u.id ≠ s.seqNo) })) = w
  have htells : t.OnlyTells (w.sendRead p) := by
    rw [← hw]
    exact ((t.countTlp_tells ..).trans (State.modPort_tells ..)).trans (State.sendRead_tells ..)
  have hfound : (w.sendRead p).trv? p tag = some v.staging := by
    rw [htells.trv?, State.trv?, htrvs]
    exact hv
  have hgone : ∀ r ∈ ((w.sendRead p).port p).reads, ∀ pos, r.purpose ≠ .stageIn tag pos := by
    intro r hr pos
    obtain ⟨u, hu, hpurpose⟩ := State.sendRead_purpose hr
    rw [← hpurpose]
    have hu' : u ∈ (s.port p).reads ∧ ¬ u.id = s.seqNo := by
      simpa [← hw, ht, State.issueRead_sent htag] using hu
    exact (hreads u hu'.1).2 pos
  rw [State.stageInArrives_last hfound rfl hop rfl hgone]
  simp [Trv.staging]

/-! #### STAGE-OUT -/

/-- The TLPs of a STAGE-OUT sent, and what reading its beats records (R182, R184, R410). -/
def State.stagedOut (s : State) (p tag : Nat) (v : Trv) : State :=
  ((cut (s.port p).mps (fieldAt v.leg 16 8) (v.group.map legLen).sum).foldl
    (fun (s' : State) (a : Nat × Nat) => s'.hostWrite p tag a.1
      (s'.segmentBytes (segmentsOf v.group) (a.1 - fieldAt v.leg 16 8) a.2) (s.port p).relaxed
      (s'.segmentPoison (segmentsOf v.group) (a.1 - fieldAt v.leg 16 8) a.2)) s).met (fun b => decide
        (b ∈ segmentBeats (segmentsOf v.group) 0 (v.group.map legLen).sum))

theorem State.stagedOut_tells (s : State) (p tag : Nat) (v : Trv) : s.OnlyTells (s.stagedOut p tag v) :=
  (State.OnlyTells.foldl (fun s _ => s.hostWrite_tells ..) _ s).trans (State.met_tells ..)

theorem State.stagedOut_sameReads (s : State) (p tag : Nat) (v : Trv) : s.SameReads (s.stagedOut p tag v) :=
  (State.SameReads.foldl (fun s _ => s.hostWrite_sameReads _ _ _ _ _ _) _ s).trans (State.met_sameReads _ _)

/-- A STAGE-OUT once its TLPs are sent: the poisoned beats among them, and the last address written (R184). -/
def Trv.stagedOut (v : Trv) (s : State) : Trv :=
  { v with
    stage := .awaiting, bytes := v.bytes + (v.group.map legLen).sum
    wrote := some (fieldAt v.leg 16 8 + (v.group.map legLen).sum - 1)
    poisonBeats := ((segmentBeats (segmentsOf v.group) 0 (v.group.map legLen).sum).filter fun b =>
      decide (b ∈ s.poison)).dedup }

theorem Trv.stagedOut_clean
    (h : ((segmentBeats (segmentsOf v.group) 0 (v.group.map legLen).sum).any fun b => b ∈ s.poison) = false) :
    v.stagedOut s = { v with
      stage := .awaiting, bytes := v.bytes + (v.group.map legLen).sum
      wrote := some (fieldAt v.leg 16 8 + (v.group.map legLen).sum - 1), poisonBeats := [] } := by
  have hclean : (segmentBeats (segmentsOf v.group) 0 (v.group.map legLen).sum).filter (fun b => decide (b ∈ s.poison)) =
      [] := by
    simpa [List.filter_eq_nil_iff] using h
  simp only [Trv.stagedOut, hclean, List.dedup_nil]

theorem execLegStageOut_ends (h : AtLeg s p tag 0x21 v) (hback : bitN (legByte v.leg 24) 0 = false) :
    exec (.legStageOut p tag) s = .next ((s.stagedOut p tag v).stageOutEnds (v.stagedOut s) true) := by
  simp only [execLegStageOut, exec_legStageOut, State.perform_atLeg h, hback, Bool.not_false, if_true]
  rfl

theorem execLegStageOut_readsBack (h : AtLeg s p tag 0x21 v) (hr : (s.port p).canRead = true)
    (hback : bitN (legByte v.leg 24) 0 = true) : exec (.legStageOut p tag) s =
      .next (((s.stagedOut p tag v).putTrv (v.stagedOut s)).issueRead p
        (fieldAt v.leg 16 8 + (v.group.map legLen).sum - 1) 1 (.stageBack tag)) := by
  simp only [execLegStageOut, exec_legStageOut, State.perform_atLeg h, hback, hr, Bool.not_true, Bool.false_eq_true,
    if_false, if_true]
  rfl

theorem State.stageOutEnds_ok (h : v.poisonBeats = []) :
    s.stageOutEnds v true = s.legDone v { status := stOk, info := some 0, moved := true } := by
  simp [State.stageOutEnds, h]

end

/-- Settles O18: the legs by their commands' rules, a STAGE-IN's answer by `endRead`'s. -/
theorem stageLegsMoveData : Obligations.StageLegsMoveData := by
  refine ⟨fun _ _ _ _ => execLegStageIn_reads, fun _ _ _ _ => execLegStageIn_fault, ?answered, ?out, ?readback⟩
  case answered =>
    intro s p tag v bs h hr htag hreads hcut
    have hop : legOp v.leg = 0x20 := h.2.2.2.1
    obtain ⟨hport, hname⟩ := State.trv?_names h.found
    have hexec := execLegStageIn_reads h hr
    rw [hcut, List.foldl_cons, List.foldl_nil, Nat.sub_self] at hexec
    refine ⟨_, hexec, ?_, execHostReadCompletion_stageIn 
      (State.putTrv_trv? h.found hport hname) hop htag hreads _ bs _ rfl⟩
    rw [(State.issueRead_out (s := s.putTrv v.staging) htag ..).1]
    exact List.mem_cons_self
  case out =>
    intro s p tag v h hback hclean
    rw [execLegStageOut_ends h hback, Trv.stagedOut_clean hclean, State.stageOutEnds_ok rfl]
    rfl
  case readback =>
    intro s p tag v h hr htag hback
    obtain ⟨hport, hname⟩ := State.trv?_names h.found
    have htells := s.stagedOut_tells p tag v
    have hroom := (s.stagedOut_sameReads p tag v).mayRead htag
    obtain ⟨hout, hmem, htrvs⟩ := State.issueRead_out (s := (s.stagedOut p tag v).putTrv (v.stagedOut s)) hroom
      (fieldAt v.leg 16 8 + (v.group.map legLen).sum - 1) 1 (.stageBack tag)
    refine ⟨_, v.stagedOut s, execLegStageOut_readsBack h hr hback, hmem.trans htells.mem, ?_, rfl, rfl,
      (s.stagedOut p tag v).seqNo, ?_⟩
    · rw [State.trv?_congr htrvs]
      exact State.putTrv_trv? ((htells.trv? p tag).trans h.found) hport hname
    · rw [hout]
      exact List.mem_cons_self

end Sys2Proof.Machine

namespace Sys2Proof.Machine

/-! ### Commands at a wide port -/

section
variable {s : State} {h c tag : Nat} {x : Cmd}

/-! #### Sending -/

/-- The command that may leave is one of the handle's, not yet sent. -/
theorem State.nextCommand_spec (hx : s.nextCommand h = some x) :
    x ∈ (s.chain (chainOfHandle h)).cmds ∧ x.handle = h ∧ x.sent = false := by
  unfold State.nextCommand at hx
  dsimp only at hx
  split at hx
  · cases hx
  · rename_i d hd
    obtain rfl : d = x := Option.some.inj (Option.ite_none_right_eq_some.mp hx).2
    have hmem := List.mem_filter.mp (List.mem_of_find?_eq_some hd)
    have hsent : d.sent = false ∧ d.retrying = false := by simpa using List.find?_some hd
    exact ⟨hmem.1, of_decide_eq_true hmem.2, hsent.1⟩

/-- A command put in the place of one with its number is in the port's table. -/
theorem State.putCmd_mem {u : Cmd} (hx : x ∈ (s.chain c).cmds) (hid : x.id = u.id) :
    u ∈ ((s.putCmd c u).chain c).cmds := by
  rw [State.putCmd, State.modChain_eq, State.setChain_chain_self]
  exact mem_map_replace hx hid

/-- A command whose connection is opened for the first time takes a tag, and its timeout starts (R261). -/
def State.timed (s : State) (x : Cmd) (tag : Nat) : Cmd :=
  { x with tag := some tag, timing := true, startedMs := s.devMs, limitS := s.timeoutOf x
           retryLimit := s.manage.sas.busyRetries }

/-- The tag is the device's choice among the free ones (R259). -/
theorem State.openFor_first (htag : x.tag = none) (htiming : x.timing = false) :
    ∃ tag, s.openFor x = ({ s with fresh := s.fresh + 1 }, s.timed x tag) ∧
      ((s.chain (chainOfHandle x.handle)).freeTags ≠ [] → tag ∈ (s.chain (chainOfHandle x.handle)).freeTags) := by
  refine ⟨_, by simp only [State.openFor, htag, htiming, Bool.false_eq_true, if_false]; rfl, fun hfree => ?_⟩
  have hlt := Nat.mod_lt (Config.freeNat s.fresh) (List.length_pos_iff.mpr hfree)
  rw [List.getD_eq_getElem _ _ hlt]
  exact List.getElem_mem hlt

theorem execCommandFrameSend_sends (hx : s.nextCommand h = some x) (ha : (s.handle h).attached.isSome = true)
    (htag : x.tag = none) (htiming : x.timing = false) :
    ∃ tag, exec (.commandFrameSend h) s = .next
        ((({ s with fresh := s.fresh + 1 } : State).putCmd (chainOfHandle h) { s.timed x tag with sent := true }).emit
          (.sspCommand (chainOfHandle h) h tag x.cdb x.dir x.len)) ∧
      ((s.chain (chainOfHandle h)).freeTags ≠ [] → tag ∈ (s.chain (chainOfHandle h)).freeTags) := by
  obtain ⟨-, rfl, -⟩ := State.nextCommand_spec hx
  obtain ⟨tag, hopen, hfree⟩ := State.openFor_first (s := s) htag htiming
  have hdev : (s.handle x.handle).attached.isNone = false := by rw [← Option.not_isSome, ha, Bool.not_true]
  refine ⟨tag, ?_, hfree⟩
  simp only [exec_commandFrameSend, execCommandFrameSend, hx, hdev, hopen, Bool.false_eq_true, if_false]
  rfl

theorem execCommandFrameSend_lost (hx : s.nextCommand h = some x) (ha : (s.handle h).attached = none) :
    exec (.commandFrameSend h) s = .next (s.endCmd (chainOfHandle h) x x.lost false) := by
  simp [execCommandFrameSend, hx, ha]

/-! #### Answers -/

section
variable {status : BitVec 8} {info : List Byte} (hx : (s.chain c).byTag tag = some x) (hsent : x.sent = true)
  (hanswer : x.answer = none)
include hx hsent hanswer

theorem execSspResponseFrame_retries (hretry : s.mayRetry x status = true) :
    exec (.sspResponseFrame c tag status info) s = .next (s.putCmd c { x with
      tag := none, sent := false, timing := false, retrying := true, retries := x.retries + 1, ready := none }) := by
  simp [execSspResponseFrame, hx, hsent, hanswer, hretry]

/-- An answer that is not retried ends its command, or waits for the data received for it to land (R264). -/
theorem execSspResponseFrame_answers (hretry : s.mayRetry x status = false) :
    exec (.sspResponseFrame c tag status info) s = .next (if s.landed c x then
        (s.endCmd c { x with answer := some (status, info), timing := false } x.aborted false).recoverySettle x.handle
      else s.putCmd c { x with answer := some (status, info), timing := false }) := by
  cases hland : s.landed c x <;> simp [execSspResponseFrame, hx, hsent, hanswer, hretry, hland]

end

theorem Cmd.ending_answered {status : BitVec 8} {info : List Byte} (hanswer : x.answer = some (status, info))
    (hwhy : x.why = .none) (e : LegEnd) (b : Bool) : x.ending e b = (x.byStatus status info, false) := by
  simp [Cmd.ending, hanswer, hwhy]

/-- GOOD with every byte moved is OK, with fewer OK-SHORT, with an overrun DEVICE-CHECK (R173). -/
theorem Cmd.byStatus_good (hwhy : x.why = .none) (info : List Byte) : x.byStatus 0 info =
    if x.overrun then { x.ends stDeviceCheck 0 2 with residual := 0 }
    else if x.moved < x.len then x.ends stOkShort 0 0 else x.ends stOk 0 0 := by
  simp [Cmd.byStatus, hwhy]

theorem Cmd.byStatus_bad {status : BitVec 8} (hwhy : x.why = .none) (hstatus : status ≠ 0) (info : List Byte) :
    x.byStatus status info =
      { x.ends stDeviceCheck status 0 with sense := if status = 0x02 then info else [] } := by
  have hne : ¬ status = 0#8 := hstatus
  simp [Cmd.byStatus, hwhy, hne]

/-! #### Timers -/

theorem execBusyRetryDelayExpiry_again {id : Nat} (hx : (s.chain c).byId id = some x) (hretry : x.retrying = true) :
    exec (.busyRetryDelayExpiry c id) s = .next (s.putCmd c { x with retrying := false }) := by
  simp [execBusyRetryDelayExpiry, hx, hretry]

theorem execCommandTimeout_recovers (hx : (s.chain c).byTag tag = some x) (htiming : x.timing = true)
    (hdue : x.startedMs + 1000 * x.limitS ≤ s.devMs) (hlost : (s.handle x.handle).lost = false) :
    exec (.commandTimeout c tag) s =
      .next ((s.putCmd c { x with timing := false }).startRecovery x.handle 1 [x.id]) := by
  simp [execCommandTimeout, hx, htiming, Nat.not_lt.mpr hdue, hlost]

end

/-- Settles O20: sending, answers and timers, each by its rule above. -/
theorem commandsAreSentAndAnswered : Obligations.CommandsAreSentAndAnswered := by
  refine ⟨?send, fun _ _ _ => execCommandFrameSend_lost,
    fun _ _ _ _ _ _ hx hsent hanswer => execSspResponseFrame_retries hx hsent hanswer, ?ends, ?waits,
    fun _ e b _ _ hanswer hwhy => Cmd.ending_answered hanswer hwhy e b, ?good, ?bad,
    fun _ _ _ _ => execBusyRetryDelayExpiry_again, fun _ _ _ _ => execCommandTimeout_recovers⟩
  case send =>
    intro s h x hx ha htag htiming
    obtain ⟨hmem, -, -⟩ := State.nextCommand_spec hx
    obtain ⟨tag, hexec, hfree⟩ := execCommandFrameSend_sends hx ha htag htiming
    exact ⟨_, tag, _, hexec, rfl, rfl, rfl, State.putCmd_mem hmem rfl, rfl, hfree⟩
  case ends =>
    intro s c tag x status info hx hsent hanswer hretry hland
    rw [execSspResponseFrame_answers hx hsent hanswer hretry, if_pos hland]
  case waits =>
    intro s c tag x status info hx hsent hanswer hretry hland
    rw [execSspResponseFrame_answers hx hsent hanswer hretry, if_neg (Bool.eq_false_iff.mp hland)]
  case good =>
    intro x info hwhy
    rw [Cmd.byStatus_good hwhy]
    refine ⟨fun ho => ?_, fun ho hm => ?_, fun ho hm => ?_⟩
    · simp [ho, Cmd.ends]
    · simp [ho, hm, Cmd.ends, Cmd.short]
    · simp [ho, Nat.not_lt.mpr hm, Cmd.ends]
  case bad =>
    intro x status info hwhy hstatus
    rw [Cmd.byStatus_bad hwhy hstatus]
    exact ⟨rfl, rfl, rfl⟩

/-! ### Task management functions -/

section
variable {s : State} {h c tag p u : Nat} {m : Tmf}

/-- The function that may be sent is one of the handle's. -/
theorem State.nextTmf_spec (hm : s.nextTmf h = some m) :
    m ∈ (s.chain (chainOfHandle h)).tmfs ∧ m.handle = h := by
  refine ⟨List.mem_of_find?_eq_some hm, ?_⟩
  have hpred := List.find?_some hm
  simp only [Bool.and_eq_true, decide_eq_true_eq] at hpred
  exact hpred.1.1.1.1

/-- With 0x1000 free and no function waiting for a tag, a function takes that tag (R259). -/
theorem SasPort.taskTag_first {y : SasPort} (htag : m.tag = none)
    (h : ∀ n ∈ y.tmfs, n.tag ≠ some 0x1000 ∧ n.turn = none) : y.taskTag m = some 0x1000 := by
  have hturn : (y.tmfs.any fun n => match n.turn, m.turn with
      | some i, some j => i < j
      | some _, none => true
      | none, _ => false) = false := by
    rw [List.any_eq_false]
    intro n hn
    simp [(h n hn).2]
  have hfree : ((List.range 512).find? fun t => !(y.tmfs.any fun n => n.tag = some (0x1000 + t))) = some 0 := by
    rw [List.range_succ_eq_map, List.find?_cons_of_pos]
    simpa using fun n hn => (h n hn).1
  simp only [SasPort.taskTag, htag]
  exact (if_pos (congrArg _ hturn)).trans (congrArg _ hfree)

/-- A function that takes a tag goes out (R259). -/
theorem State.tmfOut_tagged {t : Nat} (h : (s.chain (chainOfHandle m.handle)).taskTag m = some t) :
    s.tmfOut m = (s.setChain (chainOfHandle m.handle) ((s.chain (chainOfHandle m.handle)).putTmf m
      { m with tag := some t, sent := true, turn := none })).emit (.sspTask (chainOfHandle m.handle) m.handle t m.function
        (((m.managed.bind (s.chain (chainOfHandle m.handle)).byId).bind (·.tag)).getD 0)) := by
  simp only [State.tmfOut, h]

theorem execTaskSend_setWide (hm : s.nextTmf h = some m) (ha : (s.handle h).attached.isSome = true)
    (howner : ∃ p tag, m.owner = .leg p tag) (hf : namesOne m.function = false) :
    exec (.taskSend h) s = .next (s.tmfOut m) := by
  obtain ⟨p, tag, howner⟩ := howner
  have hdev := Option.isSome_iff_ne_none.mp ha
  simp [execTaskSend, hm, howner, hf, hdev]

/-- The answer to a QUERY TASK ends no command (R176). -/
theorem State.taskEnds_query (hf : m.function = 0x80) : s.taskEnds m = s := by
  simp [State.taskEnds, hf, State.endCmds]

theorem execTaskResponse_query {code : BitVec 8}
    (hm : (s.chain c).tmfs.find? (fun m => m.tag = some tag) = some m) (howner : m.owner = .leg p u)
    (hf : m.function = 0x80) : exec (.taskResponse c tag code) s =
      .next ((s.modChain c fun x => x.dropTmf m).withTrv p u fun v =>
        (s.modChain c fun x => x.dropTmf m).legDone v
          { status := if code = 0 || code = 8 then stOk else stDeviceCheck
            info := some (BitVec.ofNat 64 code.toNat) }) := by
  simp only [exec_taskResponse, execTaskResponse, hm, howner, State.taskEnds_query hf, ite_self]

theorem State.abortMissed_recovers {i : Nat} {x : Cmd} (hf : m.function = 1) (hmanaged : m.managed = some i)
    (hx : (s.chain c).byId i = some x) (hlost : (s.handle m.handle).lost = false) :
    s.abortMissed c m = s.startRecovery m.handle 2 [] := by
  simp [State.abortMissed, hf, hmanaged, hx, hlost]

theorem execTmfTimeout_port (hm : (s.chain c).tmfs.find? (fun m => m.tag = some tag && m.sent) = some m)
    (howner : m.owner = .port) :
    exec (.tmfTimeout c tag) s = .next ((s.modChain c fun x => x.dropTmf m).abortMissed c m) := by
  simp only [exec_tmfTimeout, execTmfTimeout, hm, howner]

theorem execTmfTimeout_leg (hm : (s.chain c).tmfs.find? (fun m => m.tag = some tag && m.sent) = some m)
    (howner : m.owner = .leg p u) : exec (.tmfTimeout c tag) s =
      .next (((s.modChain c fun x => x.dropTmf m).freeInfo.2).withTrv p u fun v =>
        ((s.modChain c fun x => x.dropTmf m).freeInfo.2).legDone v
          { status := stDeviceTimeout, info := some ((s.modChain c fun x => x.dropTmf m).freeInfo.1 &&& 0xFF) }) := by
  simp only [exec_tmfTimeout, execTmfTimeout, hm, howner]

end

/-- Settles O21: functions sent, answered and timed out, each by its rule above. -/
theorem taskFunctionsRun : Obligations.TaskFunctionsRun := by
  refine ⟨?send, fun _ _ _ _ _ _ _ => execTaskResponse_query, ?port, ?leg⟩
  case send =>
    intro s h m hm ha howner hf hmanaged htag hfree
    obtain ⟨hmem, rfl⟩ := State.nextTmf_spec hm
    refine ⟨_, execTaskSend_setWide hm ha howner hf, ?_⟩
    rw [State.tmfOut_tagged (SasPort.taskTag_first htag hfree), hmanaged]
    refine ⟨rfl, rfl, ?_⟩
    rw [State.emit_chain, State.setChain_chain_self]
    exact List.mem_map.mpr ⟨m, hmem, by rw [if_pos rfl, (hfree m hmem).2]⟩
  case port =>
    intro s c tag m x i hm howner hmanaged hf hx hlost
    have hstays : ((s.modChain c fun y => y.dropTmf m).chain c).byId i = some x := by
      rw [State.modChain_eq, State.setChain_chain_self]
      exact hx
    rw [execTmfTimeout_port hm howner, State.abortMissed_recovers hf hmanaged hstays hlost]
  case leg =>
    intro s c tag p u m hm howner
    exact ⟨_, by rw [BitVec.and_assoc, BitVec.and_self], execTmfTimeout_leg hm howner⟩

end Sys2Proof.Machine

namespace Sys2Proof.Machine

/-! ### Spin-up -/

/-- Of two writes of a shelf the later stands. -/
@[simp] theorem State.setShelf_setShelf (s : State) (i : Nat) (x y : Shelf) :
    (s.setShelf i x).setShelf i y = s.setShelf i y := by
  simp [State.setShelf]

/-! #### The schedule -/

section
variable {group interval : Nat}

/-- A basic schedule names every slot once, in order (R238). -/
theorem basicSteps_slots (hgroup : 1 ≤ group) {n offset : Nat} {l : List Nat} (hn : l.length ≤ n) :
    (basicSteps group interval n offset l).flatMap (·.slots) = l := by
  induction n generalizing offset l with
  | zero => simp [basicSteps, List.length_eq_zero_iff.mp (Nat.le_zero.mp hn)]
  | succ n ih =>
    by_cases hl : l = []
    · simp [basicSteps, hl]
    · have hrest : (l.drop group).length ≤ n := by rw [List.length_drop]; omega
      rw [basicSteps, if_neg hl, List.flatMap_cons, ih hrest, List.take_append_drop]

theorem basicSteps_step {n offset : Nat} {l : List Nat} :
    ∀ st ∈ basicSteps group interval n offset l, st.slots.length ≤ group ∧ st.method = 1 := by
  induction n generalizing offset l with
  | zero => simp [basicSteps]
  | succ n ih =>
    by_cases hl : l = []
    · simp [basicSteps, hl]
    · rw [basicSteps, if_neg hl, List.forall_mem_cons]
      exact ⟨⟨List.length_take_le .., rfl⟩, ih⟩

end

section
variable {s : State} {sh : Nat} {slots : List Nat}

theorem Shelf.plan_basic {x : Shelf} (h : x.useSteps = none) (slots : List Nat) :
    x.plan slots = basicSteps x.useGroup x.useInterval slots.length 0 slots := by
  simp [Shelf.plan, h]

/-- A spin-up over some slots runs by the shelf's schedule of them. -/
theorem State.startSpinUp_basic (hs : (s.shelf sh).useSteps = none) (hg : 1 ≤ (s.shelf sh).useGroup)
    (hslots : slots ≠ []) : s.startSpinUp sh slots = s.setShelf sh { s.shelf sh with
      spinning := true, schedule := (s.shelf sh).plan slots, nextStep := 0 } := by
  have hsched : ((s.shelf sh).plan slots).flatMap (·.slots) = slots := by
    rw [Shelf.plan_basic hs, basicSteps_slots hg le_rfl]
  simp [State.startSpinUp, Shelf.scheduled, hsched, hslots]

theorem execSlotDiscoveryComplete_starts (hstate : (s.shelf sh).state = .spinning)
    (hspin : (s.shelf sh).spinning = false)
    (hall : ∀ j ∈ s.populatedSlots sh, (s.handle (driveHandle sh j)).attached.isSome = true) :
    exec (.slotDiscoveryComplete sh) s = .next (s.startSpinUp sh (s.populatedSlots sh)) := by
  have hall' : ((s.populatedSlots sh).all fun j => (s.handle (driveHandle sh j)).attached.isSome) = true :=
    List.all_eq_true.mpr hall
  simp only [exec_slotDiscoveryComplete, execSlotDiscoveryComplete, hstate, hspin, hall', decide_true, Bool.not_false,
    Bool.and_self, if_true]

theorem execSpinUpStartTimeout_starts (hstate : (s.shelf sh).state = .spinning)
    (hspin : (s.shelf sh).spinning = false) : exec (.spinUpStartTimeout sh) s = .next (s.startSpinUp sh
      ((s.populatedSlots sh).filter fun j => (s.handle (driveHandle sh j)).attached.isSome ||
        j ∈ (((s.shelf sh).useSteps.getD []).filter fun st => st.method = 2).flatMap (·.slots))) := by
  simp only [exec_spinUpStartTimeout, execSpinUpStartTimeout, hstate, hspin, decide_true, Bool.not_false,
    Bool.and_self, if_true]

/-- The step at hand of a shelf's spin-up starts its one slot by START STOP UNIT (R238). -/
theorem execSpinUpStep_one {j : Nat} {st : SpinStep} (hst : (s.shelf sh).schedule[(s.shelf sh).nextStep]? = some st)
    (hstate : (s.shelf sh).state = .spinning) (hspin : (s.shelf sh).spinning = true) (howner : st.owner = none)
    (hmethod : st.method = 1) (hslots : st.slots = [j]) : exec (.spinUpStep sh) s = .next
      ((s.setShelf sh { s.shelf sh with
        nextStep := (s.shelf sh).nextStep + 1, started := (s.shelf sh).started ++ [j]
        answered := (s.shelf sh).answered.filter fun i => i ≠ j }).handOver (driveHandle sh j) (.spinUp sh j false)
        (cdbStartStop true true) 0 0 []) := by
  simp [execSpinUpStep, hst, hstate, hspin, howner, hmethod, hslots, State.startSlot]

theorem execTestUnitReadyPoll_polls {slot : Nat} (hanswered : (s.shelf sh).answered.contains slot = true)
    (hpoll : s.polling sh slot = false) (hstate : (s.shelf sh).state = .spinning)
    (hspin : (s.shelf sh).spinning = true) (hready : (s.shelf sh).readySlots.contains slot = false) :
    exec (.testUnitReadyPoll sh slot) s =
      .next (s.handOver (driveHandle sh slot) (.spinUp sh slot true) cdbTestReady 0 0 []) := by
  simp only [exec_testUnitReadyPoll, execTestUnitReadyPoll, hanswered, hpoll, hstate, hspin, hready, decide_true,
    Bool.not_true, Bool.or_self, Bool.and_self, Bool.false_eq_true, if_false, if_true]

theorem execSpinUpTimeout_opens (hstate : (s.shelf sh).state = .spinning) (hspin : (s.shelf sh).spinning = true)
    (hdone : (s.shelf sh).schedule.length ≤ (s.shelf sh).nextStep) : exec (.spinUpTimeout sh) s =
      .next ((((s.shelf sh).scheduled.filter fun j => !(s.shelf sh).readySlots.contains j).foldl
        (fun (s : State) j => s.outingEvent sh 0x0A j) s).openShelf sh) := by
  simp only [exec_spinUpTimeout, execSpinUpTimeout, hstate, hspin, Nat.not_lt.mpr hdone, ne_eq, not_true, decide_false,
    Bool.not_true, Bool.or_self, Bool.false_eq_true, if_false]

end

/-! #### SPIN -/

section
variable {s : State} {p tag : Nat} {v : Trv}

theorem execSpinStartTimeout_notReady {slot : Nat} (hv : s.trv? p tag = some v) (hstage : v.stage = .awaiting)
    (hop : legOp v.leg = 0x32) (hstart : byteAt v.leg 17 = 1) (hslot : v.spin.find slot = some .waiting)
    (hstarted : (s.shelf (byteAt v.leg 16)).started.contains slot = true) :
    exec (.spinStartTimeout p tag slot) s = .next (s.spinSettle v slot .notReady) := by
  simp only [exec_spinStartTimeout, execSpinStartTimeout, State.withTrv_found hv, hstage, hop, hstart, hslot, hstarted,
    decide_true, Bool.and_self, if_true]

theorem execLegSpin_none (h : AtLeg s p tag 0x32 v)
    (hsel : (spinSlots v.leg).filter (s.populatedSlots (legByte v.leg 16)).contains = []) :
    exec (.legSpin p tag) s = .next (s.legDone v { status := stOk, info := some 0 }) := by
  simp only [exec_legSpin, execLegSpin, State.perform_atLeg h, hsel, if_true]

theorem execLegSpin_start (h : AtLeg s p tag 0x32 v) {sel : List Nat} (hstart : legByte v.leg 17 = 1)
    (hsel : (spinSlots v.leg).filter (s.populatedSlots (legByte v.leg 16)).contains = sel) (hne : sel ≠ []) :
    exec (.legSpin p tag) s = .next ((s.putTrv { v with
      stage := .awaiting, spin := sel.map fun j => (j, .waiting) }).modShelf (legByte v.leg 16) fun x => { x with
        schedule := x.schedule ++ x.spinPlan (s.populatedSlots (legByte v.leg 16)) sel (p, tag)
        started := x.started.filter fun j => !sel.contains j
        answered := x.answered.filter fun j => !sel.contains j }) := by
  simp only [exec_legSpin, execLegSpin, State.perform_atLeg h, hsel, hne, hstart, if_false,
    show ¬ (1 : Nat) = 2 by decide]

theorem execLegSpin_stop (h : AtLeg s p tag 0x32 v) {j : Nat} (hstop : legByte v.leg 17 = 2)
    (hsel : (spinSlots v.leg).filter (s.populatedSlots (legByte v.leg 16)).contains = [j]) :
    exec (.legSpin p tag) s = .next ((s.putTrv { v with stage := .awaiting, spin := [(j, .waiting)] }).handOver
      (driveHandle (legByte v.leg 16) j) (.spinLeg p tag j false) (cdbStartStop false false) 0 0 []) := by
  simp only [exec_legSpin, execLegSpin, State.perform_atLeg h, hsel, hstop, List.cons_ne_nil, if_false, if_true,
    List.map_singleton, List.foldl_cons, List.foldl_nil]

/-- The outcome of the only drive that a STOP waits for ends the leg (R207). -/
theorem State.spinSettle_last {j : Nat} (hspin : v.spin = [(j, .waiting)]) (hstop : byteAt v.leg 17 = 2) :
    s.spinSettle v j .reached = (s.modShelf (byteAt v.leg 16) (fun x => x.spun j false)).legDone { v with spin := [] }
      { status := stOk, info := some 1 } := by
  simp [State.spinSettle, hspin, hstop, Tab.set, Tab.find, SpinOutcome.isRejected]

end

/-! #### What leaves the shelves as they are -/

section
variable {s t : State}

theorem State.OnlyTells.shelves (h : s.OnlyTells t) : t.shelves = s.shelves := by
  obtain ⟨_, _, _, _, _, _, _, _, rfl⟩ := h; rfl

theorem State.shelf_congr (h : t.shelves = s.shelves) (i : Nat) : t.shelf i = s.shelf i := by
  simp only [State.shelf, h]

theorem State.outingEvent_tells (s : State) (sh ev detail : Nat) : s.OnlyTells (s.outingEvent sh ev detail) :=
  (s.toDevice_tells ..).trans (.foldl (fun s _ => s.toPort_tells ..) _ _)

/-- A shelf that enters a state is in it, from now on. -/
theorem State.enterShelf_shelf_self (s : State) (sh : Nat) (st : ShelfState) (ev detail : Nat) :
    (s.enterShelf sh st ev detail).shelf sh = { s.shelf sh with state := st, since := s.devMs } := by
  rw [State.enterShelf, State.shelf_congr (State.outingEvent_tells ..).shelves, State.modShelf_eq,
    State.setShelf_shelf_self]

theorem State.hostWrites_tells (s : State) (p tag addr : Nat) (bs : List Byte) :
    s.OnlyTells (s.hostWrites p tag addr bs) :=
  .foldl (fun s _ => s.hostWrite_tells ..) _ s

theorem State.writeSb_shelves (s : State) (v : Trv) (off : Nat) (bs : List Byte) :
    (s.writeSb v off bs).1.shelves = s.shelves := by
  have hreach := (s.wakeStacks_tells (bufQuarters (bufPos v.sb + off) bs.length)).shelves
  unfold State.writeSb
  split
  · rfl
  · split
    · dsimp only
      split
      · exact hreach
      · exact (State.sbRun_tells _ v).shelves.trans hreach
    · exact ((s.hostWrites_tells ..).trans (State.sbRun_tells _ v)).shelves

theorem State.writeBlock_shelves (s : State) (v : Trv) : (s.writeBlock v).1.shelves = s.shelves :=
  s.writeSb_shelves v ..

theorem State.writeRecord_shelves (s : State) (v : Trv) (kind code : Nat) :
    (s.writeRecord v kind code).1.shelves = s.shelves := by
  unfold State.writeRecord
  split
  · rfl
  · exact (State.writeBlock_shelves ..).trans (s.writeSb_shelves ..)

theorem State.writeSense_shelves (s : State) (v : Trv) (sense : List Byte) :
    (s.writeSense v sense).1.shelves = s.shelves := by
  unfold State.writeSense
  split
  · rfl
  · exact (State.writeBlock_shelves ..).trans (s.writeSb_shelves ..)

theorem State.flushNotes_shelves (s : State) (v : Trv) : (s.flushNotes v).1.shelves = s.shelves :=
  foldl_keeps (fun x : State × Trv => x.1.shelves) (by intro x _; exact x.1.writeRecord_shelves x.2 0x06 0) _ _

theorem State.reserve_shelves (s : State) (v : Trv) : (s.reserve v).shelves = s.shelves :=
  (State.wakeStacks_tells _ _).shelves

theorem State.reexamine_shelves (s : State) : s.reexamine.shelves = s.shelves :=
  foldl_keeps State.shelves (by
    intro s v
    split
    · exact s.reserve_shelves v
    · rfl) _ s

theorem State.satisfyOne_shelves (s : State) (w : Trv) (info : Nat) : (s.satisfyOne w info).1.shelves = s.shelves := by
  unfold State.satisfyOne
  dsimp only
  split <;> rfl

theorem State.satisfy_shelves (s : State) (p tag : Nat) (stations : Option (Nat × Nat)) (info : Nat) :
    (s.satisfy p tag stations info).1.shelves = s.shelves :=
  foldl_keeps (fun x : State × List (Nat × Nat × Ending) => x.1.shelves) 
    (by intro x w; exact x.1.satisfyOne_shelves w info) _ _

theorem State.issueRead_shelves (s : State) (p addr len : Nat) (why : ReadPurpose) :
    (s.issueRead p addr len why).shelves = s.shelves := by
  unfold State.issueRead
  dsimp only
  split <;> rfl

theorem State.confirm_shelves (s : State) (v : Trv) (c : Completion) : (s.confirm v c).shelves = s.shelves := by
  unfold State.confirm
  split
  · rfl
  · split
    · exact State.issueRead_shelves ..
    · rfl

end

/-! #### A shelf that opens -/

section
variable {s : State} {sh : Nat}

/-- The shelf itself as it opens (R229, R239). -/
def State.shelfOpened (s : State) (sh : Nat) : State :=
  (s.setShelf sh { s.shelf sh with
    basket := [], openedAt := s.devMs, maxOpenPassed := false, lingering := false, spinning := false,
    schedule := [], nextStep := 0, openPending := false, sesWait := [] }).enterShelf sh .opened 0x03 0

/-- The entries of its basket take their bookings, and their legs end (R204). -/
def State.wakeBasket (s : State) (sh : Nat) (l : List BasketEntry) : State :=
  l.foldl (fun (s : State) (b : BasketEntry) => s.withTrv b.port b.tag fun t =>
    s.legDone t { status := stOk, info := some 1 }) (l.foldl (fun (s : State) (b : BasketEntry) => s.wakeEntry sh b) s)

theorem State.openShelf_pending (h : (s.shelf sh).pgFiltered = false) :
    s.openShelf sh = s.setShelf sh { s.shelf sh with openPending := true } := by
  simp only [State.openShelf, h, Bool.not_false, if_true]

theorem State.openShelf_filtered (h : (s.shelf sh).pgFiltered = true) : s.openShelf sh =
    if (((s.shelfOpened sh).wakeBasket sh (s.shelf sh).basket).workChanged sh).agedWaits (chainOfShelf sh) then
      (((s.shelfOpened sh).wakeBasket sh (s.shelf sh).basket).workChanged sh).ageDrain (chainOfShelf sh)
    else ((s.shelfOpened sh).wakeBasket sh (s.shelf sh).basket).workChanged sh := by
  simp only [State.openShelf, h, Bool.not_true, Bool.false_eq_true, if_false, State.wakeBasket, State.shelfOpened]

end

/-! #### A shelf that closes

Of a shelf in CLOSING whose drives were told to stop, `closingAdvance` asks nothing more. A shelf past the last one has
no drives: it is in CLOSING only once it has nothing left to stop. -/

section
variable {s t : State} {sh : Nat}

/-- The drives of the shelf were told to stop, if it is in CLOSING. -/
def State.toldToStop (s : State) (sh : Nat) : Prop := (s.shelf sh).state = .closing → (s.shelf sh).stopSent = true

theorem State.toldToStop.congr (h : s.toldToStop sh) (k : t.shelves = s.shelves) : t.toldToStop sh := by
  simpa only [State.toldToStop, State.shelf_congr k] using h

theorem State.closingAdvance_told (h : s.toldToStop sh) : s.closingAdvance sh = s := by
  unfold State.closingAdvance
  refine if_neg ?_
  by_cases hstate : (s.shelf sh).state = .closing
  · simp [h hstate]
  · simp [hstate]

theorem Cmd.onShelf_past (hsh : 48 ≤ sh) (c : Cmd) : c.onShelf sh = false := by
  simp only [Cmd.onShelf, isDriveHandle, shelfOfHandle, Bool.and_eq_false_iff, decide_eq_false_iff_not, beq_eq_false_iff_ne]
  omega

theorem State.setShelf_toldToStop {i : Nat} {x : Shelf} (h : s.toldToStop sh)
    (hx : i = sh → x.state = .closing → x.stopSent = true) : (s.setShelf i x).toldToStop sh := by
  unfold State.toldToStop
  rw [State.setShelf_shelf]
  split
  · rename_i hi
    exact hx hi.symm
  · exact h

theorem State.enterShelf_toldToStop {i : Nat} {st : ShelfState} (h : s.toldToStop sh) (hst : st ≠ .closing)
    (ev detail : Nat) : (s.enterShelf i st ev detail).toldToStop sh :=
  State.toldToStop.congr (State.setShelf_toldToStop h fun _ hc => absurd hc hst) (State.outingEvent_tells ..).shelves

theorem State.closingAdvance_shelves (s : State) (i : Nat) : (s.closingAdvance i).shelves = s.shelves ∨
    (s.closingAdvance i).shelves =
      (s.setShelf i { s.shelf i with stopSent := true, stopping := (s.shelf i).readySlots }).shelves := by
  unfold State.closingAdvance
  dsimp only
  split
  · exact .inr (foldl_keeps State.shelves (by intro s j; rfl) _ _)
  · exact .inl rfl

theorem State.closingAdvance_keeps {i : Nat} (h : s.toldToStop sh) : (s.closingAdvance i).toldToStop sh := by
  rcases s.closingAdvance_shelves i with hsh | hsh
  · exact h.congr hsh
  · exact State.toldToStop.congr (State.setShelf_toldToStop h fun _ _ => rfl) hsh

/-- A shelf past the last one has no command outstanding to stop for. -/
theorem State.closingAdvance_past (hsh : 48 ≤ sh) (s : State) : (s.closingAdvance sh).toldToStop sh := by
  by_cases hs : s.toldToStop sh
  · rw [State.closingAdvance_told hs]; exact hs
  · have hnone : ((s.chain (chainOfShelf sh)).cmds.any fun c => c.onShelf sh) = false :=
      List.any_eq_false.mpr fun c _ => by simp [Cmd.onShelf_past hsh c]
    obtain ⟨hstate, hsent⟩ := Classical.not_imp.mp hs
    have hfold : (s.closingAdvance sh).shelves =
        (s.setShelf sh { s.shelf sh with stopSent := true, stopping := (s.shelf sh).readySlots }).shelves := by
      simp only [State.closingAdvance, hstate, Bool.eq_false_iff.mpr hsent, hnone, decide_true, Bool.not_false,
        Bool.and_self, if_true]
      exact foldl_keeps State.shelves (by intro s j; rfl) _ _
    intro _
    rw [State.shelf_congr hfold, State.setShelf_shelf_self]

variable (hsh : 48 ≤ sh)
include hsh

theorem State.enterClosing_toldToStop {i : Nat} (h : s.toldToStop sh) : (s.enterClosing i).toldToStop sh := by
  by_cases hi : i = sh
  · subst hi
    exact State.closingAdvance_past hsh _
  · refine State.closingAdvance_keeps (State.toldToStop.congr ?_ (State.outingEvent_tells ..).shelves)
    exact State.setShelf_toldToStop (State.toldToStop.congr (State.setShelf_toldToStop (i := i) h
      fun hc => absurd hc hi) rfl) fun hc => absurd hc hi

theorem State.workChanged_toldToStop {i : Nat} (h : s.toldToStop sh) : (s.workChanged i).toldToStop sh := by
  have hset : (s.shelf i).state = .opened → ∀ b, (s.setShelf i { s.shelf i with lingering := b }).toldToStop sh :=
    fun hopen b => State.setShelf_toldToStop h fun _ hc => by simp [hopen] at hc
  unfold State.workChanged
  dsimp only
  split
  · rename_i hopen
    split
    · split
      · exact State.enterClosing_toldToStop hsh h
      · exact hset hopen true
    · split
      · exact State.enterShelf_toldToStop (hset hopen false) (by decide) _ _
      · exact hset hopen false
  · split
    · exact State.enterClosing_toldToStop hsh h
    · exact h
  · exact h

theorem State.ageDrain_toldToStop {c : Nat} (h : s.toldToStop sh) : (s.ageDrain c).toldToStop sh := by
  unfold State.ageDrain
  split
  · split
    · refine State.workChanged_toldToStop hsh (State.enterShelf_toldToStop ?_ (by decide) _ _)
      rename_i i _ hopen
      exact State.setShelf_toldToStop h fun _ hc => by simp [hopen] at hc
    · exact h
  · exact h

omit hsh in
theorem State.leaveBasket_toldToStop (h : s.toldToStop sh) (v : Trv) : (s.leaveBasket v).toldToStop sh := by
  unfold State.leaveBasket
  split
  · rename_i i _
    exact State.setShelf_toldToStop h fun hi hc => by subst hi; exact h hc
  · exact h

theorem State.unbook_toldToStop (h : s.toldToStop sh) (v : Trv) : (s.unbook v).1.toldToStop sh :=
  List.foldlRecOn (motive := fun s : State => s.toldToStop sh) _ _ (h.congr rfl) fun _ hs _ _ =>
    State.workChanged_toldToStop hsh hs

omit hsh in
/-- After its bookings are given up, the end of a traverse leaves the shelves as they are. -/
theorem State.endOne_shelves (s : State) (v : Trv) (e : Ending) :
    (s.endOne v e).1.shelves = ((s.leaveBasket v).unbook v).1.shelves := by
  unfold State.endOne
  dsimp only
  generalize (s.leaveBasket v).unbook v = b
  split
  · exact (State.writeBlock_shelves ..).trans ((State.flushNotes_shelves ..).trans
      ((State.reexamine_shelves _).trans (State.satisfy_shelves ..)))
  · exact (State.confirm_shelves ..).trans ((State.writeBlock_shelves ..).trans ((State.flushNotes_shelves ..).trans
      ((State.reexamine_shelves _).trans (State.satisfy_shelves ..))))

theorem State.endOne_toldToStop (h : s.toldToStop sh) (v : Trv) (e : Ending) : (s.endOne v e).1.toldToStop sh :=
  (State.unbook_toldToStop hsh (State.leaveBasket_toldToStop h v) v).congr (s.endOne_shelves v e)

theorem State.endTrvs_toldToStop (n : Nat) (l : List (Nat × Nat × Ending)) (h : s.toldToStop sh) :
    (State.endTrvs n l s).toldToStop sh := by
  induction n generalizing l s with
  | zero => exact h
  | succ n ih =>
    cases l with
    | nil => exact h
    | cons x rest =>
      obtain ⟨p, tag, e⟩ := x
      unfold State.endTrvs
      split
      · exact ih rest h
      · split
        · exact ih rest h
        · exact ih _ (State.endOne_toldToStop hsh h _ e)

theorem State.legDone_toldToStop (h : s.toldToStop sh) (v : Trv) (r : LegResult) : (s.legDone v r).toldToStop sh := by
  have hsense := h.congr (s.writeSense_shelves (v.afterLeg r).1 r.sense)
  unfold State.legDone
  dsimp only
  split
  · exact hsense.congr rfl
  · exact State.endTrvs_toldToStop hsh _ _ (hsense.congr rfl)

omit hsh in
theorem State.wakeEntry_shelves (s : State) (i : Nat) (b : BasketEntry) : (s.wakeEntry i b).shelves = s.shelves := by
  unfold State.wakeEntry State.withTrv
  split
  · exact State.writeRecord_shelves ..
  · rfl

theorem State.wakeBasket_toldToStop (h : s.toldToStop sh) (l : List BasketEntry) :
    (s.wakeBasket sh l).toldToStop sh := by
  have hwake := h.congr (foldl_keeps State.shelves (fun s b => s.wakeEntry_shelves sh b) l s)
  refine List.foldlRecOn (motive := fun s : State => s.toldToStop sh) _ _ hwake fun s hs b _ => ?_
  unfold State.withTrv
  split
  · exact State.legDone_toldToStop hsh hs _ _
  · exact hs

theorem State.openShelf_toldToStop (h : s.toldToStop sh) : (s.openShelf sh).toldToStop sh := by
  cases hpg : (s.shelf sh).pgFiltered with
  | false =>
    rw [State.openShelf_pending hpg]
    exact State.setShelf_toldToStop h fun _ => h
  | true =>
    have hopened : (s.shelfOpened sh).toldToStop sh := fun hc => by
      rw [State.shelfOpened, State.enterShelf_shelf_self] at hc
      cases hc
    have hwork := State.workChanged_toldToStop hsh (i := sh)
      (State.wakeBasket_toldToStop hsh hopened (s.shelf sh).basket)
    rw [State.openShelf_filtered hpg]
    split
    · exact State.ageDrain_toldToStop hsh hwork
    · exact hwork

end

/-! #### The answer that opens a shelf -/

/-- `t` differs from `s` in nothing but the data and commands of wide ports and buffer memory. -/
def State.OnlyData (s t : State) : Prop :=
  ∃ chains mem parked poison flaws,
    t = { s with chains := chains, mem := mem, parked := parked, poison := poison, flaws := flaws }

section
variable {s t : State}

theorem State.OnlyData.refl (s : State) : s.OnlyData s := ⟨_, _, _, _, _, rfl⟩

theorem State.OnlyData.trans {u : State} (h : s.OnlyData t) (k : t.OnlyData u) : s.OnlyData u := by
  obtain ⟨_, _, _, _, _, rfl⟩ := h
  obtain ⟨_, _, _, _, _, rfl⟩ := k
  exact ⟨_, _, _, _, _, rfl⟩

theorem State.OnlyData.foldl {α : Type} {f : State → α → State} (h : ∀ s a, State.OnlyData s (f s a)) (l : List α)
    (s : State) : s.OnlyData (l.foldl f s) := by
  induction l generalizing s with
  | nil => exact .refl s
  | cons a l ih => exact (h s a).trans (ih _)

theorem State.OnlyData.shelves (h : s.OnlyData t) : t.shelves = s.shelves := by obtain ⟨_, _, _, _, _, rfl⟩ := h; rfl
theorem State.OnlyData.trvs (h : s.OnlyData t) : t.trvs = s.trvs := by obtain ⟨_, _, _, _, _, rfl⟩ := h; rfl

theorem State.writePhys_data (s : State) (addr : Nat) (bs : List Byte) (p : Bool) :
    s.OnlyData (s.writePhys addr bs p) := by
  have hunpark : ∀ (s : State) (b : Nat), s.OnlyData (s.unpark b) := fun s b => by
    unfold State.unpark
    split
    · exact .refl s
    · exact ⟨_, _, _, _, _, rfl⟩
  exact (State.OnlyData.foldl hunpark _ s).trans ⟨_, _, _, _, _, rfl⟩

theorem State.placeBytes_data (s : State) (segs : List Segment) (off : Nat) (bs : List Byte) (poison : Bool) :
    s.OnlyData (s.placeBytes segs off bs poison) :=
  .foldl (fun s a => by
    obtain ⟨a, lo, n⟩ := a
    cases a with
    | none => exact .refl s
    | some pos => exact ⟨_, _, _, _, _, rfl⟩) _ s

theorem State.landFrames_data (s : State) (c : Nat) (x : Cmd) (keep : Bool) : s.OnlyData (s.landFrames c x keep) := by
  have hplace : ∀ (l : List RxFrame), s.OnlyData (if keep then l.foldl (fun (s : State) f =>
      s.placeBytes x.segments f.offset f.bytes false) s else s) := fun l => by
    split
    · exact .foldl (fun s f => s.placeBytes_data ..) l s
    · exact .refl s
  unfold State.landFrames
  split
  · exact .refl s
  · dsimp only
    split
    · exact (hplace _).trans ⟨_, _, _, _, _, rfl⟩
    · exact hplace _

theorem State.flushOver_data (s : State) (x : Cmd) : s.OnlyData (s.flushOver x) := by
  unfold State.flushOver
  split
  · split
    · exact .refl s
    · exact State.writePhys_data ..
  · exact .refl s

end

section
variable {s : State} {sh slot : Nat}

theorem isDriveHandle_driveHandle (hslot : slot < 96) : isDriveHandle (driveHandle sh slot) = decide (sh < 48) := by
  have hoffset : driveHandle sh slot % 512 < 384 := by
    rw [driveHandle, Nat.add_assoc, Nat.mul_add_mod, Nat.mod_eq_of_lt] <;> omega
  have hchain : driveHandle sh slot < 6144 ↔ sh < 48 := by simp only [driveHandle]; omega
  simp only [isDriveHandle, hoffset, hchain, decide_true, Bool.and_true]

theorem shelfOfHandle_driveHandle (hslot : slot < 96) : shelfOfHandle (driveHandle sh slot) = sh := by
  simp only [shelfOfHandle, driveHandle]
  omega

/-- A shelf with one more slot ready. -/
def Shelf.withReady (x : Shelf) (slot : Nat) : Shelf := { x with readySlots := x.readySlots ++ [slot] }

/-- The last slot that is not ready completes the spin-up (R239). -/
theorem State.slotReady_last (hstate : (s.shelf sh).state = .spinning) (hspin : (s.shelf sh).spinning = true)
    (hnew : slot ∉ (s.shelf sh).readySlots)
    (hrest : ∀ j ∈ (s.shelf sh).scheduled, j ∈ (s.shelf sh).readySlots ∨ j = slot) :
    s.slotReady sh slot = (s.setShelf sh ((s.shelf sh).withReady slot)).openShelf sh := by
  have hall : (((s.shelf sh).withReady slot).scheduled.all fun j => j ∈ ((s.shelf sh).withReady slot).readySlots) =
      true :=
    List.all_eq_true.mpr fun j hj => decide_eq_true (by simpa [Shelf.withReady] using hrest j hj)
  have hcond : (((s.shelf sh).withReady slot).state = .spinning && ((s.shelf sh).withReady slot).spinning &&
      ((s.shelf sh).withReady slot).scheduled.all fun j => j ∈ ((s.shelf sh).withReady slot).readySlots) = true := by
    rw [hall]
    simp [Shelf.withReady, hstate, hspin]
  simp only [State.slotReady, hnew, if_false]
  exact if_pos hcond

/-- A GOOD answer to a poll of a spin-up tells the shelf that its slot is ready (R239). -/
theorem State.deliverEnd_poll {u : State} {y : Cmd} (hown : y.owner = .spinUp sh slot true) (horphan : y.orphan = false)
    {e : LegEnd} (he : e.status = stOk) (b : Bool) : u.deliverEnd y e b = u.slotReady sh slot := by
  simp [State.deliverEnd, hown, horphan, he]

/-- The end of the poll that finds the last slot ready opens its shelf (R239); a shelf past the last one has no drives
whose end would let it close. -/
theorem State.endCmd_opens {y : Cmd} {e : LegEnd} (hslot : slot < 96) (hy : y.handle = driveHandle sh slot)
    (hown : y.owner = .spinUp sh slot true) (horphan : y.orphan = false) (he : (y.ending e false).1.status = stOk)
    (hstate : (s.shelf sh).state = .spinning) (hspin : (s.shelf sh).spinning = true)
    (hnew : slot ∉ (s.shelf sh).readySlots)
    (hrest : ∀ j ∈ (s.shelf sh).scheduled, j ∈ (s.shelf sh).readySlots ∨ j = slot) (c : Nat) :
    ∃ u, s.OnlyData u ∧ s.endCmd c y e false =
      ((u.setShelf sh ((s.shelf sh).withReady slot)).openShelf sh).closingAdvance sh := by
  have hdata : s.OnlyData (((s.landFrames c y (!y.orphan)).dropCmd c y.id).flushOver y) :=
    ((s.landFrames_data ..).trans ⟨_, _, _, _, _, rfl⟩).trans (State.flushOver_data ..)
  refine ⟨_, hdata, ?_⟩
  have hshelf := State.shelf_congr hdata.shelves sh
  simp only [State.endCmd, State.deliverEnd_poll hown horphan he, hy, isDriveHandle_driveHandle hslot,
    shelfOfHandle_driveHandle hslot]
  rw [State.slotReady_last (by rw [hshelf]; exact hstate) (by rw [hshelf]; exact hspin) (by rw [hshelf]; exact hnew)
    (by rw [hshelf]; exact hrest), hshelf]
  by_cases hsh : sh < 48
  · simp only [hsh, decide_true, if_true]
  · simp only [hsh, decide_false, Bool.false_eq_true, if_false]
    refine (State.closingAdvance_told (State.openShelf_toldToStop (by omega) fun hc => ?_)).symm
    rw [State.setShelf_shelf_self] at hc
    cases hstate.symm.trans hc

end

/-! #### A shelf that opens without work -/

section
variable {s t : State} {sh : Nat}

theorem State.OnlyTells.chains (h : s.OnlyTells t) : t.chains = s.chains := by
  obtain ⟨_, _, _, _, _, _, _, _, rfl⟩ := h; rfl
theorem State.OnlyTells.manage (h : s.OnlyTells t) : t.manage = s.manage := by
  obtain ⟨_, _, _, _, _, _, _, _, rfl⟩ := h; rfl
theorem State.OnlyTells.devMs (h : s.OnlyTells t) : t.devMs = s.devMs := by
  obtain ⟨_, _, _, _, _, _, _, _, rfl⟩ := h; rfl

theorem State.eligible_congr {i : Nat} (hshelf : t.shelf i = s.shelf i) (hchains : t.chains = s.chains)
    (hmanage : t.manage = s.manage) (hms : t.devMs = s.devMs) : t.eligible i = s.eligible i ∧ t.aged i = s.aged i := by
  have hpopulated : t.populated i = s.populated i := by
    unfold State.populated State.chain
    rw [hchains]
  have hchoice : t.choiceOf i = s.choiceOf i := by
    unfold State.choiceOf
    rw [hmanage]
  have hwindow : t.windowOpen i = s.windowOpen i := by
    unfold State.windowOpen State.dayMs
    rw [hshelf, hchoice, hms]
  have haged : t.aged i = s.aged i := by
    unfold State.aged
    rw [hshelf, hchoice, hms]
  refine ⟨?_, haged⟩
  unfold State.eligible
  rw [hshelf, hpopulated, hwindow, haged]

/-- A shelf that is not dark is not among those that wait for an outing. -/
theorem State.agedWaits_other {c : Nat} (hdark : (t.shelf sh).state ≠ .dark) (hshelf : ∀ i, i ≠ sh → t.shelf i = s.shelf i)
    (hchains : t.chains = s.chains) (hmanage : t.manage = s.manage) (hms : t.devMs = s.devMs)
    (h : s.agedWaits c = false) : t.agedWaits c = false := by
  unfold State.agedWaits at h ⊢
  rw [List.any_eq_false] at h ⊢
  intro i hi
  by_cases hsh : 4 * c + i = sh
  · simp [hsh, State.eligible, hdark]
  · obtain ⟨he, ha⟩ := State.eligible_congr (hshelf _ hsh) hchains hmanage hms
    rw [he, ha]
    exact h i hi

/-- The opening of the shelf tells of itself and changes that shelf alone. -/
theorem State.shelfOpened_tells (s : State) (sh : Nat) :
    ∃ x y, ((s.setShelf sh x).setShelf sh y).OnlyTells (s.shelfOpened sh) :=
  ⟨_, _, State.outingEvent_tells ..⟩

theorem State.shelfOpened_other {i : Nat} (h : i ≠ sh) : (s.shelfOpened sh).shelf i = s.shelf i := by
  obtain ⟨x, y, htells⟩ := s.shelfOpened_tells sh
  rw [State.shelf_congr htells.shelves, State.setShelf_shelf_other _ _ _ _ h, State.setShelf_shelf_other _ _ _ _ h]

theorem State.shelfOpened_self : ((s.shelfOpened sh).shelf sh).state = .opened ∧
    ((s.shelfOpened sh).shelf sh).openedAt = s.devMs := by
  rw [State.shelfOpened, State.enterShelf_shelf_self, State.setShelf_shelf_self]
  exact ⟨rfl, rfl⟩

/-- A shelf that opens without work lingers (R230). -/
theorem State.openShelf_lingers (hpg : (s.shelf sh).pgFiltered = true) (hbasket : (s.shelf sh).basket = [])
    (hwork : s.work sh = 0) (hlinger : s.manage.outing.lingerS ≠ 0) (haged : s.agedWaits (chainOfShelf sh) = false) :
    s.openShelf sh = (s.shelfOpened sh).setShelf sh { (s.shelfOpened sh).shelf sh with lingering := true } := by
  obtain ⟨x, y, htells⟩ := s.shelfOpened_tells sh
  obtain ⟨hstate, -⟩ := s.shelfOpened_self (sh := sh)
  have hopened : (s.shelfOpened sh).workChanged sh =
      (s.shelfOpened sh).setShelf sh { (s.shelfOpened sh).shelf sh with lingering := true } := by
    have hw : (s.shelfOpened sh).work sh = 0 := by
      rw [State.work, htells.trvs]
      exact hwork
    have hl : (s.shelfOpened sh).manage.outing.lingerS ≠ 0 := by
      rw [htells.manage]
      exact hlinger
    simp only [State.workChanged, hstate, hw, hl, if_true, if_false]
  rw [State.openShelf_filtered hpg, hbasket, State.wakeBasket, List.foldl_nil, List.foldl_nil, hopened]
  refine if_neg (Bool.eq_false_iff.mp (State.agedWaits_other (sh := sh) ?_ (fun i hi => ?_) ?_ ?_ ?_ haged))
  · rw [State.setShelf_shelf_self]
    simp [hstate]
  · rw [State.setShelf_shelf_other _ _ _ _ hi, State.shelfOpened_other hi]
  · exact htells.chains
  · exact htells.manage
  · exact htells.devMs

end

/-- Settles O27: the schedule by induction on its slots, the answer that opens the shelf by the end of its command, the
SPIN legs by their commands' rules. -/
theorem spinUpRuns : Obligations.SpinUpRuns := by
  refine ⟨fun _ _ => execSlotDiscoveryComplete_starts, ?starts, fun _ _ => execSpinUpStartTimeout_starts, ?basic,
    ?step, fun _ _ _ => execTestUnitReadyPoll_polls, ?opens, fun _ _ => execSpinUpTimeout_opens, ?lingers,
    fun _ _ _ _ _ => execSpinStartTimeout_notReady, fun _ _ _ _ => execLegSpin_none, ?start,
    fun _ _ _ _ _ h hstop hsel => execLegSpin_stop h hstop hsel, fun _ _ _ => State.spinSettle_last⟩
  case starts =>
    intro s sh hstate hspin hall hslots hs hg
    refine ⟨_, (execSlotDiscoveryComplete_starts hstate hspin hall).trans
      (congrArg _ (State.startSpinUp_basic hs hg hslots)), ?_⟩
    rw [State.setShelf_shelf_self, Shelf.plan_basic hs]
    exact ⟨rfl, hstate, rfl, basicSteps_slots hg le_rfl, rfl, rfl⟩
  case basic =>
    intro s sh slots hs hg hslots
    rw [State.startSpinUp_basic hs hg hslots, State.setShelf_shelf_self, Shelf.plan_basic hs]
    exact ⟨basicSteps_slots hg le_rfl, basicSteps_step, rfl⟩
  case step =>
    intro s sh j st hst hstate hspin howner hmethod hslots
    refine ⟨_, execSpinUpStep_one hst hstate hspin howner hmethod hslots, ?_, ?_, rfl, ?_⟩
    · exact congrArg Shelf.nextStep (State.setShelf_shelf_self ..)
    · exact congrArg Shelf.started (State.setShelf_shelf_self ..)
    · rw [State.handOver_chain]
      rfl
  case opens =>
    intro s sh slot tag x info hslot hx hhandle hown hsent horphan hanswer hwhy hover hlen hland hstate hspin hnew hrest
    have hretry : s.mayRetry x 0 = false := by simp [State.mayRetry]
    have hgood : (({ x with answer := some (0, info), timing := false } : Cmd).ending x.aborted false).1.status = stOk := by
      rw [Cmd.ending_answered (x := { x with answer := some (0, info), timing := false }) rfl hwhy,
        Cmd.byStatus_good (x := { x with answer := some (0, info), timing := false }) hwhy]
      simp [hover, Nat.not_lt.mpr hlen, Cmd.ends]
    obtain ⟨u, hdata, hend⟩ := State.endCmd_opens (y := { x with answer := some (0, info), timing := false }) hslot hhandle
      hown horphan hgood hstate hspin hnew hrest (chainOfHandle (driveHandle sh slot))
    refine ⟨u.setShelf sh ((s.shelf sh).withReady slot), ?_, ?_, hdata.trvs, fun i hi => ?_⟩
    · rw [execSspResponseFrame_answers hx hsent hanswer hretry, if_pos hland, hend, hhandle]
    · rw [State.setShelf_shelf_self, Shelf.withReady]
    · rw [State.setShelf_shelf_other _ _ _ _ hi, State.shelf_congr hdata.shelves]
  case lingers =>
    intro s sh hpg hbasket hwork hlinger haged
    obtain ⟨x, y, htells⟩ := s.shelfOpened_tells sh
    obtain ⟨hstate, hat⟩ := s.shelfOpened_self (sh := sh)
    rw [State.openShelf_lingers hpg hbasket hwork hlinger haged, State.setShelf_shelf_self]
    exact ⟨hstate, hat, rfl, htells.mem⟩
  case start =>
    intro s p tag v h hstart hsel
    obtain ⟨hport, htag⟩ := State.trv?_names h.found
    refine ⟨_, _, execLegSpin_start h hstart rfl hsel, State.putTrv_trv? h.found hport htag, rfl, rfl, rfl, ?_⟩
    rw [State.modShelf_eq, State.setShelf_shelf_self]
    rfl

end Sys2Proof.Machine


/-! PROOFS. Recipes: launched, prepared, started and ended. -/

namespace Sys2Proof.Machine

variable {s : State} {e p tag : Nat} {v : Trv} {l : Launch} {rest : List Launch} {pr : Prepared}

/-! ### Launches and their preparation -/

theorem execLegRecipe_enqueues (h : AtLeg s p tag 0x23 v) : exec (.legRecipe p tag) s =
    .next (((s.putTrv { v with stage := .awaiting }).modEngine v.party fun x =>
      { x with queue := x.queue ++ [{ port := p, tag, recipe := some (fieldAt v.leg 16 2), key := fieldAt v.leg 18 2
                                      addr := bufPos (legAddr v.leg), len := legLen v.leg }] }).placeLaunches v.party) := by
  simp only [exec_legRecipe, execLegRecipe, State.perform_atLeg h, State.enqueue]

theorem execLegVerify_enqueues (h : AtLeg s p tag 0x25 v) : exec (.legVerify p tag) s =
    .next (((s.putTrv { v with stage := .awaiting }).modEngine v.party fun x =>
      { x with queue := x.queue ++ [{ port := p, tag, recipe := none, key := 0xFFFF, addr := bufPos (legAddr v.leg)
                                      len := legLen v.leg, ref := bufPos (legOperand v.leg)
                                      mode := legByte v.leg 24 }] }).placeLaunches v.party) := by
  simp only [exec_legVerify, execLegVerify, State.perform_atLeg h, State.enqueue]

section
variable (hprepared : (s.engine e).prepared = none) (hqueue : (s.engine e).queue = l :: rest)
  (hv : s.trv? l.port l.tag = some v)
include hprepared hqueue hv

theorem execPreparationDone_ok (hok : (s.met (s.prepBeat v l)).prepare e v l = .ok pr) :
    exec (.preparationDone e) s =
      .next ((s.met (s.prepBeat v l)).setEngine e { s.engine e with prepared := some pr }) := by
  simp only [exec_preparationDone, execPreparationDone, hprepared, hqueue, State.withTrv_found hv, hok]

theorem execPreparationDone_fault {code : Nat} (hfault : (s.met (s.prepBeat v l)).prepare e v l = .error (.fault code)) :
    exec (.preparationDone e) s =
      .next ((((s.met (s.prepBeat v l)).setEngine e { s.engine e with queue := rest }).placeLaunches e).launchEnds l
        (faultResult l 0xFFFF 0 0 code)) := by
  simp only [exec_preparationDone, execPreparationDone, hprepared, hqueue, State.withTrv_found hv, hfault]

end

/-! ### The start on a frame boundary -/

/-- Off a frame boundary no recipe starts. -/
theorem execRecipeStart_offBoundary (hrow : (s.quarter (quarterOfParty e)).absRow % 256 ≠ 0) :
    exec (.recipeStart e) s = .next s := by
  simp only [exec_recipeStart, execRecipeStart]
  split
  next => rw [if_pos (by simp [hrow])]
  next => rfl

/-- The key of a prepared launch has been erased, or replaced, since its preparation. -/
def State.keyGone (s : State) (pr : Prepared) : Bool :=
  decide (pr.launch.key ≠ 0xFFFF) &&
    pr.key.any fun k => s.manage.keys.find (4096 * pr.launch.port + pr.launch.key) != some k

theorem State.keyGone_noKey (hkey : pr.launch.key = 0xFFFF) : s.keyGone pr = false := by
  simp only [State.keyGone, hkey, ne_eq, not_true_eq_false, decide_false, Bool.false_and]

theorem State.keyGone_key {k : BitVec 256} (hkey : pr.launch.key ≠ 0xFFFF) (hk : pr.key = some k) :
    s.keyGone pr = (s.manage.keys.find (4096 * pr.launch.port + pr.launch.key) != some k) := by
  simp only [State.keyGone, hkey, hk, ne_eq, not_false_eq_true, decide_true, Bool.true_and, Option.any_some]

section
variable {im : Image} (hidle : (s.engine e).running = none) (hprepared : (s.engine e).prepared = some pr)
  (hqueue : (s.engine e).queue = l :: rest) (hprofile : (s.engine e).profileNext = none)
  (hrow : (s.quarter (quarterOfParty e)).absRow % 256 = 0)
include hidle hprepared hqueue hprofile hrow

theorem execRecipeStart_rom (hrom : pr.launch.isStore = false) : exec (.recipeStart e) s =
    .next ((s.setEngine e { ({ s.engine e with queue := rest, prepared := none } : Engine).startRom pr
      (s.quarter (quarterOfParty e)).absRow with keyErased := s.keyGone pr }).placeLaunches e) := by
  simp only [exec_recipeStart, execRecipeStart, hidle, hprepared, hqueue, hprofile, hrow, hrom, Option.isSome_none,
    ne_eq, not_true_eq_false, decide_false, Bool.or_false, Bool.false_eq_true, if_false]
  rfl

theorem execRecipeStart_store (hstore : pr.launch.isStore = true)
    (hslot : (s.engine e).slots.find (pr.launch.recipe.getD 0 % 16) = some im) (him : im.profile = (s.engine e).profile) :
    exec (.recipeStart e) s = .next (((s.setEngine e
      { ({ s.engine e with queue := rest, prepared := none } : Engine).startStore pr im
        (s.quarter (quarterOfParty e)).absRow with keyErased := s.keyGone pr }).placeLaunches e).nextBundle e) := by
  simp only [exec_recipeStart, execRecipeStart, hidle, hprepared, hqueue, hprofile, hrow, hstore, hslot, him,
    Option.isSome_none, ne_eq, not_true_eq_false, decide_false, Bool.or_false, Bool.false_eq_true, if_false, if_true]
  rfl

theorem execRecipeStart_otherProfile (hstore : pr.launch.isStore = true)
    (hslot : (s.engine e).slots.find (pr.launch.recipe.getD 0 % 16) = some im) (him : im.profile ≠ (s.engine e).profile) :
    exec (.recipeStart e) s = .next (((s.setEngine e { s.engine e with queue := rest, prepared := none }).placeLaunches
      e).launchEnds pr.launch (faultResult pr.launch 0xFFFF 0 0 6)) := by
  simp only [exec_recipeStart, execRecipeStart, hidle, hprepared, hqueue, hprofile, hrow, hstore, hslot, him,
    Option.isSome_none, ne_eq, not_true_eq_false, not_false_eq_true, decide_false, Bool.or_false, Bool.false_eq_true,
    if_false, if_true]

end

/-! ### Landings and ends -/

theorem execHamperLoadLands_one {x : Land} (hlands : (s.engine e).lands = [x]) (hload : x.what.isLoad = true)
    (hcycle : x.cycle ≤ (s.engine e).cycle) : exec (.hamperLoadLands e) s = .next (s.landDue e x.cycle) := by
  simp [execHamperLoadLands, hlands, hload, hcycle]

section
variable {id : Nat} (hrunning : (s.engine e).running = some pr)
include hrunning

/-- A recipe that issues nothing more ends, with the fault that stopped it or OK, once everything has taken effect. -/
theorem State.finishRecipe_running : s.finishRecipe e =
    if s.staDone e then ((s.landAll e).engineIdle e).launchEnds pr.launch
      ((s.engine e).late.getD { status := stOk, info := some (s.engine e).res }) else s := by
  simp only [State.finishRecipe, hrunning]

theorem execRecipeEnd_verify (hverify : pr.launch.recipe = none) : exec (.recipeEnd e) s =
    .next (((s.met (verifyBeat pr.launch)).engineIdle e).launchEnds pr.launch (s.verifyResult pr.launch)) := by
  simp only [exec_recipeEnd, execRecipeEnd, hrunning, hverify]

theorem execRecipeEnd_ended (hid : pr.launch.recipe = some id) (hended : (s.engine e).ended = true) :
    exec (.recipeEnd e) s = .next (s.finishRecipe e) := by
  simp only [exec_recipeEnd, execRecipeEnd, hrunning, hid, hended, if_true]

/-- The RECIPE_END of a ROM recipe decides how it ends. -/
theorem execRecipeEnd_rom (hid : pr.launch.recipe = some id) (hrom : id < 0x8000) (hended : (s.engine e).ended = false) :
    exec (.recipeEnd e) s = .next (s.romEnds e id pr) := by
  simp only [exec_recipeEnd, execRecipeEnd, hrunning, hid, hended, Nat.not_le.mpr hrom, Bool.false_eq_true, if_false]

theorem execRunLimit_store (hid : pr.launch.recipe = some id) (hstore : 0x8000 ≤ id)
    (hended : (s.engine e).ended = false)
    (hlimit : (s.engine e).startRow + 2 ^ 30 ≤ (s.quarter (quarterOfParty e)).absRow) :
    exec (.runLimit e) s = .next (s.storeFault e 8) := by
  simp only [exec_runLimit, execRunLimit, hrunning, hid, hended, hstore, Nat.not_lt.mpr hlimit, decide_false,
    Bool.or_false, Bool.false_eq_true, if_false, if_true]

theorem execRunLimit_rom (hid : pr.launch.recipe = some id) (hrom : id < 0x8000) (hended : (s.engine e).ended = false)
    (hlimit : (s.engine e).startRow + 2 ^ 30 ≤ (s.quarter (quarterOfParty e)).absRow) :
    exec (.runLimit e) s = .next ((s.romPart e (s.romRun id pr).2).stopRecipe e
      (faultResult pr.launch 0xFFFE 0xFFFF 0xFFFF 8)) := by
  simp only [exec_runLimit, execRunLimit, hrunning, hid, hended, Nat.not_le.mpr hrom, Nat.not_lt.mpr hlimit, decide_false,
    Bool.or_false, Bool.false_eq_true, if_false]

/-- A store recipe that faults issues nothing more; it ends as soon as what it issued has taken effect. -/
theorem State.storeFault_running (code : Nat) : s.storeFault e code = (s.setEngine e { s.engine e with
    ended := true, bundle := []
    late := some (faultResult pr.launch (s.engine e).bundleAddr (s.engine e).loop0.lc (s.engine e).loop1.lc code)
    }).finishRecipe e := by
  simp only [State.storeFault, hrunning, State.stopRecipe, State.modEngine_eq]

end

/-- A ROM recipe that can meet no fault takes all its effects and ends OK. -/
theorem State.romEnds_ok {id res : Nat} {effects : List RomEffect} (hrun : s.romRun id pr = (res, effects))
    (hnone : s.romFaults id e pr (s.engine e).keyErased = []) (hsure : s.romFaults id e pr false = []) :
    s.romEnds e id pr = (effects.foldl (State.romEffect e)
      (({ s with fresh := s.fresh + 1 } : State).met (romBeat id pr.block pr.used))).stopRecipe e
        { status := stOk, info := some (BitVec.ofNat 64 res) } := by
  simp only [State.romEnds, hrun, hnone, hsure, List.getElem?_nil]

/-- A ROM recipe whose only possible fault is sure to come stops with it, a part of its effects taken. -/
theorem State.romEnds_fault {id code i j : Nat} (hone : s.romFaults id e pr (s.engine e).keyErased = [(code, i, j)])
    (hsure : s.romFaults id e pr false = [(code, i, j)]) :
    s.romEnds e id pr = ((({ s with fresh := s.fresh + 1 } : State).met (romBeat id pr.block pr.used)).romPart e
      (s.romRun id pr).2).stopRecipe e (faultResult pr.launch 0xFFFE i j code) := by
  simp only [State.romEnds, hone, hsure, List.length_cons, List.length_nil, Nat.zero_add, Nat.one_ne_zero, if_false,
    Nat.mod_one, List.getElem?_cons_zero]

/-- Settles O36: the command of each clause does what the clause says. -/
theorem recipesRunToTheirEnd : Obligations.RecipesRunToTheirEnd := by
  unfold Obligations.RecipesRunToTheirEnd
  refine ⟨?recipe, ?verify, ?prepared, ?faulted, ?startRom, ?startStore, ?offBoundary, ?otherProfile, ?lands, ?ends,
    ?stopped, ?verified, ?limit, ?result, ?keyed, ?romEnds, ?romFaults, ?romLimit⟩
  case recipe => exact fun s p tag v h => execLegRecipe_enqueues h
  case verify => exact fun s p tag v h => execLegVerify_enqueues h
  case prepared => exact fun s e l rest v pr hprepared hqueue hv hok => execPreparationDone_ok hprepared hqueue hv hok
  case faulted => exact fun s e code l rest v hprepared hqueue hv hf => execPreparationDone_fault hprepared hqueue hv hf
  case startRom =>
    intro s e l rest pr hidle hprepared hqueue hprofile hrom hkey hrow
    rw [execRecipeStart_rom hidle hprepared hqueue hprofile hrow hrom, State.keyGone_noKey hkey]
    rfl
  case startStore =>
    intro s e l rest pr im hidle hprepared hqueue hprofile hstore hkey hslot him hrow
    rw [execRecipeStart_store hidle hprepared hqueue hprofile hrow hstore hslot him, State.keyGone_noKey hkey]
    rfl
  case offBoundary => exact fun s e hrow => execRecipeStart_offBoundary hrow
  case otherProfile =>
    intro s e l rest pr im hidle hprepared hqueue hprofile hstore hslot him hrow
    exact execRecipeStart_otherProfile hidle hprepared hqueue hprofile hrow hstore hslot him
  case lands => exact fun s e l hlands hload hcycle => execHamperLoadLands_one hlands hload hcycle
  case ends =>
    intro s e id pr hrunning hid hstore hended hlate hdone
    rw [execRecipeEnd_ended hrunning hid hended, State.finishRecipe_running hrunning, if_pos hdone, hlate,
      Option.getD_none]
  case stopped =>
    intro s e id pr r hrunning hid hended hlate
    rw [execRecipeEnd_ended hrunning hid hended, State.finishRecipe_running hrunning, hlate, Option.getD_some]
  case verified => exact fun s e pr hrunning hverify => execRecipeEnd_verify hrunning hverify
  case limit =>
    intro s e id pr hrunning hid hstore hended hlimit
    refine ⟨_, ?_, State.setEngine_engine_self .., State.setEngine_trvs .., State.setEngine_mem ..⟩
    rw [execRunLimit_store hrunning hid hstore hended hlimit, State.storeFault_running hrunning]
  case result => exact fun l addr lc0 lc1 code => ⟨rfl, rfl⟩
  case keyed =>
    intro s e l rest pr k hidle hprepared hqueue hprofile hrom hkey hk hrow
    rw [execRecipeStart_rom hidle hprepared hqueue hprofile hrow hrom, State.keyGone_key hkey hk]
  case romEnds =>
    intro s e id res pr effects hrunning hid hrom hended hrun hnone hsure
    rw [execRecipeEnd_rom hrunning hid hrom hended, State.romEnds_ok hrun hnone hsure]
  case romFaults =>
    intro s e id code i j pr hrunning hid hrom hended hone hsure
    rw [execRecipeEnd_rom hrunning hid hrom hended, State.romEnds_fault hone hsure]
  case romLimit =>
    exact fun s e id pr hrunning hid hrom hended hlimit => execRunLimit_rom hrunning hid hrom hended hlimit

end Sys2Proof.Machine


/-! PROOFS. Contexts, interrupts and the EXEC leg; a delayed write that lands is no read of D-space. -/

namespace Sys2Proof.Machine

variable {s t u : State} {k c : Nat}

/-! ### Writes that land leave the parity hits as they are

PARITY is raised by a word an instruction has read (R452). SYNC lets every delayed write land, whatever port it is
for; none of them reads a D-space word, so SYNC raises no PARITY. -/

/-- No core has met a word of wrong parity, or forgotten one, between two states. -/
structure State.SameHits (s t : State) : Prop where
  hit : ∀ j, (t.core j).parityHit = (s.core j).parityHit

theorem State.SameHits.trans (h : s.SameHits t) (h' : t.SameHits u) : s.SameHits u :=
  ⟨fun j => (h'.hit j).trans (h.hit j)⟩

theorem State.SameHits.of_cores (h : t.cores = s.cores) : s.SameHits t :=
  ⟨fun j => by rw [State.core, State.core, h]⟩

theorem State.SameHits.refl (s : State) : s.SameHits s := .of_cores rfl

theorem State.SameHits.foldl {α : Type} {f : State → α → State} (h : ∀ s a, State.SameHits s (f s a)) (l : List α)
    (s : State) : s.SameHits (l.foldl f s) :=
  List.foldlRecOn (motive := s.SameHits) l f (.refl s) fun t ht a _ => ht.trans (h t a)

theorem State.setCore_sameHits {x : Core} (h : x.parityHit = (s.core k).parityHit) : s.SameHits (s.setCore k x) := by
  refine ⟨fun j => ?_⟩
  rw [State.setCore_core]
  split
  next hj => rw [hj, h]
  next => rfl

theorem State.modCore_sameHits {f : Core → Core} (h : ∀ x, (f x).parityHit = x.parityHit) :
    s.SameHits (s.modCore k f) := State.setCore_sameHits (h _)

theorem State.modCtx_sameHits (f : Ctx → Ctx) : s.SameHits (s.modCtx k c f) := State.modCore_sameHits fun _ => by rfl

theorem State.ctxRefused_sameHits : s.SameHits (s.ctxRefused k c) := State.modCtx_sameHits _

theorem Core.takeUp_parityHit (x : Core) (k : Nat) : (x.takeUp k).parityHit = x.parityHit := by
  unfold Core.takeUp
  split
  · rfl
  · split <;> rfl

theorem Core.resume_parityHit (x : Core) (k c : Nat) : (x.resume k c).parityHit = x.parityHit :=
  Core.takeUp_parityHit ..

theorem Core.writeDoorbell_parityHit (x : Core) (reg i : Nat) (v : Word) :
    (x.writeDoorbell reg i v).parityHit = x.parityHit := by
  unfold Core.writeDoorbell
  split <;> rfl

/-! #### The ports every core has -/

theorem State.writeIdata_sameHits (cycle : Nat) (v : Word) : s.SameHits (s.writeIdata k c cycle v) :=
  (State.modCore_sameHits fun _ => by rfl).trans (State.modCtx_sameHits _)

theorem State.wakeCtx_sameHits : s.SameHits (s.wakeCtx k c) := by
  unfold State.wakeCtx
  split
  · exact State.modCore_sameHits fun x => x.resume_parityHit k c
  · exact .refl s

theorem State.writeLocal_sameHits (port : Nat) (v : Word) : s.SameHits (s.writeLocal k c port v) := by
  unfold State.writeLocal
  dsimp only
  split
  case h_1 =>
    split
    · exact State.ctxRefused_sameHits
    · exact State.setCore_sameHits rfl
  case h_2 => exact State.setCore_sameHits (Core.takeUp_parityHit ..)
  case h_3 => exact State.setCore_sameHits (Core.takeUp_parityHit ..)
  case h_4 => exact State.setCore_sameHits rfl
  case h_5 => exact State.setCore_sameHits rfl
  case h_6 => exact State.wakeCtx_sameHits
  case h_7 => exact State.modCtx_sameHits _
  case h_8 => exact State.setCore_sameHits rfl
  case h_9 => exact State.setCore_sameHits rfl
  case h_10 => exact State.modCtx_sameHits _
  case h_11 => exact State.writeIdata_sameHits ..
  case h_12 => exact State.modCtx_sameHits _
  case h_13 => exact State.modCtx_sameHits _
  case h_14 => exact State.modCtx_sameHits _
  case h_15 =>
    split
    · split
      · exact State.setCore_sameHits rfl
      · exact State.ctxRefused_sameHits
    · split
      · split
        · exact State.ctxRefused_sameHits
        · split
          · exact State.setCore_sameHits rfl
          · exact State.ctxRefused_sameHits
      · exact .refl s

/-! #### Mailboxes -/

theorem State.portEvent_cores (s : State) (p bit : Nat) : (s.portEvent p bit).cores = s.cores := by
  obtain ⟨_, _, _, _, h⟩ := State.portEvent_eq s p bit
  rw [h]

theorem State.ringHost_sameHits (p bit : Nat) : s.SameHits (s.ringHost p bit) := by
  unfold State.ringHost
  dsimp only
  split
  · exact .of_cores (State.portEvent_cores ..)
  · exact .of_cores rfl

theorem State.ringCore_sameHits (reg bit : Nat) : s.SameHits (s.ringCore k reg bit) :=
  State.modCore_sameHits fun _ => by rfl

theorem State.mbRing_sameHits (i : Nat) : s.SameHits (s.mbRing i) := by
  unfold State.mbRing
  split
  · exact State.ringCore_sameHits ..
  split
  · exact State.ringHost_sameHits ..
  iterate 4
    split
    · exact State.ringCore_sameHits ..
  split
  · split
    · exact State.ringHost_sameHits ..
    · exact .refl s
  iterate 2
    split
    · exact State.ringCore_sameHits ..
  exact State.ringCore_sameHits ..

theorem State.mbPostLen_sameHits (i len : Nat) : s.SameHits (s.mbPostLen i len) := by
  unfold State.mbPostLen
  dsimp only
  split
  · exact .of_cores rfl
  · refine State.SameHits.trans ?_ (State.mbRing_sameHits i)
    exact .of_cores rfl

theorem State.mbRelease_sameHits (i : Nat) : s.SameHits (s.mbRelease i) := by
  have hset : ∀ b, s.SameHits (s.setMailbox i b) := fun _ => .of_cores rfl
  unfold State.mbRelease
  dsimp only
  split
  · exact .refl s
  · split
    · exact (hset _).trans (State.ringHost_sameHits ..)
    · split
      · split
        · exact (hset _).trans (State.ringHost_sameHits ..)
        · exact hset _
      · exact hset _

theorem State.ungate_sameHits : s.SameHits (s.ungate k) := by
  unfold State.ungate
  split
  · exact .foldl (fun _ _ => State.modCore_sameHits fun _ => by rfl) _ _
  · exact .refl s

theorem State.mbWord0_sameHits (i : Nat) (v : BitVec 32) : s.SameHits (s.mbWord0 (.core k c) i v) := by
  have hput : ∀ f, s.SameHits (s.modMailbox i f) := fun _ => .of_cores rfl
  unfold State.mbWord0
  dsimp only
  split
  · exact .refl s
  · split
    · split
      · exact ((hput _).trans (State.mbPostLen_sameHits ..)).trans State.ungate_sameHits
      · exact (hput _).trans (State.mbPostLen_sameHits ..)
    · exact hput _

theorem State.mbWriteWord_sameHits (i off : Nat) (v : Word) : s.SameHits (s.mbWriteWord k c i off v) := by
  unfold State.mbWriteWord
  split
  · exact State.mbWord0_sameHits ..
  · exact .of_cores rfl

theorem State.mbPost_sameHits (i : Nat) (v : Word) : s.SameHits (s.mbPost k c i v) := by
  unfold State.mbPost
  split
  · exact State.mbPostLen_sameHits ..
  · exact .refl s

theorem State.mbRel_sameHits (i : Nat) (v : Word) : s.SameHits (s.mbRel k c i v) := by
  unfold State.mbRel
  split
  · exact State.mbRelease_sameHits ..
  · exact .refl s

theorem State.mbWrite_sameHits (i off : Nat) (v : Word) : s.SameHits (s.mbWrite k c i off v) := by
  unfold State.mbWrite
  dsimp only
  split
  · split
    · exact State.mbWriteWord_sameHits ..
    · exact .refl s
  split
  · exact .of_cores rfl
  split
  · exact State.mbPost_sameHits ..
  split
  · exact State.mbRel_sameHits ..
  split
  · exact .of_cores rfl
  · exact .refl s

/-! #### Stakes, field books, the timetable, DMA -/

theorem State.writeStakePort_sameHits (i : Nat) (v : Word) : s.SameHits (s.writeStakePort k c i v) := by
  unfold State.writeStakePort
  split
  · split
    · exact State.modCtx_sameHits _
    · exact State.ctxRefused_sameHits
  · exact .of_cores rfl
  · exact .refl s

theorem State.setBook_cores (s : State) (n : Nat) (b : FieldBook) : (s.setBook n b).cores = s.cores := by
  unfold State.setBook
  split
  · rfl
  · split <;> rfl

theorem State.noticeLevel_sameHits : s.SameHits s.noticeLevel := by
  unfold State.noticeLevel
  split
  · exact State.modCore_sameHits fun _ => by rfl
  · exact .refl s

theorem State.writeFb_sameHits (port : Nat) (v : Word) : s.SameHits (s.writeFb c port v) := by
  unfold State.writeFb
  dsimp only
  split
  · split
    · exact State.ctxRefused_sameHits
    · exact State.modCtx_sameHits _
  · exact .of_cores (State.setBook_cores ..)
  · exact .of_cores (State.setBook_cores ..)
  · unfold State.clearBook
    split
    · exact .refl s
    · dsimp only
      rw [if_pos rfl]
      exact (State.SameHits.of_cores (State.setBook_cores ..)).trans State.noticeLevel_sameHits
  · exact .refl s

theorem State.tableLevel_sameHits : s.SameHits s.tableLevel := by
  unfold State.tableLevel
  split
  · exact State.modCore_sameHits fun _ => by rfl
  · exact .refl s

theorem State.writeTt_sameHits (q i : Nat) (v : Word) : s.SameHits (s.writeTt q i v) := by
  unfold State.writeTt
  dsimp only
  split
  case h_6 =>
    simp only [execTtShadowDataWrite, nextOf]
    split <;> exact .of_cores rfl
  case h_7 => split <;> exact .of_cores rfl
  case h_8 =>
    refine State.SameHits.trans ?_ State.tableLevel_sameHits
    exact .of_cores rfl
  all_goals exact .of_cores rfl

theorem State.dmaLevel_sameHits : s.SameHits (s.dmaLevel k) := by
  unfold State.dmaLevel
  extract_lets mine
  split
  · exact .refl s
  · exact State.modCore_sameHits fun _ => by rfl

theorem State.trigger_cores (s : State) (ch : Nat) : (s.trigger ch).cores = s.cores := by
  unfold State.trigger
  dsimp only
  repeat' split
  all_goals rfl

theorem State.writeDma_sameHits (ch i : Nat) (v : Word) : s.SameHits (s.writeDma ch i v) := by
  unfold State.writeDma
  dsimp only
  split
  · simp only [execDmaCtlWrite, nextOf]
    repeat' split
    all_goals exact .of_cores rfl
  · refine State.SameHits.trans ?_ (.foldl (fun t k => State.dmaLevel_sameHits) _ _)
    exact .of_cores rfl
  · simp only [execDmaGoWrite, nextOf]
    split
    · exact .of_cores (State.trigger_cores ..)
    · exact .refl s
  · split <;> exact .of_cores rfl
  · repeat' split
    all_goals exact .of_cores rfl

theorem State.writeTimer_sameHits (n i : Nat) (v : Word) : s.SameHits (s.writeTimer n i v) := by
  unfold State.writeTimer
  dsimp only
  split
  · simp only [execDmaTimerCtlWrite, nextOf]
    split <;> exact .of_cores rfl
  all_goals exact .of_cores rfl

/-! #### The maps -/

theorem State.writeEngine_sameHits (port : Nat) (v : Word) : s.SameHits (s.writeEngine k c port v) := by
  unfold State.writeEngine
  split
  · exact State.writeLocal_sameHits ..
  split
  · split
    · exact State.mbWrite_sameHits ..
    · exact .refl s
  split
  · exact State.modCore_sameHits fun x => x.writeDoorbell_parityHit ..
  split
  · exact State.writeStakePort_sameHits ..
  split
  · exact State.writeDma_sameHits ..
  · exact .refl s

theorem State.writeSystem_sameHits (port : Nat) (v : Word) : s.SameHits (s.writeSystem c port v) := by
  unfold State.writeSystem
  dsimp only
  split
  · exact State.writeLocal_sameHits ..
  split
  · split
    · exact State.modCtx_sameHits _
    · exact .of_cores rfl
  split
  · exact State.modCore_sameHits fun x => x.writeDoorbell_parityHit ..
  split
  · exact State.mbWrite_sameHits ..
  split
  · exact State.writeFb_sameHits ..
  split
  · exact State.writeStakePort_sameHits ..
  split
  · exact State.modCore_sameHits fun x => x.writeDoorbell_parityHit ..
  split
  · exact State.writeTt_sameHits ..
  split
  · exact State.writeDma_sameHits ..
  split
  · exact State.writeTimer_sameHits ..
  · exact .refl s

theorem State.ioWrite_sameHits (port : Nat) (v : Word) : s.SameHits (s.ioWrite k c port v) := by
  unfold State.ioWrite
  split
  · exact State.modCore_sameHits fun _ => by rfl
  split
  · exact State.writeEngine_sameHits ..
  split
  · exact State.writeSystem_sameHits ..
  split
  · exact State.writeLocal_sameHits ..
  · exact .refl s

theorem State.land_sameHits (d : Delayed) : s.SameHits (s.land k d) := by
  unfold State.land
  split
  · exact State.modCore_sameHits fun _ => by rfl
  · split
    · exact .refl s
    · exact State.modCore_sameHits fun _ => by rfl
  · exact State.modCtx_sameHits _
  · exact State.modCtx_sameHits _
  · exact State.modCtx_sameHits _
  · split
    · exact State.writeIdata_sameHits ..
    · exact State.ioWrite_sameHits ..

theorem State.landWrites_sameHits (now : Nat → Bool) : s.SameHits (s.landWrites k now) := by
  unfold State.landWrites
  refine State.SameHits.trans ?_ (.foldl (fun t d => State.land_sameHits d) _ _)
  exact State.setCore_sameHits rfl

theorem State.settleAll_sameHits (s : State) (k : Nat) : s.SameHits (s.settleAll k) :=
  (State.landWrites_sameHits _).trans (State.landWrites_sameHits _)

/-! ### Instructions of the contexts -/

/-- An instruction that issues and leaves its core's parity hits alone goes on as its effect says. -/
theorem Issues.attempt_ok {fm : Form} {x : Core} (h : Issues s k fm x) {f : State → Try Effect} {a : After}
    (hf : f (s.settle k) = .ok { st := t, after := a }) (hhits : (s.settle k).SameHits t) :
    s.attempt k fm f = t.afterEffect k x.cur fm.len fm.cost x.cycle (!x.here.s) a := by
  obtain ⟨-, -, -, hx, -, -, -, hparity⟩ := id h
  have hcore : fm.parity x (t.core k) = fm.parity x x := by
    simp only [Form.parity, hhits.hit k, hx]
  rw [h.attempt, hf]
  simp only [hcore, hparity]

theorem execSSwap_issues {x : Core} (h : Issues s k { cost := 4, privileged := true, repeatable := false } x) :
    exec (.sSwap k) s = .next ((s.settle k).afterEffect k x.cur 2 4 x.cycle (!x.here.s) .swap) := by
  rw [exec_sSwap, execSSwap, h.attempt_ok rfl (.refl _)]

theorem execSIdle_issues {x : Core} (h : Issues s k { cost := 4, privileged := true } x) :
    exec (.sIdle k) s = .next ((s.settle k).afterEffect k x.cur 2 4 x.cycle (!x.here.s) (.sleep .idle)) := by
  rw [exec_sIdle, execSIdle, h.attempt_ok rfl (.refl _)]

theorem execSSync_issues {x : Core} (h : Issues s k { cost := 4 } x) :
    exec (.sSync k) s = .next (((s.settle k).settleAll k).afterEffect k x.cur 2 4 x.cycle (!x.here.s) .go) := by
  rw [exec_sSync, execSSync, h.attempt_ok rfl (State.settleAll_sameHits _ k)]

theorem Core.nextCtx_some {x : Core} (h : x.nextCtx k = some c) :
    c ≠ x.cur ∧ c < coreContexts k ∧ x.runnable c = true := by
  have hmem := List.mem_of_find?_eq_some h
  obtain ⟨hrange, hother⟩ := List.mem_filter.mp hmem
  obtain ⟨i, hi, rfl⟩ := List.mem_map.mp hrange
  refine ⟨of_decide_eq_true hother, Nat.mod_lt _ ?_, List.find?_some h⟩
  exact Nat.zero_lt_of_lt (List.mem_range.mp hi)

/-- Every context comes up when the numbers are gone round once from the running one. -/
theorem mem_roundRobin {n cur : Nat} (hc : c < n) : c ∈ (List.range n).map fun i => (cur + 1 + i) % n := by
  have hlt : (cur + 1) % n < n := Nat.mod_lt _ (by omega)
  refine List.mem_map.mpr ⟨(c + (n - (cur + 1) % n)) % n, List.mem_range.mpr (Nat.mod_lt _ (by omega)), ?_⟩
  calc (cur + 1 + (c + (n - (cur + 1) % n)) % n) % n
      = ((cur + 1) % n + (c + (n - (cur + 1) % n))) % n := by
        rw [Nat.add_mod_mod, ← Nat.mod_add_mod]
    _ = (c + n) % n := by congr 1; omega
    _ = c := by rw [Nat.add_mod_right, Nat.mod_eq_of_lt hc]

theorem Core.nextCtx_none {x : Core} (h : x.nextCtx k = none) (hc : c < coreContexts k) (hother : c ≠ x.cur) :
    x.runnable c = false := by
  have hnone := List.find?_eq_none.mp h c (List.mem_filter.mpr ⟨mem_roundRobin hc, decide_eq_true hother⟩)
  exact Bool.eq_false_iff.mpr hnone

/-! ### Interrupts -/

theorem Core.irqSource_lowest {x : Core} {i : Nat} (h : x.irqSource = some i) :
    i < 16 ∧ x.irqPend.getLsbD i = true ∧ x.irqMask.getLsbD i = true ∧
      ∀ j, j < i → (x.irqPend &&& x.irqMask).getLsbD j = false := by
  obtain ⟨hset, hi, hlow⟩ := List.find?_range_eq_some.mp h
  rw [BitVec.getLsbD_and, Bool.and_eq_true] at hset
  exact ⟨List.mem_range.mp hi, hset.1, hset.2, fun j hj => by simpa only [Bool.not_eq_true'] using hlow j hj⟩

theorem execInterrupt_enters {src : Nat} (hk : k < 50) (hsettled : s.settle k = s)
    (hsource : (s.core k).irqSource = some src) (hhalted : (s.core k).halted = false)
    (hreset : (s.core k).inReset = false) (hgated : (s.core k).gated = false)
    (hctx : (s.core k).irqCtx.toNat < coreContexts k)
    (hready : (s.core k).ready.getLsbD (s.core k).irqCtx.toNat = true)
    (hmay : ((s.core k).ctx (s.core k).irqCtx.toNat).mayInterrupt = true) (hstalled : (s.core k).stalled = false)
    (hboundary : (s.core k).here.atBoundary = true) (hcur : (s.core k).cur = (s.core k).irqCtx.toNat) :
    exec (.interrupt k) s =
      .next ((s.setCore k (s.core k)).raise k (s.core k).cur { cause := 0x0E, detail := src }) := by
  simp only [exec_interrupt, execInterrupt, hsettled, hsource, hhalted, hreset, hgated, hready, hmay, hstalled, hboundary,
    Nat.not_le.mpr hk, Nat.not_le.mpr hctx, hcur, decide_false, Bool.not_true, Bool.not_false, Bool.or_false, Bool.or_true,
    Bool.and_true, decide_true, Bool.false_eq_true, if_false, if_true]

/-! ### EXEC -/

/-- Memory that is awake and has no flawed beat is read at once. -/
theorem State.readable_quiet (hactive : ∀ q, (s.quarter q).stack = .active) (hflaws : s.flaws = []) (pos n : Nat) :
    s.readable pos n = (s, true) := by
  have hmet : s.met (inBuf pos n) = s := State.met_none (by simp [hflaws])
  simp only [State.readable, State.reach_active fun q _ => hactive q, hmet, if_true]

theorem Ctx.startExec_entry (y : Ctx) (l : List Byte) (free lr : Word) : (y.startExec l free lr).s = false ∧
    (y.startExec l free lr).pc = BitVec.ofNat 16 (0x8000 + execEntry l) ∧ (y.startExec l free lr).ubase = 0xA000#16 ∧
    (y.startExec l free lr).ulim = 0xBFFF#16 ∧ (y.startExec l free lr).wp = 0xBFC0#16 := ⟨rfl, rfl, rfl, rfl, rfl⟩

/-- The routine's context runs on the core. -/
theorem State.startExec_core (s : State) (k c : Nat) (v : Trv) : ∃ free lr,
    ((s.startExec k c v).core k).exec = some (v.port, v.tag) ∧ ((s.startExec k c v).core k).cur = c ∧
    ((s.startExec k c v).core k).here = (((s.settleAll k).core k).ctx c).startExec v.leg free lr := by
  refine ⟨Config.freeWord s.fresh, Config.freeWord (s.fresh + 1), ?_⟩
  unfold State.startExec
  dsimp only
  rw [State.modCore_eq, State.putTrv_core, State.core_mk, State.setCore_core_self]
  exact ⟨rfl, rfl, Tab.get_set_self ..⟩

section
variable {p tag : Nat} {v : Trv} (h : AtLeg s p tag 0x46 v) (hbound : v.bound = some (k, c))
include h hbound

theorem execLegExec_busy (hexec : (s.core k).exec.isSome) : exec (.legExec p tag) s = .next s := by
  simp only [exec_legExec, execLegExec, State.perform_atLeg h, hbound, hexec, Bool.true_or, if_true]

variable (hexec : (s.core k).exec = none) (hhalted : (s.core k).halted = false) (hreset : (s.core k).inReset = false)
  (hgated : (s.core k).gated = false) (hactive : ∀ q, (s.quarter q).stack = .active) (hflaws : s.flaws = [])
include hexec hhalted hreset hgated hactive hflaws

theorem execLegExec_imagePoisoned (himage : s.poisoned (execImage v.leg) (2 * execWords v.leg) = true) :
    exec (.legExec p tag) s = .next (s.legDone v { status := stFetchPoison }) := by
  simp only [exec_legExec, execLegExec, State.perform_atLeg h, hbound, hexec, hhalted, hreset, hgated,
    State.whenReadable_yes (State.readable_quiet hactive hflaws _ _), himage, Option.isSome_none, Bool.or_false,
    Bool.false_eq_true, if_false, if_true]

theorem execLegExec_starts (himage : s.poisoned (execImage v.leg) (2 * execWords v.leg) = false)
    (hdata : s.poisoned (bufPos (legAddr v.leg)) (legLen v.leg) = false) :
    exec (.legExec p tag) s = .next (s.startExec k c v) := by
  simp only [exec_legExec, execLegExec, State.perform_atLeg h, hbound, hexec, hhalted, hreset, hgated,
    State.whenReadable_yes (State.readable_quiet hactive hflaws _ _), himage, hdata, Option.isSome_none, Bool.or_false,
    Bool.and_false, Bool.false_eq_true, if_false]

end

/-- Settles O55: each clause is what its command does, or what the choice of a context or a source means. -/
theorem contextsSwitch : Obligations.ContextsSwitch := by
  unfold Obligations.ContextsSwitch
  refine ⟨?swap, ?idle, ?next, ?noNext, ?sync, ?interrupt, ?source, ?starts, ?poisoned, ?busy, ?result⟩
  case swap => exact fun s k x h => execSSwap_issues h
  case idle => exact fun s k x h => execSIdle_issues h
  case next => exact fun x k c h => Core.nextCtx_some h
  case noNext => exact fun x k h c hc hother => Core.nextCtx_none h hc hother
  case sync => exact fun s k x h => execSSync_issues h
  case interrupt =>
    intro s k src hk hsettled hsource hhalted hreset hgated hctx hready hmay hstalled hboundary hcur
    exact execInterrupt_enters hk hsettled hsource hhalted hreset hgated hctx hready hmay hstalled hboundary hcur
  case source => exact fun x i h => Core.irqSource_lowest h
  case starts =>
    intro s p tag k c v h hbound hexec hhalted hreset hgated hactive hflaws himage hdata
    obtain ⟨free, lr, hruns, hcur, hhere⟩ := s.startExec_core k c v
    obtain ⟨hport, htag⟩ := State.trv?_names h.found
    obtain ⟨hs, hpc, hubase, hulim, hwp⟩ := Ctx.startExec_entry (((s.settleAll k).core k).ctx c) v.leg free lr
    refine ⟨s.startExec k c v, execLegExec_starts h hbound hexec hhalted hreset hgated hactive hflaws himage hdata, ?_⟩
    rw [hhere, hruns, hport, htag]
    exact ⟨rfl, hcur, hs, hpc, hubase, hulim, hwp⟩
  case poisoned =>
    intro s p tag k c v h hbound hexec hhalted hreset hgated hactive hflaws himage
    exact execLegExec_imagePoisoned h hbound hexec hhalted hreset hgated hactive hflaws himage
  case busy => exact fun s p tag k c v h hbound hexec => execLegExec_busy h hbound hexec
  case result => exact fun w1 w2 moved => ⟨rfl, rfl, rfl, rfl⟩

end Sys2Proof.Machine

/-! PROOFS. The messages about shelves and chains. -/

namespace Sys2Proof.Machine

/-! ### Who is served -/

theorem State.OnlyTells.service {s t : State} (h : s.OnlyTells t) : t.service = s.service := by
  obtain ⟨_, _, _, _, _, _, _, _, rfl⟩ := h; rfl

section
variable {s : State} {v : Service} {p code i n : Nat} {owns : Nat → Bool}

/-- A message of a port that owns what it names is served. -/
theorem State.servedFor_owner (h : s.serving code = some v) (hp : v.port = some p) (hi : i < n) (ho : owns p = true)
    (f : Service → State) : s.servedFor code i n owns f = f v := by
  simp only [State.servedFor, h, hp, ho, Nat.not_le.mpr hi, if_true, if_false]

/-- A message of another port is answered NOT-PRINCIPAL. -/
theorem State.servedFor_stranger (h : s.serving code = some v) (hp : v.port = some p) (hi : i < n)
    (ho : owns p = false) (f : Service → State) : s.servedFor code i n owns f = s.answer [2] := by
  simp only [State.servedFor, h, hp, ho, Nat.not_le.mpr hi, Bool.false_eq_true, if_false]

end

section
variable {s : State} {v : Service} {p : Nat}

/-- A shelf owned by a port takes what the parts of a block name (R245). -/
theorem State.takeBlock_owned {sh : Nat} {b : List Byte} (hp : p < 8) (ho : s.ownsShelf p sh = true) :
    s.takeBlock sh b = s.setShelf sh { s.shelf sh with
      windowNext := if bitN (byteAt b 12) 0 then
          some (some (BitVec.ofNat 96 (fieldAt b 0 12), bitN (byteAt b 13) 0))
        else (s.shelf sh).windowNext
      steps := if bitN (byteAt b 12) 1 then some ((List.range (byteAt b 14)).map (blockStep b))
        else (s.shelf sh).steps } := by
  have hany : ((List.range 8).any fun q => s.ownsShelf q sh) = true :=
    List.any_eq_true.mpr ⟨p, List.mem_range.mpr hp, ho⟩
  simp only [State.takeBlock, hany, Bool.not_true, Bool.false_eq_true, if_false, State.modShelf_eq]

/-- Of a block with the opening window alone, the window is taken. -/
theorem State.takeBlock_window {sh : Nat} {b : List Byte} (hp : p < 8) (ho : s.ownsShelf p sh = true)
    (hparts : byteAt b 12 = 1) : s.takeBlock sh b = s.setShelf sh { s.shelf sh with
      windowNext := some (some (BitVec.ofNat 96 (fieldAt b 0 12), bitN (byteAt b 13) 0)) } := by
  rw [State.takeBlock_owned hp ho, hparts]
  rfl

/-! #### SHELF-PARAM -/

section
variable (h : s.serving 0x0601 = some v) (hp : v.port = some p) (hi : v.word 1 < 48) (hidx : s.serviceIndex = v.word 1)
include h hp hi hidx

theorem execShelfParam_stranger (ho : s.ownsShelf p (v.word 1) = false) :
    exec .shelfParam s = .next (s.answer [2]) := by
  simp only [exec_shelfParam, execShelfParam, hidx]
  rw [State.servedFor_stranger h hp hi ho]

variable (ho : s.ownsShelf p (v.word 1) = true) (hrange : s.portRange p (v.quad 2) 512 = true)
  (halign : (v.quad 2).toNat % 64 = 0)
include ho hrange halign

/-- An owner's message whose block lies well is served once the block can be read. -/
theorem execShelfParam_owner : exec .shelfParam s = .next (s.whenReadable (bufPos (v.quad 2)) 512 fun t =>
    if !t.blockOk (t.readBuf (bufPos (v.quad 2)) 512) then t.answer [3]
    else (t.takeBlock (v.word 1) (t.readBuf (bufPos (v.quad 2)) 512)).answer [0]) := by
  simp only [exec_shelfParam, execShelfParam, hidx]
  rw [State.servedFor_owner h hp hi ho]
  simp only [hp, hrange, halign, ne_eq, not_true_eq_false, decide_false, Bool.not_true, Bool.or_self,
    Bool.false_eq_true, if_false]

theorem execShelfParam_readable (hread : s.readable (bufPos (v.quad 2)) 512 = (s, true)) :
    exec .shelfParam s = .next (if s.blockOk (s.readBuf (bufPos (v.quad 2)) 512) = true
      then (s.takeBlock (v.word 1) (s.readBuf (bufPos (v.quad 2)) 512)).answer [0]
      else s.answer [3]) := by
  rw [execShelfParam_owner h hp hi hidx ho hrange halign, State.whenReadable_yes hread]
  cases s.blockOk (s.readBuf (bufPos (v.quad 2)) 512) <;> rfl

theorem execShelfParam_waits (hread : (s.readable (bufPos (v.quad 2)) 512).2 = false) :
    exec .shelfParam s = .next (s.readable (bufPos (v.quad 2)) 512).1 := by
  rw [execShelfParam_owner h hp hi hidx ho hrange halign]
  simp only [State.whenReadable, hread, Bool.false_eq_true, if_false]

end

/-! #### SHELF-QUERY, SHELF-RESTORE and CHAIN-QUERY -/

section
variable (h : s.serving 0x0602 = some v) (hp : v.port = some p) (hi : v.word 1 < 48) (hidx : s.serviceIndex = v.word 1)
include h hp hi hidx

theorem execShelfQuery_owner (ho : s.mayBook p (v.word 1) = true) : exec .shelfQuery s =
    .next (s.answer ([0, (s.shelf (v.word 1)).state.code, Nat.min (s.shelf (v.word 1)).basket.length 0xFFFF,
      s.work (v.word 1), (s.shelf (v.word 1)).faults] ++
      twoWords ((s.devMs - (s.shelf (v.word 1)).since) / 1000))) := by
  simp only [exec_shelfQuery, execShelfQuery, hidx]
  rw [State.servedFor_owner h hp hi ho]

theorem execShelfQuery_stranger (ho : s.mayBook p (v.word 1) = false) :
    exec .shelfQuery s = .next (s.answer [2]) := by
  simp only [exec_shelfQuery, execShelfQuery, hidx]
  rw [State.servedFor_stranger h hp hi ho]

end

section
variable (h : s.serving 0x0603 = some v) (hp : v.port = some p) (hi : v.word 1 < 48) (hidx : s.serviceIndex = v.word 1)
  (ho : s.ownsShelf p (v.word 1) = true)
include h hp hi hidx ho

theorem execShelfRestore_owner : exec .shelfRestore s = .next
    (if (s.shelf (v.word 1)).state ≠ .retired then s.answer [3]
     else ((s.setShelf (v.word 1) { s.shelf (v.word 1) with faults := 0 }).enterShelf (v.word 1) .dark 0x0F 0).answer
      [0]) := by
  simp only [exec_shelfRestore, execShelfRestore, hidx]
  rw [State.servedFor_owner h hp hi ho, State.modShelf_eq]

theorem execShelfRestore_retired (hstate : (s.shelf (v.word 1)).state = .retired) : exec .shelfRestore s =
    .next (((s.setShelf (v.word 1) { s.shelf (v.word 1) with faults := 0 }).enterShelf (v.word 1) .dark 0x0F 0).answer
      [0]) := by
  rw [execShelfRestore_owner h hp hi hidx ho, if_neg (not_not.mpr hstate)]

theorem execShelfRestore_other (hstate : (s.shelf (v.word 1)).state ≠ .retired) :
    exec .shelfRestore s = .next (s.answer [3]) := by
  rw [execShelfRestore_owner h hp hi hidx ho, if_pos hstate]

end

/-- The count of uncorrectable codewords of a chain as a query finds it: codewords that brought no lane to its threshold
reach the model by no command, and a free number of them joins the count (R276). -/
def State.fecNow (s : State) (c : Nat) : Nat := Nat.min ((s.chain c).fec + Config.freeNat s.fresh) (2 ^ 32 - 1)

theorem State.fecNow_bounds (s : State) (c : Nat) :
    Nat.min (s.chain c).fec (2 ^ 32 - 1) ≤ s.fecNow c ∧ s.fecNow c < 2 ^ 32 := by
  simp only [State.fecNow, Nat.min_def]
  split <;> split <;> omega

section
variable (h : s.serving 0x0701 = some v) (hp : v.port = some p) (hi : v.word 1 < 12) (hidx : s.serviceIndex = v.word 1)
include h hp hi hidx

/-- The query answers the chain's counters, with its count of codewords brought up to date. -/
theorem execChainQuery_owner (ho : p ∈ s.chainPorts (v.word 1)) : ∃ rate up busy dead, exec .chainQuery s =
    .next ((({ s with fresh := s.fresh + 1 } : State).modChain (v.word 1) fun y => { y with
      fec := s.fecNow (v.word 1) }).answer
      ([0, rate * 64 + up, Nat.min (s.chain (v.word 1)).cmds.length 4096, busy] ++ twoWords (s.fecNow (v.word 1)) ++
        twoWords (Nat.min (s.chain (v.word 1)).linkResets (2 ^ 32 - 1)) ++ [dead])) := by
  rw [exec_chainQuery, execChainQuery, hidx,
    State.servedFor_owner (owns := fun p => p ∈ s.chainPorts (v.word 1)) h hp hi (decide_eq_true ho)]
  exact ⟨_, _, _, _, rfl⟩

theorem execChainQuery_stranger (ho : p ∉ s.chainPorts (v.word 1)) :
    exec .chainQuery s = .next (s.answer [2]) := by
  simp only [exec_chainQuery, execChainQuery, hidx]
  rw [State.servedFor_stranger (owns := fun p => p ∈ s.chainPorts (v.word 1)) h hp hi (decide_eq_false ho)]

end
end

/-- Settles O43: each message by the rule of its command, and what a parameter block sets (`State.takeBlock_owned`). -/
theorem shelfAndChainMessagesAreServed : Obligations.ShelfAndChainMessagesAreServed := by
  refine ⟨?window, ?waits, fun _ _ _ h hp hi hidx => execShelfParam_stranger h hp hi hidx,
    fun _ _ _ h hp hi hidx => execShelfQuery_owner h hp hi hidx,
    fun _ _ _ h hp hi hidx => execShelfRestore_retired h hp hi hidx,
    fun _ _ _ h hp hi hidx => execShelfRestore_other h hp hi hidx, ?chain,
    fun _ _ _ h hp hi hidx => execChainQuery_stranger h hp hi hidx,
    fun _ _ _ h hp hi hidx => execShelfParam_readable h hp hi hidx, ?steps,
    fun _ _ _ h hp hi hidx => execShelfQuery_stranger h hp hi hidx⟩
  case window =>
    intro s v p h hp hi hidx ho hrange halign hread hok hparts hport
    rw [execShelfParam_readable h hp hi hidx ho hrange halign hread, if_pos hok,
      State.takeBlock_window hport ho hparts]
  case waits =>
    intro s v p h hp hi hidx ho hrange halign hread
    have htells := s.readable_tells (bufPos (v.quad 2)) 512
    exact ⟨_, execShelfParam_waits h hp hi hidx ho hrange halign hread, htells.service, htells.shelves, htells.mem⟩
  case chain =>
    intro s v p h hp hi hidx ho
    obtain ⟨rate, up, busy, dead, hexec⟩ := execChainQuery_owner h hp hi hidx ho
    obtain ⟨hlow, hhigh⟩ := s.fecNow_bounds (v.word 1)
    exact ⟨_, rate, up, busy, _, dead, hexec, hlow, hhigh, rfl, rfl⟩
  case steps =>
    intro s p sh b hport ho hparts
    rw [State.takeBlock_owned hport ho, State.setShelf_shelf_self, hparts]
    exact ⟨rfl, rfl, rfl⟩

end Sys2Proof.Machine

/-! PROOFS. Outings: how one begins, and a power fault that does not end every command of its shelf. -/

namespace Sys2Proof.Machine

/-- A shelf that enters a state: its record changes, and the event is told (R229). -/
theorem State.enterShelf_tells (s : State) (sh : Nat) (st : ShelfState) (ev detail : Nat) :
    (s.setShelf sh { s.shelf sh with state := st, since := s.devMs }).OnlyTells (s.enterShelf sh st ev detail) :=
  State.outingEvent_tells ..

/-! ### The planner's choice -/

section
variable {s : State} {c sh : Nat}

/-- The best of a list is one of it. -/
theorem bestBy_mem {f : Nat → Nat} {l : List Nat} (h : bestBy f l = some sh) : sh ∈ l := by
  refine List.foldlRecOn (motive := fun b : Option Nat => ∀ x, b = some x → x ∈ l) l _ (by simp) ?_ sh h
  intro best ih i hi x hx
  cases best with
  | none => exact Option.some.inj hx ▸ hi
  | some b =>
    dsimp only at hx
    split at hx
    · exact Option.some.inj hx ▸ hi
    · exact ih x hx

/-- The chosen shelf is an eligible one of the chain (R233). -/
theorem State.choose_eligible (h : s.choose c = some sh) : s.eligible sh = true ∧ sh / 4 = c := by
  have hmem : sh ∈ ((List.range 4).map fun i => 4 * c + i).filter s.eligible := by
    unfold State.choose at h
    dsimp only at h
    split at h
    · exact List.mem_of_mem_filter (bestBy_mem h)
    · split at h
      · exact bestBy_mem h
      · exact bestBy_mem h
  obtain ⟨hchain, heligible⟩ := List.mem_filter.mp hmem
  obtain ⟨i, hi, rfl⟩ := List.mem_map.mp hchain
  have := List.mem_range.mp hi
  exact ⟨heligible, by omega⟩

/-- What a choice brings into force: the outing choice on its chain, and windows of shelves (R244, R245). -/
theorem State.takeChoice_eq (s : State) (c : Nat) : ∃ shelves, s.takeChoice c = { s with
    shelves := shelves, manage := { s.manage with inForce := s.manage.inForce.set c s.manage.outing } } := by
  refine List.foldlRecOn (motive := fun t : State => ∃ shelves, t = { s with
    shelves := shelves, manage := { s.manage with inForce := s.manage.inForce.set c s.manage.outing } })
    _ _ ⟨_, rfl⟩ ?_
  rintro _ ⟨_, rfl⟩ i -
  exact ⟨_, rfl⟩

/-- The shelves stay in their states, and their power-good stays as it was. -/
theorem State.takeChoice_shelf (s : State) (c i : Nat) :
    ((s.takeChoice c).shelf i).state = (s.shelf i).state ∧ ((s.takeChoice c).shelf i).pg = (s.shelf i).pg := by
  refine Prod.mk.inj (foldl_keeps (fun t : State => ((t.shelf i).state, (t.shelf i).pg)) (fun t j => ?_)
    (List.range 4) _)
  rw [State.modShelf_eq, State.setShelf_shelf]
  split
  · rename_i hij
    rw [hij]
    split <;> rfl
  · rfl

/-- The states in which a shelf holds no outing (R222). -/
theorem Shelf.state_of_idle {x : Shelf} (h : x.holds = false) :
    x.state = .dark ∨ x.state = .holdoff ∨ x.state = .retired := by
  cases hstate : x.state <;> simp [Shelf.holds, hstate, ShelfState.code] at h ⊢

/-- A shelf that holds no outing has no work that could change. -/
theorem State.workChanged_idle (h : (s.shelf sh).holds = false) : s.workChanged sh = s := by
  rcases Shelf.state_of_idle h with hstate | hstate | hstate <;> simp only [State.workChanged, hstate]

theorem State.rivalsChanged_idle (h : ∀ i, i < 4 → (s.shelf (4 * c + i)).holds = false) : s.rivalsChanged c = s := by
  refine List.foldlRecOn (motive := fun t : State => t = s) _ _ rfl fun t ht i hi => ?_
  subst ht
  dsimp only
  split
  · exact State.workChanged_idle (h i (List.mem_range.mp hi))
  · rfl

/-- A chain without outings has room for one (R222, R233). -/
theorem State.mayChoose_idle (hmode : s.mode = .ready) (h : ∀ i, i < 4 → (s.shelf (4 * c + i)).holds = false)
    (hroom : 1 ≤ s.perChain) : s.mayChoose c = true := by
  have hidle : ∀ sh ∈ (List.range 4).map fun i => 4 * c + i, (s.shelf sh).holds = false := by
    simpa using h
  have hnone : ((List.range 4).map fun i => 4 * c + i).filter (fun sh => (s.shelf sh).holds) = [] :=
    List.filter_eq_nil_iff.mpr fun sh hsh => by simp [hidle sh hsh]
  have hway : (((List.range 4).map fun i => 4 * c + i).any fun sh =>
      (s.shelf sh).state = .powering || (s.shelf sh).state = .spinning) = false := by
    refine List.any_eq_false.mpr fun sh hsh => ?_
    rcases Shelf.state_of_idle (hidle sh hsh) with hstate | hstate | hstate <;> simp [hstate]
  simp only [State.mayChoose, hmode, hway, hnone, List.length_nil, decide_true, Bool.not_false, Bool.and_self]
  exact decide_eq_true hroom

/-- The choice comes into force, the chain's SAS port wakes, and the chosen shelf is powered (R229, R233, R244). -/
def State.powerChosen (s : State) (c sh : Nat) : State :=
  (((s.takeChoice c).modChain c fun x => { x with gated := false }).modShelf sh
    fun x => { x with edges := [] }).enterShelf sh .powering 0x01 0

/-- Beside shelves, the chain and the choice in force, the powering of the chosen shelf only tells. -/
theorem State.powerChosen_tells (s : State) (c sh : Nat) : ∃ shelves, State.OnlyTells
    { s with shelves := shelves, chains := s.chains.set c { s.chain c with gated := false }
             manage := { s.manage with inForce := s.manage.inForce.set c s.manage.outing } } (s.powerChosen c sh) := by
  obtain ⟨shelves, htake⟩ := s.takeChoice_eq c
  rw [State.powerChosen, htake]
  exact ⟨_, State.enterShelf_tells ..⟩

theorem State.powerChosen_shelf (s : State) (c sh : Nat) : (s.powerChosen c sh).shelf sh =
    { (s.takeChoice c).shelf sh with edges := [], state := .powering, since := s.devMs } := by
  have hms : (s.takeChoice c).devMs = s.devMs := by
    obtain ⟨shelves, htake⟩ := s.takeChoice_eq c
    rw [htake]
  rw [State.powerChosen, State.enterShelf_shelf_self, State.modShelf_eq, State.setShelf_shelf_self, ← hms]
  rfl

/-- The chosen shelf of a chain without outings is powered, while its power-good is still low. -/
theorem execPlannerChoice_powers (hmode : s.mode = .ready) (h : ∀ i, i < 4 → (s.shelf (4 * c + i)).holds = false)
    (hroom : 1 ≤ s.perChain) (hchoice : (s.takeChoice c).choose c = some sh) (hpg : (s.shelf sh).pg = false) :
    exec (.plannerChoice c) s = .next (s.powerChosen c sh) := by
  have hidle : (s.takeChoice c).rivalsChanged c = s.takeChoice c :=
    State.rivalsChanged_idle fun i hi => by
      simpa only [Shelf.holds, (s.takeChoice_shelf c _).1] using h i hi
  have hlow : ((s.powerChosen c sh).shelf sh).pg = false := by
    rw [State.powerChosen_shelf]
    exact (s.takeChoice_shelf c sh).2.trans hpg
  rw [State.powerChosen] at hlow
  simp only [exec_plannerChoice, execPlannerChoice, State.mayChoose_idle hmode h hroom, hidle, hchoice, hlow,
    Bool.not_true, Bool.false_eq_true, if_false, State.powerChosen]

end

/-! ### Power-good -/

section
variable {s : State} {sh : Nat}

/-- An empty basket ends no traverse. -/
theorem State.setShelf_endBasket {x : Shelf} (h : x.basket = []) :
    (s.setShelf sh x).endBasket sh = s.setShelf sh x := by
  have hx : { x with basket := [] } = x := by rw [← h]
  simp only [State.endBasket, State.modShelf_eq, State.setShelf_shelf_self, h, List.foldl_nil, hx,
    State.setShelf_setShelf]

section
variable {level : Bool} (hedge : (s.shelf sh).pgFiltered ≠ level)
include hedge

/-- The first transition of a powering shelf is counted (R225). -/
theorem execShelfPgFilteredEdge_counts (hstate : (s.shelf sh).state = .powering) (hedges : (s.shelf sh).edges = []) :
    exec (.shelfPgFilteredEdge sh level) s =
      .next (s.setShelf sh { s.shelf sh with pgFiltered := level, edges := [s.devMs] }) := by
  simp [execShelfPgFilteredEdge, hedge, hstate, hedges, Shelf.powered, ShelfState.code]

/-- The fifth transition within a second is a power fault (R225, R241). -/
theorem execShelfPgFilteredEdge_fault {a b c d : Nat} (hstate : (s.shelf sh).state = .opened)
    (hedges : (s.shelf sh).edges = [a, b, c, d]) (ha : s.devMs < a + 1000) (hb : s.devMs < b + 1000)
    (hc : s.devMs < c + 1000) (hd : s.devMs < d + 1000) : exec (.shelfPgFilteredEdge sh level) s =
      .next ((s.setShelf sh { s.shelf sh with
        pgFiltered := level, edges := [a, b, c, d, s.devMs] }).powerFault sh 2) := by
  simp [execShelfPgFilteredEdge, hedge, hstate, hedges, ha, hb, hc, hd, Shelf.powered, ShelfState.code]

end

/-- Debounced power-good takes a powering shelf on to SPINNING (R229). -/
theorem execShelfPgDebounceExpiry_spins (hheld : s.held = false) (hpg : (s.shelf sh).pg = false)
    (hfiltered : (s.shelf sh).pgFiltered = true) (hstate : (s.shelf sh).state = .powering) :
    exec (.shelfPgDebounceExpiry sh) s =
      .next ((s.setShelf sh { s.shelf sh with pg := true }).enterSpinning sh) := by
  simp [execShelfPgDebounceExpiry, hheld, hpg, hfiltered, hstate]

/-- Its loss on an open shelf is a power fault (R241). -/
theorem execShelfPgDebounceExpiry_fault (hheld : s.held = false) (hpg : (s.shelf sh).pg = true)
    (hfiltered : (s.shelf sh).pgFiltered = false) (hstate : (s.shelf sh).state = .opened) :
    exec (.shelfPgDebounceExpiry sh) s =
      .next ((s.setShelf sh { s.shelf sh with pg := false }).powerFault sh 1) := by
  simp [execShelfPgDebounceExpiry, hheld, hpg, hfiltered, hstate]

theorem execShelfPgDebounceExpiry_held (hheld : s.held = true) (hpg : (s.shelf sh).pg ≠ (s.shelf sh).pgFiltered) :
    exec (.shelfPgDebounceExpiry sh) s = .next (s.setShelf sh { s.shelf sh with pg := (s.shelf sh).pgFiltered }) := by
  simp [execShelfPgDebounceExpiry, hheld, hpg]

/-- The shelf as it enters SPINNING (R229, R244, R256). -/
theorem State.enterSpinning_shelf (s : State) (sh : Nat) : ((s.enterSpinning sh).shelf sh).state = .spinning ∧
    ((s.enterSpinning sh).shelf sh).pg = (s.shelf sh).pg ∧ ((s.enterSpinning sh).shelf sh).spinning = false := by
  have h : (s.enterSpinning sh).shelf sh = _ := State.enterShelf_shelf_self _ sh .spinning 0x02 0
  rw [h, State.modShelf_eq, State.setShelf_shelf_self]
  exact ⟨rfl, rfl, rfl⟩

/-- Beside its shelf and the rediscovery asked for, the entry into SPINNING only tells. -/
theorem State.enterSpinning_tells (s : State) (sh : Nat) : ∃ x y t, ((s.setShelf sh x).setShelf sh y).OnlyTells t ∧
    s.enterSpinning sh = t.wantRediscovery (chainOfShelf sh) :=
  ⟨_, _, _, State.enterShelf_tells .., rfl⟩

theorem State.enterSpinning_mem (s : State) (sh : Nat) : (s.enterSpinning sh).mem = s.mem := by
  obtain ⟨x, y, t, htells, henter⟩ := s.enterSpinning_tells sh
  rw [henter]
  exact htells.mem

theorem State.enterSpinning_rediscover (s : State) (sh : Nat) :
    ((s.enterSpinning sh).chain (chainOfShelf sh)).rediscover =
      (s.chain (chainOfShelf sh)).rediscover.max .chain := by
  obtain ⟨x, y, t, htells, henter⟩ := s.enterSpinning_tells sh
  have hchain : t.chain (chainOfShelf sh) = s.chain (chainOfShelf sh) := by
    simp only [State.chain, htells.chains, State.setShelf_chains]
  rw [henter, State.wantRediscovery, State.modChain_eq, State.setChain_chain_self, hchain]

/-- Without power-good in time the shelf is held off, and the fault is counted (R225, R229). -/
theorem execPowerGoodTimeout_holdsOff (hstate : (s.shelf sh).state = .powering) (hpg : (s.shelf sh).pg = false)
    (hbasket : (s.shelf sh).basket = []) : exec (.powerGoodTimeout sh) s =
      .next (((s.setShelf sh { s.shelf sh with state := .holdoff, faults := (s.shelf sh).faults + 1 }).outingEvent sh
        0x09 1).enterShelf sh .holdoff 0x0D 0) := by
  simp [execPowerGoodTimeout, hstate, hpg, State.setShelf_endBasket, hbasket]

end

/-- Settles O26: the planner's choice by what it brings into force and by `State.choose_eligible`, power-good and its
limits by the rules of their commands. -/
theorem outingsBegin : Obligations.OutingsBegin := by
  refine ⟨?choice, fun _ _ _ => State.choose_eligible, fun _ _ _ => execShelfPgFilteredEdge_counts, ?unstable, ?spins,
    fun _ _ => execShelfPgDebounceExpiry_fault, fun _ _ => execShelfPgDebounceExpiry_held, ?late⟩
  case choice =>
    intro s c sh hmode hidle hroom hchoice hpg
    refine ⟨_, execPlannerChoice_powers hmode hidle hroom hchoice hpg, ?_⟩
    obtain ⟨shelves, htells⟩ := s.powerChosen_tells c sh
    rw [State.powerChosen_shelf, State.chain, htells.manage, htells.chains, htells.trvs, htells.mem]
    exact ⟨Tab.find_set_self .., rfl, rfl, rfl, congrArg SasPort.gated (Tab.get_set_self ..), rfl, rfl⟩
  case unstable =>
    intro s sh a b c d level hedge hstate hedges ha hb hc hd
    exact ⟨_, execShelfPgFilteredEdge_fault hedge hstate hedges ha hb hc hd, rfl⟩
  case spins =>
    intro s sh hheld hpg hfiltered hstate
    obtain ⟨hspinning, hgood, hidle⟩ := (s.setShelf sh { s.shelf sh with pg := true }).enterSpinning_shelf sh
    rw [State.setShelf_shelf_self] at hgood
    exact ⟨_, execShelfPgDebounceExpiry_spins hheld hpg hfiltered hstate, hspinning, hgood, hidle,
      State.enterSpinning_rediscover .., State.enterSpinning_mem ..⟩
  case late =>
    intro s sh hstate hpg hbasket
    refine ⟨_, execPowerGoodTimeout_holdsOff hstate hpg hbasket, ?_⟩
    have htold := State.outingEvent_tells (s.setShelf sh { s.shelf sh with
      state := .holdoff, faults := (s.shelf sh).faults + 1 }) sh 0x09 1
    have htells := State.enterShelf_tells ((s.setShelf sh { s.shelf sh with
      state := .holdoff, faults := (s.shelf sh).faults + 1 }).outingEvent sh 0x09 1) sh .holdoff 0x0D 0
    rw [State.enterShelf_shelf_self, State.shelf_congr htold.shelves, State.setShelf_shelf_self]
    exact ⟨rfl, rfl, htells.trvs.trans htold.trvs, htells.mem.trans htold.mem⟩

/-! ### A power fault that leaves a command on its shelf -/

/-- A command of firmware, number 5, to the drive of a handle. -/
def commandFive (h : Nat) : Cmd :=
  { id := 5, handle := h, owner := .firmware, cdb := [], dir := 0, len := 0, segments := [] }

/-- Shelf 1 is open, and shelf 0 closes once no command is outstanding to a drive of it. Chain 0 has one command to a
drive of each, both with number 5, and shelf 0 lists slot 96 as ready, whose handle is that of slot 0 of shelf 1. -/
def sharedNumber : State :=
  { shelves := [(0, { state := .closing, readySlots := [96] }), (1, { state := .opened })]
    chains := [(0, { cmds := [commandFive 0, commandFive 96] })] }

/-- The power fault of shelf 1 ends number 5, which takes both commands off the chain, but as the end of the command to
shelf 0, found first: shelf 0 goes on closing (R232) and hands a command to the handle of its slot 96. -/
theorem sharedNumber_powerFault :
    (((sharedNumber.powerFault 1 1).chain 0).cmds.any fun d => d.onShelf 1) = true := by
  decide +kernel

/-- Refutes O28: a power fault with commands outstanding does not always leave its shelf without commands. The clause
does not ask that the commands of a chain have numbers of their own or that a shelf's ready slots are below 96; in
`sharedNumber`, which has neither, another shelf's closing hands the faulted shelf a new command. -/
theorem not_outingsEnd : ¬ Obligations.OutingsEnd := by
  rintro ⟨-, -, -, -, -, -, -, -, -, -, -, -, -, hfault, -⟩
  have howners : ∀ d ∈ (sharedNumber.chain (chainOfShelf 1)).cmds, d.answer = none ∧ (d.owner = .firmware ∨
      (∃ slot poll, d.owner = .spinUp 1 slot poll) ∨ ∃ slot stop, d.owner = .closing 1 slot stop) := by
    intro d hd
    rcases List.mem_pair.mp (show d ∈ [commandFive 0, commandFive 96] from hd) with rfl | rfl <;> exact ⟨rfl, .inl rfl⟩
  have htmfs : (sharedNumber.chain (chainOfShelf 1)).tmfs = [] := rfl
  obtain ⟨-, -, -, hcleared, -⟩ := hfault sharedNumber 1 1 (by decide) rfl howners (by simp [htmfs])
    (by simp [sharedNumber])
  obtain ⟨d, hd, hshelf⟩ := List.any_eq_true.mp sharedNumber_powerFault
  exact Bool.false_ne_true ((hcleared d hd).symm.trans hshelf)

end Sys2Proof.Machine

/-! PROOFS. Wide ports: targets lost and found, discovery and broadcasts, lanes and port-level resets. -/

namespace Sys2Proof.Machine

/-! ### Reachability of a target -/

section
variable {s : State} {h tag : Nat} {x : Cmd}

theorem State.openFor_handle (s : State) (x : Cmd) : (s.openFor x).2.handle = x.handle := by
  simp only [State.openFor]
  split <;> rfl

theorem State.rejectCmd_retry (hx : x.handle = h) : s.rejectCmd x .retry =
    s.putCmd (chainOfHandle h) { x with opening := true, backoff := nextBackoff x.backoff } := by
  subst hx; rfl

theorem State.rejectCmd_slower {n : Nat} (hx : x.handle = h)
    (hrate : nextRate x.rate (s.chain (chainOfHandle h)).topRate = some n) :
    s.rejectCmd x .rateNotSupported = s.putCmd (chainOfHandle h) { x with rate := n } := by
  subst hx
  simp only [State.rejectCmd, hrate]

section
variable (htmf : ((s.chain (chainOfHandle h)).tmfs.any fun m => m.handle = h && m.tag = some tag && m.sent) = false)
include htmf

/-- Where no function was sent under the tag, the rejection is of the command sent under it, for its DATA frames. -/
theorem execOpenReject_data
    (hx : (s.chain (chainOfHandle h)).cmds.find? (fun c => c.handle = h && c.tag = some tag && c.sent) = some x)
    (hready : x.ready.isSome = true) (r : RejectReason) :
    x.handle = h ∧ exec (.openReject h tag r) s = .next (s.rejectCmd x r) := by
  have hnone := List.find?_eq_none.mpr (List.any_eq_false.mp htmf)
  have hhandle := List.find?_some hx
  simp only [Bool.and_eq_true, decide_eq_true_eq] at hhandle
  refine ⟨hhandle.1.1, ?_⟩
  simp only [exec_openReject, execOpenReject, hnone, hx, hready, if_true]

/-- Where no command was sent under it either, the rejection is of the COMMAND frame that is the next to leave. -/
theorem execOpenReject_next
    (hcmds : ((s.chain (chainOfHandle h)).cmds.any fun c => c.handle = h && c.tag = some tag && c.sent) = false)
    (hx : s.nextCommand h = some x) (ha : (s.handle h).attached.isSome = true) (r : RejectReason) :
    exec (.openReject h tag r) s = .next ((s.openFor x).1.rejectCmd (s.openFor x).2 r) := by
  have hnone := List.find?_eq_none.mpr (List.any_eq_false.mp htmf)
  have hsent := List.find?_eq_none.mpr (List.any_eq_false.mp hcmds)
  have hdev : (s.handle h).attached.isNone = false := by rw [← Option.not_isSome, ha, Bool.not_true]
  simp only [exec_openReject, execOpenReject, hnone, hsent, hx, hdev, Bool.false_eq_true, if_false]

end

/-- A lane without its connection, if that carried frames of one of these commands (R270). -/
def Lane.disconnected (l : Lane) (tags : List Nat) : Lane :=
  if l.conn.any fun k => k.2.any fun t => tags.contains t then { l with conn := none } else l

theorem Lane.disconnected_conn {l : Lane} {tags : List Nat} (ht : tag ∈ tags) {k : Nat × List Nat}
    (hk : (l.disconnected tags).conn = some k) : tag ∉ k.2 := by
  unfold Lane.disconnected at hk
  split at hk
  · cases hk
  · next hno =>
    rw [hk, Option.any_some] at hno
    exact fun hmem => hno (List.any_eq_true.mpr ⟨tag, hmem, List.contains_iff_mem.mpr ht⟩)

/-- A port whose connections that carried frames of these commands are no more. -/
def SasPort.disconnected (y : SasPort) (tags : List Nat) : SasPort :=
  { y with lanes := Tab.mapVals y.lanes fun l => l.disconnected tags }

theorem SasPort.disconnected_carried (y : SasPort) {tags : List Nat} (ht : tag ∈ tags) (i : Nat) :
    tag ∉ (y.disconnected tags).carried i := by
  have hlane : (y.disconnected tags).lanes.get i {} = (y.lanes.get i {}).disconnected tags :=
    Tab.get_mapVals y.lanes (fun l => l.disconnected tags) i {}
  rw [SasPort.carried, hlane]
  cases hconn : ((y.lanes.get i {}).disconnected tags).conn with
  | none => exact List.not_mem_nil
  | some k => exact Lane.disconnected_conn ht hconn

/-- A command that was sent and that nothing has ended is aborted with its connection (R270). -/
theorem State.breakCommands_one {c : Nat} (hx : (s.chain c).byTag tag = some x) (hsent : x.sent = true)
    (hanswer : x.answer = none) (hwhy : x.why = .none) (horphan : x.orphan = false)
    (hlost : (s.handle x.handle).lost = false) : s.breakCommands c [tag] = s.abortCmd c x .broken := by
  simp [State.breakCommands, hx, hsent, hanswer, hwhy, horphan, hlost]

/-- A command of a broken connection that recovery would end TASK ABORTED ends LINK-INTERRUPTED (R270). -/
theorem Cmd.cut_broken (hwhy : x.why = .broken) : (x.cut x.aborted).1 = { x.aborted with fault := 7 } := by
  simp [Cmd.cut, hwhy]

end

/-! ### Events of a wide port -/

/-- `t` differs from `s` in nothing but what tells of an event, SAS field books among it, and has sent what `s` had. -/
def State.Reports (s t : State) : Prop :=
  (∃ sasBooks, ({ s with sasBooks := sasBooks } : State).OnlyTells t) ∧ s.out ⊆ t.out

section
variable {s t : State}

theorem State.OnlyTells.handles (h : s.OnlyTells t) : t.handles = s.handles := by
  obtain ⟨_, _, _, _, _, _, _, _, rfl⟩ := h; rfl

theorem State.Reports.mem (h : s.Reports t) : t.mem = s.mem := by obtain ⟨⟨_, htells⟩, -⟩ := h; exact htells.mem
theorem State.Reports.chains (h : s.Reports t) : t.chains = s.chains := by
  obtain ⟨⟨_, htells⟩, -⟩ := h; exact htells.chains
theorem State.Reports.handles (h : s.Reports t) : t.handles = s.handles := by
  obtain ⟨⟨_, htells⟩, -⟩ := h; exact htells.handles
theorem State.Reports.out (h : s.Reports t) : s.out ⊆ t.out := h.2

theorem State.Reports.chain (h : s.Reports t) (c : Nat) : t.chain c = s.chain c := by rw [State.chain, h.chains]; rfl
theorem State.Reports.handle (h : s.Reports t) (n : Nat) : t.handle n = s.handle n := by
  rw [State.handle, h.handles]; rfl

theorem State.raiseVector_out (s : State) (p v : Nat) : s.out ⊆ (s.raiseVector p v).out := by
  cases h : (s.port p).canSend v with
  | true => rw [s.raiseVector_sent h]; exact List.subset_cons_self ..
  | false => rw [s.raiseVector_held h]; exact List.Subset.refl _

theorem State.portEvent_out (s : State) (p bit : Nat) : s.out ⊆ (s.portEvent p bit).out := by
  unfold State.portEvent
  dsimp only
  split
  · exact List.Subset.refl _
  · split
    · exact State.raiseVector_out (s.setPort p _) p 256
    · exact List.Subset.refl _

theorem State.toPort_out (s : State) (typ source : Nat) (payload : List Nat) (p : Nat) :
    s.out ⊆ (s.toPort typ source payload p).out :=
  State.portEvent_out (s.modPort p fun x => { x with book := x.book.accept typ source payload }) p 2

theorem State.toSas_tells (s : State) (typ source : Nat) (payload : List Nat) (c : Nat) :
    ∃ sasBooks, ({ s with sasBooks := sasBooks } : State).OnlyTells (s.toSas typ source payload c) :=
  ⟨_, State.irq_tells _ 48 1⟩

theorem State.toPorts_tells (s : State) (typ source : Nat) (payload ps : List Nat) :
    s.OnlyTells (s.toPorts typ source payload ps) := .foldl (fun s p => s.toPort_tells typ source payload p) ps s

theorem State.toPorts_out (s : State) (typ source : Nat) (payload ps : List Nat) :
    s.out ⊆ (s.toPorts typ source payload ps).out :=
  List.foldlRecOn (motive := fun t : State => s.out ⊆ t.out) _ _ (List.Subset.refl _)
    fun t ht p _ => List.Subset.trans ht (t.toPort_out typ source payload p)

theorem State.sasEvent_reports (s : State) (c typ word : Nat) (more ports : List Nat) :
    s.Reports (s.sasEvent c typ word more ports) := by
  obtain ⟨sasBooks, htells⟩ := s.toSas_tells typ c ((s.time32 * 2 ^ 32 + word) :: more) c
  exact ⟨⟨sasBooks, (htells.trans (State.toDevice_tells _ typ c _)).trans (State.toPorts_tells _ typ c _ ports)⟩,
    State.toPorts_out ((s.toSas typ c _ c).toDevice typ c _) typ c _ ports⟩

theorem State.deviceHandleEvent_reports (s : State) (c event slot kind n : Nat) (sas : BitVec 64) (ports : List Nat) :
    s.Reports (s.deviceHandleEvent c event slot kind n sas ports) := s.sasEvent_reports ..
theorem State.broadcastEvent_reports (s : State) (c prim count lane : Nat) :
    s.Reports (s.broadcastEvent c prim count lane) := s.sasEvent_reports ..
theorem State.phyEvent_reports (s : State) (c event detail lane rate : Nat) :
    s.Reports (s.phyEvent c event detail lane rate) := s.sasEvent_reports ..

end

/-- A handle without a target and without what was under way to one. -/
def Handle.detached (y : Handle) : Handle := { y with attached := none, lost := false, recovery := none }

/-- A handle has no commands to cut off where its chain has none. -/
theorem State.cutCmds_none {s : State} {c h : Nat} (hcmds : (s.chain c).cmds = []) (f : Cmd → LegEnd) :
    s.cutCmds c (((s.chain c).ofHandle h).map (·.id)) f = s := by
  simp [State.cutCmds, SasPort.ofHandle, hcmds]

/-- A handle whose chain has no command is detached (R258): its target and its recovery go, and DETACHED is told. -/
theorem State.detach_idle {s : State} {h : Nat} (hcmds : (s.chain (chainOfHandle h)).cmds = []) : ∃ t f,
    (s.setHandle h (s.handle h).detached).Reports t ∧ s.detach h = t.modChain (chainOfHandle h) f := by
  have htold := (s.setHandle h (s.handle h).detached).deviceHandleEvent_reports (chainOfHandle h) 0x02
    (slotField h) (s.kindField h) h ((s.handle h).attached.getD 0) (s.handlePorts h)
  refine ⟨_, fun y => { y with
    found := y.found.filter fun a => (s.handle h).attached ≠ some a
    tmfs := y.tmfs.filter fun m => m.handle ≠ h || m.owner ≠ .recovery }, htold, ?_⟩
  refine State.cutCmds_none ?_ _
  rw [State.modChain_eq, State.setChain_chain_self]
  exact (congrArg SasPort.cmds (htold.chain (chainOfHandle h))).trans hcmds

/-- Settles O23: a rejection by the frame it concerns, a broken connection by the one command it carried, and a detached
handle by `State.detach_idle`. -/
theorem targetsAreLostAndFound : Obligations.TargetsAreLostAndFound := by
  refine ⟨?retry, ?noDestination, ?wrongDestination, ?nextRetry, ?nextRate, ?backoff, ?broken, ?interrupted, ?expires,
    ?detached⟩
  case retry =>
    intro s h tag x htmf hx hready
    obtain ⟨rfl, hexec⟩ := execOpenReject_data htmf hx hready .retry
    exact hexec
  case noDestination =>
    intro s h tag x htmf hx hready
    obtain ⟨rfl, hexec⟩ := execOpenReject_data htmf hx hready .noDestination
    exact hexec
  case wrongDestination =>
    intro s h tag x htmf hx hready
    obtain ⟨rfl, hexec⟩ := execOpenReject_data htmf hx hready .wrongDestination
    exact hexec
  case nextRetry =>
    intro s h tag x htmf hcmds hx ha
    obtain ⟨-, hhandle, -⟩ := State.nextCommand_spec hx
    rw [execOpenReject_next htmf hcmds hx ha, State.rejectCmd_retry ((s.openFor_handle x).trans hhandle)]
  case nextRate =>
    intro s h tag r x htmf hcmds hx ha hrate
    obtain ⟨-, hhandle, -⟩ := State.nextCommand_spec hx
    rw [execOpenReject_next htmf hcmds hx ha, State.rejectCmd_slower ((s.openFor_handle x).trans hhandle) hrate]
  case backoff =>
    intro s h tag x hx hhandle htag
    refine ⟨_, rfl, rfl, ?_⟩
    rw [State.modChain_eq, State.setChain_chain_self]
    refine ⟨List.mem_map.mpr ⟨x, hx, by simp [hhandle, htag]⟩, fun d hd hdh hdt => ?_⟩
    obtain ⟨y, -, rfl⟩ := List.mem_map.mp hd
    cases hy : y.handle = h && y.tag = some tag with
    | true => simp
    | false =>
      simp only [hy, Bool.false_eq_true, if_false] at hdh hdt
      simp [hdh, hdt] at hy
  case broken =>
    intro s c tag x hx hsent hanswer hwhy horphan hlost
    refine ⟨s.modChain c fun y => y.disconnected [tag], ?_, rfl, ?_⟩
    · have hfound : ((s.modChain c fun y => y.disconnected [tag]).chain c).byTag tag = some x := by
        rw [State.modChain_eq, State.setChain_chain_self]; exact hx
      exact congrArg Host.Outcome.next (State.breakCommands_one hfound hsent hanswer hwhy horphan hlost)
    · rw [State.modChain_eq, State.setChain_chain_self]
      exact ⟨rfl, (s.chain c).disconnected_carried (List.mem_singleton_self tag)⟩
  case interrupted =>
    intro x hwhy
    rw [Cmd.cut_broken hwhy]
    exact ⟨rfl, rfl⟩
  case expires =>
    intro s h hlost
    exact congrArg Host.Outcome.next (if_pos hlost)
  case detached =>
    intro s h hcmds
    obtain ⟨t, f, htold, hdetach⟩ := State.detach_idle hcmds
    rw [hdetach, State.modChain_eq, State.setChain_handle, htold.handle, State.setHandle_handle_self, State.setChain_mem,
      htold.mem]
    exact ⟨rfl, rfl, rfl⟩

end Sys2Proof.Machine

namespace Sys2Proof.Machine

/-! ### Discovery -/

/-- A change of a chain that keeps what `g` reads keeps it on every chain. -/
theorem State.modChain_keeps {β : Type} (g : SasPort → β) {f : SasPort → SasPort} (h : ∀ y, g (f y) = g y)
    (s : State) (ch c : Nat) : g ((s.modChain ch f).chain c) = g (s.chain c) := by
  rw [State.modChain_eq, State.setChain_chain]
  split
  · next hc => rw [h, hc]
  · rfl

/-- Frames sent one after another. -/
theorem State.foldl_emit (s : State) {α : Type} (f : α → Output) (l : List α) :
    l.foldl (fun (s : State) a => s.emit (f a)) s = { s with out := (l.map f).reverse ++ s.out } := by
  induction l generalizing s with
  | nil => rfl
  | cons a l ih => rw [List.foldl_cons, ih]; simp [State.emit]

section
variable {s : State} {c h pos slot : Nat} {sas : BitVec 64}

theorem chainOfHandle_driveHandle (hpos : pos < 4) (hslot : slot < 96) :
    chainOfHandle (driveHandle (4 * c + pos) slot) = c := by
  simp only [chainOfHandle, driveHandle]
  omega

/-- With no target found on its chain, a descriptor attaches none (R251). -/
theorem State.describe_unfound (hfound : (s.chain (chainOfHandle h)).found = []) (l : Option (List (BitVec 64)))
    (installed : Bool) : s.describe h l installed =
      if ∀ a, (s.handle h).attached = some a → a ∈ l.getD [] then
        s.modHandle h fun x => { x with described := l, installed }
      else (s.modHandle h fun x => { x with described := l, installed }).loseTarget h := by
  cases ha : (s.handle h).attached with
  | none => simp [State.describe, hfound, ha]
  | some a => by_cases hl : a ∈ l.getD [] <;> simp [State.describe, hfound, ha, hl]

/-- A reachable target that is lost stays attached (R258). -/
theorem State.loseTarget_handle (s : State) (h : Nat) :
    ((s.loseTarget h).handle h).attached = (s.handle h).attached ∧
      ((s.handle h).attached.isSome = true → ((s.loseTarget h).handle h).lost = true) := by
  unfold State.loseTarget
  dsimp only
  split
  · rw [State.modChain_eq, State.setChain_handle, State.setHandle_handle_self]
    exact ⟨rfl, fun _ => rfl⟩
  · next hkeep => exact ⟨rfl, fun ha => by simpa [ha] using hkeep⟩

theorem execSmpResponse_slot (hpos : pos < 4) (hslot : slot < 96) (l : List (BitVec 64)) (installed : Bool) :
    exec (.smpResponse c (.slot pos slot l installed)) s =
      .next (s.describe (driveHandle (4 * c + pos) slot) (some l) installed) := by
  simp [execSmpResponse, Nat.not_lt.mpr (Nat.le_of_lt_succ hpos), Nat.not_lt.mpr (Nat.le_of_lt_succ hslot)]

theorem execSmpResponse_noSlot (hpos : pos < 4) (hslot : slot < 96) : exec (.smpResponse c (.noSlot pos slot)) s =
    .next (s.describe (driveHandle (4 * c + pos) slot) none false) := by
  simp [execSmpResponse, Nat.not_lt.mpr (Nat.le_of_lt_succ hpos), Nat.not_lt.mpr (Nat.le_of_lt_succ hslot)]

/-- INQUIRY goes to every target that waits for it; nothing else changes. -/
theorem State.inquire_eq (s : State) (c : Nat) : s.inquire c = { s.setChain c { s.chain c with toAsk := [] } with
    out := ((s.chain c).toAsk.map fun a => Output.probe c a cdbInquiry).reverse ++ s.out } :=
  State.foldl_emit ..

/-- A chain on which its first target is found, and which asks it for INQUIRY data (R253). -/
def SasPort.metFirst (y : SasPort) (sas : BitVec 64) : SasPort := { y with
  found := [sas], toAsk := if y.toAsk.contains sas then y.toAsk else y.toAsk ++ [sas] }

theorem SasPort.metFirst_asks (y : SasPort) (sas : BitVec 64) : sas ∈ (y.metFirst sas).toAsk := by
  unfold SasPort.metFirst
  dsimp only
  split
  · next hasked => exact List.contains_iff_mem.mp hasked
  · exact List.mem_append_right _ (List.mem_singleton_self sas)

/-- The state with the chain's first target found: it is sent INQUIRY, unless expanders are still being listed. -/
def State.metFirst (s : State) (c : Nat) (sas : BitVec 64) : State :=
  if (s.chain c).descent = [] then (s.setChain c ((s.chain c).metFirst sas)).inquire c
  else s.setChain c ((s.chain c).metFirst sas)

theorem State.metFirst_spec (s : State) (c : Nat) (sas : BitVec 64) : ∃ chains out,
    s.metFirst c sas = { s with chains, out } ∧ (chains.get c {}).found = [sas] ∧
      ((s.chain c).descent = [] → Output.probe c sas cdbInquiry ∈ out) := by
  unfold State.metFirst
  split
  · rw [State.inquire_eq, State.setChain_chain_self]
    refine ⟨_, _, rfl, congrArg SasPort.found (Tab.get_set_self ..), fun _ => ?_⟩
    exact List.mem_append_left _ (List.mem_reverse.mpr (List.mem_map_of_mem (SasPort.metFirst_asks ..)))
  · next hdescent => exact ⟨_, _, rfl, congrArg SasPort.found (Tab.get_set_self ..), fun hd => absurd hd hdescent⟩

theorem State.describing_congr {t : State} (hh : t.handles = s.handles) : t.describing c sas = s.describing c sas := by
  unfold State.describing State.handle
  rw [hh]

/-- The first target found on a chain attaches at the one drive handle whose descriptor lists it (R251, R253). -/
theorem State.meetTarget_first (hfound : (s.chain c).found = []) (hdesc : s.describing c sas = [h])
    (hdrive : isDriveHandle h = true) : s.meetTarget c sas = (s.metFirst c sas).attach h sas := by
  have hmeet : s.meetTarget c sas = (((s.metFirst c sas).describing c sas).filter isDriveHandle).foldl
      (fun (s : State) h => s.attach h sas) (s.metFirst c sas) := by
    simp [State.meetTarget, hfound, State.metFirst, SasPort.metFirst]
  obtain ⟨_, _, hmet, -⟩ := s.metFirst_spec c sas
  have hone : (s.metFirst c sas).describing c sas = [h] := (State.describing_congr (by rw [hmet])).trans hdesc
  rw [hmeet, hone, List.filter_cons_of_pos hdrive]
  rfl

/-- While its shelf's slots are being discovered, a target attaches at a handle that has none, and no more (R256). -/
theorem State.attach_discovering (ha : (s.handle h).attached = none) (hslots : s.slotDiscovery h = true)
    (hses : slotOfHandle h ∉ (s.shelf (shelfOfHandle h)).sesWait) : s.attach h sas =
      s.setHandle h { s.handle h with attached := some sas, lost := false, recovery := none } := by
  simp [State.attach, ha, hslots, State.sesLinkUp, hses]

/-! #### The end of a discovery -/

/-- No shelf of the chain has an entry in its basket, or an outing that has been open too long (R231). -/
def State.calm (s : State) (c : Nat) : Prop :=
  ∀ i, i < 4 → (s.shelf (4 * c + i)).basket = [] ∧ (s.shelf (4 * c + i)).maxOpenPassed = false

theorem State.emptyShelf_nil {sh : Nat} (hbasket : (s.shelf sh).basket = []) : s.emptyShelf sh =
    if s.populated sh then s else s.setShelf sh { s.shelf sh with basket := [] } := by
  simp [State.emptyShelf, hbasket]

theorem State.emptyShelf_one {sh : Nat} {b : BasketEntry} (hpop : s.populated sh = false)
    (hbasket : (s.shelf sh).basket = [b]) : s.emptyShelf sh =
      (s.modShelf sh fun x => { x with basket := [] }).withTrv b.port b.tag fun t =>
        (s.modShelf sh fun x => { x with basket := [] }).legDone t { status := stOutingClosed, info := some 3 } := by
  simp [State.emptyShelf, hpop, hbasket]

theorem State.calm.emptyShelves (hcalm : s.calm c) :
    ∃ shelves, (List.range 4).foldl (fun (s : State) i => s.emptyShelf (4 * c + i)) s = { s with shelves } ∧
      ({ s with shelves } : State).calm c := by
  refine List.foldlRecOn (motive := fun t : State => ∃ shelves, t = { s with shelves } ∧
    ({ s with shelves } : State).calm c) _ _ ⟨_, rfl, hcalm⟩ fun t ht i hi => ?_
  obtain ⟨shelves, rfl, ht⟩ := ht
  rw [State.emptyShelf_nil (ht i (List.mem_range.mp hi)).1]
  split
  · exact ⟨_, rfl, ht⟩
  · refine ⟨_, rfl, fun j hj => ?_⟩
    show ((({ s with shelves } : State).setShelf (4 * c + i) _).shelf (4 * c + j)).basket = [] ∧
      ((({ s with shelves } : State).setShelf (4 * c + i) _).shelf (4 * c + j)).maxOpenPassed = false
    rw [State.setShelf_shelf]
    split
    · exact ⟨rfl, (ht i (List.mem_range.mp hi)).2⟩
    · exact ht j hj

theorem State.calm.rivalsChanged (hcalm : s.calm c) : s.rivalsChanged c = s := by
  refine List.foldlRecOn (motive := fun t : State => t = s) _ _ rfl fun t ht i hi => ?_
  subst ht
  simp [(hcalm i (List.mem_range.mp hi)).2]

theorem State.discoveryEnds_calm (hdisc : (s.chain c).discovering = true) (hcalm : s.calm c) : ∃ shelves,
    s.discoveryEnds c =
      { s.setChain c { s.chain c with discovering := false, discovered := true } with shelves } := by
  obtain ⟨shelves, hempty, hrest⟩ := State.calm.emptyShelves (c := c)
    (s := s.setChain c { s.chain c with discovering := false, discovered := true }) hcalm
  refine ⟨shelves, ?_⟩
  simp only [State.discoveryEnds, hdisc, Bool.not_true, Bool.false_eq_true, if_false, State.modChain_eq]
  rw [hempty, hrest.rivalsChanged]

/-! #### Broadcasts and rediscovery -/

theorem execBroadcast_counted {lane t0 : Nat} (hlast : (s.chain c).lastRediscovery = some t0)
    (hrecent : s.devMs < t0 + 100) : exec (.broadcast c lane 1) s = .next (s.setChain c { s.chain c with
      rediscover := (s.chain c).rediscover.max .concerned, pendingBroadcast := (s.chain c).pendingBroadcast + 1
      lastPrim := (1, lane) }) := by
  simp [execBroadcast, State.mayRediscover, hlast, Nat.not_le.mpr hrecent]

/-- BROADCAST (SES) has page 0x02 of every enclosure read. -/
theorem execBroadcast_ses (lane : Nat) : exec (.broadcast c lane 2) s =
    .next ((s.chain c).enclosures.foldl (fun (s : State) e => s.readPage (512 * c + 384 + e.1) 2)
      (s.broadcastEvent c 2 1 lane)) := by
  rw [← (s.broadcastEvent_reports c 2 1 lane).chain c]
  rfl

/-- What a page read leaves: a command more for its chain. -/
theorem State.readPage_keeps {β : Type} (g : SasPort → β)
    (hg : ∀ (y : SasPort) (cmds : List Cmd) (n : Nat), g { y with cmds := cmds, nextId := n } = g y)
    (s : State) (h page c : Nat) : g ((s.readPage h page).chain c) = g (s.chain c) := by
  unfold State.readPage
  split
  · rfl
  · exact State.modChain_keeps g (fun y => hg y ..) s _ c

/-- The pages of the shelves in slot discovery read again (R256) are commands for their chain, and no more. -/
theorem State.rereadSlots_keeps (s : State) (c : Nat) : (s.rereadSlots c).mem = s.mem ∧
    (s.rereadSlots c).out = s.out ∧ ((s.rereadSlots c).chain c).rediscover = (s.chain c).rediscover ∧
    ((s.rereadSlots c).chain c).lastRediscovery = (s.chain c).lastRediscovery := by
  have hpage : ∀ (t : State) (h page : Nat), (t.readPage h page).mem = t.mem ∧ (t.readPage h page).out = t.out := by
    intro t h page
    unfold State.readPage
    split <;> exact ⟨rfl, rfl⟩
  refine List.foldlRecOn (motive := fun t : State => t.mem = s.mem ∧ t.out = s.out ∧
    (t.chain c).rediscover = (s.chain c).rediscover ∧ (t.chain c).lastRediscovery = (s.chain c).lastRediscovery) _ _
    ⟨rfl, rfl, rfl, rfl⟩ fun t ht i _ => ?_
  dsimp only
  split
  · rw [(hpage ..).1, (hpage ..).2, State.readPage_keeps SasPort.rediscover (fun _ _ _ => rfl),
      State.readPage_keeps SasPort.lastRediscovery (fun _ _ _ => rfl)]
    exact ht
  · exact ht

/-- DISCOVER LIST goes to every expander of the chain (R256). -/
theorem State.rescan_chain (hdue : (s.chain c).rediscover = .chain) : s.rescan c =
    { s.setChain c { s.chain c with fromTop := false } with
      out := ((s.chain c).expanders.map fun e => Output.discoverList c e).reverse ++ s.out } := by
  simp only [State.rescan, hdue]
  exact State.foldl_emit ..

theorem execRediscoveryStart_chain (hdue : (s.chain c).rediscover = .chain)
    (hfirst : (s.chain c).lastRediscovery = none) (hpending : (s.chain c).pendingBroadcast = 0) :
    exec (.rediscoveryStart c) s = .next (((s.rescan c).modChain c fun y => { y with
      rediscover := .none, pendingBroadcast := 0, lastRediscovery := some s.devMs }).rereadSlots c) := by
  simp [execRediscoveryStart, State.mayRediscover, hdue, hfirst, hpending]

end

/-- Settles O24: descriptors and targets by what attaches, the end of a discovery by its chain's idle shelves, broadcasts
and rediscoveries by the rules of their commands. -/
theorem chainsAreDiscovered : Obligations.ChainsAreDiscovered := by
  refine ⟨?slot, ?target, ?noSlot, ?ends, fun _ _ _ => State.emptyShelf_one, fun _ _ _ _ => execBroadcast_counted,
    fun _ _ _ => rfl, ?sesNone, ?sesOne, ?rediscovery⟩
  case slot =>
    intro s c pos slot addrs installed _ hpos hslot hfound hlisted
    have hchain := chainOfHandle_driveHandle (c := c) hpos hslot
    rw [execSmpResponse_slot hpos hslot, State.describe_unfound (by rw [hchain]; exact hfound)]
    exact congrArg _ (if_pos hlisted)
  case target =>
    intro s c h sas _ hfound hdesc hdrive ha hslots hses
    obtain ⟨chains, out, hmet, hone, hprobe⟩ := s.metFirst_spec c sas
    have hattach := State.attach_discovering (s := { s with chains, out }) (sas := sas) ha hslots hses
    rw [← hmet, ← State.meetTarget_first hfound hdesc hdrive] at hattach
    refine ⟨_, congrArg Host.Outcome.next hattach, ?_⟩
    rw [State.setHandle_handle_self, hmet]
    exact ⟨rfl, rfl, hone, rfl, hprobe⟩
  case noSlot =>
    intro s c pos slot a _ hpos hslot hfound ha _
    have hchain := chainOfHandle_driveHandle (c := c) hpos hslot
    obtain ⟨hattached, hlost⟩ := (s.modHandle (driveHandle (4 * c + pos) slot) fun x => { x with
      described := none, installed := false }).loseTarget_handle (driveHandle (4 * c + pos) slot)
    rw [State.modHandle_eq, State.setHandle_handle_self] at hattached hlost
    refine ⟨_, (execSmpResponse_noSlot hpos hslot).trans (congrArg _ ((State.describe_unfound
      (by rw [hchain]; exact hfound) none false).trans (if_neg fun hall => List.not_mem_nil (hall a ha)))), ?_⟩
    exact ⟨hattached.trans ha, hlost (by rw [ha]; rfl)⟩
  case ends =>
    intro s c hdisc hcalm
    obtain ⟨_, htop⟩ := State.discoveryEnds_calm (s := s.modChain c fun x => { x with fromTop := false }) (c := c)
      (by rw [State.modChain_eq, State.setChain_chain_self]; exact hdisc) hcalm
    obtain ⟨_, htimeout⟩ := State.discoveryEnds_calm hdisc hcalm
    refine ⟨_, _, congrArg Host.Outcome.next htop, congrArg Host.Outcome.next htimeout, ?_, ?_, rfl, rfl⟩
    · rw [State.modChain_eq, State.setChain_chain_self]
      exact Tab.get_set_self ..
    · exact Tab.get_set_self ..
  case sesNone =>
    intro s c lane hnone
    rw [execBroadcast_ses, hnone, List.foldl_nil]
  case sesOne =>
    intro s c lane pos id hone
    rw [execBroadcast_ses, hone, List.foldl_cons, List.foldl_nil]
  case rediscovery =>
    intro s c hdue hfirst hpending
    refine ⟨_, execRediscoveryStart_chain hdue hfirst hpending, ?_⟩
    obtain ⟨hmem, hout, hrediscover, hlast⟩ := ((s.rescan c).modChain c fun y => { y with
      rediscover := .none, pendingBroadcast := 0, lastRediscovery := some s.devMs }).rereadSlots_keeps c
    rw [hmem, hout, hrediscover, hlast, State.modChain_eq, State.setChain_chain_self, State.setChain_out,
      State.setChain_mem, State.rescan_chain hdue]
    refine ⟨rfl, rfl, ?_, rfl⟩
    simp [Nat.add_comm]

end Sys2Proof.Machine

namespace Sys2Proof.Machine

/-! ### Lanes -/

/-- From `s` to `t` the lanes of port `c` stay as they are, and its count of codewords; no handle's target changes, a
target that is lost stays lost, and what was sent stays sent. -/
structure State.KeepsLanes (c : Nat) (s t : State) : Prop where
  lanes : (t.chain c).lanes = (s.chain c).lanes
  fec : (t.chain c).fec = (s.chain c).fec
  attached : ∀ h, (t.handle h).attached = (s.handle h).attached
  lost : ∀ h, (s.handle h).lost = true → (t.handle h).lost = true
  out : s.out ⊆ t.out

section
variable {s t u : State} {c : Nat}

theorem State.KeepsLanes.refl (c : Nat) (s : State) : State.KeepsLanes c s s :=
  ⟨rfl, rfl, fun _ => rfl, fun _ => id, List.Subset.refl _⟩

theorem State.KeepsLanes.trans (h : State.KeepsLanes c s t) (k : State.KeepsLanes c t u) : State.KeepsLanes c s u :=
  ⟨k.lanes.trans h.lanes, k.fec.trans h.fec, fun n => (k.attached n).trans (h.attached n),
    fun n hn => k.lost n (h.lost n hn), List.Subset.trans h.out k.out⟩

theorem State.KeepsLanes.foldl {α : Type} {f : State → α → State} (h : ∀ s a, State.KeepsLanes c s (f s a))
    (l : List α) (s : State) : State.KeepsLanes c s (l.foldl f s) := by
  induction l generalizing s with
  | nil => exact .refl c s
  | cons a l ih => exact (h s a).trans (ih _)

theorem State.Reports.keepsLanes (h : s.Reports t) (c : Nat) : State.KeepsLanes c s t :=
  ⟨by rw [h.chain], by rw [h.chain], fun n => by rw [h.handle], fun n => by rw [h.handle]; exact id, h.out⟩

theorem State.emit_keepsLanes (s : State) (c : Nat) (o : Output) : State.KeepsLanes c s (s.emit o) :=
  ⟨rfl, rfl, fun _ => rfl, fun _ => id, List.subset_cons_self ..⟩

theorem State.modChain_keepsLanes (s : State) (c ch : Nat) {f : SasPort → SasPort}
    (hlanes : ∀ y, (f y).lanes = y.lanes) (hfec : ∀ y, (f y).fec = y.fec) : State.KeepsLanes c s (s.modChain ch f) :=
  ⟨State.modChain_keeps SasPort.lanes hlanes s ch c, State.modChain_keeps SasPort.fec hfec s ch c, fun _ => rfl,
    fun _ => id, List.Subset.refl _⟩

theorem State.setHandle_keepsLanes (s : State) {h : Nat} {x : Handle} (ha : x.attached = (s.handle h).attached)
    (hl : x.lost = true) : State.KeepsLanes c s (s.setHandle h x) := by
  refine ⟨rfl, rfl, fun n => ?_, fun n hn => ?_, List.Subset.refl _⟩
  · rw [State.setHandle_handle]
    split
    · next hn => rw [ha, hn]
    · rfl
  · rw [State.setHandle_handle]
    split
    · exact hl
    · exact hn

theorem State.loseTarget_keepsLanes (s : State) (c h : Nat) : State.KeepsLanes c s (s.loseTarget h) := by
  unfold State.loseTarget
  dsimp only
  split
  · exact (s.setHandle_keepsLanes (h := h) (x := { s.handle h with
        lost := true, lostMark := (s.chain (chainOfHandle h)).nextId }) rfl rfl).trans
      (State.modChain_keepsLanes _ c _ (fun _ => rfl) fun _ => rfl)
  · exact .refl c s

theorem State.abortCmd_keepsLanes (s : State) (c ch : Nat) (x : Cmd) (why : AbortWhy) :
    State.KeepsLanes c s (s.abortCmd ch x why) := by
  have hput : State.KeepsLanes c s (s.putCmd ch { x with why }) :=
    s.modChain_keepsLanes c ch (fun _ => rfl) fun _ => rfl
  unfold State.abortCmd
  dsimp only
  split
  · exact hput
  · exact hput.trans (State.modChain_keepsLanes _ c _ (fun _ => rfl) fun _ => rfl)

theorem State.breakCommands_keepsLanes (s : State) (c ch : Nat) (tags : List Nat) :
    State.KeepsLanes c s (s.breakCommands ch tags) := by
  refine State.KeepsLanes.foldl (fun s tag => ?_) tags s
  split
  · split
    · exact .refl c s
    · split
      · exact s.modChain_keepsLanes c ch (fun _ => rfl) fun _ => rfl
      · exact s.abortCmd_keepsLanes ..
  · exact .refl c s

theorem State.loseTargets_keepsLanes (s : State) (c : Nat) (l : List Nat) :
    State.KeepsLanes c s (l.foldl (fun (s : State) i => s.loseTarget (512 * c + i)) s) :=
  .foldl (fun s _ => s.loseTarget_keepsLanes c _) l s

theorem State.portDown_keepsLanes (s : State) (c : Nat) : State.KeepsLanes c s (s.portDown c) := by
  unfold State.portDown
  split
  · exact .refl c s
  · exact ((s.phyEvent_reports ..).keepsLanes c).trans (State.loseTargets_keepsLanes _ c _)

theorem State.resendResets_keepsLanes (s : State) (c : Nat) : State.KeepsLanes c s (s.resendResets c) := by
  unfold State.resendResets
  split
  · exact .refl c s
  · exact .foldl (fun s h => s.emit_keepsLanes c _) _ s

/-- A port that is down has lost every target of its chain (R272). -/
theorem State.portDown_lost {h : Nat} (hdown : (s.chain c).anyLane = false) (hh : chainOfHandle h = c)
    (ha : (s.handle h).attached.isSome = true) : ((s.portDown c).handle h).lost = true := by
  have hoffset : h % 512 ∈ List.range 512 := List.mem_range.mpr (Nat.mod_lt h (by decide))
  have hname : 512 * c + h % 512 = h := by rw [← hh]; exact Nat.div_add_mod h 512
  obtain ⟨before, after, hsplit⟩ := List.append_of_mem hoffset
  have htold := (s.phyEvent_reports c 0x06 0 0xFF 0xF).keepsLanes c
  have hbefore := htold.trans (State.loseTargets_keepsLanes _ c before)
  have hlost := (State.loseTarget_handle (before.foldl (fun (s : State) i => s.loseTarget (512 * c + i))
    (s.phyEvent c 0x06 0 0xFF 0xF)) h).2 (by rw [hbefore.attached]; exact ha)
  simp only [State.portDown, hdown, Bool.false_eq_true, if_false]
  rw [hsplit, List.foldl_append, List.foldl_cons, hname]
  exact (State.loseTargets_keepsLanes _ c after).lost h hlost

end

/-! #### Lanes that come up and go down -/

section
variable {s : State} {c lane : Nat}

/-- Credits extended change a lane's credits alone (R264). -/
theorem SasPort.extend_spec (y : SasPort) : ∃ lanes, y.extend = { y with lanes } ∧
    ∀ i, ∃ k, Tab.get lanes i {} = { y.lanes.get i {} with credits := k } := by
  refine List.foldlRecOn (motive := fun z : SasPort => ∃ lanes, z = { y with lanes } ∧
    ∀ i, ∃ k, Tab.get lanes i {} = { y.lanes.get i {} with credits := k }) _ _
    ⟨_, rfl, fun _ => ⟨_, rfl⟩⟩ fun z hz j _ => ?_
  obtain ⟨lanes, rfl, hz⟩ := hz
  unfold SasPort.extendLane
  dsimp only
  split
  · refine ⟨_, rfl, fun i => ?_⟩
    rw [Tab.get_set]
    split
    · next hi =>
      obtain ⟨k, hk⟩ := hz j
      exact ⟨_, by rw [hk, hi]⟩
    · exact hz i
  · exact ⟨_, rfl, hz⟩

/-- A port with a lane that comes up, which begins start-up discovery unless it is under way or over (R253). -/
def SasPort.laneRises (y : SasPort) (lane rate : Nat) : SasPort := ({ y with
  lanes := y.lanes.set lane { y.lanes.get lane {} with up := true, rate }
  discovering := y.discovering || (!y.discovering && !y.discovered) } : SasPort).extend

theorem SasPort.laneRises_spec (y : SasPort) (lane rate : Nat) :
    ((y.laneRises lane rate).lanes.get lane {}).up = true ∧ ((y.laneRises lane rate).lanes.get lane {}).rate = rate ∧
      (y.laneRises lane rate).discovering = (y.discovering || !y.discovered) := by
  obtain ⟨lanes, hextend, hlane⟩ := SasPort.extend_spec { y with
    lanes := y.lanes.set lane { y.lanes.get lane {} with up := true, rate }
    discovering := y.discovering || (!y.discovering && !y.discovered) }
  obtain ⟨k, hk⟩ := hlane lane
  rw [Tab.get_set_self] at hk
  rw [SasPort.laneRises, hextend]
  dsimp only
  rw [hk]
  exact ⟨rfl, rfl, by cases y.discovering <;> rfl⟩

/-- A lane comes up (R248, R253): the port is changed, the event told, and the phy identifies itself. -/
def State.laneRises (s : State) (c lane rate : Nat) : State :=
  ((s.setChain c ((s.chain c).laneRises lane rate)).phyEvent c 0x01 0 lane rate).emit
    (.identify c lane (Config.sasAddress c))

theorem execLaneUp_rises {rate : BitVec 2} (hrun : s.sasRuns = true) (hdown : ((s.chain c).lanes.get lane {}).up = false)
    (hen : ((s.chain c).lanes.get lane {}).disabled = false) (hlane : (s.chain c).laneEn.getLsbD lane = true)
    (hmax : (s.chain c).maxRate ≤ rate.toNat) (hrate : rate ≠ 3) : exec (.laneUp c lane rate) s = .next
      (if !(s.chain c).discovering && !(s.chain c).discovered then
        (s.laneRises c lane rate.toNat).emit (.reportGeneral c none)
      else s.laneRises c lane rate.toNat) := by
  have hrate' : ¬ rate = 3#2 := hrate
  simp [execLaneUp, State.laneRises, SasPort.laneRises, hrun, hdown, hen, hlane, Nat.not_lt.mpr hmax, hrate']

/-- A lane that has lost its link, with its credits and its connection, and has these link resets behind it (R270,
R271). -/
def Lane.down (l : Lane) (resets : List Nat) : Lane :=
  { l with up := false, rate := 3, credits := 0, conn := none, resets }

/-- The lane's link resets of the last 10 s (R271). -/
def State.recentResets (s : State) (c lane : Nat) : List Nat :=
  ((s.chain c).lanes.get lane {}).resets.filter fun t => s.devMs < t + 10000

/-- What follows where a lane has failed: the port may be down, the lane's connection breaks, and a HARD RESET goes out
on another lane (R270, R272, R279). -/
def State.laneFails (s : State) (c : Nat) (tags : List Nat) : State :=
  ((s.portDown c).breakCommands c tags).resendResets c

theorem State.laneFails_keepsLanes (s : State) (c : Nat) (tags : List Nat) : State.KeepsLanes c s (s.laneFails c tags) :=
  ((s.portDown_keepsLanes c).trans (State.breakCommands_keepsLanes _ c c tags)).trans (State.resendResets_keepsLanes _ c)

/-- A lane is link-reset, which is counted and told (R271). -/
def State.laneReset (s : State) (c lane : Nat) (l : Lane) (count : Nat) : State :=
  (((s.phyEvent c 0x02 0 lane 0xF).modChain c fun y => { y with
    lanes := y.lanes.set lane l, linkResets := Nat.min (y.linkResets + 1) (2 ^ 32 - 1) }).phyEvent c 0x03 count lane
      0xF).emit (.sasReset c lane)

/-- A lane is disabled, which is told. -/
def State.laneDisabled (s : State) (c lane : Nat) (l : Lane) : State :=
  ((s.phyEvent c 0x02 0 lane 0xF).modChain c fun y => { y with lanes := y.lanes.set lane l }).phyEvent c 0x04 0 lane 0xF

theorem State.laneReset_chain (s : State) (c lane : Nat) (l : Lane) (count : Nat) :
    ((s.laneReset c lane l count).chain c).lanes = (s.chain c).lanes.set lane l ∧
      ((s.laneReset c lane l count).chain c).fec = (s.chain c).fec := by
  rw [State.laneReset, State.emit_chain, (State.phyEvent_reports _ c 0x03 count lane 0xF).chain, State.modChain_eq,
    State.setChain_chain_self, (s.phyEvent_reports c 0x02 0 lane 0xF).chain]
  exact ⟨rfl, rfl⟩

theorem State.laneDisabled_lanes (s : State) (c lane : Nat) (l : Lane) :
    ((s.laneDisabled c lane l).chain c).lanes = (s.chain c).lanes.set lane l := by
  rw [State.laneDisabled, (State.phyEvent_reports _ c 0x04 0 lane 0xF).chain, State.modChain_eq,
    State.setChain_chain_self, (s.phyEvent_reports c 0x02 0 lane 0xF).chain]

/-- The reset lane stays as it is through what follows, and the reset has been sent. -/
theorem State.laneReset_fails (s : State) (c lane : Nat) (l : Lane) (count : Nat) (tags : List Nat) :
    (((s.laneReset c lane l count).laneFails c tags).chain c).lanes = (s.chain c).lanes.set lane l ∧
      (((s.laneReset c lane l count).laneFails c tags).chain c).fec = (s.chain c).fec ∧
      Output.sasReset c lane ∈ ((s.laneReset c lane l count).laneFails c tags).out := by
  have hfails := State.laneFails_keepsLanes (s.laneReset c lane l count) c tags
  obtain ⟨hlanes, hfec⟩ := s.laneReset_chain c lane l count
  exact ⟨hfails.lanes.trans hlanes, hfails.fec.trans hfec, hfails.out (List.mem_cons_self ..)⟩

/-- A lane with fewer than three link resets in 10 s is link-reset (R271). -/
theorem State.resetLane_resets (hfew : (s.recentResets c lane).length < 3) :
    ((s.resetLane c lane).chain c).lanes = (s.chain c).lanes.set lane
      (((s.chain c).lanes.get lane {}).down (s.recentResets c lane ++ [s.devMs])) ∧
    ((s.resetLane c lane).chain c).fec = (s.chain c).fec ∧ Output.sasReset c lane ∈ (s.resetLane c lane).out := by
  have hreset : s.resetLane c lane = (s.laneReset c lane
      (((s.chain c).lanes.get lane {}).down (s.recentResets c lane ++ [s.devMs]))
      ((s.recentResets c lane).length + 1)).laneFails c ((s.chain c).carried lane) := if_neg (Nat.not_le.mpr hfew)
  rw [hreset]
  exact State.laneReset_fails ..

/-- On the fourth it is disabled. -/
theorem State.resetLane_disables (hmany : 3 ≤ (s.recentResets c lane).length) :
    ((s.resetLane c lane).chain c).lanes = (s.chain c).lanes.set lane
      { ((s.chain c).lanes.get lane {}).down (s.recentResets c lane) with disabled := true } := by
  have hreset : s.resetLane c lane = (s.laneDisabled c lane { ((s.chain c).lanes.get lane {}).down
      (s.recentResets c lane) with disabled := true }).laneFails c ((s.chain c).carried lane) := if_pos hmany
  rw [hreset]
  exact (State.laneFails_keepsLanes _ c ((s.chain c).carried lane)).lanes.trans (State.laneDisabled_lanes ..)

/-- The seventeenth uncorrectable codeword of a lane at 22.5 Gbit/s is counted and told (R271). -/
def State.codewordsLost (s : State) (c lane : Nat) : State :=
  (s.modChain c fun x => { x with fec := Nat.min (x.fec + 17) (2 ^ 32 - 1) }).phyEvent c 0x05 0 lane 0

theorem State.codewordsLost_chain (s : State) (c lane : Nat) : (s.codewordsLost c lane).chain c =
    { s.chain c with fec := Nat.min ((s.chain c).fec + 17) (2 ^ 32 - 1) } := by
  rw [State.codewordsLost, (State.phyEvent_reports _ c 0x05 0 lane 0).chain, State.modChain_eq, State.setChain_chain_self]

theorem execFecThreshold_resets (hup : ((s.chain c).lanes.get lane {}).up = true)
    (hrate : ((s.chain c).lanes.get lane {}).rate = 0) :
    exec (.fecThreshold c lane) s = .next ((s.codewordsLost c lane).resetLane c lane) := by
  simp [execFecThreshold, State.codewordsLost, hup, hrate]

/-! #### Port-level resets -/

/-- A lane whose disabling has ended (R272). -/
def Lane.enabled (l : Lane) : Lane := { l with disabled := false, resets := [] }

theorem execPortResetAttempt_succeeds (hrun : s.sasRuns = true) (hdown : (s.chain c).anyLane = false) :
    exec (.portResetAttempt c true) s = .next ((((s.emit (.sasReset c 4)).applyLink c).modChain c fun x => { x with
      lanes := Tab.mapVals x.lanes Lane.enabled, rediscover := .top }).phyEvent c 0x07 0 0xFF 0xF) := by
  simp only [exec_portResetAttempt, execPortResetAttempt, hrun, hdown]
  rfl

/-- The port-level reset at which a changed link function takes effect (R275). -/
def State.linkApplied (s : State) (c : Nat) : State :=
  ((s.applyLink c).modChain c fun x => { x with lanes := [], rediscover := .top }).emit (.sasReset c 4)

theorem State.linkApplied_chain (hpending : (s.chain c).linkPending = true) : (s.linkApplied c).chain c =
    { (s.chain c).linked (s.manage.sas.link c) with lanes := [], rediscover := .top } := by
  simp [State.linkApplied, State.applyLink, hpending]

theorem execChainLinkResetApply_applies (hpending : (s.chain c).linkPending = true)
    (hidle : ∀ i, i < 4 → (s.shelf (4 * c + i)).holds = false) : exec (.chainLinkResetApply c) s =
      .next (if (s.chain c).anyLane then
        ((s.linkApplied c).portDown c).breakCommands c ((List.range 4).flatMap (s.chain c).carried)
      else s.linkApplied c) := by
  have hfree : ((List.range 4).any fun i => (s.shelf (4 * c + i)).holds) = false :=
    List.any_eq_false.mpr fun i hi => by simp [hidle i (List.mem_range.mp hi)]
  simp only [exec_chainLinkResetApply, execChainLinkResetApply, hpending, hfree, Bool.not_true, Bool.or_self,
    Bool.false_eq_true, if_false]
  rfl

end

/-- Settles O25: a lane that comes up, one that is reset or disabled by `State.resetLane_resets` and
`State.resetLane_disables`, and the two port-level resets by what they leave of the port. -/
theorem lanesComeAndGo : Obligations.LanesComeAndGo := by
  refine ⟨?up, ?resets, ?disables, ?codewords, ?port, ?link, ?portDown⟩
  case up =>
    intro s c lane rate hrun hdown hen hlane hmax hrate
    have htold := State.phyEvent_reports (s.setChain c ((s.chain c).laneRises lane rate.toNat)) c 0x01 0 lane rate.toNat
    have hchain : (s.laneRises c lane rate.toNat).chain c = (s.chain c).laneRises lane rate.toNat :=
      (htold.chain c).trans (State.setChain_chain_self ..)
    obtain ⟨hup, hspeed, hdisc⟩ := (s.chain c).laneRises_spec lane rate.toNat
    rw [← hchain] at hup hspeed hdisc
    have hsent : Output.identify c lane (Config.sasAddress c) ∈ (s.laneRises c lane rate.toNat).out :=
      List.mem_cons_self ..
    refine ⟨_, execLaneUp_rises hrun hdown hen hlane hmax hrate, ?_⟩
    split
    · exact ⟨hup, hspeed, hdisc, htold.mem, List.mem_cons_of_mem _ hsent⟩
    · exact ⟨hup, hspeed, hdisc, htold.mem, hsent⟩
  case resets =>
    intro s c lane hup hnone
    have hrecent : s.recentResets c lane = [] := by rw [State.recentResets, hnone]; rfl
    obtain ⟨hlanes, -, hout⟩ := State.resetLane_resets (s := s) (c := c) (lane := lane) (by rw [hrecent]; decide)
    refine ⟨_, congrArg Host.Outcome.next (if_pos hup), ?_⟩
    rw [hlanes, Tab.get_set_self, hrecent]
    exact ⟨rfl, rfl, rfl, hout⟩
  case disables =>
    intro s c lane t1 t2 t3 hup hresets h1 h2 h3
    have hrecent : s.recentResets c lane = [t1, t2, t3] := by simp [State.recentResets, hresets, h1, h2, h3]
    refine ⟨_, congrArg Host.Outcome.next (if_pos hup), ?_⟩
    rw [State.resetLane_disables (by rw [hrecent]; exact Nat.le_refl 3), Tab.get_set_self]
    exact ⟨rfl, rfl⟩
  case codewords =>
    intro s c lane hup hrate hnone
    have hchain := s.codewordsLost_chain c lane
    have hrecent : (s.codewordsLost c lane).recentResets c lane = [] := by
      rw [State.recentResets, hchain, hnone]; rfl
    obtain ⟨hlanes, hfec, hout⟩ := State.resetLane_resets (s := s.codewordsLost c lane) (c := c) (lane := lane)
      (by rw [hrecent]; decide)
    refine ⟨_, execFecThreshold_resets hup hrate, ?_⟩
    rw [hlanes, Tab.get_set_self, hfec, hchain]
    exact ⟨rfl, hout, rfl⟩
  case port =>
    intro s c hrun hdown
    refine ⟨_, execPortResetAttempt_succeeds hrun hdown, ?_⟩
    have htold := State.phyEvent_reports (((s.emit (.sasReset c 4)).applyLink c).modChain c fun x => { x with
      lanes := Tab.mapVals x.lanes Lane.enabled, rediscover := .top }) c 0x07 0 0xFF 0xF
    rw [htold.chain, htold.mem, State.modChain_eq, State.setChain_chain_self]
    refine ⟨rfl, fun i => ?_, htold.out (List.mem_cons_self ..), rfl⟩
    exact congrArg Lane.disabled (Tab.get_mapVals _ Lane.enabled i {})
  case link =>
    intro s c hpending hdown hidle hexpert
    refine ⟨s.linkApplied c, ?_, ?_, rfl, rfl⟩
    · rw [execChainLinkResetApply_applies hpending hidle, hdown]
      rfl
    · rw [State.linkApplied_chain hpending, SasCfg.link, if_pos hexpert]
      rfl
  case portDown =>
    intro s c hpending hup hidle
    refine ⟨_, (execChainLinkResetApply_applies hpending hidle).trans (congrArg _ (if_pos hup)), ?_⟩
    have hbreak := State.breakCommands_keepsLanes ((s.linkApplied c).portDown c) c c
      ((List.range 4).flatMap (s.chain c).carried)
    have hchain := State.linkApplied_chain hpending
    have hdown : ((s.linkApplied c).chain c).anyLane = false := by rw [hchain]; rfl
    refine ⟨?_, fun h hh ha => hbreak.lost h (State.portDown_lost hdown hh ha)⟩
    rw [((State.portDown_keepsLanes _ c).trans hbreak).lanes, hchain]

end Sys2Proof.Machine

/-! PROOFS. Loads: the timetable, recipes and the key store. -/

namespace Sys2Proof.Machine

/-! ### A load that the principal asks for -/

section
variable {s : State} {src : KilvorSrc}

/-- What answers a request whose reply area lies in an ACTIVE stack is done at once. -/
theorem State.kready_awake (h : s.kAwake src = true) (f : State → State) : s.kready src f = f s := by
  cases src with
  | mctp path body => rfl
  | service =>
    cases hsv : s.service with
    | nil => simp [State.kready, hsv]
    | cons v rest =>
      simp only [State.kready, hsv]
      split
      case isFalse => rfl
      case isTrue hv =>
        obtain ⟨hm, hw, -⟩ : v.mctp = none ∧ v.word 2 = 1 ∧ _ := by simpa [State.replyArea] using hv
        simp only [State.kAwake, hsv, hm, hw, Option.isSome_none, ne_eq, not_true_eq_false, decide_false,
          Bool.false_or, Bool.and_eq_true, List.all_append, List.all_eq_true, decide_eq_true_eq] at h
        exact State.whenAwake_active h.1.1 f

/-- A load with its operation's payload at hand: the form is checked, and then it is done. -/
theorem State.kasked_load {code op : Nat} {b : List Byte} (h : LoadRequest s src code op b) :
    ∃ r, s.served src code r ∧ r.payload = b ∧ byteAt b 0 = op ∧ ∀ (ok : List Byte → Bool) (f : State → List Byte → State),
      s.kasked src r ok f = if ok b then f s b else s.kreply src 3 [] := by
  obtain ⟨r, hr, hs, hc, hp, rfl, hop, ha⟩ := h
  refine ⟨r, ⟨hr, ha, hs, hc⟩, rfl, hop, fun ok f => ?_⟩
  rw [State.kasked, State.kwake_awake ha, hp]
  cases ok r.payload <;> rfl

end

/-! ### LOAD-TIMETABLE -/

section
variable {s : State} {src : KilvorSrc} {op : Nat} {b : List Byte} {ok : List Byte → Bool} {f : State → List Byte → State}

/-- LOAD-TIMETABLE takes the operation now: the level is expert, no swap is armed, and staging is open but for BEGIN. -/
def State.tableOpen (s : State) (op : Nat) : Prop :=
  s.manage.timetable.expert = true ∧ (∀ q, q < 4 → (s.quarter q).shadowArm = false) ∧
    (op ≠ 1 → s.manage.timetable.staging = true)

/-- A swap is armed, or, but for BEGIN, staging is closed. -/
def State.tableBusy (s : State) (op : Nat) : Bool :=
  ((List.range 4).any fun q => (s.quarter q).shadowArm) || (op ≠ 1 && !s.manage.timetable.staging)

theorem State.tableBusy_armed {q : Nat} (hq : q < 4) (h : (s.quarter q).shadowArm = true) : s.tableBusy op = true := by
  rw [State.tableBusy, List.any_eq_true.mpr ⟨q, List.mem_range.mpr hq, h⟩, Bool.true_or]

theorem State.tableBusy_closed (hop : op ≠ 1) (h : s.manage.timetable.staging = false) : s.tableBusy op = true := by
  simp [State.tableBusy, hop, h]

theorem State.tableOpen.not_busy (h : s.tableOpen op) : s.tableBusy op = false := by
  obtain ⟨-, hfree, hstaging⟩ := h
  have hnone : ((List.range 4).any fun q => (s.quarter q).shadowArm) = false :=
    List.any_eq_false.mpr fun q hq => by simp [hfree q (List.mem_range.mp hq)]
  by_cases hop : op = 1
  · simp [State.tableBusy, hnone, hop]
  · simp [State.tableBusy, hnone, hstaging hop]

/-- What a LOAD-TIMETABLE that is served at once answers. -/
theorem State.ktable_asked (h : LoadRequest s src 0x07 op b) (ok : List Byte → Bool) (f : State → List Byte → State) :
    s.ktable src op ok f =
      if ok b then
        if !s.manage.timetable.expert then s.kreply src 3 []
        else if s.tableBusy op then s.kreply src 1 [] else f s b
      else s.kreply src 3 [] := by
  obtain ⟨r, ⟨hr, -, hs, hc⟩, rfl, hop, hasked⟩ := State.kasked_load h
  rw [State.ktable, State.kfor_asked hr hs hc, if_neg (not_not_intro hop), hasked]
  rfl

theorem State.ktable_open (h : LoadRequest s src 0x07 op b) (ho : s.tableOpen op) (hok : ok b = true) :
    s.ktable src op ok f = f s b := by
  rw [State.ktable_asked h, ho.not_busy, ho.1, hok]
  rfl

/-- Every command of LOAD-TIMETABLE is a `ktable` of its operation, which accepts the payloads of that operation's form. -/
theorem exec_tableCommand {c : Instr} (h : tableCommand c = some (src, op)) :
    ∃ ok f, (∀ b, byteAt b 0 = op → ok b = tableForm b) ∧ ∀ s, exec c s = .next (s.ktable src op ok f) := by
  unfold tableCommand at h
  split at h
  case h_5 => cases h
  all_goals
    obtain ⟨rfl, rfl⟩ : _ = src ∧ _ = op := by simpa using h
    exact ⟨_, _, fun b hb => by simp [tableForm, hb], fun _ => rfl⟩

theorem exec_tableCommand_asked {c : Instr} (hc : tableCommand c = some (src, op)) (h : LoadRequest s src 0x07 op b) :
    ∃ t : State, exec c s = .next (
      if tableForm b then
        if !s.manage.timetable.expert then s.kreply src 3 []
        else if s.tableBusy op then s.kreply src 1 [] else t
      else s.kreply src 3 []) := by
  obtain ⟨ok, f, hok, hexec⟩ := exec_tableCommand hc
  obtain ⟨r, -, -, hop, -⟩ := State.kasked_load h
  exact ⟨_, by rw [hexec, State.ktable_asked h, hok b hop]⟩

theorem exec_tableCommand_invalid {c : Instr} (hc : tableCommand c = some (src, op)) (h : LoadRequest s src 0x07 op b)
    (hbad : tableForm b = false ∨ s.manage.timetable.expert = false) : exec c s = .next (s.kreply src 3 []) := by
  obtain ⟨t, hexec⟩ := exec_tableCommand_asked hc h
  rw [hexec]
  rcases hbad with hbad | hbad
  · rw [hbad]; rfl
  · rw [hbad]; exact congrArg _ (ite_self _)

theorem exec_tableCommand_busy {c : Instr} (hc : tableCommand c = some (src, op)) (h : LoadRequest s src 0x07 op b)
    (hform : tableForm b = true) (hexp : s.manage.timetable.expert = true) (hbusy : s.tableBusy op = true) :
    exec c s = .next (s.kreply src 1 []) := by
  obtain ⟨t, hexec⟩ := exec_tableCommand_asked hc h
  rw [hexec, hform, hexp, hbusy]
  rfl

/-! #### All four quarters changed -/

/-- Quarters 0 to `n - 1`, each changed the same way. -/
def State.modQuarters (s : State) (n : Nat) (g : Quarter → Quarter) : State :=
  (List.range n).foldl (fun (s : State) q => s.modQuarter q g) s

theorem State.modQuarters_succ (s : State) (n : Nat) (g : Quarter → Quarter) :
    s.modQuarters (n + 1) g = (s.modQuarters n g).modQuarter n g := by
  simp [State.modQuarters, List.range_succ]

@[simp] theorem State.modQuarters_mem (s : State) (n : Nat) (g : Quarter → Quarter) : (s.modQuarters n g).mem = s.mem :=
  foldl_keeps State.mem (by intros; rfl) _ s

theorem State.modQuarters_quarter (s : State) (n q : Nat) (g : Quarter → Quarter) :
    (s.modQuarters n g).quarter q = if q < n then g (s.quarter q) else s.quarter q := by
  induction n with
  | zero => rfl
  | succ n ih =>
    rw [State.modQuarters_succ, State.modQuarter_eq, State.setQuarter_quarter]
    by_cases hq : q = n
    · subst hq
      rw [if_pos rfl, if_pos (Nat.lt_succ_self q), ih, if_neg (Nat.lt_irrefl q)]
    · have hlt : q < n + 1 ↔ q < n := by omega
      simp only [hq, if_false, hlt, ih]

/-! #### The operations -/

/-- BEGIN: every shadow bank takes the rows of its active bank. -/
theorem execTimetableBegin_open (h : LoadRequest s src 0x07 1 b) (ho : s.tableOpen 1)
    (hform : (b.length = 8 && zeroAt b 1 7) = true) : exec (.timetableBegin src) s = .next
      (((s.modQuarters 4 fun x => x.setShadow x.activeBank).setStaging true).kreply src 0 []) :=
  congrArg Host.Outcome.next (State.ktable_open h ho hform)

/-- ROWS that names one row. -/
theorem execTimetableRows_one (h : LoadRequest s src 0x07 2 b) (ho : s.tableOpen 2) (hlen : b.length = 24)
    (hq : byteAt b 1 < 4) (hn : fieldAt b 4 2 = 1) (hfirst : fieldAt b 2 2 < 4096) (hz : zeroAt b 6 2 = true) :
    exec (.timetableRows src) s = .next ((s.setQuarter (byteAt b 1) ((s.quarter (byteAt b 1)).setShadow
      (putRow (s.quarter (byteAt b 1)).shadowBank (fieldAt b 2 2) (BitVec.ofNat 128 (fieldAt b 8 16))))).kreply
        src 0 []) := by
  rw [exec_timetableRows, execTimetableRows, State.ktable_open h ho]
  · simp [hn]
  · have hle : fieldAt b 2 2 + 1 ≤ 4096 := hfirst
    simp [hlen, hq, hn, hle, hz]

/-- Every quarter is armed to swap its whole timetable at a superframe. -/
def State.armTables (s : State) (at_ : BitVec 32) : State :=
  s.modQuarters 4 fun x => { x with shadowArm := true, swapAt := at_, armedKind := .full }

/-- What a COMMIT makes of the shadow banks: the check that fails, the CRC, or the swap four superframes ahead. -/
theorem execTimetableCommit_open (h : LoadRequest s src 0x07 3 b) (ho : s.tableOpen 3)
    (hform : (b.length = 8 && zeroAt b 1 3) = true) :
    (∀ k q n, tableFailure s.shadowTables s.activeTables (fun e => (s.engine e).committed) = some (k, q, n) →
      exec (.timetableCommit src) s =
        .next (s.kreply src 3 ([0] ++ leBytes 1 k ++ leBytes 1 q ++ [0] ++ leBytes 2 n ++ [0, 0]))) ∧
    (tableFailure s.shadowTables s.activeTables (fun e => (s.engine e).committed) = none →
      exec (.timetableCommit src) s = .next (
        if crc32 ((List.range 4).flatMap fun q => bankBytes (s.shadowTables q)) ≠ BitVec.ofNat 32 (fieldAt b 4 4) then
          s.kreply src 3 [0, 0x0F, 0, 0, 0, 0, 0, 0]
        else ((s.armTables ((s.quarter 0).sf + 4)).setStaging false).kreply src 0
          ([0, 0, 0, 0] ++ leBytes 4 ((s.quarter 0).sf + 4).toNat))) := by
  rw [exec_timetableCommit, execTimetableCommit, State.ktable_open h ho hform]
  constructor
  · intro k q n hfail
    simp only [hfail]
  · intro hpass
    simp only [hpass]
    rfl

theorem execTimetableAbort_open (h : LoadRequest s src 0x07 4 b) (ho : s.tableOpen 4)
    (hform : (b.length = 8 && zeroAt b 1 7) = true) :
    exec (.timetableAbort src) s = .next ((s.setStaging false).kreply src 0 []) :=
  congrArg Host.Outcome.next (State.ktable_open h ho hform)

end

/-! ### LOAD-RECIPE -/

section
variable {s : State} {src : KilvorSrc} {op : Nat} {b : List Byte} {ok : List Byte → Bool} {f : State → List Byte → State}

/-- LOAD-RECIPE takes the operation: the level is expert, and the payload names an engine and a slot (R358). -/
def State.recipeNamed (s : State) (b : List Byte) : Prop :=
  s.manage.recipesExpert = true ∧ byteAt b 1 < 12 ∧ byteAt b 2 < 16 ∧ byteAt b 3 = 0

theorem State.krecipe_named (h : LoadRequest s src 0x08 op b) (hn : s.recipeNamed b) (hlen : 8 ≤ b.length)
    (hok : ok b = true) : s.krecipe src op ok f = f s b := by
  obtain ⟨r, ⟨hr, -, hs, hc⟩, rfl, hop, hasked⟩ := State.kasked_load h
  obtain ⟨hexp, hengine, hslot, hres⟩ := hn
  rw [State.krecipe, State.kfor_asked hr hs hc, if_neg (not_not_intro hop), hasked]
  simp [hexp, hengine, hslot, hres, hlen, hok]

/-- The payload of COMMIT and of ERASE: the engine, the slot and reserved bytes. -/
theorem State.krecipe_slot (h : LoadRequest s src 0x08 op b) (hn : s.recipeNamed b) (hlen : b.length = 8)
    (hz : zeroAt b 4 4 = true) : s.krecipe src op (fun b => b.length = 8 && zeroAt b 4 4) f = f s b :=
  State.krecipe_named h hn (Nat.le_of_eq hlen.symm) (by simp [hlen, hz])

/-- The staging of a slot that the payload of a WRITE at OFFSET 0 opens. -/
def stagedFrom (b : List Byte) : Staging :=
  { slot := byteAt b 2, bytes := Tab.setRun [] 0 (b.length - 8) fun i => b.getD (8 + i) 0 }

theorem stagedFrom_find {i : Nat} (h : 8 + i < b.length) : (stagedFrom b).bytes.find i = some (b.getD (8 + i) 0) := by
  rw [stagedFrom, Tab.setRun_find, if_pos (by omega), Nat.sub_zero]

theorem execRecipeWrite_first (h : LoadRequest s src 0x08 1 b) (hn : s.recipeNamed b) (hlen : b.length = 12)
    (hoff : fieldAt b 4 2 = 0) (hcount : fieldAt b 6 2 = 4) : exec (.recipeWrite src) s = .next
      ((s.setEngine (byteAt b 1) { s.engine (byteAt b 1) with staging := some (stagedFrom b) }).kreply src 0 []) := by
  rw [exec_recipeWrite, execRecipeWrite, State.krecipe_named h hn (by omega) (by simp [hlen, hoff, hcount])]
  simp only [hoff, if_true]
  rfl

theorem execRecipeCommit_takes {g : Staging} (h : LoadRequest s src 0x08 2 b) (hn : s.recipeNamed b)
    (hlen : b.length = 8) (hz : zeroAt b 4 4 = true) (hfree : (s.engine (byteAt b 1)).namesSlot (byteAt b 2) = false)
    (hg : (s.engine (byteAt b 1)).staging = some g) (hslot : g.slot = byteAt b 2) (himage : imageOk g.bytes = true) :
    exec (.recipeCommit src) s = .next ((s.setEngine (byteAt b 1) { s.engine (byteAt b 1) with
      slots := (s.engine (byteAt b 1)).slots.set (byteAt b 2) (imageOf g.bytes)
      eraseSlots := (s.engine (byteAt b 1)).eraseSlots.erase (byteAt b 2), staging := none }).kreply src 0 []) := by
  rw [exec_recipeCommit, execRecipeCommit, State.krecipe_slot h hn hlen hz]
  simp [hfree, hg, hslot, himage]

theorem execRecipeCommit_named (h : LoadRequest s src 0x08 2 b) (hn : s.recipeNamed b) (hlen : b.length = 8)
    (hz : zeroAt b 4 4 = true) (hused : (s.engine (byteAt b 1)).namesSlot (byteAt b 2) = true) :
    exec (.recipeCommit src) s = .next (s.kreply src 1 []) := by
  rw [exec_recipeCommit, execRecipeCommit, State.krecipe_slot h hn hlen hz]
  simp [hused]

theorem execRecipeErase_free (h : LoadRequest s src 0x08 3 b) (hn : s.recipeNamed b) (hlen : b.length = 8)
    (hz : zeroAt b 4 4 = true) (hfree : (s.engine (byteAt b 1)).namesSlot (byteAt b 2) = false) :
    exec (.recipeErase src) s = .next ((s.setEngine (byteAt b 1) { s.engine (byteAt b 1) with
      slots := (s.engine (byteAt b 1)).slots.erase (byteAt b 2) }).kreply src 0 []) := by
  rw [exec_recipeErase, execRecipeErase, State.krecipe_slot h hn hlen hz]
  simp [hfree]

end

/-! ### KEY-OP -/

section
variable {s : State} {src : KilvorSrc} {op len : Nat} {r : KReq} {k : BitVec 256}

/-- A key operation on an entry that exists is done at once, but KEY_LOAD over a path that takes no keys is DENIED
(R391). -/
theorem State.kkey_asked (h : KeyRequest s src op len r) (f : State → List Byte → State) :
    s.kkey src op len f = if op = 1 && !r.keyPath then s.kreply src 2 [] else f s r.payload := by
  obtain ⟨hr, hs, hc, hp, hop, hlen, hport, hentry, hfree, ha⟩ := h
  have hturn : (decide (src = .service) && s.manage.keyReply.any fun w => decide (w.1 = .service)) = false := by
    by_cases hsrc : src = .service
    · rw [hfree hsrc, Bool.and_false]
    · rw [decide_eq_false hsrc, Bool.false_and]
  rw [State.kkey, State.kfor_asked hr hs hc]
  simp only [hop, hturn, State.kready_awake ha, State.kasked, State.kwake_awake ha]
  simp [hp, hlen, hport, hentry]

theorem State.kkey_keyPath (h : KeyRequest s src op len r) (hpath : r.keyPath = true) (f : State → List Byte → State) :
    s.kkey src op len f = f s r.payload := by
  rw [State.kkey_asked h, hpath, Bool.not_true, Bool.and_false, if_neg Bool.false_ne_true]

/-- An operation that is not KEY_LOAD needs no path for keys. -/
theorem State.kkey_anyPath (h : KeyRequest s src op len r) (hop : op ≠ 1) (f : State → List Byte → State) :
    s.kkey src op len f = f s r.payload := by
  rw [State.kkey_asked h, decide_eq_false hop, Bool.false_and, if_neg Bool.false_ne_true]

theorem execKeyLoad_denied (h : KeyRequest s src 1 36 r) (hpath : r.keyPath = false) :
    exec (.keyLoad src) s = .next (s.kreply src 2 []) := by
  rw [exec_keyLoad, execKeyLoad, State.kkey_asked h, hpath]
  rfl

theorem execKeyLoad_empty (h : KeyRequest s src 1 36 r) (hpath : r.keyPath = true)
    (hk : s.manage.keys.find (keyEntry r.payload) = none) : exec (.keyLoad src) s = .next
      (s.keyChanged src (keyEntry r.payload) (some (BitVec.ofNat 256 (beNat (r.payload.drop 4))))) := by
  rw [exec_keyLoad, execKeyLoad, State.kkey_keyPath h hpath]
  simp only [hk]

theorem execKeyLoad_full (h : KeyRequest s src 1 36 r) (hpath : r.keyPath = true)
    (hk : s.manage.keys.find (keyEntry r.payload) = some k) :
    exec (.keyLoad src) s = .next (s.kreply src 4 (keyData (some k))) := by
  rw [exec_keyLoad, execKeyLoad, State.kkey_keyPath h hpath]
  simp only [hk]

theorem execKeyGenerate_empty (h : KeyRequest s src 2 4 r) (hk : s.manage.keys.find (keyEntry r.payload) = none) :
    exec (.keyGenerate src) s = .next (({ s with fresh := s.fresh + 1 } : State).keyChanged src (keyEntry r.payload)
      (some (Config.randomKey s.fresh))) := by
  rw [exec_keyGenerate, execKeyGenerate, State.kkey_anyPath h (by decide)]
  simp only [hk]

theorem execKeyGenerate_full (h : KeyRequest s src 2 4 r) (hk : s.manage.keys.find (keyEntry r.payload) = some k) :
    exec (.keyGenerate src) s = .next (s.kreply src 4 (keyData (some k))) := by
  rw [exec_keyGenerate, execKeyGenerate, State.kkey_anyPath h (by decide)]
  simp only [hk]

/-- The sealed copy is written over the older of the two, and the oldest operation is answered (R392). -/
theorem execKeystoreSealDone_answers {data : List Byte} {rest : List (KilvorSrc × List Byte)}
    (h : s.manage.keyReply = (src, data) :: rest) (ha : s.kAwake src = true) :
    exec .keystoreSealDone s = .next ((({ s with
      flash := { s.flash with keys := s.manage.keys, keyCopy := !s.flash.keyCopy }
      manage := { s.manage with keyReply := rest } } : State).spi
        (sealOps s.manage.keys (!s.flash.keyCopy))).kreply src 0 data) := by
  rw [exec_keystoreSealDone, execKeystoreSealDone]
  simp only [h, State.kready_awake ha]

end

/-- Settles O41: an operation of a load is done by the rule of its command (`State.ktable_open`, `State.krecipe_named`,
`State.kkey_asked`), and one of LOAD-TIMETABLE that is refused by `exec_tableCommand_asked`. -/
theorem tablesRecipesAndKeysAreLoaded : Obligations.TablesRecipesAndKeysAreLoaded := by
  refine ⟨?begin, ?basic, ?rows, ?commit, ?abort, ?write, ?takes, ?named, ?erase, ?load, ?loadFull, ?loadDenied,
    ?generate, ?keyErase, ?check, ?sealed, ?invalid, ?armed, ?closed, ?generateFull⟩
  case begin =>
    intro s src b h hlen hz hexp hfree
    refine ⟨_, execTimetableBegin_open h ⟨hexp, hfree, fun hne => absurd rfl hne⟩ (by simp [hlen, hz]), rfl,
      State.modQuarters_mem .., fun q hq => ?_⟩
    have hquarter := s.modQuarters_quarter 4 q fun x => x.setShadow x.activeBank
    rw [if_pos hq] at hquarter
    exact ⟨(congrArg Quarter.shadowBank hquarter).trans (Quarter.setShadow_shadowBank ..),
      (congrArg Quarter.activeBank hquarter).trans (Quarter.setShadow_activeBank ..)⟩
  case basic =>
    exact fun s src b h _ _ hexp => exec_tableCommand_invalid (c := .timetableBegin src) rfl h (.inr hexp)
  case rows =>
    exact fun s src b h hlen hq hn hfirst hz hexp hst hfree =>
      execTimetableRows_one h ⟨hexp, hfree, fun _ => hst⟩ hlen hq hn hfirst hz
  case commit =>
    intro s src b h hlen hz hexp hst hfree
    obtain ⟨hfails, hpasses⟩ := execTimetableCommit_open h ⟨hexp, hfree, fun _ => hst⟩ (by simp [hlen, hz])
    rcases htable : tableFailure s.shadowTables s.activeTables (fun e => (s.engine e).committed) with _ | ⟨k, q, n⟩
    case some => exact ⟨s, 3, _, hfails k q n htable, rfl, rfl, rfl⟩
    case none =>
      by_cases hcrc : crc32 ((List.range 4).flatMap fun q => bankBytes (s.shadowTables q)) =
          BitVec.ofNat 32 (fieldAt b 4 4)
      · refine ⟨_, 0, _, (hpasses htable).trans (congrArg _ (if_neg (not_not_intro hcrc))), ?_⟩
        rw [if_pos hcrc]
        refine ⟨rfl, rfl, rfl, State.modQuarters_mem .., fun q hq => ?_⟩
        have hquarter := (s.modQuarters_quarter 4 q fun x =>
          { x with shadowArm := true, swapAt := (s.quarter 0).sf + 4, armedKind := .full }).trans (if_pos hq)
        exact ⟨congrArg Quarter.shadowArm hquarter, congrArg Quarter.swapAt hquarter⟩
      · refine ⟨s, 3, _, (hpasses htable).trans (congrArg _ (if_pos hcrc)), ?_⟩
        rw [if_neg hcrc]
        exact ⟨rfl, rfl, rfl⟩
  case abort =>
    exact fun s src b h hlen hz hexp hst hfree =>
      execTimetableAbort_open h ⟨hexp, hfree, fun _ => hst⟩ (by simp [hlen, hz])
  case write =>
    exact fun s src b h hexp he hs hz hlen hoff hn => ⟨_, execRecipeWrite_first h ⟨hexp, he, hs, hz⟩ hlen hoff hn, rfl,
      rfl, fun i hi => stagedFrom_find (by omega)⟩
  case takes =>
    exact fun s src b g h hexp he hs hr hlen hz hfree hg hslot himage =>
      execRecipeCommit_takes h ⟨hexp, he, hs, hr⟩ hlen hz hfree hg hslot himage
  case named =>
    exact fun s src b h hexp he hs hr hlen hz hused => execRecipeCommit_named h ⟨hexp, he, hs, hr⟩ hlen hz hused
  case erase =>
    exact fun s src b h hexp he hs hr hlen hz hfree => execRecipeErase_free h ⟨hexp, he, hs, hr⟩ hlen hz hfree
  case load => exact fun s src r h hpath hk => execKeyLoad_empty h hpath hk
  case loadFull => exact fun s src r k h hpath hk => execKeyLoad_full h hpath hk
  case loadDenied => exact fun s src r h hpath => execKeyLoad_denied h hpath
  case generate => exact fun s src r h hk => ⟨_, _, execKeyGenerate_empty h hk, rfl, rfl, rfl, rfl⟩
  case keyErase => exact fun s src r h => congrArg Host.Outcome.next (State.kkey_anyPath h (by decide) _)
  case check => exact fun s src r h => congrArg Host.Outcome.next (State.kkey_anyPath h (by decide) _)
  case sealed => exact fun s src data rest h ha => execKeystoreSealDone_answers h ha
  case invalid => exact fun s c src op b hc h hbad => exec_tableCommand_invalid hc h hbad
  case armed =>
    exact fun s c src op q b hc h hform hexp hq harm =>
      exec_tableCommand_busy hc h hform hexp (State.tableBusy_armed hq harm)
  case closed =>
    exact fun s c src op b hc h hform hexp hop hst =>
      exec_tableCommand_busy hc h hform hexp (State.tableBusy_closed hop hst)
  case generateFull => exact fun s src r k h hk => execKeyGenerate_full h hk

end Sys2Proof.Machine

/-! PROOFS. The store recipes of the hamper engines: bundles, and what each op of one does. -/

namespace Sys2Proof.Machine

/-! ### Op commands and the bundle at hand -/

/-- An op command is an op of the engine's running store recipe. -/
theorem exec_hamperCommand {c : Instr} {e : Nat} {stop : Bool} {op : HOp} (s : State)
    (h : hamperCommand c = some (e, stop, op)) : exec c s = .next (s.hamperOp e stop op) := by
  unfold hamperCommand at h
  split at h
  case h_32 => cases h
  all_goals cases h; rfl

section
variable {s : State} {e : Nat} {stop : Bool} {op : HOp} {im : Image} {ops : List HOp}

/-- The bundle's next op, with STOP on its last one: it joins, or the bundle issues. -/
theorem State.hamperOp_next (him : (s.engine e).image = some im) (hend : (s.engine e).ended = false)
    (hnow : s.cycleNow e = true) (hat : bundleAt im.words (s.engine e).bundleAddr = some ops)
    (hop : ops[(s.engine e).bundle.length]? = some op)
    (hstop : stop = decide ((s.engine e).bundle.length + 1 = ops.length)) :
    s.hamperOp e stop op = if stop then s.issueBundle e im ops
      else s.setEngine e { s.engine e with bundle := (s.engine e).bundle ++ [op] } := by
  simp only [State.hamperOp, him, hend, hnow, hat, hop, ← hstop, Bool.not_true, Bool.or_false, decide_true,
    Bool.and_self, Bool.false_eq_true, if_true, if_false]

/-- An op that is not the bundle's next changes nothing. -/
theorem State.hamperOp_notNext (him : (s.engine e).image = some im)
    (hat : bundleAt im.words (s.engine e).bundleAddr = some ops) (hop : ops[(s.engine e).bundle.length]? ≠ some op) :
    s.hamperOp e stop op = s := by
  simp only [State.hamperOp, him, hat, hop, decide_false, Bool.false_and, Bool.false_eq_true, if_false, ite_self]

end

/-! ### Legal bundles -/

theorem bundleWords_length {ws : List (BitVec 32)} {n a : Nat} {l : List (BitVec 32)}
    (h : bundleWords ws n a = some l) : 1 ≤ l.length ∧ l.length ≤ n := by
  induction n generalizing a l with
  | zero => cases h
  | succ n ih =>
    rw [bundleWords] at h
    split at h
    case h_1 => cases h
    case h_2 w _ =>
      split at h
      · cases h
        simp
      · obtain ⟨m, hm, rfl⟩ := Option.map_eq_some_iff.mp h
        have := (ih hm).2
        simpa using this

/-- A decoded bundle has one op per word. -/
theorem mapM_decodeOp_length {l : List (BitVec 32)} {ops : List HOp} (h : l.mapM decodeOp = some ops) :
    ops.length = l.length := by
  induction l generalizing ops with
  | nil => cases h; rfl
  | cons w l ih =>
    simp only [List.mapM_cons, Option.bind_eq_bind, Option.bind_eq_some_iff, Option.pure_def, Option.some.injEq] at h
    obtain ⟨_, -, rest, hrest, rfl⟩ := h
    rw [List.length_cons, List.length_cons, ih hrest]

theorem bundleAt_legal {ws : List (BitVec 32)} {a : Nat} {ops : List HOp} (h : bundleAt ws a = some ops) :
    1 ≤ ops.length ∧ ops.length ≤ 7 ∧ (ops.map HOp.unit).Nodup ∧ (ops.filterMap HOp.gen).Nodup := by
  unfold bundleAt at h
  split at h
  case h_1 => cases h
  case h_2 ops' hops =>
    obtain ⟨l, hl, hdec⟩ := Option.bind_eq_some_iff.mp hops
    obtain ⟨hlegal, heq⟩ := Option.ite_none_right_eq_some.mp h
    cases heq
    simp only [Bool.and_eq_true, decide_eq_true_eq] at hlegal
    obtain ⟨⟨-, hunits⟩, hgens⟩ := hlegal
    obtain ⟨hlo, hhi⟩ := bundleWords_length hl
    rw [mapM_decodeOp_length hdec]
    exact ⟨hlo, hhi, hunits, hgens⟩

/-- Settles O32: an op command is `State.hamperOp`, which compares the op and STOP with the bundle at hand; a legal
bundle's length is that of its words, at most 7. -/
theorem opsJoinTheBundle : Obligations.OpsJoinTheBundle := by
  refine ⟨?joins, ?notNext, fun ws a ops h => bundleAt_legal h⟩
  case joins =>
    intro s c e stop op im ops hc him hend hnow hat hop hstop
    rw [exec_hamperCommand s hc, State.hamperOp_next him hend hnow hat hop hstop]
  case notNext =>
    intro s c e stop op im ops hc him hat hop
    rw [exec_hamperCommand s hc, State.hamperOp_notNext him hat hop]

end Sys2Proof.Machine

/-! PROOFS. The effects of a bundle of one op. -/

namespace Sys2Proof.Machine

/-! ### What a bundle of one op leaves of the state -/

section
variable (s : State) (e : Nat) (x : Engine)

/-! Telling of a memory event and writing an engine do not meet. -/

theorem State.setPort_setEngine (p : Nat) (y : Port) :
    (s.setEngine e x).setPort p y = (s.setPort p y).setEngine e x := rfl

theorem State.modQuarter_setEngine (q : Nat) (f : Quarter → Quarter) :
    (s.setEngine e x).modQuarter q f = (s.modQuarter q f).setEngine e x := rfl

theorem State.toQuarter_setEngine (typ source : Nat) (payload : List Nat) (q : Nat) :
    (s.setEngine e x).toQuarter typ source payload q = (s.toQuarter typ source payload q).setEngine e x := rfl

theorem State.toDevice_setEngine (typ source : Nat) (payload : List Nat) :
    (s.setEngine e x).toDevice typ source payload = (s.toDevice typ source payload).setEngine e x := rfl

theorem State.raiseVector_setEngine (p v : Nat) :
    (s.setEngine e x).raiseVector p v = (s.raiseVector p v).setEngine e x := by
  have hport : (s.setEngine e x).port p = s.port p := rfl
  cases h : (s.port p).canSend v with
  | true =>
    have h' : ((s.setEngine e x).port p).canSend v = true := hport ▸ h
    rw [s.raiseVector_sent h, State.raiseVector_sent _ h', hport]
    rfl
  | false =>
    have h' : ((s.setEngine e x).port p).canSend v = false := hport ▸ h
    rw [s.raiseVector_held h, State.raiseVector_held _ h', hport, State.setPort_setEngine]

theorem State.portEvent_setEngine (p bit : Nat) :
    (s.setEngine e x).portEvent p bit = (s.portEvent p bit).setEngine e x := by
  unfold State.portEvent
  dsimp only
  rw [State.setEngine_port]
  split
  · rfl
  · split
    · rw [State.setPort_setEngine, State.raiseVector_setEngine]
    · rw [State.setPort_setEngine]

theorem State.toPort_setEngine (typ source : Nat) (payload : List Nat) (p : Nat) :
    (s.setEngine e x).toPort typ source payload p = (s.toPort typ source payload p).setEngine e x := by
  rw [State.toPort, State.modPort_eq, State.setEngine_port, State.setPort_setEngine, State.portEvent_setEngine]
  rfl

theorem State.memoryEvent_setEngine (q ev handle off : Nat) :
    (s.setEngine e x).memoryEvent q ev handle off = (s.memoryEvent q ev handle off).setEngine e x := by
  have howner : (s.setEngine e x).extOwner handle = s.extOwner handle := rfl
  have htime : (s.setEngine e x).time32 = s.time32 := rfl
  unfold State.memoryEvent
  dsimp only
  rw [howner, htime, State.toQuarter_setEngine, State.toDevice_setEngine]
  cases s.extOwner handle with
  | none => rfl
  | some p => exact State.toPort_setEngine _ e x _ _ _ p

end

theorem State.met_setEngine (s : State) (e : Nat) (x : Engine) (read : Nat → Bool) :
    (s.setEngine e x).met read = (s.met read).setEngine e x := by
  unfold State.met
  rw [State.setEngine_flaws]
  generalize s.flaws.filter (fun f => read f.1) = l
  induction l generalizing s with
  | nil => rfl
  | cons f l ih =>
    have hf : (s.setEngine e x).beatEvent f.2.event f.1 = (s.beatEvent f.2.event f.1).setEngine e x :=
      State.memoryEvent_setEngine s e x _ _ _ _
    rw [List.foldl_cons, List.foldl_cons, hf, ih]

/-- An op that uses no slot and draws no byte. -/
def HOp.quiet : HOp → Bool
  | .ld .. | .st .. | .hsRest .. => false
  | _ => true

/-- An op that opens a loop level. -/
def HOp.isLoop : HOp → Bool
  | .loop .. => true
  | _ => false

/-- An engine past its bundle: the next one is at hand, one cycle later. -/
def Engine.issued (z : Engine × Nat) : Engine := { z.1 with cycle := z.1.cycle + 1, bundle := [], bundleAddr := z.2 }

section
variable (s : State) (e : Nat) (ws : List (BitVec 32)) (ag : BitVec 3)

/-- A quiet op acts on its engine alone. -/
theorem State.bundleEffect_quiet {op : HOp} (hq : op.quiet = true) : s.bundleEffect e ws [op] = s.setEngine e
    (Engine.issued (((s.engine e).opEffect (s.engine e) e (s.engine e).cycle {} [] ws op).loopNext
      (s.engine e).bundleAddr ((s.engine e).bundleAddr + 1))) := by
  have hmet : s.met (fun _ => false) = s := State.met_none fun _ _ => rfl
  cases op with
  | ld | st | hsRest => cases hq
  | _ =>
    simp only [State.bundleEffect, List.any_cons, List.any_nil, Engine.loadAddr, List.findSome?_cons, List.findSome?_nil,
      List.foldl_cons, List.foldl_nil, Option.any_none, Bool.or_false, Bool.false_eq_true, if_false, hmet,
      State.loadBeat, List.length_singleton, Engine.issued]

/-- A load takes its slot and meets the flaws of its beat. -/
theorem State.bundleEffect_ld (vd : BitVec 5) : s.bundleEffect e ws [.ld vd ag] =
    ((s.modQuarter (quarterOfParty e) fun q => q.useSlots (s.engine e) e [.ld vd ag]).met
      fun b => decide (b = ((s.engine e).agen ag).addr / 64)).setEngine e
    (Engine.issued (((s.engine e).opEffect (s.engine e) e (s.engine e).cycle
      (s.loadBeat (some ((s.engine e).agen ag).addr)) [] ws (.ld vd ag)).loopNext
      (s.engine e).bundleAddr ((s.engine e).bundleAddr + 1))) := rfl

/-- A store takes its slot. -/
theorem State.bundleEffect_st (srcP : Bool) (reg : BitVec 5) : s.bundleEffect e ws [.st srcP reg ag] =
    (s.modQuarter (quarterOfParty e) fun q => q.useSlots (s.engine e) e [.st srcP reg ag]).setEngine e
    (Engine.issued (((s.engine e).opEffect (s.engine e) e (s.engine e).cycle {} [] ws (.st srcP reg ag)).loopNext
      (s.engine e).bundleAddr ((s.engine e).bundleAddr + 1))) :=
  congrArg (fun t : State => t.setEngine e _) (State.met_none fun _ _ => rfl)

/-- HS REST draws the bytes that no SAVE kept. -/
theorem State.bundleEffect_hsRest (h : BitVec 2) (vs : BitVec 5) : s.bundleEffect e ws [.hsRest h vs] =
    (s.freeBytes 63).2.setEngine e
    (Engine.issued (((s.engine e).opEffect (s.engine e) e (s.engine e).cycle {} (s.freeBytes 63).1 ws
      (.hsRest h vs)).loopNext (s.engine e).bundleAddr ((s.engine e).bundleAddr + 1))) :=
  congrArg (fun t : State => t.setEngine e _) (State.met_none fun _ _ => rfl)

end

/-! ### What an op leaves of its engine -/

section
variable (x y : Engine) (e t : Nat) (beat : VReg) (tail : List Byte) (ws : List (BitVec 32)) {op : HOp}

/-- A fold that keeps a field in each of its turns keeps it. -/
theorem Engine.foldl_keeps {α β : Type} (g : Engine → β) {f : Engine → α → Engine} (h : ∀ y a, g (f y a) = g y)
    (l : List α) (y : Engine) : g (l.foldl f y) = g y := by
  induction l generalizing y with
  | nil => rfl
  | cons a l ih => rw [List.foldl_cons, ih, h]

/-- Only LOOP touches the loop levels. -/
theorem Engine.opEffect_loops (h : op.isLoop = false) :
    (x.opEffect y e t beat tail ws op).loop0 = y.loop0 ∧ (x.opEffect y e t beat tail ws op).loop1 = y.loop1 := by
  cases op with
  | loop => cases h
  | mac =>
    dsimp only [Engine.opEffect]
    exact ⟨Engine.foldl_keeps Engine.loop0 (by intros; rfl) _ y, Engine.foldl_keeps Engine.loop1 (by intros; rfl) _ y⟩
  | sta srcP => cases srcP <;> exact ⟨rfl, rfl⟩
  | neq | ptest =>
    dsimp only [Engine.opEffect]
    split
    · exact ⟨rfl, rfl⟩
    · exact ⟨rfl, rfl⟩
  | _ => exact ⟨rfl, rfl⟩

/-- Only LOOP reads the words of the image. -/
theorem Engine.opEffect_words (h : op.isLoop = false) :
    x.opEffect y e t beat tail ws op = x.opEffect y e t beat tail [] op := by
  cases op with
  | loop => cases h
  | _ => rfl

/-- An op but LOOP in a bundle outside of every loop goes on to the bundle after it. -/
theorem Engine.opEffect_loopNext (h : op.isLoop = false) (h0 : y.loop0.active = false) (h1 : y.loop1.active = false)
    (here next : Nat) : (x.opEffect y e t beat tail ws op).loopNext here next =
      (x.opEffect y e t beat tail [] op, next) := by
  obtain ⟨hl0, hl1⟩ := x.opEffect_loops y e t beat tail ws h
  rw [Engine.loopNext_inactive _ _ _ (hl0 ▸ h0) (hl1 ▸ h1), Engine.opEffect_words _ _ _ _ _ _ _ h]

end

/-! ### A sole op on its engine -/

section
variable {s : State} {e : Nat} {x : Engine} {op : HOp} {c : Instr}

theorem SoleOp.noLands (h : SoleOp s e x op) : x.lands = [] := by
  obtain ⟨-, -, -, hlands, -⟩ := h
  exact hlands

/-- The sole op's command, STOP set, makes its bundle take effect. -/
theorem SoleOp.exec_issues (h : SoleOp s e x op) (hc : hamperCommand c = some (e, true, op)) :
    ∃ im, x.image = some im ∧
      exec c s = .next (((s.setEngine e x).bundleEffect e im.words [op]).nextBundle e) := by
  obtain ⟨im, him, heq⟩ := h.issues
  exact ⟨im, him, by rw [exec_hamperCommand s hc, heq]⟩

/-- With no level active, an op but LOOP is followed by the next bundle. -/
theorem SoleOp.loopNext (h : SoleOp s e x op) (hl : op.isLoop = false) (t : Nat) (beat : VReg) (tail : List Byte)
    (ws : List (BitVec 32)) :
    (x.opEffect x e t beat tail ws op).loopNext x.bundleAddr (x.bundleAddr + 1) =
      (x.opEffect x e t beat tail [] op, x.bundleAddr + 1) := by
  obtain ⟨-, -, -, -, h0, h1, -⟩ := h
  exact Engine.opEffect_loopNext _ _ _ _ _ _ _ hl h0 h1 _ _

/-- A quiet op but LOOP has its effect on its engine, which goes on to the next bundle. -/
theorem SoleOp.exec_acts (h : SoleOp s e x op) (hc : hamperCommand c = some (e, true, op)) (hq : op.quiet = true)
    (hl : op.isLoop = false) : exec c s = .next ((s.setEngine e
      (Engine.issued (x.opEffect x e x.cycle {} [] [] op, x.bundleAddr + 1))).nextBundle e) := by
  obtain ⟨im, -, heq⟩ := h.exec_issues hc
  rw [heq, State.bundleEffect_quiet _ _ _ hq, State.setEngine_engine_self, h.loopNext hl, State.setEngine_setEngine]

/-- A quiet op with one result has it on its way to its register, alone. -/
theorem SoleOp.exec_lands (h : SoleOp s e x op) (hc : hamperCommand c = some (e, true, op)) {d : Nat} {w : Landing}
    (hq : op.quiet = true) (hl : op.isLoop = false)
    (hw : x.opEffect x e x.cycle {} [] [] op = x.later x.cycle d w) :
    exec c s = .next ((s.setEngine e { x with
      lands := [{ cycle := x.cycle + d, what := w }]
      cycle := x.cycle + 1, bundle := [], bundleAddr := x.bundleAddr + 1 }).nextBundle e) := by
  rw [h.exec_acts hc hq hl, hw]
  simp only [Engine.issued, Engine.later, h.noLands, List.nil_append]

end

end Sys2Proof.Machine

/-! PROOFS. Memory and Galois field ops of the hamper engines, and a write that reaches its stack. -/

namespace Sys2Proof.Machine

/-! ### Bytes written one after another -/

section
variable (m : List Host.Cell) (addr : Nat) (bs : List Byte)

/-- A run of bytes leaves every byte outside of it. -/
theorem memByte_putRun_other {a : Nat} (h : a < addr ∨ addr + bs.length ≤ a) :
    memByte (putRun m addr bs) a = memByte m a := by
  unfold putRun
  generalize hn : bs.length = n at h
  clear hn
  induction n with
  | zero => rfl
  | succ n ih =>
    rw [List.range_succ, List.foldl_append, List.foldl_cons, List.foldl_nil, memByte_memPut_other _ (by omega),
      ih (by omega)]

/-- Each byte of a run is read back. -/
theorem memByte_putRun_at {m : List Host.Cell} (w : Memory.wf m = true) {i : Nat} (h : i < bs.length) :
    memByte (putRun m addr bs) (addr + i) = bs.getD i 0 := by
  unfold putRun
  generalize hn : bs.length = n at h
  clear hn
  induction n with
  | zero => cases h
  | succ n ih =>
    rw [List.range_succ, List.foldl_append, List.foldl_cons, List.foldl_nil]
    by_cases hi : i = n
    · rw [hi]
      exact memByte_memPut_self (lo := 0) (Memory.wf_foldl w _ (addr + ·) (bs.getD · 0)) _ _
    · rw [memByte_memPut_other _ (by omega), ih (by omega)]

end

theorem beatBytes_length (d : BitVec 512) : (beatBytes d).length = 64 := by
  rw [beatBytes, List.length_map, List.length_range]

theorem beatBytes_getD (d : BitVec 512) {i : Nat} (h : i < 64) :
    (beatBytes d).getD i 0 = (d >>> (8 * i)).setWidth 8 := by
  have hlen : i < (beatBytes d).length := by rwa [beatBytes_length]
  rw [List.getD_eq_getElem _ _ hlen]
  simp only [beatBytes, List.getElem_map, List.getElem_range]

/-! ### A write whose row has come -/

section
variable {s : State} {q addr : Nat} {l : RowLand} {d : BitVec 512} {p bad : Bool}

theorem State.writeBeat_mem : (s.writeBeat addr d p).mem = putRun s.mem (64 * (addr / 64)) (beatBytes d) := by
  rw [State.writeBeat]

/-- A whole beat written lists its bytes, whatever becomes of the check region. -/
theorem State.writeRow_mem : (s.writeRow addr d p bad).mem = putRun s.mem (64 * (addr / 64)) (beatBytes d) := by
  rw [State.writeRow, State.writeBeat_mem]
  cases bad with
  | false => rw [if_neg Bool.false_ne_true]
  | true => rw [if_pos rfl]

theorem State.landRow_mem (hl : (s.quarter q).lands = [l]) (hdue : l.due ≤ (s.quarter q).absRow)
    (hwhat : l.what = .write addr d p bad) (haddr : addr % 64 = 0) :
    (s.landRow q).mem = putRun s.mem addr (beatBytes d) := by
  have hbeat : 64 * (addr / 64) = addr := by omega
  unfold State.landRow
  simp only [hl, hwhat, Nat.not_lt.mpr hdue, List.foldl_cons, List.foldl_nil, if_false, State.modQuarter_eq,
    State.setQuarter_mem, State.writeRow_mem, hbeat]

end

/-! ### Memory ops -/

section
variable {s : State} {e : Nat} {x : Engine}

/-- A load takes its slot and meets the flaws of its beat, which is on its way to its register. -/
theorem SoleOp.exec_ld {vd : BitVec 5} {ag : BitVec 3} (h : SoleOp s e x (.ld vd ag)) :
    exec (.hLd e true vd ag) s = .next ((((s.modQuarter (quarterOfParty e) fun q =>
      q.useSlots x e [.ld vd ag]).met fun b => decide (b = (x.agen ag).addr / 64)).setEngine e { x with
        ag := x.ag.set ag.toNat (x.agen ag).advance
        lands := [{ cycle := x.cycle + 64, what := .v vd.toNat (s.loadBeat (some (x.agen ag).addr)) true }]
        cycle := x.cycle + 1, bundle := [], bundleAddr := x.bundleAddr + 1 }).nextBundle e) := by
  obtain ⟨im, -, heq⟩ := h.exec_issues (c := .hLd e true vd ag) rfl
  have hbeat : (s.setEngine e x).loadBeat (some (x.agen ag).addr) = s.loadBeat (some (x.agen ag).addr) := rfl
  rw [heq, State.bundleEffect_ld, State.setEngine_engine_self, State.modQuarter_setEngine, hbeat,
    State.met_setEngine, State.setEngine_setEngine, h.loopNext rfl]
  simp only [Engine.opEffect, Engine.later, Engine.issued, h.noLands, List.nil_append]

/-- A store takes its slot. -/
theorem SoleOp.exec_st {srcP : Bool} {reg : BitVec 5} {ag : BitVec 3} (h : SoleOp s e x (.st srcP reg ag)) :
    exec (.hSt e true srcP reg ag) s = .next (((s.modQuarter (quarterOfParty e) fun q =>
      q.useSlots x e [.st srcP reg ag]).setEngine e { x with
        ag := x.ag.set ag.toNat (x.agen ag).advance
        cycle := x.cycle + 1, bundle := [], bundleAddr := x.bundleAddr + 1 }).nextBundle e) := by
  obtain ⟨im, -, heq⟩ := h.exec_issues (c := .hSt e true srcP reg ag) rfl
  rw [heq, State.bundleEffect_st, State.setEngine_engine_self, State.modQuarter_setEngine,
    State.setEngine_setEngine, h.loopNext rfl]
  rfl

/-- What MAC makes of the P register at `j` with a column's coefficients. -/
def Engine.accumulated (x : Engine) (j col : Nat) (vs : BitVec 5) (clr : Bool) : PReg :=
  if clr then { data := beatOf (gfScale (x.coefAt j col) (beatBytes (x.vr vs).data))
                poison := (x.vr vs).poison || x.rowPoison j }
  else { data := beatOf (xorBytes (beatBytes (x.prNow j).data) (gfScale (x.coefAt j col) (beatBytes (x.vr vs).data)))
         poison := (x.prNow j).poison || ((x.vr vs).poison || x.rowPoison j) }

theorem SoleOp.exec_mac {pb : BitVec 4} {vs : BitVec 5} {col : BitVec 7} {clr : Bool}
    (h : SoleOp s e x (.mac pb 0 vs col false clr)) :
    exec (.hMac e true pb 0 vs col false clr) s = .next ((s.setEngine e { x with
      pNow := x.pNow.set pb.toNat (x.accumulated pb.toNat col.toNat vs clr)
      lands := [{ cycle := x.cycle + 4, what := .p pb.toNat (x.accumulated pb.toNat col.toNat vs clr) }]
      cycle := x.cycle + 1, bundle := [], bundleAddr := x.bundleAddr + 1 }).nextBundle e) := by
  have hone : x.opEffect x e x.cycle {} [] [] (.mac pb 0 vs col false clr) =
    ({ x with pNow := x.pNow.set pb.toNat (x.accumulated pb.toNat col.toNat vs clr) } : Engine).later x.cycle 4
      (.p pb.toNat (x.accumulated pb.toNat col.toNat vs clr)) := rfl
  rw [h.exec_acts rfl rfl rfl, hone]
  simp only [Engine.issued, Engine.later, h.noLands, List.nil_append]

end

/-- Settles O33: a load and a store take the slot of their engine's row, the other ops act on their engine alone; a
write that lands is 64 bytes put one after another. -/
theorem memoryAndGaloisOpsTakeEffect : Obligations.MemoryAndGaloisOpsTakeEffect := by
  refine ⟨?ld, ?stV, ?stP, ?sta, ?other, ?written, ?mac, ?gfOut, ?cldLow, ?cldHigh⟩
  case ld => exact fun s e x vd ag hs => hs.exec_ld
  case stV => exact fun s e x reg ag hs => hs.exec_st
  case stP => exact fun s e x reg ag hs => hs.exec_st
  case sta => exact fun s e x reg ag last row col hs => hs.exec_acts rfl rfl rfl
  case other =>
    intro s q addr l d p bad a hl hdue hwhat haddr ha
    rw [State.landRow_mem hl hdue hwhat haddr, memByte_putRun_other _ _ _ (by rwa [beatBytes_length])]
  case written =>
    intro s q addr i l d p bad hinv hl hdue hwhat haddr hi
    rw [State.landRow_mem hl hdue hwhat haddr, memByte_putRun_at _ _ hinv (by rwa [beatBytes_length]),
      beatBytes_getD d hi]
  case mac =>
    intro s e x pb vs col clr hs r hr
    rw [hr]
    exact hs.exec_mac
  case gfOut => exact fun s e x ps vd hs => hs.exec_lands rfl rfl rfl rfl
  case cldLow => exact fun s e x row vs hs => hs.exec_lands rfl rfl rfl rfl
  case cldHigh => exact fun s e x row vs hs => hs.exec_lands rfl rfl rfl rfl

end Sys2Proof.Machine

/-! PROOFS. The ops of the hamper engines, one by one. -/

namespace Sys2Proof.Machine

/-! ### Hash and cipher ops -/

section
variable {s : State} {e : Nat} {x : Engine}

/-- The hash lane that HS REST makes of a register's SAVE layout and the bytes `tail` that SAVE does not keep. -/
def HashLane.restored (r : VReg) (tail : List Byte) : HashLane :=
  { init := true, sha := beWords ((beatBytes r.data).take 32), buf := tail.take (fieldAt (beatBytes r.data) 32 8 % 64)
    crc := BitVec.ofNat 64 (fieldAt (beatBytes r.data) 40 8), count := fieldAt (beatBytes r.data) 32 8
    poison := r.poison }

theorem SoleOp.exec_hsRest {h : BitVec 2} {vs : BitVec 5} (hs : SoleOp s e x (.hsRest h vs)) :
    exec (.hHsRest e true h vs) s = .next (((s.freeBytes 63).2.setEngine e { x with
      h := x.h.set h.toNat (HashLane.restored (x.vr vs) (s.freeBytes 63).1)
      cycle := x.cycle + 1, bundle := [], bundleAddr := x.bundleAddr + 1 }).nextBundle e) := by
  obtain ⟨im, -, heq⟩ := hs.exec_issues (c := .hHsRest e true h vs) rfl
  have hfree : ((s.setEngine e x).freeBytes 63).2 = (s.freeBytes 63).2.setEngine e x := rfl
  have hbytes : ((s.setEngine e x).freeBytes 63).1 = (s.freeBytes 63).1 := rfl
  have hnext := hs.loopNext rfl x.cycle {} (s.freeBytes 63).1 im.words
  rw [heq, State.bundleEffect_hsRest, State.setEngine_engine_self, hfree, hbytes, hnext, State.setEngine_setEngine]
  rfl

/-- A lane holds at most 63 bytes uncompressed. -/
theorem HashLane.restored_buf_length (r : VReg) {tail : List Byte} (h : tail.length = 63) :
    (HashLane.restored r tail).buf.length = (HashLane.restored r tail).count % 64 := by
  have hlt := Nat.mod_lt (fieldAt (beatBytes r.data) 32 8) (show 64 > 0 by decide)
  simp only [HashLane.restored, List.length_take, h]
  omega

theorem State.freeBytes_length (s : State) (n : Nat) : (s.freeBytes n).1.length = n := by
  simp only [State.freeBytes, List.length_map, List.length_range]

end

theorem Engine.badKey_noKey {x : Engine} (k : BitVec 2) (vs : BitVec 5) (h : x.running.bind (·.key) = none) :
    x.badKey (.crInit k vs) = true ∧ x.badKey (.crRest k vs) = true := by
  simp only [Engine.badKey, h, Option.isNone_none, Bool.or_true, Bool.true_or, and_self]

/-- A register no SAVE sealed is none to restore from. -/
theorem Engine.badKey_unsealed {x : Engine} (k : BitVec 2) {vs : BitVec 5}
    (h : (x.v.get vs.toNat {}).sealedBy = false) : x.badKey (.crRest k vs) = true := by
  simp only [Engine.badKey, h, Bool.not_false, Bool.or_true]

/-- A sealed register reads as zeros. -/
theorem Engine.vr_eq (x : Engine) (i : BitVec 5) : x.vr i = { x.v.get i.toNat {} with
    data := if (x.v.get i.toNat {}).sealedBy then 0 else (x.v.get i.toNat {}).data } := by
  unfold Engine.vr
  dsimp only
  split
  · rfl
  · rfl

/-- Settles O34: each op's effect on its engine, which no active level and nothing on its way to a register meets; HS
REST draws 63 bytes, as many as a lane can hold uncompressed. -/
theorem hashAndCipherOpsTakeEffect : Obligations.HashAndCipherOpsTakeEffect := by
  refine ⟨?hsInit, ?upd, ?updn, ?fin, ?hsSave, ?hsRest, ?crInit, ?enc, ?dec, ?crTag, ?crSave, ?crRest,
    fun x k vs h => Engine.badKey_noKey k vs h, fun x k vs h => ⟨Engine.badKey_unsealed k h, x.vr_eq⟩⟩
  case hsInit => exact fun s e x h hs => hs.exec_acts rfl rfl rfl
  case upd => exact fun s e x h sel vs hs => hs.exec_acts rfl rfl rfl
  case updn => exact fun s e x h sel vs n1 hs => hs.exec_acts rfl rfl rfl
  case fin => exact fun s e x h vd crc off hs => hs.exec_lands rfl rfl rfl rfl
  case hsSave => exact fun s e x h vd hs => hs.exec_lands rfl rfl rfl rfl
  case hsRest =>
    exact fun s e x h vs hs => ⟨_, HashLane.restored (x.vr vs) (s.freeBytes 63).1, hs.exec_hsRest,
      State.setEngine_engine_self .., rfl, rfl, rfl, rfl,
      HashLane.restored_buf_length _ (s.freeBytes_length 63), rfl, rfl⟩
  case crInit => exact fun s e x k vs hs => hs.exec_acts rfl rfl rfl
  case enc => exact fun s e x k vd vs hs => hs.exec_acts rfl rfl rfl
  case dec => exact fun s e x k vd vs hs => hs.exec_acts rfl rfl rfl
  case crTag => exact fun s e x k vd off hs => hs.exec_lands rfl rfl rfl rfl
  case crSave => exact fun s e x k vd hs => hs.exec_lands rfl rfl rfl rfl
  case crRest => exact fun s e x k vs hs => hs.exec_acts rfl rfl rfl

/-! ### Arithmetic and control ops -/

section
variable {s : State} {e : Nat} {x : Engine}

/-- A set result bit stays set. -/
theorem Engine.opEffect_neq (y : Engine) (t : Nat) (beat : VReg) (tail : List Byte) (ws : List (BitVec 32))
    (bit : BitVec 6) (va vb : BitVec 5) : x.opEffect y e t beat tail ws (.neq bit va vb) =
      { y with res := if (x.vr va).data = (x.vr vb).data then y.res else y.res ||| 1#64 <<< bit.toNat } := by
  by_cases h : (x.vr va).data = (x.vr vb).data
  · simp only [Engine.opEffect, h, ne_eq, not_true_eq_false, if_false, if_true]
  · simp only [Engine.opEffect, h, ne_eq, not_false_eq_true, if_false, if_true]

theorem Engine.opEffect_ptest (y : Engine) (t : Nat) (beat : VReg) (tail : List Byte) (ws : List (BitVec 32))
    (bit : BitVec 6) (va : BitVec 5) : x.opEffect y e t beat tail ws (.ptest bit va) =
      { y with res := if (x.vr va).poison then y.res ||| 1#64 <<< bit.toNat else y.res } := by
  cases h : (x.vr va).poison with
  | true => simp only [Engine.opEffect, h, if_true]
  | false => simp only [Engine.opEffect, h, Bool.false_eq_true, if_false]

/-- A recipe past its END looks at no further bundle. -/
theorem State.nextBundle_ended (h : (s.engine e).ended = true) : s.nextBundle e = s := by
  unfold State.nextBundle
  dsimp only
  split
  · rfl
  · rw [h]; rfl

/-! #### Loop levels -/

variable {here next : Nat}

/-- Level 1 at its end is decided first. -/
theorem Engine.loopNext_level1 (h : x.loop1.active = true) (hstop : x.loop1.stop = here) :
    x.loopNext here next = if x.loop1.lc + 1 < x.loop1.count
      then ({ x with loop1 := { x.loop1 with lc := x.loop1.lc + 1 } }, x.loop1.start)
      else Engine.loopNext { x with loop1 := { x.loop1 with active := false } } here next := by
  conv_lhs => unfold Engine.loopNext
  simp only [h, hstop, decide_true, Bool.and_self, if_true]
  rfl

/-- With no end of level 1 here, level 0 at its end is decided. -/
theorem Engine.loopNext_level0 (h1 : x.loop1.active = true → x.loop1.stop ≠ here) (h : x.loop0.active = true)
    (hstop : x.loop0.stop = here) : x.loopNext here next = if x.loop0.lc + 1 < x.loop0.count
      then ({ x with loop0 := { x.loop0 with lc := x.loop0.lc + 1 } }, x.loop0.start)
      else ({ x with loop0 := { x.loop0 with active := false } }, next) := by
  have hno : (x.loop1.active && decide (x.loop1.stop = here)) = false := by simpa using h1
  simp only [Engine.loopNext, hno, h, hstop, decide_true, Bool.and_self, Bool.false_eq_true, if_true, if_false]

/-- At the end of no active level the next bundle follows. -/
theorem Engine.loopNext_noEnd (h1 : x.loop1.active = true → x.loop1.stop ≠ here)
    (h0 : x.loop0.active = true → x.loop0.stop ≠ here) : x.loopNext here next = (x, next) := by
  have hno1 : (x.loop1.active && decide (x.loop1.stop = here)) = false := by simpa using h1
  have hno0 : (x.loop0.active && decide (x.loop0.stop = here)) = false := by simpa using h0
  simp only [Engine.loopNext, hno1, hno0, Bool.false_eq_true, if_false]

/-- An engine with the level open that a LOOP op opens. -/
def Engine.openLevel (x : Engine) (level : Bool) (im : Image) (csel : BitVec 3) (stop : BitVec 12) : Engine :=
  let l : LoopLevel := { lc := 0, active := true, count := x.counts.get csel.toNat 0
                         start := loopStart im.words x.bundleAddr, stop := stop.toNat }
  if level then { x with loop1 := l } else { x with loop0 := l }

/-- A LOOP whose own bundle is not its END opens its level, and the next bundle follows. -/
theorem SoleOp.exec_loop {im : Image} {level : Bool} {csel : BitVec 3} {stop : BitVec 12} (him : x.image = some im)
    (h : SoleOp s e x (.loop level csel stop)) (hstop : stop.toNat ≠ x.bundleAddr) :
    exec (.hLoop e true level csel stop) s = .next ((s.setEngine e
      (Engine.issued (x.openLevel level im csel stop, x.bundleAddr + 1))).nextBundle e) := by
  obtain ⟨im', him', heq⟩ := h.exec_issues (c := .hLoop e true level csel stop) rfl
  cases him.symm.trans him'
  obtain ⟨-, -, -, -, h0, h1, -⟩ := h
  have hnext : (x.opEffect x e x.cycle {} [] im.words (.loop level csel stop)).loopNext x.bundleAddr
      (x.bundleAddr + 1) = (x.openLevel level im csel stop, x.bundleAddr + 1) := by
    cases level with
    | false =>
      exact Engine.loopNext_noEnd (x := x.openLevel false im csel stop) (by simp [Engine.openLevel, h1]) fun _ => hstop
    | true =>
      exact Engine.loopNext_noEnd (x := x.openLevel true im csel stop) (fun _ => hstop) (by simp [Engine.openLevel, h0])
  rw [heq, State.bundleEffect_quiet _ _ _ rfl, State.setEngine_engine_self, State.setEngine_setEngine, hnext]

end

/-- Settles O35: each op's effect on its engine; LOOP opens its level, and the level whose END the bundle is decides
what follows it, level 1 before level 0. -/
theorem arithmeticAndControlOpsTakeEffect : Obligations.ArithmeticAndControlOpsTakeEffect := by
  refine ⟨?bitwise, ?moves, ?inslc, ?neq, ?ptest, ?nop, ?idle, ?agrst, ?endOp, ?loop0, ?level0, ?loop1, ?level1,
    ?noEnd⟩
  case bitwise =>
    exact fun s e x vd va vb => ⟨fun hs => hs.exec_lands rfl rfl rfl rfl, fun hs => hs.exec_lands rfl rfl rfl rfl,
      fun hs => hs.exec_lands rfl rfl rfl rfl⟩
  case moves =>
    exact fun s e x vd va => ⟨fun hs => hs.exec_lands rfl rfl rfl rfl, fun hs => hs.exec_lands rfl rfl rfl rfl⟩
  case inslc => exact fun s e x vd off l hs => hs.exec_lands rfl rfl rfl rfl
  case neq =>
    intro s e x bit va vb hs
    rw [hs.exec_acts rfl rfl rfl, Engine.opEffect_neq]
    rfl
  case ptest =>
    intro s e x bit va hs
    rw [hs.exec_acts rfl rfl rfl, Engine.opEffect_ptest]
    rfl
  case nop => exact fun s e x hs => hs.exec_acts rfl rfl rfl
  case idle => exact fun s e x n1 hs => hs.exec_acts rfl rfl rfl
  case agrst => exact fun s e x ag hs => hs.exec_acts rfl rfl rfl
  case endOp =>
    intro s e x hs
    rw [hs.exec_acts rfl rfl rfl, State.nextBundle_ended (by rw [State.setEngine_engine_self]; rfl)]
    rfl
  case loop0 => exact fun s e x im csel stop him hs hstop => hs.exec_loop him hstop
  case level0 => exact fun x here next h1 h0 hstop => Engine.loopNext_level0 (by simp [h1]) h0 hstop
  case loop1 => exact fun s e x im csel stop him hs hstop => hs.exec_loop him hstop
  case level1 => exact fun x here next h1 hstop => Engine.loopNext_level1 h1 hstop
  case noEnd => exact fun x here next h1 h0 => Engine.loopNext_noEnd h1 h0

end Sys2Proof.Machine

/-! PROOFS. Messages about accumulators and extents, and what a write of the stacks leaves of a parked beat. -/

namespace Sys2Proof.Machine

/-! ### Bytes of the stacks that a write leaves -/

/-- A byte other than 0 is read back from any memory, canonical or not. -/
theorem memByte_memPut_nonzero (m : List Host.Cell) (a : Nat) {v : Byte} (hv : v ≠ 0) : memByte (memPut m a v) a = v := by
  induction m with
  | nil => simp only [memPut, if_neg hv, memByte, if_true]
  | cons c t ih =>
    obtain ⟨b, w⟩ := c
    simp only [memPut, if_neg hv]
    split
    · simp [memByte]
    · split
      · simp [memByte]
      · rename_i hlt hne
        simp [memByte, Ne.symm hne, ih]

/-- The cells of one address stay as they are when a byte of another address is written. -/
theorem memPut_cells_other (m : List Host.Cell) {a c : Nat} (v : Byte) (h : c ≠ a) :
    (memPut m c v).filter (fun x => x.1 = a) = m.filter fun x => x.1 = a := by
  induction m with
  | nil =>
    simp only [memPut]
    split <;> simp [h]
  | cons e t ih =>
    obtain ⟨b, w⟩ := e
    simp only [memPut]
    split
    · split <;> simp [h]
    · split
      · rename_i hlt heq
        split <;> simp [← heq, h]
      · rw [List.filter_cons, List.filter_cons, ih]

/-- A byte of a run is read from a memory with the same cells of its address, once the byte is put there. -/
theorem memByte_putRun_put (m : List Host.Cell) (addr : Nat) (bs : List Byte) {i : Nat} (h : i < bs.length) :
    ∃ m' : List Host.Cell, (m'.filter fun x => x.1 = addr + i) = (m.filter fun x => x.1 = addr + i) ∧
      memByte (putRun m addr bs) (addr + i) = memByte (memPut m' (addr + i) (bs.getD i 0)) (addr + i) := by
  have hcells : ∀ n, n ≤ i → ((List.range n).foldl (fun m k => memPut m (addr + k) (bs.getD k 0)) m).filter
      (fun x => x.1 = addr + i) = m.filter fun x => x.1 = addr + i := by
    intro n hn
    induction n with
    | zero => rfl
    | succ n ih =>
      rw [List.range_succ, List.foldl_append, List.foldl_cons, List.foldl_nil, memPut_cells_other _ _ (by omega),
        ih (by omega)]
  refine ⟨_, hcells i le_rfl, ?_⟩
  unfold putRun
  generalize bs.length = n at h
  induction n with
  | zero => cases h
  | succ n ih =>
    rw [List.range_succ, List.foldl_append, List.foldl_cons, List.foldl_nil]
    by_cases hi : i = n
    · rw [hi]
    · rw [memByte_memPut_other _ (by omega), ih (by omega)]

/-- A state of which a parked beat can be listed without a change of its bytes: its memory is canonical, or a parked beat
holds no byte 0. -/
def State.ListsParked (s : State) : Prop :=
  Memory.wf s.mem = true ∨ ∀ seed i, i < 256 → Config.parkedByte seed i ≠ 0

section
variable {s : State}

theorem State.ListsParked.unpark (h : s.ListsParked) (beat : Nat) : (s.unpark beat).ListsParked :=
  h.imp_left fun w => State.wf_unpark w beat

theorem State.ListsParked.writePhys (h : s.ListsParked) (addr : Nat) (bs : List Byte) (p : Bool) :
    (s.writePhys addr bs p).ListsParked :=
  h.imp_left fun w => State.wf_writePhys w addr bs p

theorem State.stackByte_listed {a : Nat} (h : s.parked.find (a / 64) = none) : s.stackByte a = memByte s.mem a := by
  simp only [State.stackByte, h]

theorem State.stackByte_parked {a seed : Nat} (h : s.parked.find (a / 64) = some seed) :
    s.stackByte a = Config.parkedByte seed (a % 256) := by
  simp only [State.stackByte, h]

theorem State.readPhys_getD (addr n : Nat) {i : Nat} (h : i < n) : (s.readPhys addr n).getD i 0 = s.stackByte (addr + i) := by
  simp [State.readPhys, h]

theorem State.readPhys_length (addr n : Nat) : (s.readPhys addr n).length = n := by simp [State.readPhys]

/-- The bytes of the other beats stay as they are when a parked beat is listed. -/
theorem State.unpark_stackByte_other {beat a : Nat} (h : a / 64 ≠ beat) : (s.unpark beat).stackByte a = s.stackByte a := by
  cases hfind : (s.parked.find beat).isNone with
  | true => rw [State.unpark_listed hfind]
  | false =>
    rw [State.unpark_parked hfind, State.stackByte, State.stackByte, Tab.find_erase_other _ h,
      memByte_putRun_other _ _ _ (by rw [State.readPhys_length]; omega)]

/-- The bytes of a parked beat once it is listed. -/
theorem State.unpark_stackByte_parked {a seed : Nat} (h : s.parked.find (a / 64) = some seed) :
    (s.unpark (a / 64)).stackByte a =
      memByte (putRun s.mem (64 * (a / 64)) (s.readPhys (64 * (a / 64)) 64)) a := by
  rw [State.unpark_parked (by rw [h]; rfl)]
  simp only [State.stackByte, Tab.find_erase_self]

/-- A parked beat that is listed keeps its bytes. -/
theorem State.ListsParked.unpark_stackByte (h : s.ListsParked) (beat a : Nat) :
    (s.unpark beat).stackByte a = s.stackByte a := by
  by_cases hbeat : a / 64 = beat
  · subst hbeat
    cases hfind : s.parked.find (a / 64) with
    | none => rw [State.unpark_listed (by rw [hfind]; rfl)]
    | some seed =>
      have hplace : 64 * (a / 64) + a % 64 = a := Nat.div_add_mod a 64
      have hin : a % 64 < 64 := Nat.mod_lt a (by decide)
      have hlen : a % 64 < (s.readPhys (64 * (a / 64)) 64).length := by rwa [State.readPhys_length]
      have hbyte : (s.readPhys (64 * (a / 64)) 64).getD (a % 64) 0 = s.stackByte a := by
        rw [State.readPhys_getD _ _ hin, hplace]
      rw [State.unpark_stackByte_parked hfind, ← hbyte]
      obtain w | hnonzero := h
      · have hback := memByte_putRun_at (64 * (a / 64)) _ w hlen
        rwa [hplace] at hback
      · obtain ⟨m', -, hput⟩ := memByte_putRun_put s.mem (64 * (a / 64)) _ hlen
        rw [hplace] at hput
        rw [hput]
        refine memByte_memPut_nonzero _ _ ?_
        rw [hbyte, State.stackByte_parked hfind]
        exact hnonzero _ _ (Nat.mod_lt a (by decide))
  · exact State.unpark_stackByte_other hbeat

theorem State.ListsParked.unparks_stackByte (h : s.ListsParked) (l : List Nat) (a : Nat) :
    (l.foldl State.unpark s).stackByte a = s.stackByte a := by
  induction l generalizing s with
  | nil => rfl
  | cons b l ih => rw [List.foldl_cons, ih (h.unpark b), h.unpark_stackByte]

/-- A byte outside of a write is what it is once the beats of the write are listed. -/
theorem State.writePhys_stackByte_outside {addr a : Nat} {bs : List Byte} (h : a < addr ∨ addr + bs.length ≤ a)
    (p : Bool) : (s.writePhys addr bs p).stackByte a = ((physBeats addr bs.length).foldl State.unpark s).stackByte a := by
  simp only [State.writePhys, State.stackByte, memByte_putRun_other _ _ _ h]

theorem State.ListsParked.writePhys_stackByte (h : s.ListsParked) {addr a : Nat} {bs : List Byte}
    (ha : a < addr ∨ addr + bs.length ≤ a) (p : Bool) : (s.writePhys addr bs p).stackByte a = s.stackByte a := by
  rw [State.writePhys_stackByte_outside ha, h.unparks_stackByte]

/-- A listed beat stays as it is, whatever beats are listed beside it. -/
theorem State.unparks_stackByte_listed {a : Nat} (h : s.parked.find (a / 64) = none) (l : List Nat) :
    (l.foldl State.unpark s).stackByte a = s.stackByte a := by
  induction l generalizing s with
  | nil => rfl
  | cons b l ih =>
    rw [List.foldl_cons]
    by_cases hb : a / 64 = b
    · rw [State.unpark_listed (by rw [← hb, h]; rfl), ih h]
    · rw [ih, State.unpark_stackByte_other hb]
      cases hfind : (s.parked.find b).isNone with
      | true => rw [State.unpark_listed hfind, h]
      | false => rw [State.unpark_parked hfind, Tab.find_erase_other _ hb, h]

end

/-! ### An accumulator armed -/

section
variable {s : State}

theorem State.armOne_accums (p : Nat) (d : AccDesc) : (s.armOne p false d).accums =
    (s.accums.filter fun a => a.desc ≠ d.addr) ++
      [{ desc := d.addr, first := d.first, unit := d.unit, port := p, total := d.total }] := by
  have hkeeps : ∀ (t : State) (addr : Nat) (bs : List Byte) (q : Bool), (t.writePhys addr bs q).accums = t.accums := by
    intro t addr bs q
    obtain ⟨_, _, _, _, _, ht⟩ := t.writePhys_data addr bs q
    rw [ht]
  simp only [State.armOne, Bool.false_eq_true, if_false, hkeeps]

theorem State.armOne_trvs (p : Nat) (d : AccDesc) : (s.armOne p false d).trvs = s.trvs := by
  simp only [State.armOne, Bool.false_eq_true, if_false]
  rw [(State.writePhys_data ..).trvs, (State.writePhys_data ..).trvs]

/-- Arming writes STATUS, REASON and COUNT of the descriptor. -/
theorem State.armOne_stackByte (p : Nat) (d : AccDesc) (a : Nat) : (s.armOne p false d).stackByte a =
    ((s.writePhys (d.addr + 5) [1, 0] false).writePhys (d.addr + 8) (leBytes 8 0) false).stackByte a := by
  simp only [State.armOne, State.stackByte, Bool.false_eq_true, if_false]

/-- Arming leaves every byte of the stacks beside those that it writes (R377). -/
theorem State.ListsParked.armOne_stackByte (h : s.ListsParked) (p : Nat) (d : AccDesc) {a : Nat}
    (ha : a < d.addr + 5 ∨ d.addr + 16 ≤ a) : (s.armOne p false d).stackByte a = s.stackByte a := by
  rw [State.armOne_stackByte, (h.writePhys ..).writePhys_stackByte (by rw [Laws.leBytes_length]; omega),
    h.writePhys_stackByte (by simp only [List.length_cons, List.length_nil]; omega)]

end

/-! #### A parked byte 0 in a memory out of form -/

theorem memByte_of_cells {m l : List Host.Cell} {a : Nat} {v : Byte}
    (h : m.filter (fun x => x.1 = a) = (a, v) :: l) : memByte m a = v := by
  induction m with
  | nil => cases h
  | cons e t ih =>
    obtain ⟨b, w⟩ := e
    simp only [memByte]
    by_cases hb : b = a
    · simp only [List.filter_cons, hb, decide_true, if_true, List.cons.injEq, Prod.mk.injEq, true_and] at h
      rw [if_pos hb, h.1]
    · rw [if_neg hb]
      refine ih ?_
      simpa only [List.filter_cons, hb, decide_false, Bool.false_eq_true, if_false] using h

/-- A memory that lists a byte twice keeps it when a 0 is put there: the write takes out one of the two cells. -/
theorem memByte_memPut_zero_of_twice {m : List Host.Cell} {a : Nat} {v : Byte}
    (h : m.filter (fun x => x.1 = a) = [(a, v), (a, v)]) : memByte (memPut m a 0) a = v := by
  induction m with
  | nil => cases h
  | cons e t ih =>
    obtain ⟨b, w⟩ := e
    simp only [memPut, if_true]
    split
    · exact memByte_of_cells h
    · split
      · rename_i hlt heq
        simp only [List.filter_cons, ← heq, decide_true, if_true, List.cons.injEq] at h
        exact memByte_of_cells h.2
      · rename_i hlt hne
        simp only [memByte, if_neg (Ne.symm hne)]
        refine ih ?_
        simpa only [List.filter_cons, Ne.symm hne, decide_false, Bool.false_eq_true, if_false] using h

/-- A memory that lists byte `i` twice, below a parked traverse with the number `seed`. -/
def twiceListed (seed i : Nat) : State := { mem := [(i, 1), (i, 1)], parked := [(i / 64, seed)] }

theorem twiceListed_parked (seed i : Nat) : (twiceListed seed i).parked.find (i / 64) = some seed := by
  simp only [twiceListed, Tab.find, if_true]

/-- The parked byte reads as the parked state gives it. -/
theorem twiceListed_stackByte (seed : Nat) {i : Nat} (hi : i < 256) :
    (twiceListed seed i).stackByte i = Config.parkedByte seed i := by
  rw [State.stackByte_parked (twiceListed_parked seed i), Nat.mod_eq_of_lt hi]

/-- Where the parked byte is 0, it reads as 1 once its beat is listed. -/
theorem twiceListed_unpark {seed i : Nat} (hi : i < 256) (hzero : Config.parkedByte seed i = 0) :
    ((twiceListed seed i).unpark (i / 64)).stackByte i = 1 := by
  have hplace : 64 * (i / 64) + i % 64 = i := Nat.div_add_mod i 64
  have hin : i % 64 < 64 := Nat.mod_lt i (by decide)
  obtain ⟨m', hcells, hput⟩ := memByte_putRun_put (twiceListed seed i).mem (64 * (i / 64))
    ((twiceListed seed i).readPhys (64 * (i / 64)) 64) (i := i % 64) (by rwa [State.readPhys_length])
  rw [State.readPhys_getD _ _ hin, hplace, twiceListed_stackByte seed hi, hzero] at hput
  rw [hplace] at hcells
  rw [State.unpark_stackByte_parked (twiceListed_parked seed i), hput]
  exact memByte_memPut_zero_of_twice (hcells.trans (by simp [twiceListed]))

/-- The beats of a run that lies in one. -/
theorem physBeats_within {addr n b : Nat} (hn : n ≠ 0) (hlo : 64 * b ≤ addr) (hhi : addr + n ≤ 64 * b + 64) :
    physBeats addr n = [b] := by
  have hfirst : addr / 64 = b := by omega
  have hlast : (addr + n - 1) / 64 = b := by omega
  simp [physBeats, hn, hfirst, hlast]

/-- A descriptor at an address of the stacks, for an accumulator of no extent. -/
def bareDesc (addr : Nat) : AccDesc := { addr, handle := 0, first := 0, unit := 0, total := 0 }

/-- An accumulator armed in the beat of the byte, its descriptor's fields beside it, changes the byte. -/
theorem twiceListed_armOne {seed i : Nat} (hi : i < 256) (hzero : Config.parkedByte seed i = 0) {addr : Nat}
    (hlo : 64 * (i / 64) ≤ addr) (hhi : addr + 16 ≤ 64 * (i / 64) + 64) (hout : i < addr + 5 ∨ addr + 16 ≤ i) :
    ((twiceListed seed i).armOne 0 false (bareDesc addr)).stackByte i = 1 := by
  have hlisted : (((twiceListed seed i).writePhys (addr + 5) [1, 0] false).parked.find (i / 64)) = none := by
    simp only [State.writePhys, List.length_cons, List.length_nil,
      physBeats_within (addr := addr + 5) (n := 2) (b := i / 64) (by decide) (by omega) (by omega), List.foldl_cons,
      List.foldl_nil]
    rw [State.unpark_parked (by rw [twiceListed_parked]; rfl)]
    exact Tab.find_erase_self ..
  rw [State.armOne_stackByte]
  simp only [bareDesc]
  rw [State.writePhys_stackByte_outside (by rw [Laws.leBytes_length]; omega), State.unparks_stackByte_listed hlisted,
    State.writePhys_stackByte_outside (by simp only [List.length_cons, List.length_nil]; omega)]
  simp only [List.length_cons, List.length_nil,
    physBeats_within (addr := addr + 5) (n := 2) (b := i / 64) (by decide) (by omega) (by omega), List.foldl_cons,
    List.foldl_nil]
  exact twiceListed_unpark hi hzero

/-- Arming leaves the bytes beside those that it writes in every state, whatever the form of its memory, exactly if no
parked state holds a byte 0. The manual does not give these bytes (R133), and the model keeps them free. -/
theorem armOne_stackByte_iff : (∀ (s : State) (p : Nat) (d : AccDesc) (a : Nat), (a < d.addr + 5 ∨ d.addr + 16 ≤ a) →
    (s.armOne p false d).stackByte a = s.stackByte a) ↔ ∀ seed i, i < 256 → Config.parkedByte seed i ≠ 0 := by
  constructor
  · intro hkeeps seed i hi hzero
    have hclash : ∀ addr, 64 * (i / 64) ≤ addr → addr + 16 ≤ 64 * (i / 64) + 64 → (i < addr + 5 ∨ addr + 16 ≤ i) →
        False := by
      intro addr hlo hhi hout
      have hsame := hkeeps (twiceListed seed i) 0 (bareDesc addr) i hout
      rw [twiceListed_armOne hi hzero hlo hhi hout, twiceListed_stackByte seed hi, hzero] at hsame
      cases hsame
    by_cases hlow : i % 64 < 16
    · exact hclash (64 * (i / 64) + 16) (by omega) (by omega) (by omega)
    · exact hclash (64 * (i / 64)) (by omega) (by omega) (by omega)
  · exact fun hnonzero s p d a ha => State.ListsParked.armOne_stackByte (.inr hnonzero) p d ha

/-! ### ACCUM-ARM and ACCUM-DISARM -/

section
variable {s t : State} {v : Service} {p code i : Nat}

section
variable (h : s.serving 0x0801 = some v) (hp : v.port = some p) (hok : v.accOk 1 = true)
include h hp hok

/-- A message in good form waits until the stacks of its descriptors are reachable. -/
theorem execAccumArm_waits (hread : (s.readable (bufPos (v.quad 2)) (64 * v.word 1)).2 = false) :
    exec .accumArm s = .next (s.readable (bufPos (v.quad 2)) (64 * v.word 1)).1 := by
  rw [exec_accumArm, execAccumArm]
  simp only [h, hp, hok, Bool.not_true, Bool.false_eq_true, if_false]
  rw [State.whenReadable_no (Prod.ext rfl hread)]

variable (hread : s.readable (bufPos (v.quad 2)) (64 * v.word 1) = (t, true))
include hread

theorem execAccumArm_refused (hrefuse : t.armRefusal p (bufPos (v.quad 2)) (v.word 1) = some (code, i)) :
    exec .accumArm s = .next (t.answer [code, i]) := by
  rw [exec_accumArm, execAccumArm]
  simp only [h, hp, hok, Bool.not_true, Bool.false_eq_true, if_false]
  rw [State.whenReadable_yes hread, hrefuse]

/-- A message that nothing refuses arms every descriptor once the stacks that it zeroes are reachable. -/
theorem execAccumArm_arms {ds : List AccDesc} {zero : Bool}
    (hrefuse : t.armRefusal p (bufPos (v.quad 2)) (v.word 1) = none) (hzero : decide (v.word 6 = 1) = zero)
    (hds : ds = (List.range (v.word 1)).map fun i => t.accDesc (bufPos (v.quad 2) + 64 * i)) :
    exec .accumArm s = .next (if (t.reachArm zero ds).2 then
        (ds.foldl (fun (s : State) d => s.armOne p zero d) (t.reachArm zero ds).1).answer [0, 0xFFFF]
      else (t.reachArm zero ds).1) := by
  subst hds hzero
  rw [exec_accumArm, execAccumArm]
  simp only [h, hp, hok, Bool.not_true, Bool.false_eq_true, if_false]
  rw [State.whenReadable_yes hread, hrefuse]

end

section
variable (h : s.serving 0x0802 = some v) (hp : v.port = some p) (hok : v.accOk 0 = true)
include h hp hok

theorem execAccumDisarm_refused (hrefuse : s.disarmRefusal p (bufPos (v.quad 2)) (v.word 1) = some (code, i)) :
    exec .accumDisarm s = .next (s.answer [code, i]) := by
  rw [exec_accumDisarm, execAccumDisarm]
  simp only [h, hp, hok, hrefuse, Bool.not_true, Bool.false_eq_true, if_false]

theorem execAccumDisarm_disarms (hrefuse : s.disarmRefusal p (bufPos (v.quad 2)) (v.word 1) = none)
    (hreach : s.reach (bufQuarters (bufPos (v.quad 2)) (64 * v.word 1)) = (s, true)) :
    exec .accumDisarm s = .next (((List.range (v.word 1)).foldl (fun (s : State) i =>
      ({ s with accums := s.accums.filter (fun x => x.desc ≠ bufAddr (bufPos (v.quad 2) + 64 * i)) } : State).writePhys
        (bufAddr (bufPos (v.quad 2) + 64 * i) + 5) [0] false) s).answer [0, 0xFFFF]) := by
  rw [exec_accumDisarm, execAccumDisarm]
  simp only [h, hp, hok, hrefuse, State.whenAwake, hreach, Bool.not_true, Bool.false_eq_true, if_false, if_true]

end
end

/-! ### Owners of extents -/

section
variable {s : State} {first count h : Nat} (owner last : Option Nat)

/-- A run of handles has the owner that the allocator records for it. -/
theorem State.setOwner_extOwner (hfirst : first ≤ h) (hlast : h < first + count) (hext : h < 4 * extentsPerQuarter) :
    (s.setOwner first count owner last).extOwner h = owner := by
  simp [State.extOwner, State.extRun, State.setOwner, hext, hfirst, hlast]

theorem State.setOwner_none_extOwner (hfirst : first ≤ h) (hlast : h < first + count) :
    (s.setOwner first count none last).extOwner h = none := by
  by_cases hext : h < 4 * extentsPerQuarter
  · exact State.setOwner_extOwner none last hfirst hlast hext
  · rw [State.extOwner, if_neg hext]

theorem State.giveRun_ownsExtent {p : Nat} {zero : Bool} {r : Nat × Nat} (hfirst : r.1 ≤ h) (hlast : h < r.1 + r.2)
    (hext : h < 4 * extentsPerQuarter) : (s.giveRun p zero r).ownsExtent p h = true := by
  rw [State.giveRun, State.ownsExtent, State.setOwner_extOwner _ _ hfirst hlast hext, beq_self_eq_true]

end

/-! ### EXT-ALLOC -/

/-- The form of an EXT-ALLOC message that is not INVALID (R403, R404). -/
def Service.allocOk (v : Service) : Prop :=
  v.word 1 ≤ 3 ∧ 1 ≤ v.word 2 ∧ v.word 2 ≤ 4096 ∧ v.word 3 ≤ 7 ∧
    (bitN (v.word 3) 2 = true → v.word 1 = 0 ∧ v.word 2 % 4 = 0) ∧ v.restZero 4 = true

/-- The quarters that an EXT-ALLOC message takes extents from. -/
def Service.allocQuarters (v : Service) : List Nat := if bitN (v.word 3) 2 = true then [0, 1, 2, 3] else [v.word 1]

/-- How many extents an EXT-ALLOC message takes from each of its quarters. -/
def Service.allocShare (v : Service) : Nat := if bitN (v.word 3) 2 = true then v.word 2 / 4 else v.word 2

/-- The check of the form lets a message through. -/
theorem Service.allocOk.passes {v : Service} (hok : v.allocOk) : (3 < v.word 1 || v.word 2 = 0 || 4096 < v.word 2 ||
    7 < v.word 3 || (bitN (v.word 3) 2 && (v.word 1 ≠ 0 || v.word 2 % 4 ≠ 0)) || !v.restZero 4) = false := by
  obtain ⟨hquarter, hone, hmany, hflags, hspread, hrest⟩ := hok
  have hspread' : (bitN (v.word 3) 2 && (v.word 1 ≠ 0 || v.word 2 % 4 ≠ 0)) = false := by
    cases hbit : bitN (v.word 3) 2 with
    | false => rfl
    | true => simp [hspread hbit]
  have hzero : v.word 2 ≠ 0 := by omega
  simp only [hspread', hrest, hzero, Nat.not_lt.mpr hquarter, Nat.not_lt.mpr hmany, Nat.not_lt.mpr hflags, decide_false,
    Bool.or_self, Bool.not_true]

section
variable {s : State} {v : Service} {p : Nat}

section
variable (h : s.serving 0x0901 = some v) (hp : v.port = some p)
include h hp

theorem execExtAlloc_invalid (hbad : 3 < v.word 1 ∨ v.word 2 = 0 ∨ 4096 < v.word 2 ∨ 7 < v.word 3 ∨
    v.restZero 4 = false ∨ (bitN (v.word 3) 2 = true ∧ (v.word 1 ≠ 0 ∨ v.word 2 % 4 ≠ 0))) :
    exec .extAlloc s = .next (s.answer [3]) := by
  rw [exec_extAlloc, execExtAlloc]
  simp only [h, hp]
  rw [if_pos]
  simp only [Bool.or_eq_true, Bool.and_eq_true, Bool.not_eq_true', decide_eq_true_eq]
  tauto

variable (hok : v.allocOk)
include hok

theorem execExtAlloc_contained (hcontained : s.contained p = true) : exec .extAlloc s = .next (s.answer [1]) := by
  rw [exec_extAlloc, execExtAlloc]
  simp only [h, hp, hok.passes, hcontained, Bool.false_eq_true, if_false, if_true]

variable (hfree : s.contained p = false)
include hfree

/-- Of a message that a quarter has no room for, the first such quarter is named. -/
theorem execExtAlloc_short {q : Nat}
    (hshort : v.allocQuarters.find? (fun q => s.roomIn p q < v.allocShare) = some q) :
    exec .extAlloc s = .next (s.answer ([5, 0] ++ twoWords (s.roomIn p q) ++ [s.longestRun q])) := by
  rw [exec_extAlloc, execExtAlloc]
  rw [Service.allocQuarters, Service.allocShare] at hshort
  simp only [h, hp, hok.passes, hfree, hshort, Bool.false_eq_true, if_false]

/-- The runs picked are handed to the port, once the stacks and channels that zero them are at hand; the longest runs are
picked where those with the lowest handles do not do (R404). -/
theorem execExtAlloc_picks {l : List (Nat × Nat)} (hroom : ∀ q ∈ v.allocQuarters, v.allocShare ≤ s.roomIn p q)
    (hpick : s.pickAll v.allocShare (bitN (v.word 3) 0) false v.allocQuarters 10 = .ok l ∨
      (s.pickAll v.allocShare (bitN (v.word 3) 0) false v.allocQuarters 10).toOption = none ∧
        s.pickAll v.allocShare (bitN (v.word 3) 0) true v.allocQuarters 10 = .ok l) :
    exec .extAlloc s = .next (
      if (s.reachZero (l.flatMap fun r => s.toZero p (bitN (v.word 3) 1) r)).2 then
        (l.foldl (fun (s : State) r => s.giveRun p (bitN (v.word 3) 1) r)
          (s.reachZero (l.flatMap fun r => s.toZero p (bitN (v.word 3) 1) r)).1).answer
          ([0, l.length] ++ l.flatMap fun r => handleWords r.1 ++ [r.2])
      else (s.reachZero (l.flatMap fun r => s.toZero p (bitN (v.word 3) 1) r)).1) := by
  have hnone : v.allocQuarters.find? (fun q => s.roomIn p q < v.allocShare) = none :=
    List.find?_eq_none.mpr fun q hq => by simpa using hroom q hq
  rw [exec_extAlloc, execExtAlloc]
  rw [Service.allocQuarters, Service.allocShare] at hnone hpick
  simp only [h, hp, hok.passes, hfree, hnone, Bool.false_eq_true, if_false]
  obtain hlow | ⟨hfails, hlong⟩ := hpick
  · rw [hlow]
  · cases hfirst : s.pickAll _ (bitN (v.word 3) 0) false _ 10 with
    | ok l' => rw [hfirst] at hfails; cases hfails
    | error q => simp only [hlong]

end

/-- A message for a contiguous run alone takes the extents from one quarter. -/
theorem Service.allocOk_contiguous (hquarter : v.word 1 ≤ 3) (hone : 1 ≤ v.word 2) (hmany : v.word 2 ≤ 4096)
    (hflags : v.word 3 < 4) (hrest : v.restZero 4 = true) :
    v.allocOk ∧ v.allocQuarters = [v.word 1] ∧ v.allocShare = v.word 2 := by
  have hbit : bitN (v.word 3) 2 = false := Nat.testBit_lt_two_pow hflags
  simp only [Service.allocOk, Service.allocQuarters, Service.allocShare, hbit, Bool.false_eq_true, if_false,
    IsEmpty.forall_iff, true_and, and_true]
  exact ⟨hquarter, hone, hmany, by omega, hrest⟩

/-- One quarter's runs make up the plan where they are ten at most. -/
theorem State.pickAll_one {n q : Nat} {contig longest : Bool} {l : List (Nat × Nat)}
    (h : s.pickRuns q n contig longest = some l) (hlen : l.length ≤ 10) : s.pickAll n contig longest [q] 10 = .ok l := by
  simp only [State.pickAll, h, Nat.not_lt.mpr hlen, if_false, Except.map, List.append_nil]

end

/-! ### EXT-FREE and EXT-QUERY -/

/-- The handles that an EXT-FREE message names. -/
def Service.freed (v : Service) : List Nat := List.range' (v.word 1 + v.word 2 * 65536) (v.word 3)

section
variable {s : State} {v : Service} {p : Nat} (h : s.serving 0x0902 = some v) (hp : v.port = some p)
include h hp

theorem execExtFree_foreign {e : Nat} (he : e ∈ v.freed) (hforeign : s.ownsExtent p e = false) :
    exec .extFree s = .next (s.answer [3]) := by
  have hnotAll : ((List.range' (v.word 1 + v.word 2 * 65536) (v.word 3)).all fun h => s.ownsExtent p h) = false :=
    List.all_eq_false.mpr ⟨e, he, by simp [hforeign]⟩
  rw [exec_extFree, execExtFree]
  simp only [h, hp, hnotAll, Bool.not_false, Bool.or_true, if_true]

variable (hhandle : v.word 2 < 0x40) (hone : 1 ≤ v.word 3) (hmany : v.word 3 ≤ 4096) (hrest : v.restZero 4 = true)
  (howns : ∀ e ∈ v.freed, s.ownsExtent p e = true)
include hhandle hone hmany hrest howns

/-- What a message that names extents of its port alone is answered (R405). -/
theorem execExtFree_owned : exec .extFree s = .next (
    if s.contained p then s.answer [1]
    else if v.freed.any s.extentBusy then s.answer [4]
    else ((s.setOwner (v.word 1 + v.word 2 * 65536) (v.word 3) none (some p)).disarmIn fun h =>
      decide (v.word 1 + v.word 2 * 65536 ≤ h) && decide (h < v.word 1 + v.word 2 * 65536 + v.word 3)).answer [0]) := by
  have hzero : v.word 3 ≠ 0 := by omega
  have hall : ((List.range' (v.word 1 + v.word 2 * 65536) (v.word 3)).all fun h => s.ownsExtent p h) = true :=
    List.all_eq_true.mpr howns
  rw [exec_extFree, execExtFree]
  simp only [h, hp, hall, hrest, hzero, Nat.not_le.mpr hhandle, Nat.not_lt.mpr hmany, decide_false, Bool.not_true,
    Bool.or_self, Bool.false_eq_true, if_false]
  rfl

end

theorem execExtQuery_answers {s : State} {v : Service} {p : Nat} (h : s.serving 0x0903 = some v)
    (hp : v.port = some p) (hquarter : v.word 1 ≤ 3) (hrest : v.restZero 2 = true) :
    exec .extQuery s = .next (s.answer ([0] ++ twoWords (s.allocated p (v.word 1)) ++
      twoWords ((s.port p).ap.ext.get (v.word 1) 0) ++ [s.longestRun (v.word 1)])) := by
  rw [exec_extQuery, execExtQuery]
  simp only [h, hp, hrest, Nat.not_lt.mpr hquarter, decide_false, Bool.not_true, Bool.or_self, Bool.false_eq_true,
    if_false]

/-! ### The messages together -/

/-- What O44 comes to; it is left unsettled. Every clause of it holds in every state but for the one about the bytes that
arming leaves, which holds in every state with a canonical memory (`State.ListsParked.armOne_stackByte`). Over all states
that clause says that no byte of a parked state is 0 (`armOne_stackByte_iff`), and `Config.parkedByte` is opaque: neither
this nor its negation can be proved. -/
theorem accumulatorAndExtentMessagesAreServed_iff : Obligations.AccumulatorAndExtentMessagesAreServed ↔
    ∀ seed i, i < 256 → Config.parkedByte seed i ≠ 0 := by
  rw [← armOne_stackByte_iff]
  constructor
  · rintro ⟨-, -, -, -, harmed, -⟩
    intro s p d
    obtain ⟨-, -, hbytes⟩ := harmed s p d
    exact hbytes
  · intro hbytes
    refine ⟨?arm, ?waits, ?zero, fun _ _ _ _ _ _ h hp hok => execAccumArm_refused h hp hok,
      fun s p d => ⟨State.armOne_accums p d, State.armOne_trvs p d, hbytes s p d⟩,
      fun _ _ _ h hp hok => execAccumDisarm_disarms h hp hok, fun _ _ _ _ _ h hp hok => execAccumDisarm_refused h hp hok,
      ?contiguous, ?contained, fun _ _ _ _ _ => State.giveRun_ownsExtent, ?free,
      fun _ _ _ _ _ => State.setOwner_none_extOwner _, fun _ _ _ h hp => execExtQuery_answers h hp, ?flags, ?short,
      fun _ _ _ h hp => execExtAlloc_invalid h hp, fun _ _ _ _ h hp => execExtFree_foreign h hp, ?freeContained,
      ?freeBusy⟩
    case arm =>
      intro s t v p h hp hok hread hrefuse hword
      exact execAccumArm_arms h hp hok hread hrefuse (zero := false) (by simp [hword]) rfl
    case waits =>
      intro s v p h hp hok hread
      have htells := s.readable_tells (bufPos (v.quad 2)) (64 * v.word 1)
      refine ⟨_, execAccumArm_waits h hp hok hread, htells.service, ?_, htells.mem⟩
      obtain ⟨_, _, _, _, _, _, _, _, ht⟩ := htells
      rw [ht]
    case zero =>
      intro s t v p ds h hp hok hread hrefuse hword hds
      exact execAccumArm_arms h hp hok hread hrefuse (zero := true) (by simp [hword]) hds
    case contiguous =>
      intro s v p r h hp hquarter hone hmany hflags hrest hfree hroom hpick
      obtain ⟨hok, hquarters, hshare⟩ := Service.allocOk_contiguous hquarter hone hmany (by omega) hrest
      rw [execExtAlloc_picks h hp hok hfree (l := [r]) (by simpa [hquarters, hshare] using hroom)
        (.inl (by rw [hquarters, hshare, hflags]; exact State.pickAll_one hpick (by simp)))]
      simp only [hflags, List.flatMap_cons, List.flatMap_nil, List.append_nil]
      rfl
    case contained =>
      intro s v p h hp hquarter hone hmany hflags hrest hcontained
      obtain ⟨hok, -, -⟩ := Service.allocOk_contiguous hquarter hone hmany (by omega) hrest
      exact execExtAlloc_contained h hp hok hcontained
    case free =>
      intro s v p h hp hhandle hone hmany hrest howns hfree
      have hidle : v.freed.any s.extentBusy = false := List.any_eq_false.mpr fun e he => by simp [(howns e he).2]
      rw [execExtFree_owned h hp hhandle hone hmany hrest fun e he => (howns e he).1, hfree, hidle]
      rfl
    case flags =>
      rintro s v p n qs l h hp hquarter hone hmany hflags hrest hspread hfree rfl rfl hroom hpick
      exact execExtAlloc_picks h hp ⟨hquarter, hone, hmany, hflags, hspread, hrest⟩ hfree hroom hpick
    case short =>
      intro s v p h hp hquarter hone hmany hflags hrest hfree hshort
      obtain ⟨hok, hquarters, hshare⟩ := Service.allocOk_contiguous hquarter hone hmany hflags hrest
      exact execExtAlloc_short h hp hok hfree (by simp [hquarters, hshare, hshort])
    case freeContained =>
      intro s v p h hp hhandle hone hmany hrest howns hcontained
      rw [execExtFree_owned h hp hhandle hone hmany hrest howns, if_pos hcontained]
    case freeBusy =>
      intro s v p e h hp hhandle hone hmany hrest howns hfree he hbusy
      have hany : v.freed.any s.extentBusy = true := List.any_eq_true.mpr ⟨e, he, hbusy⟩
      rw [execExtFree_owned h hp hhandle hone hmany hrest howns, hfree, hany]
      rfl

end Sys2Proof.Machine

/-! PROOFS. The queue of commands, the canonical form of buffer memory, and the answers of all commands: one lemma for
each operation of the model, file by file as the headings name them, up to `exec` and `step`. -/

namespace Sys2Proof.Machine

-- Elaborated side by side, these proofs wait for one another's equations, a thread each, and reserve more memory for
-- stacks than the check grants.
set_option Elab.async false

/-! ### What every operation keeps -/

/-- From `s` to `t` the commands that wait are the same, and buffer memory keeps its canonical form. -/
def State.Tidy (s t : State) : Prop :=
  t.pending = s.pending ∧ (Memory.wf s.mem = true → Memory.wf t.mem = true)

/-- A command answers `a` in `s`: a next state, tidily reached. -/
def State.TidyAns (s : State) (a : Ans) : Prop := ∃ t, a = .next t ∧ s.Tidy t

/-- An effect of an instruction, if it has one, is tidily reached. -/
def State.TidyEffect (s : State) (r : Try Effect) : Prop := ∀ e, r = .ok e → s.Tidy e.st

section
variable {s t u : State}

theorem State.Tidy.refl (s : State) : s.Tidy s := ⟨rfl, id⟩

theorem State.Tidy.trans (h : s.Tidy t) (k : t.Tidy u) : s.Tidy u := ⟨k.1.trans h.1, k.2 ∘ h.2⟩

theorem State.Tidy.foldl {α : Type} {f : State → α → State} (h : ∀ s a, State.Tidy s (f s a)) (l : List α) (s : State) :
    s.Tidy (l.foldl f s) := by
  induction l generalizing s with
  | nil => exact .refl s
  | cons a l ih => exact (h s a).trans (ih _)

/-- A fold that carries a value beside the state. -/
theorem State.Tidy.foldl_fst {α β : Type} {f : State × β → α → State × β} (h : ∀ x a, State.Tidy x.1 (f x a).1)
    (l : List α) (x : State × β) : x.1.Tidy (l.foldl f x).1 := by
  induction l generalizing x with
  | nil => exact .refl x.1
  | cons a l ih => exact (h x a).trans (ih _)

theorem State.OnlyTells.tidy (h : s.OnlyTells t) : s.Tidy t := by
  obtain ⟨_, _, _, _, _, _, _, _, rfl⟩ := h
  exact .refl s

theorem State.TidyAns.next (h : s.Tidy t) : s.TidyAns (.next t) := ⟨t, rfl, h⟩

theorem State.TidyAns.nextOf {a : Ans} (h : s.TidyAns a) : s.Tidy (nextOf a s) := by
  obtain ⟨t, rfl, ht⟩ := h
  exact ht

theorem State.TidyEffect.ok {e : Effect} (h : s.Tidy e.st) : s.TidyEffect (.ok e) := by
  rintro _ ⟨⟩
  exact h

theorem State.TidyEffect.error (s : State) (e : Exc) : s.TidyEffect (.error e) := by
  intro _ h
  cases h

theorem State.TidyEffect.bind {α : Type} {x : Try α} {f : α → Try Effect} (h : ∀ a, s.TidyEffect (f a)) :
    s.TidyEffect (x >>= f) := by
  cases x with
  | error e => exact .error s e
  | ok a => exact h a

end


/-! ### Ops -/

theorem State.setPort_tidy (s : State) (p : Nat) (x : Port) : s.Tidy (s.setPort p x) := (s.setPort_tells ..).tidy

theorem State.modPort_tidy (s : State) (p : Nat) (f : Port → Port) : s.Tidy (s.modPort p f) :=
  (s.modPort_tells ..).tidy

theorem State.setShelf_tidy (s : State) (i : Nat) (x : Shelf) : s.Tidy (s.setShelf i x) := by
  grind -ring -linarith [State.setShelf, State.Tidy]

theorem State.modShelf_tidy (s : State) (i : Nat) (f : Shelf → Shelf) : s.Tidy (s.modShelf i f) := by
  grind -ring -linarith [State.modShelf, State.Tidy, State.setShelf_tidy]

theorem State.setHandle_tidy (s : State) (h : Nat) (x : Handle) : s.Tidy (s.setHandle h x) := by
  grind -ring -linarith [State.setHandle, State.Tidy]

theorem State.modHandle_tidy (s : State) (h : Nat) (f : Handle → Handle) : s.Tidy (s.modHandle h f) := by
  grind -ring -linarith [State.modHandle, State.Tidy, State.setHandle_tidy]

theorem State.setChain_tidy (s : State) (c : Nat) (x : SasPort) : s.Tidy (s.setChain c x) := by
  grind -ring -linarith [State.setChain, State.Tidy]

theorem State.modChain_tidy (s : State) (c : Nat) (f : SasPort → SasPort) : s.Tidy (s.modChain c f) := by
  grind -ring -linarith [State.modChain, State.Tidy, State.setChain_tidy]

theorem State.setQuarter_tidy (s : State) (q : Nat) (x : Quarter) : s.Tidy (s.setQuarter q x) :=
  (s.setQuarter_tells ..).tidy

theorem State.modQuarter_tidy (s : State) (q : Nat) (f : Quarter → Quarter) : s.Tidy (s.modQuarter q f) := by
  grind -ring -linarith [State.modQuarter, State.Tidy, State.setQuarter_tidy]

theorem State.setEngine_tidy (s : State) (e : Nat) (x : Engine) : s.Tidy (s.setEngine e x) := by
  grind -ring -linarith [State.setEngine, State.Tidy]

theorem State.modEngine_tidy (s : State) (e : Nat) (f : Engine → Engine) : s.Tidy (s.modEngine e f) := by
  grind -ring -linarith [State.modEngine, State.Tidy, State.setEngine_tidy]

theorem State.setChannel_tidy (s : State) (ch : Nat) (x : DmaChannel) : s.Tidy (s.setChannel ch x) :=
  (s.setChannel_tells ..).tidy

theorem State.modChannel_tidy (s : State) (ch : Nat) (f : DmaChannel → DmaChannel) : s.Tidy (s.modChannel ch f) := by
  grind -ring -linarith [State.modChannel, State.Tidy, State.setChannel_tidy]

theorem State.setCore_tidy (s : State) (k : Nat) (x : Core) : s.Tidy (s.setCore k x) := by
  grind -ring -linarith [State.setCore, State.Tidy]

theorem State.modCore_tidy (s : State) (k : Nat) (f : Core → Core) : s.Tidy (s.modCore k f) :=
  (s.modCore_tells ..).tidy

theorem State.setMailbox_tidy (s : State) (i : Nat) (x : Mailbox) : s.Tidy (s.setMailbox i x) := by
  grind -ring -linarith [State.setMailbox, State.Tidy]

theorem State.emit_tidy (s : State) (o : Output) : s.Tidy (s.emit o) := (s.emit_tells ..).tidy

theorem State.writeBuf_tidy (s : State) (pos : Nat) (bs : List Byte) (p : Bool) : s.Tidy (s.writeBuf pos bs p) :=
  ⟨rfl, fun w => State.wf_writeBuf w pos bs p⟩

theorem State.unpark_tidy (s : State) (beat : Nat) : s.Tidy (s.unpark beat) := by
  refine ⟨?_, fun w => State.wf_unpark w beat⟩
  unfold State.unpark
  split <;> rfl

theorem State.writeBeat_tidy (s : State) (addr : Nat) (d : BitVec 512) (p : Bool) : s.Tidy (s.writeBeat addr d p) := by
  refine ⟨?_, fun w => State.wf_writeBeat w addr d p⟩
  unfold State.writeBeat
  rfl

theorem State.writePhys_tidy (s : State) (addr : Nat) (bs : List Byte) (p : Bool) : s.Tidy (s.writePhys addr bs p) := by
  refine ⟨?_, fun w => State.wf_writePhys w addr bs p⟩
  exact (State.Tidy.foldl (fun s b => s.unpark_tidy b) _ s).1

theorem State.freeBytes_tidy (s : State) (n : Nat) : s.Tidy (s.freeBytes n).2 := by
  grind -ring -linarith [State.freeBytes, State.Tidy]

theorem State.freeInfo_tidy (s : State) : s.Tidy (s.freeInfo).2 := by
  grind -ring -linarith [State.freeInfo, State.Tidy]

theorem State.spi_tidy (s : State) (ops : List FlashOp) : s.Tidy (s.spi ops) := by
  grind -ring -linarith [State.spi, State.Tidy, State.emit_tidy, State.Tidy.foldl]

theorem State.countTlp_tidy (s : State) (p d tenant n : Nat) : s.Tidy (s.countTlp p d tenant n) :=
  (s.countTlp_tells ..).tidy

theorem State.hostTlp_tidy (s : State) (p d n : Nat) : s.Tidy (s.hostTlp p d n) := by
  grind -ring -linarith [State.hostTlp, State.Tidy, State.countTlp_tidy]

theorem State.raiseVector_tidy (s : State) (p v : Nat) : s.Tidy (s.raiseVector p v) := (s.raiseVector_tells ..).tidy

theorem State.portEvent_tidy (s : State) (p bit : Nat) : s.Tidy (s.portEvent p bit) := (s.portEvent_tells ..).tidy

theorem State.unclaimed_tidy (s : State) (p : Nat) : s.Tidy (s.unclaimed p) := by
  grind -ring -linarith [State.unclaimed, State.Tidy, State.setPort_tidy, State.portEvent_tidy]

theorem State.barAccess_tidy (s : State) (p : Nat) (f : State → State) (h : ∀ t, State.Tidy t (f t)) :
    s.Tidy (s.barAccess p f) := by
  grind -ring -linarith [State.barAccess, State.Tidy, State.unclaimed_tidy]

theorem State.fnRefused_tidy (s : State) (p : Nat) : s.Tidy (s.fnRefused p) := by
  grind -ring -linarith [State.fnRefused, State.Tidy, State.portEvent_tidy]

theorem State.irq_tidy (s : State) (k src : Nat) : s.Tidy (s.irq k src) := (s.irq_tells ..).tidy

theorem State.toDevice_tidy (s : State) (typ source : Nat) (payload : List Nat) :
    s.Tidy (s.toDevice typ source payload) :=
  (s.toDevice_tells ..).tidy

theorem State.toPort_tidy (s : State) (typ source : Nat) (payload : List Nat) (p : Nat) :
    s.Tidy (s.toPort typ source payload p) :=
  (s.toPort_tells ..).tidy

theorem State.toSas_tidy (s : State) (typ source : Nat) (payload : List Nat) (c : Nat) :
    s.Tidy (s.toSas typ source payload c) := by
  grind -ring -linarith [State.toSas, State.Tidy, State.irq_tidy]

theorem State.toQuarter_tidy (s : State) (typ source : Nat) (payload : List Nat) (q : Nat) :
    s.Tidy (s.toQuarter typ source payload q) :=
  (s.toQuarter_tells ..).tidy

theorem State.toPorts_tidy (s : State) (typ source : Nat) (payload ps : List Nat) :
    s.Tidy (s.toPorts typ source payload ps) :=
  (s.toPorts_tells ..).tidy

theorem State.deviceEvent_tidy (s : State) (typ cause ports detail : Nat) :
    s.Tidy (s.deviceEvent typ cause ports detail) :=
  (s.deviceEvent_tells ..).tidy

theorem State.setOwner_tidy (s : State) (first count : Nat) (owner last : Option Nat) :
    s.Tidy (s.setOwner first count owner last) := by
  grind -ring -linarith [State.setOwner, State.Tidy]

theorem State.memoryEvent_tidy (s : State) (q ev handle off : Nat) : s.Tidy (s.memoryEvent q ev handle off) :=
  (s.memoryEvent_tells ..).tidy

theorem State.beatEvent_tidy (s : State) (ev beat : Nat) : s.Tidy (s.beatEvent ev beat) := by
  grind -ring -linarith [State.beatEvent, State.Tidy, State.memoryEvent_tidy]

theorem State.met_tidy (s : State) (read : Nat → Bool) : s.Tidy (s.met read) := (s.met_tells ..).tidy

theorem State.wakeStack_tidy (s : State) (q : Nat) : s.Tidy (s.wakeStack q) := (s.wakeStack_tells ..).tidy

theorem State.reach_tidy (s : State) (qs : List Nat) : s.Tidy (s.reach qs).1 := by
  grind -ring -linarith [State.reach, State.Tidy, State.wakeStack_tidy, State.Tidy.foldl]

theorem State.readable_tidy (s : State) (pos n : Nat) : s.Tidy (s.readable pos n).1 := (s.readable_tells ..).tidy

theorem State.whenAwake_tidy (s : State) (qs : List Nat) (f : State → State) (h : ∀ t, State.Tidy t (f t)) :
    s.Tidy (s.whenAwake qs f) := by
  grind -ring -linarith [State.whenAwake, State.Tidy, State.reach_tidy]

theorem State.whenReadable_tidy (s : State) (pos n : Nat) (f : State → State) (h : ∀ t, State.Tidy t (f t)) :
    s.Tidy (s.whenReadable pos n f) := by
  grind -ring -linarith [State.whenReadable, State.Tidy, State.readable_tidy]

theorem State.trigger_tidy (s : State) (ch : Nat) : s.Tidy (s.trigger ch) := (s.trigger_tells ..).tidy

theorem State.dmaIrq_tidy (s : State) (ch : Nat) : s.Tidy (s.dmaIrq ch) := (s.dmaIrq_tells ..).tidy

theorem State.reportRun_tidy (s : State) (ch : Nat) (x : DmaChannel) (st resid : Nat) :
    s.Tidy (s.reportRun ch x st resid) := by
  grind -ring -linarith [State.reportRun, State.Tidy, State.setChannel_tidy, State.trigger_tidy, State.dmaIrq_tidy,
    State.Tidy.foldl]

theorem State.firmwareRun_tidy (s : State) (ch : Nat) : s.Tidy (s.firmwareRun ch) := (s.firmwareRun_tells ..).tidy

theorem State.putTrv_tidy (s : State) (t : Trv) : s.Tidy (s.putTrv t) := by
  grind -ring -linarith [State.putTrv, State.Tidy]

theorem State.dropTrv_tidy (s : State) (p tag : Nat) : s.Tidy (s.dropTrv p tag) := by
  grind -ring -linarith [State.dropTrv, State.Tidy]

theorem State.withTrv_tidy (s : State) (p tag : Nat) (f : Trv → State) (h : ∀ v, s.Tidy (f v)) :
    s.Tidy (s.withTrv p tag f) := by
  grind -ring -linarith [State.withTrv, State.Tidy]

theorem State.collect_tidy (s : State) (engine : Option Nat) (c : Completion) : s.Tidy (s.collect engine c) := by
  grind -ring -linarith [State.collect, State.Tidy]

theorem State.settleNotices_tidy (s : State) : s.Tidy (s.settleNotices) := by
  grind -ring -linarith [State.settleNotices, State.Tidy]

theorem State.completeEntry_tidy (s : State) (p q tag : Nat) (urgent : Bool) (status : BitVec 8)
    (result station : Nat) :
    s.Tidy (s.completeEntry p q tag urgent status result station) := by
  grind -ring -linarith [State.completeEntry, State.Tidy, State.collect_tidy]

theorem State.hostWrite_tidy (s : State) (p tag addr : Nat) (bs : List Byte) (relaxed ep : Bool) :
    s.Tidy (s.hostWrite p tag addr bs relaxed ep) :=
  (s.hostWrite_tells ..).tidy

theorem State.hostWrites_tidy (s : State) (p tag addr : Nat) (bs : List Byte) : s.Tidy (s.hostWrites p tag addr bs) :=
  (s.hostWrites_tells ..).tidy

theorem State.issueRead_tidy (s : State) (p addr len : Nat) (why : ReadPurpose) :
    s.Tidy (s.issueRead p addr len why) := by
  grind -ring -linarith [State.issueRead, State.Tidy, State.modPort_tidy, State.emit_tidy]

theorem State.sendRead_tidy (s : State) (p : Nat) : s.Tidy (s.sendRead p) := (s.sendRead_tells ..).tidy

/-! ### TableGen -/

theorem State.tableEvent_tidy (s : State) (ev detail q row : Nat) : s.Tidy (s.tableEvent ev detail q row) := by
  grind -ring -linarith [State.tableEvent, State.Tidy, State.toDevice_tidy]

theorem State.generate_tidy (s : State) : s.Tidy (s.generate) := by
  grind -ring -linarith [State.generate, State.Tidy, State.tableEvent_tidy, State.modQuarter_tidy, State.Tidy.foldl]

theorem State.regenerate_tidy (s : State) : s.Tidy (s.regenerate) := by
  grind -ring -linarith [State.regenerate, State.Tidy, State.generate_tidy]

theorem State.adoptProfile_tidy (s : State) (e : Nat) : s.Tidy (s.adoptProfile e) := by
  grind -ring -linarith [State.adoptProfile, State.Tidy, State.setEngine_tidy]

theorem State.bringProfile_tidy (s : State) (e : Nat) : s.Tidy (s.bringProfile e) := by
  grind -ring -linarith [State.bringProfile, State.Tidy, State.setEngine_tidy, State.adoptProfile_tidy]

/-! ### Contain -/

theorem State.emptySecure_tidy (s : State) : s.Tidy (s.emptySecure) := by
  grind -ring -linarith [State.emptySecure, State.Tidy]

theorem State.dropStaged_tidy (s : State) : s.Tidy (s.dropStaged) := by
  grind -ring -linarith [State.dropStaged, State.Tidy]

theorem State.resetPort_tidy (s : State) (p : Nat) (config flr : Bool) : s.Tidy (s.resetPort p config flr) := by
  grind -ring -linarith [State.resetPort, State.Tidy, State.modPort_tidy, State.emptySecure_tidy, State.Tidy.foldl]

theorem State.containEvent_tidy (s : State) (typ cause bits detail : Nat) (ports : List Nat) :
    s.Tidy (s.containEvent typ cause bits detail ports) :=
  (s.containEvent_tells ..).tidy

theorem State.startEngine_tidy (s : State) (k : Nat) : s.Tidy (s.startEngine k) := by
  grind -ring -linarith [State.startEngine, State.Tidy, State.setCore_tidy]

theorem State.readSfdp_tidy (s : State) : s.Tidy (s.readSfdp) := by
  grind -ring -linarith [State.readSfdp, State.Tidy, State.spi_tidy]

theorem State.enterRecovery_tidy (s : State) (why : Nat) : s.Tidy (s.enterRecovery why) := by
  grind -ring -linarith [State.enterRecovery, State.Tidy, State.deviceEvent_tidy]

theorem State.resetIslands_tidy (s : State) : s.Tidy (s.resetIslands) := ⟨rfl, fun _ => rfl⟩

theorem State.restart_tidy (s : State) (cause : Nat) : s.Tidy (s.restart cause) := by
  grind -ring -linarith [State.restart, State.Tidy, State.resetIslands_tidy, State.enterRecovery_tidy,
    State.readSfdp_tidy, State.deviceEvent_tidy, State.portEvent_tidy, State.Tidy.foldl]

theorem State.startHost_tidy (s : State) (p cause : Nat) (reset config : Bool) :
    s.Tidy (s.startHost p cause reset config) := by
  grind -ring -linarith [State.startHost, State.Tidy, State.setPort_tidy, State.resetPort_tidy, State.restart_tidy,
    State.containEvent_tidy]

theorem State.startDevice_tidy (s : State) (cause : Nat) (engine : Option Nat) :
    s.Tidy (s.startDevice cause engine) := by
  grind -ring -linarith [State.startDevice, State.Tidy, State.restart_tidy, State.containEvent_tidy]

theorem State.firmwareRead_tidy (s : State) (addr n : Nat) : s.Tidy (s.firmwareRead addr n) := by
  grind -ring -linarith [State.firmwareRead, State.Tidy, State.startDevice_tidy, State.beatEvent_tidy]

/-! ### Traverse -/

theorem State.handOver_tidy (s : State) (h : Nat) (owner : CmdOwner) (cdb : List Byte) (dir len : Nat)
    (segments : List Segment) :
    s.Tidy (s.handOver h owner cdb dir len segments) := by
  grind -ring -linarith [State.handOver, State.Tidy, State.modChain_tidy]

theorem State.sendTmf_tidy (s : State) (h function : Nat) (managed : Option Nat) (owner : TmfOwner) :
    s.Tidy (s.sendTmf h function managed owner) := by
  grind -ring -linarith [State.sendTmf, State.Tidy, State.modChain_tidy]

theorem State.outingEvent_tidy (s : State) (sh ev detail : Nat) : s.Tidy (s.outingEvent sh ev detail) :=
  (s.outingEvent_tells ..).tidy

theorem State.enterShelf_tidy (s : State) (sh : Nat) (st : ShelfState) (ev detail : Nat) :
    s.Tidy (s.enterShelf sh st ev detail) := by
  grind -ring -linarith [State.enterShelf, State.Tidy, State.modShelf_tidy, State.outingEvent_tidy]

theorem State.lapse_tidy (s : State) (sh : Nat) : s.Tidy (s.lapse sh) := by
  grind -ring -linarith [State.lapse, State.Tidy]

theorem State.closingAdvance_tidy (s : State) (sh : Nat) : s.Tidy (s.closingAdvance sh) := by
  grind -ring -linarith [State.closingAdvance, State.Tidy, State.handOver_tidy, State.setShelf_tidy, State.Tidy.foldl]

theorem State.enterClosing_tidy (s : State) (sh : Nat) : s.Tidy (s.enterClosing sh) := by
  grind -ring -linarith [State.enterClosing, State.Tidy, State.closingAdvance_tidy, State.lapse_tidy,
    State.modShelf_tidy, State.enterShelf_tidy]

theorem State.workChanged_tidy (s : State) (sh : Nat) : s.Tidy (s.workChanged sh) := by
  grind -ring -linarith [State.workChanged, State.Tidy, State.enterClosing_tidy, State.setShelf_tidy,
    State.enterShelf_tidy]

theorem State.rivalsChanged_tidy (s : State) (c : Nat) : s.Tidy (s.rivalsChanged c) := by
  grind -ring -linarith [State.rivalsChanged, State.Tidy, State.workChanged_tidy, State.Tidy.foldl]

theorem State.sbRun_tidy (s : State) (t : Trv) : s.Tidy (s.sbRun t) := (s.sbRun_tells ..).tidy

theorem State.deferSb_tidy (s : State) (q : Nat) (w : SbWrite) : s.Tidy (s.deferSb q w) := by
  grind -ring -linarith [State.deferSb, State.Tidy, State.modQuarter_tidy]

theorem State.writeSb_tidy (s : State) (t : Trv) (off : Nat) (bs : List Byte) : s.Tidy (s.writeSb t off bs).1 := by
  grind -ring -linarith [State.writeSb, State.Tidy, State.sbRun_tidy, State.hostWrites_tidy, State.reach_tidy,
    State.writeBuf_tidy, State.deferSb_tidy]

theorem State.writeBlock_tidy (s : State) (t : Trv) : s.Tidy (s.writeBlock t).1 := by
  grind -ring -linarith [State.writeBlock, State.Tidy, State.writeSb_tidy]

theorem State.writeRecord_tidy (s : State) (t : Trv) (kind code : Nat) : s.Tidy (s.writeRecord t kind code).1 := by
  grind -ring -linarith [State.writeRecord, State.Tidy, State.writeBlock_tidy, State.writeSb_tidy]

theorem State.writeSense_tidy (s : State) (t : Trv) (sense : List Byte) : s.Tidy (s.writeSense t sense).1 := by
  grind -ring -linarith [State.writeSense, State.Tidy, State.writeBlock_tidy, State.writeSb_tidy]

theorem State.flushNotes_tidy (s : State) (t : Trv) : s.Tidy (s.flushNotes t).1 := by
  refine State.Tidy.foldl_fst (fun x n => ?_) _ _
  grind -ring -linarith [State.Tidy, State.writeRecord_tidy, State.completeEntry_tidy]

theorem State.dropFetch_tidy (s : State) (t : Trv) : s.Tidy (s.dropFetch t) := by
  grind -ring -linarith [State.dropFetch, State.Tidy, State.modPort_tidy]

theorem State.writeEntry_tidy (s : State) (t : Trv) : s.Tidy (s.writeEntry t).1 :=
  ⟨rfl, fun w => Memory.wf_filter w _⟩

theorem State.park_tidy (s : State) (t : Trv) (st : TrvState) : s.Tidy (s.park t st) := by
  grind -ring -linarith [State.park, State.Tidy, State.putTrv_tidy, State.flushNotes_tidy, State.writeEntry_tidy,
    State.dropFetch_tidy]

theorem State.reserve_tidy (s : State) (t : Trv) : s.Tidy (s.reserve t) := by
  grind -ring -linarith [State.reserve, State.Tidy, State.wakeStack_tidy, State.putTrv_tidy, State.Tidy.foldl]

theorem State.reexamine_tidy (s : State) : s.Tidy (s.reexamine) := by
  grind -ring -linarith [State.reexamine, State.Tidy, State.reserve_tidy, State.Tidy.foldl]

theorem State.release_tidy (s : State) (p tag : Nat) : s.Tidy (s.release p tag) := by
  grind -ring -linarith [State.release, State.Tidy]

theorem State.form_tidy (s : State) (t : Trv) (c : Completion) : s.Tidy (s.form t c) := by
  grind -ring -linarith [State.form, State.Tidy, State.putTrv_tidy, State.collect_tidy]

theorem State.confirm_tidy (s : State) (t : Trv) (c : Completion) : s.Tidy (s.confirm t c) := by
  grind -ring -linarith [State.confirm, State.Tidy, State.form_tidy, State.putTrv_tidy, State.issueRead_tidy]

theorem State.readbackEnds_tidy (s : State) (p tag : Nat) (ok : Bool) : s.Tidy (s.readbackEnds p tag ok) := by
  grind -ring -linarith [State.readbackEnds, State.Tidy, State.withTrv_tidy, State.form_tidy, State.sbRun_tidy,
    State.putTrv_tidy]

theorem State.sbTurns_tidy (q : Nat) (l : List SbWrite) (s : State) : s.Tidy (State.sbTurns q l s) := by
  induction l generalizing s with
  | nil => exact .refl s
  | cons w rest ih =>
    refine ((s.reach_tidy _).trans (State.withTrv_tidy _ _ _ _ fun t => ?_)).trans (ih _)
    split
    · exact State.deferSb_tidy ..
    · exact (State.writeBuf_tidy ..).trans (State.sbRun_tidy ..)

theorem State.settleSb_tidy (s : State) (w : SbWrite) : s.Tidy (s.settleSb w) := by
  grind -ring -linarith [State.settleSb, State.Tidy, State.withTrv_tidy, State.putTrv_tidy, State.confirm_tidy]

theorem State.serveSb_tidy (s : State) (q : Nat) : s.Tidy (s.serveSb q) := by
  grind -ring -linarith [State.serveSb, State.Tidy, State.sbTurns_tidy, State.settleSb_tidy, State.modQuarter_tidy,
    State.Tidy.foldl]

theorem State.satisfyOne_tidy (s : State) (w : Trv) (info : Nat) : s.Tidy (s.satisfyOne w info).1 := by
  grind -ring -linarith [State.satisfyOne, State.Tidy, State.putTrv_tidy]

theorem State.satisfy_tidy (s : State) (p tag : Nat) (stations : Option (Nat × Nat)) (info : Nat) :
    s.Tidy (s.satisfy p tag stations info).1 := by
  refine State.Tidy.foldl_fst (fun x w => ?_) _ (s, [])
  exact x.1.satisfyOne_tidy w info

theorem State.leaveBasket_tidy (s : State) (t : Trv) : s.Tidy (s.leaveBasket t) := by
  grind -ring -linarith [State.leaveBasket, State.Tidy, State.modShelf_tidy]

theorem State.unbook_tidy (s : State) (t : Trv) : s.Tidy (s.unbook t).1 := by
  grind -ring -linarith [State.unbook, State.Tidy, State.putTrv_tidy, State.workChanged_tidy, State.Tidy.foldl]

theorem State.endOne_tidy (s : State) (t : Trv) (e : Ending) : s.Tidy (s.endOne t e).1 := by
  grind -ring -linarith [State.endOne, State.Tidy, State.reexamine_tidy, State.writeBlock_tidy, State.putTrv_tidy,
    State.flushNotes_tidy, State.satisfy_tidy, State.dropFetch_tidy, State.confirm_tidy, State.unbook_tidy,
    State.release_tidy, State.leaveBasket_tidy]

theorem State.endTrvs_tidy (n : Nat) (l : List (Nat × Nat × Ending)) (s : State) : s.Tidy (State.endTrvs n l s) := by
  induction n generalizing l s with
  | zero => exact .refl s
  | succ n ih =>
    cases l with
    | nil => exact .refl s
    | cons x rest => grind -ring -linarith [State.endTrvs, State.Tidy, State.endOne_tidy]

theorem State.endList_tidy (s : State) (l : List (Nat × Nat × Ending)) : s.Tidy (s.endList l) := by
  grind -ring -linarith [State.endList, State.Tidy, State.endTrvs_tidy]

theorem State.endTrv_tidy (s : State) (t : Trv) (e : Ending) : s.Tidy (s.endTrv t e) := by
  grind -ring -linarith [State.endTrv, State.Tidy, State.endList_tidy, State.putTrv_tidy]

theorem State.legDone_tidy (s : State) (t : Trv) (r : LegResult) : s.Tidy (s.legDone t r) := by
  grind -ring -linarith [State.legDone, State.Tidy, State.endTrv_tidy, State.putTrv_tidy, State.writeSense_tidy]

theorem State.endAt_tidy (s : State) (t : Trv) (st : BitVec 8) (residual : Nat) : s.Tidy (s.endAt t st residual) := by
  grind -ring -linarith [State.endAt, State.Tidy, State.endTrv_tidy]

/-! ### Elastic -/

theorem State.placeBytes_tidy (s : State) (segs : List Segment) (off : Nat) (bs : List Byte) (poison : Bool) :
    s.Tidy (s.placeBytes segs off bs poison) := by
  grind -ring -linarith [State.placeBytes, State.Tidy, State.writeBuf_tidy, State.Tidy.foldl]

theorem State.landFrames_tidy (s : State) (c : Nat) (cmd : Cmd) (keep : Bool) : s.Tidy (s.landFrames c cmd keep) := by
  grind -ring -linarith [State.landFrames, State.Tidy, State.placeBytes_tidy, State.modChain_tidy, State.Tidy.foldl]

theorem State.discardData_tidy (s : State) (c : Nat) (cmd : Cmd) : s.Tidy (s.discardData c cmd) := by
  grind -ring -linarith [State.discardData, State.Tidy, State.landFrames_tidy]

/-! ### SasOps -/

theorem State.sasEvent_tidy (s : State) (c typ word : Nat) (more ports : List Nat) :
    s.Tidy (s.sasEvent c typ word more ports) := by
  grind -ring -linarith [State.sasEvent, State.Tidy, State.toDevice_tidy, State.toPorts_tidy, State.toSas_tidy]

theorem State.recoveryEvent_tidy (s : State) (h step result : Nat) : s.Tidy (s.recoveryEvent h step result) := by
  grind -ring -linarith [State.recoveryEvent, State.Tidy, State.sasEvent_tidy]

theorem State.deviceHandleEvent_tidy (s : State) (c event slot kind handle : Nat) (sas : BitVec 64)
    (ports : List Nat) :
    s.Tidy (s.deviceHandleEvent c event slot kind handle sas ports) := by
  grind -ring -linarith [State.deviceHandleEvent, State.Tidy, State.sasEvent_tidy]

theorem State.putCmd_tidy (s : State) (ch : Nat) (c : Cmd) : s.Tidy (s.putCmd ch c) := by
  grind -ring -linarith [State.putCmd, State.Tidy, State.modChain_tidy]

theorem State.dropCmd_tidy (s : State) (ch id : Nat) : s.Tidy (s.dropCmd ch id) := by
  grind -ring -linarith [State.dropCmd, State.Tidy, State.modChain_tidy]

theorem State.concludeRun_tidy (s : State) (t : Trv) : s.Tidy (s.concludeRun t) := by
  grind -ring -linarith [State.concludeRun, State.Tidy, State.endTrv_tidy, State.putTrv_tidy]

theorem State.runSettle_tidy (s : State) (t : Trv) : s.Tidy (s.runSettle t) := by
  grind -ring -linarith [State.runSettle, State.Tidy, State.putTrv_tidy, State.concludeRun_tidy]

theorem State.scramble_tidy (s : State) (pos n : Nat) : s.Tidy (s.scramble pos n) := by
  grind -ring -linarith [State.scramble, State.Tidy, State.freeBytes_tidy, State.writeBuf_tidy]

theorem State.gatherOver_tidy (s : State) (t : Trv) (g : GatherState) : s.Tidy (s.gatherOver t g) := by
  grind -ring -linarith [State.gatherOver, State.Tidy, State.legDone_tidy, State.scramble_tidy, State.writeBuf_tidy,
    State.Tidy.foldl]

theorem State.setFlushing_tidy (s : State) (d : Nat) (on : Bool) : s.Tidy (s.setFlushing d on) := by
  grind -ring -linarith [State.setFlushing, State.Tidy, State.writePhys_tidy]

theorem State.flushOver_tidy (s : State) (c : Cmd) : s.Tidy (s.flushOver c) := by
  grind -ring -linarith [State.flushOver, State.Tidy, State.setFlushing_tidy]

theorem State.removeCmd_tidy (s : State) (ch : Nat) (c : Cmd) : s.Tidy (s.removeCmd ch c) := by
  grind -ring -linarith [State.removeCmd, State.Tidy, State.closingAdvance_tidy, State.dropCmd_tidy,
    State.flushOver_tidy]

theorem State.gatherAbort_tidy (s : State) (t : Trv) (g : GatherState) : s.Tidy (s.gatherAbort t g).1 := by
  refine State.Tidy.foldl_fst (fun x c => ?_) _ _
  grind -ring -linarith [State.Tidy, State.removeCmd_tidy, State.sendTmf_tidy, State.putCmd_tidy]

theorem State.gatherEnd_tidy (s : State) (t : Trv) (g : GatherState) (i : Nat) (e : LegEnd) (arrives byAbort : Bool) :
    s.Tidy (s.gatherEnd t g i e arrives byAbort) := by
  grind -ring -linarith [State.gatherEnd, State.Tidy, State.putTrv_tidy, State.gatherAbort_tidy,
    State.gatherOver_tidy]

theorem State.spinSettle_tidy (s0 : State) (t : Trv) (slot : Nat) (o : SpinOutcome) :
    s0.Tidy (s0.spinSettle t slot o) := by
  unfold State.spinSettle
  split <;> grind -ring -linarith [State.Tidy, State.freeInfo_tidy, State.legDone_tidy, State.putTrv_tidy,
    State.modShelf_tidy]

theorem State.drain_tidy (s : State) (sh : Nat) : s.Tidy (s.drain sh) := by
  grind -ring -linarith [State.drain, State.Tidy, State.modShelf_tidy, State.workChanged_tidy, State.enterShelf_tidy]

theorem State.ageDrain_tidy (s : State) (c : Nat) : s.Tidy (s.ageDrain c) := by
  grind -ring -linarith [State.ageDrain, State.Tidy, State.drain_tidy]

theorem State.wakeEntry_tidy (s : State) (sh : Nat) (b : BasketEntry) : s.Tidy (s.wakeEntry sh b) := by
  grind -ring -linarith [State.wakeEntry, State.Tidy, State.writeRecord_tidy, State.withTrv_tidy, State.putTrv_tidy]

theorem State.openShelf_tidy (s : State) (sh : Nat) : s.Tidy (s.openShelf sh) := by
  grind -ring -linarith [State.openShelf, State.Tidy, State.withTrv_tidy, State.legDone_tidy, State.ageDrain_tidy,
    State.setShelf_tidy, State.wakeEntry_tidy, State.workChanged_tidy, State.enterShelf_tidy, State.Tidy.foldl]

theorem State.slotReady_tidy (s : State) (sh slot : Nat) : s.Tidy (s.slotReady sh slot) := by
  grind -ring -linarith [State.slotReady, State.Tidy, State.openShelf_tidy, State.setShelf_tidy]

theorem State.closingAnswer_tidy (s : State) (sh slot : Nat) (stop : Bool) : s.Tidy (s.closingAnswer sh slot stop) := by
  grind -ring -linarith [State.closingAnswer, State.Tidy, State.handOver_tidy, State.setShelf_tidy]

theorem State.deliverEnd_tidy (s : State) (c : Cmd) (e : LegEnd) (byAbort : Bool) :
    s.Tidy (s.deliverEnd c e byAbort) := by
  grind -ring -linarith [State.deliverEnd, State.Tidy, State.gatherEnd_tidy, State.withTrv_tidy,
    State.spinSettle_tidy, State.legDone_tidy, State.runSettle_tidy, State.writeSense_tidy, State.modShelf_tidy,
    State.closingAnswer_tidy, State.slotReady_tidy]

theorem State.endCmd_tidy (s : State) (ch : Nat) (c : Cmd) (e : LegEnd) (byAbort : Bool) :
    s.Tidy (s.endCmd ch c e byAbort) := by
  grind -ring -linarith [State.endCmd, State.Tidy, State.closingAdvance_tidy, State.dropCmd_tidy,
    State.deliverEnd_tidy, State.landFrames_tidy, State.flushOver_tidy]

theorem State.endCmds_tidy (s : State) (ch : Nat) (ids : List Nat) (f : Cmd → LegEnd) : s.Tidy (s.endCmds ch ids f) := by
  grind -ring -linarith [State.endCmds, State.Tidy, State.endCmd_tidy, State.Tidy.foldl]

theorem State.abortCmd_tidy (s : State) (ch : Nat) (c : Cmd) (why : AbortWhy) : s.Tidy (s.abortCmd ch c why) := by
  grind -ring -linarith [State.abortCmd, State.Tidy, State.sendTmf_tidy, State.putCmd_tidy]

theorem State.orphanCmd_tidy (s : State) (ch : Nat) (c : Cmd) : s.Tidy (s.orphanCmd ch c) := by
  grind -ring -linarith [State.orphanCmd, State.Tidy, State.removeCmd_tidy, State.discardData_tidy, State.endCmd_tidy,
    State.abortCmd_tidy]

theorem State.endRecovery_tidy (s : State) (h : Nat) : s.Tidy (s.endRecovery h) := by
  grind -ring -linarith [State.endRecovery, State.Tidy, State.modChain_tidy, State.modHandle_tidy]

theorem State.cancelRetries_tidy (s : State) (h : Nat) : s.Tidy (s.cancelRetries h) := by
  grind -ring -linarith [State.cancelRetries, State.Tidy, State.endCmds_tidy]

theorem State.cutCmds_tidy (s : State) (ch : Nat) (ids : List Nat) (f : Cmd → LegEnd) : s.Tidy (s.cutCmds ch ids f) := by
  grind -ring -linarith [State.cutCmds, State.Tidy, State.endCmd_tidy, State.Tidy.foldl]

theorem State.detach_tidy (s : State) (h : Nat) : s.Tidy (s.detach h) := by
  grind -ring -linarith [State.detach, State.Tidy, State.modChain_tidy, State.setHandle_tidy, State.cutCmds_tidy,
    State.deviceHandleEvent_tidy]

theorem State.recoveryStep_tidy (s : State) (h step : Nat) : s.Tidy (s.recoveryStep h step) := by
  grind -ring -linarith [State.recoveryStep, State.Tidy, State.sendTmf_tidy, State.modHandle_tidy, State.emit_tidy]

theorem State.startRecovery_tidy (s : State) (h step : Nat) (ids : List Nat) : s.Tidy (s.startRecovery h step ids) := by
  grind -ring -linarith [State.startRecovery, State.Tidy, State.recoveryStep_tidy, State.sendTmf_tidy,
    State.cancelRetries_tidy, State.modHandle_tidy, State.Tidy.foldl]

theorem State.recoveryAnswered_tidy (s : State) (h : Nat) : s.Tidy (s.recoveryAnswered h) := by
  grind -ring -linarith [State.recoveryAnswered, State.Tidy, State.cutCmds_tidy, State.endRecovery_tidy]

theorem State.recoveryMissed_tidy (s : State) (h result : Nat) : s.Tidy (s.recoveryMissed h result) := by
  grind -ring -linarith [State.recoveryMissed, State.Tidy, State.recoveryStep_tidy, State.detach_tidy,
    State.recoveryEvent_tidy, State.modHandle_tidy]

theorem State.abortAnswered_tidy (s : State) (h id : Nat) : s.Tidy (s.abortAnswered h id) := by
  grind -ring -linarith [State.abortAnswered, State.Tidy, State.endCmd_tidy, State.recoveryEvent_tidy,
    State.endRecovery_tidy, State.modHandle_tidy]

theorem State.recoverySettle_tidy (s : State) (h : Nat) : s.Tidy (s.recoverySettle h) := by
  grind -ring -linarith [State.recoverySettle, State.Tidy, State.endRecovery_tidy]

/-! ### Accum -/

theorem State.taint_tidy (s : State) (a : Accum) (reason : Nat) : s.Tidy (s.taint a reason) := by
  grind -ring -linarith [State.taint, State.Tidy, State.writePhys_tidy]

theorem State.abortFlush_tidy (s : State) (a : Accum) : s.Tidy (s.abortFlush a) := by
  grind -ring -linarith [State.abortFlush, State.Tidy, State.endCmd_tidy, State.abortCmd_tidy, State.Tidy.foldl]

theorem State.countContribution_tidy (s : State) (a : Accum) : s.Tidy (s.countContribution a) := by
  grind -ring -linarith [State.countContribution, State.Tidy, State.taint_tidy, State.writePhys_tidy]

theorem State.accumBeat_tidy (s : State) (addr : Nat) (coef : Byte) (data : BitVec 512) (poison : Bool) :
    s.Tidy (s.accumBeat addr coef data poison) := by
  grind -ring -linarith [State.accumBeat, State.Tidy, State.taint_tidy, State.writePhys_tidy, State.abortFlush_tidy]

theorem State.countAt_tidy (s : State) (addr : Nat) : s.Tidy (s.countAt addr) := by
  grind -ring -linarith [State.countAt, State.Tidy, State.countContribution_tidy]

theorem State.disarmIn_tidy (s : State) (lost : Nat → Bool) : s.Tidy (s.disarmIn lost) := by
  grind -ring -linarith [State.disarmIn, State.Tidy, State.writePhys_tidy, State.Tidy.foldl]

theorem State.taintAll_tidy (s : State) (exts : List Nat) : s.Tidy (s.taintAll exts) := by
  grind -ring -linarith [State.taintAll, State.Tidy, State.taint_tidy, State.Tidy.foldl]

/-! ### Mailbox -/

theorem State.ringCore_tidy (s : State) (k reg bit : Nat) : s.Tidy (s.ringCore k reg bit) := by
  grind -ring -linarith [State.ringCore, State.Tidy, State.modCore_tidy]

theorem State.ringHost_tidy (s : State) (p bit : Nat) : s.Tidy (s.ringHost p bit) := by
  grind -ring -linarith [State.ringHost, State.Tidy, State.setPort_tidy, State.portEvent_tidy]

theorem State.mbRing_tidy (s : State) (i : Nat) : s.Tidy (s.mbRing i) := by
  unfold State.mbRing
  split <;> grind -ring -linarith [State.Tidy, State.ringHost_tidy, State.ringCore_tidy]

theorem State.senderWrite_tidy (s : State) (by_ : Sender) (f : State → State) (h : ∀ t, State.Tidy t (f t)) :
    s.Tidy (s.senderWrite by_ f) := by
  unfold State.senderWrite
  split <;> grind -ring -linarith [State.Tidy, State.barAccess_tidy, State.hostTlp_tidy]

theorem State.modMailbox_tidy (s : State) (i : Nat) (f : Mailbox → Mailbox) : s.Tidy (s.modMailbox i f) := by
  grind -ring -linarith [State.modMailbox, State.Tidy, State.setMailbox_tidy]

theorem State.mbPostLen_tidy (s : State) (i len : Nat) : s.Tidy (s.mbPostLen i len) := by
  grind -ring -linarith [State.mbPostLen, State.Tidy, State.mbRing_tidy, State.setMailbox_tidy]

theorem State.mbRelease_tidy (s : State) (i : Nat) : s.Tidy (s.mbRelease i) := by
  grind -ring -linarith [State.mbRelease, State.Tidy, State.ringHost_tidy, State.setMailbox_tidy]

theorem State.ungate_tidy (s : State) (k : Nat) : s.Tidy (s.ungate k) := by
  grind -ring -linarith [State.ungate, State.Tidy, State.modCore_tidy, State.Tidy.foldl]

theorem State.mbReqPost_tidy (s : State) (p m : Nat) (v : BitVec 32) : s.Tidy (s.mbReqPost p m v) := by
  grind -ring -linarith [State.mbReqPost, State.Tidy, State.mbPostLen_tidy, State.unclaimed_tidy]

theorem execMbReqPost_tidy (p m : Nat) (v : BitVec 32) (s : State) : s.TidyAns (execMbReqPost p m v s) := by
  grind -ring -linarith [execMbReqPost, State.TidyAns, State.Tidy, State.barAccess_tidy, State.hostTlp_tidy,
    State.mbReqPost_tidy]

theorem State.mbRplRel_tidy (s : State) (p m : Nat) (v : BitVec 32) : s.Tidy (s.mbRplRel p m v) := by
  grind -ring -linarith [State.mbRplRel, State.Tidy, State.unclaimed_tidy, State.mbRelease_tidy]

theorem execMbRplRel_tidy (p m : Nat) (v : BitVec 32) (s : State) : s.TidyAns (execMbRplRel p m v s) := by
  grind -ring -linarith [execMbRplRel, State.TidyAns, State.Tidy, State.barAccess_tidy, State.mbRplRel_tidy,
    State.hostTlp_tidy]

theorem State.mbWord0_tidy (s : State) (by_ : Sender) (inst : Nat) (v : BitVec 32) : s.Tidy (s.mbWord0 by_ inst v) := by
  unfold State.mbWord0
  split <;> grind -ring -linarith [State.Tidy, State.mbPostLen_tidy, State.modMailbox_tidy, State.ungate_tidy]

theorem execMbWakeWord0Write_tidy (by_ : Sender) (inst : Nat) (v : BitVec 32) (s : State) :
    s.TidyAns (execMbWakeWord0Write by_ inst v s) := by
  grind -ring -linarith [execMbWakeWord0Write, State.TidyAns, State.Tidy, State.senderWrite_tidy, State.mbWord0_tidy]

theorem State.mbPost_tidy (s : State) (k c inst : Nat) (v : Word) : s.Tidy (s.mbPost k c inst v) := by
  grind -ring -linarith [State.mbPost, State.Tidy, State.mbPostLen_tidy]

theorem State.mbRel_tidy (s : State) (k c inst : Nat) (v : Word) : s.Tidy (s.mbRel k c inst v) := by
  grind -ring -linarith [State.mbRel, State.Tidy, State.mbRelease_tidy]

theorem execMbPost_tidy (k inst : Nat) (v : Word) (s : State) : s.TidyAns (execMbPost k inst v s) := by
  grind -ring -linarith [execMbPost, State.TidyAns, State.Tidy, State.mbPost_tidy]

theorem execMbRel_tidy (k inst : Nat) (v : Word) (s : State) : s.TidyAns (execMbRel k inst v s) := by
  grind -ring -linarith [execMbRel, State.TidyAns, State.Tidy, State.mbRel_tidy]

theorem State.postReply_tidy (s : State) (i : Nat) (words : List Nat) : s.Tidy (s.postReply i words) := by
  grind -ring -linarith [State.postReply, State.Tidy, State.mbPostLen_tidy, State.modMailbox_tidy, State.Tidy.foldl]

theorem execMailboxRequestTake_tidy (inst : Nat) (s : State) : s.TidyAns (execMailboxRequestTake inst s) := by
  grind -ring -linarith [execMailboxRequestTake, State.TidyAns, State.Tidy, State.postReply_tidy,
    State.mbRelease_tidy]

theorem State.answer_tidy (s : State) (words : List Nat) : s.Tidy (s.answer words) := by
  grind -ring -linarith [State.answer, State.Tidy, State.postReply_tidy]

/-! ### Queues -/

theorem State.vectorMessage_tidy (s : State) (p v : Nat) : s.Tidy (s.vectorMessage p v) :=
  (s.vectorMessage_tells ..).tidy

theorem State.countVector_tidy (s : State) (p v : Nat) (now : Bool) : s.Tidy (s.countVector p v now) := by
  grind -ring -linarith [State.countVector, State.Tidy, State.setPort_tidy, State.vectorMessage_tidy]

theorem State.postNow_tidy (s : State) (c : Completion) : s.Tidy (s.postNow c) := by
  grind -ring -linarith [State.postNow, State.Tidy, State.setPort_tidy, State.countTlp_tidy, State.countVector_tidy,
    State.dropTrv_tidy, State.emit_tidy]

theorem State.postWaiting_tidy (n p q : Nat) (s : State) : s.Tidy (State.postWaiting n p q s) := by
  induction n generalizing s with
  | zero => exact .refl s
  | succ n ih => grind -ring -linarith [State.postWaiting, State.Tidy, State.modPort_tidy, State.postNow_tidy]

theorem State.postAll_tidy (s : State) (p q : Nat) : s.Tidy (s.postAll p q) := by
  grind -ring -linarith [State.postAll, State.Tidy, State.postWaiting_tidy]

theorem State.parkEnded_tidy (s : State) (c : Completion) : s.Tidy (s.parkEnded c) := by
  grind -ring -linarith [State.parkEnded, State.Tidy, State.withTrv_tidy, State.putTrv_tidy, State.writeEntry_tidy]

theorem State.postOrWait_tidy (s : State) (c : Completion) : s.Tidy (s.postOrWait c) := by
  grind -ring -linarith [State.postOrWait, State.Tidy, State.modPort_tidy, State.postNow_tidy, State.parkEnded_tidy]

theorem execCompletionPost_tidy (p : Nat) (s : State) : s.TidyAns (execCompletionPost p s) := by
  grind -ring -linarith [execCompletionPost, State.TidyAns, State.Tidy, State.postOrWait_tidy]

theorem execCollectorRelease_tidy (frame : Nat) (s : State) : s.TidyAns (execCollectorRelease frame s) := by
  grind -ring -linarith [execCollectorRelease, State.TidyAns, State.Tidy]

theorem execCoalesceTimerExpiry_tidy (p v : Nat) (s : State) : s.TidyAns (execCoalesceTimerExpiry p v s) := by
  grind -ring -linarith [execCoalesceTimerExpiry, State.TidyAns, State.Tidy, State.vectorMessage_tidy]

theorem execMsixPendingSend_tidy (p v : Nat) (s : State) : s.TidyAns (execMsixPendingSend p v s) := by
  grind -ring -linarith [execMsixPendingSend, State.TidyAns, State.Tidy, State.setPort_tidy, State.raiseVector_tidy]

theorem State.ringSq_tidy (s : State) (p q : Nat) : s.Tidy (s.ringSq p q) := by
  grind -ring -linarith [State.ringSq, State.Tidy, State.setPort_tidy, State.unclaimed_tidy]

theorem execSqDoorbell_tidy (p q : Nat) (s : State) : s.TidyAns (execSqDoorbell p q s) := by
  grind -ring -linarith [execSqDoorbell, State.TidyAns, State.Tidy, State.barAccess_tidy, State.hostTlp_tidy,
    State.ringSq_tidy]

theorem State.ringCqHead_tidy (s : State) (p q : Nat) (h : BitVec 16) : s.Tidy (s.ringCqHead p q h) := by
  grind -ring -linarith [State.ringCqHead, State.Tidy, State.setPort_tidy, State.unclaimed_tidy, State.postAll_tidy]

theorem execCqHeadDoorbell_tidy (p q : Nat) (h : BitVec 16) (s : State) : s.TidyAns (execCqHeadDoorbell p q h s) := by
  grind -ring -linarith [execCqHeadDoorbell, State.TidyAns, State.Tidy, State.barAccess_tidy, State.hostTlp_tidy,
    State.ringCqHead_tidy]

theorem State.sqRefused_tidy (s : State) (p q : Nat) : s.Tidy (s.sqRefused p q) := by
  grind -ring -linarith [State.sqRefused, State.Tidy, State.modPort_tidy]

theorem State.cqRefused_tidy (s : State) (p q : Nat) : s.Tidy (s.cqRefused p q) := by
  grind -ring -linarith [State.cqRefused, State.Tidy, State.modPort_tidy]

theorem State.writeSqCfg_tidy (s : State) (p q : Nat) (v : BitVec 32) : s.Tidy (s.writeSqCfg p q v) := by
  grind -ring -linarith [State.writeSqCfg, State.Tidy, State.setPort_tidy, State.sqRefused_tidy, State.unclaimed_tidy]

theorem State.writeCqCfg_tidy (s : State) (p q : Nat) (v : BitVec 32) : s.Tidy (s.writeCqCfg p q v) := by
  grind -ring -linarith [State.writeCqCfg, State.Tidy, State.setPort_tidy, State.cqRefused_tidy, State.unclaimed_tidy]

theorem State.writeVecCoal_tidy (s : State) (p q : Nat) (v : BitVec 32) : s.Tidy (s.writeVecCoal p q v) := by
  grind -ring -linarith [State.writeVecCoal, State.Tidy, State.setPort_tidy, State.cqRefused_tidy,
    State.unclaimed_tidy]

theorem State.writeSqInv_tidy (s : State) (p q : Nat) (v : BitVec 32) : s.Tidy (s.writeSqInv p q v) := by
  grind -ring -linarith [State.writeSqInv, State.Tidy, State.setPort_tidy, State.unclaimed_tidy]

theorem execSqEnable_tidy (p q : Nat) (v : BitVec 32) (s : State) : s.TidyAns (execSqEnable p q v s) := by
  grind -ring -linarith [execSqEnable, State.TidyAns, State.Tidy, State.barAccess_tidy, State.hostTlp_tidy,
    State.writeSqCfg_tidy]

theorem execSqDisable_tidy (p q : Nat) (v : BitVec 32) (s : State) : s.TidyAns (execSqDisable p q v s) := by
  grind -ring -linarith [execSqDisable, State.TidyAns, State.Tidy, State.barAccess_tidy, State.hostTlp_tidy,
    State.writeSqCfg_tidy]

theorem execCqEnable_tidy (p q : Nat) (v : BitVec 32) (s : State) : s.TidyAns (execCqEnable p q v s) := by
  grind -ring -linarith [execCqEnable, State.TidyAns, State.Tidy, State.barAccess_tidy, State.hostTlp_tidy,
    State.writeCqCfg_tidy]

theorem execCqDisable_tidy (p q : Nat) (v : BitVec 32) (s : State) : s.TidyAns (execCqDisable p q v s) := by
  grind -ring -linarith [execCqDisable, State.TidyAns, State.Tidy, State.barAccess_tidy, State.hostTlp_tidy,
    State.writeCqCfg_tidy]

theorem execCqVecCoalWrite_tidy (p q : Nat) (v : BitVec 32) (s : State) : s.TidyAns (execCqVecCoalWrite p q v s) := by
  grind -ring -linarith [execCqVecCoalWrite, State.TidyAns, State.Tidy, State.barAccess_tidy, State.hostTlp_tidy,
    State.writeVecCoal_tidy]

theorem execSqInvWrite_tidy (p q : Nat) (v : BitVec 32) (s : State) : s.TidyAns (execSqInvWrite p q v s) := by
  grind -ring -linarith [execSqInvWrite, State.TidyAns, State.Tidy, State.barAccess_tidy, State.hostTlp_tidy,
    State.writeSqInv_tidy]

theorem execSqInvalidation_tidy (p q : Nat) (s : State) : s.TidyAns (execSqInvalidation p q s) := by
  grind -ring -linarith [execSqInvalidation, State.TidyAns, State.Tidy, State.setPort_tidy]

theorem execScanTurn_tidy (p : Nat) (s : State) : s.TidyAns (execScanTurn p s) := by
  grind -ring -linarith [execScanTurn, State.TidyAns, State.Tidy, State.setPort_tidy, State.issueRead_tidy,
    State.emit_tidy, State.Tidy.foldl]

theorem State.ringArrives_tidy (s : State) (p q pos : Nat) (data : Option (List Byte)) :
    s.Tidy (s.ringArrives p q pos data) := by
  unfold State.ringArrives
  split <;> grind -ring -linarith [State.Tidy, State.setPort_tidy, State.emit_tidy]

theorem State.answerEntry_tidy (s : State) (p : Nat) (h : Handed) (st : BitVec 8) (result : Nat) :
    s.Tidy (s.answerEntry p h st result) := by
  grind -ring -linarith [State.answerEntry, State.Tidy, State.completeEntry_tidy]

theorem execStartEntry_tidy (p : Nat) (s : State) : s.TidyAns (execStartEntry p s) := by
  grind -ring -linarith [execStartEntry, State.TidyAns, State.Tidy, State.setPort_tidy, State.answerEntry_tidy]

theorem execResumeEntry_tidy (p : Nat) (s : State) : s.TidyAns (execResumeEntry p s) := by
  grind -ring -linarith [execResumeEntry, State.TidyAns, State.Tidy, State.setPort_tidy, State.answerEntry_tidy,
    State.putTrv_tidy]

theorem execNopEntry_tidy (p : Nat) (s : State) : s.TidyAns (execNopEntry p s) := by
  grind -ring -linarith [execNopEntry, State.TidyAns, State.Tidy, State.setPort_tidy, State.answerEntry_tidy]

theorem execNoteRequest_tidy (p : Nat) (s : State) : s.TidyAns (execNoteRequest p s) := by
  grind -ring -linarith [execNoteRequest, State.TidyAns, State.Tidy, State.setPort_tidy, State.answerEntry_tidy,
    State.putTrv_tidy, State.flushNotes_tidy]

/-! ### Admission -/

theorem State.putAdmit_tidy (s : State) (a b : Admitting) : s.Tidy (s.putAdmit a b) := by
  grind -ring -linarith [State.putAdmit, State.Tidy]

theorem State.admitRefuse_tidy (s : State) (a : Admitting) (st : BitVec 8) : s.Tidy (s.admitRefuse a st) := by
  grind -ring -linarith [State.admitRefuse, State.Tidy, State.completeEntry_tidy]

theorem State.goLive_tidy (s : State) (a : Admitting) (h : List Byte) (runs : List Run) :
    s.Tidy (s.goLive a h runs) := by
  grind -ring -linarith [State.goLive, State.Tidy, State.reserve_tidy, State.admitRefuse_tidy]

theorem State.admitRuns_tidy (s : State) (a : Admitting) (h : List Byte) (bs : List (List Byte)) :
    s.Tidy (s.admitRuns a h bs) := by
  grind -ring -linarith [State.admitRuns, State.Tidy, State.goLive_tidy, State.admitRefuse_tidy]

theorem State.admitHeader_tidy (s : State) (a : Admitting) (h : List Byte) : s.Tidy (s.admitHeader a h) := by
  grind -ring -linarith [State.admitHeader, State.Tidy, State.putAdmit_tidy, State.whenReadable_tidy,
    State.admitRuns_tidy, State.issueRead_tidy, State.admitRefuse_tidy, State.Tidy.foldl]

theorem execAdmission_tidy (s : State) : s.TidyAns (execAdmission s) := by
  grind -ring -linarith [execAdmission, State.TidyAns, State.Tidy, State.putAdmit_tidy, State.whenReadable_tidy,
    State.issueRead_tidy, State.admitHeader_tidy, State.admitRefuse_tidy]

theorem State.admitArrives_tidy (s : State) (p addr : Nat) (isList : Bool) (data : Option (List Byte))
    (poisoned : Bool) :
    s.Tidy (s.admitArrives p addr isList data poisoned) := by
  grind -ring -linarith [State.admitArrives, State.Tidy, State.putAdmit_tidy]

theorem State.bindTo_tidy (s : State) (t : Trv) (e : Nat) : s.Tidy (s.bindTo t e) := by
  grind -ring -linarith [State.bindTo, State.Tidy, State.firmwareRead_tidy, State.modCore_tidy, State.putTrv_tidy,
    State.Tidy.foldl]

theorem State.bindOrWake_tidy (s : State) (t : Trv) (e : Nat) : s.Tidy (s.bindOrWake t e) := by
  grind -ring -linarith [State.bindOrWake, State.Tidy, State.wakeStack_tidy, State.bindTo_tidy, State.Tidy.foldl]

theorem execBind_tidy (w : BindWho) (s : State) : s.TidyAns (execBind w s) := by
  unfold execBind
  split <;> grind -ring -linarith [State.TidyAns, State.Tidy, State.withTrv_tidy, State.putTrv_tidy,
    State.bindOrWake_tidy]

theorem execResponseParkExpiry_tidy (p tag : Nat) (s : State) : s.TidyAns (execResponseParkExpiry p tag s) := by
  grind -ring -linarith [execResponseParkExpiry, State.TidyAns, State.Tidy, State.withTrv_tidy, State.park_tidy]

theorem execDeadlineExpiry_tidy (p tag : Nat) (s : State) : s.TidyAns (execDeadlineExpiry p tag s) := by
  grind -ring -linarith [execDeadlineExpiry, State.TidyAns, State.Tidy, State.endTrv_tidy, State.withTrv_tidy,
    State.putTrv_tidy, State.endAt_tidy]

theorem execWaitDeadlineExpiry_tidy (p tag : Nat) (s : State) : s.TidyAns (execWaitDeadlineExpiry p tag s) := by
  grind -ring -linarith [execWaitDeadlineExpiry, State.TidyAns, State.Tidy, State.withTrv_tidy, State.endAt_tidy]

theorem execPauseExpiry_tidy (p tag : Nat) (s : State) : s.TidyAns (execPauseExpiry p tag s) := by
  grind -ring -linarith [execPauseExpiry, State.TidyAns, State.Tidy, State.withTrv_tidy, State.legDone_tidy]

/-! ### Books -/

theorem State.setBook_tidy (s : State) (n : Nat) (b : FieldBook) : s.Tidy (s.setBook n b) := by
  grind -ring -linarith [State.setBook, State.Tidy, State.modQuarter_tidy]

theorem State.noticeLevel_tidy (s : State) : s.Tidy (s.noticeLevel) := by
  grind -ring -linarith [State.noticeLevel, State.Tidy, State.modCore_tidy]

theorem State.readRd0_tidy (s : State) (c : Nat) (parityBad : Bool) : s.Tidy (s.readRd0 c parityBad).2 := by
  grind -ring -linarith [State.readRd0, State.Tidy, State.modCore_tidy, State.setBook_tidy, State.noticeLevel_tidy]

theorem execFbRd0Read_tidy (parityBad : Bool) (s : State) : s.TidyAns (execFbRd0Read parityBad s) := by
  grind -ring -linarith [execFbRd0Read, State.TidyAns, State.Tidy, State.emit_tidy, State.readRd0_tidy]

theorem State.barRead_tidy (s : State) (p n : Nat) (f : State → State × Nat) (h : ∀ t, State.Tidy t (f t).1) :
    s.Tidy (s.barRead p n f) := by
  grind -ring -linarith [State.barRead, State.Tidy, State.hostTlp_tidy, State.unclaimed_tidy, State.emit_tidy]

theorem execFbRead_tidy (p : Nat) (parityBad : Bool) (s : State) : s.TidyAns (execFbRead p parityBad s) := by
  grind -ring -linarith [execFbRead, State.TidyAns, State.Tidy, State.modPort_tidy, State.barRead_tidy]

theorem State.clearBook_tidy (s : State) (by_ : Sender) (v : BitVec 32) : s.Tidy (s.clearBook by_ v) := by
  unfold State.clearBook
  split <;> grind -ring -linarith [State.Tidy, State.modPort_tidy, State.setBook_tidy, State.noticeLevel_tidy]

theorem execFbClear_tidy (by_ : Sender) (v : BitVec 32) (s : State) : s.TidyAns (execFbClear by_ v s) := by
  grind -ring -linarith [execFbClear, State.TidyAns, State.Tidy, State.clearBook_tidy, State.senderWrite_tidy]

theorem execCounterLowHalfRead_tidy (p : Nat) (ecc : Option Nat) (s : State) :
    s.TidyAns (execCounterLowHalfRead p ecc s) := by
  grind -ring -linarith [execCounterLowHalfRead, State.TidyAns, State.Tidy, State.modPort_tidy, State.barRead_tidy]

/-! ### Station -/

theorem State.rebind_tidy (s : State) (t : Trv) (chain : Nat) : s.Tidy (s.rebind t chain) := by
  grind -ring -linarith [State.rebind, State.Tidy, State.withTrv_tidy, State.putTrv_tidy, State.park_tidy]

theorem State.fetch_tidy (s : State) (t : Trv) (n : Nat) : s.Tidy (s.fetch t n).1 := by
  grind -ring -linarith [State.fetch, State.Tidy, State.putTrv_tidy, State.issueRead_tidy, State.readable_tidy]

theorem State.legsArrive_tidy (s : State) (p tag n k : Nat) (r : Except (BitVec 8) (List Byte)) :
    s.Tidy (s.legsArrive p tag n k r) := by
  grind -ring -linarith [State.legsArrive, State.Tidy, State.withTrv_tidy, State.putTrv_tidy]

theorem State.memberFails_tidy (s : State) (t : Trv) (st : BitVec 8) : s.Tidy (s.memberFails t st) := by
  grind -ring -linarith [State.memberFails, State.Tidy, State.putTrv_tidy, State.concludeRun_tidy]

theorem State.checkFails_tidy (s : State) (t : Trv) (st : BitVec 8) : s.Tidy (s.checkFails t st) := by
  grind -ring -linarith [State.checkFails, State.Tidy, State.memberFails_tidy, State.endAt_tidy]

theorem State.startChecks_tidy (s : State) (t : Trv) : s.Tidy (s.startChecks t) := by
  grind -ring -linarith [State.startChecks, State.Tidy, State.writeRecord_tidy, State.met_tidy, State.putTrv_tidy,
    State.checkFails_tidy]

theorem State.startGroup_tidy (s : State) (t : Trv) (g : List (List Byte)) : s.Tidy (s.startGroup t g) := by
  grind -ring -linarith [State.startGroup, State.Tidy, State.startChecks_tidy, State.endList_tidy, State.withTrv_tidy,
    State.putTrv_tidy, State.checkFails_tidy, State.flushNotes_tidy, State.satisfy_tidy]

theorem State.startHead_tidy (s : State) (t : Trv) (head : List Byte) : s.Tidy (s.startHead t head) := by
  grind -ring -linarith [State.startHead, State.Tidy, State.writeRecord_tidy, State.putTrv_tidy,
    State.startGroup_tidy, State.fetch_tidy, State.park_tidy, State.endAt_tidy]

theorem State.startFresh_tidy (s : State) (t : Trv) : s.Tidy (s.startFresh t) := by
  grind -ring -linarith [State.startFresh, State.Tidy, State.putTrv_tidy, State.fetch_tidy, State.startHead_tidy,
    State.endAt_tidy]

theorem State.startInRun_tidy (s : State) (t : Trv) : s.Tidy (s.startInRun t) := by
  grind -ring -linarith [State.startInRun, State.Tidy, State.withTrv_tidy, State.putTrv_tidy, State.startGroup_tidy,
    State.fetch_tidy, State.startFresh_tidy, State.concludeRun_tidy]

theorem execStationStart_tidy (p tag : Nat) (s : State) : s.TidyAns (execStationStart p tag s) := by
  grind -ring -linarith [execStationStart, State.TidyAns, State.Tidy, State.withTrv_tidy, State.putTrv_tidy,
    State.checkFails_tidy, State.startInRun_tidy, State.startFresh_tidy]

/-! ### LegDevice -/

theorem State.perform_tidy (s : State) (p tag op : Nat) (f : Trv → State) (h : ∀ v, s.Tidy (f v)) :
    s.Tidy (s.perform p tag op f) := by
  grind -ring -linarith [State.perform, State.Tidy, State.rebind_tidy, State.withTrv_tidy, State.checkFails_tidy]

theorem State.issue_tidy (s : State) (t : Trv) (cdb : List Byte) : s.Tidy (s.issue t cdb) := by
  grind -ring -linarith [State.issue, State.Tidy, State.handOver_tidy, State.putTrv_tidy, State.runSettle_tidy]

theorem execLegIssue_tidy (p tag : Nat) (s : State) : s.TidyAns (execLegIssue p tag s) := by
  grind -ring -linarith [execLegIssue, State.TidyAns, State.Tidy, State.issue_tidy, State.perform_tidy]

theorem execLegIssueExt_tidy (p tag : Nat) (s : State) : s.TidyAns (execLegIssueExt p tag s) := by
  grind -ring -linarith [execLegIssueExt, State.TidyAns, State.Tidy, State.issue_tidy, State.putTrv_tidy,
    State.whenReadable_tidy, State.checkFails_tidy, State.perform_tidy, State.issueRead_tidy, State.Tidy.foldl]

theorem State.cdbArrives_tidy (s : State) (p tag addr : Nat) (r : Except (BitVec 8) (List Byte)) :
    s.Tidy (s.cdbArrives p tag addr r) := by
  grind -ring -linarith [State.cdbArrives, State.Tidy, State.issue_tidy, State.withTrv_tidy, State.putTrv_tidy,
    State.checkFails_tidy]

theorem State.notSent_tidy (s : State) (p tag code : Nat) : s.Tidy (s.notSent p tag code) := by
  grind -ring -linarith [State.notSent, State.Tidy, State.withTrv_tidy, State.legDone_tidy]

theorem State.taskNamed_tidy (s : State) (t : Trv) : s.Tidy (s.taskNamed t) := by
  grind -ring -linarith [State.taskNamed, State.Tidy, State.endCmd_tidy, State.sendTmf_tidy, State.notSent_tidy]

theorem execLegTask_tidy (p tag : Nat) (s : State) : s.TidyAns (execLegTask p tag s) := by
  grind -ring -linarith [execLegTask, State.TidyAns, State.Tidy, State.freeInfo_tidy, State.legDone_tidy,
    State.putTrv_tidy, State.taskNamed_tidy, State.perform_tidy, State.sendTmf_tidy]

theorem execLegEnclosure_tidy (p tag : Nat) (s : State) : s.TidyAns (execLegEnclosure p tag s) := by
  grind -ring -linarith [execLegEnclosure, State.TidyAns, State.Tidy, State.handOver_tidy, State.legDone_tidy,
    State.putTrv_tidy, State.modChain_tidy, State.perform_tidy]

theorem State.flushEnds_tidy (s : State) (t : Trv) (st fault : BitVec 8) (residual : Nat) :
    s.Tidy (s.flushEnds t st fault residual) := by
  grind -ring -linarith [State.flushEnds, State.Tidy, State.legDone_tidy]

theorem execLegFlushSpan_tidy (p tag : Nat) (s : State) : s.TidyAns (execLegFlushSpan p tag s) := by
  grind -ring -linarith [execLegFlushSpan, State.TidyAns, State.Tidy, State.handOver_tidy, State.putTrv_tidy,
    State.modChain_tidy, State.perform_tidy, State.setFlushing_tidy, State.flushEnds_tidy]

theorem execLegGather_tidy (p tag : Nat) (s : State) : s.TidyAns (execLegGather p tag s) := by
  grind -ring -linarith [execLegGather, State.TidyAns, State.Tidy, State.handOver_tidy, State.putTrv_tidy,
    State.gatherAbort_tidy, State.perform_tidy, State.gatherOver_tidy, State.Tidy.foldl]

/-! ### LegData -/

theorem execLegStageIn_tidy (p tag : Nat) (s : State) : s.TidyAns (execLegStageIn p tag s) := by
  grind -ring -linarith [execLegStageIn, State.TidyAns, State.Tidy, State.legDone_tidy, State.putTrv_tidy,
    State.perform_tidy, State.issueRead_tidy, State.Tidy.foldl]

theorem State.stageInArrives_tidy (s : State) (p tag pos : Nat) (data : Option (List Byte × Bool)) :
    s.Tidy (s.stageInArrives p tag pos data) := by
  grind -ring -linarith [State.stageInArrives, State.Tidy, State.withTrv_tidy, State.placeBytes_tidy,
    State.legDone_tidy, State.putTrv_tidy]

theorem State.stageOutEnds_tidy (s : State) (t : Trv) (confirmed : Bool) : s.Tidy (s.stageOutEnds t confirmed) := by
  grind -ring -linarith [State.stageOutEnds, State.Tidy, State.legDone_tidy]

theorem execLegStageOut_tidy (p tag : Nat) (s : State) : s.TidyAns (execLegStageOut p tag s) := by
  grind -ring -linarith [execLegStageOut, State.TidyAns, State.Tidy, State.met_tidy, State.putTrv_tidy,
    State.hostWrite_tidy, State.perform_tidy, State.issueRead_tidy, State.stageOutEnds_tidy, State.Tidy.foldl]

theorem State.stageBackArrives_tidy (s : State) (p tag : Nat) (ok : Bool) : s.Tidy (s.stageBackArrives p tag ok) := by
  grind -ring -linarith [State.stageBackArrives, State.Tidy, State.withTrv_tidy, State.stageOutEnds_tidy]

/-! ### Dma -/

theorem State.taken_tidy (s : State) (pl : Place) (n : Nat) : s.Tidy (s.taken pl n) := by
  unfold State.taken
  split <;> grind -ring -linarith [State.Tidy, State.firmwareRead_tidy, State.met_tidy]

theorem State.putMarked_tidy (s : State) (pl : Place) (off : Nat) (l : List (Byte × Bool)) :
    s.Tidy (s.putMarked pl off l) := by
  grind -ring -linarith [State.putMarked, State.Tidy, State.writePhys_tidy, State.Tidy.foldl]

theorem execDmaGoWrite_tidy (ch : Nat) (v : Word) (s : State) : s.TidyAns (execDmaGoWrite ch v s) := by
  grind -ring -linarith [execDmaGoWrite, State.TidyAns, State.Tidy, State.trigger_tidy]

theorem execDmaCtlWrite_tidy (ch : Nat) (v : Word) (s : State) : s.TidyAns (execDmaCtlWrite ch v s) := by
  grind -ring -linarith [execDmaCtlWrite, State.TidyAns, State.Tidy, State.setChannel_tidy]

theorem State.runOver_tidy (s : State) (ch st resid : Nat) : s.Tidy (s.runOver ch st resid) := by
  grind -ring -linarith [State.runOver, State.Tidy, State.modChannel_tidy]

theorem State.hostMarked_tidy (s : State) (p addr : Nat) (l : List (Byte × Bool)) : s.Tidy (s.hostMarked p addr l) := by
  grind -ring -linarith [State.hostMarked, State.Tidy, State.countTlp_tidy, State.emit_tidy, State.Tidy.foldl]

theorem State.descEnds_tidy (s : State) (ch : Nat) : s.Tidy (s.descEnds ch).1 := by
  grind -ring -linarith [State.descEnds, State.Tidy, State.setChannel_tidy, State.taken_tidy, State.runOver_tidy,
    State.reach_tidy]

theorem State.descMoved_tidy (s : State) (ch : Nat) : s.Tidy (s.descMoved ch).1 := by
  grind -ring -linarith [State.descMoved, State.Tidy, State.descEnds_tidy, State.modChannel_tidy,
    State.issueRead_tidy]

theorem State.dmaFetch_tidy (s : State) (ch a : Nat) : s.Tidy (s.dmaFetch ch a) := by
  grind -ring -linarith [State.dmaFetch, State.Tidy, State.setChannel_tidy, State.issueRead_tidy]

theorem State.descRun_tidy (s : State) (ch : Nat) : s.Tidy (s.descRun ch).1 := by
  unfold State.descRun
  dsimp only
  split
  · exact s.runOver_tidy ..
  · split
    · exact s.descEnds_tidy _
    · split
      · exact .refl s
      · generalize (if dFill (s.channel ch).desc then none else dSrc (s.channel ch).desc) = src
        generalize hreach : s.reach _ = r
        have hr : s.Tidy r.1 := hreach ▸ s.reach_tidy _
        split
        · exact s.runOver_tidy ..
        · split
          · exact hr
          · split
            · exact hr.trans (State.dmaFetch_tidy ..)
            · generalize (if dStop (s.channel ch).desc then cleanPrefix _ _ else _) = keep
              split <;> split <;> split <;> grind -ring -linarith [State.Tidy, State.taken_tidy, State.hostMarked_tidy,
                State.putMarked_tidy, State.runOver_tidy, State.modChannel_tidy, State.descMoved_tidy]

theorem State.dmaGo_tidy (n ch : Nat) (s : State) : s.Tidy (State.dmaGo n ch s) := by
  induction n generalizing s with
  | zero => exact .refl s
  | succ n ih => grind -ring -linarith [State.dmaGo, State.Tidy, State.descRun_tidy]

theorem State.dmaContinue_tidy (s : State) (ch : Nat) : s.Tidy (s.dmaContinue ch) := by
  grind -ring -linarith [State.dmaContinue, State.Tidy, State.dmaGo_tidy]

theorem State.copyRun_tidy (s : State) (ch : Nat) (j : CopyJob) : s.Tidy (s.copyRun ch j) := by
  grind -ring -linarith [State.copyRun, State.Tidy, State.putMarked_tidy, State.modChannel_tidy, State.taken_tidy,
    State.runOver_tidy, State.reach_tidy]

theorem execDmaRunStart_tidy (ch : Nat) (s : State) : s.TidyAns (execDmaRunStart ch s) := by
  grind -ring -linarith [execDmaRunStart, State.TidyAns, State.Tidy, State.setChannel_tidy, State.dmaContinue_tidy,
    State.copyRun_tidy]

theorem State.dmaArrives_tidy (s : State) (ch pos : Nat) (data : Option (List Byte × Bool)) :
    s.Tidy (s.dmaArrives ch pos data) := by
  unfold State.dmaArrives
  dsimp only
  repeat' split
  all_goals grind -ring -linarith [State.Tidy, State.putMarked_tidy, State.descMoved_tidy, State.setChannel_tidy,
    State.dmaContinue_tidy, State.runOver_tidy, State.dmaFetch_tidy]

theorem State.dmaBackArrives_tidy (s : State) (ch : Nat) (ok : Bool) : s.Tidy (s.dmaBackArrives ch ok) := by
  grind -ring -linarith [State.dmaBackArrives, State.Tidy, State.descEnds_tidy, State.setChannel_tidy,
    State.dmaContinue_tidy, State.runOver_tidy]

theorem State.dmaPortLost_tidy (s : State) (p : Nat) : s.Tidy (s.dmaPortLost p) := by
  grind -ring -linarith [State.dmaPortLost, State.Tidy, State.runOver_tidy, State.Tidy.foldl]

theorem State.serveCopies_tidy (s : State) : s.Tidy (s.serveCopies) := by
  grind -ring -linarith [State.serveCopies, State.Tidy, State.modChannel_tidy, State.Tidy.foldl]

theorem execLegCopy_tidy (p tag : Nat) (s : State) : s.TidyAns (execLegCopy p tag s) := by
  grind -ring -linarith [execLegCopy, State.TidyAns, State.Tidy, State.serveCopies_tidy, State.putTrv_tidy,
    State.perform_tidy]

theorem State.copyEnds_tidy (s : State) (j : CopyJob) (st resid beats : Nat) : s.Tidy (s.copyEnds j st resid beats) := by
  grind -ring -linarith [State.copyEnds, State.Tidy, State.withTrv_tidy, State.legDone_tidy]

theorem execDmaRunEnd_tidy (ch : Nat) (s : State) : s.TidyAns (execDmaRunEnd ch s) := by
  grind -ring -linarith [execDmaRunEnd, State.TidyAns, State.Tidy, State.serveCopies_tidy, State.reportRun_tidy,
    State.copyEnds_tidy]

theorem execDmaTimerCtlWrite_tidy (n : Nat) (v : Word) (s : State) : s.TidyAns (execDmaTimerCtlWrite n v s) := by
  grind -ring -linarith [execDmaTimerCtlWrite, State.TidyAns, State.Tidy]

theorem execDmaTimerFire_tidy (n : Nat) (s : State) : s.TidyAns (execDmaTimerFire n s) := by
  grind -ring -linarith [execDmaTimerFire, State.TidyAns, State.Tidy, State.trigger_tidy, State.Tidy.foldl]

/-! ### HostPort -/

theorem execConfigRequest_tidy (p : Nat) (write : Bool) (dword : Nat) (v : BitVec 32) (s : State) :
    s.TidyAns (execConfigRequest p write dword v s) := by
  grind -ring -linarith [execConfigRequest, State.TidyAns, State.Tidy, State.hostTlp_tidy, State.setPort_tidy,
    State.emit_tidy]

theorem State.strapFault_tidy (s : State) (c : Nat) : s.Tidy (s.strapFault c) := by
  grind -ring -linarith [State.strapFault, State.Tidy, State.deviceEvent_tidy]

theorem State.sampleStraps_tidy (s : State) (c : Nat) (strap : BitVec 2) : s.Tidy (s.sampleStraps c strap) := by
  grind -ring -linarith [State.sampleStraps, State.Tidy, State.modPort_tidy, State.strapFault_tidy, State.Tidy.foldl]

theorem execPerstNDeassert_tidy (slot : Nat) (strap : BitVec 2) (s : State) :
    s.TidyAns (execPerstNDeassert slot strap s) := by
  grind -ring -linarith [execPerstNDeassert, State.TidyAns, State.Tidy, State.modPort_tidy, State.sampleStraps_tidy]

theorem State.linkGone_tidy (s : State) (p : Nat) : s.Tidy (s.linkGone p) := by
  grind -ring -linarith [State.linkGone, State.Tidy, State.modPort_tidy, State.dmaPortLost_tidy]

theorem execPerstNAssert_tidy (slot : Nat) (s : State) : s.TidyAns (execPerstNAssert slot s) := by
  grind -ring -linarith [execPerstNAssert, State.TidyAns, State.Tidy, State.modPort_tidy, State.linkGone_tidy,
    State.startHost_tidy]

theorem State.flrStaged_tidy (s : State) (p : Nat) : s.Tidy (s.flrStaged p) := by
  grind -ring -linarith [State.flrStaged, State.Tidy, State.emptySecure_tidy, State.dropStaged_tidy]

theorem execFlr_tidy (p : Nat) (s : State) : s.TidyAns (execFlr p s) := by
  grind -ring -linarith [execFlr, State.TidyAns, State.Tidy, State.startHost_tidy, State.flrStaged_tidy]

theorem State.releaseHeld_tidy (s : State) (p : Nat) : s.Tidy (s.releaseHeld p) := by
  grind -ring -linarith [State.releaseHeld, State.Tidy, State.setPort_tidy, State.countTlp_tidy, State.emit_tidy,
    State.Tidy.foldl]

theorem execD3hotToD0_tidy (p : Nat) (s : State) : s.TidyAns (execD3hotToD0 p s) := by
  grind -ring -linarith [execD3hotToD0, State.TidyAns, State.Tidy, State.modPort_tidy, State.releaseHeld_tidy,
    State.startHost_tidy]

theorem execDlDown_tidy (p : Nat) (s : State) : s.TidyAns (execDlDown p s) := by
  grind -ring -linarith [execDlDown, State.TidyAns, State.Tidy, State.linkGone_tidy, State.startHost_tidy]

theorem execPcieLinkUp_tidy (p : Nat) (s : State) : s.TidyAns (execPcieLinkUp p s) := by
  grind -ring -linarith [execPcieLinkUp, State.TidyAns, State.Tidy, State.setPort_tidy, State.releaseHeld_tidy]

theorem execUncorrectableFatalError_tidy (p : Nat) (s : State) : s.TidyAns (execUncorrectableFatalError p s) := by
  grind -ring -linarith [execUncorrectableFatalError, State.TidyAns, State.Tidy, State.startHost_tidy]

theorem execPcieRefclkLoss_tidy (p : Nat) (s : State) : s.TidyAns (execPcieRefclkLoss p s) := by
  grind -ring -linarith [execPcieRefclkLoss, State.TidyAns, State.Tidy, State.linkGone_tidy, State.startHost_tidy]

theorem State.bar4Answer_tidy (s : State) (p offset : Nat) (bytes : List Byte) (ep : Bool) :
    s.Tidy (s.bar4Answer p offset bytes ep) := by
  grind -ring -linarith [State.bar4Answer, State.Tidy, State.hostTlp_tidy, State.emit_tidy]

theorem State.bar4Zero_tidy (s : State) (p : Nat) (write : Bool) (offset n : Nat) :
    s.Tidy (s.bar4Zero p write offset n) := by
  grind -ring -linarith [State.bar4Zero, State.Tidy, State.bar4Answer_tidy]

theorem State.bar4Reach_tidy (s : State) (p pos : Nat) (write : Bool) (bytes : List Byte) :
    s.Tidy (s.bar4Reach p pos write bytes) := by
  grind -ring -linarith [State.bar4Reach, State.Tidy, State.met_tidy, State.bar4Answer_tidy, State.writeBuf_tidy]

theorem State.bar4_tidy (s : State) (p : Nat) (write : Bool) (offset : Nat) (bytes : List Byte) :
    s.Tidy (s.bar4 p write offset bytes) := by
  grind -ring -linarith [State.bar4, State.Tidy, State.wakeStack_tidy, State.unclaimed_tidy, State.modQuarter_tidy,
    State.bar4Zero_tidy, State.bar4Reach_tidy, State.emit_tidy]

theorem execBar4Access_tidy (p : Nat) (write : Bool) (offset : Nat) (bytes : List Byte) (s : State) :
    s.TidyAns (execBar4Access p write offset bytes s) := by
  grind -ring -linarith [execBar4Access, State.TidyAns, State.Tidy, State.hostTlp_tidy, State.unclaimed_tidy,
    State.bar4_tidy, State.bar4Zero_tidy]

theorem State.bar4Turns_tidy (q n : Nat) (s : State) : s.Tidy (State.bar4Turns q n s) := by
  induction n generalizing s with
  | zero => exact .refl s
  | succ n ih => grind -ring -linarith [State.bar4Turns, State.Tidy, State.setQuarter_tidy, State.bar4_tidy]

theorem State.serveBar4_tidy (s : State) (q : Nat) : s.Tidy (s.serveBar4 q) := by
  grind -ring -linarith [State.serveBar4, State.Tidy, State.bar4Turns_tidy]

/-! ### Kilvor -/

theorem State.kignore_tidy (s : State) (src : KilvorSrc) : s.Tidy (s.kignore src) := by
  unfold State.kignore
  split <;> grind -ring -linarith [State.Tidy, State.hostTlp_tidy]

theorem State.mctpAnswer_tidy (s : State) (path : MctpPath) (body : List Byte) (code : Nat) (data : List Byte) :
    s.Tidy (s.mctpAnswer path body code data) := by
  unfold State.mctpAnswer
  split <;> grind -ring -linarith [State.Tidy, State.hostTlp_tidy, State.emit_tidy]

theorem State.kreply_tidy (s : State) (src : KilvorSrc) (code : Nat) (data : List Byte) :
    s.Tidy (s.kreply src code data) := by
  unfold State.kreply
  split <;> grind -ring -linarith [State.Tidy, State.answer_tidy, State.mctpAnswer_tidy, State.writeBuf_tidy]

theorem State.kready_tidy (s : State) (src : KilvorSrc) (f : State → State) (h : ∀ t, State.Tidy t (f t)) :
    s.Tidy (s.kready src f) := by
  unfold State.kready
  split <;> grind -ring -linarith [State.Tidy, State.whenAwake_tidy]

theorem State.kwake_tidy (s : State) (src : KilvorSrc) (f : State → State) (h : ∀ t, State.Tidy t (f t)) :
    s.Tidy (s.kwake src f) := by
  grind -ring -linarith [State.kwake, State.Tidy, State.kready_tidy, State.whenReadable_tidy]

theorem State.kfor_tidy (s : State) (src : KilvorSrc) (code : Nat) (f : KReq → State) (h : ∀ v, s.Tidy (f v)) :
    s.Tidy (s.kfor src code f) := by
  grind -ring -linarith [State.kfor, State.Tidy, State.kignore_tidy]

theorem State.kasked_tidy (s : State) (src : KilvorSrc) (r : KReq) (ok : List Byte → Bool)
    (f : State → List Byte → State) (h : ∀ t b, State.Tidy t (f t b)) :
    s.Tidy (s.kasked src r ok f) := by
  grind -ring -linarith [State.kasked, State.Tidy, State.kwake_tidy, State.kreply_tidy]

theorem State.kchange_tidy (s : State) (src : KilvorSrc) (code : Nat) (ok : List Byte → Bool)
    (f : State → List Byte → State) (h : ∀ t b, State.Tidy t (f t b)) :
    s.Tidy (s.kchange src code ok f) := by
  grind -ring -linarith [State.kchange, State.Tidy, State.kasked_tidy, State.kfor_tidy]

theorem execGetApportionment_tidy (src : KilvorSrc) (s : State) : s.TidyAns (execGetApportionment src s) := by
  grind -ring -linarith [execGetApportionment, State.TidyAns, State.Tidy, State.kwake_tidy, State.kreply_tidy,
    State.kfor_tidy]

theorem execStageGrant_tidy (src : KilvorSrc) (s : State) : s.TidyAns (execStageGrant src s) := by
  grind -ring -linarith [execStageGrant, State.TidyAns, State.Tidy, State.kchange_tidy, State.kreply_tidy]

theorem execDiscard_tidy (src : KilvorSrc) (s : State) : s.TidyAns (execDiscard src s) := by
  grind -ring -linarith [execDiscard, State.TidyAns, State.Tidy, State.kchange_tidy, State.kreply_tidy]

theorem State.markErased_tidy (s : State) (gone : Nat → Bool) : s.Tidy (s.markErased gone) := by
  grind -ring -linarith [State.markErased, State.Tidy]

theorem State.eraseFrom_tidy (s : State) (p count : Nat) : s.Tidy (s.eraseFrom p count) := by
  grind -ring -linarith [State.eraseFrom, State.Tidy, State.markErased_tidy, State.spi_tidy]

theorem State.commitPort_tidy (s : State) (p : Nat) (new : Apportion) : s.Tidy (s.commitPort p new) := by
  grind -ring -linarith [State.commitPort, State.Tidy, State.setPort_tidy, State.eraseFrom_tidy, State.portEvent_tidy]

theorem State.resetShelfParams_tidy (s old : State) : s.Tidy (s.resetShelfParams old) := by
  grind -ring -linarith [State.resetShelfParams, State.Tidy, State.modShelf_tidy, State.Tidy.foldl]

theorem State.commitProfiles_tidy (s old : State) : s.Tidy (s.commitProfiles old) := by
  grind -ring -linarith [State.commitProfiles, State.Tidy, State.modEngine_tidy, State.Tidy.foldl]

theorem State.commitNow_tidy (s : State) : s.Tidy (s.commitNow) := by
  grind -ring -linarith [State.commitNow, State.Tidy, State.resetShelfParams_tidy, State.commitPort_tidy,
    State.regenerate_tidy, State.commitProfiles_tidy, State.Tidy.foldl]

theorem State.deferCommit_tidy (s : State) (src : KilvorSrc) : s.Tidy (s.deferCommit src) := by
  unfold State.deferCommit
  split <;> grind -ring -linarith [State.Tidy]

theorem execCommit_tidy (src : KilvorSrc) (s : State) : s.TidyAns (execCommit src s) := by
  grind -ring -linarith [execCommit, State.TidyAns, State.Tidy, State.kchange_tidy, State.kreply_tidy,
    State.deferCommit_tidy, State.commitNow_tidy]

theorem State.setPrincipal_tidy (s : State) (p : Option Nat) : s.Tidy (s.setPrincipal p) := by
  grind -ring -linarith [State.setPrincipal, State.Tidy, State.modPort_tidy, State.emptySecure_tidy,
    State.dropStaged_tidy]

theorem execSetAdmin_tidy (src : KilvorSrc) (s : State) : s.TidyAns (execSetAdmin src s) := by
  grind -ring -linarith [execSetAdmin, State.TidyAns, State.Tidy, State.kwake_tidy, State.kreply_tidy,
    State.setPrincipal_tidy, State.kfor_tidy]

theorem execKilvorUnknownCommand_tidy (src : KilvorSrc) (s : State) : s.TidyAns (execKilvorUnknownCommand src s) := by
  grind -ring -linarith [execKilvorUnknownCommand, State.TidyAns, State.Tidy, State.kwake_tidy, State.kreply_tidy,
    State.kignore_tidy]

/-! ### Loads -/

theorem State.ktable_tidy (s : State) (src : KilvorSrc) (op : Nat) (ok : List Byte → Bool)
    (f : State → List Byte → State) (h : ∀ t b, State.Tidy t (f t b)) :
    s.Tidy (s.ktable src op ok f) := by
  grind -ring -linarith [State.ktable, State.Tidy, State.kreply_tidy, State.kasked_tidy, State.kfor_tidy]

theorem State.setStaging_tidy (s : State) (v : Bool) : s.Tidy (s.setStaging v) := by
  grind -ring -linarith [State.setStaging, State.Tidy]

theorem execTimetableBegin_tidy (src : KilvorSrc) (s : State) : s.TidyAns (execTimetableBegin src s) := by
  grind -ring -linarith [execTimetableBegin, State.TidyAns, State.Tidy, State.setStaging_tidy, State.kreply_tidy,
    State.ktable_tidy, State.modQuarter_tidy, State.Tidy.foldl]

theorem execTimetableRows_tidy (src : KilvorSrc) (s : State) : s.TidyAns (execTimetableRows src s) := by
  grind -ring -linarith [execTimetableRows, State.TidyAns, State.Tidy, State.kreply_tidy, State.ktable_tidy,
    State.modQuarter_tidy, State.Tidy.foldl]

theorem execTimetableCommit_tidy (src : KilvorSrc) (s : State) : s.TidyAns (execTimetableCommit src s) := by
  refine State.TidyAns.next (State.ktable_tidy _ _ _ _ _ fun t b => ?_)
  dsimp only
  split
  · exact State.kreply_tidy ..
  · split
    · exact State.kreply_tidy ..
    · exact ((State.Tidy.foldl (fun s q => s.modQuarter_tidy ..) _ t).trans (State.setStaging_tidy ..)).trans
        (State.kreply_tidy ..)

theorem execTimetableAbort_tidy (src : KilvorSrc) (s : State) : s.TidyAns (execTimetableAbort src s) := by
  grind -ring -linarith [execTimetableAbort, State.TidyAns, State.Tidy, State.setStaging_tidy, State.kreply_tidy,
    State.ktable_tidy]

theorem State.krecipe_tidy (s : State) (src : KilvorSrc) (op : Nat) (ok : List Byte → Bool)
    (f : State → List Byte → State) (h : ∀ t b, State.Tidy t (f t b)) :
    s.Tidy (s.krecipe src op ok f) := by
  grind -ring -linarith [State.krecipe, State.Tidy, State.kasked_tidy, State.kfor_tidy]

theorem execRecipeWrite_tidy (src : KilvorSrc) (s : State) : s.TidyAns (execRecipeWrite src s) := by
  grind -ring -linarith [execRecipeWrite, State.TidyAns, State.Tidy, State.modEngine_tidy, State.kreply_tidy,
    State.krecipe_tidy, State.Tidy.foldl]

theorem execRecipeCommit_tidy (src : KilvorSrc) (s : State) : s.TidyAns (execRecipeCommit src s) := by
  grind -ring -linarith [execRecipeCommit, State.TidyAns, State.Tidy, State.kreply_tidy, State.setEngine_tidy,
    State.krecipe_tidy]

theorem execRecipeErase_tidy (src : KilvorSrc) (s : State) : s.TidyAns (execRecipeErase src s) := by
  grind -ring -linarith [execRecipeErase, State.TidyAns, State.Tidy, State.kreply_tidy, State.setEngine_tidy,
    State.krecipe_tidy]

theorem State.kkey_tidy (s : State) (src : KilvorSrc) (op len : Nat) (f : State → List Byte → State)
    (h : ∀ t b, State.Tidy t (f t b)) :
    s.Tidy (s.kkey src op len f) := by
  grind -ring -linarith [State.kkey, State.Tidy, State.kready_tidy, State.kreply_tidy, State.kasked_tidy,
    State.kfor_tidy]

theorem State.keyChanged_tidy (s : State) (src : KilvorSrc) (i : Nat) (k : Option (BitVec 256)) :
    s.Tidy (s.keyChanged src i k) := by
  unfold State.keyChanged
  split <;> grind -ring -linarith [State.Tidy]

theorem execKeyLoad_tidy (src : KilvorSrc) (s : State) : s.TidyAns (execKeyLoad src s) := by
  grind -ring -linarith [execKeyLoad, State.TidyAns, State.Tidy, State.keyChanged_tidy, State.kreply_tidy,
    State.kkey_tidy]

theorem execKeyGenerate_tidy (src : KilvorSrc) (s : State) : s.TidyAns (execKeyGenerate src s) := by
  grind -ring -linarith [execKeyGenerate, State.TidyAns, State.Tidy, State.keyChanged_tidy, State.kreply_tidy,
    State.kkey_tidy]

theorem execKeyErase_tidy (src : KilvorSrc) (s : State) : s.TidyAns (execKeyErase src s) := by
  grind -ring -linarith [execKeyErase, State.TidyAns, State.Tidy, State.keyChanged_tidy, State.markErased_tidy,
    State.kkey_tidy]

theorem execKeyCheck_tidy (src : KilvorSrc) (s : State) : s.TidyAns (execKeyCheck src s) := by
  grind -ring -linarith [execKeyCheck, State.TidyAns, State.Tidy, State.kreply_tidy, State.kkey_tidy]

theorem execKeystoreSealDone_tidy (s : State) : s.TidyAns (execKeystoreSealDone s) := by
  grind -ring -linarith [execKeystoreSealDone, State.TidyAns, State.Tidy, State.kready_tidy, State.kreply_tidy,
    State.spi_tidy]

theorem State.mctpData_tidy (s : State) (path : MctpPath) (d n : Nat) : s.Tidy (s.mctpData path d n) := by
  unfold State.mctpData
  split <;> grind -ring -linarith [State.Tidy, State.hostTlp_tidy]

theorem State.mctpSay_tidy (s : State) (path : MctpPath) (body : List Byte) : s.Tidy (s.mctpSay path body) := by
  grind -ring -linarith [State.mctpSay, State.Tidy, State.mctpData_tidy, State.emit_tidy]

theorem execMctpControl_tidy (path : MctpPath) (body : List Byte) (s : State) :
    s.TidyAns (execMctpControl path body s) := by
  grind -ring -linarith [execMctpControl, State.TidyAns, State.Tidy, State.mctpSay_tidy, State.mctpData_tidy]

theorem execPldmMonitoring_tidy (path : MctpPath) (pldmType sensor : Nat) (s : State) :
    s.TidyAns (execPldmMonitoring path pldmType sensor s) := by
  grind -ring -linarith [execPldmMonitoring, State.TidyAns, State.Tidy, State.mctpSay_tidy, State.mctpData_tidy]

theorem execPldmFirmwareUpdate_tidy (path : MctpPath) (r : PldmReq) (s : State) :
    s.TidyAns (execPldmFirmwareUpdate path r s) := by
  grind -ring -linarith [execPldmFirmwareUpdate, State.TidyAns, State.Tidy, State.mctpSay_tidy, State.restart_tidy,
    State.spi_tidy, State.mctpData_tidy, State.Tidy.foldl]

/-! ### LegControl -/

theorem execLegGoto_tidy (p tag : Nat) (s : State) : s.TidyAns (execLegGoto p tag s) := by
  grind -ring -linarith [execLegGoto, State.TidyAns, State.Tidy, State.legDone_tidy, State.putTrv_tidy,
    State.perform_tidy, State.fetch_tidy]

theorem State.testEnds_tidy (s : State) (t : Trv) (mem : Nat) : s.Tidy (s.testEnds t mem) := by
  grind -ring -linarith [State.testEnds, State.Tidy, State.legDone_tidy]

theorem execLegTest_tidy (p tag : Nat) (s : State) : s.TidyAns (execLegTest p tag s) := by
  grind -ring -linarith [execLegTest, State.TidyAns, State.Tidy, State.legDone_tidy, State.putTrv_tidy,
    State.testEnds_tidy, State.whenReadable_tidy, State.perform_tidy, State.issueRead_tidy]

theorem State.operandArrives_tidy (s : State) (p tag : Nat) (r : Except (BitVec 8) (List Byte)) :
    s.Tidy (s.operandArrives p tag r) := by
  grind -ring -linarith [State.operandArrives, State.Tidy, State.withTrv_tidy, State.legDone_tidy,
    State.testEnds_tidy]

theorem State.parkOrEnd_tidy (s : State) (t : Trv) (st : TrvState) (info : BitVec 64) :
    s.Tidy (s.parkOrEnd t st info) := by
  grind -ring -linarith [State.parkOrEnd, State.Tidy, State.park_tidy, State.endAt_tidy]

theorem execLegWait_tidy (p tag : Nat) (s : State) : s.TidyAns (execLegWait p tag s) := by
  grind -ring -linarith [execLegWait, State.TidyAns, State.Tidy, State.legDone_tidy, State.perform_tidy,
    State.parkOrEnd_tidy]

theorem execLegNote_tidy (p tag : Nat) (s : State) : s.TidyAns (execLegNote p tag s) := by
  grind -ring -linarith [execLegNote, State.TidyAns, State.Tidy, State.writeRecord_tidy, State.legDone_tidy,
    State.perform_tidy]

theorem execLegPause_tidy (p tag : Nat) (s : State) : s.TidyAns (execLegPause p tag s) := by
  grind -ring -linarith [execLegPause, State.TidyAns, State.Tidy, State.perform_tidy, State.parkOrEnd_tidy]

theorem execLegEnd_tidy (p tag : Nat) (s : State) : s.TidyAns (execLegEnd p tag s) := by
  grind -ring -linarith [execLegEnd, State.TidyAns, State.Tidy, State.legDone_tidy, State.perform_tidy]

theorem execLegBook_tidy (p tag : Nat) (s : State) : s.TidyAns (execLegBook p tag s) := by
  grind -ring -linarith [execLegBook, State.TidyAns, State.Tidy, State.writeRecord_tidy, State.rivalsChanged_tidy,
    State.withTrv_tidy, State.legDone_tidy, State.putTrv_tidy, State.perform_tidy, State.parkOrEnd_tidy,
    State.modShelf_tidy, State.workChanged_tidy]

theorem execLegRelease_tidy (p tag : Nat) (s : State) : s.TidyAns (execLegRelease p tag s) := by
  grind -ring -linarith [execLegRelease, State.TidyAns, State.Tidy, State.withTrv_tidy, State.legDone_tidy,
    State.putTrv_tidy, State.perform_tidy, State.workChanged_tidy]

/-! ### Sas -/

theorem State.openFor_tidy (s : State) (c : Cmd) : s.Tidy (s.openFor c).1 := by
  grind -ring -linarith [State.openFor, State.Tidy]

theorem execCommandFrameSend_tidy (h : Nat) (s : State) : s.TidyAns (execCommandFrameSend h s) := by
  grind -ring -linarith [execCommandFrameSend, State.TidyAns, State.Tidy, State.openFor_tidy, State.endCmd_tidy,
    State.putCmd_tidy, State.emit_tidy]

theorem State.tmfOut_tidy (s : State) (m : Tmf) : s.Tidy (s.tmfOut m) := by
  grind -ring -linarith [State.tmfOut, State.Tidy, State.setChain_tidy, State.emit_tidy]

theorem execTaskSend_tidy (h : Nat) (s : State) : s.TidyAns (execTaskSend h s) := by
  unfold execTaskSend
  split <;> grind -ring -linarith [State.TidyAns, State.Tidy, State.withTrv_tidy, State.freeInfo_tidy,
    State.legDone_tidy, State.taskNamed_tidy, State.setChain_tidy, State.notSent_tidy, State.tmfOut_tidy]

theorem execSspResponseFrame_tidy (c tag : Nat) (status : BitVec 8) (info : List Byte) (s : State) :
    s.TidyAns (execSspResponseFrame c tag status info s) := by
  grind -ring -linarith [execSspResponseFrame, State.TidyAns, State.Tidy, State.endCmd_tidy,
    State.recoverySettle_tidy, State.putCmd_tidy]

theorem execBusyRetryDelayExpiry_tidy (c id : Nat) (s : State) : s.TidyAns (execBusyRetryDelayExpiry c id s) := by
  grind -ring -linarith [execBusyRetryDelayExpiry, State.TidyAns, State.Tidy, State.putCmd_tidy]

theorem State.abortEnds_tidy (s : State) (ch : Nat) (c : Cmd) : s.Tidy (s.abortEnds ch c) := by
  grind -ring -linarith [State.abortEnds, State.Tidy, State.endCmd_tidy]

theorem State.taskEnds_tidy (s : State) (m : Tmf) : s.Tidy (s.taskEnds m) := by
  grind -ring -linarith [State.taskEnds, State.Tidy, State.endCmds_tidy]

theorem State.portAnswered_tidy (s : State) (ch : Nat) (m : Tmf) : s.Tidy (s.portAnswered ch m) := by
  grind -ring -linarith [State.portAnswered, State.Tidy, State.abortEnds_tidy, State.taskEnds_tidy]

theorem State.abortMissed_tidy (s : State) (ch : Nat) (m : Tmf) : s.Tidy (s.abortMissed ch m) := by
  grind -ring -linarith [State.abortMissed, State.Tidy, State.startRecovery_tidy]

theorem execTaskResponse_tidy (c tag : Nat) (code : BitVec 8) (s : State) :
    s.TidyAns (execTaskResponse c tag code s) := by
  grind -ring -linarith [execTaskResponse, State.TidyAns, State.Tidy, State.withTrv_tidy, State.portAnswered_tidy,
    State.legDone_tidy, State.abortMissed_tidy, State.recoveryMissed_tidy, State.modChain_tidy,
    State.abortAnswered_tidy, State.recoveryEvent_tidy, State.recoveryAnswered_tidy, State.taskEnds_tidy]

theorem execTmfTimeout_tidy (c tag : Nat) (s : State) : s.TidyAns (execTmfTimeout c tag s) := by
  grind -ring -linarith [execTmfTimeout, State.TidyAns, State.Tidy, State.withTrv_tidy, State.freeInfo_tidy,
    State.legDone_tidy, State.abortMissed_tidy, State.recoveryMissed_tidy, State.modChain_tidy]

theorem execCommandTimeout_tidy (c tag : Nat) (s : State) : s.TidyAns (execCommandTimeout c tag s) := by
  grind -ring -linarith [execCommandTimeout, State.TidyAns, State.Tidy, State.putCmd_tidy, State.startRecovery_tidy]

theorem State.wrongDirection_tidy (s : State) (ch : Nat) (c : Cmd) : s.Tidy (s.wrongDirection ch c) := by
  grind -ring -linarith [State.wrongDirection, State.Tidy, State.abortCmd_tidy]

theorem execXferRdy_tidy (c tag offset len : Nat) (s : State) : s.TidyAns (execXferRdy c tag offset len s) := by
  grind -ring -linarith [execXferRdy, State.TidyAns, State.Tidy, State.wrongDirection_tidy, State.putCmd_tidy]

theorem execDataFrameSend_tidy (l : SasLane) (tag : Nat) (s : State) : s.TidyAns (execDataFrameSend l tag s) := by
  grind -ring -linarith [execDataFrameSend, State.TidyAns, State.Tidy, State.modChain_tidy, State.putCmd_tidy,
    State.abortCmd_tidy, State.emit_tidy]

theorem execDataFrameReceive_tidy (l : SasLane) (tag offset : Nat) (bytes : List Byte) (s : State) :
    s.TidyAns (execDataFrameReceive l tag offset bytes s) := by
  grind -ring -linarith [execDataFrameReceive, State.TidyAns, State.Tidy, State.modChain_tidy,
    State.wrongDirection_tidy, State.putCmd_tidy]

theorem State.wantRediscovery_tidy (s : State) (ch : Nat) : s.Tidy (s.wantRediscovery ch) := by
  grind -ring -linarith [State.wantRediscovery, State.Tidy, State.modChain_tidy]

theorem State.loseTarget_tidy (s : State) (h : Nat) : s.Tidy (s.loseTarget h) := by
  grind -ring -linarith [State.loseTarget, State.Tidy, State.modChain_tidy, State.setHandle_tidy]

theorem State.targetReturns_tidy (s : State) (h : Nat) : s.Tidy (s.targetReturns h) := by
  grind -ring -linarith [State.targetReturns, State.Tidy, State.recoveryStep_tidy, State.setHandle_tidy,
    State.sendTmf_tidy, State.modHandle_tidy, State.abortCmd_tidy, State.Tidy.foldl]

theorem execNexusLossExpiry_tidy (h : Nat) (s : State) : s.TidyAns (execNexusLossExpiry h s) := by
  grind -ring -linarith [execNexusLossExpiry, State.TidyAns, State.Tidy, State.detach_tidy]

theorem State.breakCommands_tidy (s : State) (c : Nat) (tags : List Nat) : s.Tidy (s.breakCommands c tags) := by
  grind -ring -linarith [State.breakCommands, State.Tidy, State.putCmd_tidy, State.abortCmd_tidy, State.Tidy.foldl]

theorem execConnectionBreak_tidy (c : Nat) (tags : List Nat) (s : State) : s.TidyAns (execConnectionBreak c tags s) := by
  grind -ring -linarith [execConnectionBreak, State.TidyAns, State.Tidy, State.breakCommands_tidy,
    State.modChain_tidy]

theorem State.rejected_tidy (s : State) (h : Nat) (r : RejectReason) : s.Tidy (s.rejected h r) := by
  unfold State.rejected
  split <;> grind -ring -linarith [State.Tidy, State.loseTarget_tidy, State.wantRediscovery_tidy]

theorem State.rejectCmd_tidy (s : State) (c : Cmd) (r : RejectReason) : s.Tidy (s.rejectCmd c r) := by
  unfold State.rejectCmd
  split <;> grind -ring -linarith [State.Tidy, State.rejected_tidy, State.endCmd_tidy, State.putCmd_tidy]

theorem State.rejectTmf_tidy (s : State) (m : Tmf) (r : RejectReason) : s.Tidy (s.rejectTmf m r) := by
  unfold State.rejectTmf
  split <;> grind -ring -linarith [State.Tidy, State.withTrv_tidy, State.freeInfo_tidy, State.legDone_tidy,
    State.rejected_tidy, State.modChain_tidy]

theorem execOpenReject_tidy (h tag : Nat) (r : RejectReason) (s : State) : s.TidyAns (execOpenReject h tag r s) := by
  grind -ring -linarith [execOpenReject, State.TidyAns, State.Tidy, State.openFor_tidy, State.rejectCmd_tidy,
    State.rejected_tidy, State.rejectTmf_tidy]

theorem State.sesLinkUp_tidy (s : State) (h : Nat) : s.Tidy (s.sesLinkUp h) := by
  grind -ring -linarith [State.sesLinkUp, State.Tidy, State.handOver_tidy, State.setShelf_tidy]

theorem State.replaceTarget_tidy (s : State) (h : Nat) (sas : BitVec 64) : s.Tidy (s.replaceTarget h sas) := by
  grind -ring -linarith [State.replaceTarget, State.Tidy, State.modChain_tidy, State.setHandle_tidy,
    State.cutCmds_tidy, State.deviceHandleEvent_tidy]

theorem State.attach_tidy (s : State) (h : Nat) (sas : BitVec 64) : s.Tidy (s.attach h sas) := by
  grind -ring -linarith [State.attach, State.Tidy, State.setHandle_tidy, State.replaceTarget_tidy,
    State.targetReturns_tidy, State.sesLinkUp_tidy, State.deviceHandleEvent_tidy]

theorem State.describe_tidy (s : State) (h : Nat) (sas : Option (List (BitVec 64))) (installed : Bool) :
    s.Tidy (s.describe h sas installed) := by
  grind -ring -linarith [State.describe, State.Tidy, State.loseTarget_tidy, State.modHandle_tidy, State.attach_tidy,
    State.Tidy.foldl]

theorem State.enclosureEvent_tidy (s : State) (ch event detail shelf : Nat) (id : BitVec 64) :
    s.Tidy (s.enclosureEvent ch event detail shelf id) := by
  grind -ring -linarith [State.enclosureEvent, State.Tidy, State.sasEvent_tidy]

theorem State.readPage_tidy (s : State) (h page : Nat) : s.Tidy (s.readPage h page) := by
  grind -ring -linarith [State.readPage, State.Tidy, State.handOver_tidy]

theorem State.takeExpander_tidy (s : State) (ch : Nat) (ses : Bool) (sas : BitVec 64) :
    s.Tidy (s.takeExpander ch ses sas) := by
  grind -ring -linarith [State.takeExpander, State.Tidy, State.setChain_tidy, State.setHandle_tidy,
    State.deviceHandleEvent_tidy, State.readPage_tidy]

theorem State.meetEnclosure_tidy (s : State) (ch : Nat) (sas id : BitVec 64) (types : List (Nat × Nat)) :
    s.Tidy (s.meetEnclosure ch sas id types) := by
  unfold State.meetEnclosure
  extract_lets x late
  have hlate : s.Tidy (late s) := by
    unfold late
    split
    · exact .refl s
    · exact (s.setChain_tidy ..).trans (State.enclosureEvent_tidy ..)
  clear_value late
  split
  · dsimp only
    split
    · exact s.attach_tidy ..
    · split
      · exact hlate
      · exact (s.modChain_tidy ..).trans (State.attach_tidy ..)
  · split
    · exact s.takeExpander_tidy ..
    · split
      · exact .refl s
      · split
        · exact hlate
        · split
          · exact (s.setChain_tidy ..).trans (State.enclosureEvent_tidy ..)
          · refine State.Tidy.trans ?_ (State.readPage_tidy ..)
            refine State.Tidy.trans ?_ (State.readPage_tidy ..)
            refine State.Tidy.trans ?_ (State.deviceHandleEvent_tidy ..)
            refine State.Tidy.trans ?_ (State.enclosureEvent_tidy ..)
            exact (s.setChain_tidy ..).trans (State.setHandle_tidy ..)

theorem State.visit_tidy (s : State) (c : Nat) (sas : BitVec 64) (general : Bool) : s.Tidy (s.visit c sas general) := by
  grind -ring -linarith [State.visit, State.Tidy, State.modChain_tidy, State.emit_tidy]

theorem State.inquire_tidy (s : State) (c : Nat) : s.Tidy (s.inquire c) := by
  grind -ring -linarith [State.inquire, State.Tidy, State.setChain_tidy, State.emit_tidy, State.Tidy.foldl]

theorem State.meetExpander_tidy (s : State) (c : Nat) (sas : BitVec 64) : s.Tidy (s.meetExpander c sas) := by
  grind -ring -linarith [State.meetExpander, State.Tidy, State.takeExpander_tidy, State.setChain_tidy,
    State.visit_tidy, State.attach_tidy, State.Tidy.foldl]

theorem State.leaveExpander_tidy (s : State) (c : Nat) (sas : BitVec 64) : s.Tidy (s.leaveExpander c sas) := by
  grind -ring -linarith [State.leaveExpander, State.Tidy, State.inquire_tidy, State.setChain_tidy, State.emit_tidy]

theorem State.meetTarget_tidy (s : State) (c : Nat) (sas : BitVec 64) : s.Tidy (s.meetTarget c sas) := by
  grind -ring -linarith [State.meetTarget, State.Tidy, State.inquire_tidy, State.setChain_tidy, State.attach_tidy,
    State.Tidy.foldl]

theorem State.emptyShelf_tidy (s : State) (sh : Nat) : s.Tidy (s.emptyShelf sh) := by
  grind -ring -linarith [State.emptyShelf, State.Tidy, State.withTrv_tidy, State.legDone_tidy, State.modShelf_tidy,
    State.Tidy.foldl]

theorem State.discoveryEnds_tidy (s : State) (c : Nat) : s.Tidy (s.discoveryEnds c) := by
  grind -ring -linarith [State.discoveryEnds, State.Tidy, State.rivalsChanged_tidy, State.modChain_tidy,
    State.emptyShelf_tidy, State.Tidy.foldl]

theorem execSmpResponse_tidy (c : Nat) (r : SmpReport) (s : State) : s.TidyAns (execSmpResponse c r s) := by
  unfold execSmpResponse
  split <;> grind -ring -linarith [State.TidyAns, State.Tidy, State.loseTarget_tidy, State.meetExpander_tidy,
    State.recoveryMissed_tidy, State.modChain_tidy, State.meetTarget_tidy, State.describe_tidy,
    State.enclosureEvent_tidy, State.discoveryEnds_tidy, State.recoveryEvent_tidy, State.deviceHandleEvent_tidy,
    State.recoveryAnswered_tidy, State.meetEnclosure_tidy, State.leaveExpander_tidy, State.emit_tidy]

theorem State.broadcastEvent_tidy (s : State) (ch prim count lane : Nat) :
    s.Tidy (s.broadcastEvent ch prim count lane) := by
  grind -ring -linarith [State.broadcastEvent, State.Tidy, State.sasEvent_tidy]

theorem execBroadcast_tidy (c lane : Nat) (prim : BitVec 8) (s : State) : s.TidyAns (execBroadcast c lane prim s) := by
  grind -ring -linarith [execBroadcast, State.TidyAns, State.Tidy, State.broadcastEvent_tidy, State.modChain_tidy,
    State.readPage_tidy, State.Tidy.foldl]

theorem State.rescan_tidy (s : State) (c : Nat) : s.Tidy (s.rescan c) := by
  grind -ring -linarith [State.rescan, State.Tidy, State.setChain_tidy, State.emit_tidy, State.Tidy.foldl]

theorem State.rereadSlots_tidy (s : State) (c : Nat) : s.Tidy (s.rereadSlots c) := by
  grind -ring -linarith [State.rereadSlots, State.Tidy, State.readPage_tidy, State.Tidy.foldl]

theorem execRediscoveryStart_tidy (c : Nat) (s : State) : s.TidyAns (execRediscoveryStart c s) := by
  grind -ring -linarith [execRediscoveryStart, State.TidyAns, State.Tidy, State.rescan_tidy,
    State.broadcastEvent_tidy, State.modChain_tidy, State.rereadSlots_tidy]

theorem State.phyEvent_tidy (s : State) (ch event detail lane rate : Nat) :
    s.Tidy (s.phyEvent ch event detail lane rate) := by
  grind -ring -linarith [State.phyEvent, State.Tidy, State.sasEvent_tidy]

theorem execLaneUp_tidy (c lane : Nat) (rate : BitVec 2) (s : State) : s.TidyAns (execLaneUp c lane rate s) := by
  grind -ring -linarith [execLaneUp, State.TidyAns, State.Tidy, State.phyEvent_tidy, State.setChain_tidy,
    State.emit_tidy]

theorem State.portDown_tidy (s : State) (c : Nat) : s.Tidy (s.portDown c) := by
  grind -ring -linarith [State.portDown, State.Tidy, State.loseTarget_tidy, State.phyEvent_tidy, State.Tidy.foldl]

theorem State.resendResets_tidy (s : State) (c : Nat) : s.Tidy (s.resendResets c) := by
  grind -ring -linarith [State.resendResets, State.Tidy, State.emit_tidy, State.Tidy.foldl]

theorem State.resetLane_tidy (s : State) (c lane : Nat) : s.Tidy (s.resetLane c lane) := by
  grind -ring -linarith [State.resetLane, State.Tidy, State.breakCommands_tidy, State.portDown_tidy,
    State.phyEvent_tidy, State.modChain_tidy, State.resendResets_tidy, State.emit_tidy]

theorem execDwordSyncLoss_tidy (c lane : Nat) (s : State) : s.TidyAns (execDwordSyncLoss c lane s) := by
  grind -ring -linarith [execDwordSyncLoss, State.TidyAns, State.Tidy, State.resetLane_tidy]

theorem execFecThreshold_tidy (c lane : Nat) (s : State) : s.TidyAns (execFecThreshold c lane s) := by
  grind -ring -linarith [execFecThreshold, State.TidyAns, State.Tidy, State.phyEvent_tidy, State.resetLane_tidy,
    State.modChain_tidy]

theorem State.applyLink_tidy (s : State) (c : Nat) : s.Tidy (s.applyLink c) := by
  grind -ring -linarith [State.applyLink, State.Tidy, State.modChain_tidy]

theorem execPortResetAttempt_tidy (c : Nat) (ok : Bool) (s : State) : s.TidyAns (execPortResetAttempt c ok s) := by
  grind -ring -linarith [execPortResetAttempt, State.TidyAns, State.Tidy, State.phyEvent_tidy, State.modChain_tidy,
    State.applyLink_tidy, State.emit_tidy]

theorem execChainLinkResetApply_tidy (c : Nat) (s : State) : s.TidyAns (execChainLinkResetApply c s) := by
  grind -ring -linarith [execChainLinkResetApply, State.TidyAns, State.Tidy, State.breakCommands_tidy,
    State.portDown_tidy, State.modChain_tidy, State.applyLink_tidy, State.emit_tidy]

/-! ### HamperOps -/

theorem State.landDue_tidy (s : State) (e t : Nat) : s.Tidy (s.landDue e t) := by
  grind -ring -linarith [State.landDue, State.Tidy, State.setEngine_tidy, State.Tidy.foldl]

theorem State.landAll_tidy (s : State) (e : Nat) : s.Tidy (s.landAll e) := by
  grind -ring -linarith [State.landAll, State.Tidy, State.landDue_tidy, State.Tidy.foldl]

theorem State.bundleEffect_tidy (s : State) (e : Nat) (ws : List (BitVec 32)) (ops : List HOp) :
    s.Tidy (s.bundleEffect e ws ops) := by
  grind -ring -linarith [State.bundleEffect, State.Tidy, State.freeBytes_tidy, State.met_tidy, State.modQuarter_tidy,
    State.setEngine_tidy, State.Tidy.foldl]

/-! ### RomRecipe -/

theorem State.romEffect_tidy (e : Nat) (s : State) (a1 : RomEffect) : s.Tidy (s.romEffect e a1) := by
  unfold State.romEffect
  split <;> grind -ring -linarith [State.Tidy, State.modEngine_tidy, State.writeBuf_tidy]

theorem State.partPiece_tidy (s : State) (pos : Nat) (bs : List Byte) (p : Bool) : s.Tidy (s.partPiece pos bs p) := by
  grind -ring -linarith [State.partPiece, State.Tidy, State.writeBuf_tidy, State.Tidy.foldl]

theorem State.romPart_tidy (s : State) (e : Nat) (l : List RomEffect) : s.Tidy (s.romPart e l) := by
  induction l generalizing s with
  | nil => exact .refl s
  | cons x rest ih =>
    unfold State.romPart
    split
    · exact (State.Tidy.foldl (fun s a => s.partPiece_tidy ..) _ s).trans (ih _)
    · grind -ring -linarith [State.Tidy, State.romEffect_tidy]

/-! ### Hamper -/

theorem State.placeLaunches_tidy (s : State) (e : Nat) : s.Tidy (s.placeLaunches e) := by
  grind -ring -linarith [State.placeLaunches, State.Tidy, State.withTrv_tidy, State.modEngine_tidy, State.putTrv_tidy,
    State.Tidy.foldl]

theorem State.enqueue_tidy (s : State) (t : Trv) (l : Launch) : s.Tidy (s.enqueue t l) := by
  grind -ring -linarith [State.enqueue, State.Tidy, State.placeLaunches_tidy, State.modEngine_tidy, State.putTrv_tidy]

theorem execLegRecipe_tidy (p tag : Nat) (s : State) : s.TidyAns (execLegRecipe p tag s) := by
  grind -ring -linarith [execLegRecipe, State.TidyAns, State.Tidy, State.enqueue_tidy, State.perform_tidy]

theorem execLegVerify_tidy (p tag : Nat) (s : State) : s.TidyAns (execLegVerify p tag s) := by
  grind -ring -linarith [execLegVerify, State.TidyAns, State.Tidy, State.enqueue_tidy, State.perform_tidy]

theorem State.launchEnds_tidy (s : State) (l : Launch) (r : LegResult) : s.Tidy (s.launchEnds l r) := by
  grind -ring -linarith [State.launchEnds, State.Tidy, State.withTrv_tidy, State.legDone_tidy]

theorem execPreparationDone_tidy (e : Nat) (s : State) : s.TidyAns (execPreparationDone e s) := by
  unfold execPreparationDone
  dsimp only
  repeat' split
  all_goals grind -ring -linarith [State.TidyAns, State.Tidy, State.withTrv_tidy, State.placeLaunches_tidy,
    State.freeInfo_tidy, State.met_tidy, State.setEngine_tidy, State.launchEnds_tidy]

theorem State.engineIdle_tidy (s : State) (e : Nat) : s.Tidy (s.engineIdle e) := by
  grind -ring -linarith [State.engineIdle, State.Tidy, State.modEngine_tidy, State.adoptProfile_tidy,
    State.regenerate_tidy]

theorem State.finishRecipe_tidy (s : State) (e : Nat) : s.Tidy (s.finishRecipe e) := by
  grind -ring -linarith [State.finishRecipe, State.Tidy, State.engineIdle_tidy, State.landAll_tidy,
    State.launchEnds_tidy]

theorem State.stopRecipe_tidy (s : State) (e : Nat) (r : LegResult) : s.Tidy (s.stopRecipe e r) := by
  grind -ring -linarith [State.stopRecipe, State.Tidy, State.modEngine_tidy, State.finishRecipe_tidy]

theorem State.storeFault_tidy (s : State) (e code : Nat) : s.Tidy (s.storeFault e code) := by
  grind -ring -linarith [State.storeFault, State.Tidy, State.stopRecipe_tidy]

theorem State.nextBundle_tidy (s : State) (e : Nat) : s.Tidy (s.nextBundle e) := by
  grind -ring -linarith [State.nextBundle, State.Tidy, State.storeFault_tidy]

theorem execRecipeStart_tidy (e : Nat) (s : State) : s.TidyAns (execRecipeStart e s) := by
  grind -ring -linarith [execRecipeStart, State.TidyAns, State.Tidy, State.placeLaunches_tidy, State.setEngine_tidy,
    State.nextBundle_tidy, State.launchEnds_tidy]

theorem State.issueBundle_tidy (s : State) (e : Nat) (im : Image) (ops : List HOp) :
    s.Tidy (s.issueBundle e im ops) := by
  grind -ring -linarith [State.issueBundle, State.Tidy, State.landDue_tidy, State.bundleEffect_tidy,
    State.nextBundle_tidy, State.storeFault_tidy]

theorem State.hamperOp_tidy (s : State) (e : Nat) (stop : Bool) (op : HOp) : s.Tidy (s.hamperOp e stop op) := by
  grind -ring -linarith [State.hamperOp, State.Tidy, State.issueBundle_tidy, State.setEngine_tidy]

theorem execHamperLoadLands_tidy (e : Nat) (s : State) : s.TidyAns (execHamperLoadLands e s) := by
  grind -ring -linarith [execHamperLoadLands, State.TidyAns, State.Tidy, State.landDue_tidy]

theorem State.romEnds_tidy (s : State) (e id : Nat) (p : Prepared) : s.Tidy (s.romEnds e id p) := by
  grind -ring -linarith [State.romEnds, State.Tidy, State.romPart_tidy, State.stopRecipe_tidy, State.met_tidy,
    State.romEffect_tidy, State.Tidy.foldl]

theorem execRecipeEnd_tidy (e : Nat) (s : State) : s.TidyAns (execRecipeEnd e s) := by
  grind -ring -linarith [execRecipeEnd, State.TidyAns, State.Tidy, State.engineIdle_tidy, State.met_tidy,
    State.launchEnds_tidy, State.finishRecipe_tidy, State.romEnds_tidy]

theorem execRunLimit_tidy (e : Nat) (s : State) : s.TidyAns (execRunLimit e s) := by
  grind -ring -linarith [execRunLimit, State.TidyAns, State.Tidy, State.romPart_tidy, State.stopRecipe_tidy,
    State.storeFault_tidy]

/-! ### Timetable -/

theorem State.integrityFailure_tidy (s : State) (q detail row : Nat) : s.Tidy (s.integrityFailure q detail row) := by
  grind -ring -linarith [State.integrityFailure, State.Tidy, State.irq_tidy, State.tableEvent_tidy,
    State.modQuarter_tidy]

theorem State.beatAstray_tidy (s : State) (q detail row : Nat) : s.Tidy (s.beatAstray q detail row) := by
  grind -ring -linarith [State.beatAstray, State.Tidy, State.integrityFailure_tidy, State.startDevice_tidy]

theorem State.fillSlot_tidy (s : State) (q : Nat) (x : Quarter) (w : RowWork) (lane c : Nat) :
    s.Tidy (s.fillSlot q x w lane c).1 := by
  grind -ring -linarith [State.fillSlot, State.Tidy, State.modChain_tidy]

theorem State.replaceCmd_tidy (s : State) (c : Nat) (e : Cmd) : s.Tidy (s.replaceCmd c e) := by
  grind -ring -linarith [State.replaceCmd, State.Tidy, State.modChain_tidy]

theorem State.askPull_tidy (s : State) (c : Nat) (d : Cmd) (pos n : Nat) : s.Tidy (s.askPull c d pos n) := by
  grind -ring -linarith [State.askPull, State.Tidy, State.replaceCmd_tidy]

theorem State.drainSlot_tidy (s : State) (q : Nat) (x : Quarter) (uses : List LaneUse) (w : RowWork) (lane c : Nat) :
    s.Tidy (s.drainSlot q x uses w lane c).1 := by
  grind -ring -linarith [State.drainSlot, State.Tidy, State.askPull_tidy, State.replaceCmd_tidy]

theorem State.portSlot_tidy (s : State) (q : Nat) (x : Quarter) (uses : List LaneUse) (w : RowWork) (lane : Nat) :
    s.Tidy (s.portSlot q x uses w lane).1 := by
  grind -ring -linarith [State.portSlot, State.Tidy, State.drainSlot_tidy, State.fillSlot_tidy]

theorem State.takeSta_tidy (s : State) (x : Quarter) (w : RowWork) (lane : Nat) : s.Tidy (s.takeSta x w lane).1 := by
  grind -ring -linarith [State.takeSta, State.Tidy, State.modEngine_tidy]

theorem State.turnTaken_tidy (s : State) (q req : Nat) : s.Tidy (s.turnTaken q req) := by
  grind -ring -linarith [State.turnTaken, State.Tidy, State.askPull_tidy, State.modChain_tidy, State.modQuarter_tidy]

theorem State.loses_tidy (s : State) (q req : Nat) (stack : Bool) : s.Tidy (s.loses q req stack) := by
  grind -ring -linarith [State.loses, State.Tidy, State.irq_tidy, State.tableEvent_tidy, State.modQuarter_tidy,
    State.setQuarter_tidy]

theorem State.maskAsks_tidy (s : State) (q : Nat) (asks : List OpenAsk) : s.Tidy (s.maskAsks q asks) := by
  grind -ring -linarith [State.maskAsks, State.Tidy, State.modQuarter_tidy, State.Tidy.foldl]

theorem State.wakeAsked_tidy (s : State) (q : Nat) (asks : List OpenAsk) : s.Tidy (s.wakeAsked q asks) := by
  grind -ring -linarith [State.wakeAsked, State.Tidy, State.wakeStack_tidy]

theorem State.losers_tidy (s : State) (q : Nat) (l : List (OpenAsk × OpenTurn)) : s.Tidy (s.losers q l) := by
  grind -ring -linarith [State.losers, State.Tidy, State.loses_tidy, State.modQuarter_tidy, State.Tidy.foldl]

theorem State.arbitrate_tidy (s : State) (q : Nat) (w : RowWork) (asks : List OpenAsk) :
    s.Tidy (s.arbitrate q w asks).1 := by
  grind -ring -linarith [State.arbitrate, State.Tidy, State.wakeAsked_tidy, State.turnTaken_tidy, State.maskAsks_tidy,
    State.modQuarter_tidy, State.losers_tidy]

theorem State.finding_tidy (s : State) (q addr : Nat) (f : Finding) : s.Tidy (s.finding q addr f) := by
  grind -ring -linarith [State.finding, State.Tidy, State.firmwareRead_tidy, State.modQuarter_tidy,
    State.beatEvent_tidy, State.Tidy.foldl]

theorem State.rowWork_tidy (s : State) (q : Nat) (uses : List LaneUse) (asks : List OpenAsk) :
    s.Tidy (s.rowWork q uses asks).1 := by
  unfold State.rowWork
  have hslots := State.Tidy.foldl_fst (fun x l => State.portSlot_tidy x.1 q (s.quarter q) uses x.2 l) (List.range 14)
  have hsta := State.Tidy.foldl_fst (fun x l => State.takeSta_tidy x.1 (s.quarter q) x.2 l) (List.range 14)
  grind -ring -linarith [State.Tidy, State.arbitrate_tidy]

theorem State.send_tidy (s : State) (q row : Nat) (l : Launched) : s.Tidy (s.send q row l) := by
  grind -ring -linarith [State.send, State.Tidy, State.modQuarter_tidy]

theorem State.collectorCell_tidy (s : State) (q : Nat) : s.Tidy (s.collectorCell q) := by
  grind -ring -linarith [State.collectorCell, State.Tidy, State.settleNotices_tidy]

theorem State.writeRow_tidy (s : State) (addr : Nat) (d : BitVec 512) (p bad : Bool) :
    s.Tidy (s.writeRow addr d p bad) := by
  grind -ring -linarith [State.writeRow, State.Tidy, State.writeBeat_tidy, State.Tidy.foldl]

theorem State.landRow_tidy (s : State) (q : Nat) : s.Tidy (s.landRow q) := by
  refine (State.Tidy.foldl_fst (fun x l => ?_) _ (s, _)).trans (State.modQuarter_tidy ..)
  grind -ring -linarith [State.Tidy, State.countAt_tidy, State.accumBeat_tidy, State.writePhys_tidy, State.writeRow_tidy]

theorem State.portTakes_tidy (s : State) (owner : Nat) (addr : Option Nat) (d : BitVec 512) (check : BitVec 16) :
    s.Tidy (s.portTakes owner addr d check) := by
  unfold State.portTakes
  split <;> grind -ring -linarith [State.Tidy, State.modChain_tidy]

theorem State.rowEffect_tidy (s : State) (q : Nat) (w : RowWork) : s.Tidy (s.rowEffect q w) := by
  grind -ring -linarith [State.rowEffect, State.Tidy, State.finding_tidy, State.memoryEvent_tidy,
    State.portTakes_tidy, State.beatAstray_tidy, State.setQuarter_tidy, State.beatEvent_tidy, State.send_tidy,
    State.emit_tidy, State.Tidy.foldl]

theorem State.answerSettled_tidy (s : State) (c : Nat) : s.Tidy (s.answerSettled c) := by
  grind -ring -linarith [State.answerSettled, State.Tidy, State.endCmd_tidy, State.recoverySettle_tidy]

theorem State.settleAnswers_tidy (s : State) : s.Tidy (s.settleAnswers) := by
  grind -ring -linarith [State.settleAnswers, State.Tidy, State.answerSettled_tidy, State.Tidy.foldl]

theorem State.nextRow_tidy (s : State) (q : Nat) : s.Tidy (s.nextRow q) := by
  grind -ring -linarith [State.nextRow, State.Tidy, State.modQuarter_tidy, State.landRow_tidy]

theorem execTimetableRow_tidy (q : Nat) (ecc : RowEcc) (uses : List LaneUse) (asks : List OpenAsk) (s : State) :
    s.TidyAns (execTimetableRow q ecc uses asks s) := by
  grind -ring -linarith [execTimetableRow, State.TidyAns, State.Tidy, State.tableEvent_tidy, State.restart_tidy,
    State.integrityFailure_tidy, State.collectorCell_tidy, State.modQuarter_tidy, State.nextRow_tidy,
    State.rowWork_tidy, State.settleAnswers_tidy, State.rowEffect_tidy]

theorem State.swap_tidy (s : State) (q : Nat) : s.Tidy (s.swap q) := by
  grind -ring -linarith [State.swap, State.Tidy, State.tableEvent_tidy, State.setQuarter_tidy,
    State.bringProfile_tidy, State.Tidy.foldl]

theorem State.beaconTo_tidy (s : State) (q : Nat) (count : BitVec 32) (delay : Nat) :
    s.Tidy (s.beaconTo q count delay) := by
  grind -ring -linarith [State.beaconTo, State.Tidy, State.modQuarter_tidy]

theorem execSuperframeBoundary_tidy (q : Nat) (s : State) : s.TidyAns (execSuperframeBoundary q s) := by
  grind -ring -linarith [execSuperframeBoundary, State.TidyAns, State.Tidy, State.beaconTo_tidy, State.swap_tidy,
    State.setQuarter_tidy]

theorem State.generateDue_tidy (s : State) : s.Tidy (s.generateDue) := by
  grind -ring -linarith [State.generateDue, State.Tidy, State.generate_tidy, State.modQuarter_tidy, State.Tidy.foldl]

theorem State.enterSelfRefresh_tidy (s : State) (q : Nat) : s.Tidy (s.enterSelfRefresh q) :=
  (s.enterSelfRefresh_tells ..).tidy

theorem execSeamEnd_tidy (q : Nat) (s : State) : s.TidyAns (execSeamEnd q s) := by
  grind -ring -linarith [execSeamEnd, State.TidyAns, State.Tidy, State.enterSelfRefresh_tidy, State.generateDue_tidy,
    State.modQuarter_tidy, State.setQuarter_tidy, State.regenerate_tidy]

theorem execFrameBeacon_tidy (q : Nat) (count : BitVec 32) (s : State) : s.TidyAns (execFrameBeacon q count s) := by
  grind -ring -linarith [execFrameBeacon, State.TidyAns, State.Tidy, State.beaconTo_tidy, State.restart_tidy,
    State.integrityFailure_tidy, State.setQuarter_tidy]

theorem execBeaconMissing_tidy (q : Nat) (s : State) : s.TidyAns (execBeaconMissing q s) := by
  grind -ring -linarith [execBeaconMissing, State.TidyAns, State.Tidy, State.restart_tidy,
    State.integrityFailure_tidy]

theorem State.alignQuarter_tidy (s : State) (q : Nat) (count : BitVec 32) (delay : Nat) :
    s.Tidy (s.alignQuarter q count delay) := by
  grind -ring -linarith [State.alignQuarter, State.Tidy, State.modQuarter_tidy]

theorem execBeaconAlignment_tidy (q : Nat) (count : BitVec 32) (delay : Nat) (roundTrips : List Nat) (s : State) :
    s.TidyAns (execBeaconAlignment q count delay roundTrips s) := by
  grind -ring -linarith [execBeaconAlignment, State.TidyAns, State.Tidy, State.beaconTo_tidy, State.modQuarter_tidy,
    State.alignQuarter_tidy, State.setQuarter_tidy, State.Tidy.foldl]

theorem execTtShadowDataWrite_tidy (q : Nat) (v : Word) (s : State) : s.TidyAns (execTtShadowDataWrite q v s) := by
  grind -ring -linarith [execTtShadowDataWrite, State.TidyAns, State.Tidy, State.setQuarter_tidy]

theorem execStackSrEntryTimer_tidy (q : Nat) (s : State) : s.TidyAns (execStackSrEntryTimer q s) := by
  grind -ring -linarith [execStackSrEntryTimer, State.TidyAns, State.Tidy, State.enterSelfRefresh_tidy,
    State.setQuarter_tidy, State.regenerate_tidy]

theorem execSrExitComplete_tidy (q : Nat) (s : State) : s.TidyAns (execSrExitComplete q s) := by
  grind -ring -linarith [execSrExitComplete, State.TidyAns, State.Tidy, State.memoryEvent_tidy, State.serveBar4_tidy,
    State.serveSb_tidy, State.modQuarter_tidy, State.setQuarter_tidy, State.regenerate_tidy]

/-! ### Boot -/

theorem State.cold_tidy (s : State) (mode : DeviceMode) : s.Tidy (s.cold mode) := ⟨rfl, fun _ => rfl⟩

theorem execCxRstNAssert_tidy (s : State) : s.TidyAns (execCxRstNAssert s) := by
  grind -ring -linarith [execCxRstNAssert, State.TidyAns, State.Tidy, State.cold_tidy]

theorem State.recordStraps_tidy (s : State) : s.Tidy (s.recordStraps) := by
  grind -ring -linarith [State.recordStraps, State.Tidy, State.strapFault_tidy]

theorem execCxRstNDeassert_tidy (adminSel : BitVec 4) (smbAddr : BitVec 2) (bootRcvy : Bool) (s : State) :
    s.TidyAns (execCxRstNDeassert adminSel smbAddr bootRcvy s) := by
  grind -ring -linarith [execCxRstNDeassert, State.TidyAns, State.Tidy, State.enterRecovery_tidy, State.modCore_tidy,
    State.readSfdp_tidy, State.recordStraps_tidy]

theorem execMainRailsValid_tidy (s : State) : s.TidyAns (execMainRailsValid s) := by
  grind -ring -linarith [execMainRailsValid, State.TidyAns, State.Tidy]

theorem execMainRailFault_tidy (s : State) : s.TidyAns (execMainRailFault s) := by
  grind -ring -linarith [execMainRailFault, State.TidyAns, State.Tidy, State.cold_tidy]

theorem execDevRefclkLoss_tidy (s : State) : s.TidyAns (execDevRefclkLoss s) := by
  grind -ring -linarith [execDevRefclkLoss, State.TidyAns, State.Tidy, State.resetIslands_tidy, State.restart_tidy]

theorem execDevRefclkReturn_tidy (s : State) : s.TidyAns (execDevRefclkReturn s) := by
  grind -ring -linarith [execDevRefclkReturn, State.TidyAns, State.Tidy]

theorem execSasRefclkLoss_tidy (s : State) : s.TidyAns (execSasRefclkLoss s) := by
  grind -ring -linarith [execSasRefclkLoss, State.TidyAns, State.Tidy, State.portDown_tidy, State.setChain_tidy,
    State.Tidy.foldl]

theorem execSasRefclkReturn_tidy (s : State) : s.TidyAns (execSasRefclkReturn s) := by
  grind -ring -linarith [execSasRefclkReturn, State.TidyAns, State.Tidy]

theorem execSensorUpdate_tidy (temps : List ℤ) (s : State) : s.TidyAns (execSensorUpdate temps s) := by
  grind -ring -linarith [execSensorUpdate, State.TidyAns, State.Tidy, State.cold_tidy, State.emit_tidy,
    State.Tidy.foldl]

theorem execIslandGating_tidy (i : GateIsland) (s : State) : s.TidyAns (execIslandGating i s) := by
  unfold execIslandGating
  split <;> grind -ring -linarith [State.TidyAns, State.Tidy, State.modCore_tidy, State.modChain_tidy,
    State.Tidy.foldl]

theorem State.loadImage_tidy (s : State) (b : Bool) (r : ImageReport) : s.Tidy (s.loadImage b r) := by
  grind -ring -linarith [State.loadImage, State.Tidy, State.writePhys_tidy, State.spi_tidy]

theorem State.bootEvent_tidy (s : State) (typ detail : Nat) : s.Tidy (s.bootEvent typ detail) := by
  grind -ring -linarith [State.bootEvent, State.Tidy, State.deviceEvent_tidy]

theorem State.tryImages_tidy (s : State) (r : BootReport) (l : List Bool) : s.Tidy (s.tryImages r l).1 := by
  induction l generalizing s with
  | nil => exact .refl s
  | cons b rest ih => grind -ring -linarith [State.tryImages, State.Tidy, State.bootEvent_tidy, State.loadImage_tidy]

theorem State.acceptImage_tidy (s : State) (r : BootReport) (b : Bool) : s.Tidy (s.acceptImage r b) := by
  grind -ring -linarith [State.acceptImage, State.Tidy, State.spi_tidy]

theorem State.apportionBasic_tidy (s : State) : s.Tidy (s.apportionBasic) := by
  grind -ring -linarith [State.apportionBasic, State.Tidy, State.modPort_tidy, State.Tidy.foldl]

theorem State.stageDone_tidy (s : State) (row : Nat) : s.Tidy (s.stageDone row) := by
  grind -ring -linarith [State.stageDone, State.Tidy, State.bootEvent_tidy]

theorem State.tableStage_tidy (s : State) : s.Tidy (s.tableStage) := by
  grind -ring -linarith [State.tableStage, State.Tidy, State.stageDone_tidy, State.generate_tidy,
    State.apportionBasic_tidy, State.modQuarter_tidy, State.Tidy.foldl]

theorem State.configurePort_tidy (s : State) (r : BootReport) (p : Nat) : s.Tidy (s.configurePort r p) := by
  grind -ring -linarith [State.configurePort, State.Tidy, State.modPort_tidy, State.deviceEvent_tidy]

theorem State.openPort_tidy (s : State) (p : Nat) (ready : Bool) : s.Tidy (s.openPort p ready) := by
  grind -ring -linarith [State.openPort, State.Tidy, State.modPort_tidy]

theorem State.openPorts_tidy (s : State) (ready : Bool) : s.Tidy (s.openPorts ready) := by
  grind -ring -linarith [State.openPorts, State.Tidy, State.openPort_tidy, State.Tidy.foldl]

theorem State.bootRow_tidy (s : State) (r : BootReport) (row : Nat) : s.Tidy (s.bootRow r row) := by
  unfold State.bootRow
  split
  · exact (State.modCore_tidy ..).trans (State.stageDone_tidy ..)
  · grind -ring -linarith [State.Tidy, State.readSfdp_tidy, State.spi_tidy, State.stageDone_tidy]
  · grind -ring -linarith [State.stageDone_tidy, State.enterRecovery_tidy]
  · refine State.Tidy.trans ?_ (State.stageDone_tidy ..)
    exact ⟨rfl, fun w => Memory.wf_filter w _⟩
  · have htry := s.tryImages_tidy r s.flash.tries
    grind -ring -linarith [State.Tidy, State.acceptImage_tidy, State.stageDone_tidy, State.enterRecovery_tidy]
  · grind -ring -linarith [State.Tidy, State.spi_tidy, State.bootEvent_tidy, State.stageDone_tidy]
  · exact (State.Tidy.foldl (fun s k => s.startEngine_tidy k) _ s).trans (State.stageDone_tidy ..)
  · exact s.tableStage_tidy
  · exact (((s.spi_tidy _).trans (.foldl (fun s p => s.configurePort_tidy ..) _ _)).trans (State.openPorts_tidy ..)).trans
      (State.stageDone_tidy ..)
  · exact s.stageDone_tidy _

theorem execBootStage_tidy (r : BootReport) (s : State) : s.TidyAns (execBootStage r s) := by
  grind -ring -linarith [execBootStage, State.TidyAns, State.Tidy, State.bootRow_tidy, State.openPorts_tidy,
    State.configurePort_tidy, State.Tidy.foldl]

/-! ### Stakes -/

theorem State.setStake_tidy (s : State) (n : Nat) (x : Stake) : s.Tidy (s.setStake n x) := by
  grind -ring -linarith [State.setStake, State.Tidy]

theorem State.askBank_tidy (s : State) (bank : Nat) (a : StakeAsk) : s.Tidy (s.askBank bank a) := by
  grind -ring -linarith [State.askBank, State.Tidy]

theorem State.readStake_tidy (s : State) (k : Nat) (acquire : Bool) (dest : Option Nat) :
    s.Tidy (s.readStake k acquire dest) := by
  grind -ring -linarith [State.readStake, State.Tidy, State.askBank_tidy, State.setCore_tidy]

theorem State.writeStkRel_tidy (s : State) (k c : Nat) : s.Tidy (s.writeStkRel k c) := by
  grind -ring -linarith [State.writeStkRel, State.Tidy, State.askBank_tidy]

theorem State.releaseAfter_tidy (s : State) (k c tag : Nat) : s.Tidy (s.releaseAfter k c tag) := by
  grind -ring -linarith [State.releaseAfter, State.Tidy]

theorem State.resetStakes_tidy (s : State) (e : Nat) : s.Tidy (s.resetStakes e) := by
  grind -ring -linarith [State.resetStakes, State.Tidy, State.askBank_tidy, State.Tidy.foldl]

theorem State.staleRelease_tidy (s : State) (n owner : Nat) : s.Tidy (s.staleRelease n owner) := by
  grind -ring -linarith [State.staleRelease, State.Tidy, State.toDevice_tidy, State.setStake_tidy,
    State.toQuarter_tidy]

theorem State.applyRelease_tidy (s : State) (bank : Nat) (a1 : StakeAsk) : s.Tidy (s.applyRelease bank a1) := by
  unfold State.applyRelease
  split <;> grind -ring -linarith [State.Tidy, State.staleRelease_tidy, State.setStake_tidy, State.Tidy.foldl]

theorem State.answerStake_tidy (s : State) (r : Nat) (v : Word) : s.Tidy (s.answerStake r v) := by
  grind -ring -linarith [State.answerStake, State.Tidy, State.setCore_tidy, State.emit_tidy]

theorem State.applyRead_tidy (s : State) (a1 : StakeAsk) : s.Tidy (s.applyRead a1) := by
  unfold State.applyRead
  split <;> grind -ring -linarith [State.Tidy, State.answerStake_tidy, State.setStake_tidy]

theorem execStakeBankCycle_tidy (bank : Nat) (s : State) : s.TidyAns (execStakeBankCycle bank s) := by
  grind -ring -linarith [execStakeBankCycle, State.TidyAns, State.Tidy, State.applyRead_tidy, State.applyRelease_tidy,
    State.Tidy.foldl]

/-! ### CoreIo -/

theorem State.modCtx_tidy (s : State) (k c : Nat) (f : Ctx → Ctx) : s.Tidy (s.modCtx k c f) := by
  grind -ring -linarith [State.modCtx, State.Tidy, State.modCore_tidy]

theorem State.ctxRefused_tidy (s : State) (k c : Nat) : s.Tidy (s.ctxRefused k c) := by
  grind -ring -linarith [State.ctxRefused, State.Tidy, State.modCtx_tidy]

theorem State.wakeCtx_tidy (s : State) (k c : Nat) : s.Tidy (s.wakeCtx k c) := by
  grind -ring -linarith [State.wakeCtx, State.Tidy, State.modCore_tidy]

theorem State.writeIdata_tidy (s : State) (k c cycle : Nat) (v : Word) : s.Tidy (s.writeIdata k c cycle v) := by
  grind -ring -linarith [State.writeIdata, State.Tidy, State.modCore_tidy, State.modCtx_tidy]

theorem State.writeLocal_tidy (s : State) (k c port : Nat) (v : Word) : s.Tidy (s.writeLocal k c port v) := by
  unfold State.writeLocal
  split <;> grind -ring -linarith [State.Tidy, State.writeIdata_tidy, State.wakeCtx_tidy, State.setCore_tidy,
    State.modCtx_tidy, State.ctxRefused_tidy]

theorem State.mbSetWake_tidy (s : State) (i : Nat) (w : Bool) : s.Tidy (s.mbSetWake i w) := by
  grind -ring -linarith [State.mbSetWake, State.Tidy, State.modMailbox_tidy]

theorem State.mbWriteWord_tidy (s : State) (k c i off : Nat) (v : Word) : s.Tidy (s.mbWriteWord k c i off v) := by
  grind -ring -linarith [State.mbWriteWord, State.Tidy, State.modMailbox_tidy, State.mbWord0_tidy]

theorem State.mbWrite_tidy (s : State) (k c i off : Nat) (v : Word) : s.Tidy (s.mbWrite k c i off v) := by
  grind -ring -linarith [State.mbWrite, State.Tidy, State.mbSetWake_tidy, State.modMailbox_tidy,
    State.mbWriteWord_tidy, State.mbRel_tidy, State.mbPost_tidy]

theorem State.writeStakePort_tidy (s : State) (k c i : Nat) (v : Word) : s.Tidy (s.writeStakePort k c i v) := by
  unfold State.writeStakePort
  split <;> grind -ring -linarith [State.Tidy, State.writeStkRel_tidy, State.modCtx_tidy, State.ctxRefused_tidy]

theorem State.writeFb_tidy (s : State) (c port : Nat) (v : Word) : s.Tidy (s.writeFb c port v) := by
  unfold State.writeFb
  split <;> grind -ring -linarith [State.Tidy, State.clearBook_tidy, State.setBook_tidy, State.modCtx_tidy,
    State.ctxRefused_tidy]

theorem State.tableLevel_tidy (s : State) : s.Tidy (s.tableLevel) := by
  grind -ring -linarith [State.tableLevel, State.Tidy, State.modCore_tidy]

theorem State.writeTt_tidy (s : State) (q i : Nat) (v : Word) : s.Tidy (s.writeTt q i v) := by
  unfold State.writeTt
  split <;> grind -ring -linarith [State.Tidy, State.tableLevel_tidy, execTtShadowDataWrite_tidy,
    State.setQuarter_tidy, State.TidyAns.nextOf]

theorem State.dmaLevel_tidy (s : State) (k : Nat) : s.Tidy (s.dmaLevel k) := by
  grind -ring -linarith [State.dmaLevel, State.Tidy, State.modCore_tidy]

theorem State.writeDma_tidy (s : State) (ch i : Nat) (v : Word) : s.Tidy (s.writeDma ch i v) := by
  have hlevels := fun l : List Nat => State.Tidy.foldl (fun s k => s.dmaLevel_tidy k) l
  unfold State.writeDma
  split <;> grind -ring -linarith [State.Tidy, State.setChannel_tidy, State.TidyAns.nextOf, execDmaCtlWrite_tidy,
    execDmaGoWrite_tidy]

theorem State.writeTimer_tidy (s : State) (n i : Nat) (v : Word) : s.Tidy (s.writeTimer n i v) := by
  unfold State.writeTimer
  split <;> grind -ring -linarith [State.Tidy, execDmaTimerCtlWrite_tidy, State.TidyAns.nextOf]

theorem State.writeEngine_tidy (s : State) (k c port : Nat) (v : Word) : s.Tidy (s.writeEngine k c port v) := by
  grind -ring -linarith [State.writeEngine, State.Tidy, State.mbWrite_tidy, State.modCore_tidy, State.writeDma_tidy,
    State.writeLocal_tidy, State.writeStakePort_tidy]

theorem State.writeSystem_tidy (s : State) (c port : Nat) (v : Word) : s.Tidy (s.writeSystem c port v) := by
  unfold State.writeSystem
  split <;> grind -ring -linarith [State.Tidy, State.writeTt_tidy, State.modMailbox_tidy, State.writeTimer_tidy,
    State.mbWrite_tidy, State.modCore_tidy, State.writeFb_tidy, State.writeDma_tidy, State.writeLocal_tidy,
    State.writeStakePort_tidy, State.modCtx_tidy]

theorem State.ioWrite_tidy (s : State) (k c port : Nat) (v : Word) : s.Tidy (s.ioWrite k c port v) := by
  grind -ring -linarith [State.ioWrite, State.Tidy, State.modCore_tidy, State.writeEngine_tidy, State.writeLocal_tidy,
    State.writeSystem_tidy]

theorem State.ioReadEffect_tidy (s : State) (k c port : Nat) : s.Tidy (s.ioReadEffect k c port) := by
  unfold State.ioReadEffect
  split <;> grind -ring -linarith [State.Tidy, State.modCore_tidy, State.modCtx_tidy, State.readRd0_tidy]

theorem execSysCycleLoRead_tidy (k : Nat) (mispred : Bool) (s : State) : s.TidyAns (execSysCycleLoRead k mispred s) := by
  grind -ring -linarith [execSysCycleLoRead, State.TidyAns, State.Tidy, State.ioReadEffect_tidy, State.emit_tidy]

theorem execSysIdataAccess_tidy (k : Nat) (write : Option Word) (s : State) :
    s.TidyAns (execSysIdataAccess k write s) := by
  grind -ring -linarith [execSysIdataAccess, State.TidyAns, State.Tidy, State.ioWrite_tidy, State.ioReadEffect_tidy,
    State.emit_tidy]

theorem execSysWakeWrite_tidy (k : Nat) (v : Word) (s : State) : s.TidyAns (execSysWakeWrite k v s) := by
  grind -ring -linarith [execSysWakeWrite, State.TidyAns, State.Tidy, State.ioWrite_tidy]

theorem execStakeAcquireRead_tidy (k : Nat) (s : State) : s.TidyAns (execStakeAcquireRead k s) := by
  grind -ring -linarith [execStakeAcquireRead, State.TidyAns, State.Tidy, State.readStake_tidy]

theorem execStakePeekRead_tidy (k : Nat) (s : State) : s.TidyAns (execStakePeekRead k s) := by
  grind -ring -linarith [execStakePeekRead, State.TidyAns, State.Tidy, State.readStake_tidy]

/-! ### HostReads -/

theorem State.readEnds_tidy (s : State) (p : Nat) (r : HostRead) (e : ReadEnd) : s.Tidy (s.readEnds p r e) := by
  unfold State.readEnds
  split <;> grind -ring -linarith [State.Tidy, State.readbackEnds_tidy, State.admitArrives_tidy,
    State.legsArrive_tidy, State.stageInArrives_tidy, State.dmaArrives_tidy, State.dmaBackArrives_tidy,
    State.ringArrives_tidy, State.stageBackArrives_tidy, State.cdbArrives_tidy, State.operandArrives_tidy]

theorem State.countRead_tidy (s : State) (p : Nat) (r : HostRead) (e : ReadEnd) : s.Tidy (s.countRead p r e) :=
  (s.countRead_tells ..).tidy

theorem State.endRead_tidy (s : State) (p id : Nat) (e : ReadEnd) : s.Tidy (s.endRead p id e) := by
  grind -ring -linarith [State.endRead, State.Tidy, State.modPort_tidy, State.readEnds_tidy, State.countRead_tidy,
    State.sendRead_tidy]

theorem execHostReadCompletion_tidy (p id : Nat) (r : HostResp) (s : State) :
    s.TidyAns (execHostReadCompletion p id r s) := by
  unfold execHostReadCompletion
  split <;> grind -ring -linarith [State.TidyAns, State.Tidy, State.hostTlp_tidy, State.endRead_tidy]

theorem execCompletionReadback_tidy (p tag : Nat) (ok : Bool) (s : State) :
    s.TidyAns (execCompletionReadback p tag ok s) := by
  grind -ring -linarith [execCompletionReadback, State.TidyAns, State.Tidy, State.endRead_tidy]

theorem State.endUnsent_tidy (s : State) (p : Nat) (r : HostRead) : s.Tidy (s.endUnsent p r) := by
  grind -ring -linarith [State.endUnsent, State.Tidy, State.modPort_tidy, State.readEnds_tidy]

theorem execD3hotEntry_tidy (p : Nat) (s : State) : s.TidyAns (execD3hotEntry p s) := by
  grind -ring -linarith [execD3hotEntry, State.TidyAns, State.Tidy, State.modPort_tidy, State.endUnsent_tidy,
    State.dmaPortLost_tidy, State.Tidy.foldl]

theorem execHostReadTimeout_tidy (p id : Nat) (s : State) : s.TidyAns (execHostReadTimeout p id s) := by
  grind -ring -linarith [execHostReadTimeout, State.TidyAns, State.Tidy, State.endRead_tidy]

/-! ### Monument -/

theorem State.modMon_tidy (s : State) (f : Monument → Monument) : s.Tidy (s.modMon f) := by
  grind -ring -linarith [State.modMon, State.Tidy]

theorem State.onMon_tidy (s : State) (f : Monument → Monument) : s.Tidy (s.onMon f) := by
  grind -ring -linarith [State.onMon, State.Tidy, State.modMon_tidy]

theorem State.settleTaps_tidy (s : State) : s.Tidy (s.settleTaps) := by
  grind -ring -linarith [State.settleTaps, State.Tidy]

theorem State.runTaps_tidy (s : State) (n : Nat) : s.Tidy (s.runTaps n) := by
  grind -ring -linarith [State.runTaps, State.Tidy]

theorem execTapSample_tidy (cycles : Nat) (s : State) : s.TidyAns (execTapSample cycles s) := by
  grind -ring -linarith [execTapSample, State.TidyAns, State.Tidy, State.runTaps_tidy, State.onMon_tidy]

theorem execMainDomainValidRise_tidy (cycles : Nat) (s : State) : s.TidyAns (execMainDomainValidRise cycles s) := by
  grind -ring -linarith [execMainDomainValidRise, State.TidyAns, State.Tidy, State.runTaps_tidy, State.onMon_tidy]

theorem execShelfTimeSample_tidy (pg : BitVec 48) (s : State) : s.TidyAns (execShelfTimeSample pg s) := by
  grind -ring -linarith [execShelfTimeSample, State.TidyAns, State.Tidy, State.onMon_tidy, State.Tidy.foldl]

theorem execS0Sample_tidy (c : Nat) (high : Bool) (s : State) : s.TidyAns (execS0Sample c high s) := by
  grind -ring -linarith [execS0Sample, State.TidyAns, State.Tidy, State.onMon_tidy]

theorem execTestPulseEmit_tidy (s : State) : s.TidyAns (execTestPulseEmit s) := by
  grind -ring -linarith [execTestPulseEmit, State.TidyAns, State.Tidy, State.modMon_tidy, State.emit_tidy]

theorem execReadRequest_tidy (s : State) : s.TidyAns (execReadRequest s) := by
  grind -ring -linarith [execReadRequest, State.TidyAns, State.Tidy, State.modMon_tidy, State.mbRelease_tidy]

theorem State.foldCounts_tidy (s : State) (counters : List Nat) (seq : Nat) : s.Tidy (s.foldCounts counters seq) := by
  grind -ring -linarith [State.foldCounts, State.Tidy]

theorem State.writeView_tidy (s : State) : s.Tidy (s.writeView) := by
  grind -ring -linarith [State.writeView, State.Tidy, State.foldCounts_tidy]

theorem State.takeSegment_tidy (s : State) : s.Tidy (s.takeSegment) := by
  grind -ring -linarith [State.takeSegment, State.Tidy, State.mbRelease_tidy, State.writeView_tidy]

theorem State.postSegment_tidy (s : State) : s.Tidy (s.postSegment) := by
  grind -ring -linarith [State.postSegment, State.Tidy, State.modMon_tidy, State.mbPostLen_tidy,
    State.modMailbox_tidy, State.Tidy.foldl]

theorem execMonOutSegment_tidy (s : State) : s.TidyAns (execMonOutSegment s) := by
  grind -ring -linarith [execMonOutSegment, State.TidyAns, State.Tidy, State.postSegment_tidy, State.takeSegment_tidy]

theorem execMonDown_tidy (s : State) : s.TidyAns (execMonDown s) := by
  grind -ring -linarith [execMonDown, State.TidyAns, State.Tidy]

theorem execPowerFailSignal_tidy (s : State) : s.TidyAns (execPowerFailSignal s) := by
  grind -ring -linarith [execPowerFailSignal, State.TidyAns, State.Tidy, State.modMon_tidy, State.modCore_tidy,
    State.onMon_tidy]

theorem execMonumentPowerOn_tidy (s : State) : s.TidyAns (execMonumentPowerOn s) := by
  grind -ring -linarith [execMonumentPowerOn, State.TidyAns, State.Tidy, State.modMon_tidy, State.modCore_tidy,
    State.settleTaps_tidy]

theorem State.monRestart_tidy (s : State) (item : Nat) : s.Tidy (s.monRestart item) := by
  grind -ring -linarith [State.monRestart, State.Tidy, State.modMon_tidy, State.modCore_tidy]

theorem execMonRstN_tidy (s : State) : s.TidyAns (execMonRstN s) := by
  grind -ring -linarith [execMonRstN, State.TidyAns, State.Tidy, State.monRestart_tidy]

theorem execMonumentCoreRestart_tidy (double : Bool) (s : State) : s.TidyAns (execMonumentCoreRestart double s) := by
  grind -ring -linarith [execMonumentCoreRestart, State.TidyAns, State.Tidy, State.monRestart_tidy]

theorem execMonTamperN_tidy (s : State) : s.TidyAns (execMonTamperN s) := by
  grind -ring -linarith [execMonTamperN, State.TidyAns, State.Tidy, State.onMon_tidy]

theorem execMonumentCrystalRestart_tidy (s : State) : s.TidyAns (execMonumentCrystalRestart s) := by
  grind -ring -linarith [execMonumentCrystalRestart, State.TidyAns, State.Tidy, State.modMon_tidy,
    State.settleTaps_tidy]

/-! ### MonPort -/

theorem State.say_tidy (s : State) (lines : List (List Byte)) (last : String) : s.Tidy (s.say lines last) := by
  grind -ring -linarith [State.say, State.Tidy, State.modMon_tidy, State.emit_tidy]

theorem State.onPort_tidy (s : State) (f : State → State) (h : ∀ t, State.Tidy t (f t)) : s.Tidy (s.onPort f) := by
  grind -ring -linarith [State.onPort, State.Tidy]

theorem State.sampleEn_tidy (s : State) (on : Bool) : s.Tidy (s.sampleEn on) := by
  grind -ring -linarith [State.sampleEn, State.Tidy, State.modMon_tidy]

theorem State.portKey_tidy (s : State) : s.Tidy (s.portKey).2 := by
  grind -ring -linarith [State.portKey, State.Tidy, State.freeBytes_tidy]

theorem execMonId_tidy (s : State) : s.TidyAns (execMonId s) := by
  grind -ring -linarith [execMonId, State.TidyAns, State.Tidy, State.portKey_tidy, State.onPort_tidy, State.say_tidy]

theorem State.sayLast_tidy (s : State) : s.Tidy (s.sayLast) := by
  grind -ring -linarith [State.sayLast, State.Tidy, State.say_tidy]

theorem execMonLast_tidy (s : State) : s.TidyAns (execMonLast s) := by
  grind -ring -linarith [execMonLast, State.TidyAns, State.Tidy, State.onPort_tidy, State.sayLast_tidy]

theorem execMonRead_tidy (s : State) : s.TidyAns (execMonRead s) := by
  grind -ring -linarith [execMonRead, State.TidyAns, State.Tidy, State.modMon_tidy, State.onPort_tidy,
    State.sayLast_tidy]

theorem execMonParam_tidy (s : State) : s.TidyAns (execMonParam s) := by
  grind -ring -linarith [execMonParam, State.TidyAns, State.Tidy, State.onPort_tidy, State.say_tidy]

theorem execMonKey_tidy (s : State) : s.TidyAns (execMonKey s) := by
  grind -ring -linarith [execMonKey, State.TidyAns, State.Tidy, State.portKey_tidy, State.onPort_tidy, State.say_tidy]

theorem execMonLog_tidy (i : Nat) (s : State) : s.TidyAns (execMonLog i s) := by
  grind -ring -linarith [execMonLog, State.TidyAns, State.Tidy, State.modMon_tidy, State.onPort_tidy, State.say_tidy]

theorem execMonSyntaxError_tidy (s : State) : s.TidyAns (execMonSyntaxError s) := by
  grind -ring -linarith [execMonSyntaxError, State.TidyAns, State.Tidy, State.onPort_tidy, State.say_tidy]

theorem execMonSet_tidy (n : Nat) (v : ParamValue) (pins : SetPins) (s : State) : s.TidyAns (execMonSet n v pins s) := by
  grind -ring -linarith [execMonSet, State.TidyAns, State.Tidy, State.modMon_tidy, State.onPort_tidy, State.say_tidy,
    State.sampleEn_tidy]

theorem execMonTest_tidy (m : Option Nat) (s : State) : s.TidyAns (execMonTest m s) := by
  grind -ring -linarith [execMonTest, State.TidyAns, State.Tidy, State.modMon_tidy, State.onPort_tidy, State.say_tidy]

theorem execMonTamperClear_tidy (paramEn : Bool) (s : State) : s.TidyAns (execMonTamperClear paramEn s) := by
  grind -ring -linarith [execMonTamperClear, State.TidyAns, State.Tidy, State.modMon_tidy, State.onPort_tidy,
    State.say_tidy, State.sampleEn_tidy]

theorem execMonSeal_tidy (dsn : BitVec 64) (paramEn flashOk : Bool) (s : State) :
    s.TidyAns (execMonSeal dsn paramEn flashOk s) := by
  grind -ring -linarith [execMonSeal, State.TidyAns, State.Tidy, State.modMon_tidy, State.onPort_tidy, State.say_tidy,
    State.sampleEn_tidy]

/-! ### Outing -/

theorem State.endBasket_tidy (s : State) (sh : Nat) : s.Tidy (s.endBasket sh) := by
  grind -ring -linarith [State.endBasket, State.Tidy, State.withTrv_tidy, State.legDone_tidy, State.modShelf_tidy,
    State.Tidy.foldl]

theorem State.enterDark_tidy (s : State) (sh ev : Nat) : s.Tidy (s.enterDark sh ev) := by
  grind -ring -linarith [State.enterDark, State.Tidy, State.rivalsChanged_tidy, State.ageDrain_tidy,
    State.enterShelf_tidy]

theorem State.retire_tidy (s : State) (sh : Nat) : s.Tidy (s.retire sh) := by
  grind -ring -linarith [State.retire, State.Tidy, State.endBasket_tidy, State.enterShelf_tidy]

theorem State.enterSpinning_tidy (s : State) (sh : Nat) : s.Tidy (s.enterSpinning sh) := by
  grind -ring -linarith [State.enterSpinning, State.Tidy, State.modShelf_tidy, State.wantRediscovery_tidy,
    State.enterShelf_tidy]

theorem State.takeChoice_tidy (s : State) (c : Nat) : s.Tidy (s.takeChoice c) := by
  grind -ring -linarith [State.takeChoice, State.Tidy, State.modShelf_tidy, State.Tidy.foldl]

theorem execPlannerChoice_tidy (c : Nat) (s : State) : s.TidyAns (execPlannerChoice c s) := by
  grind -ring -linarith [execPlannerChoice, State.TidyAns, State.Tidy, State.rivalsChanged_tidy, State.modChain_tidy,
    State.takeChoice_tidy, State.enterSpinning_tidy, State.modShelf_tidy, State.enterShelf_tidy]

theorem State.spinClosed_tidy (s : State) (sh : Nat) : s.Tidy (s.spinClosed sh) := by
  grind -ring -linarith [State.spinClosed, State.Tidy, State.withTrv_tidy, State.spinSettle_tidy, State.Tidy.foldl]

theorem State.dropShelfTmfs_tidy (s : State) (sh : Nat) : s.Tidy (s.dropShelfTmfs sh) := by
  grind -ring -linarith [State.dropShelfTmfs, State.Tidy, State.withTrv_tidy, State.freeInfo_tidy, State.legDone_tidy,
    State.modChain_tidy, State.Tidy.foldl]

theorem State.endShelfWork_tidy (s : State) (sh : Nat) : s.Tidy (s.endShelfWork sh) := by
  grind -ring -linarith [State.endShelfWork, State.Tidy, State.spinClosed_tidy, State.endCmds_tidy,
    State.dropShelfTmfs_tidy, State.endRecovery_tidy, State.Tidy.foldl]

theorem State.powerFault_tidy (s : State) (sh detail : Nat) : s.Tidy (s.powerFault sh detail) := by
  grind -ring -linarith [State.powerFault, State.Tidy, State.endShelfWork_tidy, State.endBasket_tidy,
    State.lapse_tidy, State.modShelf_tidy, State.outingEvent_tidy, State.enterShelf_tidy]

theorem execShelfPgFilteredEdge_tidy (sh : Nat) (level : Bool) (s : State) :
    s.TidyAns (execShelfPgFilteredEdge sh level s) := by
  grind -ring -linarith [execShelfPgFilteredEdge, State.TidyAns, State.Tidy, State.powerFault_tidy,
    State.openShelf_tidy, State.setShelf_tidy]

theorem execShelfPgDebounceExpiry_tidy (sh : Nat) (s : State) : s.TidyAns (execShelfPgDebounceExpiry sh s) := by
  grind -ring -linarith [execShelfPgDebounceExpiry, State.TidyAns, State.Tidy, State.powerFault_tidy,
    State.enterSpinning_tidy, State.setShelf_tidy, State.enterDark_tidy, State.outingEvent_tidy]

theorem execPowerGoodTimeout_tidy (sh : Nat) (s : State) : s.TidyAns (execPowerGoodTimeout sh s) := by
  grind -ring -linarith [execPowerGoodTimeout, State.TidyAns, State.Tidy, State.endBasket_tidy, State.setShelf_tidy,
    State.outingEvent_tidy, State.enterShelf_tidy]

theorem State.startSpinUp_tidy (s : State) (sh : Nat) (slots : List Nat) : s.Tidy (s.startSpinUp sh slots) := by
  grind -ring -linarith [State.startSpinUp, State.Tidy, State.openShelf_tidy, State.setShelf_tidy]

theorem execSlotDiscoveryComplete_tidy (sh : Nat) (s : State) : s.TidyAns (execSlotDiscoveryComplete sh s) := by
  grind -ring -linarith [execSlotDiscoveryComplete, State.TidyAns, State.Tidy, State.startSpinUp_tidy]

theorem execSpinUpStartTimeout_tidy (sh : Nat) (s : State) : s.TidyAns (execSpinUpStartTimeout sh s) := by
  grind -ring -linarith [execSpinUpStartTimeout, State.TidyAns, State.Tidy, State.startSpinUp_tidy]

theorem State.startSlot_tidy (s : State) (sh : Nat) (st : SpinStep) (slot : Nat) : s.Tidy (s.startSlot sh st slot) := by
  grind -ring -linarith [State.startSlot, State.Tidy, State.handOver_tidy, State.modShelf_tidy]

theorem execSpinUpStep_tidy (sh : Nat) (s : State) : s.TidyAns (execSpinUpStep sh s) := by
  grind -ring -linarith [execSpinUpStep, State.TidyAns, State.Tidy, State.spinClosed_tidy, State.handOver_tidy,
    State.startSlot_tidy, State.modChain_tidy, State.setShelf_tidy, State.modShelf_tidy, State.Tidy.foldl]

theorem execTestUnitReadyPoll_tidy (sh slot : Nat) (s : State) : s.TidyAns (execTestUnitReadyPoll sh slot s) := by
  grind -ring -linarith [execTestUnitReadyPoll, State.TidyAns, State.Tidy, State.handOver_tidy, State.spinSettle_tidy]

theorem execSpinUpTimeout_tidy (sh : Nat) (s : State) : s.TidyAns (execSpinUpTimeout sh s) := by
  grind -ring -linarith [execSpinUpTimeout, State.TidyAns, State.Tidy, State.openShelf_tidy, State.outingEvent_tidy,
    State.Tidy.foldl]

theorem execSpinStartTimeout_tidy (p tag slot : Nat) (s : State) : s.TidyAns (execSpinStartTimeout p tag slot s) := by
  grind -ring -linarith [execSpinStartTimeout, State.TidyAns, State.Tidy, State.withTrv_tidy, State.spinSettle_tidy]

theorem execLingerExpiry_tidy (sh : Nat) (s : State) : s.TidyAns (execLingerExpiry sh s) := by
  grind -ring -linarith [execLingerExpiry, State.TidyAns, State.Tidy, State.enterClosing_tidy]

theorem execMaxOpenExpiry_tidy (sh : Nat) (s : State) : s.TidyAns (execMaxOpenExpiry sh s) := by
  grind -ring -linarith [execMaxOpenExpiry, State.TidyAns, State.Tidy, State.setShelf_tidy, State.drain_tidy]

theorem execAgeLimitPassed_tidy (sh : Nat) (s : State) : s.TidyAns (execAgeLimitPassed sh s) := by
  grind -ring -linarith [execAgeLimitPassed, State.TidyAns, State.Tidy, State.ageDrain_tidy]

theorem execOpeningWindowEnd_tidy (sh : Nat) (s : State) : s.TidyAns (execOpeningWindowEnd sh s) := by
  grind -ring -linarith [execOpeningWindowEnd, State.TidyAns, State.Tidy, State.drain_tidy]

theorem execDrainLimitExpiry_tidy (sh : Nat) (s : State) : s.TidyAns (execDrainLimitExpiry sh s) := by
  grind -ring -linarith [execDrainLimitExpiry, State.TidyAns, State.Tidy, State.enterClosing_tidy]

theorem State.unpower_tidy (s : State) (sh : Nat) : s.Tidy (s.unpower sh) := by
  grind -ring -linarith [State.unpower, State.Tidy, State.endCmds_tidy, State.modChain_tidy, State.modHandle_tidy,
    State.Tidy.foldl]

theorem execClosingSequenceDone_tidy (sh : Nat) (s : State) : s.TidyAns (execClosingSequenceDone sh s) := by
  grind -ring -linarith [execClosingSequenceDone, State.TidyAns, State.Tidy, State.spinClosed_tidy,
    State.unpower_tidy, State.setShelf_tidy, State.enterDark_tidy, State.enterShelf_tidy]

theorem execSettlingTimeout_tidy (sh : Nat) (s : State) : s.TidyAns (execSettlingTimeout sh s) := by
  grind -ring -linarith [execSettlingTimeout, State.TidyAns, State.Tidy, State.retire_tidy, State.setShelf_tidy,
    State.outingEvent_tidy]

theorem execHoldoffExpiry_tidy (sh : Nat) (s : State) : s.TidyAns (execHoldoffExpiry sh s) := by
  grind -ring -linarith [execHoldoffExpiry, State.TidyAns, State.Tidy, State.retire_tidy, State.enterDark_tidy]

theorem execLegSpin_tidy (p tag : Nat) (s : State) : s.TidyAns (execLegSpin p tag s) := by
  grind -ring -linarith [execLegSpin, State.TidyAns, State.Tidy, State.handOver_tidy, State.legDone_tidy,
    State.putTrv_tidy, State.perform_tidy, State.modShelf_tidy, State.Tidy.foldl]

/-! ### Recover -/

theorem State.orphanAll_tidy (s : State) (p tag : Nat) : s.Tidy (s.orphanAll p tag) := by
  grind -ring -linarith [State.orphanAll, State.Tidy, State.modChain_tidy, State.orphanCmd_tidy, State.Tidy.foldl]

theorem State.withdrawLaunches_tidy (s : State) (p tag : Nat) : s.Tidy (s.withdrawLaunches p tag) := by
  grind -ring -linarith [State.withdrawLaunches, State.Tidy, State.romPart_tidy, State.engineIdle_tidy,
    State.placeLaunches_tidy, State.setEngine_tidy, State.landAll_tidy, State.Tidy.foldl]

theorem State.stopExec_tidy (s : State) (p tag : Nat) : s.Tidy (s.stopExec p tag) := by
  grind -ring -linarith [State.stopExec, State.Tidy, State.modCore_tidy, State.modCtx_tidy, State.Tidy.foldl]

theorem State.stopCopies_tidy (s : State) (p tag : Nat) : s.Tidy (s.stopCopies p tag) := by
  grind -ring -linarith [State.stopCopies, State.Tidy, State.serveCopies_tidy, State.setChannel_tidy,
    State.Tidy.foldl]

theorem State.dropSb_tidy (s : State) (p tag : Nat) : s.Tidy (s.dropSb p tag) := by
  grind -ring -linarith [State.dropSb, State.Tidy]

theorem State.dropSteps_tidy (s : State) (p tag : Nat) : s.Tidy (s.dropSteps p tag) := by
  grind -ring -linarith [State.dropSteps, State.Tidy]

theorem State.failNotes_tidy (s : State) (t : Trv) : s.Tidy (s.failNotes t) := by
  grind -ring -linarith [State.failNotes, State.Tidy, State.completeEntry_tidy, State.Tidy.foldl]

theorem State.discardTrv_tidy (s : State) (t : Trv) : s.Tidy (s.discardTrv t) := by
  grind -ring -linarith [State.discardTrv, State.Tidy, State.modPort_tidy, State.dropSteps_tidy, State.orphanAll_tidy,
    State.stopCopies_tidy, State.dropSb_tidy, State.stopExec_tidy, State.failNotes_tidy, State.withdrawLaunches_tidy,
    State.dropTrv_tidy, State.unbook_tidy, State.release_tidy, State.leaveBasket_tidy]

theorem State.putContain_tidy (s : State) (sc : Option Nat) (c : Option Containment) : s.Tidy (s.putContain sc c) := by
  unfold State.putContain
  split <;> grind -ring -linarith [State.Tidy, State.modPort_tidy]

theorem State.abandon_tidy (s : State) (p : Nat) : s.Tidy (s.abandon p).1 := by
  grind -ring -linarith [State.abandon, State.Tidy, State.setPort_tidy, execNopEntry_tidy, execNoteRequest_tidy,
    execResumeEntry_tidy, execStartEntry_tidy, State.Tidy.foldl, State.TidyAns.nextOf]

theorem State.discardPort_tidy (s : State) (p : Nat) : s.Tidy (s.discardPort p).1 := by
  grind -ring -linarith [State.discardPort, State.Tidy, State.abandon_tidy, State.dmaPortLost_tidy,
    State.discardTrv_tidy, State.Tidy.foldl]

theorem execContainmentDiscard_tidy (sc : Option Nat) (s : State) : s.TidyAns (execContainmentDiscard sc s) := by
  unfold execContainmentDiscard
  refine State.TidyAns.next ?_
  split
  · exact .refl s
  · split
    · exact .refl s
    · refine State.Tidy.trans ?_ (State.putContain_tidy ..)
      refine State.Tidy.trans ?_ (State.reexamine_tidy _)
      refine State.Tidy.foldl_fst (fun x p => ?_) _ (s, [])
      refine (x.1.discardPort_tidy p).trans ?_
      dsimp only
      exact State.modPort_tidy ..

theorem State.containReset_tidy (s : State) (p : Nat) (config flr : Bool) : s.Tidy (s.containReset p config flr) := by
  grind -ring -linarith [State.containReset, State.Tidy, State.resetPort_tidy]

theorem State.resetEngine_tidy (s : State) (k : Nat) : s.Tidy (s.resetEngine k) := by
  grind -ring -linarith [State.resetEngine, State.Tidy, State.resetStakes_tidy, State.startEngine_tidy]

theorem execContainmentReset_tidy (sc : Option Nat) (rebuilt : Bool) (s : State) :
    s.TidyAns (execContainmentReset sc rebuilt s) := by
  grind -ring -linarith [execContainmentReset, State.TidyAns, State.Tidy, State.restart_tidy, State.containReset_tidy,
    State.putContain_tidy, State.resetEngine_tidy]

theorem State.freeExtents_tidy (s : State) (p : Nat) : s.Tidy (s.freeExtents p) := by
  grind -ring -linarith [State.freeExtents, State.Tidy, State.disarmIn_tidy]

theorem State.queueNotices_tidy (s : State) (p : Nat) (dev : Bool) (epoch : BitVec 16) :
    s.Tidy (s.queueNotices p dev epoch) := by
  grind -ring -linarith [State.queueNotices, State.Tidy, State.settleNotices_tidy]

theorem State.settleIdle_tidy (s : State) (p : Nat) : s.Tidy (s.settleIdle p) := by
  grind -ring -linarith [State.settleIdle, State.Tidy, State.modPort_tidy]

theorem State.endPort_tidy (s : State) (p : Nat) (c : Containment) (notice : Bool) : s.Tidy (s.endPort p c notice) := by
  grind -ring -linarith [State.endPort, State.Tidy, State.modPort_tidy, State.freeExtents_tidy,
    State.containReset_tidy, State.queueNotices_tidy, State.settleIdle_tidy, State.portEvent_tidy]

theorem execContainmentEnd_tidy (sc : Option Nat) (s : State) : s.TidyAns (execContainmentEnd sc s) := by
  unfold execContainmentEnd
  split <;> grind -ring -linarith [State.TidyAns, State.Tidy, State.taintAll_tidy, State.queueNotices_tidy,
    State.settleIdle_tidy, State.portEvent_tidy, State.containEvent_tidy, State.endPort_tidy, State.Tidy.foldl]

theorem execEngineSilent_tidy (e : Nat) (s : State) : s.TidyAns (execEngineSilent e s) := by
  grind -ring -linarith [execEngineSilent, State.TidyAns, State.Tidy, State.startDevice_tidy]

/-! ### Sehar -/

theorem State.land_tidy (s : State) (k : Nat) (d : Delayed) : s.Tidy (s.land k d) := by
  grind -ring -linarith [State.land, State.Tidy, State.ioWrite_tidy, State.writeIdata_tidy, State.modCore_tidy,
    State.modCtx_tidy]

theorem State.landWrites_tidy (s : State) (k : Nat) (now : Nat → Bool) : s.Tidy (s.landWrites k now) := by
  grind -ring -linarith [State.landWrites, State.Tidy, State.land_tidy, State.setCore_tidy, State.Tidy.foldl]

theorem State.settle_tidy (s : State) (k : Nat) : s.Tidy (s.settle k) := by
  grind -ring -linarith [State.settle, State.Tidy, State.landWrites_tidy]

theorem State.settleAll_tidy (s : State) (k : Nat) : s.Tidy (s.settleAll k) := by
  grind -ring -linarith [State.settleAll, State.Tidy, State.landWrites_tidy]

theorem State.haltReport_tidy (s : State) (k c : Nat) : s.Tidy (s.haltReport k c) := by
  grind -ring -linarith [State.haltReport, State.Tidy, State.irq_tidy, State.monRestart_tidy, State.toDevice_tidy,
    State.restart_tidy, State.startDevice_tidy]

theorem State.double_tidy (s : State) (k c : Nat) (e : Exc) : s.Tidy (s.double k c e) := by
  grind -ring -linarith [State.double, State.Tidy, State.modCore_tidy, State.haltReport_tidy]

theorem State.endExec_tidy (s : State) (k : Nat) (t : Trv) (r : LegResult) : s.Tidy (s.endExec k t r) := by
  grind -ring -linarith [State.endExec, State.Tidy, State.modCore_tidy, State.legDone_tidy]

theorem State.raise_tidy (s : State) (k c : Nat) (e : Exc) : s.Tidy (s.raise k c e) := by
  grind -ring -linarith [State.raise, State.Tidy, State.modCore_tidy, State.double_tidy, State.endExec_tidy]

theorem State.raiseAtRpt_tidy (s : State) (k c : Nat) : s.Tidy (s.raiseAtRpt k c) := by
  grind -ring -linarith [State.raiseAtRpt, State.Tidy, State.raise_tidy, State.modCtx_tidy]

theorem State.afterEffect_tidy (s : State) (k c len cost at_ : Nat) (user : Bool) (a1 : After) :
    s.Tidy (s.afterEffect k c len cost at_ user a1) := by
  unfold State.afterEffect
  split <;> grind -ring -linarith [State.Tidy, State.settleAll_tidy, State.modCore_tidy, State.readStake_tidy]

theorem State.attempt_tidy (s : State) (k : Nat) (fm : Form) (f : State → Try Effect) (h : ∀ t, State.TidyEffect t
    (f t)) :
    s.Tidy (s.attempt k fm f) := by
  have hsettle := s.settle_tidy k
  have hf := h (s.settle k)
  grind -ring -linarith [State.attempt, State.Tidy, State.TidyEffect, State.afterEffect_tidy, State.raise_tidy, State.raiseAtRpt_tidy]

theorem State.seharOp_tidy (s : State) (k : Nat) (fm : Form) (f : Core → Try Core) : s.Tidy (s.seharOp k fm f) :=
  s.attempt_tidy k fm _ fun t => .bind fun y => .ok (t.setCore_tidy k y)

theorem State.seharBranch_tidy (s : State) (k len : Nat) (isReserved : Bool) (cond : BitVec 4)
    (annul linkReg : Bool) (kind : BranchKind) (target : Core → Try Word) :
    s.Tidy (s.seharBranch k len isReserved cond annul linkReg kind target) :=
  s.attempt_tidy k _ _ fun t => .bind fun a => .ok (t.setCore_tidy k _)

/-! ### SeharOps -/

theorem execSRpt_tidy (k : Nat) (d : BitVec 8) (imm : Word) (s : State) : s.TidyAns (execSRpt k d imm s) :=
  .next (s.attempt_tidy k _ _ fun t => .bind fun n => .ok (t.setCore_tidy k _))

/-! ### SeharSys -/

theorem State.inPort_tidy (t : State) (k port : Nat) (d : BitVec 8) : t.TidyEffect (t.inPort k port d) := by
  unfold State.inPort
  dsimp only
  split
  · exact .bind fun vd => .ok (t.setCore_tidy k _)
  · split
    · exact .error t _
    · exact .bind fun y => .ok ((t.ioReadEffect_tidy ..).trans (State.setCore_tidy ..))

theorem State.senseReg_tidy (t : State) (k n : Nat) : t.Tidy (t.senseReg k n) := by
  grind -ring -linarith [State.senseReg, State.Tidy, State.modCore_tidy]

theorem execSIn_tidy (k : Nat) (d : BitVec 8) (port : BitVec 12) (s : State) : s.TidyAns (execSIn k d port s) :=
  .next (s.attempt_tidy k _ _ fun t => t.inPort_tidy k _ d)

theorem execSInx_tidy (k : Nat) (d : BitVec 8) (n : BitVec 6) (s : State) : s.TidyAns (execSInx k d n s) := by
  refine State.TidyAns.next (s.attempt_tidy k _ _ fun t e he => ?_)
  exact (t.senseReg_tidy ..).trans (State.inPort_tidy _ k _ d e he)

theorem execSOutx_tidy (k : Nat) (d : BitVec 8) (n : BitVec 6) (s : State) : s.TidyAns (execSOutx k d n s) := by
  grind -ring -linarith [execSOutx, State.TidyAns, State.Tidy, State.seharOp_tidy]

theorem execSIowait_tidy (k : Nat) (d : BitVec 8) (port : BitVec 12) (s : State) :
    s.TidyAns (execSIowait k d port s) := by
  refine State.TidyAns.next (s.attempt_tidy k _ _ fun t => .bind fun m => .bind fun _ => ?_)
  have hfresh : t.Tidy (if isFirmwarePort k port.toNat then { t with fresh := t.fresh + 1 } else t) := by
    split <;> exact .refl t
  dsimp only
  split
  · exact .ok (hfresh.trans (State.setCore_tidy ..))
  · exact .ok hfresh

theorem execIowaitResume_tidy (k c : Nat) (s : State) : s.TidyAns (execIowaitResume k c s) := by
  grind -ring -linarith [execIowaitResume, State.TidyAns, State.Tidy, State.setCore_tidy, State.Tidy.foldl]

theorem execSBmov_tidy (k : Nat) (n : BitVec 6) (s : State) : s.TidyAns (execSBmov k n s) := by
  refine State.TidyAns.next (s.attempt_tidy k _ _ fun t => ?_)
  dsimp only
  split
  · exact .ok (.refl t)
  · exact .ok (t.setCore_tidy k _)

theorem State.doFill_tidy (s : State) (k c : Nat) (m : BlockMove) : s.Tidy (s.doFill k c m) := by
  grind -ring -linarith [State.doFill, State.Tidy, State.modCore_tidy, State.taken_tidy, State.modCtx_tidy,
    State.Tidy.foldl]

theorem State.doDrain_tidy (s : State) (k c : Nat) (m : BlockMove) (parity : Bool) :
    s.Tidy (s.doDrain k c m parity) := by
  grind -ring -linarith [State.doDrain, State.Tidy, State.putMarked_tidy, State.modCtx_tidy]

theorem execBlockMoveDone_tidy (k c : Nat) (parity : Bool) (s : State) : s.TidyAns (execBlockMoveDone k c parity s) := by
  grind -ring -linarith [execBlockMoveDone, State.TidyAns, State.Tidy, State.doDrain_tidy, State.releaseAfter_tidy,
    State.modCore_tidy, State.modCtx_tidy, State.doFill_tidy, State.reach_tidy]

theorem State.exitExec_tidy (s0 : State) (k : Nat) (t : Trv) (r : Bool → LegResult) : s0.Tidy (s0.exitExec k t r) := by
  grind -ring -linarith [State.exitExec, State.Tidy, State.settleAll_tidy, State.modCore_tidy, State.endExec_tidy,
    State.writeBuf_tidy]

theorem execSGate_tidy (k : Nat) (n : BitVec 6) (s : State) : s.TidyAns (execSGate k n s) := by
  refine State.TidyAns.next (s.attempt_tidy k _ _ fun t => ?_)
  dsimp only
  split
  · exact .error t _
  · refine .bind fun _ => .bind fun _ => .bind fun _ => .bind fun _ => ?_
    split
    · exact .error t _
    · split
      · exact .error t _
      · refine .bind fun _ => ?_
        split
        · exact .ok ((t.setCore_tidy k _).trans (State.exitExec_tidy ..))
        · exact .ok (t.setCore_tidy k _)

theorem execSGret_tidy (k : Nat) (s : State) : s.TidyAns (execSGret k s) := by
  refine State.TidyAns.next (s.attempt_tidy k _ _ fun t => ?_)
  dsimp only
  split
  · exact .error t _
  · exact .bind fun _ => .bind fun _ => .bind fun _ => .bind fun _ => .ok (t.setCore_tidy k _)

theorem execSTrap_tidy (k : Nat) (code : BitVec 8) (s : State) : s.TidyAns (execSTrap k code s) :=
  .next (s.attempt_tidy k _ _ fun t => .error t _)

theorem execSRfe_tidy (k : Nat) (s : State) : s.TidyAns (execSRfe k s) := by
  refine State.TidyAns.next (s.attempt_tidy k _ _ fun t => ?_)
  dsimp only
  split
  · exact .error t _
  · exact .ok (t.setCore_tidy k _)

theorem execSSwap_tidy (k : Nat) (s : State) : s.TidyAns (execSSwap k s) :=
  .next (s.attempt_tidy k _ _ fun t => .ok (.refl t))

theorem execSIdle_tidy (k : Nat) (s : State) : s.TidyAns (execSIdle k s) :=
  .next (s.attempt_tidy k _ _ fun t => .ok (.refl t))

theorem execSSync_tidy (k : Nat) (s : State) : s.TidyAns (execSSync k s) :=
  .next (s.attempt_tidy k _ _ fun t => .ok (t.settleAll_tidy k))

theorem State.settleIo_tidy (s : State) (k c : Nat) : s.Tidy (s.settleIo k c) := by
  grind -ring -linarith [State.settleIo, State.Tidy, State.settleAll_tidy]

theorem execStakeReleaseWrite_tidy (k : Nat) (s : State) : s.TidyAns (execStakeReleaseWrite k s) := by
  grind -ring -linarith [execStakeReleaseWrite, State.TidyAns, State.Tidy, State.writeStkRel_tidy,
    State.settleIo_tidy]

theorem execInterrupt_tidy (k : Nat) (s0 : State) : s0.TidyAns (execInterrupt k s0) := by
  grind -ring -linarith [execInterrupt, State.TidyAns, State.Tidy, State.settle_tidy, State.raise_tidy,
    State.setCore_tidy]

theorem execWatchdog_tidy (k : Nat) (s0 : State) : s0.TidyAns (execWatchdog k s0) := by
  grind -ring -linarith [execWatchdog, State.TidyAns, State.Tidy, State.settle_tidy, State.raise_tidy,
    State.modCtx_tidy]

theorem execReservedEncoding_tidy (k : Nat) (w1 w2 : Word) (s : State) : s.TidyAns (execReservedEncoding k w1 w2 s) := by
  refine State.TidyAns.next ?_
  split
  · exact s.attempt_tidy k _ _ fun t => .ok (.refl t)
  · exact .refl s

theorem State.spoilExec_tidy (s0 : State) (k : Nat) (t : Trv) : s0.Tidy (s0.spoilExec k t) := by
  grind -ring -linarith [State.spoilExec, State.Tidy, State.settleAll_tidy, State.modCore_tidy, State.legDone_tidy]

theorem State.startExec_tidy (s : State) (k c : Nat) (t : Trv) : s.Tidy (s.startExec k c t) := by
  grind -ring -linarith [State.startExec, State.Tidy, State.settleAll_tidy, State.modCore_tidy, State.putTrv_tidy]

theorem execLegExec_tidy (p tag : Nat) (s : State) : s.TidyAns (execLegExec p tag s) := by
  grind -ring -linarith [execLegExec, State.TidyAns, State.Tidy, State.legDone_tidy, State.whenReadable_tidy,
    State.perform_tidy, State.spoilExec_tidy, State.startExec_tidy]

/-! ### Registers -/

theorem State.writeFn_tidy (s : State) (p off : Nat) (v : BitVec 32) : s.Tidy (s.writeFn p off v) := by
  unfold State.writeFn
  split <;> grind -ring -linarith [State.Tidy, State.setPort_tidy, State.fnRefused_tidy]

theorem State.writeQueue_tidy (s : State) (p q off : Nat) (v : BitVec 32) : s.Tidy (s.writeQueue p q off v) := by
  unfold State.writeQueue
  split <;> grind -ring -linarith [State.Tidy, State.setPort_tidy, State.sqRefused_tidy, State.cqRefused_tidy,
    State.writeSqInv_tidy, State.writeSqCfg_tidy, State.writeVecCoal_tidy, State.writeCqCfg_tidy]

theorem State.writeMbWindow_tidy (s : State) (p m i off : Nat) (v : BitVec 32) :
    s.Tidy (s.writeMbWindow p m i off v) := by
  unfold State.writeMbWindow
  split <;> grind -ring -linarith [State.Tidy, State.mbSetWake_tidy, State.mbRplRel_tidy, State.modMailbox_tidy,
    State.mbReqPost_tidy, State.mbWord0_tidy]

theorem State.writeBar0_tidy (s : State) (p off : Nat) (v : BitVec 32) : s.Tidy (s.writeBar0 p off v) := by
  unfold State.writeBar0
  split <;> grind -ring -linarith [State.Tidy, State.modPort_tidy, State.writeQueue_tidy, State.clearBook_tidy,
    State.writeMbWindow_tidy, State.writeFn_tidy]

theorem execRegisterWrite_tidy (by_ : Sender) (addr width : Nat) (v : BitVec 64) (s : State) :
    s.TidyAns (execRegisterWrite by_ addr width v s) := by
  unfold execRegisterWrite
  split <;> grind -ring -linarith [State.TidyAns, State.Tidy, State.hostTlp_tidy, State.ioWrite_tidy,
    State.unclaimed_tidy, State.writeBar0_tidy, State.settleIo_tidy]

theorem execReservedOffsetAccess_tidy (p bar offset width : Nat) (write : Bool) (s : State) :
    s.TidyAns (execReservedOffsetAccess p bar offset width write s) := by
  grind -ring -linarith [execReservedOffsetAccess, State.TidyAns, State.Tidy, State.hostTlp_tidy,
    State.unclaimed_tidy, State.emit_tidy]

/-! ### Services -/

theorem State.servedFor_tidy (s : State) (code i n : Nat) (owns : Nat → Bool) (f : Service → State) (h : ∀ v, s.Tidy
    (f v)) :
    s.Tidy (s.servedFor code i n owns f) := by
  grind -ring -linarith [State.servedFor, State.Tidy, State.answer_tidy]

theorem State.takeBlock_tidy (s : State) (sh : Nat) (b : List Byte) : s.Tidy (s.takeBlock sh b) := by
  grind -ring -linarith [State.takeBlock, State.Tidy, State.modShelf_tidy]

theorem execShelfParam_tidy (s : State) : s.TidyAns (execShelfParam s) := by
  grind -ring -linarith [execShelfParam, State.TidyAns, State.Tidy, State.answer_tidy, State.takeBlock_tidy,
    State.whenReadable_tidy, State.servedFor_tidy]

theorem execShelfQuery_tidy (s : State) : s.TidyAns (execShelfQuery s) := by
  grind -ring -linarith [execShelfQuery, State.TidyAns, State.Tidy, State.answer_tidy, State.servedFor_tidy]

theorem execShelfRestore_tidy (s : State) : s.TidyAns (execShelfRestore s) := by
  grind -ring -linarith [execShelfRestore, State.TidyAns, State.Tidy, State.answer_tidy, State.servedFor_tidy,
    State.modShelf_tidy, State.enterShelf_tidy]

theorem execChainQuery_tidy (s : State) : s.TidyAns (execChainQuery s) := by
  grind -ring -linarith [execChainQuery, State.TidyAns, State.Tidy, State.answer_tidy, State.servedFor_tidy,
    State.modChain_tidy, State.Tidy.foldl]

theorem State.zeroExtents_tidy (s : State) (first count : Nat) : s.Tidy (s.zeroExtents first count) :=
  ⟨rfl, fun w => Memory.wf_filter w _⟩

theorem State.armOne_tidy (s : State) (p : Nat) (zero : Bool) (d : AccDesc) : s.Tidy (s.armOne p zero d) := by
  grind -ring -linarith [State.armOne, State.Tidy, State.writePhys_tidy, State.zeroExtents_tidy]

theorem State.reachArm_tidy (s : State) (zero : Bool) (ds : List AccDesc) : s.Tidy (s.reachArm zero ds).1 := by
  grind -ring -linarith [State.reachArm, State.Tidy, State.reach_tidy]

theorem execAccumArm_tidy (s : State) : s.TidyAns (execAccumArm s) := by
  unfold execAccumArm
  split <;> grind -ring -linarith [State.TidyAns, State.Tidy, State.reachArm_tidy, State.answer_tidy,
    State.whenReadable_tidy, State.armOne_tidy, State.Tidy.foldl]

theorem execAccumDisarm_tidy (s : State) : s.TidyAns (execAccumDisarm s) := by
  unfold execAccumDisarm
  split <;> grind -ring -linarith [State.TidyAns, State.Tidy, State.answer_tidy, State.whenAwake_tidy,
    State.writePhys_tidy, State.Tidy.foldl]

theorem State.giveRun_tidy (s : State) (p : Nat) (zero : Bool) (r : Nat × Nat) : s.Tidy (s.giveRun p zero r) := by
  grind -ring -linarith [State.giveRun, State.Tidy, State.setOwner_tidy, State.firmwareRun_tidy,
    State.zeroExtents_tidy, State.Tidy.foldl]

theorem State.reachZero_tidy (s : State) (l : List (Nat × Nat)) : s.Tidy (s.reachZero l).1 := by
  grind -ring -linarith [State.reachZero, State.Tidy, State.reach_tidy]

theorem execExtAlloc_tidy (s : State) : s.TidyAns (execExtAlloc s) := by
  unfold execExtAlloc
  refine State.TidyAns.next ?_
  split
  · dsimp only
    split
    · split
      · exact s.answer_tidy _
      · split
        · exact s.answer_tidy _
        · split
          · exact s.answer_tidy _
          · split
            · exact ((s.reachZero_tidy _).trans (.foldl (fun s r => s.giveRun_tidy ..) _ _)).trans (State.answer_tidy ..)
            · exact s.reachZero_tidy _
    · exact .refl s
  · exact .refl s

theorem execExtFree_tidy (s : State) : s.TidyAns (execExtFree s) := by
  grind -ring -linarith [execExtFree, State.TidyAns, State.Tidy, State.answer_tidy, State.setOwner_tidy,
    State.disarmIn_tidy]

theorem execExtQuery_tidy (s : State) : s.TidyAns (execExtQuery s) := by
  grind -ring -linarith [execExtQuery, State.TidyAns, State.Tidy, State.answer_tidy]

/-! ### SetLevel -/

theorem State.klevel_tidy (s : State) (src : KilvorSrc) (fn : Nat) (ok : List Byte → Bool)
    (f : State → List Byte → State) (h : ∀ t b, State.Tidy t (f t b)) :
    s.Tidy (s.klevel src fn ok f) := by
  grind -ring -linarith [State.klevel, State.Tidy, State.kreply_tidy, State.kasked_tidy, State.kfor_tidy]

theorem execSetLevelOutingChoice_tidy (src : KilvorSrc) (s : State) : s.TidyAns (execSetLevelOutingChoice src s) := by
  grind -ring -linarith [execSetLevelOutingChoice, State.TidyAns, State.Tidy, State.klevel_tidy]

theorem execSetLevelShelvesPerChain_tidy (src : KilvorSrc) (s : State) :
    s.TidyAns (execSetLevelShelvesPerChain src s) := by
  grind -ring -linarith [execSetLevelShelvesPerChain, State.TidyAns, State.Tidy, State.klevel_tidy]

theorem execSetLevelSpinUp_tidy (src : KilvorSrc) (s : State) : s.TidyAns (execSetLevelSpinUp src s) := by
  grind -ring -linarith [execSetLevelSpinUp, State.TidyAns, State.Tidy, State.klevel_tidy]

theorem execSetLevelLink_tidy (src : KilvorSrc) (s : State) : s.TidyAns (execSetLevelLink src s) := by
  grind -ring -linarith [execSetLevelLink, State.TidyAns, State.Tidy, State.klevel_tidy, State.modChain_tidy,
    State.Tidy.foldl]

theorem execSetLevelRecovery_tidy (src : KilvorSrc) (s : State) : s.TidyAns (execSetLevelRecovery src s) := by
  grind -ring -linarith [execSetLevelRecovery, State.TidyAns, State.Tidy, State.klevel_tidy]

theorem execSetLevelTimetable_tidy (src : KilvorSrc) (s : State) : s.TidyAns (execSetLevelTimetable src s) := by
  grind -ring -linarith [execSetLevelTimetable, State.TidyAns, State.Tidy, State.klevel_tidy, State.regenerate_tidy]

theorem execSetLevelRecipes_tidy (src : KilvorSrc) (s : State) : s.TidyAns (execSetLevelRecipes src s) := by
  grind -ring -linarith [execSetLevelRecipes, State.TidyAns, State.Tidy, State.klevel_tidy]

theorem execSetLevelStackPower_tidy (src : KilvorSrc) (s : State) : s.TidyAns (execSetLevelStackPower src s) := by
  grind -ring -linarith [execSetLevelStackPower, State.TidyAns, State.Tidy, State.klevel_tidy, State.wakeStack_tidy,
    State.Tidy.foldl]

theorem execSetLevelCopy_tidy (src : KilvorSrc) (s : State) : s.TidyAns (execSetLevelCopy src s) := by
  grind -ring -linarith [execSetLevelCopy, State.TidyAns, State.Tidy, State.klevel_tidy]

/-! ### Every command and every step -/

/-- Every command answers, and tidily. -/
theorem exec_tidy (s : State) : ∀ c : Instr, s.TidyAns (exec c s)
  | .registerWrite .. => execRegisterWrite_tidy ..
  | .reservedOffsetAccess .. => execReservedOffsetAccess_tidy ..
  | .configRequest .. => execConfigRequest_tidy ..
  | .perstNDeassert .. => execPerstNDeassert_tidy ..
  | .perstNAssert .. => execPerstNAssert_tidy ..
  | .flr .. => execFlr_tidy ..
  | .d3hotEntry .. => execD3hotEntry_tidy ..
  | .d3hotToD0 .. => execD3hotToD0_tidy ..
  | .dlDown .. => execDlDown_tidy ..
  | .pcieLinkUp .. => execPcieLinkUp_tidy ..
  | .uncorrectableFatalError .. => execUncorrectableFatalError_tidy ..
  | .hostReadCompletion .. => execHostReadCompletion_tidy ..
  | .hostReadTimeout .. => execHostReadTimeout_tidy ..
  | .bar4Access .. => execBar4Access_tidy ..
  | .sqDoorbell .. => execSqDoorbell_tidy ..
  | .cqHeadDoorbell .. => execCqHeadDoorbell_tidy ..
  | .sqEnable .. => execSqEnable_tidy ..
  | .sqDisable .. => execSqDisable_tidy ..
  | .cqEnable .. => execCqEnable_tidy ..
  | .cqDisable .. => execCqDisable_tidy ..
  | .sqInvWrite .. => execSqInvWrite_tidy ..
  | .sqInvalidation .. => execSqInvalidation_tidy ..
  | .cqVecCoalWrite .. => execCqVecCoalWrite_tidy ..
  | .scanTurn .. => execScanTurn_tidy ..
  | .startEntry .. => execStartEntry_tidy ..
  | .resumeEntry .. => execResumeEntry_tidy ..
  | .nopEntry .. => execNopEntry_tidy ..
  | .noteRequest .. => execNoteRequest_tidy ..
  | .admission => execAdmission_tidy s
  | .bind .. => execBind_tidy ..
  | .stationStart .. => execStationStart_tidy ..
  | .legIssue .. => execLegIssue_tidy ..
  | .legIssueExt .. => execLegIssueExt_tidy ..
  | .legTask .. => execLegTask_tidy ..
  | .legEnclosure .. => execLegEnclosure_tidy ..
  | .legStageIn .. => execLegStageIn_tidy ..
  | .legStageOut .. => execLegStageOut_tidy ..
  | .legCopy .. => execLegCopy_tidy ..
  | .legRecipe .. => execLegRecipe_tidy ..
  | .legFlushSpan .. => execLegFlushSpan_tidy ..
  | .legVerify .. => execLegVerify_tidy ..
  | .legGather .. => execLegGather_tidy ..
  | .legBook .. => execLegBook_tidy ..
  | .legRelease .. => execLegRelease_tidy ..
  | .legSpin .. => execLegSpin_tidy ..
  | .legGoto .. => execLegGoto_tidy ..
  | .legTest .. => execLegTest_tidy ..
  | .legWait .. => execLegWait_tidy ..
  | .legNote .. => execLegNote_tidy ..
  | .legPause .. => execLegPause_tidy ..
  | .legExec .. => execLegExec_tidy ..
  | .legEnd .. => execLegEnd_tidy ..
  | .responseParkExpiry .. => execResponseParkExpiry_tidy ..
  | .deadlineExpiry .. => execDeadlineExpiry_tidy ..
  | .waitDeadlineExpiry .. => execWaitDeadlineExpiry_tidy ..
  | .pauseExpiry .. => execPauseExpiry_tidy ..
  | .completionReadback .. => execCompletionReadback_tidy ..
  | .collectorRelease .. => execCollectorRelease_tidy ..
  | .completionPost .. => execCompletionPost_tidy ..
  | .coalesceTimerExpiry .. => execCoalesceTimerExpiry_tidy ..
  | .msixPendingSend .. => execMsixPendingSend_tidy ..
  | .mctpControl .. => execMctpControl_tidy ..
  | .pldmMonitoring .. => execPldmMonitoring_tidy ..
  | .pldmFirmwareUpdate .. => execPldmFirmwareUpdate_tidy ..
  | .getApportionment .. => execGetApportionment_tidy ..
  | .stageGrant .. => execStageGrant_tidy ..
  | .commit .. => execCommit_tidy ..
  | .discard .. => execDiscard_tidy ..
  | .setAdmin .. => execSetAdmin_tidy ..
  | .kilvorUnknownCommand .. => execKilvorUnknownCommand_tidy ..
  | .setLevelOutingChoice .. => execSetLevelOutingChoice_tidy ..
  | .setLevelShelvesPerChain .. => execSetLevelShelvesPerChain_tidy ..
  | .setLevelSpinUp .. => execSetLevelSpinUp_tidy ..
  | .setLevelLink .. => execSetLevelLink_tidy ..
  | .setLevelRecovery .. => execSetLevelRecovery_tidy ..
  | .setLevelTimetable .. => execSetLevelTimetable_tidy ..
  | .setLevelRecipes .. => execSetLevelRecipes_tidy ..
  | .setLevelStackPower .. => execSetLevelStackPower_tidy ..
  | .setLevelCopy .. => execSetLevelCopy_tidy ..
  | .timetableBegin .. => execTimetableBegin_tidy ..
  | .timetableRows .. => execTimetableRows_tidy ..
  | .timetableCommit src => by rw [exec_timetableCommit]; exact execTimetableCommit_tidy src s
  | .timetableAbort .. => execTimetableAbort_tidy ..
  | .recipeWrite .. => execRecipeWrite_tidy ..
  | .recipeCommit .. => execRecipeCommit_tidy ..
  | .recipeErase .. => execRecipeErase_tidy ..
  | .keyLoad .. => execKeyLoad_tidy ..
  | .keyGenerate .. => execKeyGenerate_tidy ..
  | .keyErase .. => execKeyErase_tidy ..
  | .keyCheck .. => execKeyCheck_tidy ..
  | .keystoreSealDone => execKeystoreSealDone_tidy s
  | .mbReqPost .. => execMbReqPost_tidy ..
  | .mbRplRel .. => execMbRplRel_tidy ..
  | .mbWakeWord0Write .. => execMbWakeWord0Write_tidy ..
  | .mbPost .. => execMbPost_tidy ..
  | .mbRel .. => execMbRel_tidy ..
  | .mailboxRequestTake .. => execMailboxRequestTake_tidy ..
  | .shelfParam => execShelfParam_tidy s
  | .shelfQuery => execShelfQuery_tidy s
  | .shelfRestore => execShelfRestore_tidy s
  | .chainQuery => execChainQuery_tidy s
  | .accumArm => execAccumArm_tidy s
  | .accumDisarm => execAccumDisarm_tidy s
  | .extAlloc => execExtAlloc_tidy s
  | .extFree => execExtFree_tidy s
  | .extQuery => execExtQuery_tidy s
  | .sspResponseFrame .. => execSspResponseFrame_tidy ..
  | .taskResponse .. => execTaskResponse_tidy ..
  | .xferRdy .. => execXferRdy_tidy ..
  | .dataFrameReceive .. => execDataFrameReceive_tidy ..
  | .dataFrameSend .. => execDataFrameSend_tidy ..
  | .commandFrameSend .. => execCommandFrameSend_tidy ..
  | .taskSend .. => execTaskSend_tidy ..
  | .smpResponse .. => execSmpResponse_tidy ..
  | .openReject .. => execOpenReject_tidy ..
  | .openBackoffExpiry .. => .next (s.modChain_tidy ..)
  | .connectionBreak .. => execConnectionBreak_tidy ..
  | .commandTimeout .. => execCommandTimeout_tidy ..
  | .tmfTimeout .. => execTmfTimeout_tidy ..
  | .busyRetryDelayExpiry .. => execBusyRetryDelayExpiry_tidy ..
  | .nexusLossExpiry .. => execNexusLossExpiry_tidy ..
  | .broadcast .. => execBroadcast_tidy ..
  | .rediscoveryStart .. => execRediscoveryStart_tidy ..
  | .laneUp .. => execLaneUp_tidy ..
  | .dwordSyncLoss .. => execDwordSyncLoss_tidy ..
  | .fecThreshold .. => execFecThreshold_tidy ..
  | .portResetAttempt .. => execPortResetAttempt_tidy ..
  | .discoveryTimeout .. => .next (s.discoveryEnds_tidy ..)
  | .slotDiscoveryComplete .. => execSlotDiscoveryComplete_tidy ..
  | .chainLinkResetApply .. => execChainLinkResetApply_tidy ..
  | .plannerChoice .. => execPlannerChoice_tidy ..
  | .shelfPgFilteredEdge .. => execShelfPgFilteredEdge_tidy ..
  | .shelfPgDebounceExpiry .. => execShelfPgDebounceExpiry_tidy ..
  | .powerGoodTimeout .. => execPowerGoodTimeout_tidy ..
  | .spinUpStartTimeout .. => execSpinUpStartTimeout_tidy ..
  | .spinUpStep .. => execSpinUpStep_tidy ..
  | .testUnitReadyPoll .. => execTestUnitReadyPoll_tidy ..
  | .spinUpTimeout .. => execSpinUpTimeout_tidy ..
  | .lingerExpiry .. => execLingerExpiry_tidy ..
  | .maxOpenExpiry .. => execMaxOpenExpiry_tidy ..
  | .ageLimitPassed .. => execAgeLimitPassed_tidy ..
  | .openingWindowEnd .. => execOpeningWindowEnd_tidy ..
  | .drainLimitExpiry .. => execDrainLimitExpiry_tidy ..
  | .closingSequenceDone .. => execClosingSequenceDone_tidy ..
  | .settlingTimeout .. => execSettlingTimeout_tidy ..
  | .holdoffExpiry .. => execHoldoffExpiry_tidy ..
  | .timetableRow q ecc uses asks => by rw [exec_timetableRow]; exact execTimetableRow_tidy q ecc uses asks s
  | .superframeBoundary .. => execSuperframeBoundary_tidy ..
  | .seamEnd .. => execSeamEnd_tidy ..
  | .frameBeacon .. => execFrameBeacon_tidy ..
  | .beaconMissing .. => execBeaconMissing_tidy ..
  | .beaconAlignment .. => execBeaconAlignment_tidy ..
  | .ttShadowDataWrite .. => execTtShadowDataWrite_tidy ..
  | .preparationDone .. => execPreparationDone_tidy ..
  | .recipeStart .. => execRecipeStart_tidy ..
  | .hLd .. => .next (s.hamperOp_tidy ..)
  | .hamperLoadLands .. => execHamperLoadLands_tidy ..
  | .hSt .. => .next (s.hamperOp_tidy ..)
  | .hSta .. => .next (s.hamperOp_tidy ..)
  | .hMac .. => .next (s.hamperOp_tidy ..)
  | .hGfOut .. => .next (s.hamperOp_tidy ..)
  | .hCld .. => .next (s.hamperOp_tidy ..)
  | .hHsInit .. => .next (s.hamperOp_tidy ..)
  | .hUpd .. => .next (s.hamperOp_tidy ..)
  | .hUpdn .. => .next (s.hamperOp_tidy ..)
  | .hFin .. => .next (s.hamperOp_tidy ..)
  | .hHsSave .. => .next (s.hamperOp_tidy ..)
  | .hHsRest .. => .next (s.hamperOp_tidy ..)
  | .hCrInit .. => .next (s.hamperOp_tidy ..)
  | .hEnc .. => .next (s.hamperOp_tidy ..)
  | .hDec .. => .next (s.hamperOp_tidy ..)
  | .hCrTag .. => .next (s.hamperOp_tidy ..)
  | .hCrSave .. => .next (s.hamperOp_tidy ..)
  | .hCrRest .. => .next (s.hamperOp_tidy ..)
  | .hAlXor .. => .next (s.hamperOp_tidy ..)
  | .hAlAnd .. => .next (s.hamperOp_tidy ..)
  | .hAlOr .. => .next (s.hamperOp_tidy ..)
  | .hAlMov .. => .next (s.hamperOp_tidy ..)
  | .hZero .. => .next (s.hamperOp_tidy ..)
  | .hInslc .. => .next (s.hamperOp_tidy ..)
  | .hNeq .. => .next (s.hamperOp_tidy ..)
  | .hPtest .. => .next (s.hamperOp_tidy ..)
  | .hCtNop .. => .next (s.hamperOp_tidy ..)
  | .hLoop .. => .next (s.hamperOp_tidy ..)
  | .hCtIdle .. => .next (s.hamperOp_tidy ..)
  | .hAgrst .. => .next (s.hamperOp_tidy ..)
  | .hCtEnd .. => .next (s.hamperOp_tidy ..)
  | .recipeEnd .. => execRecipeEnd_tidy ..
  | .runLimit .. => execRunLimit_tidy ..
  | .stackSrEntryTimer .. => execStackSrEntryTimer_tidy ..
  | .srExitComplete .. => execSrExitComplete_tidy ..
  | .dmaGoWrite .. => execDmaGoWrite_tidy ..
  | .dmaCtlWrite .. => execDmaCtlWrite_tidy ..
  | .dmaTimerCtlWrite .. => execDmaTimerCtlWrite_tidy ..
  | .dmaTimerFire .. => execDmaTimerFire_tidy ..
  | .dmaRunStart .. => execDmaRunStart_tidy ..
  | .dmaRunEnd .. => execDmaRunEnd_tidy ..
  | .blockMoveDone .. => execBlockMoveDone_tidy ..
  | .stakeAcquireRead .. => execStakeAcquireRead_tidy ..
  | .stakePeekRead .. => execStakePeekRead_tidy ..
  | .stakeReleaseWrite .. => execStakeReleaseWrite_tidy ..
  | .stakeBankCycle .. => execStakeBankCycle_tidy ..
  | .fbRead .. => execFbRead_tidy ..
  | .fbRd0Read .. => execFbRd0Read_tidy ..
  | .fbClear .. => execFbClear_tidy ..
  | .counterLowHalfRead .. => execCounterLowHalfRead_tidy ..
  | .sysCycleLoRead .. => execSysCycleLoRead_tidy ..
  | .sysIdataAccess .. => execSysIdataAccess_tidy ..
  | .sysWakeWrite .. => execSysWakeWrite_tidy ..
  | .interrupt .. => execInterrupt_tidy ..
  | .watchdog .. => execWatchdog_tidy ..
  | .iowaitResume .. => execIowaitResume_tidy ..
  | .sSaMov .. => .next (s.seharOp_tidy ..)
  | .sSaAdd .. => .next (s.seharOp_tidy ..)
  | .sSaSub .. => .next (s.seharOp_tidy ..)
  | .sSaAnd .. => .next (s.seharOp_tidy ..)
  | .sSaOr .. => .next (s.seharOp_tidy ..)
  | .sSaXor .. => .next (s.seharOp_tidy ..)
  | .sSaCmp .. => .next (s.seharOp_tidy ..)
  | .sSb .. => .next (s.seharBranch_tidy ..)
  | .sAdd .. => .next (s.seharOp_tidy ..)
  | .sAdc .. => .next (s.seharOp_tidy ..)
  | .sSub .. => .next (s.seharOp_tidy ..)
  | .sSbc .. => .next (s.seharOp_tidy ..)
  | .sAnd .. => .next (s.seharOp_tidy ..)
  | .sOr .. => .next (s.seharOp_tidy ..)
  | .sXor .. => .next (s.seharOp_tidy ..)
  | .sBic .. => .next (s.seharOp_tidy ..)
  | .sShl .. => .next (s.seharOp_tidy ..)
  | .sShr .. => .next (s.seharOp_tidy ..)
  | .sSar .. => .next (s.seharOp_tidy ..)
  | .sMov .. => .next (s.seharOp_tidy ..)
  | .sMul .. => .next (s.seharOp_tidy ..)
  | .sMulh .. => .next (s.seharOp_tidy ..)
  | .sCmp .. => .next (s.seharOp_tidy ..)
  | .sTst .. => .next (s.seharOp_tidy ..)
  | .sDadd .. => .next (s.seharOp_tidy ..)
  | .sDadc .. => .next (s.seharOp_tidy ..)
  | .sDsub .. => .next (s.seharOp_tidy ..)
  | .sDsbc .. => .next (s.seharOp_tidy ..)
  | .sDadj .. => .next (s.seharOp_tidy ..)
  | .sDcmp .. => .next (s.seharOp_tidy ..)
  | .sDshl .. => .next (s.seharOp_tidy ..)
  | .sDmd .. => .next (s.seharOp_tidy ..)
  | .sCvbd .. => .next (s.seharOp_tidy ..)
  | .sCvdb .. => .next (s.seharOp_tidy ..)
  | .sMovi .. => .next (s.seharOp_tidy ..)
  | .sAddi .. => .next (s.seharOp_tidy ..)
  | .sSubi .. => .next (s.seharOp_tidy ..)
  | .sAndi .. => .next (s.seharOp_tidy ..)
  | .sOri .. => .next (s.seharOp_tidy ..)
  | .sXori .. => .next (s.seharOp_tidy ..)
  | .sCmpi .. => .next (s.seharOp_tidy ..)
  | .sTsti .. => .next (s.seharOp_tidy ..)
  | .sB .. => .next (s.seharBranch_tidy ..)
  | .sCall .. => .next (s.seharBranch_tidy ..)
  | .sRet .. => .next (s.seharBranch_tidy ..)
  | .sBr .. => .next (s.seharBranch_tidy ..)
  | .sCallr .. => .next (s.seharBranch_tidy ..)
  | .sRpt .. => execSRpt_tidy ..
  | .sIn .. => execSIn_tidy ..
  | .sOut .. => .next (s.seharOp_tidy ..)
  | .sInx .. => execSInx_tidy ..
  | .sOutx .. => execSOutx_tidy ..
  | .sIowait .. => execSIowait_tidy ..
  | .sBmov .. => execSBmov_tidy ..
  | .sGate .. => execSGate_tidy ..
  | .sGret .. => execSGret_tidy ..
  | .sTrap .. => execSTrap_tidy ..
  | .sRfe .. => execSRfe_tidy ..
  | .sMfsw .. => .next (s.seharOp_tidy ..)
  | .sMtsw .. => .next (s.seharOp_tidy ..)
  | .sMflr .. => .next (s.seharOp_tidy ..)
  | .sMtlr .. => .next (s.seharOp_tidy ..)
  | .sSwap .. => execSSwap_tidy ..
  | .sIdle .. => execSIdle_tidy ..
  | .sSync .. => execSSync_tidy ..
  | .sMfwp .. => .next (s.seharOp_tidy ..)
  | .sMtwp .. => .next (s.seharOp_tidy ..)
  | .reservedEncoding .. => execReservedEncoding_tidy ..
  | .tapSample .. => execTapSample_tidy ..
  | .mainDomainValidRise .. => execMainDomainValidRise_tidy ..
  | .shelfTimeSample .. => execShelfTimeSample_tidy ..
  | .s0Sample .. => execS0Sample_tidy ..
  | .testPulseEmit => execTestPulseEmit_tidy s
  | .readRequest => execReadRequest_tidy s
  | .periodicReading => .next (s.onMon_tidy ..)
  | .monOutSegment => execMonOutSegment_tidy s
  | .monDown => execMonDown_tidy s
  | .checkpointTimer => .next (s.onMon_tidy ..)
  | .powerFailSignal => execPowerFailSignal_tidy s
  | .monumentPowerOn => execMonumentPowerOn_tidy s
  | .monRstN => execMonRstN_tidy s
  | .monumentCoreRestart .. => execMonumentCoreRestart_tidy ..
  | .monTamperN => execMonTamperN_tidy s
  | .monumentCrystalStop => .next (s.modMon_tidy ..)
  | .monId => execMonId_tidy s
  | .monRead => execMonRead_tidy s
  | .monLast => execMonLast_tidy s
  | .monParam => execMonParam_tidy s
  | .monSet .. => execMonSet_tidy ..
  | .monLog .. => execMonLog_tidy ..
  | .monKey => execMonKey_tidy s
  | .monSeal .. => execMonSeal_tidy ..
  | .monTest .. => execMonTest_tidy ..
  | .monTamperClear .. => execMonTamperClear_tidy ..
  | .monSyntaxError => execMonSyntaxError_tidy s
  | .cxRstNAssert => execCxRstNAssert_tidy s
  | .cxRstNDeassert .. => execCxRstNDeassert_tidy ..
  | .bootStage .. => execBootStage_tidy ..
  | .containmentDiscard .. => execContainmentDiscard_tidy ..
  | .containmentReset .. => execContainmentReset_tidy ..
  | .containmentEnd .. => execContainmentEnd_tidy ..
  | .engineSilent .. => execEngineSilent_tidy ..
  | .controlSramError => .next (s.startDevice_tidy ..)
  | .lockstepMismatch => .next (s.restart_tidy ..)
  | .mainRailsValid => execMainRailsValid_tidy s
  | .mainRailFault => execMainRailFault_tidy s
  | .devRefclkLoss => execDevRefclkLoss_tidy s
  | .sasRefclkLoss => execSasRefclkLoss_tidy s
  | .pcieRefclkLoss .. => execPcieRefclkLoss_tidy ..
  | .sensorUpdate .. => execSensorUpdate_tidy ..
  | .islandGating .. => execIslandGating_tidy ..
  | .spinStartTimeout .. => execSpinStartTimeout_tidy ..
  | .devRefclkReturn => execDevRefclkReturn_tidy s
  | .sasRefclkReturn => execSasRefclkReturn_tidy s
  | .monumentCrystalRestart => execMonumentCrystalRestart_tidy s

/-- A step takes the front command from the queue and keeps the form of buffer memory. -/
theorem step_tidy (s : State) :
    ∃ t, step s = .next t ∧ t.pending = s.pending.tail ∧ (Memory.wf s.mem = true → Memory.wf t.mem = true) := by
  unfold step
  cases hq : s.pending with
  | nil =>
    refine ⟨s.idle, rfl, ?_⟩
    unfold State.idle
    split <;> exact ⟨hq, id⟩
  | cons c rest => exact exec_tidy { s with pending := rest } c

/-- Settles O5: no operation of the model writes buffer memory but by the writes that keep its form (`exec_tidy`). -/
theorem memoryFormKeptByEveryStep : Obligations.MemoryFormKeptByEveryStep := by
  intro s t hwf hstep
  obtain ⟨u, hu, -, hmem⟩ := step_tidy s
  cases hu.symm.trans hstep
  exact hmem hwf

/-- Settles O6: no operation of the model touches the commands that wait (`exec_tidy`). -/
theorem queueIsFirstInFirstOut : Obligations.QueueIsFirstInFirstOut := by
  intro s t hstep
  obtain ⟨u, hu, hqueue, -⟩ := step_tidy s
  cases hu.symm.trans hstep
  exact hqueue

/-- Settles O2: `exec_tidy` gives each command a next state. -/
theorem everyCommandAnswersNext : Obligations.EveryCommandAnswersNext := by
  refine ⟨fun c s => ?_, fun s => ?_⟩
  · obtain ⟨t, ht, -⟩ := exec_tidy s c
    exact ⟨t, ht⟩
  · obtain ⟨t, ht, -⟩ := step_tidy s
    exact ⟨t, ht⟩

/-- Settles O1: `step` and `State.idle` case by case. -/
theorem stepRunsFrontCommand : Obligations.StepRunsFrontCommand := by
  refine ⟨fun s c rest hq => ?_, fun s hq hmode => ?_, fun s hq hoff hreset htripped => ?_⟩
  · unfold step
    rw [hq]
  · unfold step
    rw [hq]
    obtain hmode | hmode | hmode := hmode <;> simp [State.idle, hmode]
  · unfold step State.idle
    rw [hq]
    cases hmode : s.mode <;> simp_all

/-- Settles O4: the memory of the reset state lists no byte. -/
theorem memoryFormAtReset : Obligations.MemoryFormAtReset := Memory.wf_nil

end Sys2Proof.Machine

/-! PROOFS. The arithmetic of the Sehar cores. -/

namespace Sys2Proof.Machine

/-! ### Binary arithmetic (R448 to R450) -/

section
variable {a b r : Word} {k : Nat}

/-- A word as a signed number. -/
theorem toInt_word (a : Word) : a.toInt = if 32768 ≤ a.toNat then (a.toNat : Int) - 65536 else a.toNat := by
  rw [BitVec.toInt_eq_msb_cond, BitVec.msb_eq_decide]
  simp only [decide_eq_true_eq]
  norm_num

theorem msb_word (a : Word) : a.msb = decide (32768 ≤ a.toNat) := BitVec.msb_eq_decide a

/-- A sum overflows when its operands have one sign and it has the other. -/
theorem sum_overflows (hr : r.toNat = (a.toNat + b.toNat + k) % 65536) (hk : k ≤ 1) :
    (a.msb == b.msb && r.msb != a.msb) = decide (r.toInt ≠ a.toInt + b.toInt + k) := by
  have ha := a.isLt
  have hb := b.isLt
  rw [Bool.eq_iff_iff]
  simp only [msb_word, toInt_word, hr, Bool.and_eq_true, beq_iff_eq, bne_iff_ne, decide_eq_decide, decide_eq_true_eq, ne_eq]
  split_ifs <;> omega

/-- A difference overflows when its operands have different signs and it has not the first one's. -/
theorem difference_overflows (hr : r.toNat = (a.toNat + 65536 - b.toNat - k) % 65536) (hk : k ≤ 1) :
    (a.msb != b.msb && r.msb != a.msb) = decide (r.toInt + k ≠ a.toInt - b.toInt) := by
  have ha := a.isLt
  have hb := b.isLt
  rw [Bool.eq_iff_iff]
  simp only [msb_word, toInt_word, hr, Bool.and_eq_true, bne_iff_ne, decide_eq_decide, decide_eq_true_eq, ne_eq]
  split_ifs <;> omega

end

section
variable (a b : Word) (f : Flags) {k : Nat} (sticky : Bool)

theorem flagBit_le (c : Bool) : flagBit c ≤ 1 := by cases c <;> decide

theorem addWith_r : (addWith k sticky a b f).r = a + b + BitVec.ofNat 16 k := by
  apply BitVec.eq_of_toNat_eq
  simp [addWith]

theorem addWith_v (hk : k ≤ 1) : (addWith k sticky a b f).f.v =
    decide ((addWith k sticky a b f).r.toInt ≠ a.toInt + b.toInt + k) :=
  sum_overflows (BitVec.toNat_ofNat ..) hk

theorem subWith_r (hk : k ≤ 1) : (subWith k sticky a b f).r = a - b - BitVec.ofNat 16 k := by
  have hb := b.isLt
  apply BitVec.eq_of_toNat_eq
  simp only [subWith, BitVec.toNat_sub, BitVec.toNat_ofNat]
  omega

theorem subWith_v (hk : k ≤ 1) : (subWith k sticky a b f).f.v =
    decide ((subWith k sticky a b f).r.toInt + k ≠ a.toInt - b.toInt) :=
  difference_overflows (BitVec.toNat_ofNat ..) hk

theorem opAdd_r : (opAdd a b f).r = a + b := (addWith_r a b f (k := 0) false).trans (BitVec.add_zero _)
theorem opSub_r : (opSub a b f).r = a - b := (subWith_r a b f (k := 0) false (by omega)).trans (BitVec.sub_zero _)

theorem opAdd_v : (opAdd a b f).f.v = decide ((a + b).toInt ≠ a.toInt + b.toInt) := by
  have hv : (opAdd a b f).f.v = decide ((opAdd a b f).r.toInt ≠ a.toInt + b.toInt + (0 : Nat)) :=
    addWith_v a b f false (by omega)
  rwa [opAdd_r, Int.natCast_zero, Int.add_zero] at hv

theorem opSub_v : (opSub a b f).f.v = decide ((a - b).toInt ≠ a.toInt - b.toInt) := by
  have hv : (opSub a b f).f.v = decide ((opSub a b f).r.toInt + (0 : Nat) ≠ a.toInt - b.toInt) :=
    subWith_v a b f false (by omega)
  rwa [opSub_r, Int.natCast_zero, Int.add_zero] at hv

/-- A word's halves of a product make it up. -/
theorem opMulh_opMul : (opMulh a b f).r.toNat * 65536 + (opMul a b f).r.toNat = a.toNat * b.toNat := by
  have hlt : a.toNat * b.toNat < 65536 * 65536 := Nat.mul_lt_mul_of_lt_of_lt a.isLt b.isLt
  simp only [opMulh, logic, opMul, BitVec.toNat_ofNat]
  generalize a.toNat * b.toNat = p at hlt
  omega

end

/-- Settles O50: sums and differences by `addWith` and `subWith`, signed overflow by the signs of the words. -/
theorem arithmeticFollowsTheRules : Obligations.ArithmeticFollowsTheRules := by
  unfold Obligations.ArithmeticFollowsTheRules
  refine ⟨?add, ?adc, ?sub, ?sbc, ?logicFlags, ?logic, ?mul, ?shift, ?shiftFlags, ?conditions⟩
  case add =>
    intro a b f
    refine ⟨opAdd_r a b f, ?_, ?_, rfl, opAdd_v a b f, rfl⟩ <;> rw [← opAdd_r a b f] <;> rfl
  case adc =>
    intro a b f
    exact ⟨addWith_r .., rfl, rfl, rfl, addWith_v _ _ _ _ (flagBit_le _), rfl⟩
  case sub =>
    intro a b f
    refine ⟨opSub_r a b f, ?_, ?_, rfl, opSub_v a b f, rfl⟩
    · show ((opSub a b f).r == 0) = _
      rw [opSub_r, Bool.eq_iff_iff, beq_iff_eq, beq_iff_eq]
      exact sub_eq_zero
    · rw [← opSub_r a b f]
      rfl
  case sbc =>
    intro a b f
    have hk : 1 - flagBit f.c ≤ 1 := Nat.sub_le ..
    exact ⟨subWith_r _ _ _ _ hk, rfl, rfl, rfl, subWith_v _ _ _ _ hk, rfl⟩
  case logicFlags =>
    intro a b f c hc
    simp only [List.mem_cons, List.not_mem_nil, or_false] at hc
    obtain rfl | rfl | rfl | rfl | rfl := hc <;> exact ⟨rfl, rfl, rfl, rfl, rfl⟩
  case logic => exact fun a b f => ⟨rfl, rfl, rfl, rfl⟩
  case mul => exact fun a b f => ⟨opMulh_opMul a b f, rfl, rfl, rfl, rfl, rfl⟩
  case shift =>
    intro a b f
    simp [opShl, opShr, opSar, shifted, Nat.pos_iff_ne_zero]
  case shiftFlags =>
    intro a b f c hc
    simp only [List.mem_cons, List.not_mem_nil, or_false] at hc
    obtain rfl | rfl | rfl := hc <;> exact ⟨rfl, rfl, rfl, rfl⟩
  case conditions => 
    rintro ⟨n, z, c, v, h⟩
    simp [condHolds]

end Sys2Proof.Machine

/-! PROOFS. Instructions whose effect lies in their core: their operands, their results, and what issuing them does. -/

namespace Sys2Proof.Machine

/-! ### What an instruction leaves of the notes on parity (R452, R485) -/

section
variable {x y z : Core} {a v : Word} {n : BitVec 6}

@[simp] theorem Core.setFlags_parityHit (x : Core) (f : Flags) : (x.setFlags f).parityHit = x.parityHit := rfl

@[simp] theorem Core.later_parityHit (x : Core) (due : Nat) (t : WTarget) (v : Word) :
    (x.later due t v).parityHit = x.parityHit := rfl

@[simp] theorem Core.result_parityHit (x : Core) (a v : Word) : (x.result a v).parityHit = x.parityHit := rfl

@[simp] theorem Core.finish_parityHit (x : Core) (a : Word) (r : Calc) : (x.finish a r).parityHit = x.parityHit := rfl

theorem Core.sense_of_sound (h : x.dParity = []) (a : Word) : x.sense a = x := by simp [Core.sense, h]

/-! ### Words written and superseded (R453) -/

/-- A context that, suspended, no longer has to write D-space word `a`. -/
def Ctx.without (a : Nat) (y : Ctx) : Ctx := { y with suspended := y.suspended.map (Suspend.without a) }

theorem Core.ctx_supersede (x : Core) (a c : Nat) : (x.supersede a).ctx c = (x.ctx c).without a :=
  Tab.get_mapVals x.ctxs (Ctx.without a) c {}

theorem Core.here_putNow (x : Core) (a v : Word) : (x.putNow a v).here = x.here.without a.toNat :=
  x.ctx_supersede a.toNat x.cur

theorem Core.dread_putNow (x : Core) (a v b : Word) : (x.putNow a v).dread b = if b = a then v else x.dread b := by
  show (x.dmem.set a.toNat v).get b.toNat 0 = _
  simp only [Tab.get_set, BitVec.toNat_inj]
  rfl

theorem Core.delayed_putNow (x : Core) (a v : Word) {d : Delayed} (h : d ∈ (x.putNow a v).delayed) :
    d.target ≠ .dmem a.toNat := of_decide_eq_true (List.mem_filter.mp h).2

/-! ### Registers as operands (R440, R446, R447) -/

theorem Core.mayReach_supervisor (h : x.here.s = true) (a : Word) : x.mayReach a = true := by simp [Core.mayReach, h]

theorem Core.mayReach_user (h : x.here.s = false) (a : Word) :
    x.mayReach a = true ↔ x.here.ubase.toNat ≤ a.toNat ∧ a.toNat ≤ x.here.ulim.toNat := by simp [Core.mayReach, h]

theorem Core.guardD_of_mayReach (h : x.mayReach a = true) : x.guardD a = .ok () := by simp [Core.guardD, h]

theorem setWidth_register (n : BitVec 6) : n.setWidth 8 = 0#2 ++ n := by
  apply BitVec.eq_of_toNat_eq
  rw [BitVec.toNat_setWidth, BitVec.toNat_append]
  have := n.isLt
  simp
  omega

/-- A spec is its mode and its register. -/
theorem toNat_spec (m : BitVec 2) (n : BitVec 6) : (m ++ n : BitVec 8).toNat = 64 * m.toNat + n.toNat := by
  rw [BitVec.toNat_append, ← Nat.shiftLeft_add_eq_or_of_lt n.isLt, Nat.shiftLeft_eq]
  omega

theorem mode_spec (m : BitVec 2) (n : BitVec 6) : (m ++ n : BitVec 8).toNat / 64 = m.toNat := by
  have := n.isLt
  rw [toNat_spec]
  omega

theorem Core.regAddr_spec (x : Core) (m : BitVec 2) (n : BitVec 6) :
    x.regAddr (m ++ n : BitVec 8).toNat = x.regAddr n.toNat := by
  rw [toNat_spec, Core.regAddr, Core.regAddr, Nat.mul_add_mod]

theorem Core.operand_outside {sp : BitVec 8} (h : x.mayReach (x.regAddr sp.toNat) = false) :
    x.operand sp = .error { cause := 0x05, eaddr := x.regAddr sp.toNat } := by
  simp [Core.operand, Core.guardD, h, bind, Except.bind]

theorem Core.operand_register (h : x.mayReach (x.regAddr n.toNat) = true) :
    x.operand (0#2 ++ n) = .ok { addr := x.regAddr n.toNat, value := x.reg n.toNat, core := x } := by
  simp [Core.operand, Core.regAddr_spec, Core.guardD_of_mayReach h, mode_spec, bind, Except.bind, Core.reg]

theorem Core.operand_pointed (hp : x.dParity = []) (h : x.mayReach (x.regAddr n.toNat) = true)
    (hv : x.mayReach (x.reg n.toNat) = true) :
    x.operand (1#2 ++ n) = .ok { addr := x.reg n.toNat, value := x.dread (x.reg n.toNat), core := x } := by
  have hg : x.guardD (x.dread (x.regAddr n.toNat)) = .ok () := Core.guardD_of_mayReach hv
  simp [Core.operand, Core.regAddr_spec, Core.guardD_of_mayReach h, mode_spec, bind, Except.bind, Core.reg, hg,
    Core.sense_of_sound hp]

theorem Core.operand_incremented (hp : x.dParity = []) (h : x.mayReach (x.regAddr n.toNat) = true)
    (hv : x.mayReach (x.reg n.toNat) = true) :
    x.operand (2#2 ++ n) = .ok { addr := x.reg n.toNat, value := x.dread (x.reg n.toNat)
                                 core := x.putNow (x.regAddr n.toNat) (x.reg n.toNat + 1) } := by
  have hg : x.guardD (x.dread (x.regAddr n.toNat)) = .ok () := Core.guardD_of_mayReach hv
  simp [Core.operand, Core.regAddr_spec, Core.guardD_of_mayReach h, mode_spec, bind, Except.bind, Core.reg, hg,
    Core.sense_of_sound hp]

theorem Core.operand_decremented (hp : x.dParity = []) (h : x.mayReach (x.regAddr n.toNat) = true)
    (hv : x.mayReach (x.reg n.toNat - 1) = true) :
    x.operand (3#2 ++ n) = .ok
      { addr := x.reg n.toNat - 1
        value := (x.putNow (x.regAddr n.toNat) (x.reg n.toNat - 1)).dread (x.reg n.toNat - 1)
        core := x.putNow (x.regAddr n.toNat) (x.reg n.toNat - 1) } := by
  have hg : x.guardD (x.dread (x.regAddr n.toNat) - 1#16) = .ok () := Core.guardD_of_mayReach hv
  simp [Core.operand, Core.regAddr_spec, Core.guardD_of_mayReach h, mode_spec, bind, Except.bind, Core.reg, hg,
    Core.sense_of_sound hp]

theorem Core.source_register (hp : x.dParity = []) (h : x.mayReach (x.regAddr n.toNat) = true) :
    x.source (0#2 ++ n) = .ok { addr := x.regAddr n.toNat, value := x.reg n.toNat, core := x } := by
  simp [Core.source, Core.operand_register h, bind, Except.bind, Core.sense_of_sound hp]

/-- A register of wrong parity is read and noted. -/
theorem Core.source_noted (hp : x.parityHit = none) (h : x.mayReach (x.regAddr n.toNat) = true)
    (hw : (x.regAddr n.toNat).toNat ∈ x.dParity) :
    ∃ o, x.source (0#2 ++ n) = .ok o ∧ o.value = x.reg n.toNat ∧ o.core.parityHit = some (x.regAddr n.toNat) := by
  refine ⟨_, by rw [Core.source, Core.operand_register h]; rfl, rfl, ?_⟩
  simp [Core.sense, hp, hw]

/-! ### The shapes of the instructions, on registers -/

section
variable {d b m : BitVec 6} {op : Op2}

theorem Core.runLa_registers (hp : x.dParity = []) (hd : x.mayReach (x.regAddr d.toNat) = true)
    (hn : x.mayReach (x.regAddr n.toNat) = true) (hb : x.mayReach (x.regAddr b.toNat) = true) (op : Op2) :
    x.runLa (0#2 ++ d) (0#2 ++ n) (0#2 ++ b) op =
      .ok (x.finish (x.regAddr d.toNat) (op (x.reg n.toNat) (x.reg b.toNat) x.here.flags)) := by
  simp [Core.runLa, Core.source_register hp hn, Core.source_register hp hb, Core.operand_register hd, bind, Except.bind]

theorem Core.runLaFlags_registers (hp : x.dParity = []) (hn : x.mayReach (x.regAddr n.toNat) = true)
    (hb : x.mayReach (x.regAddr b.toNat) = true) (op : Op2) :
    x.runLaFlags (0#2 ++ n) (0#2 ++ b) op = .ok (x.setFlags (op (x.reg n.toNat) (x.reg b.toNat) x.here.flags).f) := by
  simp [Core.runLaFlags, Core.source_register hp hn, Core.source_register hp hb, bind, Except.bind]

theorem Core.runDec_registers (hp : x.dParity = []) (hd : x.mayReach (x.regAddr d.toNat) = true)
    (hn : x.mayReach (x.regAddr n.toNat) = true) (hb : x.mayReach (x.regAddr b.toNat) = true) (op : DecOp) :
    x.runDec (0#2 ++ d) (0#2 ++ n) (0#2 ++ b) op =
      (decimalOr (op (x.reg n.toNat) (x.reg b.toNat) x.here.flags)).map (x.finish (x.regAddr d.toNat)) := by
  simp only [Core.runDec, Core.source_register hp hn, Core.source_register hp hb, Core.operand_register hd, bind,
    Except.bind]
  cases decimalOr (op (x.reg n.toNat) (x.reg b.toNat) x.here.flags) <;> rfl

theorem Core.runDecFlags_registers (hp : x.dParity = []) (hn : x.mayReach (x.regAddr n.toNat) = true)
    (hb : x.mayReach (x.regAddr b.toNat) = true) (op : DecOp) :
    x.runDecFlags (0#2 ++ n) (0#2 ++ b) op =
      (decimalOr (op (x.reg n.toNat) (x.reg b.toNat) x.here.flags)).map fun r => x.setFlags r.f := by
  simp only [Core.runDecFlags, Core.source_register hp hn, Core.source_register hp hb, bind, Except.bind]
  cases decimalOr (op (x.reg n.toNat) (x.reg b.toNat) x.here.flags) <;> rfl

theorem Core.runOne_registers (hp : x.dParity = []) (hd : x.mayReach (x.regAddr d.toNat) = true)
    (hn : x.mayReach (x.regAddr n.toNat) = true) (f : Word → Flags → Try Calc) :
    x.runOne (0#2 ++ d) (0#2 ++ n) f = (f (x.reg n.toNat) x.here.flags).map (x.finish (x.regAddr d.toNat)) := by
  simp only [Core.runOne, Core.source_register hp hn, Core.operand_register hd, bind, Except.bind]
  cases f (x.reg n.toNat) x.here.flags <;> rfl

theorem Core.runDmd_registers (hp : x.dParity = []) (hd : x.mayReach (x.regAddr d.toNat) = true)
    (hn : x.mayReach (x.regAddr n.toNat) = true) (hm : x.mayReach (x.regAddr m.toNat) = true) {c : Calc} {w : Word}
    (h : opDmd (x.reg d.toNat) (x.reg n.toNat) (x.reg m.toNat) x.here.flags = some (c, w)) :
    x.runDmd (0#2 ++ d) (0#2 ++ n) m = .ok ((x.finish (x.regAddr d.toNat) c).result (x.regAddr m.toNat) w) := by
  simp [Core.runDmd, setWidth_register, Core.source_register hp hn, Core.source_register hp hd,
    Core.source_register hp hm, h, decimalOr, bind, Except.bind]

theorem Core.runCvbd_registers (hp : x.dParity = []) (hd : x.mayReach (x.regAddr d.toNat) = true)
    (hn : x.mayReach (x.regAddr n.toNat) = true) (hm : x.mayReach (x.regAddr m.toNat) = true) :
    x.runCvbd (0#2 ++ d) (0#2 ++ n) m = .ok ((x.finish (x.regAddr d.toNat) (opCvbd (x.reg n.toNat) x.here.flags).1).result
      (x.regAddr m.toNat) (opCvbd (x.reg n.toNat) x.here.flags).2) := by
  simp [Core.runCvbd, setWidth_register, Core.source_register hp hn, Core.operand_register hd,
    Core.operand_register hm, bind, Except.bind]

theorem Core.runLi_register (hp : x.dParity = []) (hd : x.mayReach (x.regAddr d.toNat) = true) (imm : Word) (op : Op2) :
    x.runLi (0#2 ++ d) imm op = .ok (x.finish (x.regAddr d.toNat) (op (x.reg d.toNat) imm x.here.flags)) := by
  simp [Core.runLi, Core.source_register hp hd, bind, Except.bind]

theorem Core.runLiFlags_register (hp : x.dParity = []) (hd : x.mayReach (x.regAddr d.toNat) = true) (imm : Word)
    (op : Op2) : x.runLiFlags (0#2 ++ d) imm op = .ok (x.setFlags (op (x.reg d.toNat) imm x.here.flags).f) := by
  simp [Core.runLiFlags, Core.source_register hp hd, bind, Except.bind]

theorem Core.runSa_registers (hp : x.dParity = []) (hd : x.mayReach (x.regAddr d.toNat) = true)
    (hn : x.mayReach (x.regAddr n.toNat) = true) (op : Op2) :
    x.runSa d n op = .ok (x.finish (x.regAddr d.toNat) (op (x.reg d.toNat) (x.reg n.toNat) x.here.flags)) := by
  simp [Core.runSa, setWidth_register, Core.source_register hp hd, Core.source_register hp hn, bind, Except.bind]

theorem Core.runSaFlags_registers (hp : x.dParity = []) (hd : x.mayReach (x.regAddr d.toNat) = true)
    (hn : x.mayReach (x.regAddr n.toNat) = true) (op : Op2) :
    x.runSaFlags d n op = .ok (x.setFlags (op (x.reg d.toNat) (x.reg n.toNat) x.here.flags).f) := by
  simp [Core.runSaFlags, setWidth_register, Core.source_register hp hd, Core.source_register hp hn, bind, Except.bind]

theorem Core.runStore_register (hd : x.mayReach (x.regAddr d.toNat) = true) (v : Word) :
    x.runStore (0#2 ++ d) v = .ok (x.result (x.regAddr d.toNat) v) := by
  simp [Core.runStore, Core.operand_register hd, bind, Except.bind]

theorem Core.moveTo_register (hp : x.dParity = []) (hd : x.mayReach (x.regAddr d.toNat) = true) (t : WTarget)
    (f : Word → Word) : x.moveTo (0#2 ++ d) t f = .ok (x.later (x.cycle + 2) t (f (x.reg d.toNat))) := by
  simp [Core.moveTo, Core.source_register hp hd, bind, Except.bind]

theorem Core.outPort_register (hp : x.dParity = []) (hd : x.mayReach (x.regAddr d.toNat) = true) (port : Nat) :
    x.outPort port (0#2 ++ d) = .ok (x.later (x.cycle + 4) (.io x.cur port) (x.reg d.toNat)) := by
  simp [Core.outPort, Core.source_register hp hd, bind, Except.bind]

end

end

/-! ### Issue (R436, R452) -/

section
variable {s : State} {c : Instr} {k : Nat} {fm : Form} {f : Core → Try Core} {x y : Core} {e : Exc}

/-- Every command of `seharCommand` issues its instruction on its core. -/
theorem exec_seharCommand (h : seharCommand c = some (k, fm, f)) : exec c s = .next (s.seharOp k fm f) := by
  cases c <;> cases h <;> rfl

theorem exec_runs (h : seharCommand c = some (k, fm, f)) (hi : Issues s k fm x) (hf : f x = .ok y)
    (hp : fm.parity x y = none) : exec c s = .next (s.ran k fm x y) := by
  rw [exec_seharCommand h, hi.seharOp, hf]
  simp only [hp]

theorem exec_raisesParity (h : seharCommand c = some (k, fm, f)) (hi : Issues s k fm x) (hf : f x = .ok y)
    (hp : fm.parity x y = some e) : exec c s = .next ((s.settle k).raise k x.cur e) := by
  rw [exec_seharCommand h, hi.seharOp, hf]
  simp only [hp]

theorem exec_raises (h : seharCommand c = some (k, fm, f)) (hi : Issues s k fm x) (hf : f x = .error e) :
    exec c s = .next ((s.settle k).raise k x.cur e) := by
  rw [exec_seharCommand h, hi.seharOp, hf]

theorem Form.parity_congr (fm : Form) (x : Core) (h : y.parityHit = x.parityHit) : fm.parity x y = fm.parity x x := by
  simp only [Form.parity, h]

/-- An instruction that notes no word of wrong parity has its effect. -/
theorem Issues.runs (hi : Issues s k fm x) (h : seharCommand c = some (k, fm, f)) (hf : f x = .ok y)
    (hp : y.parityHit = x.parityHit) : exec c s = .next (s.ran k fm x y) := by
  refine exec_runs h hi hf ?_
  obtain ⟨-, -, -, -, -, -, -, hparity⟩ := hi
  rw [fm.parity_congr x hp, hparity]

/-- A privileged instruction that issues does so in supervisor mode. -/
theorem Issues.supervisor_of_privileged (hi : Issues s k fm x) (hp : fm.privileged = true) : x.here.s = true := by
  obtain ⟨-, -, -, -, -, hcheck, -⟩ := hi
  by_contra hs
  rw [Bool.not_eq_true] at hs
  revert hcheck
  simp only [Form.check, hp, hs, Bool.not_false, Bool.and_true, Bool.true_or, if_true]
  split
  · simp
  · split_ifs
    · simp
    · cases fm.io <;> simp

/-- So does an I/O instruction. -/
theorem Issues.supervisor_of_io (hi : Issues s k fm x) {port : Core → Nat} (hp : fm.io = some port) :
    x.here.s = true := by
  obtain ⟨-, -, -, -, -, hcheck, -⟩ := hi
  by_contra hs
  rw [Bool.not_eq_true] at hs
  revert hcheck
  simp only [Form.check, hp, hs, Bool.not_false, Bool.true_or, if_true]
  split
  · simp
  · split_ifs <;> simp

end

end Sys2Proof.Machine

/-! PROOFS. The instructions whose effect lies in their core (O49). -/

namespace Sys2Proof.Machine

/-! ### In supervisor mode, over words of good parity, every operand is evaluated -/

/-- `y` comes from `x` by operands that an instruction has evaluated: supervisor mode, no word of wrong parity, and none
noted beside those of `x`. -/
def Core.Evaluated (x y : Core) : Prop := y.here.s = true ∧ y.dParity = [] ∧ y.parityHit = x.parityHit

section
variable {x y z : Core}

theorem Core.Evaluated.refl (hs : x.here.s = true) (hp : x.dParity = []) : x.Evaluated x := ⟨hs, hp, rfl⟩

theorem Core.Evaluated.trans (h : x.Evaluated y) (h' : y.Evaluated z) : x.Evaluated z := by
  obtain ⟨-, -, hy⟩ := h
  obtain ⟨hs, hp, hz⟩ := h'
  exact ⟨hs, hp, hz.trans hy⟩

theorem Core.Evaluated.putNow (hs : x.here.s = true) (hp : x.dParity = []) (a v : Word) : x.Evaluated (x.putNow a v) := by
  refine ⟨?_, ?_, rfl⟩
  · rw [Core.here_putNow]
    exact hs
  · show x.dParity.filter _ = []
    rw [hp]
    rfl

theorem Core.operand_evaluated (hs : x.here.s = true) (hp : x.dParity = []) (sp : BitVec 8) :
    ∃ o, x.operand sp = .ok o ∧ x.Evaluated o.core := by
  have hg : ∀ a, x.guardD a = .ok () := fun a => Core.guardD_of_mayReach (Core.mayReach_supervisor hs a)
  have hx := Core.Evaluated.refl hs hp
  simp only [Core.operand, hg, Core.sense_of_sound hp, bind, Except.bind]
  split
  · exact ⟨_, rfl, hx⟩
  · exact ⟨_, rfl, hx⟩
  · exact ⟨_, rfl, .putNow hs hp ..⟩
  · exact ⟨_, rfl, .putNow hs hp ..⟩

theorem Core.source_evaluated (hs : x.here.s = true) (hp : x.dParity = []) (sp : BitVec 8) :
    ∃ o, x.source sp = .ok o ∧ x.Evaluated o.core := by
  obtain ⟨o, ho, he⟩ := Core.operand_evaluated hs hp sp
  refine ⟨{ o with core := o.core.sense o.addr }, by rw [Core.source, ho]; rfl, ?_⟩
  obtain ⟨hs', hp', hy⟩ := he
  show x.Evaluated (o.core.sense o.addr)
  rw [Core.sense_of_sound hp']
  exact ⟨hs', hp', hy⟩

/-! ### The shapes of the instructions complete -/

/-- An effect on its core alone that completes, and notes no word of wrong parity. -/
def Core.Completes (x : Core) (r : Try Core) : Prop := ∃ y, r = .ok y ∧ y.parityHit = x.parityHit

section
variable (hs : x.here.s = true) (hp : x.dParity = [])
include hs hp

theorem Core.runLa_completes (d a b : BitVec 8) (op : Op2) : x.Completes (x.runLa d a b op) := by
  obtain ⟨va, ha, hsa, hpa, hna⟩ := Core.source_evaluated hs hp a
  obtain ⟨vb, hb, hsb, hpb, hnb⟩ := Core.source_evaluated hsa hpa b
  obtain ⟨vd, hd, -, -, hnd⟩ := Core.operand_evaluated hsb hpb d
  refine ⟨_, by simp only [Core.runLa, ha, hb, hd, bind, Except.bind]; rfl, ?_⟩
  exact hnd.trans (hnb.trans hna)

theorem Core.runLaFlags_completes (a b : BitVec 8) (op : Op2) : x.Completes (x.runLaFlags a b op) := by
  obtain ⟨va, ha, hsa, hpa, hna⟩ := Core.source_evaluated hs hp a
  obtain ⟨vb, hb, -, -, hnb⟩ := Core.source_evaluated hsa hpa b
  refine ⟨_, by simp only [Core.runLaFlags, ha, hb, bind, Except.bind]; rfl, ?_⟩
  exact hnb.trans hna

theorem Core.runOne_completes (d a : BitVec 8) {f : Word → Flags → Try Calc} (hf : ∀ v g, ∃ r, f v g = .ok r) :
    x.Completes (x.runOne d a f) := by
  obtain ⟨va, ha, hsa, hpa, hna⟩ := Core.source_evaluated hs hp a
  obtain ⟨vd, hd, -, -, hnd⟩ := Core.operand_evaluated hsa hpa d
  obtain ⟨r, hr⟩ := hf va.value x.here.flags
  refine ⟨_, by simp only [Core.runOne, ha, hd, hr, bind, Except.bind]; rfl, ?_⟩
  exact hnd.trans hna

theorem Core.runCvbd_completes (d a : BitVec 8) (n : BitVec 6) : x.Completes (x.runCvbd d a n) := by
  obtain ⟨va, ha, hsa, hpa, hna⟩ := Core.source_evaluated hs hp a
  obtain ⟨vt, ht, hst, hpt, hnt⟩ := Core.operand_evaluated hsa hpa (n.setWidth 8)
  obtain ⟨vd, hd, -, -, hnd⟩ := Core.operand_evaluated hst hpt d
  refine ⟨_, by simp only [Core.runCvbd, ha, ht, hd, bind, Except.bind]; rfl, ?_⟩
  exact hnd.trans (hnt.trans hna)

theorem Core.runLi_completes (d : BitVec 8) (imm : Word) (op : Op2) : x.Completes (x.runLi d imm op) := by
  obtain ⟨vd, hd, -, -, hnd⟩ := Core.source_evaluated hs hp d
  refine ⟨_, by simp only [Core.runLi, hd, bind, Except.bind]; rfl, ?_⟩
  exact hnd

theorem Core.runLiFlags_completes (d : BitVec 8) (imm : Word) (op : Op2) : x.Completes (x.runLiFlags d imm op) := by
  obtain ⟨vd, hd, -, -, hnd⟩ := Core.source_evaluated hs hp d
  refine ⟨_, by simp only [Core.runLiFlags, hd, bind, Except.bind]; rfl, ?_⟩
  exact hnd

theorem Core.runSa_completes (d n : BitVec 6) (op : Op2) : x.Completes (x.runSa d n op) :=
  ⟨_, Core.runSa_registers hp (Core.mayReach_supervisor hs _) (Core.mayReach_supervisor hs _) op, rfl⟩

theorem Core.runSaFlags_completes (d n : BitVec 6) (op : Op2) : x.Completes (x.runSaFlags d n op) :=
  ⟨_, Core.runSaFlags_registers hp (Core.mayReach_supervisor hs _) (Core.mayReach_supervisor hs _) op, rfl⟩

theorem Core.runStore_completes (d : BitVec 8) (v : Word) : x.Completes (x.runStore d v) := by
  obtain ⟨vd, hd, -, -, hnd⟩ := Core.operand_evaluated hs hp d
  refine ⟨_, by simp only [Core.runStore, hd, bind, Except.bind]; rfl, ?_⟩
  exact hnd

theorem Core.moveTo_completes (d : BitVec 8) (t : WTarget) (f : Word → Word) : x.Completes (x.moveTo d t f) := by
  obtain ⟨vd, hd, -, -, hnd⟩ := Core.source_evaluated hs hp d
  refine ⟨_, by simp only [Core.moveTo, hd, bind, Except.bind]; rfl, ?_⟩
  exact hnd

theorem Core.outPort_completes (port : Nat) (d : BitVec 8) : x.Completes (x.outPort port d) := by
  obtain ⟨vd, hd, -, -, hnd⟩ := Core.source_evaluated hs hp d
  refine ⟨_, by simp only [Core.outPort, hd, bind, Except.bind]; rfl, ?_⟩
  exact hnd

/-- An instruction that computes no decimal completes. -/
theorem seharCommand_completes {c : Instr} {k : Nat} {fm : Form} {f : Core → Try Core}
    (h : seharCommand c = some (k, fm, f)) (hd : decimalCommand c = false) : x.Completes (f x) := by
  cases c <;> cases h
  case sDadd | sDadc | sDsub | sDsbc | sDcmp | sDshl | sDmd | sCvdb => exact absurd hd (by simp [decimalCommand])
  case sSaAdd | sSaSub | sSaAnd | sSaOr | sSaXor => exact Core.runSa_completes hs hp ..
  case sSaCmp => exact Core.runSaFlags_completes hs hp ..
  case sAdd | sAdc | sSub | sSbc | sAnd | sOr | sXor | sBic | sShl | sShr | sSar | sMul | sMulh =>
    exact Core.runLa_completes hs hp ..
  case sCmp | sTst => exact Core.runLaFlags_completes hs hp ..
  case sSaMov | sMov | sDadj => exact Core.runOne_completes hs hp _ _ fun _ _ => ⟨_, rfl⟩
  case sCvbd => exact Core.runCvbd_completes hs hp ..
  case sAddi | sSubi | sAndi | sOri | sXori => exact Core.runLi_completes hs hp ..
  case sCmpi | sTsti => exact Core.runLiFlags_completes hs hp ..
  case sMovi | sMfsw | sMflr | sMfwp => exact Core.runStore_completes hs hp ..
  case sMtsw | sMtlr | sMtwp => exact Core.moveTo_completes hs hp ..
  case sOut => exact Core.outPort_completes hs hp ..
  case sOutx =>
    simp only [Core.sense_of_sound hp]
    exact Core.outPort_completes hs hp ..

end

end

/-! ### How the context goes on -/

section
variable {s : State} {k : Nat} {fm : Form} {x y : Core}

theorem Core.setCtx_self_setCtx (x : Core) (c : Nat) (y z : Ctx) : (x.setCtx c y).setCtx c z = x.setCtx c z := by
  simp [Core.setCtx]

@[simp] theorem Core.ctx_setCtx (x : Core) (c : Nat) (y : Ctx) : (x.setCtx c y).ctx c = y := by
  simp [Core.setCtx, Core.ctx]

/-- With the watchdog at 0 the cycles issued count for nothing else. -/
theorem Ctx.burn_zero {y : Ctx} (h : y.wdog = 0) (n : Nat) : y.burn n = y := by simp [Ctx.burn, h]

/-- Outside a delay slot and a repeat a context goes on to the next address. -/
theorem Core.goOn_next {c : Nat} (hd : (x.ctx c).delay = none) (hr : (x.ctx c).rpt = none) (len n : Nat) :
    x.goOn c len n = x.setCtx c { x.ctx c with pc := (x.ctx c).pc + BitVec.ofNat 16 len } := by
  simp only [Core.goOn, hd, hr]

theorem Core.spend_goOn_next (hd : y.here.delay = none) (hr : y.here.rpt = none) (hw : y.here.wdog = 0)
    (cost len n : Nat) (user : Bool) :
    (y.spend y.cur cost user).goOn y.cur len n =
      ({ y with cycle := y.cycle + cost } : Core).modHere fun z => { z with pc := z.pc + BitVec.ofNat 16 len } := by
  have hb : (({ y with cycle := y.cycle + cost } : Core).ctx y.cur).burn cost = y.ctx y.cur := Ctx.burn_zero hw cost
  cases user with
  | false => exact Core.goOn_next (x := { y with cycle := y.cycle + cost }) hd hr len n
  | true =>
    simp only [Core.spend, if_true, hb]
    rw [Core.goOn_next (by rw [Core.ctx_setCtx]; exact hd) (by rw [Core.ctx_setCtx]; exact hr), Core.ctx_setCtx,
      Core.setCtx_self_setCtx]
    rfl

theorem State.ran_core (hd : y.here.delay = none) (hr : y.here.rpt = none) (hw : y.here.wdog = 0) (hc : y.cur = x.cur) :
    (s.ran k fm x y).core k = ({ y with cycle := y.cycle + fm.cost } : Core).modHere fun z =>
      { z with pc := z.pc + BitVec.ofNat 16 fm.len } := by
  rw [← Core.spend_goOn_next hd hr hw fm.cost fm.len x.cycle (!x.here.s), hc]
  simp [State.ran, State.afterEffect, State.modCore]

theorem State.ran_mem : (s.ran k fm x y).mem = (s.settle k).mem := by simp [State.ran, State.afterEffect]

theorem State.ran_ports : (s.ran k fm x y).ports = (s.settle k).ports := by simp [State.ran, State.afterEffect]

theorem State.ran_trvs : (s.ran k fm x y).trvs = (s.settle k).trvs := by simp [State.ran, State.afterEffect]

theorem State.ran_other {j : Nat} (h : j ≠ k) : (s.ran k fm x y).core j = (s.settle k).core j := by
  simp [State.ran, State.afterEffect, State.modCore, State.core, State.setCore, Tab.get_set, h]

end

/-! ### Words of the encoding -/

/-- Every word with bit 15 clear is a short form. -/
theorem decodeSehar_short {w1 : Word} (h : w1.msb = false) (w2 : Word) :
    decodeSehar w1 w2 = some (decodeShort w1) := by
  simp [decodeSehar, h]

/-- Settles O49: on registers each shape of instruction is one equation of the operand rules, and in supervisor mode
every operand is evaluated. -/
theorem coreInstructionsRunOrRaise : Obligations.CoreInstructionsRunOrRaise := by
  unfold Obligations.CoreInstructionsRunOrRaise
  refine ⟨fun _ _ _ _ _ _ _ => exec_runs, fun _ _ _ _ _ _ _ _ => exec_raisesParity, fun _ _ _ _ _ _ _ => exec_raises,
    ?short, ?long, ?multiply, ?immediate, ?status, ?privileged, ?out, ?outx, ?completes, ?encodings,
    fun _ w2 h => by rw [decodeSehar_short h]; rfl, fun _ _ _ _ _ => State.ran_core,
    fun _ _ _ _ _ => ⟨State.ran_mem, State.ran_ports, State.ran_trvs, fun _ => State.ran_other⟩, fun _ _ => Core.operand_register, ?pointed,
    fun _ _ => Core.operand_decremented, fun _ _ => Core.operand_outside, fun _ a h => Core.mayReach_user h a,
    fun _ _ => Core.source_noted, ?noted, ?computed, ?computedShort, ?superseded, ?updated⟩
  case short =>
    intro s k x d n hi hp hd hn
    exact ⟨hi.runs rfl (by rw [setWidth_register, setWidth_register, Core.runOne_registers hp hd hn]; rfl) rfl,
      hi.runs rfl (Core.runSaFlags_registers hp hd hn _) rfl, hi.runs rfl (Core.runSa_registers hp hd hn _) rfl,
      hi.runs rfl (Core.runSa_registers hp hd hn _) rfl, hi.runs rfl (Core.runSa_registers hp hd hn _) rfl,
      hi.runs rfl (Core.runSa_registers hp hd hn _) rfl, hi.runs rfl (Core.runSa_registers hp hd hn _) rfl⟩
  case long =>
    intro s k x d a b hi hp hd ha hb
    have hla : ∀ (c : Instr) (op : Op2),
        seharCommand c = some (k, longForm, fun x => x.runLa (0#2 ++ d) (0#2 ++ a) (0#2 ++ b) op) →
        exec c s = .next (s.ran k longForm x
          (x.finish (x.regAddr d.toNat) (op (x.reg a.toNat) (x.reg b.toNat) x.here.flags))) :=
      fun c op hc => hi.runs hc (Core.runLa_registers hp hd ha hb op) rfl
    exact ⟨hla _ _ rfl, hla _ _ rfl, hla _ _ rfl, hla _ _ rfl, hla _ _ rfl, hla _ _ rfl, hla _ _ rfl, hla _ _ rfl,
      hla _ _ rfl, hla _ _ rfl, hla _ _ rfl, hi.runs rfl (Core.runOne_registers hp hd ha _) rfl,
      hi.runs rfl (Core.runLaFlags_registers hp ha hb _) rfl, hi.runs rfl (Core.runLaFlags_registers hp ha hb _) rfl⟩
  case multiply =>
    intro s k x d a b hi hp hd ha hb
    exact ⟨hi.runs rfl (Core.runLa_registers hp hd ha hb _) rfl, hi.runs rfl (Core.runLa_registers hp hd ha hb _) rfl⟩
  case immediate =>
    intro s k x d imm hi hp hd
    have hli : ∀ (c : Instr) (op : Op2), seharCommand c = some (k, longForm, fun x => x.runLi (0#2 ++ d) imm op) →
        exec c s = .next (s.ran k longForm x (x.finish (x.regAddr d.toNat) (op (x.reg d.toNat) imm x.here.flags))) :=
      fun c op hc => hi.runs hc (Core.runLi_register hp hd imm op) rfl
    exact ⟨hli _ _ rfl, hli _ _ rfl, hli _ _ rfl, hli _ _ rfl, hli _ _ rfl,
      hi.runs rfl (Core.runStore_register hd _) rfl, hi.runs rfl (Core.runLiFlags_register hp hd _ _) rfl,
      hi.runs rfl (Core.runLiFlags_register hp hd _ _) rfl⟩
  case status =>
    intro s k x d hi hp hd
    exact ⟨hi.runs rfl (Core.runStore_register hd _) rfl, hi.runs rfl (Core.runStore_register hd _) rfl,
      hi.runs rfl (Core.runStore_register hd _) rfl, hi.runs rfl (Core.moveTo_register hp hd _ _) rfl⟩
  case privileged =>
    intro s k x d hi hp
    have hd := Core.mayReach_supervisor (hi.supervisor_of_privileged rfl) (x.regAddr d.toNat)
    exact ⟨hi.runs rfl (Core.moveTo_register hp hd _ _) rfl, hi.runs rfl (Core.moveTo_register hp hd _ _) rfl⟩
  case out =>
    intro s k x d port hi hp
    have hd := Core.mayReach_supervisor (hi.supervisor_of_io rfl) (x.regAddr d.toNat)
    exact hi.runs rfl (Core.outPort_register hp hd _) rfl
  case outx =>
    intro s k x d n hi hp
    have hd := Core.mayReach_supervisor (hi.supervisor_of_io rfl) (x.regAddr d.toNat)
    refine hi.runs rfl ?_ rfl
    simp only [Core.sense_of_sound hp]
    exact Core.outPort_register hp hd _
  case completes =>
    intro s c k fm f x hc hi hs hp hd
    obtain ⟨y, hy, hn⟩ := seharCommand_completes hs hp hc hd
    exact ⟨y, hi.runs hc hy hn⟩
  case encodings => decide
  case pointed =>
    intro x n hp hn hv
    exact ⟨Core.operand_pointed hp hn hv, Core.operand_incremented hp hn hv⟩
  case noted =>
    intro fm x y a hi hn
    have hwords : ((List.range fm.len).map fun i => x.here.pc + BitVec.ofNat 16 i).find?
        (fun a => decide (a.toNat ∈ x.iParity)) = none := List.find?_eq_none.mpr (by simp [hi])
    simp only [Form.parity, hwords, hn]
    rfl
  case computed =>
    intro x d a b op hs hp
    exact Core.runLa_registers hp (Core.mayReach_supervisor hs _) (Core.mayReach_supervisor hs _)
      (Core.mayReach_supervisor hs _) op
  case computedShort =>
    intro x d n op hs hp
    exact Core.runSa_registers hp (Core.mayReach_supervisor hs _) (Core.mayReach_supervisor hs _) op
  case superseded =>
    intro x a c
    exact ⟨by rw [Core.ctx_supersede]; rfl, rfl, rfl⟩
  case updated =>
    intro x a v
    refine ⟨by simp [Core.dread_putNow], fun d => Core.delayed_putNow x a v, fun b hb => ?_⟩
    rw [Core.dread_putNow, if_neg hb]

end Sys2Proof.Machine

/-! PROOFS. The packed decimals of the Sehar cores (O51). -/

namespace Sys2Proof.Machine

/-! ### Packed decimal (R465 to R470) -/

section
variable {a b : Word}

/-- A digit of a word that is given by its value. -/
theorem digit_ofNat {x : Nat} (h : x < 65536) (i : Nat) : digit (BitVec.ofNat 16 x) i = x / 16 ^ i % 16 := by
  rw [digit, BitVec.toNat_ofNat, Nat.mod_eq_of_lt h]

theorem isDecimal_iff : isDecimal a = true ↔ digit a 0 < 10 ∧ digit a 1 < 10 ∧ digit a 2 < 10 ∧ digit a 3 < 10 := by
  simp only [isDecimal, Bool.and_eq_true, decide_eq_true_eq, and_assoc]

theorem decValue_le (h : isDecimal a = true) : decValue a ≤ 9999 := by
  obtain ⟨h0, h1, h2, h3⟩ := isDecimal_iff.mp h
  unfold decValue
  omega

/-- The digits of a word that is made of them. -/
theorem digit_digits {c0 c1 c2 c3 : Nat} (h0 : c0 < 16) (h1 : c1 < 16) (h2 : c2 < 16) (h3 : c3 < 16) {w : Word}
    (hw : w = BitVec.ofNat 16 (c0 + 16 * c1 + 256 * c2 + 4096 * c3)) :
    digit w 0 = c0 ∧ digit w 1 = c1 ∧ digit w 2 = c2 ∧ digit w 3 = c3 := by
  simp only [hw, digit_ofNat (show c0 + 16 * c1 + 256 * c2 + 4096 * c3 < 65536 by omega), Nat.reducePow]
  omega

/-- A word is made of its digits. -/
theorem toNat_digits (a : Word) : a.toNat = digit a 0 + 16 * digit a 1 + 256 * digit a 2 + 4096 * digit a 3 := by
  have ha := a.isLt
  simp only [digit, Nat.reducePow]
  omega

theorem digit_toDecimal (n : Nat) : digit (toDecimal n) 0 = n % 10 ∧ digit (toDecimal n) 1 = n / 10 % 10 ∧
    digit (toDecimal n) 2 = n / 100 % 10 ∧ digit (toDecimal n) 3 = n / 1000 % 10 :=
  digit_digits (by omega) (by omega) (by omega) (by omega) rfl

theorem isDecimal_toDecimal (n : Nat) : isDecimal (toDecimal n) = true := by
  obtain ⟨h0, h1, h2, h3⟩ := digit_toDecimal n
  exact isDecimal_iff.mpr (by omega)

theorem decValue_toDecimal (n : Nat) : decValue (toDecimal n) = n % 10000 := by
  obtain ⟨h0, h1, h2, h3⟩ := digit_toDecimal n
  unfold decValue
  omega

theorem flagBit_decide (p : Prop) [Decidable p] : flagBit (decide p) = if p then 1 else 0 := by
  by_cases h : p <;> simp [flagBit, h]

variable {k : Nat} {sticky : Bool} (f : Flags)

theorem dAddWith_eq (ha : isDecimal a = true) (hb : isDecimal b = true) : dAddWith k sticky a b f =
    some (decimal (toDecimal ((decValue a + decValue b + k) % 10000)) sticky (10000 ≤ decValue a + decValue b + k)
      (10 ≤ digit a 0 + digit b 0 + k) f) := by
  simp [dAddWith, ha, hb]

theorem dSubWith_eq (ha : isDecimal a = true) (hb : isDecimal b = true) : dSubWith k sticky a b f =
    some (decimal (toDecimal ((decValue a + 10000 - decValue b - k) % 10000)) sticky (decValue b + k ≤ decValue a)
      (digit b 0 + k ≤ digit a 0) f) := by
  simp [dSubWith, ha, hb]

/-- A sum of decimals, whose carry counts 10,000. -/
theorem dAddWith_decimal (ha : isDecimal a = true) (hb : isDecimal b = true) (hk : k ≤ 1) :
    ∃ c, dAddWith k sticky a b f = some c ∧ isDecimal c.r = true ∧
      decValue c.r + 10000 * flagBit c.f.c = decValue a + decValue b + k ∧ c.f.n = false ∧ c.f.v = false ∧
      c.f.z = zFlag sticky c.r f ∧ c.f.h = decide (10 ≤ digit a 0 + digit b 0 + k) := by
  have hva := decValue_le ha
  have hvb := decValue_le hb
  refine ⟨_, dAddWith_eq f ha hb, isDecimal_toDecimal _, ?_, rfl, rfl, rfl, rfl⟩
  simp only [decimal, decValue_toDecimal, flagBit_decide]
  split <;> omega

/-- A difference of decimals, the ten's complement when it borrows. -/
theorem dSubWith_decimal (ha : isDecimal a = true) (hb : isDecimal b = true) (hk : k ≤ 1) :
    ∃ c, dSubWith k sticky a b f = some c ∧ isDecimal c.r = true ∧
      decValue c.r + decValue b + k + 10000 * flagBit c.f.c = decValue a + 10000 ∧ c.f.n = false ∧ c.f.v = false ∧
      c.f.z = zFlag sticky c.r f ∧ c.f.h = decide (digit b 0 + k ≤ digit a 0) := by
  have hva := decValue_le ha
  have hvb := decValue_le hb
  refine ⟨_, dSubWith_eq f ha hb, isDecimal_toDecimal _, ?_, rfl, rfl, rfl, rfl⟩
  simp only [decimal, decValue_toDecimal, flagBit_decide]
  split <;> omega

/-- A digit above 9 leaves an operation without a result. -/
theorem decOps_none (h : isDecimal a = false ∨ isDecimal b = false) : opDadd a b f = none ∧ opDadc a b f = none ∧
    opDsub a b f = none ∧ opDsbc a b f = none ∧ opDshl a b f = none := by
  have hand : (isDecimal a && isDecimal b) = false := by rwa [Bool.and_eq_false_iff]
  simp [opDadd, opDadc, opDsub, opDsbc, opDshl, dAddWith, dSubWith, hand]

/-- Four digits moved up by one, under the highest digit of the other word. -/
theorem opDshl_decimal (ha : isDecimal a = true) (hb : isDecimal b = true) : ∃ c, opDshl a b f = some c ∧
    c.r = (a &&& 0x0FFF) * 16 + b >>> 12 ∧ decValue c.r = decValue a % 1000 * 10 + decValue b / 1000 ∧
    c.f.c = decide (digit a 3 ≠ 0) ∧ c.f.n = false ∧ c.f.z = (c.r == 0) ∧ c.f.v = false ∧ c.f.h = f.h := by
  obtain ⟨ha0, ha1, ha2, ha3⟩ := isDecimal_iff.mp ha
  obtain ⟨hb0, hb1, hb2, hb3⟩ := isDecimal_iff.mp hb
  have hna := toNat_digits a
  have hnb := toNat_digits b
  have hshift : a.toNat % 4096 * 16 + b.toNat / 4096 =
      digit b 3 + 16 * digit a 0 + 256 * digit a 1 + 4096 * digit a 2 := by omega
  obtain ⟨h0, h1, h2, h3⟩ := digit_digits (by omega) (by omega) (by omega) (by omega) (congrArg (BitVec.ofNat 16) hshift)
  refine ⟨_, by rw [opDshl, ha, hb]; rfl, ?_, ?_, rfl, rfl, rfl, rfl, rfl⟩
  · have hmask : a.toNat &&& 4095 = a.toNat % 4096 := Nat.and_two_pow_sub_one_eq_mod a.toNat 12
    show BitVec.ofNat 16 _ = (a &&& BitVec.ofNat 16 4095) * BitVec.ofNat 16 16 + b >>> 12
    apply BitVec.eq_of_toNat_eq
    simp only [BitVec.toNat_ofNat, BitVec.toNat_add, BitVec.toNat_mul, BitVec.toNat_and, BitVec.toNat_ushiftRight,
      Nat.shiftRight_eq_div_pow, Nat.reducePow, Nat.reduceMod, hmask]
    omega
  · have hrest : decValue a % 1000 = digit a 0 + 10 * digit a 1 + 100 * digit a 2 := by
      unfold decValue
      omega
    have hfirst : decValue b / 1000 = digit b 3 := by
      unfold decValue
      omega
    rw [hrest, hfirst]
    simp only [decimal, decValue, h0, h1, h2, h3]
    omega

/-- A decimal product of one digit, with a decimal carry in and out. -/
theorem opDmd_decimal {d t : Word} (hd : isDecimal d = true) (ha : isDecimal a = true) (hm : digit t 0 < 10)
    (hc : digit t 3 < 10) : ∃ c w, opDmd d a t f = some (c, w) ∧
      decValue c.r + 10000 * digit w 3 = decValue d + decValue a * digit t 0 + digit t 3 ∧ isDecimal c.r = true ∧
      w.toNat % 4096 = t.toNat % 4096 ∧ c.f.z = (c.r == 0) ∧ c.f.c = decide (digit w 3 ≠ 0) ∧ c.f.h = c.f.c ∧
      c.f.n = false ∧ c.f.v = false := by
  have hvd := decValue_le hd
  have hprod : decValue a * digit t 0 ≤ 9999 * 9 := Nat.mul_le_mul (decValue_le ha) (by omega)
  obtain ⟨x, hx⟩ : ∃ x, x = decValue d + decValue a * digit t 0 + digit t 3 := ⟨_, rfl⟩
  have hlt : x / 10000 * 4096 + t.toNat % 4096 < 65536 := by omega
  have hw : digit (BitVec.ofNat 16 (x / 10000 * 4096 + t.toNat % 4096)) 3 = x / 10000 := by
    rw [digit_ofNat hlt]
    omega
  refine ⟨decimal (toDecimal (x % 10000)) false (x / 10000 ≠ 0) (x / 10000 ≠ 0) f,
    BitVec.ofNat 16 (x / 10000 * 4096 + t.toNat % 4096), ?_, ?_, isDecimal_toDecimal _, ?_, rfl, ?_, rfl, rfl, rfl⟩
  · simp [opDmd, hd, ha, hm, hc, ← hx]
  · rw [hw, ← hx]
    simp only [decimal, decValue_toDecimal]
    omega
  · rw [BitVec.toNat_ofNat]
    omega
  · rw [hw]
    rfl

theorem opDmd_none {d t : Word} (h : isDecimal d = false ∨ isDecimal a = false ∨ 10 ≤ digit t 0 ∨ 10 ≤ digit t 3) :
    opDmd d a t f = none := by
  have hand : (isDecimal d && isDecimal a && decide (digit t 0 < 10) && decide (digit t 3 < 10)) = false := by
    simp only [Bool.and_eq_false_iff, decide_eq_false_iff_not, Nat.not_lt]
    tauto
  simp [opDmd, hand]

/-- A word in decimal: four digits and a fifth. -/
theorem opCvbd_decimal (a : Word) : decValue (opCvbd a f).1.r + 10000 * (opCvbd a f).2.toNat = a.toNat ∧
    isDecimal (opCvbd a f).1.r = true ∧ (opCvbd a f).2.toNat ≤ 6 ∧ (opCvbd a f).1.f.z = (a == 0) ∧
    (opCvbd a f).1.f.c = decide ((opCvbd a f).2 ≠ 0) ∧ (opCvbd a f).1.f.n = false ∧ (opCvbd a f).1.f.v = false ∧
    (opCvbd a f).1.f.h = f.h := by
  have hlt := a.isLt
  have hhigh : (opCvbd a f).2.toNat = a.toNat / 10000 := by
    rw [opCvbd, BitVec.toNat_ofNat]
    omega
  refine ⟨?_, isDecimal_toDecimal _, by omega, rfl, ?_, rfl, rfl, rfl⟩
  · rw [hhigh]
    simp only [opCvbd, decValue_toDecimal]
    omega
  · show decide (a.toNat / 10000 ≠ 0) = _
    rw [← hhigh, decide_eq_decide, ne_eq, ne_eq, ← BitVec.toNat_inj]
    rfl

theorem opCvdb_decimal (h : isDecimal a = true) : ∃ c, opCvdb a f = some c ∧ c.r.toNat = decValue a ∧
    decValue a ≤ 9999 ∧ c.f.z = (c.r == 0) ∧ c.f.n = false ∧ c.f.c = false ∧ c.f.v = false ∧ c.f.h = f.h := by
  have hv := decValue_le h
  refine ⟨_, by rw [opCvdb, h]; rfl, ?_, hv, rfl, rfl, rfl, rfl, rfl⟩
  rw [BitVec.toNat_ofNat]
  omega

theorem opCvdb_none (h : isDecimal a = false) : opCvdb a f = none := by simp [opCvdb, h]

end

/-! ### Decimal instructions on registers -/

section
variable {s : State} {k : Nat} {fm : Form} {x : Core} {d a b : BitVec 6} {op : DecOp} {c : Instr} {r : Calc}

theorem Issues.runsDecimal (hi : Issues s k fm x) (hp : x.dParity = []) (hd : x.mayReach (x.regAddr d.toNat) = true)
    (ha : x.mayReach (x.regAddr a.toNat) = true) (hb : x.mayReach (x.regAddr b.toNat) = true)
    (hc : seharCommand c = some (k, fm, fun x => x.runDec (0#2 ++ d) (0#2 ++ a) (0#2 ++ b) op))
    (hr : op (x.reg a.toNat) (x.reg b.toNat) x.here.flags = some r) :
    exec c s = .next (s.ran k fm x (x.finish (x.regAddr d.toNat) r)) := by
  refine hi.runs hc ?_ rfl
  rw [Core.runDec_registers hp hd ha hb, hr]
  rfl

theorem Issues.raisesDecimal (hi : Issues s k fm x) (hp : x.dParity = []) (hd : x.mayReach (x.regAddr d.toNat) = true)
    (ha : x.mayReach (x.regAddr a.toNat) = true) (hb : x.mayReach (x.regAddr b.toNat) = true)
    (hc : seharCommand c = some (k, fm, fun x => x.runDec (0#2 ++ d) (0#2 ++ a) (0#2 ++ b) op))
    (hr : op (x.reg a.toNat) (x.reg b.toNat) x.here.flags = none) :
    exec c s = .next ((s.settle k).raise k x.cur { cause := 0x06 }) := by
  refine exec_raises hc hi ?_
  rw [Core.runDec_registers hp hd ha hb, hr]
  rfl

end

/-- Settles O51: values of packed decimals are sums of their digits, by which every rule is linear arithmetic. -/
theorem decimalsFollowTheRules : Obligations.DecimalsFollowTheRules := by
  unfold Obligations.DecimalsFollowTheRules
  refine ⟨?values, fun a b f ha hb => dAddWith_decimal f ha hb (Nat.zero_le 1),
    fun a b f ha hb => dAddWith_decimal f ha hb (flagBit_le f.c),
    fun a b f ha hb => dSubWith_decimal f ha hb (Nat.zero_le 1),
    fun a b f ha hb => dSubWith_decimal f ha hb (Nat.sub_le 1 _), fun a b f => decOps_none f,
    fun a b f => opDshl_decimal f, fun a f => ⟨rfl, rfl, rfl, rfl, rfl, rfl⟩, fun f => ⟨rfl, rfl, rfl⟩,
    fun d a t f => opDmd_decimal f, fun d a t f => opDmd_none f, fun a f => opCvbd_decimal f a,
    fun a f => opCvdb_decimal f, fun a f => opCvdb_none f, ?decimal, ?invalid, ?adjust, ?multiply, ?convert⟩
  case values =>
    intro n hn
    exact ⟨by rw [decValue_toDecimal, Nat.mod_eq_of_lt hn], isDecimal_toDecimal n⟩
  case decimal =>
    intro s k x d a b hi hp hd ha hb hda hdb
    have hrun : ∀ {c : Instr} {op : DecOp} {P : Calc → Prop},
        (∃ r, op (x.reg a.toNat) (x.reg b.toNat) x.here.flags = some r ∧ P r) →
        seharCommand c = some (k, longForm, fun x => x.runDec (0#2 ++ d) (0#2 ++ a) (0#2 ++ b) op) →
        ∃ r, op (x.reg a.toNat) (x.reg b.toNat) x.here.flags = some r ∧
          exec c s = .next (s.ran k longForm x (x.finish (x.regAddr d.toNat) r)) :=
      fun ⟨r, hr, _⟩ hc => ⟨r, hr, hi.runsDecimal hp hd ha hb hc hr⟩
    refine ⟨hrun (dAddWith_decimal _ hda hdb (Nat.zero_le 1)) rfl, hrun (dAddWith_decimal _ hda hdb (flagBit_le _)) rfl,
      hrun (dSubWith_decimal _ hda hdb (Nat.zero_le 1)) rfl, hrun (dSubWith_decimal _ hda hdb (Nat.sub_le 1 _)) rfl,
      hrun (opDshl_decimal _ hda hdb) rfl, ?_⟩
    obtain ⟨r, hr, -⟩ := dSubWith_decimal x.here.flags hda hdb (Nat.zero_le 1) (sticky := false)
    refine ⟨r, hr, hi.runs rfl ?_ rfl⟩
    rw [Core.runDecFlags_registers hp ha hb, opDsub, hr]
    rfl
  case invalid =>
    intro s k x d a b hi hp hd ha hb hda
    obtain ⟨h1, h2, h3, h4, h5⟩ := decOps_none (b := x.reg b.toNat) x.here.flags (Or.inl hda)
    exact ⟨hi.raisesDecimal hp hd ha hb rfl h1, hi.raisesDecimal hp hd ha hb rfl h2,
      hi.raisesDecimal hp hd ha hb rfl h3, hi.raisesDecimal hp hd ha hb rfl h4, hi.raisesDecimal hp hd ha hb rfl h5⟩
  case adjust =>
    intro s k x d a hi hp hd ha
    exact hi.runs rfl (Core.runOne_registers hp hd ha _) rfl
  case multiply =>
    intro s k x d a n hi hp hd ha hn hdd hda hm hc
    obtain ⟨r, w, hr, -⟩ := opDmd_decimal x.here.flags hdd hda hm hc
    exact ⟨r, w, hr, hi.runs rfl (Core.runDmd_registers hp hd ha hn hr) rfl⟩
  case convert =>
    intro s k x d a n hi hp hd ha hn
    refine ⟨hi.runs rfl (Core.runCvbd_registers hp hd ha hn) rfl, fun hda => ?_⟩
    obtain ⟨r, hr, -⟩ := opCvdb_decimal x.here.flags hda
    refine ⟨r, hr, hi.runs rfl ?_ rfl⟩
    rw [Core.runOne_registers hp hd ha, hr]
    rfl

end Sys2Proof.Machine

/-! PROOFS. Branches and repeats of the Sehar cores (O52). -/

namespace Sys2Proof.Machine

section
variable {s : State} {k c : Nat} {fm : Form} {x y : Core} {e : Exc}

/-! ### Branches (R455 to R459) -/

/-- The delay slot that a branch leaves: where the branch stands, where it goes, and whether the guess was wrong. -/
theorem Core.delay_branch (x : Core) (cond : BitVec 4) (annul link : Bool) (kind : BranchKind) (t : Word) :
    (x.branch cond annul link kind t).here.delay = some
      { branch := x.here.pc, target := t, taken := condHolds cond x.here.flags
        annulled := annul && !condHolds cond x.here.flags, linkReg := link
        mispredict := x.wrongGuess kind (cond = 0 || decide (2 ≤ x.counters.get (x.predictIndex x.here.pc) 1))
          (condHolds cond x.here.flags) t } := by
  simp only [Core.branch, Core.here_modHere]

theorem Core.returns_branch (x : Core) (cond : BitVec 4) (annul link : Bool) (kind : BranchKind) (t : Word) :
    (x.branch cond annul link kind t).returns = if kind = .viaLr then x.returns.tail else x.returns := by
  simp only [Core.branch]
  split_ifs <;> rfl

theorem condHolds_always (f : Flags) : condHolds 0#4 f = true := rfl

theorem Core.targetOf_register {n : BitVec 6} (hp : x.dParity = []) (hn : x.mayReach (x.regAddr n.toNat) = true)
    (hh : x.parityHit = none) : x.targetOf (.reg n) = .ok (x.reg n.toNat) := by
  simp [Core.targetOf, setWidth_register, Core.source_register hp hn, Core.checkParity, hh, bind, Except.bind]

/-- A branch that issues goes to its delay slot. -/
theorem Issues.branches {len : Nat} {res : Bool} (hi : Issues s k { len, slotOk := false, repeatable := false } x)
    (hres : res = false) {cond : BitVec 4} {annul link : Bool} {kind : BranchKind} {target : Core → Try Word} {a : Word}
    (ha : target x = .ok a) :
    s.seharBranch k len res cond annul link kind target = s.branched k len x (x.branch cond annul link kind a) := by
  subst hres
  rw [hi.seharBranch, ha]

/-- An instruction that issues has noted no word of wrong parity before its own. -/
theorem Issues.parityHit (hi : Issues s k fm x) : x.parityHit = none := by
  obtain ⟨-, -, -, -, -, -, -, hparity⟩ := hi
  simp only [Form.parity] at hparity
  split at hparity
  · exact absurd hparity (by simp)
  · simpa using hparity

/-! ### After a delay slot, and in a repeat (R455, R456, R459, R461) -/

theorem Core.goOn_slot {d : Delay} (h : x.here.delay = some d) (len n : Nat) :
    x.goOn x.cur len n = x.endSlot x.cur len n d := by
  have h' : (x.ctx x.cur).delay = some d := h
  simp only [Core.goOn, h']

/-- What a repetition makes of the context: one repetition fewer, or the next address after the last. -/
def Ctx.repeated (y : Ctx) (m len : Nat) : Ctx :=
  if m ≤ 1 then { y with rpt := none, rptFirst := false, pc := y.pc + BitVec.ofNat 16 len }
  else { y with rpt := some (m - 1), rptFirst := false }

theorem Core.goOn_repeat {m : Nat} (hd : x.here.delay = none) (hr : x.here.rpt = some m) (len n : Nat) :
    x.goOn x.cur len n = x.modHere fun y => y.repeated m len := by
  unfold Core.goOn
  extract_lets y
  split
  next d hd' => exact absurd (hd.symm.trans hd') (by simp)
  next m' hd' hr' =>
    obtain rfl : m = m' := Option.some.inj (hr.symm.trans hr')
    simp only [Core.modHere, Ctx.repeated]
    split <;> rfl
  next hr' => exact absurd (hr.symm.trans hr') (by simp)

theorem Core.endSlot_counts (x : Core) (c len n : Nat) (d : Delay) :
    (x.endSlot c len n d).cycle = x.cycle + (if d.mispredict then 3 else 0) ∧
    (x.endSlot c len n d).mispred = x.mispred + (if d.mispredict then 1 else 0) := by
  simp only [Core.endSlot]
  split_ifs <;> simp [Core.setCtx, Core.later]

theorem Core.endSlot_predicted {d : Delay} (hm : d.mispredict = false) (hl : d.linkReg = false) (len n : Nat) :
    x.endSlot x.cur len n d = x.modHere fun y =>
      { y with pc := if d.taken then d.target else y.pc + BitVec.ofNat 16 len, delay := none } := by
  simp only [Core.endSlot, hm, hl]
  rfl

theorem Core.endSlot_links {d : Delay} (hm : d.mispredict = false) (hl : d.linkReg = true) (len n : Nat) :
    (x.endSlot x.cur len n d).delayed =
      x.delayed ++ [{ due := n + 1, target := .lr x.cur, value := x.here.pc + BitVec.ofNat 16 len }] := by
  simp only [Core.endSlot, hm, hl]
  rfl

/-! ### After an instruction that sets the PC -/

/-- The cycles issued change nothing of a context but its watchdog. -/
theorem Ctx.burn_eq (z : Ctx) (n : Nat) : ∃ w m cs due,
    z.burn n = { z with wdog := w, wdogMore := m, wdogCycles := cs, wdogDue := due } := by
  simp only [Ctx.burn]
  split_ifs
  · exact ⟨z.wdog, z.wdogMore, z.wdogCycles, z.wdogDue, rfl⟩
  · exact ⟨0, 0, 0, true, rfl⟩
  · exact ⟨_, _, _, z.wdogDue, rfl⟩

theorem Core.here_spend (x : Core) (n : Nat) (user : Bool) : ∃ w m cs due,
    (x.spend x.cur n user).here = { x.here with wdog := w, wdogMore := m, wdogCycles := cs, wdogDue := due } := by
  cases user with
  | false => exact ⟨x.here.wdog, x.here.wdogMore, x.here.wdogCycles, x.here.wdogDue, rfl⟩
  | true =>
    obtain ⟨w, m, cs, due, h⟩ := Ctx.burn_eq x.here n
    refine ⟨w, m, cs, due, ?_⟩
    rw [← h]
    exact Core.ctx_setCtx { x with cycle := x.cycle + n } x.cur _

theorem Core.cur_spend (x : Core) (c n : Nat) (user : Bool) : (x.spend c n user).cur = x.cur := by
  cases user <;> rfl

/-- An instruction that has set its context as `y`: what is left of the state. -/
theorem State.jump_leaves (t : State) (hc : y.cur = c) (len cost n : Nat) (user : Bool) :
    let u := (t.setCore k y).afterEffect k c len cost n user .jump
    u.mem = t.mem ∧ (u.core k).cur = c ∧ ∃ w m cs due,
      (u.core k).here = { y.here with wdog := w, wdogMore := m, wdogCycles := cs, wdogDue := due } := by
  subst hc
  refine ⟨by simp [State.afterEffect], ?_, ?_⟩
  · simp [State.afterEffect, Core.cur_spend]
  · simp only [State.afterEffect, State.modCore, State.setCore_core_self]
    exact y.here_spend cost user

/-! ### RPT (R461) -/

/-- RPT with a count captures it, and the next instruction repeats. -/
theorem Issues.repeats (hi : Issues s k { slotOk := false, repeatable := false } x) {d : BitVec 8} {imm : Word} {n : Nat}
    (hres : rptReserved d imm = false) (hn : x.rptCount d imm = .ok n) :
    ∃ t : State, exec (.sRpt k d imm) s = .next t ∧ (t.core k).cur = x.cur ∧ (t.core k).here.rpt = some n ∧
      (t.core k).here.pc = x.here.pc + 2 ∧ t.mem = (s.settle k).mem := by
  obtain ⟨-, -, -, hx, -⟩ := id hi
  have hrun : exec (.sRpt k d imm) s = .next (((s.settle k).setCore k
      (x.modHere fun y => { y with pc := y.pc + 2, rpt := some n, rptFirst := true })).afterEffect k x.cur 2 1 x.cycle
      (!x.here.s) .jump) := by
    rw [exec_sRpt, execSRpt, hres, hi.attempt_ok (t := (s.settle k).setCore k
      (x.modHere fun y => { y with pc := y.pc + 2, rpt := some n, rptFirst := true })) (a := .jump)
      (by simp only [hx, hn]; rfl) (State.setCore_sameHits (by rw [hx]; rfl))]
  obtain ⟨hmem, hcur, w, m, cs, due, hhere⟩ := State.jump_leaves (k := k) (s.settle k)
    (y := x.modHere fun y => { y with pc := y.pc + 2, rpt := some n, rptFirst := true }) (c := x.cur) rfl 2 1 x.cycle
    (!x.here.s)
  refine ⟨_, hrun, hcur, ?_, ?_, hmem⟩
  · rw [hhere, Core.here_modHere]
  · rw [hhere, Core.here_modHere]

theorem Core.rptCount_immediate {imm : Word} (h : imm ≠ 0) (d : BitVec 8) : x.rptCount d imm = .ok imm.toNat :=
  if_pos h

theorem Core.rptCount_register {n : BitVec 6} (hp : x.dParity = []) (hh : x.parityHit = none)
    (hn : x.mayReach (x.regAddr n.toNat) = true) (h0 : x.reg n.toNat ≠ 0) (h : (x.reg n.toNat).toNat ≤ 4096) :
    x.rptCount (0#2 ++ n) 0 = .ok (x.reg n.toNat).toNat := by
  have hok : (decide (x.reg n.toNat = 0) || decide (4096 < (x.reg n.toNat).toNat)) = false := by
    rw [decide_eq_false h0, decide_eq_false (Nat.not_lt.mpr h)]
    rfl
  simp only [Core.rptCount, Core.source_register hp hn, bind, Except.bind, hok, Core.checkParity, hh]
  rfl

/-- The condition codes are pairs of opposites, but for ALWAYS and the half carry (R449). -/
theorem condHolds_opposite (f : Flags) {c : BitVec 4} (h : c.toNat = 1 ∨ c.toNat = 3 ∨ c.toNat = 5 ∨ c.toNat = 7 ∨
    c.toNat = 9 ∨ c.toNat = 11 ∨ c.toNat = 13) : condHolds c f = !condHolds (c + 1) f := by
  have heq : ∀ {v : BitVec 4}, c.toNat = v.toNat → c = v := BitVec.eq_of_toNat_eq
  obtain ⟨n, z, cf, v, hf⟩ := f
  revert n z cf v hf
  rcases h with h | h | h | h | h | h | h
  · rw [heq (v := 1) h]; decide
  · rw [heq (v := 3) h]; decide
  · rw [heq (v := 5) h]; decide
  · rw [heq (v := 7) h]; decide
  · rw [heq (v := 9) h]; decide
  · rw [heq (v := 11) h]; decide
  · rw [heq (v := 13) h]; decide

/-- Settles O52: a branch's delay slot is one record, and what follows it is read off it. -/
theorem branchesAndRepeatsRun : Obligations.BranchesAndRepeatsRun := by
  unfold Obligations.BranchesAndRepeatsRun
  refine ⟨fun s k x cond annul disp hi => congrArg Host.Outcome.next (hi.branches rfl rfl), ?branches,
    fun x cond annul link kind t => ⟨_, x.delay_branch cond annul link kind t, rfl, rfl, rfl, rfl, rfl⟩, ?slot, ?counts,
    Core.returns_branch, ?unpredicted, ?predicted, ?links, ?immediate, ?register, ?again, ?last, ?opposites⟩
  case branches =>
    intro s k x cond annul hi
    refine ⟨fun t => congrArg Host.Outcome.next (hi.branches rfl rfl),
      fun t => congrArg Host.Outcome.next (hi.branches rfl rfl), fun n hn hp => ?_,
      congrArg Host.Outcome.next (hi.branches rfl rfl), congrArg Host.Outcome.next (hi.branches rfl rfl),
      fun t => congrArg Host.Outcome.next (hi.branches rfl rfl),
      fun t => congrArg Host.Outcome.next (hi.branches rfl rfl)⟩
    have ht := Core.targetOf_register hp hn hi.parityHit
    exact ⟨congrArg Host.Outcome.next (hi.branches rfl ht), congrArg Host.Outcome.next (hi.branches rfl ht)⟩
  case slot =>
    intro x len n d hd hm hl
    rw [Core.goOn_slot hd, Core.endSlot_predicted hm hl]
  case counts =>
    intro x len n d hd
    rw [Core.goOn_slot hd]
    exact x.endSlot_counts x.cur len n d
  case unpredicted =>
    intro x cond annul link t hempty
    refine ⟨_, x.delay_branch cond annul link .viaLr t, ?_⟩
    simp [Core.wrongGuess, hempty]
  case predicted =>
    intro x annul link t htop
    refine ⟨_, x.delay_branch 0 annul link .viaLr t, ?_⟩
    have hsome : x.returns ≠ [] := by
      rintro h
      simp [h] at htop
    simp [Core.wrongGuess, condHolds_always, htop, hsome]
  case links =>
    intro x len n d hd hm hl
    rw [Core.goOn_slot hd, Core.endSlot_links hm hl]
  case immediate =>
    intro s k x imm h0 hle hi
    have hres : rptReserved 0 imm = false := by
      rw [rptReserved, if_neg h0, decide_eq_false (Nat.not_lt.mpr hle)]
      rfl
    exact hi.repeats hres (Core.rptCount_immediate h0 0)
  case register =>
    intro s k x n hi hp hn h0 hle
    have hres : rptReserved (0#2 ++ n) 0 = false := by
      have := n.isLt
      simp only [rptReserved, if_true, toNat_spec, decide_eq_false_iff_not]
      simp
      omega
    obtain ⟨t, ht, -, hrest⟩ := hi.repeats hres (Core.rptCount_register hp hi.parityHit hn h0 hle)
    exact ⟨t, ht, hrest⟩
  case again =>
    intro x len n m hd hr hm
    simp only [Core.goOn_repeat hd hr, Ctx.repeated, if_neg (Nat.not_le.mpr hm)]
  case last =>
    intro x len n m hd hr hm
    simp only [Core.goOn_repeat hd hr, Ctx.repeated, if_pos hm]
  case opposites =>
    intro f c hc
    exact condHolds_opposite f hc

end

end Sys2Proof.Machine

/-! PROOFS. Exceptions of the Sehar cores (O53). -/

namespace Sys2Proof.Machine

section
variable {s : State} {k c : Nat} {fm : Form} {x y : Core} {e : Exc} {z : Ctx}

/-! ### Entry (R486, R489) -/

theorem State.raise_enters (hexl : ((s.core k).ctx c).exl = false) (hleg : s.execLeg k c = none) (e : Exc) :
    s.raise k c e =
      s.modCore k fun x => { (x.dropSw c).setCtx c ((x.ctx c).enter e) with cycle := x.cycle + 8 } := by
  simp only [State.raise, hexl, hleg, Bool.false_eq_true, if_false]
  split
  next heq => exact absurd heq (by simp)
  · rfl

theorem State.raise_doubles (hexl : ((s.core k).ctx c).exl = true) (e : Exc) : s.raise k c e = s.double k c e := by
  simp only [State.raise, hexl]
  rfl

/-! ### Return (R487) -/

/-- SW gives back the bits it was made of. -/
theorem Ctx.sw_bits (z : Ctx) : z.sw.getLsbD 15 = z.s ∧ z.sw.getLsbD 14 = z.ie ∧ z.sw.getLsbD 4 = z.n ∧
    z.sw.getLsbD 3 = z.z ∧ z.sw.getLsbD 2 = z.cf ∧ z.sw.getLsbD 1 = z.vf ∧ z.sw.getLsbD 0 = z.hf := by
  have hbits : ∀ s ie n z c v h : Bool,
      let w := BitVec.ofNat 16 (2 ^ 15 * flagBit s + 2 ^ 14 * flagBit ie + Flags.bits { n, z, c, v, h })
      w.getLsbD 15 = s ∧ w.getLsbD 14 = ie ∧ w.getLsbD 4 = n ∧ w.getLsbD 3 = z ∧ w.getLsbD 2 = c ∧
      w.getLsbD 1 = v ∧ w.getLsbD 0 = h := by decide
  exact hbits z.s z.ie z.n z.z z.cf z.vf z.hf

theorem Ctx.returned_enter (z : Ctx) (e : Exc) : (z.enter e).returned.pc = (z.delay.map (·.branch)).getD z.pc ∧
    (z.enter e).returned.wp = z.wp ∧ (z.enter e).returned.s = z.s ∧ (z.enter e).returned.ie = z.ie ∧
    (z.enter e).returned.flags = z.flags ∧ (z.enter e).returned.exl = false ∧ (z.enter e).returned.lr = z.lr := by
  obtain ⟨hs, hie, hn, hz, hc, hv, hh⟩ := z.sw_bits
  refine ⟨rfl, rfl, ?_, hie, ?_, rfl, rfl⟩
  · show (z.sw.getLsbD 15 && z.s) = z.s
    rw [hs, Bool.and_self]
  · show Flags.mk (z.sw.getLsbD 4) (z.sw.getLsbD 3) (z.sw.getLsbD 2) (z.sw.getLsbD 1) (z.sw.getLsbD 0) = z.flags
    rw [hn, hz, hc, hv, hh]
    rfl

theorem Ctx.returned_enter_rpt (z : Ctx) (e : Exc) : (z.enter e).returned.rpt =
    if z.rpt.isSome && decide ((z.rpt.map (BitVec.ofNat 13)).getD z.rc ≠ 0) then
      some ((z.rpt.map (BitVec.ofNat 13)).getD z.rc).toNat
    else none := rfl

/-! ### What raises, and what returns -/

theorem Issues.traps (hi : Issues s k { slotOk := false, repeatable := false } x) (code : BitVec 8) :
    exec (.sTrap k code) s = .next ((s.settle k).raise k x.cur { cause := 0x0D, detail := code.toNat }) := by
  rw [exec_sTrap, execSTrap, hi.attempt]

/-- In supervisor mode a reserved encoding is RESERVED-OPCODE, before anything else. -/
theorem execReservedEncoding_raises {w1 w2 : Word} (hk : k < 50) (hr : (s.core k).running = true)
    (hw : (s.core k).here.watchdogFirst = false) (ha : ((s.settle k).core k).here.inAnnulled = false)
    (hs : ((s.settle k).core k).here.s = true) (h : isReserved w1 w2 = true) :
    exec (.reservedEncoding k w1 w2) s = .next ((s.settle k).raise k ((s.settle k).core k).cur { cause := 0x01 }) := by
  have hcheck : ({ isReserved := true } : Form).check ((s.settle k).core k) k = some { cause := 0x01 } := by
    simp [Form.check, Ctx.badFetch, hs]
  simp [execReservedEncoding, h, State.attempt, hk, hr, hw, ha, hcheck]

theorem execWatchdog_raises (hk : k < 50) (hx : (s.settle k).core k = s.core k) (hr : (s.core k).running = true)
    (hw : (s.core k).here.watchdogFirst = true) :
    exec (.watchdog k) s = .next (((s.settle k).modCtx k (s.core k).cur fun y => { y with wdogDue := false }).raise k
      (s.core k).cur { cause := 0x0C }) := by
  simp [execWatchdog, hx, hk, hr, hw]

section
variable (hi : Issues s k { cost := 6, privileged := true, slotOk := false, repeatable := false } x)
include hi

theorem Issues.refusesReturn (hesw : x.here.esw.getLsbD 15 = true) (hpriv : x.here.epriv = false) :
    exec (.sRfe k) s = .next ((s.settle k).raise k x.cur { cause := 0x0A }) := by
  obtain ⟨-, -, -, hx, -⟩ := id hi
  rw [exec_sRfe, execSRfe, hi.attempt]
  simp [hx, hesw, hpriv]

theorem Issues.returns (h : x.here.esw.getLsbD 15 = false ∨ x.here.epriv = true) :
    exec (.sRfe k) s = .next (((s.settle k).setCore k ((x.dropSw x.cur).modHere Ctx.returned)).afterEffect k x.cur 2 6
      x.cycle (!x.here.s) .jump) := by
  obtain ⟨-, -, -, hx, -⟩ := id hi
  have hok : (x.here.esw.getLsbD 15 && !x.here.epriv) = false := by
    rcases h with h | h
    · rw [h, Bool.false_and]
    · rw [h, Bool.not_true, Bool.and_false]
  rw [exec_sRfe, execSRfe, hi.attempt_ok (t := (s.settle k).setCore k ((x.dropSw x.cur).modHere Ctx.returned))
    (a := .jump) (by simp only [hx, hok]; rfl) (State.setCore_sameHits (by rw [hx]; rfl))]

end

end

/-- Settles O53: an entry saves what RFE brings back, SW bit by bit. -/
theorem exceptionsEnterAndReturn : Obligations.ExceptionsEnterAndReturn := by
  unfold Obligations.ExceptionsEnterAndReturn
  refine ⟨fun s k c e hexl hleg => State.raise_enters hexl hleg e, fun y e hd => ?next, fun y e d hd => ?slot,
    fun y e => ⟨rfl, rfl, rfl, rfl, rfl, rfl, rfl, rfl, rfl, rfl, rfl, rfl⟩,
    fun s k c e hexl => State.raise_doubles hexl e, fun s k x code hi => hi.traps code,
    fun s k w1 w2 => execReservedEncoding_raises, fun s k => execWatchdog_raises, fun s k x hi h => ?returns,
    fun s k x => Issues.refusesReturn, fun y e hd hr => ?back, fun y e n hd hr hn hle => ?repeated⟩
  case next => simp [Ctx.enter, hd]
  case slot => simp [Ctx.enter, hd]
  case returns =>
    obtain ⟨hmem, hcur, w, m, cs, due, hhere⟩ := State.jump_leaves (k := k) (s.settle k)
      (y := (x.dropSw x.cur).modHere Ctx.returned) (c := x.cur) rfl 2 6 x.cycle (!x.here.s)
    have hreturned : ((x.dropSw x.cur).modHere Ctx.returned).here = x.here.returned := Core.here_modHere ..
    refine ⟨_, hi.returns h, hmem, hcur, ?_, ?_, ?_⟩
    all_goals rw [hhere, hreturned]; rfl
  case back =>
    obtain ⟨hpc, hwp, hs, hie, hflags, hexl, hlr⟩ := y.returned_enter e
    refine ⟨?_, hwp, hs, hie, hflags, hexl, ?_, hlr⟩
    · rw [hpc, hd]
      rfl
    · rw [Ctx.returned_enter_rpt, hr]
      rfl
  case repeated =>
    obtain ⟨hpc, -⟩ := y.returned_enter e
    have hcount : (BitVec.ofNat 13 n).toNat = n := by
      rw [BitVec.toNat_ofNat]
      omega
    have hsome : BitVec.ofNat 13 n ≠ 0 := by
      intro h
      rw [h] at hcount
      exact absurd hcount (by simp; omega)
    refine ⟨?_, by rw [hpc, hd]; rfl⟩
    rw [Ctx.returned_enter_rpt, hr]
    show (if true && decide (BitVec.ofNat 13 n ≠ 0) then some (BitVec.ofNat 13 n).toNat else none) = _
    rw [decide_eq_true hsome, hcount]
    rfl

end Sys2Proof.Machine

/-! PROOFS. A block move of no beats (O54). -/

namespace Sys2Proof.Machine

section
variable {s : State} {k c : Nat} {parity : Bool} {m : BlockMove} {rest : List BlockMove}

/-- Only the read of a move's place reaches buffer memory when BLOCK_MOVE_DONE performs a fill. -/
theorem State.doFill_mem (s : State) (k c : Nat) (m : BlockMove) :
    (s.doFill k c m).mem = (s.taken m.place (64 * m.beats)).mem := by
  simp [State.doFill, State.modCtx]

/-- BLOCK_MOVE_DONE of a fill leaves in buffer memory what the read of its place leaves there. -/
theorem execBlockMoveDone_fill_mem {t : State} (hm : ((s.core k).ctx c).moves = m :: rest) (hfill : m.drain = false)
    (hact : ∀ q, (s.quarter q).stack = .active) (h : exec (.blockMoveDone k c parity) s = .next t) :
    t.mem = (s.taken m.place (64 * m.beats)).mem := by
  have hreach : s.reach (m.place.quarters (64 * m.beats)) = (s, true) := State.reach_active fun q _ => hact q
  rw [exec_blockMoveDone, execBlockMoveDone] at h
  simp only [hm, hreach, hfill] at h
  obtain rfl := Host.Outcome.next.inj h
  rw [← State.doFill_mem s k c m]
  simp only [Bool.not_true, Bool.false_eq_true, if_false]
  split
  · rw [State.modCore_eq, State.setCore_mem, State.releaseAfter]
    rfl
  · rfl

theorem State.beatEvent_tells (s : State) (ev beat : Nat) : s.OnlyTells (s.beatEvent ev beat) := State.memoryEvent_tells ..

/-- A poisoned beat of a firmware region that a read meets while the boot timeline runs restarts the device, and buffer
memory is gone (R413, R564, R565). -/
theorem State.firmwareRead_boot {row addr n b : Nat} (hmode : s.mode = .boot row)
    (hb : s.poison.find? (fun b => inFirmware b && addr / 64 ≤ b && 64 * b < addr + n) = some b) :
    (s.firmwareRead addr n).mem = [] := by
  obtain ⟨_, _, _, _, _, _, _, _, htells⟩ := s.beatEvent_tells 0x04 b
  have hmode' : (s.beatEvent 0x04 b).mode = .boot row := by
    rw [htells]
    exact hmode
  simp only [State.firmwareRead, hb, State.startDevice, hmode']
  obtain ⟨_, _, _, _, _, _, _, _, _, _, hrestart⟩ := (s.beatEvent 0x04 b).restart_keeps 0x22 (.inr ⟨row, hmode'⟩)
  rw [hrestart]
  rfl

end

/-- A fill of no beats, from the middle of the first beat of a firmware region. -/
def emptyFill : BlockMove := { window := 0xC000, drain := false, tag := 0, beats := 0, addr := 0xB80000001, phys := true }

/-- The boot timeline runs; context 0 of core 0 has posted that move, and the beat is poisoned. -/
def emptyFillPosted : State :=
  { mode := .boot 0, mem := [(0, 0)], poison := [0x2E000000], cores := [(0, { ctxs := [(0, { moves := [emptyFill] })] })] }

/-- Performing the move reads the beat it starts in, though it has no byte of it, and the restart clears memory. -/
theorem emptyFillPosted_taken : (emptyFillPosted.taken emptyFill.place (64 * emptyFill.beats)).mem = [] := by
  have hmet : emptyFillPosted.met (emptyFill.place.touches 0) = emptyFillPosted :=
    State.met_none fun x hx => absurd hx (List.not_mem_nil)
  show ((emptyFillPosted.met (emptyFill.place.touches 0)).firmwareRead 0xB80000001 0).mem = []
  rw [hmet]
  exact State.firmwareRead_boot (row := 0) (b := 0x2E000000) rfl (by decide)

/-- Refutes O54: the clause on BLOCK_MOVE_DONE takes in a fill of no beats. Of such a move from the middle of a beat no
byte is marked, so the premise that none is poisoned holds; performing it still meets that beat's poison (R413), which
in a firmware region, while the boot timeline runs, restarts the device: memory does not stay as it was. A BMOV posts
moves of 1 to 128 beats, so no descriptor asks for this one. -/
theorem not_systemInstructionsRun : ¬ Obligations.SystemInstructionsRun := by
  unfold Obligations.SystemInstructionsRun
  rintro ⟨-, -, -, -, -, -, -, -, -, -, -, -, -, hdone, -⟩
  obtain ⟨t, ht, hmem, -⟩ := hdone emptyFillPosted 0 0 false emptyFill [] rfl rfl (by decide) (fun _ => rfl) rfl rfl rfl
  have hcleared := execBlockMoveDone_fill_mem (m := emptyFill) (rest := []) rfl rfl (fun _ => rfl) ht
  rw [emptyFillPosted_taken, hmem] at hcleared
  exact absurd hcleared (by decide)

end Sys2Proof.Machine

/-! PROOFS. Single accesses of a core, and stakes (O56). -/

namespace Sys2Proof.Machine

section
variable {s : State} {k c : Nat} {v : Word}

/-! ### The ports every core has (R437, R471) -/

theorem isFirmwarePort_low {port : Nat} (h : port < 0x100) : isFirmwarePort k port = false := by
  simp [isFirmwarePort, Nat.not_le.mpr (Nat.lt_trans h (by decide : 0x100 < 0x800))]

/-- Below 0x100 a port is the core's own, whatever the core. -/
theorem State.ioPeek_local {port : Nat} (h : port < 0x100) : s.ioPeek k c port = s.readLocal k c port := by
  simp only [State.ioPeek, isFirmwarePort_low h, State.readEngine, State.readSystem, h, if_true,
    Bool.false_eq_true, if_false]
  split_ifs with h1 h2
  · rfl
  · rw [h2]
  · rfl

theorem State.ioWrite_local {port : Nat} (h : port < 0x100) (v : Word) :
    s.ioWrite k c port v = s.writeLocal k c port v := by
  simp only [State.ioWrite, isFirmwarePort_low h, State.writeEngine, State.writeSystem, h, if_true,
    Bool.false_eq_true, if_false]
  split_ifs with h1 h2
  · rfl
  · rw [h2]
  · rfl

theorem State.mayAccess_user (h : (s.core k).here.s = false) : s.mayAccess k = false := by
  have h' : ((s.core k).ctx (s.core k).cur).s = false := h
  simp [State.mayAccess, h']

theorem State.wakeCtx_idle (h : ((s.core k).ctx c).suspended = some .idle) :
    s.wakeCtx k c = s.modCore k fun x => x.resume k c := if_pos h

theorem State.wakeCtx_running (h : ((s.core k).ctx c).suspended = none) : s.wakeCtx k c = s := by
  simp [State.wakeCtx, h]

theorem execSysWakeWrite_wakes (h : s.mayAccess k = true) (v : Word) :
    exec (.sysWakeWrite k v) s = .next (s.wakeCtx k (v.toNat % 32)) := by
  rw [exec_sysWakeWrite, execSysWakeWrite, if_pos h, State.ioWrite_local (by decide)]
  rfl

theorem execSysIdataAccess_stores (h : s.mayAccess k = true) (v : Word) :
    exec (.sysIdataAccess k (some v)) s = .next (s.writeIdata k (s.core k).cur (s.core k).cycle v) := by
  rw [exec_sysIdataAccess]
  simp only [execSysIdataAccess, h, State.ioWrite_local (show 0x046 < 0x100 by decide)]
  rfl

/-! ### Stakes (R502 to R505) -/

/-- A context that is suspended keeps why, whichever context the core passes to. -/
theorem Core.suspend_cur (x : Core) (k : Nat) (why : Suspend) : ((x.suspend k why).ctx x.cur).suspended = some why := by
  have hpass : ∀ y : Core, (y.pass k).ctxs = y.ctxs := by
    intro y
    unfold Core.pass
    split <;> rfl
  have hctxs : (x.suspend k why).ctxs = (x.modHere fun y => { y with suspended := some why }).ctxs := by
    unfold Core.suspend
    extract_lets y
    split <;> exact hpass _
  rw [Core.ctx, hctxs]
  exact congrArg Ctx.suspended (Core.here_modHere x fun y => { y with suspended := some why })

theorem State.settleIo_none (h : ∀ d ∈ (s.core k).delayed, ∀ port, d.target ≠ .io c port) : s.settleIo k c = s := by
  unfold State.settleIo
  refine if_neg ?_
  rw [List.any_eq_true]
  rintro ⟨d, hd, hio⟩
  have hne := h d hd
  split at hio
  next c' port htarget => exact hne port (by rw [htarget, of_decide_eq_true hio])
  next => exact absurd hio (by simp)

theorem State.settleIo_some {port : Nat} {d : Delayed} (hd : d ∈ (s.core k).delayed) (h : d.target = .io c port) :
    s.settleIo k c = s.settleAll k := by
  unfold State.settleIo
  refine if_pos (List.any_eq_true.mpr ⟨d, hd, ?_⟩)
  simp [h]

theorem Stake.acquire_free {x : Stake} (h : x.owner = none) (r : Nat) :
    x.acquire r = (BitVec.ofNat 16 (b2n x.stale * 2 ^ 14 + r), { x with owner := some r }) := by
  simp only [Stake.acquire, h]

theorem Stake.acquire_owned {x : Stake} {o : Nat} (h : x.owner = some o) (r : Nat) :
    x.acquire r = (BitVec.ofNat 16 ((if o = r then 3 else 2) * 2 ^ 14 + o), x) := by
  simp only [Stake.acquire, h]
  split
  next hr => rw [hr]
  next => rfl

theorem State.stake_setStake (s : State) (n : Nat) (x : Stake) : (s.setStake n x).stake n = x := Tab.get_set_self ..

/-- The answer of a bank changes no stake and no memory. -/
theorem State.answerStake_keeps (s : State) (r : Nat) (v : Word) :
    (s.answerStake r v).stakes = s.stakes ∧ (s.answerStake r v).mem = s.mem := by
  simp only [State.answerStake]
  split <;> exact ⟨rfl, rfl⟩

theorem State.applyRelease_owner {bank r n : Nat} (h : (s.stake n).owner = some r) :
    s.applyRelease bank (.release r n []) = s.setStake n {} := if_pos h

theorem State.applyRelease_other {bank r n : Nat} (h : (s.stake n).owner ≠ some r) :
    s.applyRelease bank (.release r n []) = s := if_neg h

theorem State.applyRead_free {r n : Nat} (h : (s.stake n).owner = none) : s.applyRead (.acquire r n) =
    (s.setStake n { s.stake n with owner := some r }).answerStake r
      (BitVec.ofNat 16 (b2n (s.stake n).stale * 2 ^ 14 + r)) := by
  simp only [State.applyRead, Stake.acquire_free h]

/-- A stake that its owner releases is granted to the next, unmarked. -/
theorem State.applyRelease_applyRead {bank q r n : Nat} (h : (s.stake n).owner = some q) :
    ∃ t, (s.applyRelease bank (.release q n [])).applyRead (.acquire r n) = t ∧ (t.stake n).owner = some r ∧
      (t.stake n).stale = false ∧ t.mem = s.mem := by
  have hfree := s.stake_setStake n {}
  refine ⟨_, by rw [State.applyRelease_owner h, State.applyRead_free (by rw [hfree]), hfree], ?_⟩
  obtain ⟨hstakes, hmem⟩ := ((s.setStake n {}).setStake n { owner := some r }).answerStake_keeps r
    (BitVec.ofNat 16 (b2n false * 2 ^ 14 + r))
  have hstake : (((s.setStake n {}).setStake n { owner := some r }).answerStake r
      (BitVec.ofNat 16 (b2n false * 2 ^ 14 + r))).stake n = { owner := some r } := by
    rw [State.stake, hstakes]
    exact State.stake_setStake ..
  exact ⟨by rw [hstake], by rw [hstake], hmem⟩

theorem execStakeBankCycle_asked {bank : Nat} {asks : List StakeAsk} (hb : bank < 5)
    (ha : s.stakeAsks.get bank [] = asks) (hne : asks ≠ []) :
    exec (.stakeBankCycle bank) s = .next (((asks.filter fun a => a.reader.isSome).foldr insertAsk []).foldl
      (fun (s : State) a => s.applyRead a)
      ((asks.filter fun a => a.reader.isNone).foldl (fun (s : State) a => s.applyRelease bank a)
        { s with stakeAsks := s.stakeAsks.set bank (asks.filter (·.waits)) })) := by
  simp [execStakeBankCycle, ha, hne, Nat.not_le.mpr hb]

end

/-- Settles O56: every access is one port below 0x100 or one request to a bank, and a bank cycle applies the releases
first. -/
theorem coreRegistersAndStakesAreAccessed : Obligations.CoreRegistersAndStakesAreAccessed := by
  unfold Obligations.CoreRegistersAndStakesAreAccessed
  refine ⟨?cycle, ?mispred, ?fetch, ?store, ?wake, ?awake, ?user, ?ask, fun s k c => State.settleIo_none,
    fun s k c port d => State.settleIo_some, ?acquire, ?free, ?owned, fun x => rfl,
    fun s bank r n => State.applyRelease_owner, fun s bank r n => State.applyRelease_other, ?bank, ?release⟩
  case cycle =>
    intro s k h
    rw [exec_sysCycleLoRead, execSysCycleLoRead, if_pos h, State.ioPeek_local (by decide)]
    rfl
  case mispred =>
    intro s k h
    rw [exec_sysCycleLoRead, execSysCycleLoRead, if_pos h, State.ioPeek_local (by decide)]
    rfl
  case fetch =>
    intro s k h
    rw [exec_sysIdataAccess]
    simp only [execSysIdataAccess, h, State.ioPeek_local (show 0x046 < 0x100 by decide)]
    rfl
  case store =>
    intro s k v h
    refine ⟨_, execSysIdataAccess_stores h v, ?_, ?_, rfl⟩
    · simp [State.writeIdata, State.modCtx, Core.here, Core.later, Core.setCtx, Core.ctx]
    · simp [State.writeIdata, State.modCtx, Core.here, Core.later, Core.setCtx, Core.ctx]
  case wake =>
    intro s k v h hidle
    rw [execSysWakeWrite_wakes h, State.wakeCtx_idle hidle]
  case awake =>
    intro s k v h hrun
    rw [execSysWakeWrite_wakes h, State.wakeCtx_running hrun]
  case user =>
    intro s k v h
    have hno := State.mayAccess_user h
    refine ⟨?_, ?_, ?_⟩
    · rw [exec_sysWakeWrite, execSysWakeWrite, if_neg (by simp [hno])]
    · rw [exec_sysIdataAccess]
      simp [execSysIdataAccess, hno]
    · rw [exec_sysCycleLoRead, execSysCycleLoRead, if_neg (by simp [hno])]
  case ask =>
    intro s k hk h
    have hmay : (decide (k < 49) && s.mayAccess k) = true := by simp [hk, h]
    refine ⟨?_, ?_, ?_⟩
    · rw [exec_stakeAcquireRead, execStakeAcquireRead, if_pos hmay]
    · rw [exec_stakePeekRead, execStakePeekRead, if_pos hmay]
    · rw [exec_stakeReleaseWrite, execStakeReleaseWrite]
      simp only [hmay, if_true]
  case acquire =>
    intro s k hk
    refine ⟨.stake true none, rfl, ?_, rfl⟩
    rw [State.readStake]
    simp only [State.setCore_core_self]
    exact Core.suspend_cur ..
  case free =>
    intro x r h
    rw [Stake.acquire_free h]
    exact ⟨rfl, rfl⟩
  case owned =>
    intro x r o h
    rw [Stake.acquire_owned h]
    exact ⟨rfl, rfl⟩
  case bank =>
    intro s bank r n hb ha
    rw [execStakeBankCycle_asked hb ha (by simp)]
    rfl
  case release =>
    intro s bank q r n hb hqr hq ha
    obtain ⟨t, ht, hgranted⟩ := State.applyRelease_applyRead (s := { s with stakeAsks := s.stakeAsks.set bank [] })
      (bank := bank) (r := r) hq
    refine ⟨t, ?_, hgranted⟩
    rw [execStakeBankCycle_asked hb ha (by simp), ← ht]
    rfl

end Sys2Proof.Machine

/-! PROOFS. Cold reset, power, clocks and temperatures (O3, O59). -/

namespace Sys2Proof.Machine

section
variable {s : State} {m : DeviceMode}

/-! ### Device events (R567) -/

theorem State.deviceEvent_mode (s : State) (typ cause bits detail : Nat) :
    (s.deviceEvent typ cause bits detail).mode = s.mode := rfl

theorem State.deviceEvent_flash (s : State) (typ cause bits detail : Nat) :
    (s.deviceEvent typ cause bits detail).flash = s.flash := rfl

theorem State.deviceEvent_mem (s : State) (typ cause bits detail : Nat) :
    (s.deviceEvent typ cause bits detail).mem = s.mem := rfl

/-- An event raises an interrupt of the system controller, and changes no core otherwise. -/
theorem State.deviceEvent_inReset (s : State) (typ cause bits detail k : Nat) :
    ((s.deviceEvent typ cause bits detail).core k).inReset = (s.core k).inReset := by
  simp only [State.deviceEvent, State.toDevice, State.irq, State.modCore_eq, State.setCore_core]
  split
  next h => simp [h]
  next => simp

/-! ### Cold reset (R546 to R549) -/

theorem State.cold_port (s : State) (m : DeviceMode) (p : Nat) : (s.cold m).port p = (s.port p).cold :=
  Tab.get_mapVals s.ports Port.cold p {}

/-- Straps that were sampled without a fault leave nothing to record. -/
theorem State.recordStraps_sound (h0 : s.bif0 ≠ some 3#2) (h1 : s.bif1 ≠ some 3#2) : s.recordStraps = s := by
  have h0' : ¬ s.bif0 = some 3 := h0
  unfold State.recordStraps
  rw [if_neg h0']
  exact if_neg h1

theorem State.recordStraps_keeps (s : State) : s.recordStraps.flash = s.flash ∧ s.recordStraps.mem = s.mem := by
  have hfault : ∀ (t : State) (c : Nat), (t.strapFault c).flash = t.flash ∧ (t.strapFault c).mem = t.mem :=
    fun t c => ⟨rfl, rfl⟩
  unfold State.recordStraps
  extract_lets t
  have ht : t.flash = s.flash ∧ t.mem = s.mem := by
    unfold t
    split
    · exact hfault s 0
    · exact ⟨rfl, rfl⟩
  split
  · exact ⟨(hfault t 1).1.trans ht.1, (hfault t 1).2.trans ht.2⟩
  · exact ht

section
variable (sel : BitVec 4) (smb : BitVec 2)

/-- The state as the straps are sampled and the boot timeline starts (R546, R588). -/
def State.straps (s : State) : State := { s with
  mode := .boot 0, thermTrip := false, waitClock := !s.devClk, adminSel := sel, manage := { s.manage with smbAddr := smb } }

theorem execCxRstNDeassert_starts (hm : s.mode = .reset) (hr : s.railsValid = true) (hh : s.tooHot = false)
    (rcvy : Bool) : exec (.cxRstNDeassert sel smb rcvy) s = .next (if rcvy then
      ((s.straps sel smb).recordStraps.modCore 48 fun x => { x with inReset := false }).readSfdp.enterRecovery 1
      else (s.straps sel smb).recordStraps) := by
  have hheld : ¬(decide (s.mode ≠ .reset) || !s.railsValid) = true := by simp [hm, hr]
  rw [exec_cxRstNDeassert, execCxRstNDeassert, if_neg hheld, if_neg (by simp [hh])]
  rfl

end

/-- The device as its rails fail (R520, R584). -/
def State.railsLost (s : State) : State := { s.cold .off with
  railsValid := false, bif0 := none, bif1 := none, thermTrip := false, sensors := [], shelves := []
  ports := Tab.mapVals s.ports fun x => { perst := x.perst }, mon := { s.mon with rebase := true } }

/-! ### Clocks (R588) -/

theorem execDevRefclkLoss_restarting (h : s.restarting = true) (hclk : s.devClk = true) :
    exec .devRefclkLoss s = .next { ({ s with devClk := false } : State).resetIslands with
      mode := .boot 0, waitClock := true } := by
  rw [exec_devRefclkLoss, execDevRefclkLoss, if_neg (by simp [hclk]), if_pos h]

/-- Wide ports whose lanes are all down do not notice that the clock is gone. -/
theorem execSasRefclkLoss_dark (hclk : s.sasClk = true) (h : ∀ c, c < 12 → (s.chain c).anyLane = false) :
    exec .sasRefclkLoss s = .next { s with sasClk := false } := by
  simp only [exec_sasRefclkLoss, execSasRefclkLoss, hclk]
  refine congrArg Host.Outcome.next ?_
  refine List.foldlRecOn (motive := fun t => t = { s with sasClk := false }) _ _ rfl ?_
  rintro t rfl c hc
  have hdark : (({ s with sasClk := false } : State).chain c).anyLane = false := h c (List.mem_range.mp hc)
  simp only [hdark]
  rfl

/-! ### Temperatures (R595, R596) -/

/-- The sensors once `n` readings of a list have been taken. -/
def takeReadings (temps : List Int) (now : Tab Int) (n : Nat) : Tab Int :=
  (List.range n).foldl (fun (t : Tab Int) i => t.set (i + 1) (temps.getD i 0)) now

theorem takeReadings_succ (temps : List Int) (now : Tab Int) (n : Nat) :
    takeReadings temps now (n + 1) = (takeReadings temps now n).set (n + 1) (temps.getD n 0) := by
  simp [takeReadings, List.range_succ]

theorem takeReadings_get (temps : List Int) (now : Tab Int) (n i : Nat) :
    (takeReadings temps now n).get (i + 1) 0 = if i < n then temps.getD i 0 else now.get (i + 1) 0 := by
  induction n with
  | zero => rfl
  | succ n ih =>
    rw [takeReadings_succ, Tab.get_set, ih]
    by_cases h : i = n
    · simp [h]
    · have hlt : i < n + 1 ↔ i < n := by omega
      simp [h, hlt]

/-- The first reading taken stays. -/
theorem takeReadings_find (temps : List Int) (now : Tab Int) (n : Nat) :
    (takeReadings temps now (n + 1)).find 1 = some (temps.getD 0 0) := by
  induction n with
  | zero => simp [takeReadings]
  | succ n ih => rw [takeReadings_succ, Tab.find_set_other _ _ (by omega), ih]

/-- An entry of a table after a write is the one written, or one that was there. -/
theorem Tab.mem_set {α : Type} {t : Tab α} {k : Nat} {a : α} {e : Nat × α} (h : e ∈ t.set k a) :
    e = (k, a) ∨ e ∈ t := by
  induction t with
  | nil => exact .inl (List.mem_singleton.mp h)
  | cons x t ih =>
    obtain ⟨j, b⟩ := x
    simp only [Tab.set] at h
    split_ifs at h
    · exact List.mem_cons.mp h
    · exact (List.mem_cons.mp h).imp_right (List.mem_cons_of_mem _)
    · obtain rfl | h := List.mem_cons.mp h
      · exact .inr List.mem_cons_self
      · exact (ih h).imp_right (List.mem_cons_of_mem _)

theorem Tab.mem_of_find {α : Type} {t : Tab α} {k : Nat} {a : α} (h : t.find k = some a) : (k, a) ∈ t := by
  induction t with
  | nil => cases h
  | cons x t ih =>
    obtain ⟨j, b⟩ := x
    simp only [Tab.find] at h
    split_ifs at h with hj
    · rw [hj, Option.some.inj h]
      exact List.mem_cons_self
    · exact List.mem_cons_of_mem _ (ih h)

/-- A sensor reads what has been brought, or what it read. -/
theorem mem_takeReadings {temps : List Int} {now : Tab Int} {n : Nat} {e : Nat × Int} (hn : n ≤ temps.length)
    (h : e ∈ takeReadings temps now n) : e.2 ∈ temps ∨ e ∈ now := by
  induction n with
  | zero => exact .inr h
  | succ n ih =>
    rw [takeReadings_succ] at h
    obtain rfl | h := Tab.mem_set h
    · refine .inl ?_
      have hlt : n < temps.length := hn
      simp [hlt]
    · exact ih (Nat.le_of_succ_le hn) h

/-- No fatal threshold lies below 105 °C. -/
theorem fatalReading_cool {t : Int} (h : t < 105) (id : Nat) : fatalReading id t = false := by
  unfold fatalReading thresholds
  split_ifs <;> simp <;> omega

theorem fatalReading_first {t : Int} (h : 115 ≤ t) : fatalReading 1 t = true := by
  simp [fatalReading, thresholds, h]

theorem execSensorUpdate_eq (temps : List Int) (h : s.railsValid = true) : exec (.sensorUpdate temps) s = .next
    (let now := takeReadings temps s.sensors (Nat.min 10 temps.length)
     if s.thermTrip || !(now.any fun t => fatalReading t.1 t.2) then { s with sensors := now }
     else (if s.mode = .reset then { s with sensors := now, thermTrip := true }
      else ({ s with sensors := now, thermTrip := true } : State).cold .tripped).emit .thermTrip) := by
  simp only [exec_sensorUpdate, execSensorUpdate, h]
  rfl

/-! ### Island gating (R38) -/

/-- The engines of a party, gated one after another. -/
def State.gateEngines (s : State) (party n : Nat) : State :=
  (List.range n).foldl (fun (s : State) j => s.modCore (4 * party + j) fun x => { x with gated := true }) s

theorem State.gateEngines_succ (s : State) (party n : Nat) : s.gateEngines party (n + 1) =
    (s.gateEngines party n).modCore (4 * party + n) fun x => { x with gated := true } := by
  simp [State.gateEngines, List.range_succ]

theorem State.gateEngines_keeps (s : State) (party n : Nat) : (s.gateEngines party n).mem = s.mem ∧
    (∀ j, j < n → ((s.gateEngines party n).core (4 * party + j)).gated = true) ∧
    ∀ k, (k < 4 * party ∨ 4 * party + n ≤ k) → (s.gateEngines party n).core k = s.core k := by
  induction n with
  | zero => exact ⟨rfl, fun j hj => absurd hj (Nat.not_lt_zero j), fun k _ => rfl⟩
  | succ n ih =>
    obtain ⟨hmem, hin, hout⟩ := ih
    rw [State.gateEngines_succ, State.modCore_eq]
    refine ⟨hmem, fun j hj => ?_, fun k hk => ?_⟩
    · rw [State.setCore_core]
      split
      next => rfl
      next h => exact hin j (by omega)
    · rw [State.setCore_core, if_neg (by omega)]
      exact hout k (by omega)

end

/-- Settles O3: every record of the reset state is the one its reader names for an absent key. -/
theorem coldResetLeaves : Obligations.ColdResetLeaves :=
  ⟨rfl, rfl, rfl, rfl, rfl, fun _ => ⟨rfl, rfl, rfl, rfl, rfl⟩, fun _ _ => ⟨rfl, rfl⟩, fun _ => rfl,
    fun _ _ => ⟨rfl, rfl⟩, fun _ => rfl, fun _ => rfl⟩

/-- Settles O59: a reset builds its state field by field, and readings are taken one after another. -/
theorem powerAndClocksActOnTheDevice : Obligations.PowerAndClocksActOnTheDevice := by
  unfold Obligations.PowerAndClocksActOnTheDevice
  refine ⟨?assert, ?cold, ?deassert, ?recovery, ?hot, ?rails, ?fault, ?loss, ?again, fun s => rfl,
    fun s => execSasRefclkLoss_dark, fun s => rfl, ?cool, ?trip, ?gated, ?busy, ?chain⟩
  case assert =>
    intro s h
    simp only [exec_cxRstNAssert, execCxRstNAssert, h]
  case cold =>
    intro s m
    refine ⟨rfl, rfl, rfl, rfl, rfl, rfl, rfl, rfl, fun p => ?_⟩
    rw [State.cold_port]
    rfl
  case deassert =>
    intro s sel smb hm hr hh h0 h1
    rw [execCxRstNDeassert_starts sel smb hm hr hh, if_neg Bool.false_ne_true,
      State.recordStraps_sound (s := s.straps sel smb) h0 h1]
    rfl
  case recovery =>
    intro s sel smb hm hr hh
    obtain ⟨hflash, hmem⟩ := (s.straps sel smb).recordStraps_keeps
    obtain ⟨l, hl⟩ := ((s.straps sel smb).recordStraps.modCore 48 fun x => { x with inReset := false }).spi_eq
      [{ op := 0x5A, len := Config.sfdpLength }]
    refine ⟨_, execCxRstNDeassert_starts sel smb hm hr hh true, ?_, ?_, ?_, ?_⟩
    · rfl
    · rw [if_pos rfl, State.enterRecovery, State.deviceEvent_inReset, State.readSfdp, hl]
      simp [State.core, State.setCore, State.modCore]
    · rw [if_pos rfl, State.enterRecovery, State.deviceEvent_flash, State.readSfdp, hl]
      exact hflash
    · rw [if_pos rfl, State.enterRecovery, State.deviceEvent_mem, State.readSfdp, hl]
      exact hmem
  case hot =>
    intro s sel smb rcvy hm hr hh
    have hheld : ¬(decide (s.mode ≠ .reset) || !s.railsValid) = true := by simp [hm, hr]
    rw [exec_cxRstNDeassert, execCxRstNDeassert, if_neg hheld, if_pos hh]
  case rails =>
    intro s h
    rw [exec_mainRailsValid, execMainRailsValid, if_neg (by simp [h])]
  case fault =>
    intro s h
    exact ⟨s.railsLost, by rw [exec_mainRailFault, execMainRailFault, if_neg (by simp [h])]; rfl,
      rfl, rfl, rfl, rfl, rfl, rfl, rfl⟩
  case loss =>
    intro s hclk h
    rw [exec_devRefclkLoss, execDevRefclkLoss, if_neg (by simp [hclk]), if_neg (by simp [h])]
  case again =>
    intro s hclk h
    exact ⟨_, execDevRefclkLoss_restarting h hclk, rfl, rfl, rfl, rfl, rfl⟩
  case cool =>
    intro s temps hr hcool hnow
    refine ⟨takeReadings temps s.sensors (Nat.min 10 temps.length), ?_, fun i hi => ?_⟩
    · have hnone : (takeReadings temps s.sensors (Nat.min 10 temps.length)).any
          (fun t => fatalReading t.1 t.2) = false := by
        rw [List.any_eq_false]
        intro e he
        obtain h | h := mem_takeReadings (Nat.min_le_right 10 temps.length) he
        · simp [fatalReading_cool (hcool _ h)]
        · simp [hnow _ h]
      rw [execSensorUpdate_eq temps hr]
      simp [hnone]
    · have hlt : i < Nat.min 10 temps.length ↔ i < temps.length := by
        show i < min 10 temps.length ↔ _
        omega
      rw [takeReadings_get]
      simp only [hlt]
  case trip =>
    intro s temps hr htrip hmode h
    have hlong : 0 < temps.length := by
      by_contra hne
      have hnil : temps = [] := List.length_eq_zero_iff.mp (by omega)
      simp [hnil] at h
    have hfatal : (takeReadings temps s.sensors (Nat.min 10 temps.length)).any
        (fun t => fatalReading t.1 t.2) = true := by
      obtain ⟨n, hn⟩ : ∃ n, Nat.min 10 temps.length = n + 1 :=
        Nat.exists_eq_add_one_of_ne_zero (Nat.pos_iff_ne_zero.mp (Nat.lt_min.mpr ⟨by decide, hlong⟩))
      have hget := takeReadings_find temps s.sensors n
      rw [hn]
      exact List.any_eq_true.mpr ⟨_, Tab.mem_of_find hget, fatalReading_first h⟩
    refine ⟨State.cold { s with
      sensors := takeReadings temps s.sensors (Nat.min 10 temps.length), thermTrip := true } .tripped, ?_, rfl, rfl, rfl⟩
    rw [execSensorUpdate_eq temps hr]
    simp [hfatal, htrip, hmode]
  case gated =>
    intro s party hm hidle
    refine ⟨s.gateEngines party 4, ?_, s.gateEngines_keeps party 4⟩
    simp only [exec_islandGating, execIslandGating, hm, hidle]
    rfl
  case busy =>
    intro s party hidle
    simp [execIslandGating, hidle]
  case chain =>
    intro s c hm hidle
    simp only [exec_islandGating, execIslandGating, hm, hidle]
    rfl

end Sys2Proof.Machine

/-! PROOFS. Field books and telemetry (O45). -/

namespace Sys2Proof.Machine

/-! ### A book (R508, R509) -/

section
variable {b : FieldBook} {bad : Bool} {w : FbWord} {rest : List FbWord}

theorem FieldBook.accept_room {payload : List Nat} (h : b.words.length + payload.length + 1 ≤ 1024) (typ src : Nat) :
    (b.accept typ src payload).words = b.words ++ { data := fbHeader typ (payload.length + 1) src b.seq, sop := true } ::
      payload.map (fun w => { data := BitVec.ofNat 64 w, sop := false }) ∧
    (b.accept typ src payload).seq = b.seq + 1 ∧ (b.accept typ src payload).lost.toNat = b.lost.toNat := by
  have hexcess : b.words.length + (payload.length + 1) - 1024 = 0 := by omega
  have hlost := b.lost.isLt
  refine ⟨?_, rfl, ?_⟩
  · simp [FieldBook.accept, hexcess]
  · simp only [FieldBook.accept, List.length_cons, List.length_map, hexcess, BitVec.toNat_ofNat]
    show min (b.lost.toNat + 0) (2 ^ 32 - 1) % 2 ^ 32 = _
    omega

theorem FieldBook.accept_full {payload : List Nat} (hp : payload.length < 1024) (typ src : Nat) :
    (b.accept typ src payload).words.length ≤ 1024 ∧
    (b.accept typ src payload).lost.toNat =
      Nat.min (b.lost.toNat + (b.words.length + payload.length + 1 - 1024)) (2 ^ 32 - 1) := by
  constructor
  · simp only [FieldBook.accept, List.length_append, List.length_drop, List.length_cons, List.length_map]
    omega
  · simp only [FieldBook.accept, List.length_cons, List.length_map, BitVec.toNat_ofNat, Nat.add_assoc]
    exact Nat.mod_eq_of_lt (Nat.lt_of_le_of_lt (Nat.min_le_right ..) (by decide))

theorem FieldBook.lose_zero (b : FieldBook) : b.lose 0 = b := by
  have hlost := b.lost.isLt
  have h : BitVec.ofNat 32 (Nat.min (b.lost.toNat + 0) (2 ^ 32 - 1)) = b.lost := by
    apply BitVec.eq_of_toNat_eq
    rw [BitVec.toNat_ofNat]
    show min (b.lost.toNat + 0) (2 ^ 32 - 1) % 2 ^ 32 = _
    omega
  rw [FieldBook.lose, h]

theorem FieldBook.read_empty (hl : b.left = 0) (hw : b.words = []) (bad : Bool) : b.read bad =
    { word := 0, book := { b with words := [], idle := true, length := 0, left := 0, stolen := false } } := by
  simp only [FieldBook.read, hl, FieldBook.readStart, hw, List.takeWhile_nil, List.length_nil, FieldBook.lose_zero]
  rfl

/-- At a packet start the front word is the header, which says how many words follow. -/
theorem FieldBook.read_header (hl : b.left = 0) (hw : b.words = w :: rest) (hs : w.sop = true) (bad : Bool) :
    b.read bad = { word := w.data, book := { b with
      words := rest, idle := false, poison := bad, torn := false, length := bitsOf w.data.toNat 55 52
      left := bitsOf w.data.toNat 55 52 - 1, stolen := false } } := by
  have hstrays : (w :: rest).takeWhile (fun w => !w.sop) = [] := by simp [hs]
  simp only [FieldBook.read, hl, FieldBook.readStart, hw, hstrays, List.length_nil, FieldBook.lose_zero, List.drop_zero]
  rfl

theorem FieldBook.read_next (hl : b.left ≠ 0) (hs : b.stolen = false) (hw : b.words = w :: rest) (bad : Bool) :
    b.read bad = { word := w.data, book := { b with
      words := rest, poison := b.poison || bad, left := b.left - 1 } } := by
  rw [FieldBook.read, if_neg hl]
  simp only [FieldBook.readInside, hs, hw]

theorem FieldBook.read_torn (hl : b.left ≠ 0) (hs : b.stolen = true) (bad : Bool) :
    b.read bad = { word := 0, book := { b with torn := true, left := 0, stolen := false } } := by
  rw [FieldBook.read, if_neg hl]
  simp only [FieldBook.readInside, hs]

end

/-! ### The system controller's books (R510) -/

section
variable {s : State} {p : Nat}

theorem State.selBook_setBook (s : State) (n : Nat) (b : FieldBook) : (s.setBook n b).selBook n = b := by
  unfold State.setBook State.selBook
  split_ifs
  · exact Tab.get_set_self ..
  · simp
  · rfl

theorem State.selBook_modCore (s : State) (k n : Nat) (f : Core → Core) : (s.modCore k f).selBook n = s.selBook n := rfl

theorem State.setBook_mem (s : State) (n : Nat) (b : FieldBook) : (s.setBook n b).mem = s.mem := by
  unfold State.setBook
  split_ifs <;> rfl

/-- The level of the notice interrupt is one bit of the system controller's pending register. -/
theorem State.noticeLevel_eq (s : State) :
    ∃ pend, s.noticeLevel = s.modCore 48 (fun x => { x with irqPend := pend }) ∨ s.noticeLevel = s := by
  unfold State.noticeLevel
  split
  · exact ⟨_, .inl rfl⟩
  · exact ⟨0, .inr rfl⟩

theorem State.noticeLevel_keeps (s : State) (n : Nat) : s.noticeLevel.selBook n = s.selBook n ∧
    s.noticeLevel.mem = s.mem ∧ (s.noticeLevel.core 48).fbLatch = (s.core 48).fbLatch := by
  obtain ⟨pend, h | h⟩ := s.noticeLevel_eq
  · rw [h]
    exact ⟨rfl, rfl, by simp⟩
  · rw [h]
    exact ⟨rfl, rfl, rfl⟩

/-! ### The host's reads of registers (R17, R555) -/

theorem State.barRead_open (h : s.barOpen p = true) (n : Nat) (f : State → State × Nat) :
    s.barRead p n f = (((f s).1.hostTlp p 1 n).emit (.readData (leBytes n (f s).2) false)) := by
  obtain ⟨hr, hv⟩ : s.reachable p = true ∧ s.recovering = false := by simpa [State.barOpen] using h
  simp [State.barRead, hr, hv]

theorem State.barRead_recovering (hr : s.reachable p = true) (hv : s.recovering = true) (n : Nat)
    (f : State → State × Nat) :
    s.barRead p n f = (((s.unclaimed p).hostTlp p 1 n).emit (.readData (leBytes n 0) false)) := by
  simp [State.barRead, hr, hv]

end

/-- Settles O45: reads of a book are one equation each, and the host's registers go through `barRead`. -/
theorem fieldBooksAreRead : Obligations.FieldBooksAreRead := by
  unfold Obligations.FieldBooksAreRead
  refine ⟨fun b typ src payload h => FieldBook.accept_room h typ src,
    fun b typ src payload hp _ => FieldBook.accept_full hp typ src, ?read, ?recovery, ?empty, ?header, ?next, ?torn,
    ?rd0, ?clearPort, ?clearCore, fun b => ⟨rfl, rfl, rfl, rfl⟩, ?counter⟩
  case read =>
    intro s p bad h
    rw [exec_fbRead, execFbRead, State.barRead_open h]
  case recovery =>
    intro s p bad hr hv
    rw [exec_fbRead, execFbRead, State.barRead_recovering hr hv]
    rfl
  case empty =>
    intro b bad hl hw
    rw [FieldBook.read_empty hl hw]
    exact ⟨rfl, rfl, rfl⟩
  case header =>
    intro b bad w rest hl hw hs
    rw [FieldBook.read_header hl hw hs]
    exact ⟨rfl, rfl, rfl, rfl, rfl, rfl⟩
  case next =>
    intro b bad w rest hl hs hw
    rw [FieldBook.read_next hl hs hw]
    exact ⟨rfl, rfl, rfl, rfl⟩
  case torn =>
    intro b bad hl hs
    rw [FieldBook.read_torn hl hs]
    exact ⟨rfl, rfl, rfl, rfl⟩
  case rd0 =>
    intro s bad h hcur
    have hrun : exec (.fbRd0Read bad) s = .next ((s.readRd0 0 bad).2.emit (.coreRead 48 (s.readRd0 0 bad).1)) := by
      rw [exec_fbRd0Read, execFbRd0Read, if_neg (by simp [h]), hcur]
    obtain ⟨hbook, hmem, hlatch⟩ := (((s.setBook (s.fbSel 0) ((s.selBook (s.fbSel 0)).read bad).book).modCore 48 fun x =>
      { x with fbLatch := ((s.selBook (s.fbSel 0)).read bad).word.extractLsb' 16 48 })).noticeLevel_keeps (s.fbSel 0)
    refine ⟨(s.readRd0 0 bad).2, hrun, hlatch.trans ?_, hbook.trans ?_, hmem.trans ?_⟩
    · simp
    · rw [State.selBook_modCore, State.selBook_setBook]
    · exact State.setBook_mem ..
  case clearPort =>
    intro s p v h hv
    rw [exec_fbClear, execFbClear, State.senderWrite, State.barAccess_open h]
    simp [State.clearBook, hv]
  case clearCore =>
    intro s v h hcur hv
    simp [execFbClear, State.senderWrite, State.senderMay, State.clearBook, h, hcur, hv]
  case counter =>
    intro s p ecc h
    rw [exec_counterLowHalfRead, execCounterLowHalfRead, State.barRead_open h]

end Sys2Proof.Machine

/-! PROOFS. The meters of the Monument (O46). -/

namespace Sys2Proof.Machine

section
variable {s : State} {m : Monument}

/-! ### Counters (R523) -/

theorem Monument.counter_add (m : Monument) (i n j : Nat) :
    (m.add i n).counter j = if j = i then (m.counter i + n) % 10 ^ 20 else m.counter j := Tab.get_set ..

/-- An effect the running island makes. -/
theorem State.onMon_live (h : s.mon.live = true) (f : Monument → Monument) : s.onMon f = s.modMon f := if_pos h

/-! ### Taps (R519, R520) -/

/-- The taps from the first to the `n`-th, sampled. -/
def Monument.tapSteps (m : Monument) (counts : List Nat) (n : Nat) : Monument :=
  (List.range n).foldl (fun (m : Monument) i => m.tapStep i (counts.getD i 0)) m

theorem Monument.tapSteps_succ (m : Monument) (counts : List Nat) (n : Nat) :
    m.tapSteps counts (n + 1) = (m.tapSteps counts n).tapStep n (counts.getD n 0) := by
  simp [Monument.tapSteps, List.range_succ]

theorem Monument.tapStep_counter (m : Monument) (i count j : Nat) : (m.tapStep i count).counter j =
    if j = i then (m.counter i + 64 * ((count + 256 - m.taps.get i 0 % 256) % 256)) % 10 ^ 20 else m.counter j :=
  m.counter_add ..

theorem Monument.tapStep_taps (m : Monument) (i count j : Nat) :
    (m.tapStep i count).taps.get j 0 = if j = i then count % 256 else m.taps.get j 0 := Tab.get_set ..

/-- Of the taps sampled, each counter has advanced by the steps since the sample before; no other has. -/
theorem Monument.tapSteps_spec (m : Monument) (counts : List Nat) (n j : Nat) :
    (m.tapSteps counts n).counter j = (if j < n then
      (m.counter j + 64 * ((counts.getD j 0 + 256 - m.taps.get j 0 % 256) % 256)) % 10 ^ 20 else m.counter j) ∧
    (m.tapSteps counts n).taps.get j 0 = (if j < n then counts.getD j 0 % 256 else m.taps.get j 0) ∧
    (m.tapSteps counts n).uptimeMs = m.uptimeMs ∧ (m.tapSteps counts n).log = m.log := by
  induction n generalizing j with
  | zero => exact ⟨rfl, rfl, rfl, rfl⟩
  | succ n ih =>
    obtain ⟨hcounter, htaps, hup, hlog⟩ := ih j
    obtain ⟨hcounterN, htapsN, -, -⟩ := ih n
    rw [if_neg (Nat.lt_irrefl n)] at hcounterN htapsN
    rw [Monument.tapSteps_succ, Monument.tapStep_counter, Monument.tapStep_taps, hcounterN, htapsN, hcounter, htaps]
    refine ⟨?_, ?_, hup, hlog⟩
    all_goals
      by_cases h : j = n
      · simp [h]
      · simp [h, show j < n + 1 ↔ j < n by omega]

theorem execTapSample_live (hr : s.railsValid = true) (hl : s.mon.live = true) (n : Nat) : exec (.tapSample n) s =
    .next ((s.runTaps n).modMon fun m => m.sampleTaps (s.runTaps n).tapCounts) := by
  rw [exec_tapSample, execTapSample, if_neg (by simp [hr])]
  exact congrArg Host.Outcome.next (State.onMon_live (s := s.runTaps n) hl _)

/-! ### Shelves (R521) -/

/-- The shelves from the first to the `n`-th, sampled. -/
def Monument.shelfSamples (m : Monument) (enable pg : Nat → Bool) (n : Nat) : Monument :=
  (List.range n).foldl (fun (m : Monument) sh => m.shelfSample sh (enable sh) (pg sh)) m

theorem Monument.shelfSamples_succ (m : Monument) (enable pg : Nat → Bool) (n : Nat) :
    m.shelfSamples enable pg (n + 1) = (m.shelfSamples enable pg n).shelfSample n (enable n) (pg n) := by
  simp [Monument.shelfSamples, List.range_succ]

/-- A shelf whose grace has not begun counts while its enable is asserted. -/
theorem Monument.shelfSample_spec {sh : Nat} (h : m.pgHigh.get sh 0 = 0) (enable pg : Bool) :
    (∀ j, (m.shelfSample sh enable pg).counter j =
      if j = 16 + sh ∧ enable = true then (m.counter j + 1) % 10 ^ 20 else m.counter j) ∧
    (∀ j, j ≠ sh → (m.shelfSample sh enable pg).pgHigh.get j 0 = m.pgHigh.get j 0) ∧
    (m.shelfSample sh enable pg).uptimeMs = m.uptimeMs := by
  unfold Monument.shelfSample
  extract_lets level run level1 high bit m1
  have hgrace : ¬ 10000 < high := by
    unfold high
    split_ifs <;> omega
  have hother : ∀ j, j ≠ sh → m1.pgHigh.get j 0 = m.pgHigh.get j 0 := fun j hj => by
    show (m.pgHigh.set sh high).get j 0 = _
    rw [Tab.get_set, if_neg hj]
  rw [decide_eq_false hgrace, Bool.or_false]
  cases enable with
  | false =>
    refine ⟨fun j => ?_, hother, rfl⟩
    simp only [Bool.false_eq_true, and_false, if_false]
    rfl
  | true =>
    refine ⟨fun j => ?_, hother, rfl⟩
    rw [if_pos rfl, Monument.counter_add]
    by_cases hj : j = 16 + sh
    · subst hj
      simp only [and_self, if_true]
      rfl
    · simp only [hj, false_and, if_false]
      rfl

theorem Monument.shelfSamples_spec (h : ∀ sh, m.pgHigh.get sh 0 = 0) (enable pg : Nat → Bool) (n : Nat) :
    (∀ j, (m.shelfSamples enable pg n).counter j = if 16 ≤ j ∧ j < 16 + n ∧ enable (j - 16) = true
      then (m.counter j + 1) % 10 ^ 20 else m.counter j) ∧
    (∀ j, n ≤ j → (m.shelfSamples enable pg n).pgHigh.get j 0 = 0) ∧
    (m.shelfSamples enable pg n).uptimeMs = m.uptimeMs := by
  induction n with
  | zero => exact ⟨fun j => by rw [if_neg (by omega)]; rfl, fun j _ => h j, rfl⟩
  | succ n ih =>
    obtain ⟨hcounter, hhigh, hup⟩ := ih
    obtain ⟨hcounter', hhigh', hup'⟩ := Monument.shelfSample_spec (hhigh n (Nat.le_refl n)) (enable n) (pg n)
    rw [Monument.shelfSamples_succ]
    refine ⟨fun j => ?_, fun j hj => ?_, hup'.trans hup⟩
    · rw [hcounter', hcounter]
      by_cases hj : j = 16 + n
      · subst hj
        simp
      · have hiff : (16 ≤ j ∧ j < 16 + (n + 1) ∧ enable (j - 16) = true) ↔
            (16 ≤ j ∧ j < 16 + n ∧ enable (j - 16) = true) := by
          constructor <;> rintro ⟨h1, h2, h3⟩ <;> exact ⟨h1, by omega, h3⟩
        rw [if_neg (fun hh => hj hh.1)]
        simp only [hiff]
    · rw [hhigh' j (by omega)]
      exact hhigh j (by omega)

theorem execShelfTimeSample_live (h : s.mon.live = true) (pg : BitVec 48) : exec (.shelfTimeSample pg) s =
    .next (s.modMon fun m => Monument.shelfSamples { m with uptimeMs := m.uptimeMs + 1 } s.padEnable pg.getLsbD 48) := by
  rw [exec_shelfTimeSample, execShelfTimeSample, State.onMon_live h]
  rfl

/-! ### Energy inputs (R522) -/

theorem execS0Sample_live {c : Nat} (hc : c < 12) (h : s.mon.live = true) (high : Bool) : exec (.s0Sample c high) s =
    .next (s.modMon fun m => if high then m.s0High c else m.s0Low c) := by
  rw [exec_s0Sample, execS0Sample, if_neg (by omega), State.onMon_live h]

/-- The tenth high sample of a good pulse counts it. -/
theorem Monument.s0High_tenth {c : Nat} (hh : (m.s0.get c {}).high = 9) (hg : (m.s0.get c {}).good = true) :
    m.s0High c = Monument.add { m with s0 := m.s0.set c { m.s0.get c {} with high := 10, low := 0 } } (64 + c) 1 := by
  simp [Monument.s0High, hh, hg]

theorem Monument.s0Low_idle {c : Nat} (hh : (m.s0.get c {}).high = 0) (hs : (m.s0.get c {}).stuck = false) :
    m.s0Low c = { m with s0 := m.s0.set c { m.s0.get c {} with
      high := 0, low := Nat.min 10 ((m.s0.get c {}).low + 1), stuck := false } } := by
  simp [Monument.s0Low, hh, hs]

end

/-- Settles O46: samples are taken one tap or shelf after another, and each advances its own counter. -/
theorem metersCount : Obligations.MetersCount := by
  unfold Obligations.MetersCount
  refine ⟨fun t n => ⟨rfl, rfl⟩, ?baseline, ?rebased, ?taps, ?dark, ?rise, ?shelves, ?pulse, ?low, ?test, ?add⟩
  case baseline =>
    rintro s s1 n hr hl hb rfl
    have hrebase : (s.runTaps n).mon.rebase = true := hb
    rw [execTapSample_live hr hl]
    simp only [State.modMon, Monument.sampleTaps, hrebase, if_true]
    rfl
  case rebased =>
    intro m steps i hi
    exact ⟨Tab.get_map_range (fun i => steps.getD i 0 % 256) 0 hi, rfl⟩
  case taps =>
    rintro s s1 n hr hl hb rfl
    have hspec := s.mon.tapSteps_spec (s.runTaps n).tapCounts 16
    refine ⟨s.mon.tapSteps (s.runTaps n).tapCounts 16, ?_, fun i hi => ?_, fun i hi => ?_, (hspec 0).2.2.1, (hspec 0).2.2.2⟩
    · have hrebase : ¬ (s.runTaps n).mon.rebase = true := by simp [State.runTaps, hb]
      rw [execTapSample_live hr hl]
      simp only [State.modMon, Monument.sampleTaps, if_neg hrebase]
      rfl
    · obtain ⟨hcounter, htaps, -, -⟩ := hspec i
      rw [hcounter, htaps, if_pos hi, if_pos hi]
      exact ⟨rfl, rfl⟩
    · obtain ⟨hcounter, -, -, -⟩ := hspec i
      rw [hcounter, if_neg (by omega)]
  case dark =>
    intro s n hr
    rw [exec_tapSample, execTapSample, if_pos (by simp [hr])]
  case rise =>
    rintro s s1 n hr hl hb rfl
    rw [exec_mainDomainValidRise, execMainDomainValidRise, if_neg (by simp [hr]), if_neg (by simp [hb])]
    exact congrArg Host.Outcome.next (State.onMon_live (s := s.runTaps n) hl _)
  case shelves =>
    intro s pg hl hhigh
    obtain ⟨hcounter, -, hup⟩ := Monument.shelfSamples_spec (m := { s.mon with uptimeMs := s.mon.uptimeMs + 1 }) hhigh
      s.padEnable pg.getLsbD 48
    refine ⟨_, execShelfTimeSample_live hl pg, hup, fun sh hsh => ?_, fun i hi => ?_⟩
    · rw [hcounter, Nat.add_sub_cancel_left]
      have hin : (16 ≤ 16 + sh ∧ 16 + sh < 16 + 48 ∧ s.padEnable sh = true) ↔ s.padEnable sh = true :=
        ⟨fun h => h.2.2, fun h => ⟨by omega, by omega, h⟩⟩
      simp only [hin]
      rfl
    · rw [hcounter, if_neg (by omega)]
      rfl
  case pulse =>
    rintro s c x hc hl rfl hh hg
    refine ⟨s.mon.s0High c, by rw [execS0Sample_live hc hl]; rfl, ?_⟩
    rw [Monument.s0High_tenth hh hg]
    refine ⟨?_, ?_, fun i hi => ?_⟩
    · rw [Monument.counter_add, if_pos rfl]
      rfl
    · simp [Monument.add]
    · rw [Monument.counter_add, if_neg hi]
      rfl
  case low =>
    intro s c hc hl hh hs
    rw [execS0Sample_live hc hl]
    simp only [State.modMon, Bool.false_eq_true, if_false, Monument.s0Low_idle hh hs]
  case test =>
    intro s hl hp
    rw [exec_testPulseEmit, execTestPulseEmit, if_pos (by simp [hl, hp])]
  case add =>
    intro m i n j
    refine ⟨?_, fun hj => ?_⟩
    · rw [Monument.counter_add, if_pos rfl]
    · rw [Monument.counter_add, if_neg hj]

end Sys2Proof.Machine

/-! PROOFS. Readings, checkpoints, power and the log of the Monument (O47). -/

namespace Sys2Proof.Machine

section
variable {s : State} {m : Monument}

/-! ### The log (R530 to R533) -/

/-- The record that an event appends, its chain computed with the record before it (R532). -/
def Monument.nextRecord (m : Monument) (kind item : Nat) (old new : List Byte) : LogRec :=
  let r : LogRec := { powerups := m.powerups, uptime := m.uptimeMs, kind, item, old, new, chain := [] }
  { r with chain := (sha256 (m.prevChain m.log.length ++ r.body m.log.length)).take 16 }

/-- The flash commands that program it and read it back. -/
def Monument.recordOps (m : Monument) (kind item : Nat) (old new : List Byte) : List FlashOp :=
  let r := m.nextRecord kind item old new
  let bs := r.body m.log.length ++ r.chain
  progOps 0x02 (logOffset m.log.length) bs ++ [{ op := 0x03, addr := logOffset m.log.length, len := bs.length }]

variable (kind item : Nat) (old new : List Byte)

theorem Monument.logWith_unsealed (h : m.isSealed = false) (taken : Bool) : m.logWith taken kind item old new = m := by
  rw [Monument.logWith, if_pos (by simp [h])]

theorem Monument.logWith_full (h : m.isSealed = true) (hc : m.logCap ≤ m.log.length) (taken : Bool) :
    m.logWith taken kind item old new = { m with logFull := true, unlogged := m.unlogged + 1 } := by
  rw [Monument.logWith, if_neg (by simp [h]), if_pos hc]

theorem Monument.logWith_taken (h : m.isSealed = true) (hc : m.log.length < m.logCap) :
    m.logWith true kind item old new = { m with
      spi := m.spi ++ m.recordOps kind item old new
      log := m.log ++ [m.nextRecord kind item old new], logFull := m.logCap ≤ m.log.length + 1 } := by
  rw [Monument.logWith, if_neg (by simp [h]), if_neg (by omega)]
  rfl

theorem Monument.logWith_lost (h : m.isSealed = true) (hc : m.log.length < m.logCap) :
    m.logWith false kind item old new = { m with
      spi := m.spi ++ m.recordOps kind item old new, flashFault := true } := by
  rw [Monument.logWith, if_neg (by simp [h]), if_neg (by omega)]
  rfl

/-- What logging can do: append one record at most, and touch the log's own counts and the flash. -/
theorem Monument.logEvent_eq : ∃ l logFull unlogged flashFault spi, l.length ≤ 1 ∧
    m.logEvent kind item old new = { m with
      log := m.log ++ l, logFull, unlogged, flashFault, spi, flashTries := m.flashTries + 1 } := by
  rw [Monument.logEvent]
  rcases Bool.eq_false_or_eq_true m.isSealed with hs | hs
  case inr =>
    refine ⟨[], m.logFull, m.unlogged, m.flashFault, m.spi, Nat.zero_le _, ?_⟩
    rw [Monument.logWith_unsealed (m := m.tried) _ _ _ _ hs, List.append_nil]
    rfl
  case inl =>
    rcases Nat.lt_or_ge m.log.length m.logCap with hc | hc
    case inr =>
      refine ⟨[], true, m.unlogged + 1, m.flashFault, m.spi, Nat.zero_le _, ?_⟩
      rw [Monument.logWith_full (m := m.tried) _ _ _ _ hs hc, List.append_nil]
      rfl
    case inl =>
      cases m.takes
      case false =>
        refine ⟨[], m.logFull, m.unlogged, true, m.spi ++ m.tried.recordOps kind item old new, Nat.zero_le _, ?_⟩
        rw [Monument.logWith_lost (m := m.tried) _ _ _ _ hs hc, List.append_nil]
        rfl
      case true =>
        refine ⟨[m.tried.nextRecord kind item old new], decide (m.logCap ≤ m.log.length + 1), m.unlogged, m.flashFault,
          m.spi ++ m.tried.recordOps kind item old new, Nat.le_refl _, ?_⟩
        rw [Monument.logWith_taken (m := m.tried) _ _ _ _ hs hc]
        rfl

/-- A record appended verifies: its chain was computed with what `chainOk` computes it with again. -/
theorem Monument.chainOk_nextRecord (t : Monument) (hk : t.keyNo = m.keyNo)
    (hl : t.log = m.log ++ [m.nextRecord kind item old new]) : t.chainOk m.log.length = true := by
  have hprev : t.prevChain m.log.length = m.prevChain m.log.length := by
    unfold Monument.prevChain Monument.keyBytes
    rw [hk, hl]
    split
    · rfl
    · rw [List.getElem?_append_left (by omega)]
  have hrec : t.log[m.log.length]? = some (m.nextRecord kind item old new) := by rw [hl]; simp
  unfold Monument.chainOk
  rw [hrec, hprev]
  exact decide_eq_true rfl

/-! ### Readings (R525 to R528) -/

/-- MON-IN has no host at its sender's end: releasing it rings nobody. -/
theorem State.mbRelease_monIn (h : (s.mailbox instMonIn).full = true) :
    s.mbRelease instMonIn = s.setMailbox instMonIn { s.mailbox instMonIn with full := false } := by
  rw [State.mbRelease, if_neg (by simp [h]), if_neg (by decide), if_neg (by decide)]

/-- A reading was asked for or taken by period in the last second, or one falls due in the next (R525). -/
def Monument.answersSoon (m : Monument) : Bool :=
  (match m.lastRequest with
    | some t => m.uptimeMs - t < 1000
    | none => false) || m.periodicAt < m.uptimeMs + 1000

/-- A READ-REQUEST that is taken from MON-IN: a reading, or none when one answers it soon or has just done so. -/
theorem execReadRequest_taken (hl : s.mon.live = true) (hf : (s.mailbox 162).full = true)
    (hw : (s.mailbox 162).words.get 0 0 = 0x0B01#16) (hn : (s.mailbox 162).len = 1) :
    ∃ t : State, exec .readRequest s = .next t ∧ (t.mailbox 162).full = false ∧ t.mem = s.mem ∧
      t.mon = if s.mon.answersSoon then s.mon else { s.mon.takeKind 0x02 with lastRequest := some s.mon.uptimeMs } := by
  have hgo : ¬ (!s.mon.live || !(s.mailbox instMonIn).full) = true := by simp [hl, instMonIn, hf]
  have hmessage : ¬ ((s.mailbox instMonIn).words.get 0 0 ≠ 0x0B01 || (s.mailbox instMonIn).len ≠ 1) = true := by
    rw [Bool.or_eq_true, decide_eq_true_iff, decide_eq_true_iff]
    exact fun h => h.elim (· hw) (· hn)
  refine ⟨(s.setMailbox instMonIn { s.mailbox instMonIn with full := false }).modMon fun m =>
    if m.answersSoon then m else { m.takeKind 0x02 with lastRequest := some m.uptimeMs }, ?_, ?_, rfl, rfl⟩
  · rw [exec_readRequest, execReadRequest]
    dsimp only
    rw [if_neg hgo, if_neg hmessage, State.mbRelease_monIn hf]
    rfl
  · exact congrArg Mailbox.full (State.setMailbox_mailbox_self ..)

/-- Outside READY mode nobody takes a segment from MON-OUT. -/
theorem State.takeSegment_unready (h : s.mode ≠ .ready) : s.takeSegment = s := by
  rw [State.takeSegment, if_pos (by simp [h])]

theorem State.mbPostLen_monOut (len : Nat) : ∃ b cores, s.mbPostLen instMonOut len = { s.setMailbox instMonOut b with cores } := by
  unfold State.mbPostLen
  dsimp only
  split
  · exact ⟨_, s.cores, rfl⟩
  · exact ⟨_, _, rfl⟩

/-- Posting a segment moves the Monument's place in its reading, and shows in MON-OUT and the doorbell alone. -/
theorem State.postSegment_eq {r : Reading} {rest : List Reading} (h : s.mon.sending = r :: rest) :
    ∃ b cores, s.postSegment = { s.setMailbox instMonOut b with
      cores, mon := { s.mon with
        segment := if s.mon.segment = 15 then 0 else s.mon.segment + 1
        sending := if s.mon.segment = 15 then rest else s.mon.sending } } := by
  unfold State.postSegment
  split
  case h_1 hnil => rw [h] at hnil; cases hnil
  case h_2 r' rest' hcons =>
    obtain ⟨rfl, rfl⟩ : r' = r ∧ rest' = rest := by rw [h] at hcons; simpa using hcons.symm
    extract_lets i ws words
    obtain ⟨b, cores, hb⟩ := State.mbPostLen_monOut (s := (s.modMon fun m => { m with
      segment := if i = 15 then 0 else i + 1, sending := if i = 15 then rest' else m.sending }).modMailbox instMonOut
        fun b => words.foldl (fun (b : Mailbox) (j, w) => b.putWord j w) b) ws.length
    refine ⟨b, cores, hb.trans ?_⟩
    simp only [State.setMailbox, State.modMailbox, State.modMon, Tab.set_set]
    rfl

/-! ### Checkpoints (R531) -/

theorem Monument.checkpoint_waits {kind : Nat} (h0 : m.nextSlot % 64 = 0) (hfull : m.sectorFull m.nextSlot = true)
    (hv : (m.takeKind kind).othersValid m.nextSlot = false) : m.checkpoint kind = m.takeKind kind := by
  have hfull' : (m.take kind).2.sectorFull m.nextSlot = true := hfull
  have hv' : (m.take kind).2.othersValid m.nextSlot = false := hv
  have hslot : (m.take kind).2.nextSlot = m.nextSlot := rfl
  simp only [Monument.checkpoint, hslot, h0, hfull', hv']
  rfl

/-- A checkpoint that is written, after the sector's `kept` entries. -/
def Monument.Checkpointed (m : Monument) (kind : Nat) (kept : Tab Checkpoint) (t : Monument) : Prop :=
  t.checkpoints = (if m.takes then Tab.set kept m.nextSlot { reading := (m.take kind).1, tamper := m.tamper } else kept) ∧
    t.flashFault = (m.flashFault || !m.takes) ∧ t.nextSlot = (m.nextSlot + 1) % 256 ∧ t.counters = m.counters ∧
    t.readSeq = m.readSeq + 1

theorem Monument.checkpoint_next {kind : Nat} (h : m.nextSlot % 64 ≠ 0 ∨ m.sectorFull m.nextSlot = false) :
    m.Checkpointed kind m.checkpoints (m.checkpoint kind) := by
  have herase : (decide (m.nextSlot % 64 = 0) && (m.take kind).2.sectorFull m.nextSlot) = false := by
    have hfull : (m.take kind).2.sectorFull m.nextSlot = m.sectorFull m.nextSlot := rfl
    rcases h with h | h <;> simp [hfull, h]
  have hslot : (m.take kind).2.nextSlot = m.nextSlot := rfl
  have htakes : (m.take kind).2.takes = m.takes := rfl
  simp only [Monument.checkpoint, hslot, herase, Bool.false_and, Bool.false_eq_true, if_false, htakes]
  rcases Bool.eq_false_or_eq_true m.takes with ht | ht
  · have hfault : m.flashFault = (m.flashFault || !m.takes) := by simp [ht]
    rw [if_pos ht]
    exact ⟨(if_pos ht).symm, hfault, rfl, rfl, rfl⟩
  · have hfault : true = (m.flashFault || !m.takes) := by simp [ht]
    rw [if_neg (by simp [ht])]
    exact ⟨(if_neg (by simp [ht])).symm, hfault, rfl, rfl, rfl⟩

theorem Monument.checkpoint_erases {kind : Nat} (h0 : m.nextSlot % 64 = 0) (hfull : m.sectorFull m.nextSlot = true)
    (hv : (m.takeKind kind).othersValid m.nextSlot = true) :
    m.Checkpointed kind (m.checkpoints.filter fun c => decide (c.1 / 64 ≠ m.nextSlot / 64)) (m.checkpoint kind) := by
  have hfull' : (m.take kind).2.sectorFull m.nextSlot = true := hfull
  have hv' : (m.take kind).2.othersValid m.nextSlot = true := hv
  have hslot : (m.take kind).2.nextSlot = m.nextSlot := rfl
  have htakes (ops : List FlashOp) : ((m.take kind).2.flash ops).takes = m.takes := rfl
  simp only [Monument.checkpoint, hslot, h0, hfull', hv', decide_true, Bool.and_true, Bool.not_true, Bool.and_false,
    Bool.false_eq_true, if_false, if_true, htakes]
  rcases Bool.eq_false_or_eq_true m.takes with ht | ht
  · have hfault : m.flashFault = (m.flashFault || !m.takes) := by simp [ht]
    rw [if_pos ht]
    exact ⟨(if_pos ht).symm, hfault, rfl, rfl, rfl⟩
  · have hfault : true = (m.flashFault || !m.takes) := by simp [ht]
    rw [if_neg (by simp [ht])]
    exact ⟨(if_neg (by simp [ht])).symm, hfault, rfl, rfl, rfl⟩

/-- Whatever the ring does, the counters stay and the reading has its sequence number. -/
theorem Monument.checkpoint_keeps (m : Monument) (kind : Nat) :
    (m.checkpoint kind).counters = m.counters ∧ (m.checkpoint kind).readSeq = m.readSeq + 1 := by
  by_cases h0 : m.nextSlot % 64 = 0
  case neg => exact (Monument.checkpoint_next (.inl h0)).2.2.2
  cases hfull : m.sectorFull m.nextSlot
  case false => exact (Monument.checkpoint_next (.inr hfull)).2.2.2
  cases hv : (m.takeKind kind).othersValid m.nextSlot
  case false =>
    rw [Monument.checkpoint_waits h0 hfull hv]
    exact ⟨rfl, rfl⟩
  case true => exact (Monument.checkpoint_erases h0 hfull hv).2.2.2

/-! ### Power (R524, R588) -/

/-- The Monument that MONUMENT_POWER_ON loads, before it logs the start. -/
def Monument.loaded (m : Monument) : Monument :=
  { (m.restartCore.resetSamplers.flash [{ op := 0x03, addr := 0x10000, len := 0x40000 }]) with
    powered := true
    counters := match m.newest with
      | some x => (List.range 76).zip x.reading.counters
      | none => []
    taps := [], rebase := true, uptimeMs := 0, powerups := m.powerups + 1
    readSeq := if m.isSealed then (m.newest.map (·.reading.seq)).getD m.readSeq else 0
    tamper := (m.newest.map (·.tamper)).getD false, coreRestart := false, last := none, sending := [], segment := 0
    lastRequest := none, lastPeriodic := 0, s0 := [] }

/-- The item of the record that logs the start: 0 after a power-fail checkpoint. -/
def Monument.startItem (m : Monument) : Nat :=
  if (match m.newest with
    | some x => decide (x.reading.kind = 5)
    | none => false) then 0 else 1

theorem execMonumentPowerOn_loads (s : State) : ∃ t : State, exec .monumentPowerOn s = .next t ∧
    t.mem = s.mem ∧ t.mon = s.mon.loaded.logEvent 0x05 s.mon.startItem [] [] := by
  refine ⟨(s.settleTaps.modMon fun m => m.loaded.logEvent 0x05 m.startItem [] []).modCore 49 fun _ => { inReset := false },
    ?_, rfl, rfl⟩
  rw [exec_monumentPowerOn, execMonumentPowerOn]
  rfl

theorem State.monRestart_mon (item : Nat) : (s.monRestart item).mon = Monument.logEvent
    { (if item = 0 then s.mon.resetSamplers else s.mon).restartCore with coreRestart := true } 0x06 item [] [] := rfl

end

/-- Settles O47: logging, a checkpoint and a power-on are each told once, by the fields they leave alone. -/
theorem readingsAndCheckpointsAreTaken : Obligations.ReadingsAndCheckpointsAreTaken := by
  unfold Obligations.ReadingsAndCheckpointsAreTaken
  refine ⟨fun m kind => ⟨rfl, rfl, rfl, rfl, rfl, rfl⟩, ?request, ?recent, ?soon, ?periodic, ?early, ?segment, ?next,
    ?down, ?timer, ?fail, ?slot, ?waits, ?erases, ?powerOn, ?blank, ?rst, ?restart, ?goesOn, ?tamper, ?latched,
    fun s => rfl, ?crystal, ?appends, ?record, ?full⟩
  case request =>
    intro s hl hf hw hn hlast hdue
    obtain ⟨t, ht, hfull, hmem, hmon⟩ := execReadRequest_taken hl hf hw hn
    exact ⟨t, ht, hfull, hmem, hmon.trans (if_neg (by simp [Monument.answersSoon, hlast]; omega))⟩
  case recent =>
    intro s at_ hl hf hw hn hlast hrecent
    obtain ⟨t, ht, hfull, -, hmon⟩ := execReadRequest_taken hl hf hw hn
    exact ⟨t, ht, hfull, hmon.trans (if_pos (by simp [Monument.answersSoon, hlast]; omega))⟩
  case soon =>
    intro s hl hf hw hn hdue
    obtain ⟨t, ht, hfull, -, hmon⟩ := execReadRequest_taken hl hf hw hn
    exact ⟨t, ht, hfull, hmon.trans (if_pos (by simp [Monument.answersSoon, hdue]))⟩
  case periodic =>
    intro s hl hdue
    rw [exec_periodicReading, execPeriodicReading, State.onMon_live hl, State.modMon, if_neg (by omega)]
    rfl
  case early =>
    intro s hdue
    rw [exec_periodicReading, execPeriodicReading, State.onMon]
    split
    · rw [State.modMon, if_pos hdue]
    · rfl
  case segment =>
    intro s hl hf hmode hs
    obtain ⟨r, rest, hr⟩ := List.exists_cons_of_ne_nil hs
    obtain ⟨b, cores, hpost⟩ := State.postSegment_eq hr
    have hmode' : s.postSegment.mode ≠ .ready := by rw [hpost]; exact hmode
    have hgo : ¬ (!s.mon.live || (s.mailbox instMonOut).full) = true := by simp [hl, instMonOut, hf]
    rw [exec_monOutSegment, execMonOutSegment, State.takeSegment_unready hmode]
    dsimp only
    rw [if_neg hgo, State.takeSegment_unready hmode']
  case next =>
    intro s r rest hr hlt
    obtain ⟨b, cores, hpost⟩ := State.postSegment_eq hr
    rw [hpost]
    refine ⟨?_, rfl⟩
    show ({ s.mon with segment := _, sending := _ } : Monument) = _
    rw [if_neg (by omega), if_neg (by omega)]
  case down =>
    intro s h
    rw [exec_monDown, execMonDown, if_pos h]
  case timer =>
    intro s hl
    refine ⟨s.mon.checkpoint 0x04, ?_, rfl, Monument.checkpoint_keeps ..⟩
    rw [exec_checkpointTimer, execCheckpointTimer, State.onMon_live hl]
    rfl
  case fail =>
    intro s hl
    have hp : s.mon.powered = true := (Bool.and_eq_true_iff.mp hl).1
    rw [exec_powerFailSignal, execPowerFailSignal, if_neg (by simp [hp]), State.onMon_live hl]
    rfl
  case slot =>
    intro m kind h
    obtain ⟨hring, hfault, hslot, hcounters, -⟩ := Monument.checkpoint_next (kind := kind) h
    exact ⟨hring, hfault, hslot, hcounters⟩
  case waits =>
    intro m kind h0 hfull hv
    rw [Monument.checkpoint_waits h0 hfull hv]
    exact ⟨rfl, rfl, rfl⟩
  case erases =>
    intro m kind h0 hfull hv
    exact (Monument.checkpoint_erases h0 hfull hv).1
  case powerOn =>
    intro s c hc
    obtain ⟨t, ht, hmem, hmon⟩ := execMonumentPowerOn_loads s
    obtain ⟨_, _, _, _, _, -, hlog⟩ := Monument.logEvent_eq (m := s.mon.loaded) 0x05 s.mon.startItem [] []
    rw [hlog] at hmon
    refine ⟨t, ht, ?_⟩
    rw [hmon]
    refine ⟨rfl, rfl, rfl, rfl, ?_, hmem, ?_, ?_⟩ <;> simp [Monument.loaded, hc]
  case blank =>
    intro s hc
    obtain ⟨t, ht, hmem, hmon⟩ := execMonumentPowerOn_loads s
    obtain ⟨_, _, _, _, _, -, hlog⟩ := Monument.logEvent_eq (m := s.mon.loaded) 0x05 s.mon.startItem [] []
    rw [hlog] at hmon
    refine ⟨t, ht, ?_⟩
    rw [hmon]
    refine ⟨rfl, rfl, rfl, rfl, ?_, hmem, ?_⟩ <;> simp [Monument.loaded, hc]
  case rst =>
    intro s hp
    rw [exec_monRstN, execMonRstN, if_pos hp]
  case restart =>
    intro s double hl
    rw [exec_monumentCoreRestart, execMonumentCoreRestart, if_pos hl]
  case goesOn =>
    intro s item
    obtain ⟨_, _, _, _, _, -, h⟩ := Monument.logEvent_eq (m := { (if item = 0 then s.mon.resetSamplers else s.mon).restartCore
      with coreRestart := true }) 0x06 item [] []
    rw [State.monRestart_mon, h]
    refine ⟨?_, ?_, rfl⟩ <;> (dsimp only [Monument.restartCore]; split <;> rfl)
  case tamper =>
    intro s hl ht
    rw [exec_monTamperN, execMonTamperN, State.onMon_live hl, State.modMon, if_neg (by simp [ht])]
    rfl
  case latched =>
    intro s ht
    rw [exec_monTamperN, execMonTamperN, State.onMon]
    split
    · rw [State.modMon, if_pos ht]
    · rfl
  case crystal =>
    intro s hc
    rw [exec_monumentCrystalRestart, execMonumentCrystalRestart, if_neg (by simp [hc])]
  case appends =>
    intro m kind item old new
    obtain ⟨l, _, _, _, _, hl, h⟩ := Monument.logEvent_eq (m := m) kind item old new
    exact ⟨l, by rw [h], hl⟩
  case record =>
    intro m kind item old new hs hc
    refine ⟨fun ht => ?_, fun ht => ?_⟩
    · rw [Monument.logEvent, ht, Monument.logWith_taken (m := m.tried) kind item old new hs hc]
      exact ⟨_, rfl, rfl, rfl, rfl, rfl, rfl, rfl,
        Monument.chainOk_nextRecord (m := m.tried) kind item old new _ rfl rfl⟩
    · rw [Monument.logEvent, ht, Monument.logWith_lost (m := m.tried) kind item old new hs hc]
      exact ⟨rfl, rfl⟩
  case full =>
    intro m kind item old new hs hc
    rw [Monument.logEvent, Monument.logWith_full (m := m.tried) kind item old new hs hc]
    exact ⟨rfl, rfl, rfl⟩

end Sys2Proof.Machine

/-! PROOFS. The verification port of the Monument (O48). -/

namespace Sys2Proof.Machine

section
variable {s : State} {m : Monument}

theorem State.onPort_listens (h : s.mon.listens = true) (f : State → State) : s.onPort f = f s := if_pos h

theorem State.onPort_deaf (h : s.mon.listens = false) (f : State → State) : s.onPort f = s := if_neg (by simp [h])

/-! ### Parameters (R533 to R535) -/

/-- An unsealed Monument accepts every change. -/
theorem Monument.changeRefused_unsealed (h : m.isSealed = false) : m.changeRefused = none := if_pos (by simp [h])

theorem Monument.changeRefused_locked (h : m.isSealed = true) (he : m.paramEn = false) :
    m.changeRefused = some "ERR LOCKED" := by
  rw [Monument.changeRefused, if_neg (by simp [h]), if_pos (by simp [he])]

/-- A sealed one does while the enable is asserted, the flash works and the log has room. -/
theorem Monument.changeRefused_open (he : m.paramEn = true) (hf : m.flashFault = false) (hc : m.log.length < m.logCap) :
    m.changeRefused = none := by
  rw [Monument.changeRefused]
  split
  · rfl
  · rw [if_neg (by simp [he]), if_neg (by simp [hf]), if_neg (by omega)]

section
variable {n : Nat} {v : ParamValue} {pins : SetPins} (hl : s.mon.listens = true)
include hl

theorem execMonSet_range (hv : (s.sampleEn pins.paramEn).mon.withParam n v = none) :
    exec (.monSet n v pins) s = .next ((s.sampleEn pins.paramEn).say [] "ERR RANGE") := by
  rw [exec_monSet, execMonSet, State.onPort_listens hl]
  simp only [hv]

theorem execMonSet_refused {new : Monument} {why : String} (hv : (s.sampleEn pins.paramEn).mon.withParam n v = some new)
    (hr : (s.sampleEn pins.paramEn).mon.changeRefused = some why) :
    exec (.monSet n v pins) s = .next ((s.sampleEn pins.paramEn).say [] why) := by
  rw [exec_monSet, execMonSet, State.onPort_listens hl]
  simp only [hv, hr]

theorem execMonSet_unsealed {new : Monument} (hv : (s.sampleEn pins.paramEn).mon.withParam n v = some new)
    (hs : s.mon.isSealed = false) :
    exec (.monSet n v pins) s = .next (((s.sampleEn pins.paramEn).modMon fun m =>
      { m with instr := new.instr, period := new.period, imp := new.imp }).say [] "OK") := by
  have hs' : (s.sampleEn pins.paramEn).mon.isSealed = false := hs
  rw [exec_monSet, execMonSet, State.onPort_listens hl]
  simp only [hv, Monument.changeRefused_unsealed hs', Monument.logWith_unsealed _ _ _ _ hs']
  rw [if_neg (by simp [hs']), if_neg (by simp [hs'])]
  rfl

section
variable {new : Monument} (hv : (s.sampleEn pins.paramEn).mon.withParam n v = some new) (hs : s.mon.isSealed = true)
  (hr : (s.sampleEn pins.paramEn).mon.changeRefused = none)
include hv hs hr

/-- The record the flash takes is read back before the value applies. -/
theorem execMonSet_logged (hok : pins.flashOk = true) :
    exec (.monSet n v pins) s = .next (((s.sampleEn pins.paramEn).modMon fun m =>
      { m.logWith true 0x02 n (m.paramBytes n) (new.paramBytes n) with
        instr := new.instr, period := new.period, imp := new.imp
        paramGen := BitVec.ofNat 32 m.log.length }).say [] "OK") := by
  have hs' : (s.sampleEn pins.paramEn).mon.isSealed = true := hs
  rw [exec_monSet, execMonSet, State.onPort_listens hl]
  simp only [hv, hr, hok, hs', Bool.not_true, Bool.and_false, Bool.false_eq_true, if_false, if_true]
  rfl

theorem execMonSet_lost (hok : pins.flashOk = false) :
    exec (.monSet n v pins) s = .next (((s.sampleEn pins.paramEn).modMon fun m =>
      m.logWith false 0x02 n (m.paramBytes n) (new.paramBytes n)).say [] "ERR FLASH") := by
  have hs' : (s.sampleEn pins.paramEn).mon.isSealed = true := hs
  rw [exec_monSet, execMonSet, State.onPort_listens hl]
  simp only [hv, hr, hok, hs', Bool.not_false, Bool.and_true, if_true]
  rfl

end

end

theorem Monument.withParam_period {k : Nat} (h1 : 1 ≤ k) (h2 : k ≤ 3600) :
    m.withParam 2 (.number k) = some { m with period := k } := if_pos (by simp [h1, h2])

theorem Monument.withParam_period_range {k : Nat} (h : k = 0 ∨ 3600 < k) : m.withParam 2 (.number k) = none := by
  have hk : ¬ (1 ≤ k ∧ k ≤ 3600) := by omega
  rw [Monument.withParam, if_neg (by simpa using fun h1 => not_le.mp fun h2 => hk ⟨h1, h2⟩), if_neg (by simp)]

theorem Monument.withParam_instr {t : List Byte} (hlen : t.length = 16) (hc : ∀ c ∈ t, 0x20 ≤ c.toNat ∧ c.toNat < 0x7F) :
    m.withParam 1 (.text t) = some { m with instr := t } := by
  have hall : t.all (fun c => 0x20 ≤ c.toNat && c.toNat < 0x7F) = true :=
    List.all_eq_true.mpr fun c h => by simpa using hc c h
  exact if_pos (by simp [hlen, hall])

theorem Monument.withParam_imp {n k : Nat} (h1 : 0x10 ≤ n) (h2 : n < 0x1C) (h3 : 1 ≤ k) (h4 : k ≤ 100000) :
    m.withParam n (.number k) = some { m with imp := m.imp.set (n - 0x10) k } := by
  have hn : n ≠ 2 := by omega
  rw [Monument.withParam, if_neg (by simp [hn]), if_pos (by simp [h1, h2, h3, h4])]

/-! ### Tamper and sealing (R536, R541) -/

/-- MON_TAMPER_CLEAR that is accepted: the record, and the latch clear unless a sealed Monument's flash lost it. -/
theorem execMonTamperClear_accepted {en : Bool} (hl : s.mon.listens = true) (ht : s.mon.tamper = true)
    (hr : (s.sampleEn en).mon.changeRefused = none) :
    exec (.monTamperClear en) s = .next (
      if s.mon.isSealed && !s.mon.takes then ((s.sampleEn en).modMon fun m => m.logEvent 0x04 0 [] []).say [] "ERR FLASH"
      else (((s.sampleEn en).modMon fun m => m.logEvent 0x04 0 [] []).modMon fun m => { m with tamper := false }).say [] "OK") := by
  have ht' : (s.sampleEn en).mon.tamper = true := ht
  rw [exec_monTamperClear, execMonTamperClear, State.onPort_listens hl]
  simp only [ht', hr, Bool.not_true, Bool.false_eq_true, if_false]
  rfl

/-- The Monument erased and its key generated, before the seal header is written. -/
def Monument.erased (m : Monument) (key : Nat) : Monument :=
  { m with
    isSealed := true, keyNo := key, counters := [], readSeq := 0, powerups := 0, signatures := 0, log := []
    checkpoints := [], nextSlot := 0, unlogged := 0, logFull := false, flashFault := false, paramGen := 0xFFFFFFFF
    jtagSegment := false }

/-- The sealed Monument before its record 0. -/
def Monument.headed (m : Monument) (key : Nat) : Monument :=
  let m1 := m.erased key
  { (m1.flash m1.eraseAll).program 0 m1.sealHeader with header := m1.sealHeader, signatures := 1 }

theorem Monument.sealNow_eq (key : Nat) (hc : 1 ≤ m.logCap) : m.sealNow key = { m.headed key with
    spi := (m.headed key).spi ++ (m.headed key).recordOps 0x01 0 [] []
    log := [(m.headed key).nextRecord 0x01 0 [] []], logFull := m.logCap ≤ 1 } := by
  have h : m.sealNow key = (m.headed key).logWith true 0x01 0 [] [] := rfl
  rw [h, Monument.logWith_taken (m := m.headed key) _ _ _ _ rfl hc]
  rfl

/-- MON_SEAL of an unsealed Monument. -/
theorem execMonSeal_unsealed (hl : s.mon.listens = true) (hs : s.mon.isSealed = false) :
    exec (.monSeal Config.deviceSerial true true) s = .next ((({ s.sampleEn true with fresh := s.fresh + 1 } : State).modMon
      fun m => m.sealNow s.fresh).say [hexGroups ((s.sampleEn true).mon.sealNow s.fresh).fingerprint] "OK") := by
  rw [exec_monSeal, execMonSeal, State.onPort_listens hl]
  have hs' : (s.sampleEn true).mon.isSealed = false := hs
  rw [if_neg (by simp [hs']), if_neg (by simp), if_neg (by simp)]
  rfl

end

/-- Settles O48: a line is answered when the port listens; a change is sorted by the value, the seal and the log. -/
theorem verificationPortAnswers : Obligations.VerificationPortAnswers := by
  unfold Obligations.VerificationPortAnswers
  refine ⟨?idKey, ?last, ?none, ?read, ?param, ?log, ?syn, ?unsealed, ?locked, ?logged, ?lost, ?range, ?instr, ?imp, ?testOff,
    ?testRange, ?test, ?unlatch, ?unlatchSealed, ?deaf, ?sealing, ?again, ?broken⟩
  case idKey =>
    intro s hl hs
    have hkey : s.portKey = (s.mon.keyBytes, s) := if_pos hs
    refine ⟨?_, ?_⟩
    · rw [exec_monId, execMonId, State.onPort_listens hl]
      dsimp only
      rw [hkey, if_pos hs]
      rfl
    · rw [exec_monKey, execMonKey, State.onPort_listens hl]
      dsimp only
      rw [hkey]
  case last =>
    intro s r hl hr
    rw [exec_monLast, execMonLast, State.onPort_listens hl, State.sayLast]
    simp only [hr]
  case none =>
    intro s hl hr
    rw [exec_monLast, execMonLast, State.onPort_listens hl, State.sayLast]
    simp only [hr]
  case read =>
    intro s hl
    rw [exec_monRead, execMonRead, State.onPort_listens hl]
    rfl
  case param =>
    intro s hl
    refine ⟨_, by rw [exec_monParam, execMonParam, State.onPort_listens hl], ?_⟩
    simp
  case log =>
    intro s i r hl hr
    rw [exec_monLog, execMonLog, State.onPort_listens hl]
    simp only [hr]
  case syn =>
    intro s hl
    rw [exec_monSyntaxError, execMonSyntaxError, State.onPort_listens hl]
  case unsealed =>
    intro s k en ok hl hs h1 h2
    rw [execMonSet_unsealed hl (Monument.withParam_period h1 h2) hs]
    rfl
  case locked =>
    intro s k ok hl hs h1 h2
    exact execMonSet_refused hl (Monument.withParam_period h1 h2) (Monument.changeRefused_locked hs rfl)
  case logged =>
    intro s k hl hs hf hc h1 h2
    have hr : (s.sampleEn true).mon.changeRefused = none := Monument.changeRefused_open rfl hf hc
    have hlog := Monument.logWith_taken (m := (s.sampleEn true).mon) 0x02 2
    refine ⟨_, execMonSet_logged hl (Monument.withParam_period h1 h2) hs hr rfl, rfl, rfl, ?_, ?_⟩
    · show (Monument.logWith _ _ _ _ _ _).log.length = _
      rw [hlog _ _ hs hc]
      simp [State.sampleEn, State.modMon]
    · show (Monument.logWith _ _ _ _ _ _).counters = _
      rw [hlog _ _ hs hc]
      rfl
  case lost =>
    intro s k hl hs hf hc h1 h2
    have hr : (s.sampleEn true).mon.changeRefused = none := Monument.changeRefused_open rfl hf hc
    refine ⟨(s.sampleEn true).mon.recordOps 0x02 2 ((s.sampleEn true).mon.paramBytes 2)
      (Monument.paramBytes { (s.sampleEn true).mon with period := k } 2), ?_⟩
    rw [execMonSet_lost hl (Monument.withParam_period h1 h2) hs hr rfl, State.modMon, Monument.logWith_lost (m := (s.sampleEn true).mon) _ _ _ _ hs hc]
    rfl
  case range =>
    intro s k en ok hl h
    exact execMonSet_range hl (Monument.withParam_period_range h)
  case instr =>
    intro s t en ok hl hs hlen hc
    rw [execMonSet_unsealed hl (Monument.withParam_instr hlen hc) hs]
    rfl
  case imp =>
    intro s n k en ok hl hs h1 h2 h3 h4
    rw [execMonSet_unsealed hl (Monument.withParam_imp h1 h2 h3 h4) hs]
    rfl
  case testOff =>
    intro s hl
    rw [exec_monTest, execMonTest, State.onPort_listens hl]
  case testRange =>
    intro s i hl hi
    rw [exec_monTest, execMonTest, State.onPort_listens hl]
    exact congrArg Host.Outcome.next (if_pos hi)
  case test =>
    intro s i hl hi
    rw [exec_monTest, execMonTest, State.onPort_listens hl]
    exact congrArg Host.Outcome.next (if_neg (by omega))
  case unlatch =>
    intro s en hl ht hs
    have hs' : (s.sampleEn en).mon.isSealed = false := hs
    rw [execMonTamperClear_accepted hl ht (Monument.changeRefused_unsealed hs'), if_neg (by simp [hs])]
    simp only [State.modMon, Monument.logEvent]
    rw [Monument.logWith_unsealed (m := (s.sampleEn en).mon.tried) _ _ _ _ hs]
    rfl
  case unlatchSealed =>
    intro s hl ht hs hf hc
    have hr : (s.sampleEn true).mon.changeRefused = none := Monument.changeRefused_open rfl hf hc
    rw [execMonTamperClear_accepted hl ht hr, hs]
    rcases Bool.eq_false_or_eq_true s.mon.takes with h | h
    · rw [h]
      refine ⟨_, rfl, rfl, ?_⟩
      show (Monument.logEvent (s.sampleEn true).mon 0x04 0 [] []).log.length = _
      have h' : (s.sampleEn true).mon.takes = true := h
      rw [Monument.logEvent, h', Monument.logWith_taken (m := (s.sampleEn true).mon.tried) _ _ _ _ hs hc]
      exact List.length_append
    · rw [h]
      refine ⟨_, rfl, ?_, ?_⟩
      · show (Monument.logEvent (s.sampleEn true).mon 0x04 0 [] []).tamper = _
        obtain ⟨_, _, _, _, _, -, hlog⟩ := Monument.logEvent_eq (m := (s.sampleEn true).mon) 0x04 0 [] []
        rw [hlog]
        exact ht
      · show (Monument.logEvent (s.sampleEn true).mon 0x04 0 [] []).log.length = _
        have h' : (s.sampleEn true).mon.takes = false := h
        rw [Monument.logEvent, h', Monument.logWith_lost (m := (s.sampleEn true).mon.tried) _ _ _ _ hs hc]
        rfl
  case deaf =>
    intro s hl
    refine ⟨?_, ?_, fun n v pins => ?_⟩
    · rw [exec_monId, execMonId, State.onPort_deaf hl]
    · rw [exec_monRead, execMonRead, State.onPort_deaf hl]
    · rw [exec_monSet, execMonSet, State.onPort_deaf hl]
  case sealing =>
    intro s hl hs hc
    refine ⟨_, _, execMonSeal_unsealed hl hs, ?_⟩
    simp only [State.modMon]
    rw [Monument.sealNow_eq (m := (s.sampleEn true).mon) _ hc]
    exact ⟨rfl, rfl, rfl, rfl, rfl, fun r hr => by rw [List.mem_singleton.mp hr]; rfl, rfl, rfl⟩
  case again =>
    intro s dsn en ok hl hs
    have hs' : (s.sampleEn en).mon.isSealed = true := hs
    rw [exec_monSeal, execMonSeal, State.onPort_listens hl]
    simp only [hs', Bool.true_or, if_true]
  case broken =>
    intro s hl hs
    have hs' : (s.sampleEn true).mon.isSealed = false := hs
    refine ⟨{ (s.sampleEn true).mon.flash (s.sampleEn true).mon.eraseAll with
      flashFault := true, log := [], checkpoints := [], nextSlot := 0 }, ?_, hs, rfl, rfl, rfl⟩
    rw [exec_monSeal, execMonSeal, State.onPort_listens hl]
    dsimp only
    rw [if_neg (by simp [hs']), if_neg (by simp), if_pos (by simp)]
    rfl

end Sys2Proof.Machine

/-! PROOFS. Mailboxes (O38). -/

namespace Sys2Proof.Machine

section
variable {s t : State} {p k i : Nat}

/-! ### Doorbells (R495, R497) -/

theorem State.ringHost_tells (p bit : Nat) : s.OnlyTells (s.ringHost p bit) := by
  unfold State.ringHost
  dsimp only
  split
  · exact (s.setPort_tells ..).trans (State.portEvent_tells ..)
  · exact s.setPort_tells ..

theorem State.ringCore_tells (k reg bit : Nat) : s.OnlyTells (s.ringCore k reg bit) := s.modCore_tells ..

/-- Whoever receives, its doorbell is all that a post rings. -/
theorem State.mbRing_tells (i : Nat) : s.OnlyTells (s.mbRing i) := by
  unfold State.mbRing
  split
  · exact State.ringCore_tells ..
  split
  · exact State.ringHost_tells ..
  iterate 4
    split
    · exact State.ringCore_tells ..
  split
  · split
    · exact State.ringHost_tells ..
    · exact .refl s
  iterate 2
    split
    · exact State.ringCore_tells ..
  exact State.ringCore_tells ..

theorem State.mbRing_request (h : i < 32) : s.mbRing i = s.ringCore 48 0 i := if_pos h

theorem State.mbRing_reply (h1 : 32 ≤ i) (h2 : i < 64) : s.mbRing i = s.ringHost ((i - 32) / 4) (i % 4) := by
  rw [State.mbRing, if_neg (by omega), if_pos h2]

/-- The bit of MB_HDB is set, whatever the event does to the port besides. -/
theorem State.ringHost_hdb {bit : Nat} (h : bit < 32) : ((s.ringHost p bit).port p).hdb.getLsbD bit = true := by
  have hset (x : Port) : ({ x with hdb := x.hdb ||| BitVec.ofNat 32 (2 ^ bit) } : Port).hdb.getLsbD bit = true := by
    rw [BitVec.getLsbD_or, BitVec.getLsbD_ofNat, Nat.testBit_two_pow_self]
    simp [h]
  unfold State.ringHost
  dsimp only
  split
  · obtain ⟨_, _, hport⟩ := State.portEvent_latches (s.setPort p { s.port p with
      hdb := (s.port p).hdb ||| BitVec.ofNat 32 (2 ^ bit) }) p 3 p
    rw [hport, State.setPort_port_self]
    exact hset _
  · rw [State.setPort_port_self]
    exact hset _

theorem State.OnlyTells.mailbox (h : s.OnlyTells t) (i : Nat) : t.mailbox i = s.mailbox i := by
  obtain ⟨_, _, _, _, _, _, _, _, rfl⟩ := h
  rfl

/-! ### Posts and releases (R493) -/

theorem State.setMailbox_set (i : Nat) (a b : Mailbox) : (s.setMailbox i a).setMailbox i b = s.setMailbox i b := by
  simp only [State.setMailbox, Tab.set_set]

/-- The mailbox after a post of a length that is not refused. -/
def Mailbox.posted (b : Mailbox) (len : Nat) : Mailbox :=
  { b with full := true, len, collision := b.collision || b.full }

theorem State.mbPostLen_posts {len : Nat} (h1 : 1 ≤ len) (h2 : len ≤ 32) (i : Nat) :
    s.mbPostLen i len = (s.setMailbox i ((s.mailbox i).posted len)).mbRing i :=
  if_neg (by simp; omega)

theorem State.mbPostLen_refused {len : Nat} (h : len = 0 ∨ 32 < len) (i : Nat) :
    s.mbPostLen i len = s.setMailbox i { s.mailbox i with fieldRefused := true } := if_pos (by simpa using h)

theorem State.mbPostLen_mailbox {len : Nat} (h1 : 1 ≤ len) (h2 : len ≤ 32) (i j : Nat) :
    (s.mbPostLen i len).mailbox j = if j = i then (s.mailbox i).posted len else s.mailbox j := by
  rw [State.mbPostLen_posts h1 h2, (State.mbRing_tells i).mailbox, State.setMailbox_mailbox]

theorem State.mbPostLen_mem {len : Nat} (h1 : 1 ≤ len) (h2 : len ≤ 32) (i : Nat) :
    (s.mbPostLen i len).mem = s.mem := by
  rw [State.mbPostLen_posts h1 h2, (State.mbRing_tells i).mem]
  rfl

theorem State.mbRelease_request (hi : i < 32) (hf : (s.mailbox i).full = true) :
    s.mbRelease i = (s.setMailbox i { s.mailbox i with full := false }).ringHost (i / 4) (8 + i % 4) := by
  rw [State.mbRelease, if_neg (by simp [hf]), if_pos hi]

/-- Releasing anything but a request rings nobody. -/
theorem State.mbRelease_quiet (hi : 32 ≤ i) (hs : i ≠ instSecureReq) : s.mbRelease i =
    if (s.mailbox i).full then s.setMailbox i { s.mailbox i with full := false } else s := by
  rw [State.mbRelease]
  cases hf : (s.mailbox i).full
  · rfl
  · rw [if_neg (by simp), if_neg (by omega), if_neg hs]
    rfl

/-! ### The registers of a port (R499, R555) -/

theorem State.barAccess_recovering (hr : s.reachable p = true) (hv : s.recovering = true) (n : Nat) (f : State → State) :
    (s.hostTlp p 0 n).barAccess p f = (s.hostTlp p 0 n).unclaimed p := by
  have hr' : (s.hostTlp p 0 n).reachable p = true := by simpa [State.reachable, State.linked] using hr
  have hv' : (s.hostTlp p 0 n).recovering = true := by simpa [State.recovering] using hv
  simp [State.barAccess, hr', hv']

theorem execMbReqPost_open (h : s.barOpen p = true) {m : Nat} (hm : m < 4) (v : BitVec 32) :
    exec (.mbReqPost p m v) s = .next ((s.hostTlp p 0 4).mbPostLen (4 * p + m) (bitsOf v.toNat 5 0)) := by
  rw [exec_mbReqPost, execMbReqPost, State.barAccess_open h, State.mbReqPost, State.portReq, if_pos hm]

/-! ### Writes of word 0 (R494) -/

theorem State.mbSender_request (h : i < 32) : s.mbSender i = .host (i / 4) := if_pos h
theorem State.mbReceiver_request (h : i < 32) : s.mbReceiver i = .core 48 := if_pos h

theorem State.mbWord0_port (hi : i < 32) (v : BitVec 32) : s.mbWord0 (.port (i / 4)) i v =
    (let s2 := s.setMailbox i (((s.mailbox i).putWord 0 (v.setWidth 16)).putWord 1 (v.extractLsb' 16 16))
    if (s.mailbox i).wake then s2.mbPostLen i 32 else s2) := by
  rw [State.mbWord0, State.mbSender_request hi, State.mbReceiver_request hi]
  dsimp only
  rw [if_neg (by simp [senderParty])]
  simp only [State.modMailbox, State.setMailbox_mailbox_self, State.setMailbox_set]
  rfl

theorem State.mbWord0_core {c : Nat} (hs : s.mbSender i = .core k) (hm : mbMayUse k c i = true) (v : BitVec 32) :
    s.mbWord0 (.core k c) i v =
    (let s2 := s.setMailbox i ((s.mailbox i).putWord 0 (v.setWidth 16))
    if (s.mailbox i).wake then
      match s.mbReceiver i with
      | .core j => (s2.mbPostLen i 32).ungate j
      | _ => s2.mbPostLen i 32
    else s2) := by
  rw [State.mbWord0, hs]
  dsimp only
  rw [if_neg (by simp [senderParty, hm])]
  rfl

theorem State.ungate_tells (k : Nat) : s.OnlyTells (s.ungate k) := by
  unfold State.ungate
  split
  · exact .foldl (fun s _ => s.modCore_tells ..) _ s
  · exact .refl s

/-- A core is one of the four of its group. -/
theorem State.ungate_gated (h : k < 48) : ((s.ungate k).core k).gated = false := by
  have hk : k = 4 * (k / 4) + k % 4 := by omega
  have hmod : k % 4 < 4 := Nat.mod_lt _ (by omega)
  rw [State.ungate, if_pos h]
  generalize 4 * (k / 4) = b at hk ⊢
  generalize k % 4 = j at hk hmod
  subst hk
  have hj : j = 0 ∨ j = 1 ∨ j = 2 ∨ j = 3 := by omega
  rcases hj with rfl | rfl | rfl | rfl <;> simp [List.range, List.range.loop, State.modCore]

/-! ### Requests and replies (R500) -/

theorem execMailboxRequestTake_taken (hm : s.mode = .ready) (hi : i < 32) (hf : (s.mailbox i).full = true)
    (hr : (s.mailbox (32 + i)).full = false) (hs : ∀ v ∈ s.service, v.inst ≠ i) :
    exec (.mailboxRequestTake i) s = .next (
      let ws := (List.range (s.mailbox i).len).map fun w => (s.mailbox i).words.get w 0
      if (s.mailbox i).collision || !mbAccepts i (ws.headD 0).toNat then (s.mbRelease i).postReply i [3]
      else { s.mbRelease i with
        service := (s.mbRelease i).service ++ [{ inst := i, words := ws, order := s.seqNo }], seqNo := s.seqNo + 1 }) := by
  have hreply : replyInst i = 32 + i := if_neg (by simp [instSecureReq]; omega)
  have hnone : s.service.any (fun v => decide (v.inst = i)) = false := by simpa using hs
  rw [exec_mailboxRequestTake, execMailboxRequestTake]
  dsimp only
  rw [hreply, hnone, if_neg (by simp [hm, hi, hf, hr])]

/-- The words of a message, written one after another from word `n`. -/
theorem Mailbox.putWords_get (l : List Word) (n w : Nat) (b : Mailbox) :
    (((List.range' n l.length).zip l).foldl (fun (b : Mailbox) jw => b.putWord jw.1 jw.2) b).words.get w 0 =
      if n ≤ w ∧ w < n + l.length then l.getD (w - n) 0 else b.words.get w 0 := by
  induction l generalizing n b with
  | nil => rw [if_neg (by simp)]; rfl
  | cons x l ih =>
    rw [List.length_cons, List.range'_succ, List.zip_cons_cons, List.foldl_cons, ih, Mailbox.putWord, Tab.get_set]
    by_cases hw : w = n
    · subst hw
      rw [if_neg (by omega), if_pos rfl, if_pos (by omega), Nat.sub_self]
      rfl
    · by_cases hin : n + 1 ≤ w ∧ w < n + 1 + l.length
      · obtain ⟨d, rfl⟩ : ∃ d, w = n + 1 + d := ⟨w - (n + 1), by omega⟩
        rw [if_pos hin, if_pos (by omega), show n + 1 + d - (n + 1) = d by omega, show n + 1 + d - n = d + 1 by omega]
        rfl
      · rw [if_neg hin, if_neg hw, if_neg (by omega)]

/-- The mailbox a reply is written in, before its post. -/
def Mailbox.replied (b : Mailbox) (words : List Nat) : Mailbox :=
  ((List.range words.length).zip (words.map fun w => (BitVec.ofNat 16 w : Word))).foldl
    (fun (b : Mailbox) jw => b.putWord jw.1 jw.2) b

theorem Mailbox.replied_get (b : Mailbox) (words : List Nat) {w : Nat} (h : w < words.length) :
    (b.replied words).words.get w 0 = BitVec.ofNat 16 (words.getD w 0) := by
  have hget := Mailbox.putWords_get (words.map fun w => (BitVec.ofNat 16 w : Word)) 0 w b
  rw [List.length_map, ← List.range_eq_range', if_pos (by omega)] at hget
  rw [Mailbox.replied, hget]
  simp [List.getD, h]

theorem State.postReply_posts (hi : i < 32) {words : List Nat} (h0 : words ≠ []) (h1 : words.length ≤ 32) :
    s.postReply i words = (s.setMailbox (32 + i) (((s.mailbox (32 + i)).replied words).posted words.length)).ringHost
      (i / 4) (i % 4) := by
  have hreply : replyInst i = 32 + i := if_neg (by simp [instSecureReq]; omega)
  have hbit : (32 + i) % 4 = i % 4 := by omega
  rw [State.postReply, hreply]
  dsimp only
  rw [State.mbPostLen_posts (List.length_pos_iff.mpr h0) h1, State.modMailbox, State.setMailbox_mailbox_self,
    State.setMailbox_set, State.mbRing_reply (by omega) (by omega), Nat.add_sub_cancel_left, hbit]
  rfl

end

/-- Settles O38: each end's access is a post, a release or a write of word 0, and rings one doorbell. -/
theorem mailboxesCarryMessages : Obligations.MailboxesCarryMessages := by
  unfold Obligations.MailboxesCarryMessages
  refine ⟨?post, ?refused, ?secure, ?release, ?word0, ?wake, ?recovery, ?denied, ?coreRelease, ?corePost, ?notSender,
    ?senderPost, ?receiverRelease, ?coreWord0, ?coreWake, ?take, ?invalid, ?reply⟩
  case post =>
    intro s p m v h hp hm h1 h2
    rw [execMbReqPost_open h hm, State.mbPostLen_posts h1 h2, State.mbRing_request (by omega), State.hostTlp_mailbox]
    rfl
  case refused =>
    intro s p m v h hm hlen
    rw [execMbReqPost_open h hm, State.mbPostLen_refused hlen, State.hostTlp_mailbox]
  case secure =>
    intro s p v h hp
    refine ⟨?_, ?_⟩
    · rw [exec_mbReqPost, execMbReqPost, State.barAccess_open h, State.mbReqPost, State.portReq, if_neg (by omega),
        if_neg (by simp [hp])]
    · rw [exec_mbRplRel, execMbRplRel, State.barAccess_open h, State.mbRplRel, State.portRpl, if_neg (by omega),
        if_neg (by simp [hp])]
  case release =>
    intro s p m v h hp hm hv
    rw [exec_mbRplRel, execMbRplRel, State.barAccess_open h, State.mbRplRel, State.portRpl, if_pos hm]
    dsimp only
    rw [if_pos hv, State.mbRelease_quiet (by omega) (by simp [instSecureReq]; omega), State.hostTlp_mailbox]
  case word0 =>
    rintro s _ inst v h hi rfl hw
    rw [exec_mbWakeWord0Write, execMbWakeWord0Write, State.senderWrite, State.barAccess_open h, State.mbWord0_port hi]
    dsimp only
    rw [State.hostTlp_mailbox, if_neg (by simp [hw])]
  case wake =>
    rintro s _ inst v h hi rfl hw hf
    refine ⟨_, by rw [exec_mbWakeWord0Write, execMbWakeWord0Write, State.senderWrite, State.barAccess_open h,
      State.mbWord0_port hi], ?_⟩
    dsimp only
    rw [State.hostTlp_mailbox, if_pos hw, State.mbPostLen_mailbox (by omega) (by omega), if_pos rfl,
      State.setMailbox_mailbox_self, State.mbPostLen_mem (by omega) (by omega)]
    refine ⟨rfl, rfl, ?_, ?_, ?_⟩
    · simp [Mailbox.posted, Mailbox.putWord, Tab.get_set]
    · simp [Mailbox.posted, Mailbox.putWord, hf]
    · simp
  case recovery =>
    intro s p m v hr hv
    rw [exec_mbReqPost, execMbReqPost, State.barAccess_recovering hr hv, exec_mbRplRel, execMbRplRel,
      State.barAccess_recovering hr hv]
    exact ⟨rfl, rfl⟩
  case denied =>
    intro s k inst v h
    rw [exec_mbPost, execMbPost, exec_mbRel, execMbRel, if_neg (by simp [h]), if_neg (by simp [h])]
    exact ⟨rfl, rfl⟩
  case coreRelease =>
    intro s inst v h hi hv hf
    have huse : mbMayUse 48 (s.core 48).cur inst = true := by simp [mbMayUse, mbSecure]; omega
    rw [exec_mbRel, execMbRel, if_pos h, State.mbRel, State.mbReceiver_request hi, if_pos (by simp [huse, hv]),
      State.mbRelease_request hi hf]
  case corePost =>
    intro s inst v h hi1 hi2 h1 h2
    have huse : mbMayUse 48 (s.core 48).cur inst = true := by simp [mbMayUse, mbSecure]; omega
    have hsend : s.mbSender inst = .core 48 := by rw [State.mbSender, if_neg (by omega), if_pos (by omega)]
    rw [exec_mbPost, execMbPost, if_pos h, State.mbPost, hsend, if_pos (by simp [huse]), State.mbPostLen_posts h1 h2,
      State.mbRing_reply hi1 hi2]
    rfl
  case notSender =>
    intro s k inst v h
    have hno : ¬ (decide (s.mbSender inst = .core k) && mbMayUse k (s.core k).cur inst) = true := by simp [h]
    rw [exec_mbPost, execMbPost, State.mbPost, if_neg hno, ite_self]
  case senderPost =>
    intro s k inst v h hs huse h1 h2
    rw [exec_mbPost, execMbPost, if_pos h, State.mbPost, if_pos (by simp [hs, huse]), State.mbPostLen_posts h1 h2]
    rfl
  case receiverRelease =>
    intro s k inst v h hs huse hi hsec hv hf
    rw [exec_mbRel, execMbRel, if_pos h, State.mbRel, if_pos (by simp [hs, huse, hv]), State.mbRelease_quiet hi hsec,
      if_pos hf]
  case coreWord0 =>
    intro s k c inst v h hcur hs huse hw
    rw [exec_mbWakeWord0Write, execMbWakeWord0Write, State.senderWrite, State.senderMay, if_pos (by simp [h, hcur]),
      State.mbWord0_core hs huse]
    dsimp only
    rw [if_neg (by simp [hw])]
  case coreWake =>
    intro s k c j inst v h hcur hs huse hw hrecv hj
    refine ⟨_, by rw [exec_mbWakeWord0Write, execMbWakeWord0Write, State.senderWrite, State.senderMay,
      if_pos (by simp [h, hcur]), State.mbWord0_core hs huse], ?_⟩
    dsimp only
    rw [if_pos hw, hrecv]
    dsimp only
    rw [(State.ungate_tells j).mailbox, (State.ungate_tells j).mem, State.ungate_gated hj,
      State.mbPostLen_mailbox (by omega) (by omega), if_pos rfl, State.setMailbox_mailbox_self,
      State.mbPostLen_mem (by omega) (by omega)]
    refine ⟨rfl, rfl, ?_, ?_, rfl, rfl⟩
    · simp [Mailbox.posted, Mailbox.putWord]
    · simp [Mailbox.posted, Mailbox.putWord]
  case take =>
    intro s inst hm hi hf hr hs hc hacc
    refine ⟨_, execMailboxRequestTake_taken hm hi hf hr hs, ?_⟩
    dsimp only
    have htells := State.ringHost_tells (s := s.setMailbox inst { s.mailbox inst with full := false }) (inst / 4) (8 + inst % 4)
    rw [if_neg (by rw [hc, hacc]; decide), State.mbRelease_request hi hf]
    refine ⟨?_, ?_, ?_⟩
    · exact (congrArg Mailbox.full (htells.mailbox inst)).trans (by rw [State.setMailbox_mailbox_self])
    · exact htells.mem
    · exact congrArg (· ++ _) htells.service
  case invalid =>
    intro s inst hm hi hf hr hs hc
    rw [execMailboxRequestTake_taken hm hi hf hr hs]
    dsimp only
    rw [if_pos (by simp [hc])]
  case reply =>
    intro s inst words hi h0 h1
    have htells := State.ringHost_tells (s := s.setMailbox (32 + inst)
      (((s.mailbox (32 + inst)).replied words).posted words.length)) (inst / 4) (inst % 4)
    rw [State.postReply_posts hi h0 h1]
    refine ⟨?_, ?_, fun w hw => ?_, fun j hj => ?_, State.ringHost_hdb (by omega), htells.mem, htells.service⟩
    · rw [htells.mailbox, State.setMailbox_mailbox_self]
      rfl
    · rw [htells.mailbox, State.setMailbox_mailbox_self]
      rfl
    · rw [htells.mailbox, State.setMailbox_mailbox_self]
      exact Mailbox.replied_get _ words hw
    · rw [htells.mailbox, State.setMailbox_mailbox, if_neg hj]

end Sys2Proof.Machine
